-- ==== Sys2Proof/Word.lean ====
section
/-! DEFINITION. The words of the machine: a register word of 32 bits (R40), a byte of a line (R138), and the plainest bit-field
arithmetic on natural numbers. -/

namespace Sys2Proof

/-- One byte of line data. -/
abbrev Byte := BitVec 8

/-- One register word (R40). -/
abbrev Word := BitVec 32

/-- Bits `[hi:lo]` of `n`. -/
def bits (n hi lo : Nat) : Nat := n / 2 ^ lo % 2 ^ (hi + 1 - lo)

/-- Bit `b` of `n`. -/
def bit (n b : Nat) : Bool := n / 2 ^ b % 2 == 1

/-- `n` with bits `[hi:lo]` replaced by the low bits of `v`. -/
def setBits (n hi lo v : Nat) : Nat :=
  n / 2 ^ (hi + 1) * 2 ^ (hi + 1) + v % 2 ^ (hi + 1 - lo) * 2 ^ lo + n % 2 ^ lo

/-- One bit as a number. -/
def b2n (b : Bool) : Nat := if b then 1 else 0

end Sys2Proof
end

