-- ==== Sys2Proof/Config.lean ====
section
/-! DEFINITION. What one machine of the model holds fixed: the named constants of the manual, each from the table of its home
chapter, and the free values, which are opaque so that nothing in Lean can evaluate them. -/

namespace Sys2Proof.Config

/-! Times are in CK_CTL cycles, which are 1 ns long (R354), unless the name says otherwise. -/

def T_VIN_VALID : Nat := 1000000
def START_STEP : Nat := 12000000
def TIER_STEP : Nat := 2000000
def RELAY_SETTLE : Nat := 50000
def RESURVEY_MAX : Nat := 1000000
def T_HUNT : Nat := 20000000
def LOCK_HDRS : Nat := 320
def LOSS_HDRS : Nat := 16
def T_CAP : Nat := 1000000
def T_DOWN_RETRY : Nat := 100000000
def MISS_INTERVAL : Nat := 1000000
def SAT_CLEAR : Nat := 10000
def HOLD_DEPTH : Nat := 64
def FIRM_BUDGET : Nat := 256
def FETCH_BATCH : Nat := 8
def CKPT_BYTES : Nat := 16 * 2 ^ 20
def MIG_MIN : Nat := 64 * 2 ^ 20
def MIG_HOLD : Nat := 10000000
def SHARD_SLOTS : Nat := 64
def ATOM_MAX : Nat := 65536
def MERGE_ENTRIES : Nat := 256
def REF_DEBT_MAX : Nat := 4
def NREF_DEPTH : Nat := 4
def ADMIT_DEPTH : Nat := 64
def BANK_DEPTH : Nat := 8
def CE_DEPTH : Nat := 64
def SUSPECT_HITS : Nat := 4
def SUSPECT_WINDOW : Nat := 1000000
def ELOG_DEPTH : Nat := 32
def GROUP_SPARES : Nat := 64
def MIN_MARGIN : Nat := 25
def XMARGIN_MIN : Nat := 20
def CAL_GAP : Nat := 1000000
/-- T_ALERT in ns (ch. 11). -/
def T_ALERT : Nat := 6
def JOURNAL_TIER : Nat := 128
def WAKE_WINDOW : Nat := 64
def SUBST_HOLD : Nat := 100000000
def LEDGER_MIN : Nat := 150
def TALLY_STEP : Nat := 1000
def PULSE_MAX : Nat := 3
def VIN_QUIET : Nat := 10
def LOAD_TRIES : Nat := 3
def RESET_DELAY : Nat := 10000
def CENSUS_SLOTS : Nat := 2304
def REPLAY_DEPTH : Nat := 128

/-! The timing of R292, in ns. -/

def tBURST : Nat := 4
def tRCD : Nat := 12
def tRP : Nat := 12
def tRAS : Nat := 28
def tRC : Nat := 40
def tCL : Nat := 12
def tCWL : Nat := 4
def tWR : Nat := 12
def tRTP : Nat := 4
def tWTR : Nat := 6
def tCCD_S : Nat := 4
def tCCD_L : Nat := 6
def tRRD_S : Nat := 2
def tRRD_L : Nat := 4
def tFAW : Nat := 12
def tRFCpb : Nat := 100
def tNR : Nat := 80
def tXS : Nat := 120
def tSR_MIN : Nat := 30
/-- T_QUIET in ns (R366). -/
def T_QUIET : Nat := 100
def tREFI : Nat := 3900

/-! User capacity (R6): 94 GiB, in bytes and in lines; the size of the line space of R139. -/

def userBytes : Nat := 0x1780000000
def userLines : Nat := 0x1780000000 / 128
def poolFirstRow : Nat := 30720

/-- The longest entry into a power state, in ns (R385). -/
def T_ENTRY : Nat := 100000

/-! ### Free values. Each is an uninterpreted constant: no proof can see what it is. -/

/-- The row that the rewriting of the dropped segments of a channel has reached, by channel and time since it began (R310): the manual gives its
order and its longest time. -/
opaque pasrRow : Nat → Nat → Nat

/-- The tier in which another device holds a line that its RETIRE_MAPs may have moved (R240), by device, how many it has had, and line: no message
tells the manager. -/
opaque movedTier : Nat → Nat → Nat → Nat

/-- The bits a tier's random bit generator delivers at its n-th draw (R311, R314): the entropy behind them is not the manual's. -/
opaque drbgBits : Nat → Nat

/-- The average input power in 10 mW and VIN in 10 mV that a device measures over the last CAP_AVG (R393), by draw. -/
opaque pwrMeas : Nat → Nat × Nat

/-- Whether a range of the ledger that is no whole number of 0.1 °C is taken up rather than down (R411). -/
opaque rangeUp : Nat → Bool

/-- The crossing group and position under which a memory march records the failed command path of a channel (R439): the march does not
tell which of the path's positions failed. -/
opaque marchPosition : Nat → Nat × Nat

/-- What a device other than the manager makes of an order that the manual gives no message for (R335, R365, R429, R456): a choice among
the codes its rule allows, and the VALUE it reports. -/
opaque remoteOrder : Nat → Nat × Nat

/-- Whether converter `i` fails the measurement of its internal reference in a runtime self-test (R456). -/
opaque bistSensor : Nat → Nat → Bool

/-- Whether a crossing group's margin lies below XMARGIN_MIN in a runtime self-test (R456). -/
opaque bistMargin : Nat → Nat → Bool

/-- With what a transmit lane begins to send, by row and lane: the state of its scrambler, its last level, and the state of its pattern
generator (R70, R73, R93). -/
opaque txScrambler : Nat → Nat → Nat
opaque txLevel : Nat → Nat → Nat
opaque prbsState : Nat → Nat → Nat

/-- How many frames a port has repeated since the row that the model laid out last: time between two commands is not the model's. -/
opaque framesBetween : Nat → Nat

/-- What a receive lane held when it locked: the state of its descrambler and the level received last (R70, R73). -/
opaque rxScrambler : Nat → Nat
opaque rxLevel : Nat → Nat

/-- The levels of the ROLE and START_SLOT straps at an exit from OFF, at which the device samples them (R2, R492): no row of the table of
operations carries them there. -/
opaque straps : Nat → Nat × Nat

/-- Whether a signal is present on receive lane `i` of a port that hunts and has neither locked nor been seen silent (R95). -/
opaque laneSignal : Nat → Nat → Bool

/-- What the words of a base die's ID region say of the device: its serial number, its trace and its ordering grade (R10, R60, R61): the manual
does not lay the region out. -/
opaque idSerial : List Nat → Nat
opaque idTrace : List Nat → Nat
opaque idGrade : List Nat → Bool

/-- Which lanes' PRBS checkers are synchronised, and how many errors a lane's checker has counted since the last look (R93, R95). -/
opaque prbsSync : Nat → Nat → Nat
opaque prbsErrors : Nat → Nat → Nat

/-- The row and column repairs in use on memory die `m` (R337, R353): the manual does not lay out the repair region's words. -/
opaque dieRepairs : Nat → Nat × Nat

/-- Where the overlapping sources of a SCATTER meet (R231), which source an element takes: any of them, open from run to run. -/
opaque overlapPick : Nat → Nat

/-- Whether the queue whose shard a device runs may name a KeyID (R234, R246): the SHARD message of R244 does not carry the queue's
permission set to a device that is not the manager. -/
opaque keyPermitted : Nat → Nat → Bool

/-- Which code of R246 a record draws whose address lies on a third device, by queue and address, at a device that is not the manager:
the manual does not give that device the topology table, the other device's map or the queue's permission set. -/
opaque farRecord : Nat → Nat → Nat

/-- The choice of a switch among the ports by which it may leave for a device that the message's own header does not place, by its own
number, the destination, the port of arrival (4 for a message of its own) and the port toward the manager (R168: the manual gives the
switch no table of its own). -/
opaque switchRoute : Nat → Nat → Nat → Nat → Nat

/-- What the test window reads at a line index beyond the user lines (R286 states nothing), by index and word. -/
opaque outsideLine : Nat → Nat → Nat

/-- Whether an ML-DSA-87 signature over a digest verifies under a key (FIPS 204, R442), as the standard defines it. -/
opaque mlDsaVerify : List Byte → List Byte → List Byte → Bool

end Sys2Proof.Config
end

