-- ==== Sys2Proof/Syntax.lean ====
section
/-! DEFINITION. The commands the block takes, one constructor for each row of the table of operations, and the types of their
operands. An operand holds what the manual says arrives, or what the physical world does and the manual does not compute (the
errors on a burst, a sensor's reading, the straps' levels). -/

namespace Sys2Proof

/-- The four ports (R65). -/
inductive Port where
  | ca | cb | e | w
  deriving DecidableEq, Repr

/-- The path and the sender of a register access (R42, R504): a CFG message of the host, a CFG message of the manager's warden
(AGENT 0b01, SRC 0), the device's own warden, or the I3C target. -/
inductive Path where
  | cfgHost | cfgWarden | ownWarden | i3c
  deriving DecidableEq, Repr

/-- The source agent of a message (R99). -/
inductive Agent where
  | switch | warden | queue | engine
  deriving DecidableEq, Repr

/-- The common header of a message, with the port it arrived on or leaves by (R99). -/
structure Hdr where
  port    : Port
  ndata   : Nat
  sc      : Fin 16
  tag     : BitVec 16
  src     : Fin 64
  srcHost : Bool
  dst     : Fin 64
  dstHost : Bool
  agent   : Agent
  flags   : Byte
  deriving DecidableEq, Repr

/-- The common fields of an ENG message (R124). -/
structure EngHdr where
  queue  : Nat
  dseq   : Word
  index  : Nat
  epoch  : Nat
  part   : Nat
  status : Byte
  deriving DecidableEq, Repr

/-- A notice (R128): the device that raised it, type, severity, the device concerned, sequence, count and 16 payload bytes. -/
structure Notice where
  src     : Fin 64
  ntype   : Nat
  sev     : Nat
  dev     : Nat
  nseq    : Nat
  count   : Nat
  payload : List Byte
  deriving DecidableEq, Repr

/-- A die that carries a fuse array (R417). -/
inductive Die where
  | base | tier (t : Fin 4) | mem (m : Fin 16)
  deriving DecidableEq, Repr

/-- What the two references say of a fuse cell (R421). -/
inductive Cell where
  | clear | marginal | strong
  deriving DecidableEq, Repr

/-- The place of a line in the stack (R139). -/
structure Place where
  pc  : Nat
  bg  : Nat
  bk  : Nat
  row : Nat
  col : Nat
  deriving DecidableEq, Repr

/-- What a start-up self-test item found (R438): the elements tested, the failing elements by the item's own numbering, and for
item 10 the command and address margins of the pseudo-channels and the pin items of R324, keyed 64 × pseudo-channel + pin. -/
structure TestResult where
  tested  : Nat
  failing : List Nat
  train   : List (Nat × Nat)
  pins    : List (Nat × Word × Word)
  deriving DecidableEq, Repr

/-- What a training or a re-measurement of interfaces found (R318 to R320): the least command and address margin of each pseudo-channel in
ps, the pin items of R324, keyed 64 × pseudo-channel + pin, and the crossing positions of pins without a passing window, numbered as for
item 10 of R438. -/
structure TrainObs where
  ca      : List (Nat × Nat)
  pins    : List (Nat × Word × Word)
  failing : List Nat
  deriving DecidableEq, Repr

/-- What a parity alert showed (R317): how many newer commands its pseudo-channel had issued since the failing one, and the position that the
test of the route found failing, or none. -/
structure AlertObs where
  later   : Nat
  failing : Option Nat
  deriving DecidableEq, Repr

/-- A finding of a memory march (R439). -/
inductive MarchFinding where
  | uncorr (p : Place) | sticky (p : Place) | pin (pc : Fin 64) (x : Fin 36) | command (n : Fin 32)
  deriving DecidableEq, Repr

/-- What a walk finds of one answering device (R18 step 3): role and generation, serial number, user capacity, the link records
of R22 as one word, and the port of the device by which the walk enters it (R11 to R13). -/
structure DevRec where
  role     : Fin 4
  gen232   : Bool
  serial   : BitVec 64
  userGib  : Nat
  links    : Word
  into     : Port
  deriving DecidableEq, Repr

/-- A device found on the trunk, with the devices found outward on its two spurs. -/
structure BranchRec where
  dev   : DevRec
  spurA : List DevRec
  spurB : List DevRec
  deriving DecidableEq, Repr

/-- The outcome of a walk: whether the ring is closed, and the trunk devices met east-about and, on an open ring, west-about,
each from the manager outward. -/
structure WalkRec where
  closed : Bool
  east   : List BranchRec
  west   : List BranchRec
  deriving DecidableEq, Repr

/-- The unit of an apply point (R54, R55). -/
inductive ApplyUnit where
  | port (p : Port) | chan (n : Fin 32) | tier (t : Fin 4) | queue (q : Nat) | census | reset
  deriving DecidableEq, Repr

/-- What an eye scan counted at the points of one eye, as disagreements of the offset sampler with the data decision (R91): at the
64 voltage steps at p = 32, at the 64 phase steps at v = 32, and in MAP mode at the phase steps of every voltage step (R92). -/
structure EyeObs where
  eye   : Fin 3
  volts : List Nat
  phase : List Nat
  map   : List (List Nat)
  deriving DecidableEq, Repr

/-- One entry of a fuse program list (R428). -/
structure FuseEntry where
  region : Nat
  word   : Nat
  data   : Word
  pump   : Bool
  zero   : Bool
  deriving DecidableEq, Repr

/-- The test of a suspect position (R332): its tier, crossing group and position, the pseudo-channel that was suspected, and
whether the position passed. -/
structure PinTest where
  tier     : Fin 4
  group    : Nat
  position : Nat
  pc       : Fin 64
  pass     : Bool
  deriving DecidableEq, Repr

/-- A measurement of a bit-group of a crossing group through a cell (R359 to R363): the margin in ps, the cell and its step with that margin,
and whether the cell failed. -/
structure GroupMargin where
  group    : Nat
  margin   : Nat
  bitGroup : Nat
  cell     : Nat
  step     : Nat
  failed   : Bool
  deriving DecidableEq, Repr

/-- What a calibration of a tier measured (R320, R363): its crossing groups, and its interfaces. -/
structure CalObs where
  margins : List GroupMargin
  train   : TrainObs
  deriving DecidableEq, Repr

/-- A tier whose heartbeat returns, and what its calibration and training then measured (R370). -/
structure RejoinObs where
  tier : Fin 4
  cal  : CalObs
  deriving DecidableEq, Repr

/-- A channel whose exit from self-refresh ends, and what a re-measurement of its interface found where it missed a calibration (R305, R320). -/
structure ExitObs where
  chan  : Fin 32
  train : TrainObs
  deriving DecidableEq, Repr


/-- The commands and events of the table of operations: one constructor for each row of spec/opcode_table.json. -/
inductive Instr where
  /-- R375. VIN has stayed at or above 5.8 V for T_VIN_VALID and counts as valid, opening a cold start. -/
  | vinValid (role : Fin 4) (slot : Fin 64)
  /-- R375. VIN falls below 5.6 V; every rail, the always-on domain included, turns off within 10 µs and the device is unpowered. -/
  | vinLoss
  /-- R376. VIN leaves 6 V to 40 V while staying above 5.6 V; VIN_RANGE is set and a SUPPLY notice is raised. -/
  | vinRange (mv10 : Nat)
  /-- R493. An accepted low on RESET_N idles the ports, discards merge entries, holds written-back writes, puts the DRAM into self-refresh and closes the relays. -/
  | resetNLow
  /-- R492. RESET_N is released with VIN valid; this fixes t_S and begins the start-slot wait. -/
  | resetRelease (role : Fin 4) (slot : Fin 64)
  /-- R380. The wait of START_SLOT × START_STEP ends and the device begins its start sequence. -/
  | startSlotExpiry
  /-- R378. A rail stays outside its window for more than 10 µs outside a ramp, which is a FATAL event of the power group. -/
  | railFault (rail : Fin 6)
  /-- R358. The PLL locks to a valid REFCLK; port training and CK_TSV to the tiers may then begin. -/
  | pllLock
  /-- R357. A 1 µs LOSC window closes; a REFCLK edge count outside 80 to 120 is a FATAL REFCLK fault. -/
  | refclkWindow (edges : Nat)
  /-- R357. The PLL loses lock; PLL_LOCK clears and the event is classified FATAL in the clock fault source. -/
  | pllUnlock
  /-- R421. A die's fuses have been sensed at both references, decoded and classified into region states in the shadows. -/
  | fuseSenseDone (die : Die) (drift : List (Nat × Cell))
  /-- R438. A start-up self-test item finishes; its result is recorded and a failure excludes the element or fails the start. -/
  | selfTestItemDone (item : Fin 12) (r : TestResult)
  /-- R439. The full or quick memory march of a tier ends, with findings entered in the error log. -/
  | memorySelfTestDone (tier : Fin 4) (found : List MarchFinding)
  /-- R435. Every unretired tier runs microcode and the warden runs firmware; the set-up lock closes and START_DONE is set. -/
  | startDone
  /-- R443. The boot ROM has read the manager's image header and checks it, signatures included, entering the dead state on failure. -/
  | imageHeaderCheck (sfdp : Bool) (density : Nat) (header : List Byte)
  /-- R443. The read of one image component from flash ends and its hash is checked. -/
  | componentReadDone (k : Fin 16) (data : List Byte)
  /-- R27. 2 × RELAY_SETTLE after the relays were commanded open, the east and west ports begin to send training blocks. -/
  | relayWaitExpiry
  /-- R18. The manager walks the trunk and the spurs to record devices, and starts the walk over whenever one of its links changes. -/
  | enumerationWalk (walk : WalkRec)
  /-- R18. ENUM_SETTLE has passed since RESET_N release; the manager applies the limits, assigns numbers and fills the topology table. -/
  | enumSettleExpiry
  /-- R23. A link-state change on the trunk or a spur, or a plan write, starts or restarts a re-survey and sets UNSETTLED. -/
  | resurvey
  /-- R23. Once the links have settled, the topology table is updated atomically and the topology notice is raised. -/
  | topologyTableUpdate (walk : WalkRec)
  /-- R25. A numbered device answers again at its old position; it enters returning and its number is written back. -/
  | returning (n : Fin 64) (serial : BitVec 64)
  /-- R63. A write of COMMIT adopts the held plan or refuses it, clears AUTO and triggers a re-survey. -/
  | planCommit (path : Path)
  /-- R60. A write to IDENT.DEVNUM is taken only from the own warden or the manager's warden, and sets NUM_CHANGED. -/
  | devnumWrite (path : Path) (w : Word)
  /-- R54. A write to a register that has no row of its own is checked by field type and buffered until its apply point. -/
  | registerWrite (path : Path) (addr : Nat) (w : Word)
  /-- R48. A write to a bit alias changes only that bit, where the bit's field type allows it. -/
  | aliasWrite (path : Path) (addr : Nat) (w : Word)
  /-- R51. A write to a status register clears the latched flags written as 1 when SEQ matches, and otherwise sets STALE. -/
  | statusWrite (path : Path) (addr : Nat) (w : Word)
  /-- R54. A BLK, REF, DSC, CEN or BOOT boundary is reached and the buffered writes of that unit take effect together. -/
  | applyPoint (unit : ApplyUnit)
  /-- R43. An 8-byte I3C private write performs one register write, and other lengths have no effect. -/
  | i3cPrivateWrite (bytes : List Byte)
  /-- R43. A 4-byte address write, a repeated START and a 4-byte read perform one register read. -/
  | i3cPrivateRead (bytes : List Byte) (count : Nat)
  /-- R43. The I3C controller assigns a dynamic address to the device from its static address. -/
  | setdasa (static : BitVec 7) (dynamic : BitVec 7)
  /-- R43. The I3C controller runs dynamic address assignment, and the device takes an address. -/
  | entdaa (dynamic : BitVec 7)
  /-- R58. A write of MBX.CTL with REQ = 1 and DIR = 0 starts a page read of the selected item. -/
  | mbxRead (path : Path) (tag : Byte)
  /-- R58. A write of MBX.CTL with REQ = 1 and DIR = 1 takes a writable item from DATA. -/
  | mbxWrite (path : Path) (tag : Byte)
  /-- R58. A mailbox transfer ends within 1 µs, setting LEN, VALID or ERR and clearing BUSY. -/
  | mbxTransferDone (path : Path)
  /-- R270. The owner finishes initialising the extent and tag region; the entry takes effect, held requests are released and MAP_BUSY clears. -/
  | mapInitDone
  /-- R78. Setting ENABLE, or reset release, puts a port into HUNT_FULL, or into HUNT_HALF when MAX_RATE = 0. -/
  | linkEnable (path : Path) (p : Port)
  /-- R95. Clearing ENABLE puts the port into OFF. -/
  | linkDisable (path : Path) (p : Port)
  /-- R78. T_HUNT passes in HUNT_FULL without lock, and the port falls back to HUNT_HALF. -/
  | huntTimeout (p : Port)
  /-- R79. A receive lane counts LOCK_HDRS consecutive valid headers and locks; at four locked lanes the port enters CAP. -/
  | laneLock (p : Port) (lane : Fin 8) (peer : Fin 8) (inverted : Bool)
  /-- R80. LOSS_HDRS invalid headers out of the last 320 lose lane lock, and the port retrains when it is in CAP, STEP or ACTIVE. -/
  | laneLockLoss (p : Port) (lane : Fin 8)
  /-- R81. A capability block with a good CRC is received; PEER_SEEN is set, and version, width and miswiring are judged. -/
  | capBlock (p : Port) (block : List Byte)
  /-- R81. After 16 more CAP frames the port enters ACTIVE or STEP, resuming or restarting the row sequence. -/
  | capExchangeDone (p : Port)
  /-- R81. The exchange is not complete T_CAP after entering CAP, and the port retrains at the same rate. -/
  | capTimeout (p : Port)
  /-- R506. A port holding 1 to 3 locked lanes for T_HUNT enters DOWN. -/
  | downEntry (p : Port)
  /-- R506. T_DOWN_RETRY in DOWN expires and the port hunts again as after reset release. -/
  | downRetry (p : Port)
  /-- R85. 16 rows of STEP frames have been sent, and the ends go silent for 1 µs. -/
  | stepFramesDone (p : Port)
  /-- R85. The 1 µs silence of a step-up ends, and the port hunts at 112 Gbit/s for T_HUNT. -/
  | stepSilenceEnd (p : Port)
  /-- R86. A step-up finds no lock within T_HUNT; the port returns to HUNT_HALF and sets NO_STEP toward that partner. -/
  | stepUpFail (p : Port)
  /-- R80. Silence for T_LOS on all data lanes makes the port hunt again from its last active rate. -/
  | lossOfSignal (p : Port)
  /-- R80. Silence for T_LOS on the forwarded clock lane switches the receiver to REFCLK and clears CLK. -/
  | clockLaneSilent (p : Port)
  /-- R95. A write of LINK_x.CTL.RETRAIN retrains the port at its current rate with resume. -/
  | retrain (path : Path) (p : Port)
  /-- R86. A write of LINK_x.CTL.STEP_UP clears NO_STEP and retrains the port. -/
  | stepUp (path : Path) (p : Port)
  /-- R94. MODE = 0b01 takes the port out of traffic into PRBS at the next row boundary. -/
  | prbsEnter (path : Path) (p : Port)
  /-- R94. MODE = 0b00 returns the port from PRBS to the hunt at its last active rate, keeping its replay buffer. -/
  | prbsExit (path : Path) (p : Port)
  /-- R95. A write of PRBS_CTL.CLR zeroes all PRBS error counters. -/
  | prbsClear (path : Path) (p : Port)
  /-- R92. A write of EYE_CTL.START starts a CROSS or MAP scan of the selected lane and eyes. -/
  | eyeScanStart (path : Path) (p : Port) (w : Word)
  /-- R92. The eye scan ends; EH, EW and MARGIN are written and EYE_DONE is raised. -/
  | eyeScanDone (p : Port) (obs : List EyeObs)
  /-- R87. A frame row is received and accepted in sequence, or discarded, with a NAK on an uncorrectable frame. -/
  | rowReceived (p : Port) (frames : List (Nat × List Nat))
  /-- R87. 16 rows have been received since the last ACK, and an ACK naming the next expected sequence is sent. -/
  | ackDue (p : Port)
  /-- R88. 64 rows pass without REPLAY(s), and the NAK is repeated. -/
  | nakRepeat (p : Port)
  /-- R87. An ACK marker frees the acknowledged rows from the replay buffer. -/
  | ack (p : Port) (seq : Fin 4096)
  /-- R88. A NAK marker makes the transmitter finish its row, send REPLAY(s) and resend from row s. -/
  | nak (p : Port) (seq : Fin 4096)
  /-- R88. A REPLAY marker arrives, and the receiver accepts resent rows from s. -/
  | replay (p : Port) (seq : Fin 4096)
  /-- R74. A QUIET block is received; the partner stops sending after the current row and the port enters QUIET. -/
  | quiet (p : Port)
  /-- R389. A squelch edge on a port in QUIET wakes a device in SLEEP, unless it falls in the wake window. -/
  | squelchEdge (p : Port)
  /-- R102. A request to read 64 bytes is checked at the manager, routed and served by the owner. -/
  | rd64 (h : Hdr) (addr : BitVec 64)
  /-- R102. A request to read a 128-byte line is checked at the manager, routed and served by the owner. -/
  | rd128 (h : Hdr) (addr : BitVec 64)
  /-- R151. A 64-byte write takes or joins a merge-buffer entry at the owner, or at the manager for a protected line. -/
  | wr64 (h : Hdr) (addr : BitVec 64) (data : List Byte)
  /-- R102. A whole-line write is checked, encrypted when protected, and accepted into the owner's bank queue. -/
  | wr128 (h : Hdr) (addr : BitVec 64) (data : List Byte) (tag64 : BitVec 64)
  /-- R108. A FENCE request makes the manager hold the source's later requests in scope until it sends FDONE. -/
  | fence (h : Hdr) (addr : BitVec 64)
  /-- R111. A HINT records a queue group whose doorbell lines the manager reads within T_HINT. -/
  | hint (h : Hdr) (group : Fin 1024)
  /-- R103. A read-data response is matched by tag and forwarded to the host, or consumed by the manager for its own host reads. -/
  | rdata (h : Hdr) (addr : BitVec 64) (data : List Byte) (tag64 : BitVec 64)
  /-- R104. A write-complete response is matched and forwarded, or completes a manager write to host memory. -/
  | wdone (h : Hdr) (addr : BitVec 64)
  /-- R108. A fence-complete response is sent and the requests held behind the fence are released. -/
  | fdone (fence : Nat)
  /-- R103. An error response is matched and forwarded, or, for a host-memory access, fails a queue or a descriptor. -/
  | err (h : Hdr) (addr : BitVec 64) (status : Byte)
  /-- R116. A CFG read performs COUNT word reads at the target and returns CRD_RSP. -/
  | crd (h : Hdr) (reg : BitVec 25) (count : Fin 4) (way : Option (BitVec 16))
  /-- R116. A CFG write performs COUNT word writes at the target and returns CWR_RSP. -/
  | cwr (h : Hdr) (reg : BitVec 25) (words : List Word) (way : Option (BitVec 16))
  /-- R116. A CFG read response with its STATUS reaches the requester. -/
  | crdRsp (h : Hdr) (reg : BitVec 25) (words : List Word) (status : Byte)
  /-- R116. A CFG write response with its STATUS reaches the requester. -/
  | cwrRsp (h : Hdr) (reg : BitVec 25) (status : Byte)
  /-- R116. No CFG response arrives within CFG_TIMEOUT, and the manager answers with STATUS 0x04. -/
  | cfgTimeout (itag : Nat)
  /-- R173. A request has had no response REQ_TIMEOUT after admission, and the manager answers it with ERR TIMEOUT. -/
  | reqTimeout (itag : Nat)
  /-- R120. A CREDIT message returns header and data credits, so that waiting messages may be sent. -/
  | credit (p : Port) (headers : List Nat) (datas : List Nat)
  /-- R241. A SHARD message arrives at the owning device and takes a shard slot in its tier. -/
  | shard (h : Hdr) (g : EngHdr) (tier : Fin 4) (phaseB : Bool) (relay : Bool) (desc : List Word)
  /-- R243. A finished shard's report reaches the manager, which combines it and completes the descriptor after the last one. -/
  | shardDone (h : Hdr) (g : EngHdr) (lines : Word) (firstFail : Word) (swaps : Word)
  /-- R243. A partial accumulator part reaches the manager and is combined exactly, or discarded as stale. -/
  | partialMsg (h : Hdr) (g : EngHdr) (last : Bool) (data : List Byte)
  /-- R220. An ABORT message stops a shard of a queue that is being disabled. -/
  | abort (h : Hdr) (g : EngHdr)
  /-- R478. A census marker arrives; the device latches every counter, echoes the marker and forwards it. -/
  | census (p : Port) (number : Word) (tick : BitVec 48) (echo : Bool)
  /-- R386. A PWR ENTER marker is received, and for SLEEP the partner puts its port into QUIET after the QUIET block. -/
  | pwrEnter (p : Port) (code : Fin 8)
  /-- R386. A PWR AWAKE marker tells the partner that the device has returned to RUN. -/
  | pwrAwake (p : Port) (code : Fin 8)
  /-- R130. An NTC notice arrives at the manager and is merged per device and type, or counted and discarded when masked. -/
  | notice (p : Port) (n : Notice)
  /-- R130. NTC_HOLD passes after a pending notice's first event, and the notice is sent. -/
  | ntcHoldExpiry (ntype : Nat)
  /-- R134. A notice has waited more than 1 ms for NTC credit, and NTC_BACKLOG is set. -/
  | ntcBacklog
  /-- R151. MERGE_WAIT passes on a lone half, and the entry commits by read-modify-write. -/
  | mergeWaitExpiry (dev : Fin 64) (line : Nat)
  /-- R184. A class count falls below its limit, and the oldest held request of that class is admitted. -/
  | holdQueueAdmit (sc : Fin 16)
  /-- R294. A bank queue has room, and an access moves from the admission queue by rank and age. -/
  | admissionQueueMove (n : Fin 32)
  /-- R296. The controller issues the next row or column command of the highest rank that has a ready candidate. -/
  | channelPick (pc : Fin 64) (column : Bool)
  /-- R144. A line's burst returns; it is decoded, its metadata and KeyID are checked, and the response or error leaves. -/
  | lineReadDone (id : Nat) (errors : List (Nat × Byte))
  /-- R113. The manager's CMAC of a protected read completes and its verdict decides the SEAL, the error or a halt. -/
  | tagVerifyDone (itag : Nat)
  /-- R302. A bank's refresh slot falls due; the refresh issues or is postponed as debt. -/
  | refreshDue (pc : Fin 64) (pos : Fin 48)
  /-- R300. The refresh temperature has stayed 3 °C below a threshold for 2 ms, and the multiplier falls. -/
  | refreshRateFall (n : Fin 32)
  /-- R304. A channel has been idle for IDLE_SR; its rows close and both pseudo-channels enter self-refresh. -/
  | selfRefreshEntry (n : Fin 32)
  /-- R305. An access, a pin, a copy or RUN starts a self-refresh exit once tSR_MIN has passed. -/
  | selfRefreshExit (n : Fin 32)
  /-- R310. A channel finishes rewriting its dropped segments after DEEP, and PASR_INIT clears. -/
  | pasrInitDone (n : Fin 32)
  /-- R314. After 2^20 generate requests or 1 s, the tier DRBG reseeds from a passing source. -/
  | drbgReseed (tier : Fin 4)
  /-- R322. A write of TIERt.CMN.DRBG.RESEED reseeds the DRBG at once from a passing source. -/
  | reseed (path : Path) (tier : Fin 4)
  /-- R315. An entropy source fails a health test; the tier borrows another source or runs on its last seed. -/
  | entropyHealthFail (tier : Fin 4) (apt : Bool)
  /-- R315. Every 10 ms a failed source reruns its start-up tests, and the tier returns to it once they pass. -/
  | entropyRetest (tier : Fin 4) (pass : Bool)
  /-- R317. A memory die's parity alert makes the controller clear, precharge, reissue the dropped commands and test the route. -/
  | parityAlert (pc : Fin 64) (group : Nat) (alert : AlertObs)
  /-- R187. The age of a class's oldest access reaches a threshold of its target and the level rises, setting SAT at level 3. -/
  | escalation (n : Fin 32) (c : Fin 4)
  /-- R191. SAT_CLEAR passes with no firm class at level 2 or 3, and the channel's saturation flag clears. -/
  | saturationClear (n : Fin 32)
  /-- R189. A write to SVC.LIMIT is applied, or for a firm class ignored with BUDGET_ERR when it breaks FIRM_BUDGET. -/
  | svcLimitWrite (path : Path) (c : Fin 16) (w : Word)
  /-- R189. A write to SVC.REACH is applied, or ignored with BUDGET_ERR when it breaks FIRM_BUDGET. -/
  | svcReachWrite (path : Path) (c : Fin 4) (w : Word)
  /-- R196. A write of SVC.TARGET.PIN pins or unpins the channels in reach and wakes any that are in self-refresh. -/
  | pinWrite (path : Path) (c : Fin 4) (w : Word)
  /-- R204. POLL_INTERVAL expires and the manager reads the summary and the flagged doorbell lines. -/
  | poll
  /-- R206. The manager fetches up to FETCH_BATCH descriptors from the next queue with news, firm queues first. -/
  | fetchTurn
  /-- R220. The READ command copies the selected context into WIN. -/
  | qctxRead (path : Path) (tag : Byte)
  /-- R220. The WRITE command copies WIN into a disabled context. -/
  | qctxWrite (path : Path) (tag : Byte)
  /-- R220. The ENABLE command validates a disabled context and enables the queue. -/
  | qctxEnable (path : Path) (tag : Byte)
  /-- R220. The DRAIN command stops fetching and disables the queue once its descriptors have completed. -/
  | qctxDrain (path : Path) (tag : Byte)
  /-- R220. The DISABLE command stops fetching, aborts the queue's shards and disables the queue. -/
  | qctxDisable (path : Path) (tag : Byte)
  /-- R217. 100 ns of holding records for one granule pass, and the completion-record granule is written. -/
  | recordHoldExpiry (cq : Nat)
  /-- R214. The management FENCE completes when the earlier descriptors of its queue are done, optionally ending an epoch. -/
  | fenceDesc (q : Nat) (i : Nat)
  /-- R481. The CENSUS opcode starts a census and writes its record to host memory. -/
  | censusDesc (q : Nat) (i : Nat)
  /-- R384. The POWER_STATE opcode checks the target and writes PWR.CMD through the warden. -/
  | powerState (q : Nat) (i : Nat)
  /-- R262. The KEY_LOAD opcode reads a wrapped key, unwraps it under K_DU and derives the line keys into an ACTIVE slot. -/
  | keyLoad (q : Nat) (i : Nat)
  /-- R263. The KEY_RETIRE opcode puts a key slot into RETIRING and refuses new uses of the KeyID. -/
  | keyRetire (q : Nat) (i : Nat)
  /-- R263. The last use of a retiring KeyID completes; its keys are zeroed and the slot becomes EMPTY. -/
  | keyRetireDrain (kid : Fin 4096)
  /-- R349. The EVACUATE opcode copies a device range elsewhere, poisoning lost source lines. -/
  | evacuate (q : Nat) (i : Nat)
  /-- R335. The RETIRE_MAP opcode installs a page-remap or bank-steer entry and starts its copy. -/
  | retireMap (q : Nat) (i : Nat)
  /-- R161. A remap, steer or relocation copy ends, and the entry takes full effect. -/
  | copyDone (job : Nat)
  /-- R456. The BIST_RUN opcode runs the selected runtime link, sensor, crossing or memory tests. -/
  | bistRun (q : Nat) (i : Nat)
  /-- R453. The FW_STAGE opcode checks its guards and then erases and programs the flash image. -/
  | fwStage (q : Nat) (i : Nat)
  /-- R454. A flash erase or page program with read-back completes, and the staging continues or ends. -/
  | flashOpDone (readback : List Byte)
  /-- R453. The flash still reports an operation in progress after T_WIP, and FW_STAGE completes with BUSY. -/
  | flashWipTimeout
  /-- R476. The BLAZE_DUMP opcode writes a device's blaze-log entries to host memory. -/
  | blazeDump (q : Nat) (i : Nat)
  /-- R471. The DEVICE_RESET opcode writes FAULT.CTL.WARM_RESET of the target through the warden. -/
  | deviceReset (q : Nat) (i : Nat)
  /-- R365. The CAL_RUN opcode starts crossing calibration runs of the named tiers. -/
  | calRun (q : Nat) (i : Nat)
  /-- R429. The FUSE_PROGRAM opcode reads a program list and works through its entries. -/
  | fuseProgram (q : Nat) (i : Nat)
  /-- R428. The WRITE entry pulses the cells of a fuse word's codeword that are not yet strong. -/
  | fuseWrite (e : FuseEntry)
  /-- R428. The SEAL entry computes the region's CRC and writes it into the seal word. -/
  | fuseSeal (e : FuseEntry)
  /-- R428. The LOCK entry blows WLOCK of a region whose seal matches. -/
  | fuseLock (e : FuseEntry)
  /-- R428. The RLOCK entry blows the read-lock of DUK or USER. -/
  | fuseRlock (e : FuseEntry)
  /-- R427. A programming pulse ends and the cell is verified, pulsed again or failed. -/
  | fusePulseDone (die : Die) (strong : Bool)
  /-- R232. The COPY opcode copies the SRC range to DST, possibly on another device. -/
  | copy (q : Nat) (i : Nat)
  /-- R232. The FILL opcode fills the DST range with a 16-byte pattern. -/
  | fill (q : Nat) (i : Nat)
  /-- R232. The ZERO opcode writes zeros to the DST range. -/
  | zero (q : Nat) (i : Nat)
  /-- R232. The COMPARE opcode compares SRC with SRC2 or a pattern and reports FIRST and DIFF_BYTES. -/
  | compare (q : Nat) (i : Nat)
  /-- R233. The CRC opcode computes CRC-32C or CRC-64 over the SRC range. -/
  | crc (q : Nat) (i : Nat)
  /-- R234. The GATHER opcode gathers the listed elements into a packed DST range. -/
  | gather (q : Nat) (i : Nat)
  /-- R234. The SCATTER opcode scatters packed elements to the listed addresses. -/
  | scatter (q : Nat) (i : Nat)
  /-- R238. The REDUCE opcode computes an exact SUM, MIN or MAX across the devices of DEVMASK. -/
  | reduce (q : Nat) (i : Nat)
  /-- R247. The ATOMIC_BATCH opcode applies a list of atomic records in phase A and phase B. -/
  | atomicBatch (q : Nat) (i : Nat)
  /-- R232. The XOR_PARITY opcode writes the bytewise exclusive-or of N strided sources to DST. -/
  | xorParity (q : Nat) (i : Nat)
  /-- R243. A tier engine finishes a shard, sends its partials and SHARD_DONE, and starts the next waiting shard; `blocks` of the row is not
  used, for every part but the last carries four data blocks (R244). -/
  | shardFinish (tier : Fin 4) (blocks : Fin 4)
  /-- R242. CKPT_BYTES of driving lines are done and written, so the base die stores the shard's checkpoint. -/
  | checkpoint (tier : Fin 4)
  /-- R252. A migration trigger raises the shard's placement epoch and restarts it from its checkpoint on a new engine. -/
  | migration (tier : Fin 4) (trigger : Fin 3)
  /-- R249. Every member has fetched its EPOCH_END FENCE and finished its work, so phase B runs and the next epoch opens. -/
  | epochClose (g : Fin 256)
  /-- R472. A write of FAULT.CTL.KEY_HALT by the manager's warden or over I3C classifies an event of source 86. -/
  | keyHalt (path : Path)
  /-- R285. A JTAG or IEEE 1838 memory access is performed, or refused when it reaches protected data. -/
  | jtagMemoryAccess (line : Nat) (data : Option (List Byte))
  /-- R286. TESTWIN.CTL.READ reads and decodes one line into the window, subject to R285. -/
  | testwinRead (path : Path)
  /-- R286. TESTWIN.CTL.WRITE writes the window to one line as a plain whole line, subject to R285. -/
  | testwinWrite (path : Path)
  /-- R326. CE_LEAK passes and every channel's correctable-error bucket above zero falls by one. -/
  | ceLeak
  /-- R329. Ranger reads the next place, writes a corrected line back and verifies it, or logs an uncorrectable line. -/
  | rangerVisit (n : Fin 32) (errors : List (Nat × Byte)) (verify : List (Nat × Byte))
  /-- R330. A Ranger pass has not ended RANGER_PERIOD after it started, and RANGER_LATE is set. -/
  | rangerLate (n : Fin 32)
  /-- R332. The test of a suspect position ends; the position is cleared, steered to a spare or windthrown. -/
  | pinTestDone (t : PinTest)
  /-- R346. The T_HALFSW switch-over ends and the channel resumes issuing at half width. -/
  | halfWidthResume (n : Fin 32)
  /-- R363. A calibration run's measurement ends and the new settings wait for the quiet window. -/
  | calMeasureDone (tier : Fin 4) (obs : CalObs)
  /-- R364. CAL_GAP has passed since the last start of a run, and a pending run starts. -/
  | calGapExpiry (tier : Fin 4)
  /-- R366. At a tier boundary the tier stops issuing, switches the new settings, checks them and resumes. -/
  | quietWindow (tier : Fin 4) (reverted : List Nat)
  /-- R367. 12 slots pass without a valid heartbeat word; the keeper aborts bursts, journals lines and enters self-refresh. -/
  | heartbeatLoss (tier : Fin 4) (aborted : List Nat)
  /-- R370. The heartbeat returns; the tier relocks, calibrates, trains, makes held writes and poisons journaled lines. -/
  | tierRejoin (back : RejoinObs)
  /-- R371. A write of CLK.JOURNAL.CLR empties the reset journal and UNLISTED. -/
  | journalClr (path : Path)
  /-- R385. An accepted write of PWR.CMD with GO and state RUN starts a return to RUN. -/
  | pwrCmdRun (path : Path)
  /-- R385. An accepted write of PWR.CMD with GO and state IDLE asks for entry into IDLE. -/
  | pwrCmdIdle (path : Path)
  /-- R385. An accepted write of PWR.CMD with GO and state SLEEP asks for entry into SLEEP. -/
  | pwrCmdSleep (path : Path)
  /-- R385. An accepted write of PWR.CMD with GO and state DEEP asks for entry into DEEP. -/
  | pwrCmdDeep (path : Path)
  /-- R385. An accepted write of PWR.CMD with GO and state OFF asks for the orderly power-down into OFF. -/
  | pwrCmdOff (path : Path)
  /-- R385. No shard or copy remains; entry commits merges, sets self-refresh and sends the POWER notice and the ENTER marker. -/
  | powerEntryStart
  /-- R385. At t_E the state's clocks and rails go off and the wake detectors arm. -/
  | powerEntryDone
  /-- R387. WAKE_N held low for 1 µs abandons an entry or wakes the device from SLEEP, DEEP or OFF. -/
  | wakeN
  /-- R383. A wake exit completes; the device is in RUN, sends AWAKE and raises its POWER notice. -/
  | powerExitDone
  /-- R390. A waking port has no lock T_WAKE_RETRY after it started, and it stops for T_WAKE_GAP. -/
  | wakeRetry (p : Port)
  /-- R390. T_WAKE_GAP ends and the waking port sends TRAIN frames again, making a new squelch edge. -/
  | wakeGapEnd (p : Port)
  /-- R392. A CAP_AVG window ends, and an average above the cap raises the cap stage. -/
  | capWindow (pin10mw : Nat) (vin10mv : Nat)
  /-- R392. The average has stayed at or below 95 % of the cap for CAP_RELAX, and the cap stage falls by one. -/
  | capRelaxExpiry
  /-- R396. A sensor delivers a reading that feeds the stage input, the trip test, the broken tests and the calibration triggers. -/
  | sensorReading (i : Fin 72) (reading : Option Int)
  /-- R404. The input has stayed STEP_HYST below the threshold for STEP_DWELL, and the stage falls by one. -/
  | stageDwellExpiry (tier : Fin 4)
  /-- R401. SUBST_HOLD ends, HOLD clears and the stage follows its input. -/
  | substHoldExpiry (tier : Fin 4)
  /-- R410. A ledger temperature sample is rainflow-counted into the residue, starting a tally when TALLY_STEP is reached. -/
  | ledgerSample
  /-- R446. A write of BOOT.LOAD_CTL.START by the manager's warden begins a firmware load of LEN bytes. -/
  | loadStart (path : Path) (len : Fin 33554432)
  /-- R448. A CWR to BOOT.LOAD_WIN appends its words to the load stream, checking component hashes as they complete. -/
  | loadWin (path : Path) (words : List Word)
  /-- R446. A write of BOOT.LOAD_CTL.END makes the ROM complete its checks of the loaded image. -/
  | loadEnd (path : Path)
  /-- R446. The device ROM finishes its checks; the firmware runs, or the load fails and the manager retries. -/
  | loadCheckDone (n : Fin 64) (code : Byte)
  /-- R450. A write of BOOT.CTL.REBOOT by the manager's warden makes a firmware restart. -/
  | reboot (path : Path)
  /-- R455. A write of BOOT.CTL.OWNER_LOCK sets the runtime owner lock until the manager resets. -/
  | ownerLock (path : Path)
  /-- R457. A write of BOOT.CTL.RELEASE releases a tier for memory test once its shards are gone, refusing its traffic. -/
  | release (path : Path) (mask : Fin 16)
  /-- R463. A fault event is stamped, counted in its unit's window and classified, which causes the reaction of its severity. -/
  | faultEvent (source : Fin 120) (unit : Nat) (payload : List Byte)
  /-- R472. An accepted write of FAULT.CTL.WARM_RESET schedules a warm start after RESET_DELAY. -/
  | warmReset (path : Path)
  /-- R471. RESET_DELAY passes after an accepted reset write, and the warm start begins. -/
  | resetDelayExpiry
  /-- R470. The warden heartbeat has been left unserviced for WDOG, which is an event of source 2. -/
  | watchdogExpiry
  /-- R470. ALIVE_HALF passes and ALIVE toggles while the device is healthy. -/
  | aliveToggle
  /-- R483. A write of FAULT.INJECT.GO makes one event of test source 119. -/
  | inject (path : Path) (unit : Byte)
  /-- R475. A write of BLAZE.CTL.THAW releases every blaze-log protection and writes a THAW entry. -/
  | thaw (path : Path)
  /-- R477. The automatic census period expires and the manager starts a census, or skips it when one is running. -/
  | censusInterval
  /-- R478. CENSUS_WAIT passes without a marker on a port, and the port is marked UNCLOSED. -/
  | censusWaitExpiry (p : Port)
  /-- R479. CENSUS_DONE expires; devices that have not latched are recorded ABSENT and the record is completed. -/
  | censusDone
  /-- R376. VIN returns into 6 V to 40 V; VIN_OK sets and PWR.VIN_AGE starts counting seconds from that return. -/
  | vinInRange
  /-- R80. A port in CAP, STEP or ACTIVE receives TRAIN blocks from its partner and retrains too. -/
  | trainBlock (p : Port)
  /-- R363. Between runs, the spare-cell sampler finishes measuring a bit-group, and a group margin below XMARGIN_MIN starts a margin-triggered run. -/
  | backgroundMeasurement (tier : Fin 4) (m : GroupMargin)
  /-- R305. tXS after exit issues, the channel leaves the exiting state, its queued accesses may issue and PINNED rises. -/
  | selfRefreshExitDone (e : ExitObs)
  /-- R220. A queue-context command has been accepted and BUSY clears within 1 µs, or ERR is set. -/
  | qctxCmdDone
  /-- R286. A test-window line access ends within 2 µs, filling DATA or writing the line, setting REFUSED and clearing BUSY. -/
  | testwinAccessDone (errors : List (Nat × Byte))
  /-- R499. VPGM is applied or removed; VPGM_OK follows, and the next pulse takes its source from the new reading. -/
  | vpgmChange (mv : Nat)
  deriving DecidableEq, Repr

end Sys2Proof
end

