-- ==== Sys2Proof/Decode.lean ====
section
/-! DEFINITION. The decoder of command words. The table of operations gives no row any bits: a command is not a word the device
fetches but a message, a register access, a pin or an event, so no word spells one. -/

namespace Sys2Proof

/-- The command that a word of `nbits` bits spells by the table of operations: none, since no row of the table has bits. -/
def decodeTableWord (_nbits _w : Nat) : Option Instr := none

end Sys2Proof
end

