-- ==== Sys2Proof/Machine/RegMap.lean ====
section
/-! DEFINITION. The register map: every register of the manual's register tables (R22, R40 to R64, R95, R134, R165, R181, R197,
R222, R256, R286, R288, R321, R322, R351, R353, R372, R393, R415, R432, R458, R483 to R485), with the address of each register,
the bits of each field, and the table that gives every field its type, reset value, apply point and store rule. -/

namespace Sys2Proof.Machine

/-- Field types of R52. -/
inductive FTy where
  | rw | ro | wo | rsq | rwl | rsv
  deriving DecidableEq, Repr

/-- Apply points of R54. -/
inductive Apply where
  | imm | blk | ref | dsc | cen | boot
  deriving DecidableEq, Repr

/-- The bits of one field, most and least significant. -/
structure Fld where
  hi : Nat
  lo : Nat
  deriving DecidableEq, Repr

/-- One row of a register table: name, bits, type, reset, apply point, whether it lies in the always-on domain (R56), and the
least and greatest value a write stores. -/
structure FieldRow where
  name  : String
  bits  : Fld
  ty    : FTy
  reset : Nat
  apply : Apply
  ao    : Bool
  least : Nat
  most  : Nat
  deriving DecidableEq, Repr

/-- One register, or an array of registers: its offset in its block, the stride and the number of elements, whether it is a
status register (R50), and its fields. -/
structure RegRow where
  name   : String
  off    : Nat
  stride : Nat
  count  : Nat
  status : Bool
  fields : List FieldRow
  deriving DecidableEq, Repr

/-- A table row whose field stores what is written. -/
def FieldRow.of (name : String) (hi lo : Nat) (ty : FTy) (reset : Nat) (apply : Apply) (ao : Bool) : FieldRow :=
  ⟨name, ⟨hi, lo⟩, ty, reset, apply, ao, 0, 2 ^ (hi + 1 - lo) - 1⟩

/-- A table row whose field stores its nearest limit when a write lies outside `least` to `most`. -/
def FieldRow.lim (name : String) (hi lo : Nat) (ty : FTy) (reset : Nat) (apply : Apply) (ao : Bool) (least most : Nat) : FieldRow :=
  ⟨name, ⟨hi, lo⟩, ty, reset, apply, ao, least, most⟩

/-- The register base of a port (R46). -/
def portBase : Port → Nat
  | .ca => 0x10000 | .cb => 0x14000 | .e => 0x18000 | .w => 0x1C000

/-- The register base of channel `n` of the stack, eight channels a tier (R46). -/
def chBase (n : Nat) : Nat := 0x20000 + n / 8 * 0x10000 + n % 8 * 0x1000

/-- The register base of tier `t` (R46). -/
def tierBase (t : Nat) : Nat := 0x20000 + t * 0x10000

/-! ### Register addresses -/

namespace Reg
def IDENT_VENDOR : Nat := 0x0
def IDENT_REV : Nat := 0x4
def IDENT_STRAPS : Nat := 0x8
def IDENT_DEVNUM : Nat := 0xC
def IDENT_NDL_CAP : Nat := 0x10
def IDENT_FW_VER : Nat := 0x14
def IDENT_CAPACITY : Nat := 0x18
def IDENT_STATUS : Nat := 0x1C
def TOPO_ENT_W0 (i : Nat) : Nat := 0x1100 + 8 * i
def TOPO_ENT_W1 (i : Nat) : Nat := 0x1104 + 8 * i
def TOPO_STATUS : Nat := 0x1000
def TOPO_ENUM_CTL : Nat := 0x1004
def TOPO_PLAN_CTL : Nat := 0x1008
def TOPO_COUNT : Nat := 0x100C
def TOPO_PLAN_TRUNK : Nat := 0x1010
def TOPO_PLAN_SPUR (i : Nat) : Nat := 0x1040 + 4 * i
def FAULT_STATUS : Nat := 0x2000
def FAULT_CTL : Nat := 0x2004
def FAULT_LAST : Nat := 0x2008
def FAULT_INJECT : Nat := 0x200C
def FAULT_SRC (i : Nat) : Nat := 0x2100 + 4 * i
def BLAZE_STATUS : Nat := 0x3000
def BLAZE_HEAD : Nat := 0x3004
def BLAZE_FROZEN : Nat := 0x3008
def BLAZE_CTL : Nat := 0x300C
def BLAZE_DROPS : Nat := 0x3010
def CENSUS_STATUS : Nat := 0x4000
def CENSUS_CTL : Nat := 0x4004
def CENSUS_LAST : Nat := 0x4008
def MBX_SEL : Nat := 0x5000
def MBX_CTL : Nat := 0x5004
def MBX_ACC_STATUS : Nat := 0x5008
def MBX_DATA (i : Nat) : Nat := 0x5020 + 4 * i
def PWR_STATUS : Nat := 0x6000
def PWR_STATE : Nat := 0x6004
def PWR_CMD : Nat := 0x6008
def PWR_CAP : Nat := 0x600C
def PWR_MEAS : Nat := 0x6010
def PWR_VIN_AGE : Nat := 0x6014
def PWR_RAILS : Nat := 0x6018
def THERM_STATUS : Nat := 0x7000
def THERM_STAGE : Nat := 0x7004
def THERM_TIER (i : Nat) : Nat := 0x7010 + 4 * i
def THERM_LEDGER (i : Nat) : Nat := 0x7030 + 4 * i
def THERM_BROKEN (i : Nat) : Nat := 0x7020 + 4 * i
def CLK_STATUS : Nat := 0x8000
def CLK_CAL_CTL : Nat := 0x8004
def CLK_CAL_TIER (i : Nat) : Nat := 0x8010 + 4 * i
def CLK_JOURNAL : Nat := 0x8020
def FUSE_STATUS : Nat := 0x9000
def FUSE_PROG : Nat := 0x9004
def FUSE_VPGM : Nat := 0x9008
def FUSE_REGION (i : Nat) : Nat := 0x9040 + 4 * i
def BOOT_STATUS : Nat := 0xA000
def BOOT_STATE : Nat := 0xA004
def BOOT_CTL : Nat := 0xA008
def BOOT_ARB : Nat := 0xA00C
def BOOT_START_MS : Nat := 0xA010
def BOOT_LOAD_CTL : Nat := 0xA020
def BOOT_LOAD_WIN (i : Nat) : Nat := 0xA030 + 4 * i
def NDL_STATUS : Nat := 0xB000
def NDL_CFG_TMO : Nat := 0xB004
def NDL_NTC_HOLD : Nat := 0xB008
def NDL_NTC_EN : Nat := 0xB00C
def NDL_NTC_PEND : Nat := 0xB010
def NDL_LINE_STATUS : Nat := 0xB200
def NDL_LINE_CTL : Nat := 0xB204
def NDL_POOL_COUNT : Nat := 0xB208
def NDL_REQ_TMO : Nat := 0xB014
def NDL_PATH_STATUS : Nat := 0xB018
def SVC_STATUS : Nat := 0xC000
def SVC_LIMIT (i : Nat) : Nat := 0xC040 + 4 * i
def SVC_TARGET (i : Nat) : Nat := 0xC080 + 4 * i
def SVC_REACH (i : Nat) : Nat := 0xC0A0 + 4 * i
def SVC_CHAN (i : Nat) : Nat := 0xC100 + 4 * i
def SVC_MISS (i : Nat) : Nat := 0xC0C0 + 4 * i
def ENG_STATUS : Nat := 0xD000
def ENG_CTL : Nat := 0xD004
def ENG_TIER (i : Nat) : Nat := 0xD010 + 4 * i
def ENG_EPOCHS : Nat := 0xD020
def PROT_STATUS : Nat := 0xE000
def PROT_KEYS : Nat := 0xE004
def PROT_MAP_ERR : Nat := 0xE008
def PROT_DBG_ADDR : Nat := 0xE00C
def PROT_RELAY : Nat := 0xE010
def QCTX_STATUS : Nat := 0xF000
def QCTX_SEL : Nat := 0xF004
def QCTX_CMD : Nat := 0xF008
def QCTX_POLL : Nat := 0xF00C
def QCTX_COUNT : Nat := 0xF010
def QCTX_LAST_ERR : Nat := 0xF014
def QCTX_WIN (i : Nat) : Nat := 0xF040 + 4 * i
def LINK_STATUS (p : Port) : Nat := portBase p + 0x0
def LINK_CTL (p : Port) : Nat := portBase p + 0x4
def LINK_STATE (p : Port) : Nat := portBase p + 0x8
def LINK_EYE_CTL (p : Port) : Nat := portBase p + 0x20
def LINK_EYE_RES (p : Port) (i : Nat) : Nat := portBase p + 0x24 + 4 * i
def LINK_PRBS_CTL (p : Port) : Nat := portBase p + 0x40
def LINK_LANE (p : Port) (i : Nat) : Nat := portBase p + 0x100 + 4 * i
def LINK_PRBS_ERR (p : Port) (i : Nat) : Nat := portBase p + 0x80 + 4 * i
def CH_STATUS (n : Nat) : Nat := chBase n + 0x0
def CH_CTL (n : Nat) : Nat := chBase n + 0x4
def CH_STATE (n : Nat) : Nat := chBase n + 0x8
def CH_TRAIN (n i : Nat) : Nat := chBase n + 0x10 + 4 * i
def CH_ECC_STATUS (n : Nat) : Nat := chBase n + 0x40
def CH_CE (n : Nat) : Nat := chBase n + 0x44
def CH_RANGER (n : Nat) : Nat := chBase n + 0x48
def CH_ELOG (n : Nat) : Nat := chBase n + 0x4C
def CMN_STATUS (t : Nat) : Nat := tierBase t + 0x8000
def CMN_IDLE_SR (t : Nat) : Nat := tierBase t + 0x8004
def CMN_BCAST (t : Nat) : Nat := tierBase t + 0x8008
def CMN_DRBG (t : Nat) : Nat := tierBase t + 0x800C
def CMN_RANGER_CTL (t : Nat) : Nat := tierBase t + 0x8010
def CMN_SPARES (t : Nat) : Nat := tierBase t + 0x8014
def TESTWIN_LINE : Nat := 0xD0000
def TESTWIN_CTL : Nat := 0xD0004
def TESTWIN_DATA (i : Nat) : Nat := 0xD0080 + 4 * i
end Reg

/-! ### Field positions -/

namespace F
def IDENT_VENDOR_VENDOR_ID : Fld := ⟨31, 16⟩
def IDENT_VENDOR_PART : Fld := ⟨15, 0⟩
def IDENT_REV_STEP_MAJOR : Fld := ⟨7, 4⟩
def IDENT_REV_STEP_MINOR : Fld := ⟨3, 0⟩
def IDENT_STRAPS_GRADE : Fld := ⟨8, 8⟩
def IDENT_STRAPS_START_SLOT : Fld := ⟨7, 2⟩
def IDENT_STRAPS_ROLE : Fld := ⟨1, 0⟩
def IDENT_DEVNUM_NUM_VALID : Fld := ⟨6, 6⟩
def IDENT_DEVNUM_NUM : Fld := ⟨5, 0⟩
def IDENT_NDL_CAP_ENGINES : Fld := ⟨9, 9⟩
def IDENT_NDL_CAP_EYE_SCAN : Fld := ⟨8, 8⟩
def IDENT_NDL_CAP_RATE112 : Fld := ⟨4, 4⟩
def IDENT_NDL_CAP_VERSIONS : Fld := ⟨2, 0⟩
def IDENT_FW_VER_MAJOR : Fld := ⟨31, 24⟩
def IDENT_FW_VER_MINOR : Fld := ⟨23, 16⟩
def IDENT_FW_VER_PATCH : Fld := ⟨15, 0⟩
def IDENT_CAPACITY_RAW_GIB : Fld := ⟨31, 16⟩
def IDENT_CAPACITY_USER_GIB : Fld := ⟨15, 0⟩
def IDENT_STATUS_SEQ : Fld := ⟨31, 16⟩
def IDENT_STATUS_STALE : Fld := ⟨15, 15⟩
def IDENT_STATUS_NUM_CHANGED : Fld := ⟨1, 1⟩
def IDENT_STATUS_ID_CORR : Fld := ⟨0, 0⟩
def TOPO_ENT_W0_ROUTE : Fld := ⟨21, 21⟩
def TOPO_ENT_W0_C : Fld := ⟨20, 17⟩
def TOPO_ENT_W0_H : Fld := ⟨16, 13⟩
def TOPO_ENT_W0_SPUR_POS : Fld := ⟨12, 10⟩
def TOPO_ENT_W0_SPUR : Fld := ⟨9, 9⟩
def TOPO_ENT_W0_TRUNK_POS : Fld := ⟨8, 6⟩
def TOPO_ENT_W0_STATE : Fld := ⟨5, 4⟩
def TOPO_ENT_W0_GEN : Fld := ⟨3, 3⟩
def TOPO_ENT_W0_ROLE : Fld := ⟨2, 1⟩
def TOPO_ENT_W0_VALID : Fld := ⟨0, 0⟩
def TOPO_ENT_W1_CROWN_B : Fld := ⟨31, 24⟩
def TOPO_ENT_W1_CROWN_A : Fld := ⟨23, 16⟩
def TOPO_ENT_W1_EAST : Fld := ⟨15, 8⟩
def TOPO_ENT_W1_WEST : Fld := ⟨7, 0⟩
def TOPO_STATUS_SEQ : Fld := ⟨31, 16⟩
def TOPO_STATUS_STALE : Fld := ⟨15, 15⟩
def TOPO_STATUS_ENUM_DONE : Fld := ⟨6, 6⟩
def TOPO_STATUS_UNSETTLED : Fld := ⟨5, 5⟩
def TOPO_STATUS_ARCS : Fld := ⟨4, 4⟩
def TOPO_STATUS_PLAN_MISMATCH : Fld := ⟨3, 3⟩
def TOPO_STATUS_UNNUMBERED : Fld := ⟨2, 2⟩
def TOPO_STATUS_LIMIT : Fld := ⟨1, 1⟩
def TOPO_STATUS_MISWIRE : Fld := ⟨0, 0⟩
def TOPO_ENUM_CTL_SETTLE : Fld := ⟨10, 0⟩
def TOPO_PLAN_CTL_COMMIT : Fld := ⟨1, 1⟩
def TOPO_PLAN_CTL_AUTO : Fld := ⟨0, 0⟩
def TOPO_COUNT_ARC_E : Fld := ⟨15, 12⟩
def TOPO_COUNT_BRANCHES : Fld := ⟨11, 8⟩
def TOPO_COUNT_DEVICES : Fld := ⟨6, 0⟩
def TOPO_PLAN_TRUNK_MAP : Fld := ⟨31, 16⟩
def TOPO_PLAN_TRUNK_NPOS : Fld := ⟨3, 0⟩
def TOPO_PLAN_SPUR_MAP : Fld := ⟨27, 16⟩
def TOPO_PLAN_SPUR_NPOS : Fld := ⟨3, 0⟩
def FAULT_STATUS_SEQ : Fld := ⟨31, 16⟩
def FAULT_STATUS_STALE : Fld := ⟨15, 15⟩
def FAULT_STATUS_ADMIT_STOP : Fld := ⟨4, 4⟩
def FAULT_STATUS_SEVERE : Fld := ⟨3, 3⟩
def FAULT_STATUS_EXCLUDED : Fld := ⟨2, 2⟩
def FAULT_STATUS_PROMOTED : Fld := ⟨1, 1⟩
def FAULT_STATUS_EVENT : Fld := ⟨0, 0⟩
def FAULT_CTL_WARM_RESET : Fld := ⟨31, 31⟩
def FAULT_CTL_KEY_HALT : Fld := ⟨30, 30⟩
def FAULT_CTL_RESUME : Fld := ⟨29, 29⟩
def FAULT_LAST_SEV : Fld := ⟨31, 30⟩
def FAULT_LAST_PROMOTED : Fld := ⟨29, 29⟩
def FAULT_LAST_UNIT : Fld := ⟨23, 16⟩
def FAULT_LAST_SOURCE : Fld := ⟨6, 0⟩
def FAULT_INJECT_GO : Fld := ⟨31, 31⟩
def FAULT_INJECT_UNIT : Fld := ⟨7, 0⟩
def FAULT_SRC_CEIL : Fld := ⟨31, 30⟩
def FAULT_SRC_BASE : Fld := ⟨29, 28⟩
def FAULT_SRC_W_MS : Fld := ⟨23, 8⟩
def FAULT_SRC_N : Fld := ⟨7, 0⟩
def BLAZE_STATUS_SEQ : Fld := ⟨31, 16⟩
def BLAZE_STATUS_STALE : Fld := ⟨15, 15⟩
def BLAZE_STATUS_FULL_FROZEN : Fld := ⟨2, 2⟩
def BLAZE_STATUS_FROZEN : Fld := ⟨1, 1⟩
def BLAZE_STATUS_DROPPED : Fld := ⟨0, 0⟩
def BLAZE_HEAD_NEXT_ESEQ : Fld := ⟨31, 16⟩
def BLAZE_HEAD_NEWEST : Fld := ⟨10, 0⟩
def BLAZE_FROZEN_F1_VALID : Fld := ⟨31, 31⟩
def BLAZE_FROZEN_F1_NEWEST : Fld := ⟨26, 16⟩
def BLAZE_FROZEN_F2_VALID : Fld := ⟨15, 15⟩
def BLAZE_FROZEN_F2_NEWEST : Fld := ⟨10, 0⟩
def BLAZE_CTL_THAW : Fld := ⟨0, 0⟩
def BLAZE_DROPS_VALUE : Fld := ⟨31, 0⟩
def CENSUS_STATUS_SEQ : Fld := ⟨31, 16⟩
def CENSUS_STATUS_STALE : Fld := ⟨15, 15⟩
def CENSUS_STATUS_RUNNING : Fld := ⟨3, 3⟩
def CENSUS_STATUS_SKIPPED : Fld := ⟨2, 2⟩
def CENSUS_STATUS_VOID : Fld := ⟨1, 1⟩
def CENSUS_STATUS_TORN : Fld := ⟨0, 0⟩
def CENSUS_CTL_INTERVAL : Fld := ⟨15, 0⟩
def CENSUS_LAST_VALUE : Fld := ⟨31, 0⟩
def MBX_SEL_PAGE : Fld := ⟨31, 28⟩
def MBX_SEL_BLOCK : Fld := ⟨27, 16⟩
def MBX_SEL_ITEM : Fld := ⟨15, 0⟩
def MBX_CTL_ERR : Fld := ⟨18, 16⟩
def MBX_CTL_TAG : Fld := ⟨15, 8⟩
def MBX_CTL_LEN : Fld := ⟨7, 4⟩
def MBX_CTL_VALID : Fld := ⟨3, 3⟩
def MBX_CTL_BUSY : Fld := ⟨2, 2⟩
def MBX_CTL_DIR : Fld := ⟨1, 1⟩
def MBX_CTL_REQ : Fld := ⟨0, 0⟩
def MBX_ACC_STATUS_SEQ : Fld := ⟨31, 16⟩
def MBX_ACC_STATUS_STALE : Fld := ⟨15, 15⟩
def MBX_ACC_STATUS_LAST_PATH : Fld := ⟨7, 6⟩
def MBX_ACC_STATUS_ALIAS_IGN : Fld := ⟨5, 5⟩
def MBX_ACC_STATUS_UNAVAIL : Fld := ⟨4, 4⟩
def MBX_ACC_STATUS_LOCKED : Fld := ⟨3, 3⟩
def MBX_ACC_STATUS_RO_WRITE : Fld := ⟨2, 2⟩
def MBX_ACC_STATUS_UNALIGNED : Fld := ⟨1, 1⟩
def MBX_ACC_STATUS_UNMAPPED : Fld := ⟨0, 0⟩
def MBX_DATA_VALUE : Fld := ⟨31, 0⟩
def PWR_STATUS_SEQ : Fld := ⟨31, 16⟩
def PWR_STATUS_STALE : Fld := ⟨15, 15⟩
def PWR_STATUS_VIN_OK : Fld := ⟨7, 7⟩
def PWR_STATUS_WAKE_RETRY : Fld := ⟨6, 6⟩
def PWR_STATUS_REFUSED : Fld := ⟨5, 5⟩
def PWR_STATUS_ENTRY_ABANDONED : Fld := ⟨4, 4⟩
def PWR_STATUS_RAIL_FAULT : Fld := ⟨3, 3⟩
def PWR_STATUS_CAP_OVER : Fld := ⟨2, 2⟩
def PWR_STATUS_CAP_ACTIVE : Fld := ⟨1, 1⟩
def PWR_STATUS_VIN_RANGE : Fld := ⟨0, 0⟩
def PWR_STATE_CAP_STAGE : Fld := ⟨13, 12⟩
def PWR_STATE_LAST_WAKE : Fld := ⟨11, 8⟩
def PWR_STATE_TRANSIT : Fld := ⟨7, 7⟩
def PWR_STATE_TARGET : Fld := ⟨6, 4⟩
def PWR_STATE_STATE : Fld := ⟨2, 0⟩
def PWR_CMD_GO : Fld := ⟨31, 31⟩
def PWR_CMD_STATE : Fld := ⟨2, 0⟩
def PWR_CAP_EN : Fld := ⟨31, 31⟩
def PWR_CAP_WATTS : Fld := ⟨6, 0⟩
def PWR_MEAS_PIN : Fld := ⟨31, 16⟩
def PWR_MEAS_VIN : Fld := ⟨15, 0⟩
def PWR_VIN_AGE_NEVER : Fld := ⟨16, 16⟩
def PWR_VIN_AGE_SECONDS : Fld := ⟨15, 0⟩
def PWR_RAILS_FAULT : Fld := ⟨5, 0⟩
def THERM_STATUS_SEQ : Fld := ⟨31, 16⟩
def THERM_STATUS_STALE : Fld := ⟨15, 15⟩
def THERM_STATUS_TALLY_FAIL : Fld := ⟨7, 7⟩
def THERM_STATUS_LEDGER_RETIRE : Fld := ⟨6, 6⟩
def THERM_STATUS_LEDGER_WARN : Fld := ⟨5, 5⟩
def THERM_STATUS_BLIND : Fld := ⟨4, 4⟩
def THERM_STATUS_SUBST : Fld := ⟨3, 3⟩
def THERM_STATUS_BROKEN : Fld := ⟨2, 2⟩
def THERM_STATUS_TRIPPED : Fld := ⟨1, 1⟩
def THERM_STATUS_THERM_N : Fld := ⟨0, 0⟩
def THERM_STAGE_HOTTEST : Fld := ⟨31, 20⟩
def THERM_STAGE_SENSOR : Fld := ⟨19, 12⟩
def THERM_STAGE_DEVICE : Fld := ⟨9, 8⟩
def THERM_STAGE_TIERS : Fld := ⟨7, 0⟩
def THERM_TIER_INPUT : Fld := ⟨31, 20⟩
def THERM_TIER_SENSOR : Fld := ⟨19, 12⟩
def THERM_TIER_BLIND : Fld := ⟨6, 6⟩
def THERM_TIER_SUBST : Fld := ⟨5, 5⟩
def THERM_TIER_HOLD : Fld := ⟨4, 4⟩
def THERM_TIER_THROTTLE : Fld := ⟨3, 2⟩
def THERM_TIER_STAGE : Fld := ⟨1, 0⟩
def THERM_LEDGER_TALLIES : Fld := ⟨20, 10⟩
def THERM_LEDGER_RESIDUE : Fld := ⟨9, 0⟩
def THERM_BROKEN_VALUE : Fld := ⟨31, 0⟩
def CLK_STATUS_SEQ : Fld := ⟨31, 16⟩
def CLK_STATUS_STALE : Fld := ⟨15, 15⟩
def CLK_STATUS_TICK_LOSC : Fld := ⟨6, 6⟩
def CLK_STATUS_PLL_LOCK : Fld := ⟨5, 5⟩
def CLK_STATUS_JOURNAL : Fld := ⟨4, 4⟩
def CLK_STATUS_HB_LOSS : Fld := ⟨3, 3⟩
def CLK_STATUS_CAL_LOW : Fld := ⟨2, 2⟩
def CLK_STATUS_CAL_REVERT : Fld := ⟨1, 1⟩
def CLK_STATUS_REFCLK_FAULT : Fld := ⟨0, 0⟩
def CLK_CAL_CTL_AUTO : Fld := ⟨8, 8⟩
def CLK_CAL_CTL_DELTA : Fld := ⟨4, 0⟩
def CLK_CAL_TIER_RUNNING : Fld := ⟨31, 31⟩
def CLK_CAL_TIER_PENDING : Fld := ⟨30, 30⟩
def CLK_CAL_TIER_REF_TEMP : Fld := ⟨27, 16⟩
def CLK_CAL_TIER_MARGIN : Fld := ⟨15, 8⟩
def CLK_CAL_TIER_GROUP : Fld := ⟨5, 0⟩
def CLK_JOURNAL_CLR : Fld := ⟨31, 31⟩
def CLK_JOURNAL_OVF : Fld := ⟨30, 30⟩
def CLK_JOURNAL_COUNT : Fld := ⟨9, 0⟩
def FUSE_STATUS_SEQ : Fld := ⟨31, 16⟩
def FUSE_STATUS_STALE : Fld := ⟨15, 15⟩
def FUSE_STATUS_VPGM_OK : Fld := ⟨6, 6⟩
def FUSE_STATUS_PROG_BUSY : Fld := ⟨5, 5⟩
def FUSE_STATUS_VERIFY_FAIL : Fld := ⟨4, 4⟩
def FUSE_STATUS_SPARE_CONFLICT : Fld := ⟨3, 3⟩
def FUSE_STATUS_UNUSABLE : Fld := ⟨2, 2⟩
def FUSE_STATUS_MARGINAL : Fld := ⟨1, 1⟩
def FUSE_STATUS_CORRECTED : Fld := ⟨0, 0⟩
def FUSE_PROG_CELLS : Fld := ⟨31, 16⟩
def FUSE_PROG_ENTRY : Fld := ⟨15, 0⟩
def FUSE_VPGM_MV : Fld := ⟨11, 0⟩
def FUSE_REGION_STATE : Fld := ⟨31, 30⟩
def FUSE_REGION_RLOCK : Fld := ⟨29, 29⟩
def FUSE_REGION_WLOCK : Fld := ⟨28, 28⟩
def FUSE_REGION_MANDATORY : Fld := ⟨27, 27⟩
def FUSE_REGION_CORR : Fld := ⟨15, 8⟩
def FUSE_REGION_MARG : Fld := ⟨7, 0⟩
def BOOT_STATUS_SEQ : Fld := ⟨31, 16⟩
def BOOT_STATUS_STALE : Fld := ⟨15, 15⟩
def BOOT_STATUS_OWNER_LOCK : Fld := ⟨8, 8⟩
def BOOT_STATUS_START_DONE : Fld := ⟨7, 7⟩
def BOOT_STATUS_LOAD_FAIL : Fld := ⟨6, 6⟩
def BOOT_STATUS_FLASH_ERR : Fld := ⟨5, 5⟩
def BOOT_STATUS_STAGED : Fld := ⟨4, 4⟩
def BOOT_STATUS_ARB_ADV : Fld := ⟨3, 3⟩
def BOOT_STATUS_EXCLUDED : Fld := ⟨2, 2⟩
def BOOT_STATUS_BIST_FAIL : Fld := ⟨1, 1⟩
def BOOT_STATUS_REBOOTED : Fld := ⟨0, 0⟩
def BOOT_STATE_FAIL : Fld := ⟨31, 24⟩
def BOOT_STATE_KIND : Fld := ⟨17, 16⟩
def BOOT_STATE_STEP : Fld := ⟨15, 12⟩
def BOOT_STATE_TIERS : Fld := ⟨11, 8⟩
def BOOT_STATE_FW : Fld := ⟨1, 0⟩
def BOOT_CTL_OWNER_LOCK : Fld := ⟨8, 8⟩
def BOOT_CTL_RELEASE : Fld := ⟨7, 4⟩
def BOOT_CTL_REBOOT : Fld := ⟨0, 0⟩
def BOOT_ARB_EPOCH : Fld := ⟨24, 16⟩
def BOOT_ARB_COUNT : Fld := ⟨8, 0⟩
def BOOT_START_MS_MS : Fld := ⟨15, 0⟩
def BOOT_LOAD_CTL_START : Fld := ⟨31, 31⟩
def BOOT_LOAD_CTL_END : Fld := ⟨30, 30⟩
def BOOT_LOAD_CTL_LEN : Fld := ⟨24, 0⟩
def BOOT_LOAD_WIN_VALUE : Fld := ⟨31, 0⟩
def NDL_STATUS_SEQ : Fld := ⟨31, 16⟩
def NDL_STATUS_STALE : Fld := ⟨15, 15⟩
def NDL_STATUS_HOST_VER : Fld := ⟨6, 6⟩
def NDL_STATUS_NTC_BACKLOG : Fld := ⟨5, 5⟩
def NDL_STATUS_MASKED : Fld := ⟨4, 4⟩
def NDL_STATUS_CFG_TIMEOUT : Fld := ⟨3, 3⟩
def NDL_STATUS_TAG_ERR : Fld := ⟨2, 2⟩
def NDL_STATUS_CREDIT_ERR : Fld := ⟨1, 1⟩
def NDL_STATUS_PROTO_ERR : Fld := ⟨0, 0⟩
def NDL_CFG_TMO_TMO : Fld := ⟨9, 0⟩
def NDL_NTC_HOLD_HOLD : Fld := ⟨9, 0⟩
def NDL_NTC_EN_EN : Fld := ⟨31, 0⟩
def NDL_NTC_PEND_PENDING : Fld := ⟨11, 0⟩
def NDL_LINE_STATUS_SEQ : Fld := ⟨31, 16⟩
def NDL_LINE_STATUS_STALE : Fld := ⟨15, 15⟩
def NDL_LINE_STATUS_COPYING : Fld := ⟨6, 6⟩
def NDL_LINE_STATUS_REMAP_FULL : Fld := ⟨5, 5⟩
def NDL_LINE_STATUS_POOL_LOW : Fld := ⟨4, 4⟩
def NDL_LINE_STATUS_RELOC_FAIL : Fld := ⟨3, 3⟩
def NDL_LINE_STATUS_MERGE_FULL : Fld := ⟨2, 2⟩
def NDL_LINE_STATUS_POISON_WR : Fld := ⟨1, 1⟩
def NDL_LINE_STATUS_ADDR_ERR : Fld := ⟨0, 0⟩
def NDL_LINE_CTL_MERGE_WAIT : Fld := ⟨10, 0⟩
def NDL_POOL_COUNT_FREE : Fld := ⟨26, 20⟩
def NDL_POOL_COUNT_STEER : Fld := ⟨19, 16⟩
def NDL_POOL_COUNT_REMAP : Fld := ⟨14, 0⟩
def NDL_REQ_TMO_TMO : Fld := ⟨9, 0⟩
def NDL_PATH_STATUS_SEQ : Fld := ⟨31, 16⟩
def NDL_PATH_STATUS_STALE : Fld := ⟨15, 15⟩
def NDL_PATH_STATUS_EXCLUDED : Fld := ⟨2, 2⟩
def NDL_PATH_STATUS_LATE_RSP : Fld := ⟨1, 1⟩
def NDL_PATH_STATUS_REQ_TIMEOUT : Fld := ⟨0, 0⟩
def SVC_STATUS_SEQ : Fld := ⟨31, 16⟩
def SVC_STATUS_STALE : Fld := ⟨15, 15⟩
def SVC_STATUS_STAGE3_STOP : Fld := ⟨7, 7⟩
def SVC_STATUS_SAT_ANY : Fld := ⟨6, 6⟩
def SVC_STATUS_HELD : Fld := ⟨5, 5⟩
def SVC_STATUS_OUT_OF_REACH : Fld := ⟨4, 4⟩
def SVC_STATUS_MISS : Fld := ⟨3, 3⟩
def SVC_STATUS_SATURATED : Fld := ⟨1, 1⟩
def SVC_STATUS_BUDGET_ERR : Fld := ⟨0, 0⟩
def SVC_LIMIT_LIM : Fld := ⟨8, 0⟩
def SVC_TARGET_PIN : Fld := ⟨16, 16⟩
def SVC_TARGET_TARGET : Fld := ⟨15, 0⟩
def SVC_REACH_MASK : Fld := ⟨31, 0⟩
def SVC_CHAN_SAT : Fld := ⟨31, 31⟩
def SVC_CHAN_PINNED : Fld := ⟨30, 30⟩
def SVC_CHAN_FIRM_SUM : Fld := ⟨24, 16⟩
def SVC_CHAN_LEVELS : Fld := ⟨7, 0⟩
def SVC_MISS_VALUE : Fld := ⟨31, 0⟩
def ENG_STATUS_SEQ : Fld := ⟨31, 16⟩
def ENG_STATUS_STALE : Fld := ⟨15, 15⟩
def ENG_STATUS_BUSY : Fld := ⟨6, 6⟩
def ENG_STATUS_RELAY : Fld := ⟨5, 5⟩
def ENG_STATUS_EPOCH_OPEN : Fld := ⟨4, 4⟩
def ENG_STATUS_ATOM_FAIL : Fld := ⟨3, 3⟩
def ENG_STATUS_ABORTED : Fld := ⟨2, 2⟩
def ENG_STATUS_STALE_RESULT : Fld := ⟨1, 1⟩
def ENG_STATUS_MIGRATED : Fld := ⟨0, 0⟩
def ENG_CTL_MIG_STAGE : Fld := ⟨4, 3⟩
def ENG_CTL_HOLD : Fld := ⟨1, 1⟩
def ENG_CTL_MIGRATE_EN : Fld := ⟨0, 0⟩
def ENG_TIER_RUNNING : Fld := ⟨31, 31⟩
def ENG_TIER_HOSTED : Fld := ⟨30, 30⟩
def ENG_TIER_HOME : Fld := ⟨29, 28⟩
def ENG_TIER_WAITING : Fld := ⟨22, 16⟩
def ENG_TIER_PLACEMENT : Fld := ⟨15, 0⟩
def ENG_EPOCHS_VALUE : Fld := ⟨31, 0⟩
def PROT_STATUS_SEQ : Fld := ⟨31, 16⟩
def PROT_STATUS_STALE : Fld := ⟨15, 15⟩
def PROT_STATUS_DUK_ABSENT : Fld := ⟨7, 7⟩
def PROT_STATUS_MAP_BUSY : Fld := ⟨6, 6⟩
def PROT_STATUS_HALT_ORDERED : Fld := ⟨5, 5⟩
def PROT_STATUS_DEBUG_BLOCK : Fld := ⟨4, 4⟩
def PROT_STATUS_MISMATCH : Fld := ⟨3, 3⟩
def PROT_STATUS_AUTH_FAIL : Fld := ⟨2, 2⟩
def PROT_STATUS_MAP_ERR : Fld := ⟨1, 1⟩
def PROT_STATUS_TAGERR : Fld := ⟨0, 0⟩
def PROT_KEYS_RETIRING : Fld := ⟨27, 16⟩
def PROT_KEYS_ACTIVE : Fld := ⟨11, 0⟩
def PROT_MAP_ERR_REASON : Fld := ⟨19, 16⟩
def PROT_MAP_ERR_ENTRY : Fld := ⟨15, 8⟩
def PROT_MAP_ERR_DEVICE : Fld := ⟨5, 0⟩
def PROT_DBG_ADDR_PATH : Fld := ⟨31, 30⟩
def PROT_DBG_ADDR_LINE : Fld := ⟨29, 0⟩
def PROT_RELAY_RUNNING : Fld := ⟨22, 16⟩
def PROT_RELAY_MAX : Fld := ⟨5, 0⟩
def QCTX_STATUS_SEQ : Fld := ⟨31, 16⟩
def QCTX_STATUS_STALE : Fld := ⟨15, 15⟩
def QCTX_STATUS_POLL_OVERRUN : Fld := ⟨5, 5⟩
def QCTX_STATUS_HOST_ERR : Fld := ⟨4, 4⟩
def QCTX_STATUS_CTX_CORR : Fld := ⟨3, 3⟩
def QCTX_STATUS_QUEUE_ERR : Fld := ⟨2, 2⟩
def QCTX_STATUS_DRAINED : Fld := ⟨1, 1⟩
def QCTX_STATUS_CMD_ERR : Fld := ⟨0, 0⟩
def QCTX_SEL_QUEUE : Fld := ⟨15, 0⟩
def QCTX_CMD_TAG : Fld := ⟨15, 8⟩
def QCTX_CMD_ERR : Fld := ⟨6, 4⟩
def QCTX_CMD_BUSY : Fld := ⟨3, 3⟩
def QCTX_CMD_OP : Fld := ⟨2, 0⟩
def QCTX_POLL_RUN : Fld := ⟨31, 31⟩
def QCTX_POLL_INTERVAL : Fld := ⟨13, 0⟩
def QCTX_COUNT_ENABLED : Fld := ⟨16, 0⟩
def QCTX_LAST_ERR_CAUSE : Fld := ⟨19, 16⟩
def QCTX_LAST_ERR_QUEUE : Fld := ⟨15, 0⟩
def QCTX_WIN_VALUE : Fld := ⟨31, 0⟩
def LINK_STATUS_SEQ : Fld := ⟨31, 16⟩
def LINK_STATUS_STALE : Fld := ⟨15, 15⟩
def LINK_STATUS_EYE_DONE : Fld := ⟨8, 8⟩
def LINK_STATUS_CAP_ERR : Fld := ⟨7, 7⟩
def LINK_STATUS_REPLAY_LIMIT : Fld := ⟨6, 6⟩
def LINK_STATUS_PEER_CHANGED : Fld := ⟨5, 5⟩
def LINK_STATUS_DOWN_EVT : Fld := ⟨4, 4⟩
def LINK_STATUS_RETRAIN : Fld := ⟨3, 3⟩
def LINK_STATUS_DEGRADED : Fld := ⟨2, 2⟩
def LINK_STATUS_RESCUE : Fld := ⟨1, 1⟩
def LINK_STATUS_UP : Fld := ⟨0, 0⟩
def LINK_CTL_STEP_UP : Fld := ⟨7, 7⟩
def LINK_CTL_RETRAIN : Fld := ⟨6, 6⟩
def LINK_CTL_PRECODE_REQ : Fld := ⟨5, 5⟩
def LINK_CTL_MAX_RATE : Fld := ⟨4, 4⟩
def LINK_CTL_MODE : Fld := ⟨2, 1⟩
def LINK_CTL_ENABLE : Fld := ⟨0, 0⟩
def LINK_STATE_BOND : Fld := ⟨29, 29⟩
def LINK_STATE_PRECODE_RX : Fld := ⟨28, 28⟩
def LINK_STATE_LOCKED : Fld := ⟨27, 20⟩
def LINK_STATE_IN_USE : Fld := ⟨19, 12⟩
def LINK_STATE_PRECODE_TX : Fld := ⟨11, 11⟩
def LINK_STATE_CLK : Fld := ⟨10, 10⟩
def LINK_STATE_VER : Fld := ⟨9, 8⟩
def LINK_STATE_RATE : Fld := ⟨7, 7⟩
def LINK_STATE_WIDTH : Fld := ⟨6, 5⟩
def LINK_STATE_TSTATE : Fld := ⟨3, 0⟩
def LINK_EYE_CTL_START : Fld := ⟨31, 31⟩
def LINK_EYE_CTL_BUSY : Fld := ⟨30, 30⟩
def LINK_EYE_CTL_THR : Fld := ⟨17, 10⟩
def LINK_EYE_CTL_DWELL : Fld := ⟨9, 6⟩
def LINK_EYE_CTL_MAP : Fld := ⟨5, 5⟩
def LINK_EYE_CTL_EYE : Fld := ⟨4, 3⟩
def LINK_EYE_CTL_LANE : Fld := ⟨2, 0⟩
def LINK_EYE_RES_VALID : Fld := ⟨26, 26⟩
def LINK_EYE_RES_MARGIN : Fld := ⟨25, 18⟩
def LINK_EYE_RES_EW_MUI : Fld := ⟨17, 8⟩
def LINK_EYE_RES_EH_MV : Fld := ⟨7, 0⟩
def LINK_PRBS_CTL_SYNC : Fld := ⟨19, 12⟩
def LINK_PRBS_CTL_LANE_EN : Fld := ⟨11, 4⟩
def LINK_PRBS_CTL_CLR : Fld := ⟨3, 3⟩
def LINK_PRBS_CTL_CHK_EN : Fld := ⟨2, 2⟩
def LINK_PRBS_CTL_GEN_EN : Fld := ⟨1, 1⟩
def LINK_PRBS_CTL_PAT : Fld := ⟨0, 0⟩
def LINK_LANE_SIGNAL : Fld := ⟨5, 5⟩
def LINK_LANE_PEER_LANE : Fld := ⟨4, 2⟩
def LINK_LANE_INVERTED : Fld := ⟨1, 1⟩
def LINK_LANE_LOCK : Fld := ⟨0, 0⟩
def LINK_PRBS_ERR_VALUE : Fld := ⟨31, 0⟩
def CH_STATUS_SEQ : Fld := ⟨31, 16⟩
def CH_STATUS_STALE : Fld := ⟨15, 15⟩
def CH_STATUS_TRAIN_LOW : Fld := ⟨8, 8⟩
def CH_STATUS_NREF_STALL : Fld := ⟨7, 7⟩
def CH_STATUS_REF_DEBT : Fld := ⟨6, 6⟩
def CH_STATUS_PARITY : Fld := ⟨5, 5⟩
def CH_STATUS_PASR_INIT : Fld := ⟨4, 4⟩
def CH_STATUS_RETIRED : Fld := ⟨3, 3⟩
def CH_STATUS_HALF : Fld := ⟨2, 2⟩
def CH_STATUS_SR : Fld := ⟨1, 1⟩
def CH_STATUS_HOT : Fld := ⟨0, 0⟩
def CH_CTL_NREF_DIST2 : Fld := ⟨9, 9⟩
def CH_CTL_NREF_K : Fld := ⟨8, 5⟩
def CH_CTL_PASR_KEEP : Fld := ⟨4, 2⟩
def CH_CTL_SR_EN : Fld := ⟨0, 0⟩
def CH_STATE_TEMP : Fld := ⟨31, 20⟩
def CH_STATE_QOCC : Fld := ⟨17, 8⟩
def CH_STATE_REF_MULT : Fld := ⟨7, 6⟩
def CH_STATE_PSTATE : Fld := ⟨2, 0⟩
def CH_TRAIN_VALID : Fld := ⟨31, 31⟩
def CH_TRAIN_FAIL : Fld := ⟨30, 30⟩
def CH_TRAIN_WR_PS : Fld := ⟨23, 16⟩
def CH_TRAIN_RD_PS : Fld := ⟨15, 8⟩
def CH_TRAIN_CA_PS : Fld := ⟨7, 0⟩
def CH_ECC_STATUS_SEQ : Fld := ⟨31, 16⟩
def CH_ECC_STATUS_STALE : Fld := ⟨15, 15⟩
def CH_ECC_STATUS_RANGER_LATE : Fld := ⟨6, 6⟩
def CH_ECC_STATUS_WINDTHROW : Fld := ⟨5, 5⟩
def CH_ECC_STATUS_STEERED : Fld := ⟨4, 4⟩
def CH_ECC_STATUS_PIN_SUSPECT : Fld := ⟨3, 3⟩
def CH_ECC_STATUS_UNCORR : Fld := ⟨2, 2⟩
def CH_ECC_STATUS_STICKY : Fld := ⟨1, 1⟩
def CH_ECC_STATUS_CE_OVF : Fld := ⟨0, 0⟩
def CH_CE_OVERFLOWS : Fld := ⟨31, 16⟩
def CH_CE_LEVEL : Fld := ⟨6, 0⟩
def CH_RANGER_ACTIVE : Fld := ⟨31, 31⟩
def CH_RANGER_PAUSED : Fld := ⟨30, 30⟩
def CH_RANGER_POS : Fld := ⟨24, 0⟩
def CH_ELOG_WRITTEN : Fld := ⟨31, 16⟩
def CH_ELOG_NEWEST : Fld := ⟨4, 0⟩
def CMN_STATUS_SEQ : Fld := ⟨31, 16⟩
def CMN_STATUS_STALE : Fld := ⟨15, 15⟩
def CMN_STATUS_BCAST_PEND : Fld := ⟨4, 4⟩
def CMN_STATUS_RNG_LASTSEED : Fld := ⟨3, 3⟩
def CMN_STATUS_RNG_BORROW : Fld := ⟨2, 2⟩
def CMN_STATUS_APT_FAIL : Fld := ⟨1, 1⟩
def CMN_STATUS_RCT_FAIL : Fld := ⟨0, 0⟩
def CMN_IDLE_SR_IDLE_SR : Fld := ⟨15, 0⟩
def CMN_BCAST_GO : Fld := ⟨31, 31⟩
def CMN_BCAST_NREF_DIST2 : Fld := ⟨9, 9⟩
def CMN_BCAST_NREF_K : Fld := ⟨8, 5⟩
def CMN_BCAST_PASR_KEEP : Fld := ⟨4, 2⟩
def CMN_DRBG_RESEED : Fld := ⟨31, 31⟩
def CMN_DRBG_RESEEDS : Fld := ⟨30, 0⟩
def CMN_RANGER_CTL_EN : Fld := ⟨8, 8⟩
def CMN_RANGER_CTL_PERIOD : Fld := ⟨7, 0⟩
def CMN_SPARES_WINDTHROWN : Fld := ⟨23, 16⟩
def CMN_SPARES_FIELD : Fld := ⟨15, 8⟩
def CMN_SPARES_LOW : Fld := ⟨7, 0⟩
def TESTWIN_LINE_LINE : Fld := ⟨29, 0⟩
def TESTWIN_CTL_REFUSED : Fld := ⟨3, 3⟩
def TESTWIN_CTL_BUSY : Fld := ⟨2, 2⟩
def TESTWIN_CTL_WRITE : Fld := ⟨1, 1⟩
def TESTWIN_CTL_READ : Fld := ⟨0, 0⟩
def TESTWIN_DATA_VALUE : Fld := ⟨31, 0⟩
end F

/-! ### The tables -/

/-- Registers of block IDENT, by offset in the block. -/
def identRegs : List RegRow := [
  ⟨"IDENT.VENDOR", 0x0, 4, 1, false,
    [.of "VENDOR_ID" 31 16 .ro 19289 .imm false,
     .of "PART" 15 0 .ro 1174 .imm false]⟩,
  ⟨"IDENT.REV", 0x4, 4, 1, false,
    [.of "RSV0" 31 8 .rsv 0 .imm false,
     .of "STEP_MAJOR" 7 4 .ro 1 .imm false,
     .of "STEP_MINOR" 3 0 .ro 0 .imm false]⟩,
  ⟨"IDENT.STRAPS", 0x8, 4, 1, false,
    [.of "RSV0" 31 9 .rsv 0 .imm false,
     .of "GRADE" 8 8 .ro 0 .imm false,
     .of "START_SLOT" 7 2 .ro 0 .imm false,
     .of "ROLE" 1 0 .ro 0 .imm false]⟩,
  ⟨"IDENT.DEVNUM", 0xC, 4, 1, false,
    [.of "RSV0" 31 7 .rsv 0 .imm false,
     .of "NUM_VALID" 6 6 .rw 0 .imm false,
     .of "NUM" 5 0 .rw 0 .imm false]⟩,
  ⟨"IDENT.NDL_CAP", 0x10, 4, 1, false,
    [.of "RSV0" 31 10 .rsv 0 .imm false,
     .of "ENGINES" 9 9 .ro 1 .imm false,
     .of "EYE_SCAN" 8 8 .ro 1 .imm false,
     .of "RSV1" 7 5 .rsv 0 .imm false,
     .of "RATE112" 4 4 .ro 1 .imm false,
     .of "RSV2" 3 3 .rsv 0 .imm false,
     .of "VERSIONS" 2 0 .ro 7 .imm false]⟩,
  ⟨"IDENT.FW_VER", 0x14, 4, 1, false,
    [.of "MAJOR" 31 24 .ro 0 .imm false,
     .of "MINOR" 23 16 .ro 0 .imm false,
     .of "PATCH" 15 0 .ro 0 .imm false]⟩,
  ⟨"IDENT.CAPACITY", 0x18, 4, 1, false,
    [.of "RAW_GIB" 31 16 .ro 96 .imm false,
     .of "USER_GIB" 15 0 .ro 94 .imm false]⟩,
  ⟨"IDENT.STATUS", 0x1C, 4, 1, true,
    [.of "SEQ" 31 16 .ro 0 .imm false,
     .of "STALE" 15 15 .rsq 0 .imm false,
     .of "RSV0" 14 2 .rsv 0 .imm false,
     .of "NUM_CHANGED" 1 1 .rsq 0 .imm false,
     .of "ID_CORR" 0 0 .rsq 0 .imm false]⟩]

/-- Registers of block TOPO, by offset in the block. -/
def topoRegs : List RegRow := [
  ⟨"TOPO.ENT_W0", 0x100, 8, 64, false,
    [.of "RSV0" 31 22 .rsv 0 .imm false,
     .of "ROUTE" 21 21 .ro 0 .imm false,
     .of "C" 20 17 .ro 0 .imm false,
     .of "H" 16 13 .ro 0 .imm false,
     .of "SPUR_POS" 12 10 .ro 0 .imm false,
     .of "SPUR" 9 9 .ro 0 .imm false,
     .of "TRUNK_POS" 8 6 .ro 0 .imm false,
     .of "STATE" 5 4 .ro 0 .imm false,
     .of "GEN" 3 3 .ro 0 .imm false,
     .of "ROLE" 2 1 .ro 0 .imm false,
     .of "VALID" 0 0 .ro 0 .imm false]⟩,
  ⟨"TOPO.ENT_W1", 0x104, 8, 64, false,
    [.of "CROWN_B" 31 24 .ro 0 .imm false,
     .of "CROWN_A" 23 16 .ro 0 .imm false,
     .of "EAST" 15 8 .ro 0 .imm false,
     .of "WEST" 7 0 .ro 0 .imm false]⟩,
  ⟨"TOPO.STATUS", 0x0, 4, 1, true,
    [.of "SEQ" 31 16 .ro 0 .imm false,
     .of "STALE" 15 15 .rsq 0 .imm false,
     .of "RSV0" 14 7 .rsv 0 .imm false,
     .of "ENUM_DONE" 6 6 .ro 0 .imm false,
     .of "UNSETTLED" 5 5 .ro 0 .imm false,
     .of "ARCS" 4 4 .ro 0 .imm false,
     .of "PLAN_MISMATCH" 3 3 .ro 0 .imm false,
     .of "UNNUMBERED" 2 2 .rsq 0 .imm false,
     .of "LIMIT" 1 1 .rsq 0 .imm false,
     .of "MISWIRE" 0 0 .rsq 0 .imm false]⟩,
  ⟨"TOPO.ENUM_CTL", 0x4, 4, 1, false,
    [.of "RSV0" 31 11 .rsv 0 .imm false,
     .lim "SETTLE" 10 0 .rw 1000 .boot true 100 2000]⟩,
  ⟨"TOPO.PLAN_CTL", 0x8, 4, 1, false,
    [.of "RSV0" 31 2 .rsv 0 .imm false,
     .of "COMMIT" 1 1 .wo 0 .imm false,
     .of "AUTO" 0 0 .rw 1 .imm true]⟩,
  ⟨"TOPO.COUNT", 0xC, 4, 1, false,
    [.of "RSV0" 31 16 .rsv 0 .imm false,
     .of "ARC_E" 15 12 .ro 0 .imm false,
     .of "BRANCHES" 11 8 .ro 0 .imm false,
     .of "RSV1" 7 7 .rsv 0 .imm false,
     .of "DEVICES" 6 0 .ro 0 .imm false]⟩,
  ⟨"TOPO.PLAN_TRUNK", 0x10, 4, 1, false,
    [.of "MAP" 31 16 .rw 0 .imm true,
     .of "RSV0" 15 4 .rsv 0 .imm true,
     .of "NPOS" 3 0 .rw 0 .imm true]⟩,
  ⟨"TOPO.PLAN_SPUR", 0x40, 4, 14, false,
    [.of "RSV0" 31 28 .rsv 0 .imm true,
     .of "MAP" 27 16 .rw 0 .imm true,
     .of "RSV1" 15 4 .rsv 0 .imm true,
     .of "NPOS" 3 0 .rw 0 .imm true]⟩]

/-- Registers of block FAULT, by offset in the block. -/
def faultRegs : List RegRow := [
  ⟨"FAULT.STATUS", 0x0, 4, 1, true,
    [.of "SEQ" 31 16 .ro 0 .imm false,
     .of "STALE" 15 15 .rsq 0 .imm false,
     .of "RSV0" 14 5 .rsv 0 .imm false,
     .of "ADMIT_STOP" 4 4 .ro 0 .imm false,
     .of "SEVERE" 3 3 .rsq 0 .imm false,
     .of "EXCLUDED" 2 2 .rsq 0 .imm false,
     .of "PROMOTED" 1 1 .rsq 0 .imm false,
     .of "EVENT" 0 0 .rsq 0 .imm false]⟩,
  ⟨"FAULT.CTL", 0x4, 4, 1, false,
    [.of "WARM_RESET" 31 31 .wo 0 .imm false,
     .of "KEY_HALT" 30 30 .wo 0 .imm false,
     .of "RESUME" 29 29 .wo 0 .imm false,
     .of "RSV0" 28 0 .rsv 0 .imm false]⟩,
  ⟨"FAULT.LAST", 0x8, 4, 1, false,
    [.of "SEV" 31 30 .ro 0 .imm false,
     .of "PROMOTED" 29 29 .ro 0 .imm false,
     .of "RSV0" 28 24 .rsv 0 .imm false,
     .of "UNIT" 23 16 .ro 0 .imm false,
     .of "RSV1" 15 7 .rsv 0 .imm false,
     .of "SOURCE" 6 0 .ro 0 .imm false]⟩,
  ⟨"FAULT.INJECT", 0xC, 4, 1, false,
    [.of "GO" 31 31 .wo 0 .imm false,
     .of "RSV0" 30 8 .rsv 0 .imm false,
     .of "UNIT" 7 0 .rw 0 .imm false]⟩,
  ⟨"FAULT.SRC", 0x100, 4, 120, false,
    [.of "CEIL" 31 30 .rw 0 .imm true,
     .of "BASE" 29 28 .ro 0 .imm true,
     .of "RSV0" 27 24 .rsv 0 .imm true,
     .lim "W_MS" 23 8 .rw 0 .imm true 1 60000,
     .lim "N" 7 0 .rw 0 .imm true 1 255]⟩]

/-- Registers of block BLAZE, by offset in the block. -/
def blazeRegs : List RegRow := [
  ⟨"BLAZE.STATUS", 0x0, 4, 1, true,
    [.of "SEQ" 31 16 .ro 0 .imm false,
     .of "STALE" 15 15 .rsq 0 .imm false,
     .of "RSV0" 14 3 .rsv 0 .imm false,
     .of "FULL_FROZEN" 2 2 .ro 0 .imm false,
     .of "FROZEN" 1 1 .ro 0 .imm false,
     .of "DROPPED" 0 0 .rsq 0 .imm false]⟩,
  ⟨"BLAZE.HEAD", 0x4, 4, 1, false,
    [.of "NEXT_ESEQ" 31 16 .ro 0 .imm true,
     .of "RSV0" 15 11 .rsv 0 .imm true,
     .of "NEWEST" 10 0 .ro 0 .imm true]⟩,
  ⟨"BLAZE.FROZEN", 0x8, 4, 1, false,
    [.of "F1_VALID" 31 31 .ro 0 .imm true,
     .of "RSV0" 30 27 .rsv 0 .imm true,
     .of "F1_NEWEST" 26 16 .ro 0 .imm true,
     .of "F2_VALID" 15 15 .ro 0 .imm true,
     .of "RSV1" 14 11 .rsv 0 .imm true,
     .of "F2_NEWEST" 10 0 .ro 0 .imm true]⟩,
  ⟨"BLAZE.CTL", 0xC, 4, 1, false,
    [.of "RSV0" 31 1 .rsv 0 .imm false,
     .of "THAW" 0 0 .wo 0 .imm false]⟩,
  ⟨"BLAZE.DROPS", 0x10, 4, 1, false,
    [.of "VALUE" 31 0 .ro 0 .imm true]⟩]

/-- Registers of block CENSUS, by offset in the block. -/
def censusRegs : List RegRow := [
  ⟨"CENSUS.STATUS", 0x0, 4, 1, true,
    [.of "SEQ" 31 16 .ro 0 .imm false,
     .of "STALE" 15 15 .rsq 0 .imm false,
     .of "RSV0" 14 4 .rsv 0 .imm false,
     .of "RUNNING" 3 3 .ro 0 .imm false,
     .of "SKIPPED" 2 2 .rsq 0 .imm false,
     .of "VOID" 1 1 .rsq 0 .imm false,
     .of "TORN" 0 0 .rsq 0 .imm false]⟩,
  ⟨"CENSUS.CTL", 0x4, 4, 1, false,
    [.of "RSV0" 31 16 .rsv 0 .imm false,
     .of "INTERVAL" 15 0 .rw 0 .imm false]⟩,
  ⟨"CENSUS.LAST", 0x8, 4, 1, false,
    [.of "VALUE" 31 0 .ro 0 .imm false]⟩]

/-- Registers of block MBX, by offset in the block. -/
def mbxRegs : List RegRow := [
  ⟨"MBX.SEL", 0x0, 4, 1, false,
    [.of "PAGE" 31 28 .rw 0 .imm false,
     .of "BLOCK" 27 16 .rw 0 .imm false,
     .of "ITEM" 15 0 .rw 0 .imm false]⟩,
  ⟨"MBX.CTL", 0x4, 4, 1, false,
    [.of "RSV0" 31 19 .rsv 0 .imm false,
     .of "ERR" 18 16 .ro 0 .imm false,
     .of "TAG" 15 8 .rw 0 .imm false,
     .of "LEN" 7 4 .ro 0 .imm false,
     .of "VALID" 3 3 .ro 0 .imm false,
     .of "BUSY" 2 2 .ro 0 .imm false,
     .of "DIR" 1 1 .rw 0 .imm false,
     .of "REQ" 0 0 .wo 0 .imm false]⟩,
  ⟨"MBX.ACC_STATUS", 0x8, 4, 1, true,
    [.of "SEQ" 31 16 .ro 0 .imm true,
     .of "STALE" 15 15 .rsq 0 .imm true,
     .of "RSV0" 14 8 .rsv 0 .imm true,
     .of "LAST_PATH" 7 6 .ro 0 .imm true,
     .of "ALIAS_IGN" 5 5 .rsq 0 .imm true,
     .of "UNAVAIL" 4 4 .rsq 0 .imm true,
     .of "LOCKED" 3 3 .rsq 0 .imm true,
     .of "RO_WRITE" 2 2 .rsq 0 .imm true,
     .of "UNALIGNED" 1 1 .rsq 0 .imm true,
     .of "UNMAPPED" 0 0 .rsq 0 .imm true]⟩,
  ⟨"MBX.DATA", 0x20, 4, 8, false,
    [.of "VALUE" 31 0 .rw 0 .imm false]⟩]

/-- Registers of block PWR, by offset in the block. -/
def pwrRegs : List RegRow := [
  ⟨"PWR.STATUS", 0x0, 4, 1, true,
    [.of "SEQ" 31 16 .ro 0 .imm false,
     .of "STALE" 15 15 .rsq 0 .imm false,
     .of "RSV0" 14 8 .rsv 0 .imm false,
     .of "VIN_OK" 7 7 .ro 0 .imm false,
     .of "WAKE_RETRY" 6 6 .rsq 0 .imm false,
     .of "REFUSED" 5 5 .rsq 0 .imm false,
     .of "ENTRY_ABANDONED" 4 4 .rsq 0 .imm false,
     .of "RAIL_FAULT" 3 3 .rsq 0 .imm false,
     .of "CAP_OVER" 2 2 .rsq 0 .imm false,
     .of "CAP_ACTIVE" 1 1 .ro 0 .imm false,
     .of "VIN_RANGE" 0 0 .rsq 0 .imm false]⟩,
  ⟨"PWR.STATE", 0x4, 4, 1, false,
    [.of "RSV0" 31 14 .rsv 0 .imm false,
     .of "CAP_STAGE" 13 12 .ro 0 .imm false,
     .of "LAST_WAKE" 11 8 .ro 0 .imm false,
     .of "TRANSIT" 7 7 .ro 0 .imm false,
     .of "TARGET" 6 4 .ro 0 .imm false,
     .of "RSV1" 3 3 .rsv 0 .imm false,
     .of "STATE" 2 0 .ro 0 .imm false]⟩,
  ⟨"PWR.CMD", 0x8, 4, 1, false,
    [.of "GO" 31 31 .wo 0 .imm false,
     .of "RSV0" 30 3 .rsv 0 .imm false,
     .of "STATE" 2 0 .wo 0 .imm false]⟩,
  ⟨"PWR.CAP", 0xC, 4, 1, false,
    [.of "EN" 31 31 .rw 1 .imm false,
     .of "RSV0" 30 7 .rsv 0 .imm false,
     .lim "WATTS" 6 0 .rw 64 .imm false 20 64]⟩,
  ⟨"PWR.MEAS", 0x10, 4, 1, false,
    [.of "PIN" 31 16 .ro 0 .imm false,
     .of "VIN" 15 0 .ro 0 .imm false]⟩,
  ⟨"PWR.VIN_AGE", 0x14, 4, 1, false,
    [.of "RSV0" 31 17 .rsv 0 .imm true,
     .of "NEVER" 16 16 .ro 1 .imm true,
     .of "SECONDS" 15 0 .ro 0 .imm true]⟩,
  ⟨"PWR.RAILS", 0x18, 4, 1, false,
    [.of "RSV0" 31 6 .rsv 0 .imm true,
     .of "FAULT" 5 0 .ro 0 .imm true]⟩]

/-- Registers of block THERM, by offset in the block. -/
def thermRegs : List RegRow := [
  ⟨"THERM.STATUS", 0x0, 4, 1, true,
    [.of "SEQ" 31 16 .ro 0 .imm false,
     .of "STALE" 15 15 .rsq 0 .imm false,
     .of "RSV0" 14 8 .rsv 0 .imm false,
     .of "TALLY_FAIL" 7 7 .rsq 0 .imm true,
     .of "LEDGER_RETIRE" 6 6 .ro 0 .imm false,
     .of "LEDGER_WARN" 5 5 .ro 0 .imm false,
     .of "BLIND" 4 4 .ro 0 .imm false,
     .of "SUBST" 3 3 .ro 0 .imm false,
     .of "BROKEN" 2 2 .rsq 0 .imm false,
     .of "TRIPPED" 1 1 .rsq 0 .imm true,
     .of "THERM_N" 0 0 .ro 0 .imm false]⟩,
  ⟨"THERM.STAGE", 0x4, 4, 1, false,
    [.of "HOTTEST" 31 20 .ro 0 .imm false,
     .of "SENSOR" 19 12 .ro 0 .imm false,
     .of "RSV0" 11 10 .rsv 0 .imm false,
     .of "DEVICE" 9 8 .ro 0 .imm false,
     .of "TIERS" 7 0 .ro 0 .imm false]⟩,
  ⟨"THERM.TIER", 0x10, 4, 4, false,
    [.of "INPUT" 31 20 .ro 0 .imm false,
     .of "SENSOR" 19 12 .ro 0 .imm false,
     .of "RSV0" 11 7 .rsv 0 .imm false,
     .of "BLIND" 6 6 .ro 0 .imm false,
     .of "SUBST" 5 5 .ro 0 .imm false,
     .of "HOLD" 4 4 .ro 0 .imm false,
     .of "THROTTLE" 3 2 .ro 0 .imm false,
     .of "STAGE" 1 0 .ro 0 .imm false]⟩,
  ⟨"THERM.LEDGER", 0x30, 4, 4, false,
    [.of "RSV0" 31 21 .rsv 0 .imm true,
     .of "TALLIES" 20 10 .ro 0 .imm true,
     .of "RESIDUE" 9 0 .ro 0 .imm true]⟩,
  ⟨"THERM.BROKEN", 0x20, 4, 3, false,
    [.of "VALUE" 31 0 .ro 0 .imm false]⟩]

/-- Registers of block CLK, by offset in the block. -/
def clkRegs : List RegRow := [
  ⟨"CLK.STATUS", 0x0, 4, 1, true,
    [.of "SEQ" 31 16 .ro 0 .imm false,
     .of "STALE" 15 15 .rsq 0 .imm false,
     .of "RSV0" 14 7 .rsv 0 .imm false,
     .of "TICK_LOSC" 6 6 .ro 0 .imm false,
     .of "PLL_LOCK" 5 5 .ro 0 .imm false,
     .of "JOURNAL" 4 4 .rsq 0 .imm false,
     .of "HB_LOSS" 3 3 .rsq 0 .imm false,
     .of "CAL_LOW" 2 2 .rsq 0 .imm false,
     .of "CAL_REVERT" 1 1 .rsq 0 .imm false,
     .of "REFCLK_FAULT" 0 0 .rsq 0 .imm false]⟩,
  ⟨"CLK.CAL_CTL", 0x4, 4, 1, false,
    [.of "RSV0" 31 9 .rsv 0 .imm false,
     .of "AUTO" 8 8 .rw 1 .imm false,
     .of "RSV1" 7 5 .rsv 0 .imm false,
     .lim "DELTA" 4 0 .rw 6 .imm false 2 20]⟩,
  ⟨"CLK.CAL_TIER", 0x10, 4, 4, false,
    [.of "RUNNING" 31 31 .ro 0 .imm false,
     .of "PENDING" 30 30 .ro 0 .imm false,
     .of "RSV0" 29 28 .rsv 0 .imm false,
     .of "REF_TEMP" 27 16 .ro 0 .imm false,
     .of "MARGIN" 15 8 .ro 0 .imm false,
     .of "RSV1" 7 6 .rsv 0 .imm false,
     .of "GROUP" 5 0 .ro 0 .imm false]⟩,
  ⟨"CLK.JOURNAL", 0x20, 4, 1, false,
    [.of "CLR" 31 31 .wo 0 .imm true,
     .of "OVF" 30 30 .ro 0 .imm true,
     .of "RSV0" 29 10 .rsv 0 .imm true,
     .of "COUNT" 9 0 .ro 0 .imm true]⟩]

/-- Registers of block FUSE, by offset in the block. -/
def fuseRegs : List RegRow := [
  ⟨"FUSE.STATUS", 0x0, 4, 1, true,
    [.of "SEQ" 31 16 .ro 0 .imm false,
     .of "STALE" 15 15 .rsq 0 .imm false,
     .of "RSV0" 14 7 .rsv 0 .imm false,
     .of "VPGM_OK" 6 6 .ro 0 .imm false,
     .of "PROG_BUSY" 5 5 .ro 0 .imm false,
     .of "VERIFY_FAIL" 4 4 .rsq 0 .imm false,
     .of "SPARE_CONFLICT" 3 3 .rsq 0 .imm false,
     .of "UNUSABLE" 2 2 .rsq 0 .imm false,
     .of "MARGINAL" 1 1 .rsq 0 .imm false,
     .of "CORRECTED" 0 0 .rsq 0 .imm false]⟩,
  ⟨"FUSE.PROG", 0x4, 4, 1, false,
    [.of "CELLS" 31 16 .ro 0 .imm false,
     .of "ENTRY" 15 0 .ro 0 .imm false]⟩,
  ⟨"FUSE.VPGM", 0x8, 4, 1, false,
    [.of "RSV0" 31 12 .rsv 0 .imm false,
     .of "MV" 11 0 .ro 0 .imm false]⟩,
  ⟨"FUSE.REGION", 0x40, 4, 40, false,
    [.of "STATE" 31 30 .ro 0 .imm false,
     .of "RLOCK" 29 29 .ro 0 .imm false,
     .of "WLOCK" 28 28 .ro 0 .imm false,
     .of "MANDATORY" 27 27 .ro 0 .imm false,
     .of "RSV0" 26 16 .rsv 0 .imm false,
     .of "CORR" 15 8 .ro 0 .imm false,
     .of "MARG" 7 0 .ro 0 .imm false]⟩]

/-- Registers of block BOOT, by offset in the block. -/
def bootRegs : List RegRow := [
  ⟨"BOOT.STATUS", 0x0, 4, 1, true,
    [.of "SEQ" 31 16 .ro 0 .imm false,
     .of "STALE" 15 15 .rsq 0 .imm false,
     .of "RSV0" 14 9 .rsv 0 .imm false,
     .of "OWNER_LOCK" 8 8 .ro 0 .imm false,
     .of "START_DONE" 7 7 .ro 0 .imm false,
     .of "LOAD_FAIL" 6 6 .rsq 0 .imm false,
     .of "FLASH_ERR" 5 5 .rsq 0 .imm false,
     .of "STAGED" 4 4 .rsq 0 .imm false,
     .of "ARB_ADV" 3 3 .rsq 0 .imm false,
     .of "EXCLUDED" 2 2 .rsq 0 .imm false,
     .of "BIST_FAIL" 1 1 .rsq 0 .imm false,
     .of "REBOOTED" 0 0 .rsq 0 .imm false]⟩,
  ⟨"BOOT.STATE", 0x4, 4, 1, false,
    [.of "FAIL" 31 24 .ro 0 .imm false,
     .of "RSV0" 23 18 .rsv 0 .imm false,
     .of "KIND" 17 16 .ro 0 .imm false,
     .of "STEP" 15 12 .ro 0 .imm false,
     .of "TIERS" 11 8 .ro 0 .imm false,
     .of "RSV1" 7 2 .rsv 0 .imm false,
     .of "FW" 1 0 .ro 0 .imm false]⟩,
  ⟨"BOOT.CTL", 0x8, 4, 1, false,
    [.of "RSV0" 31 9 .rsv 0 .imm false,
     .of "OWNER_LOCK" 8 8 .wo 0 .imm false,
     .of "RELEASE" 7 4 .rw 0 .imm false,
     .of "RSV1" 3 1 .rsv 0 .imm false,
     .of "REBOOT" 0 0 .wo 0 .imm false]⟩,
  ⟨"BOOT.ARB", 0xC, 4, 1, false,
    [.of "RSV0" 31 25 .rsv 0 .imm false,
     .of "EPOCH" 24 16 .ro 0 .imm false,
     .of "RSV1" 15 9 .rsv 0 .imm false,
     .of "COUNT" 8 0 .ro 0 .imm false]⟩,
  ⟨"BOOT.START_MS", 0x10, 4, 1, false,
    [.of "RSV0" 31 16 .rsv 0 .imm false,
     .of "MS" 15 0 .ro 0 .imm false]⟩,
  ⟨"BOOT.LOAD_CTL", 0x20, 4, 1, false,
    [.of "START" 31 31 .wo 0 .imm false,
     .of "END" 30 30 .wo 0 .imm false,
     .of "RSV0" 29 25 .rsv 0 .imm false,
     .of "LEN" 24 0 .wo 0 .imm false]⟩,
  ⟨"BOOT.LOAD_WIN", 0x30, 4, 4, false,
    [.of "VALUE" 31 0 .wo 0 .imm false]⟩]

/-- Registers of block NDL, by offset in the block. -/
def ndlRegs : List RegRow := [
  ⟨"NDL.STATUS", 0x0, 4, 1, true,
    [.of "SEQ" 31 16 .ro 0 .imm false,
     .of "STALE" 15 15 .rsq 0 .imm false,
     .of "RSV0" 14 7 .rsv 0 .imm false,
     .of "HOST_VER" 6 6 .ro 0 .imm false,
     .of "NTC_BACKLOG" 5 5 .ro 0 .imm false,
     .of "MASKED" 4 4 .rsq 0 .imm false,
     .of "CFG_TIMEOUT" 3 3 .rsq 0 .imm false,
     .of "TAG_ERR" 2 2 .rsq 0 .imm false,
     .of "CREDIT_ERR" 1 1 .rsq 0 .imm false,
     .of "PROTO_ERR" 0 0 .rsq 0 .imm false]⟩,
  ⟨"NDL.CFG_TMO", 0x4, 4, 1, false,
    [.of "RSV0" 31 10 .rsv 0 .imm false,
     .lim "TMO" 9 0 .rw 200 .imm false 10 1000]⟩,
  ⟨"NDL.NTC_HOLD", 0x8, 4, 1, false,
    [.of "RSV0" 31 10 .rsv 0 .imm false,
     .lim "HOLD" 9 0 .rw 10 .imm false 0 1000]⟩,
  ⟨"NDL.NTC_EN", 0xC, 4, 1, false,
    [.of "EN" 31 0 .rw 4294967295 .imm false]⟩,
  ⟨"NDL.NTC_PEND", 0x10, 4, 1, false,
    [.of "RSV0" 31 12 .rsv 0 .imm false,
     .of "PENDING" 11 0 .ro 0 .imm false]⟩,
  ⟨"NDL.LINE_STATUS", 0x200, 4, 1, true,
    [.of "SEQ" 31 16 .ro 0 .imm false,
     .of "STALE" 15 15 .rsq 0 .imm false,
     .of "RSV0" 14 7 .rsv 0 .imm false,
     .of "COPYING" 6 6 .ro 0 .imm false,
     .of "REMAP_FULL" 5 5 .ro 0 .imm false,
     .of "POOL_LOW" 4 4 .ro 0 .imm false,
     .of "RELOC_FAIL" 3 3 .rsq 0 .imm false,
     .of "MERGE_FULL" 2 2 .rsq 0 .imm false,
     .of "POISON_WR" 1 1 .rsq 0 .imm false,
     .of "ADDR_ERR" 0 0 .rsq 0 .imm false]⟩,
  ⟨"NDL.LINE_CTL", 0x204, 4, 1, false,
    [.of "RSV0" 31 11 .rsv 0 .imm false,
     .lim "MERGE_WAIT" 10 0 .rw 200 .imm false 0 2000]⟩,
  ⟨"NDL.POOL_COUNT", 0x208, 4, 1, false,
    [.of "RSV0" 31 27 .rsv 0 .imm false,
     .of "FREE" 26 20 .ro 64 .imm false,
     .of "STEER" 19 16 .ro 0 .imm false,
     .of "RSV1" 15 15 .rsv 0 .imm false,
     .of "REMAP" 14 0 .ro 0 .imm false]⟩,
  ⟨"NDL.REQ_TMO", 0x14, 4, 1, false,
    [.of "RSV0" 31 10 .rsv 0 .imm false,
     .lim "TMO" 9 0 .rw 50 .imm false 5 1000]⟩,
  ⟨"NDL.PATH_STATUS", 0x18, 4, 1, true,
    [.of "SEQ" 31 16 .ro 0 .imm false,
     .of "STALE" 15 15 .rsq 0 .imm false,
     .of "RSV0" 14 3 .rsv 0 .imm false,
     .of "EXCLUDED" 2 2 .rsq 0 .imm false,
     .of "LATE_RSP" 1 1 .rsq 0 .imm false,
     .of "REQ_TIMEOUT" 0 0 .rsq 0 .imm false]⟩]

/-- Registers of block SVC, by offset in the block. -/
def svcRegs : List RegRow := [
  ⟨"SVC.STATUS", 0x0, 4, 1, true,
    [.of "SEQ" 31 16 .ro 0 .imm false,
     .of "STALE" 15 15 .rsq 0 .imm false,
     .of "RSV0" 14 8 .rsv 0 .imm false,
     .of "STAGE3_STOP" 7 7 .ro 0 .imm false,
     .of "SAT_ANY" 6 6 .ro 0 .imm false,
     .of "HELD" 5 5 .rsq 0 .imm false,
     .of "OUT_OF_REACH" 4 4 .rsq 0 .imm false,
     .of "MISS" 3 3 .rsq 0 .imm false,
     .of "RSV1" 2 2 .rsv 0 .imm false,
     .of "SATURATED" 1 1 .rsq 0 .imm false,
     .of "BUDGET_ERR" 0 0 .rsq 0 .imm false]⟩,
  ⟨"SVC.LIMIT", 0x40, 4, 16, false,
    [.of "RSV0" 31 9 .rsv 0 .imm false,
     .lim "LIM" 8 0 .rw 16 .imm false 1 256]⟩,
  ⟨"SVC.TARGET", 0x80, 4, 4, false,
    [.of "RSV0" 31 17 .rsv 0 .imm false,
     .of "PIN" 16 16 .rw 0 .imm false,
     .of "TARGET" 15 0 .rw 0 .imm false]⟩,
  ⟨"SVC.REACH", 0xA0, 4, 4, false,
    [.of "MASK" 31 0 .rw 4294967295 .imm false]⟩,
  ⟨"SVC.CHAN", 0x100, 4, 32, false,
    [.of "SAT" 31 31 .ro 0 .imm false,
     .of "PINNED" 30 30 .ro 0 .imm false,
     .of "RSV0" 29 25 .rsv 0 .imm false,
     .of "FIRM_SUM" 24 16 .ro 64 .imm false,
     .of "RSV1" 15 8 .rsv 0 .imm false,
     .of "LEVELS" 7 0 .ro 0 .imm false]⟩,
  ⟨"SVC.MISS", 0xC0, 4, 4, false,
    [.of "VALUE" 31 0 .ro 0 .imm false]⟩]

/-- Registers of block ENG, by offset in the block. -/
def engRegs : List RegRow := [
  ⟨"ENG.STATUS", 0x0, 4, 1, true,
    [.of "SEQ" 31 16 .ro 0 .imm false,
     .of "STALE" 15 15 .rsq 0 .imm false,
     .of "RSV0" 14 7 .rsv 0 .imm false,
     .of "BUSY" 6 6 .ro 0 .imm false,
     .of "RELAY" 5 5 .ro 0 .imm false,
     .of "EPOCH_OPEN" 4 4 .ro 0 .imm false,
     .of "ATOM_FAIL" 3 3 .rsq 0 .imm false,
     .of "ABORTED" 2 2 .rsq 0 .imm false,
     .of "STALE_RESULT" 1 1 .rsq 0 .imm false,
     .of "MIGRATED" 0 0 .rsq 0 .imm false]⟩,
  ⟨"ENG.CTL", 0x4, 4, 1, false,
    [.of "RSV0" 31 5 .rsv 0 .imm false,
     .lim "MIG_STAGE" 4 3 .rw 2 .imm false 2 3,
     .of "RSV1" 2 2 .rsv 0 .imm false,
     .of "HOLD" 1 1 .rw 0 .imm false,
     .of "MIGRATE_EN" 0 0 .rw 1 .imm false]⟩,
  ⟨"ENG.TIER", 0x10, 4, 4, false,
    [.of "RUNNING" 31 31 .ro 0 .imm false,
     .of "HOSTED" 30 30 .ro 0 .imm false,
     .of "HOME" 29 28 .ro 0 .imm false,
     .of "RSV0" 27 23 .rsv 0 .imm false,
     .of "WAITING" 22 16 .ro 0 .imm false,
     .of "PLACEMENT" 15 0 .ro 0 .imm false]⟩,
  ⟨"ENG.EPOCHS", 0x20, 4, 1, false,
    [.of "VALUE" 31 0 .ro 0 .imm false]⟩]

/-- Registers of block PROT, by offset in the block. -/
def protRegs : List RegRow := [
  ⟨"PROT.STATUS", 0x0, 4, 1, true,
    [.of "SEQ" 31 16 .ro 0 .imm false,
     .of "STALE" 15 15 .rsq 0 .imm false,
     .of "RSV0" 14 8 .rsv 0 .imm false,
     .of "DUK_ABSENT" 7 7 .ro 0 .imm false,
     .of "MAP_BUSY" 6 6 .ro 0 .imm false,
     .of "HALT_ORDERED" 5 5 .rsq 0 .imm false,
     .of "DEBUG_BLOCK" 4 4 .rsq 0 .imm false,
     .of "MISMATCH" 3 3 .rsq 0 .imm false,
     .of "AUTH_FAIL" 2 2 .rsq 0 .imm false,
     .of "MAP_ERR" 1 1 .rsq 0 .imm false,
     .of "TAGERR" 0 0 .rsq 0 .imm false]⟩,
  ⟨"PROT.KEYS", 0x4, 4, 1, false,
    [.of "RSV0" 31 28 .rsv 0 .imm false,
     .of "RETIRING" 27 16 .ro 0 .imm false,
     .of "RSV1" 15 12 .rsv 0 .imm false,
     .of "ACTIVE" 11 0 .ro 0 .imm false]⟩,
  ⟨"PROT.MAP_ERR", 0x8, 4, 1, false,
    [.of "RSV0" 31 20 .rsv 0 .imm false,
     .of "REASON" 19 16 .ro 0 .imm false,
     .of "ENTRY" 15 8 .ro 0 .imm false,
     .of "RSV1" 7 6 .rsv 0 .imm false,
     .of "DEVICE" 5 0 .ro 0 .imm false]⟩,
  ⟨"PROT.DBG_ADDR", 0xC, 4, 1, false,
    [.of "PATH" 31 30 .ro 0 .imm false,
     .of "LINE" 29 0 .ro 0 .imm false]⟩,
  ⟨"PROT.RELAY", 0x10, 4, 1, false,
    [.of "RSV0" 31 23 .rsv 0 .imm false,
     .of "RUNNING" 22 16 .ro 0 .imm false,
     .of "RSV1" 15 6 .rsv 0 .imm false,
     .lim "MAX" 5 0 .rw 32 .imm false 4 32]⟩]

/-- Registers of block QCTX, by offset in the block. -/
def qctxRegs : List RegRow := [
  ⟨"QCTX.STATUS", 0x0, 4, 1, true,
    [.of "SEQ" 31 16 .ro 0 .imm false,
     .of "STALE" 15 15 .rsq 0 .imm false,
     .of "RSV0" 14 6 .rsv 0 .imm false,
     .of "POLL_OVERRUN" 5 5 .rsq 0 .imm false,
     .of "HOST_ERR" 4 4 .rsq 0 .imm false,
     .of "CTX_CORR" 3 3 .rsq 0 .imm false,
     .of "QUEUE_ERR" 2 2 .rsq 0 .imm false,
     .of "DRAINED" 1 1 .rsq 0 .imm false,
     .of "CMD_ERR" 0 0 .rsq 0 .imm false]⟩,
  ⟨"QCTX.SEL", 0x4, 4, 1, false,
    [.of "RSV0" 31 16 .rsv 0 .imm false,
     .of "QUEUE" 15 0 .rw 0 .imm false]⟩,
  ⟨"QCTX.CMD", 0x8, 4, 1, false,
    [.of "RSV0" 31 16 .rsv 0 .imm false,
     .of "TAG" 15 8 .rw 0 .imm false,
     .of "RSV1" 7 7 .rsv 0 .imm false,
     .of "ERR" 6 4 .ro 0 .imm false,
     .of "BUSY" 3 3 .ro 0 .imm false,
     .of "OP" 2 0 .wo 0 .imm false]⟩,
  ⟨"QCTX.POLL", 0xC, 4, 1, false,
    [.of "RUN" 31 31 .rw 1 .imm false,
     .of "RSV0" 30 14 .rsv 0 .imm false,
     .lim "INTERVAL" 13 0 .rw 20 .imm false 5 10000]⟩,
  ⟨"QCTX.COUNT", 0x10, 4, 1, false,
    [.of "RSV0" 31 17 .rsv 0 .imm false,
     .of "ENABLED" 16 0 .ro 0 .imm false]⟩,
  ⟨"QCTX.LAST_ERR", 0x14, 4, 1, false,
    [.of "RSV0" 31 20 .rsv 0 .imm false,
     .of "CAUSE" 19 16 .ro 0 .imm false,
     .of "QUEUE" 15 0 .ro 0 .imm false]⟩,
  ⟨"QCTX.WIN", 0x40, 4, 16, false,
    [.of "VALUE" 31 0 .rw 0 .imm false]⟩]

/-- Registers of block LINK_x, by offset in the block. -/
def linkRegs : List RegRow := [
  ⟨"LINK_x.STATUS", 0x0, 4, 1, true,
    [.of "SEQ" 31 16 .ro 0 .imm false,
     .of "STALE" 15 15 .rsq 0 .imm false,
     .of "RSV0" 14 9 .rsv 0 .imm false,
     .of "EYE_DONE" 8 8 .rsq 0 .imm false,
     .of "CAP_ERR" 7 7 .rsq 0 .imm false,
     .of "REPLAY_LIMIT" 6 6 .rsq 0 .imm false,
     .of "PEER_CHANGED" 5 5 .rsq 0 .imm false,
     .of "DOWN_EVT" 4 4 .rsq 0 .imm false,
     .of "RETRAIN" 3 3 .rsq 0 .imm false,
     .of "DEGRADED" 2 2 .ro 0 .imm false,
     .of "RESCUE" 1 1 .ro 0 .imm false,
     .of "UP" 0 0 .ro 0 .imm false]⟩,
  ⟨"LINK_x.CTL", 0x4, 4, 1, false,
    [.of "RSV0" 31 8 .rsv 0 .imm false,
     .of "STEP_UP" 7 7 .wo 0 .imm false,
     .of "RETRAIN" 6 6 .wo 0 .imm false,
     .of "PRECODE_REQ" 5 5 .rw 0 .imm false,
     .of "MAX_RATE" 4 4 .rw 1 .imm false,
     .of "RSV1" 3 3 .rsv 0 .imm false,
     .of "MODE" 2 1 .rw 0 .blk false,
     .of "ENABLE" 0 0 .rw 1 .imm false]⟩,
  ⟨"LINK_x.STATE", 0x8, 4, 1, false,
    [.of "RSV0" 31 30 .rsv 0 .imm false,
     .of "BOND" 29 29 .ro 0 .imm false,
     .of "PRECODE_RX" 28 28 .ro 0 .imm false,
     .of "LOCKED" 27 20 .ro 0 .imm false,
     .of "IN_USE" 19 12 .ro 0 .imm false,
     .of "PRECODE_TX" 11 11 .ro 0 .imm false,
     .of "CLK" 10 10 .ro 0 .imm false,
     .of "VER" 9 8 .ro 0 .imm false,
     .of "RATE" 7 7 .ro 0 .imm false,
     .of "WIDTH" 6 5 .ro 0 .imm false,
     .of "RSV1" 4 4 .rsv 0 .imm false,
     .of "TSTATE" 3 0 .ro 0 .imm false]⟩,
  ⟨"LINK_x.EYE_CTL", 0x20, 4, 1, false,
    [.of "START" 31 31 .wo 0 .imm false,
     .of "BUSY" 30 30 .ro 0 .imm false,
     .of "RSV0" 29 18 .rsv 0 .imm false,
     .of "THR" 17 10 .rw 0 .imm false,
     .lim "DWELL" 9 6 .rw 0 .imm false 0 10,
     .of "MAP" 5 5 .rw 0 .imm false,
     .of "EYE" 4 3 .rw 3 .imm false,
     .of "LANE" 2 0 .rw 0 .imm false]⟩,
  ⟨"LINK_x.EYE_RES", 0x24, 4, 4, false,
    [.of "RSV0" 31 27 .rsv 0 .imm false,
     .of "VALID" 26 26 .ro 0 .imm false,
     .of "MARGIN" 25 18 .ro 0 .imm false,
     .of "EW_MUI" 17 8 .ro 0 .imm false,
     .of "EH_MV" 7 0 .ro 0 .imm false]⟩,
  ⟨"LINK_x.PRBS_CTL", 0x40, 4, 1, false,
    [.of "RSV0" 31 20 .rsv 0 .imm false,
     .of "SYNC" 19 12 .ro 0 .imm false,
     .of "LANE_EN" 11 4 .rw 255 .blk false,
     .of "CLR" 3 3 .wo 0 .imm false,
     .of "CHK_EN" 2 2 .rw 0 .blk false,
     .of "GEN_EN" 1 1 .rw 0 .blk false,
     .of "PAT" 0 0 .rw 0 .blk false]⟩,
  ⟨"LINK_x.LANE", 0x100, 4, 8, false,
    [.of "RSV0" 31 6 .rsv 0 .imm false,
     .of "SIGNAL" 5 5 .ro 0 .imm false,
     .of "PEER_LANE" 4 2 .ro 0 .imm false,
     .of "INVERTED" 1 1 .ro 0 .imm false,
     .of "LOCK" 0 0 .ro 0 .imm false]⟩,
  ⟨"LINK_x.PRBS_ERR", 0x80, 4, 8, false,
    [.of "VALUE" 31 0 .ro 0 .imm false]⟩]

/-- Registers of block TIERt.CHc, by offset in the block. -/
def chRegs : List RegRow := [
  ⟨"TIERt.CHc.STATUS", 0x0, 4, 1, true,
    [.of "SEQ" 31 16 .ro 0 .imm false,
     .of "STALE" 15 15 .rsq 0 .imm false,
     .of "RSV0" 14 9 .rsv 0 .imm false,
     .of "TRAIN_LOW" 8 8 .rsq 0 .imm false,
     .of "NREF_STALL" 7 7 .rsq 0 .imm false,
     .of "REF_DEBT" 6 6 .rsq 0 .imm false,
     .of "PARITY" 5 5 .rsq 0 .imm false,
     .of "PASR_INIT" 4 4 .ro 0 .imm false,
     .of "RETIRED" 3 3 .ro 0 .imm false,
     .of "HALF" 2 2 .ro 0 .imm false,
     .of "SR" 1 1 .ro 0 .imm false,
     .of "HOT" 0 0 .ro 0 .imm false]⟩,
  ⟨"TIERt.CHc.CTL", 0x4, 4, 1, false,
    [.of "RSV0" 31 10 .rsv 0 .imm false,
     .of "NREF_DIST2" 9 9 .rw 0 .ref false,
     .lim "NREF_K" 8 5 .rw 8 .ref false 4 12,
     .of "PASR_KEEP" 4 2 .rw 7 .ref false,
     .of "RSV1" 1 1 .rsv 0 .imm false,
     .of "SR_EN" 0 0 .rw 1 .imm false]⟩,
  ⟨"TIERt.CHc.STATE", 0x8, 4, 1, false,
    [.of "TEMP" 31 20 .ro 0 .imm false,
     .of "RSV0" 19 18 .rsv 0 .imm false,
     .of "QOCC" 17 8 .ro 0 .imm false,
     .of "REF_MULT" 7 6 .ro 0 .imm false,
     .of "RSV1" 5 3 .rsv 0 .imm false,
     .of "PSTATE" 2 0 .ro 4 .imm false]⟩,
  ⟨"TIERt.CHc.TRAIN", 0x10, 4, 2, false,
    [.of "VALID" 31 31 .ro 0 .imm false,
     .of "FAIL" 30 30 .ro 0 .imm false,
     .of "RSV0" 29 24 .rsv 0 .imm false,
     .of "WR_PS" 23 16 .ro 0 .imm false,
     .of "RD_PS" 15 8 .ro 0 .imm false,
     .of "CA_PS" 7 0 .ro 0 .imm false]⟩,
  ⟨"TIERt.CHc.ECC_STATUS", 0x40, 4, 1, true,
    [.of "SEQ" 31 16 .ro 0 .imm false,
     .of "STALE" 15 15 .rsq 0 .imm false,
     .of "RSV0" 14 7 .rsv 0 .imm false,
     .of "RANGER_LATE" 6 6 .ro 0 .imm false,
     .of "WINDTHROW" 5 5 .rsq 0 .imm false,
     .of "STEERED" 4 4 .rsq 0 .imm false,
     .of "PIN_SUSPECT" 3 3 .rsq 0 .imm false,
     .of "UNCORR" 2 2 .rsq 0 .imm false,
     .of "STICKY" 1 1 .rsq 0 .imm false,
     .of "CE_OVF" 0 0 .rsq 0 .imm false]⟩,
  ⟨"TIERt.CHc.CE", 0x44, 4, 1, false,
    [.of "OVERFLOWS" 31 16 .ro 0 .imm false,
     .of "RSV0" 15 7 .rsv 0 .imm false,
     .of "LEVEL" 6 0 .ro 0 .imm false]⟩,
  ⟨"TIERt.CHc.RANGER", 0x48, 4, 1, false,
    [.of "ACTIVE" 31 31 .ro 0 .imm true,
     .of "PAUSED" 30 30 .ro 0 .imm true,
     .of "RSV0" 29 25 .rsv 0 .imm true,
     .of "POS" 24 0 .ro 0 .imm true]⟩,
  ⟨"TIERt.CHc.ELOG", 0x4C, 4, 1, false,
    [.of "WRITTEN" 31 16 .ro 0 .imm true,
     .of "RSV0" 15 5 .rsv 0 .imm true,
     .of "NEWEST" 4 0 .ro 0 .imm true]⟩]

/-- Registers of block TIERt.CMN, by offset in the block. -/
def cmnRegs : List RegRow := [
  ⟨"TIERt.CMN.STATUS", 0x8000, 4, 1, true,
    [.of "SEQ" 31 16 .ro 0 .imm false,
     .of "STALE" 15 15 .rsq 0 .imm false,
     .of "RSV0" 14 5 .rsv 0 .imm false,
     .of "BCAST_PEND" 4 4 .ro 0 .imm false,
     .of "RNG_LASTSEED" 3 3 .ro 0 .imm false,
     .of "RNG_BORROW" 2 2 .ro 0 .imm false,
     .of "APT_FAIL" 1 1 .rsq 0 .imm false,
     .of "RCT_FAIL" 0 0 .rsq 0 .imm false]⟩,
  ⟨"TIERt.CMN.IDLE_SR", 0x8004, 4, 1, false,
    [.of "RSV0" 31 16 .rsv 0 .imm false,
     .lim "IDLE_SR" 15 0 .rw 40 .imm false 5 65535]⟩,
  ⟨"TIERt.CMN.BCAST", 0x8008, 4, 1, false,
    [.of "GO" 31 31 .wo 0 .imm false,
     .of "RSV0" 30 10 .rsv 0 .imm false,
     .of "NREF_DIST2" 9 9 .rw 0 .imm false,
     .lim "NREF_K" 8 5 .rw 8 .imm false 4 12,
     .of "PASR_KEEP" 4 2 .rw 7 .imm false,
     .of "RSV1" 1 0 .rsv 0 .imm false]⟩,
  ⟨"TIERt.CMN.DRBG", 0x800C, 4, 1, false,
    [.of "RESEED" 31 31 .wo 0 .imm false,
     .of "RESEEDS" 30 0 .ro 0 .imm false]⟩,
  ⟨"TIERt.CMN.RANGER_CTL", 0x8010, 4, 1, false,
    [.of "RSV0" 31 9 .rsv 0 .imm false,
     .of "EN" 8 8 .rw 1 .imm false,
     .lim "PERIOD" 7 0 .rw 24 .imm false 1 168]⟩,
  ⟨"TIERt.CMN.SPARES", 0x8014, 4, 1, false,
    [.of "RSV0" 31 24 .rsv 0 .imm false,
     .of "WINDTHROWN" 23 16 .ro 0 .imm false,
     .of "FIELD" 15 8 .ro 0 .imm false,
     .of "LOW" 7 0 .ro 0 .imm false]⟩]

/-- Registers of block TESTWIN, by offset in the block. -/
def testwinRegs : List RegRow := [
  ⟨"TESTWIN.LINE", 0x0, 4, 1, false,
    [.of "RSV0" 31 30 .rsv 0 .imm false,
     .of "LINE" 29 0 .rw 0 .imm false]⟩,
  ⟨"TESTWIN.CTL", 0x4, 4, 1, false,
    [.of "RSV0" 31 4 .rsv 0 .imm false,
     .of "REFUSED" 3 3 .ro 0 .imm false,
     .of "BUSY" 2 2 .ro 0 .imm false,
     .of "WRITE" 1 1 .wo 0 .imm false,
     .of "READ" 0 0 .wo 0 .imm false]⟩,
  ⟨"TESTWIN.DATA", 0x80, 4, 32, false,
    [.of "VALUE" 31 0 .rw 0 .imm false]⟩]

/-! ### Blocks and lookup -/

/-- The block of R46 that holds an address below 0x06_0000, or a raw window of R40. -/
inductive Block where
  | ident | topo | fault | blaze | census | mbx | pwr | therm | clk | fuse | boot | ndl | svc | eng | prot | qctx
  | link (p : Port) | ch (n : Nat) | cmn (t : Nat) | fuseWin | sensorWin | testWin | none
  deriving DecidableEq, Repr

/-- Registers of a block. -/
def Block.rows : Block → List RegRow
  | .ident => identRegs | .topo => topoRegs | .fault => faultRegs | .blaze => blazeRegs | .census => censusRegs | .mbx => mbxRegs
  | .pwr => pwrRegs | .therm => thermRegs | .clk => clkRegs | .fuse => fuseRegs | .boot => bootRegs | .ndl => ndlRegs
  | .svc => svcRegs | .eng => engRegs | .prot => protRegs | .qctx => qctxRegs
  | .link _ => linkRegs | .ch _ => chRegs | .cmn _ => cmnRegs | .testWin => testwinRegs
  | .fuseWin => [] | .sensorWin => [] | .none => []

/-- The sixteen 4 KiB blocks at 0x00_0000 to 0x00_FFFF, in order of base (R46). -/
def lowBlocks : List Block :=
  [.ident, .topo, .fault, .blaze, .census, .mbx, .pwr, .therm, .clk, .fuse, .boot, .ndl, .svc, .eng, .prot, .qctx]

/-- The block that holds address `a`, with the offset of `a` in it (R40, R46). -/
def blockOf (a : Nat) : Block × Nat :=
  if a < 0x10000 then (lowBlocks.getD (a / 0x1000) .none, a % 0x1000)
  else if a < 0x20000 then
    (match (a - 0x10000) / 0x4000 with
      | 0 => .link .ca | 1 => .link .cb | 2 => .link .e | _ => .link .w, a % 0x4000)
  else if a < 0x60000 then
    let t := (a - 0x20000) / 0x10000
    let o := a % 0x10000
    if o < 0x8000 then (.ch (8 * t + o / 0x1000), o % 0x1000) else (.cmn t, o)
  else if 0x80000 ≤ a ∧ a < 0xC0000 then (.fuseWin, a - 0x80000)
  else if 0xC0000 ≤ a ∧ a < 0xD0000 then (.sensorWin, a - 0xC0000)
  else if 0xD0000 ≤ a ∧ a < 0xD1000 then (.testWin, a - 0xD0000)
  else (.none, a)

/-- Whether offset `o` names an element of row `r`. -/
def RegRow.holds (r : RegRow) (o : Nat) : Bool :=
  r.off ≤ o && o < r.off + r.stride * r.count && (o - r.off) % r.stride == 0

/-- The row that lists address `a`, with the element's index. -/
def findReg (a : Nat) : Option (RegRow × Nat) :=
  let (b, o) := blockOf a
  (b.rows.find? (fun r => r.holds o)).map (fun r => (r, (o - r.off) / r.stride))

/-- The word a list of field rows resets to. -/
def resetWord (fs : List FieldRow) : Nat :=
  fs.foldl (fun w f => w + f.reset * 2 ^ f.bits.lo) 0

end Sys2Proof.Machine
end

