-- ==== Sys2Proof/Machine/State.lean ====
section
/-! DEFINITION. The state of one EVS-496: every register, queue, buffer, counter, mode and pin the manual gives the device, and the
queue of the commands that are waiting. Times are in CK_CTL cycles (1 ns, R354) since the model's time zero. A finite map is a list
of pairs with rising keys; a key that is absent stands for the default of its kind. -/

namespace Sys2Proof.Machine

/-- Why a step stops with a fault. -/
inductive Fault where
  /-- R53: a write gave an RSV bit another value than the one last read from it, which voids every promise of the manual until the
  next reset. Raised by every meaning that writes a register word. Safe: the manual gives no effect at all. -/
  | rsvWritten
  deriving DecidableEq, Repr

/-- Why a step has no meaning. -/
inductive Refusal where
  /-- The dispatch rejects a command that is not modelled. Safe: nothing is claimed of it. -/
  | notModelled (mnemonic : String)
  deriving DecidableEq, Repr

/-! ### Finite maps -/

/-- A finite map from numbers: pairs with strictly rising keys. -/
abbrev AMap (β : Type) := List (Nat × β)

namespace AMap
variable {β : Type}

/-- The value at a key. -/
def find (k : Nat) : AMap β → Option β
  | [] => none
  | (k', v) :: r => if k = k' then some v else find k r

/-- The value at a key, or a default. -/
def get (k : Nat) (d : β) (m : AMap β) : β := (find k m).getD d

/-- Sets a key. -/
def put (k : Nat) (v : β) : AMap β → AMap β
  | [] => [(k, v)]
  | (k', v') :: r => if k < k' then (k, v) :: (k', v') :: r else if k = k' then (k, v) :: r else (k', v') :: put k v r

/-- Removes a key. -/
def del (k : Nat) : AMap β → AMap β
  | [] => []
  | (k', v') :: r => if k = k' then del k r else (k', v') :: del k r

/-- Sets a key; setting the default removes the entry, so that equal maps are equal data. -/
def set [DecidableEq β] (k : Nat) (d v : β) (m : AMap β) : AMap β := if v = d then del k m else put k v m

/-- The keys are strictly rising and above `lo`. -/
def rising (lo : Nat) : AMap β → Bool
  | [] => true
  | (k, _) :: r => lo ≤ k && rising (k + 1) r

/-- Applies a function to every value. -/
def mapVal (f : β → β) (m : AMap β) : AMap β := m.map (fun kv => (kv.1, f kv.2))

end AMap

/-! ### Fields of a register word -/

/-- The value of a field in a word. -/
def Fld.get (f : Fld) (w : Word) : Nat := bits w.toNat f.hi f.lo

/-- A word with a field replaced. -/
def Fld.set (f : Fld) (v : Nat) (w : Word) : Word := BitVec.ofNat 32 (setBits w.toNat f.hi f.lo v)

/-- The mask of a field. -/
def Fld.mask (f : Fld) : Word := BitVec.ofNat 32 ((2 ^ (f.hi + 1 - f.lo) - 1) * 2 ^ f.lo)

/-! ### Messages (R98 to R131) -/

/-- Classes and operations of the messages (R99, R102, R103, R112, R115, R119, R124, R128), and QUIET, a block that is no message but fills
a numbered row (R74, R87). -/
inductive MOp where
  | rd64 | rd128 | wr64 | wr128 | fence | hint
  | rdata | wdone | fdone | err
  | sealGood | sealBad | sealVoid
  | crd | cwr | crdRsp | cwrRsp
  | ntc
  | shard | shardDone | part | abort
  | credit | census | pwr | ack | nak | replay
  | quiet
  deriving DecidableEq, Repr

/-- What a write of an engine puts into a line: all of it; zero data in place of a lost line (R149); bytes from an offset on; or an atomic
operation on the word at an offset (R245). -/
inductive Upd where
  | whole (data : List Byte)
  | lost
  | bytes (off : Nat) (data : List Byte)
  | atom (off aop a b : Nat)
  deriving DecidableEq, Repr

/-- A message: its header, the address or register of bytes 8 to 15, data, TAG64, STATUS, the words of CFG and LNK messages, ROUTE
where ROUTED is set, the engine fields and the notice; `upd` is the part of a line that this device's own engine changes, and is on no
wire. -/
structure Msg where
  op     : MOp
  h      : Hdr
  addr   : Nat := 0
  data   : List Byte := []
  tag64  : Nat := 0
  status : Nat := 0
  words  : List Nat := []
  way    : Option Nat := none
  eng    : Option EngHdr := none
  ntc    : Option Notice := none
  upd    : Option Upd := none
  deriving DecidableEq, Repr

/-! ### Ports (R65 to R97, R118 to R123) -/

/-- Port states (R77). -/
inductive TState where
  | off | huntFull | huntHalf | cap | step | active | down | prbs | quiet
  deriving DecidableEq, Repr

/-- A receive lane of a port (R79, `LINK_x.LANE`): its lock, the partner's lane, whether a signal is present where that is known, its
descrambler, the level received last, and its last 320 headers, a bit set for an invalid one. -/
structure LaneS where
  lock     : Bool := false
  inverted : Bool := false
  peer     : Nat := 0
  signal   : Option Bool := none
  scr      : Nat := 0
  level    : Nat := 0
  hdrs     : Nat := 0
  deriving DecidableEq, Repr

/-- Credits of one direction: headers of classes 0 to 6, data of REQ, RSP and ENG (R118, R119). -/
structure Credits where
  hdr : List Nat := [0, 0, 0, 0, 0, 0, 0]
  dat : List Nat := [0, 0, 0]
  deriving DecidableEq, Repr

/-- A running eye scan (R92). -/
structure EyeScan where
  lane : Nat
  eyes : Nat
  map  : Bool
  bist : Bool
  thr  : Nat
  deriving DecidableEq, Repr

/-- One port; `row` holds the frames it laid out last, by logical lane, as PAM4 levels; `carry` marks the half of the host port that holds
the sequences, buffers and credits of the port; `ctlRate` and `ctlPre` are MAX_RATE and PRECODE_REQ as its training found them (R95);
`owes` stands until the AWAKE that a device returning to RUN sends first has been handed to the port (R386). -/
structure PortS where
  tstate    : TState := .off
  full      : Bool := false
  lastFull  : Bool := true
  lanes     : AMap LaneS := []
  excluded  : Nat := 0
  firstLock : Option Nat := none
  peerCap   : List Byte := []
  ownCap    : List Byte := []
  gotCap    : Bool := false
  gotSeen   : Bool := false
  partner   : Option Nat := none
  noStep    : List Nat := []
  stepping  : Bool := false
  version   : Nat := 0
  width     : Nat := 0
  inUse     : Nat := 0
  preTx     : Bool := false
  preRx     : Bool := false
  ctlRate   : Bool := true
  ctlPre    : Bool := false
  clkLive   : Bool := true
  clk       : Bool := false
  bond      : Bool := false
  txSeq     : Nat := 0
  buffer    : List (Nat × Msg) := []
  resend    : List (Nat × Msg) := []
  wait      : List Msg := []
  rxNext    : Nat := 0
  rxRows    : Nat := 0
  nak       : Option Nat := none
  nakRows   : Nat := 0
  gotReplay : Bool := false
  rounds    : Nat := 0
  retrains  : List Nat := []
  nakSeen   : Option Nat := none
  held      : Credits := {}
  granted   : Credits := {}
  back      : Credits := {}
  sent      : Nat := 0
  sinceAct  : List Nat := [0, 0, 0, 0, 0, 0, 0]
  closed    : Bool := true
  unclosed  : Bool := false
  scan      : Option EyeScan := none
  eyeMap    : AMap Nat := []
  sleeping  : Bool := false
  waking    : Option Nat := none
  gap       : Bool := false
  owes      : Bool := false
  row       : List (Nat × List Nat) := []
  carry     : Bool := false
  deriving DecidableEq, Repr

/-- What a transmit lane carries on from one frame to the next: its scrambler and the level sent last (R70, R73). -/
structure LaneTxS where
  scr   : Nat := 0
  level : Nat := 0
  deriving DecidableEq, Repr

/-- What a port sends over and over between the rows that the model lays out: TRAIN frames, its CAP block, STEP frames, IDLE rows. -/
inductive TxFill where
  | train | cap (b : List Byte) | step | idle
  deriving DecidableEq, Repr

/-- The transmitters of the ports: rows laid out so far, frame counts by port, transmit lanes by 8 × port + lane, and what each port sends
between the rows; a port that is silent is not listed. -/
structure AirS where
  rows   : Nat := 0
  frames : AMap Nat := []
  lanes  : AMap LaneTxS := []
  fill   : AMap TxFill := []
  deriving DecidableEq, Repr

/-- One value for each port. -/
structure PerPort where
  ca : PortS := {}
  cb : PortS := {}
  e  : PortS := {}
  w  : PortS := {}
  deriving DecidableEq, Repr

/-! ### Memory channels (R290 to R347) -/

/-- What waits for a channel access (R293): a request's data or tag read, a request's write that is not yet accepted (R170), the read of a
read-modify-write, the write of merge entry `k` that commits, the read of a copy and its write, Ranger, the test window; nothing. -/
inductive Origin where
  | req (r : Nat) | tagOf (r : Nat) | wrOf (r : Nat) | merge (line : Nat) | commit (k : Nat) | copy (job : Nat) | copyW | ranger | win | done
  deriving DecidableEq, Repr

/-- One channel access, an entry of a bank queue (R293). `wr` holds the codeword of a write: data and metadata. -/
structure Acc where
  id     : Nat
  place  : Place
  wr     : Option (List Byte × Nat)
  sc     : Nat
  firm   : Bool
  origin : Origin
  time : Nat
  passed : Nat := 0
  refs   : Nat := 0
  deriving DecidableEq, Repr

/-- A read whose burst is on its way: the codeword as it stood when the command issued. -/
structure Burst where
  acc  : Acc
  data : List Byte
  md   : Nat
  deriving DecidableEq, Repr

/-- One bank: its queue, its open row, the times the timing of R292 needs, its refresh debt and whether it is paying one that stood at
REF_DEBT_MAX (R302), its pending neighbour refreshes, and the end of the refresh operation that runs (R176). -/
structure BankS where
  queue   : List Acc := []
  row     : Option Nat := none
  preOk   : Nat := 0
  actOk   : Nat := 0
  colOk   : Nat := 0
  debt    : Nat := 0
  paying  : Bool := false
  nref    : List (Nat × Nat) := []
  refTill : Nat := 0
  deriving DecidableEq, Repr

/-- A command that a memory die may still drop (R316): a column command, of a write with what its place held before; a refresh operation of
the bank at a position; a neighbour refresh; another row command. -/
inductive Issued where
  | col (a : Acc) (old : Option (List Byte × Nat)) | ref (pos : Nat) | nref (pos : Nat) | row
  deriving DecidableEq, Repr

/-- One pseudo-channel: its 48 banks by position (R296), pick pointers, the activates and refresh operations of late with their bank groups
(R297), the cycles from now on that its row path is taken (R290), the last column command, the pins hit and the suspect ones (R332), the place
and the symbols of the last hit, the commands of the last T_ALERT with their times, newest first, and the rotations of the ordinary rank
and of level 3 (R188). -/
structure PcS where
  banks    : AMap BankS := []
  rowPtr   : Nat := 0
  colPtr   : Nat := 0
  acts     : List (Nat × Nat) := []
  rowAts   : List Nat := []
  lastCol  : Option (Nat × Nat) := none
  rdOk     : Nat := 0
  hits     : List (Nat × Nat) := []
  lastHit  : Option (Place × Nat) := none
  suspect  : List Nat := []
  issued   : List (Nat × Issued) := []
  rot      : List Nat := List.replicate 16 0
  rotLast  : Nat := 15
  rotF     : List Nat := List.replicate 16 0
  rotFLast : Nat := 15
  deriving DecidableEq, Repr

/-- Channel power state (`TIERt.CHc.STATE.PSTATE`). -/
inductive PState where
  | active | entering | selfRefresh | exiting | training | retired
  deriving DecidableEq, Repr

/-- An entry of a channel's error log: its four words (R334). -/
abbrev ELogEntry := List Nat

/-- The training result of one pseudo-channel (`TIERt.CHc.TRAIN`). -/
structure TrainS where
  word : Word := 0
  pins : AMap (Word × Word) := []
  deriving DecidableEq, Repr

/-- One channel. `srAt` is when its entry into self-refresh issues, `exitAt` when its exit does, `idleAt` since when R304 holds; `visit` the
errors that the Ranger visit in its queue meets; `halfFrom` the position whose failure halves it, its line and the symbols last in error;
`pasrAt`, `pasrMark` the start and the row of its rewriting (R310). -/
structure ChanS where
  pstate    : PState := .training
  srAt      : Nat := 0
  srFrom    : Nat := 0
  exitAt    : Nat := 0
  wantExit  : Bool := false
  idleAt    : Nat := 0
  visit     : Option (List (Nat × Byte) × List (Nat × Byte)) := none
  admission : List Acc := []
  mult      : Nat := 1
  coolAt    : Option Nat := none
  temp      : Int := 0
  half      : Option Bool := none
  toHalf    : Option Bool := none
  halfFrom  : Option (Nat × Nat × Place × Nat) := none
  switchAt  : Option Nat := none
  retired   : Bool := false
  level     : Nat := 0
  overs     : Nat := 0
  elog      : AMap ELogEntry := []
  elogNew   : Nat := 0
  elogCount : Nat := 0
  rangerPos : Nat := 0
  rangerAt  : Nat := 0
  rangerOff : Nat := 0
  pasrInit  : Option Nat := none
  pasrAt    : Nat := 0
  pasrMark  : Nat := 0
  pauseTill : Nat := 0
  quietTill : Nat := 0
  sat       : Bool := false
  satAt     : Nat := 0
  levels    : List Nat := [0, 0, 0, 0]
  train     : List TrainS := [{}, {}]
  remeasure : Bool := false
  deriving DecidableEq, Repr

/-- An entry of the crossing spares of a group (`SPARE` item, R353). -/
structure SpareS where
  assigned : Bool := false
  field    : Bool := false
  failed   : Bool := false
  position : Nat := 0
  deriving DecidableEq, Repr

/-- The setting of a bit-group, its cell in use and step, and its margin in ps (R359, R360). -/
structure MarginS where
  margin : Nat
  cell   : Nat
  step   : Nat
  deriving DecidableEq, Repr

/-- What starts a calibration run (R362). -/
inductive CalCause where
  | start | temperature | margin | command
  deriving DecidableEq, Repr

/-- Calibration of one tier (R362 to R366); `margins` by 128 × group + bit-group, `newTrain` the pin settings that its run has measured, by
pseudo-channel (R320), `wanted` whether a CAL_RUN waits for a switch. -/
structure CalS where
  running  : Option CalCause := none
  measured : Bool := false
  pending  : Option CalCause := none
  startAt  : Option Nat := none
  refTemp  : Int := 0
  newRef   : Int := 0
  newMargins : AMap MarginS := []
  newTrain : AMap (AMap (Word × Word)) := []
  margins  : AMap MarginS := []
  tierMin  : Nat := 0
  group    : Nat := 0
  wanted   : Bool := false
  blocked  : Bool := false
  deriving DecidableEq, Repr

/-! ### Engines (R224 to R257) -/

/-- The exact partial of a shard (R237, R243, R244): an accumulator in units of its weight, flags and count; a CRC remainder; or
FIRST and DIFF_BYTES. -/
structure Partial where
  acc     : Int := 0
  elem    : Option Nat := none
  nan     : Bool := false
  posInf  : Bool := false
  negInf  : Bool := false
  allNegZ : Bool := true
  count   : Nat := 0
  rem     : Nat := 0
  first   : Option Nat := none
  diff    : Nat := 0
  deriving DecidableEq, Repr

/-- What a shard has found so far: its lowest code, its partial, its lowest skipped record with that code, its swaps (of an EVACUATE the
lost lines), the lines or records processed, the atomic records applied and skipped, and the addresses a SCATTER has written. -/
structure EngR where
  code    : Nat := 0
  part    : Partial := {}
  failRec : Nat := 4294967295
  recCode : Nat := 0
  swaps   : Nat := 0
  done    : Nat := 0
  applied : Nat := 0
  skipped : Nat := 0
  written : List Nat := []
  deriving DecidableEq, Repr

/-- One access of an engine, by the host-form address of its line: a read, or write `ix` of its unit with FLAGS `fl`. -/
inductive EngOp where
  | rd (a : Nat)
  | wr (ix a : Nat) (u : Upd) (fl : Nat)
  deriving DecidableEq, Repr

/-- How far a shard has come: its next unit, the driving bytes done, what it has found. -/
structure EngMark where
  unit  : Nat := 0
  bytes : Nat := 0
  res   : EngR := {}
  deriving DecidableEq, Repr

/-- A shard on the device that runs it (R226, R241, R242): the device whose lines it works on, its units of work (line, offset in the line, bytes, offset in the range), how
far it has come, how far it had come at the last multiple of CKPT_BYTES and at its checkpoint, the answers its unit has drawn, the access
it waits for, the code with which it stops, the free value of its unit, and the lines it has changed as they were. -/
structure ShardS where
  g      : EngHdr
  dev    : Nat
  home   : Nat
  phaseB : Bool
  relay  : Bool
  desc   : List Nat
  sc     : Nat
  firm   : Bool
  place  : Nat := 0
  moved  : Option Nat := none
  units  : List (Nat × Nat × Nat × Nat) := []
  at_    : EngMark := {}
  mark   : EngMark := {}
  saved  : EngMark := {}
  got    : List (EngOp × Nat × List Byte) := []
  tag    : Option Nat := none
  stop   : Nat := 0
  pick   : Nat := 0
  old    : AMap (List Byte) := []
  deriving DecidableEq, Repr

/-- An access of an engine that is outstanding: the tier of its engine, the device that answers it, what it asks, and whether its placement
has passed (R252). -/
structure EngAcc where
  tier  : Nat
  src   : Nat
  op    : EngOp
  stale : Bool := false
  deriving DecidableEq, Repr

/-- One tier: engine, tier buffer, random bits with the generate requests since the last seed (R314), crossing spares, calibration, heartbeat,
journal with the lines listed since the last rejoin, ledger, throttle stage, and whether the tier stands released (R457). -/
structure TierS where
  run       : Option ShardS := none
  waiting   : List ShardS := []
  excluded  : Bool := false
  buffer    : List Acc := []
  held      : List Acc := []
  journal   : List Nat := []
  poisons   : List Place := []
  jOvf      : Nat := 0
  jNew      : Nat := 0
  hbLost    : Bool := false
  drbg      : Bool := false
  rct       : Bool := false
  apt       : Bool := false
  lastSeed  : Bool := false
  gens      : Nat := 0
  spares    : AMap SpareS := []
  failedPos : AMap Bool := []
  thrown    : AMap Bool := []
  toSteer   : List (Nat × Nat × Nat × Place × Nat) := []
  failCells : AMap Bool := []
  cal       : CalS := {}
  stage     : Nat := 0
  inputT    : Int := 0
  inputS    : Nat := 0
  subst     : Bool := false
  blind     : Bool := false
  holdTill  : Option Nat := none
  dwellAt   : Option Nat := none
  tallies   : Nat := 0
  residue   : Nat := 0
  turning   : List Int := []
  lastT     : Option Int := none
  bins      : List Nat := [0, 0, 0, 0, 0, 0, 0, 0]
  built     : Bool := false
  released  : Bool := false
  deriving DecidableEq, Repr

/-! ### Requests at the owner -/

/-- How far a request at the owner has come. -/
inductive OStage where
  | held | waiting | reading | queued
  deriving DecidableEq, Repr

/-- A memory request at the device that owns the line (R183, R184, R170): its message, its line, when it was accepted, for a protected
line the place of its tag and what has been read so far, its writes that no bank queue has accepted yet, and whether its wait for a copy has been
counted (R178). -/
structure OReq where
  m      : Msg
  from?  : Option Port
  line   : Nat
  kid    : Nat
  prot   : Bool
  sc     : Nat
  time : Nat
  stage  : OStage
  admitted : Bool := false
  data   : Option (Option (List Byte) × Nat × Bool) := none
  tag    : Option (Option (List Byte)) := none
  accs   : Nat := 0
  counted : Bool := false
  deriving DecidableEq, Repr

/-- A request that a merge entry holds, the port it came by, and when it was accepted (R186). -/
structure Held where
  m     : Msg
  from? : Option Port := none
  time  : Nat := 0
  deriving DecidableEq, Repr

/-- An entry of a merge buffer (R151): a line of a device, the KeyID, the halves held, the writes that wait, and when it was
created. `busy` while its read-modify-write runs; `excess` for a write that found the buffer full (R154); `upd` is the change that an engine's
access makes (R235, R245), `old` what it answers. -/
structure MergeE where
  dev   : Nat
  line  : Nat
  kid   : Nat
  lo    : Option (List Byte)
  hi    : Option (List Byte)
  who   : List Held
  time : Nat
  expires : Nat
  sc    : Nat
  busy  : Bool := false
  behind : List Held := []
  excess : Bool := false
  upd    : Option Upd := none
  old    : List Byte := []
  deriving DecidableEq, Repr

/-! ### The reserve pool (R156 to R166) -/

/-- An entry of the page-remap table (R159, `REMAP` item). -/
structure RemapE where
  page    : Nat
  slot    : Nat
  block   : Nat
  valid   : Bool
  retired : Bool
  done    : Bool
  deriving DecidableEq, Repr

/-- An entry of the bank-steer table (R160, `STEER` item): the bank, the target block, the watermark. -/
structure SteerE where
  pc    : Nat
  bg    : Nat
  bk    : Nat
  block : Nat
  done  : Bool
  mark  : Nat
  deriving DecidableEq, Repr

/-- What a copy moves (R161, R162). -/
inductive CopyKind where
  | page (entry : Nat) (old : Option Nat)
  | bank (entry : Nat) (old : Option Nat)
  | remapBlock (ord : Nat) (old : Nat)
  | steerBlock (entry : Nat) (old : Nat)
  deriving DecidableEq, Repr

/-- A running copy: its lines in order, the next one, and whether a descriptor waits for it. -/
structure CopyJob where
  kind   : CopyKind
  next   : Nat
  total  : Nat
  target : Nat
  value  : Nat
  wanted : Bool
  deriving DecidableEq, Repr

/-- Which places an initialisation wrote (R148, R270, R310, R439): every place; the home places of a range of lines; a slot of a
remap block; the lines `first` to `last` of a steered bank in its target block; the rows `first` to `last` of channel `n` that its keep
code `keep` dropped; or a tier's places outside the given pool blocks. -/
inductive FillSel where
  | all
  | lines (first last : Nat)
  | slot (block slot : Nat)
  | bank (pc bg bk block first last : Nat)
  | segments (n : Nat) (keep first last : Nat)
  | tier (t : Nat) (notBlocks : List Nat)
  deriving DecidableEq, Repr

/-! ### The manager -/

/-- An entry of the topology table (R22), with what the manager keeps beside it. -/
structure TopoE where
  w0      : Word := 0
  w1      : Word := 0
  serial  : Nat := 0
  userGib : Nat := 94
  behind  : List Nat := []
  halted  : Bool := false
  pwr     : Nat := 0
  pwrBusy : Bool := false
  stage   : Nat := 0
  fw      : Nat := 0
  tries   : Nat := 0
  failCode : Nat := 0
  loading : Option Nat := none
  h       : Nat := 0
  c       : Nat := 0
  owed    : List Nat := []
  moved   : Nat := 0
  deriving DecidableEq, Repr

/-- What a request of the manager to a device is for. -/
inductive Purpose where
  | host | rmwRead | commit (who : List Msg)
  deriving DecidableEq, Repr

/-- A request outstanding at the manager, by internal tag (R167). -/
structure MReq where
  m     : Msg
  dev   : Nat
  line  : Nat
  kid   : Nat
  prot  : Bool
  sc    : Nat
  time : Nat
  limit : Nat
  purpose : Purpose
  open_ : Option (List Byte × Nat × Bool) := none
  corr  : Nat := 0
  deriving DecidableEq, Repr

/-- A fence that stands (R108), by its number in the order in which the host's requests arrived. -/
structure FenceS where
  id   : Nat
  m    : Msg
  all  : Bool
  dev  : Nat
  deriving DecidableEq, Repr

/-- A warden access or order outstanding to another device (R116, R214); `seq` is a write of a sequence whose last access follows. -/
inductive WardenUse where
  | seq | host (m : Msg) | devnum (n : Nat) | map (n e : Nat) | mapAll (n e : Nat) | halt (n : Nat) | job (n : Nat) | load (n : Nat) | census (n : Nat)
  deriving DecidableEq, Repr

/-- A CFG access outstanding at the manager; `lost` where a path reset has ended it (R24). -/
structure CReq where
  dst : Nat
  use : WardenUse
  time : Nat
  lost : Bool := false
  deriving DecidableEq, Repr

/-- How far a descriptor has come (R210, R217). -/
inductive DStage where
  | fetching | ready | running | granule
  deriving DecidableEq, Repr

/-- A shard as the manager follows it (R240, R243, R252): device and tier, whether its SHARD message has left, the highest placement
epoch seen, whether it has reported, its partial parts, its code, its lowest failing record and its swaps. -/
structure ShardM where
  dev    : Nat
  tier   : Nat
  sent   : Bool := false
  epoch  : Nat := 0
  done   : Bool := false
  parts  : AMap (List Byte) := []
  fail   : Nat := 0
  failRec : Nat := 4294967295
  swaps  : Nat := 0
  deriving DecidableEq, Repr

/-- How far an ATOMIC_BATCH is with its phase B (R247, R249). -/
inductive PhaseB where
  | none | waits | runs | done
  deriving DecidableEq, Repr

/-- A descriptor in flight (R199 INFLIGHT): queue, free-running index, order of fetch, words, the SEQ it must carry, stage, whether its
fetch stands (R211), whether its queue was disabled while the warden works on it (R220), and for an
engine descriptor whether it is relayed, its shards, and its phase B; `code` and `value` of a completion that waits for its result
granule. -/
structure DescS where
  q      : Nat
  i      : Nat
  order  : Nat
  words  : List Nat := []
  seqWant : Nat := 0
  stage  : DStage := .fetching
  taken  : Bool := false
  cut    : Bool := false
  relay  : Bool := false
  code   : Nat := 0
  value  : Nat := 0
  shards : AMap ShardM := []
  phaseB : PhaseB := .none
  deriving DecidableEq, Repr

/-- A completion record waiting for its granule write: its index in the ring, its 16 bytes as a number, the KeyID whose slot turns
ACTIVE with it (R262), and whether the manager resets once it is answered (R214). -/
structure RecS where
  n    : Nat
  q    : Nat
  word : Nat
  key  : Option Nat := none
  reset : Bool := false
  deriving DecidableEq, Repr

/-- The records that wait for a completion ring, the granule that is being read (R217), and whether the ring cannot be written any longer
(R219). -/
structure CqS where
  recs  : List RecS := []
  read  : Option Nat := none
  bad   : Bool := false
  deriving DecidableEq, Repr

/-- What a request of the manager to host memory is for (R110); `drop` where nothing waits for the answer any longer. -/
inductive HostUse where
  | summary (k : Nat) | doorbell (q : Nat) (poll : Bool) | desc (q i : Nat)
  | recRead (cq n : Nat) | recWrite (cq : Nat) (recs : List RecS)
  | granule (q i : Nat) | job (off : Nat) | jobWrite (off : Nat) | census | drop
  deriving DecidableEq, Repr

/-- A request outstanding to the host; `len` is the length of the data it reads, 0 for a write. -/
structure HReq where
  use  : HostUse
  len  : Nat
  addr : Nat
  time : Nat
  deriving DecidableEq, Repr

/-- The management descriptor the warden works on (R214). -/
structure JobS where
  q     : Nat
  i     : Nat
  stage : Nat := 0
  data  : AMap (List Byte) := []
  todo  : List Nat := []
  done  : Nat := 0
  value : Nat := 0
  code  : Nat := 0
  due   : Option Nat := none
  deriving DecidableEq, Repr

/-- A key slot (R259): state, the three derived keys. -/
structure KeyS where
  state  : Nat := 0
  kData  : List Byte := []
  kTweak : List Byte := []
  kTag   : List Byte := []
  pend   : Bool := false
  retire : Option (Nat × Nat) := none
  deriving DecidableEq, Repr

/-- A census under way at the manager (R477 to R481). -/
structure CensusS where
  number : Nat
  tick   : Nat
  topoSeq : Nat
  dst    : Option (Nat × Nat × Nat)
  asked  : List Nat
  sections : AMap (List Nat) := []
  deriving DecidableEq, Repr

/-- A determinism group (R248 to R250): its open epoch, the queues that join at its close, and whether phase B runs. -/
structure GroupS where
  epoch   : Nat := 0
  joining : List Nat := []
  closing : Bool := false
  deriving DecidableEq, Repr

/-! ### Fuses (R417 to R431) -/

/-- The cells of one stored word: masks of the strong and of the marginal cells. -/
structure FuseW where
  strong : Nat := 0
  marg   : Nat := 0
  deriving DecidableEq, Repr

/-- The lock pairs of a region: strong and marginal cells of WLOCK (bits 0, 1) and RLOCK (bits 2, 3). -/
structure LockS where
  strong : Nat := 0
  marg   : Nat := 0
  deriving DecidableEq, Repr

/-- The state of a region after sensing (R424). -/
structure RegionS where
  state : Nat := 0
  rlock : Bool := false
  wlock : Bool := false
  corr  : Nat := 0
  marg  : Nat := 0
  deriving DecidableEq, Repr

/-- A cell to be pulsed: word and cell, or a lock cell 39 × 4096 and above. -/
structure Pulse where
  die  : Die
  word : Nat
  cell : Nat
  deriving DecidableEq, Repr

/-- A running fuse program (R428, R429): its entries with their OP, the one being processed, the cells it still has to pulse, the
pulses the first of them has had and the source of the one that runs, the cells passed, whether its verify failed, and the
completion code once it has ended. -/
structure ProgS where
  entries : List (Nat × FuseEntry)
  idx     : Nat := 0
  started : Bool := false
  todo    : List Pulse := []
  tries   : Nat := 0
  ext     : Bool := false
  cells   : Nat := 0
  owner   : Bool := false
  result  : Option Nat := none
  deriving DecidableEq, Repr

/-- A counter bit being blown for a tally or an anti-rollback advance (R412, R430): whether its second cell is at work, whether
either cell has passed, the pulses the cell has had. -/
structure BlowS where
  bit   : Nat
  second : Bool := false
  passed : Bool := false
  tries : Nat := 0
  deriving DecidableEq, Repr

/-- The programmer of a die: counter bits still to be blown, and the one at work. -/
structure BlowerS where
  want : Nat := 0
  cur  : Option BlowS := none
  deriving DecidableEq, Repr

/-! ### Sensors (R395 to R409) -/

/-- One sensor: its reading, history and verdict. -/
structure SensorS where
  reading : Int := 0
  peak    : Option Int := none
  broken  : Bool := false
  cause   : Nat := 0
  none?   : Nat := 0
  same    : Nat := 0
  spread  : Option (Int × Int) := none
  rangeN  : Nat := 0
  far     : Nat := 0
  tripN   : Nat := 0
  hist    : List Int := []
  seen    : Bool := false
  deriving DecidableEq, Repr

/-! ### Faults and the blaze log (R460 to R476) -/

/-- The window of one unit of a fault source (R462): opening tick, count, and the configuration it opened with. -/
structure WindowS where
  start : Nat
  k     : Nat
  n     : Nat
  w     : Nat
  ceil  : Nat
  entry : Option Nat := none
  deriving DecidableEq, Repr

/-- An entry of the blaze log: its 32 bytes as eight words (R473). -/
abbrev BlazeE := List Nat

/-- The blaze log. -/
structure BlazeS where
  entries : AMap BlazeE := []
  next    : Nat := 0
  newest  : Nat := 0
  f1      : Option Nat := none
  f2      : Option Nat := none
  drops   : Nat := 0
  deriving DecidableEq, Repr

/-- A pending notice of this device, by type (R130), or of a device at the manager. -/
structure NoticeS where
  sev     : Nat
  nseq    : Nat
  count   : Nat
  payload : List Byte
  first   : Nat
  dev     : Nat
  src     : Nat
  ntype   : Nat
  due     : Bool := false
  deriving DecidableEq, Repr

/-! ### Power and start (R374 to R390, R433 to R452) -/

/-- Where the device stands in its life. `running` begins when the start is done. -/
inductive Phase where
  | unpowered | inReset | slotWait | starting | running | firebreak | dead | off
  deriving DecidableEq, Repr

/-- How far an entry into a power state has come (R385). -/
inductive EntryS where
  | none | waiting | marked
  deriving DecidableEq, Repr

/-- Power, reset and start-up; `held` are the messages for this device that came while it did not accept requests, oldest first (R383, R388). -/
structure PowerS where
  phase     : Phase := .inReset
  vin       : Bool := true
  resetLow  : Bool := true
  cold      : Bool := true
  kind      : Nat := 0
  cause     : Nat := 0
  tS        : Nat := 0
  t0        : Nat := 0
  step      : Nat := 0
  items     : Nat := 0
  sensed    : Nat := 0
  startTiers : Nat := 0
  memTested : Bool := false
  fw        : Nat := 0
  failCode  : Nat := 0
  relays    : Bool := false
  relayAt   : Option Nat := none
  alive     : Bool := false
  healthy   : Bool := false
  thermN    : Bool := false
  tripHold  : Bool := false
  warmStarts : Nat := 0
  resetAt   : Option (Nat × Nat) := none
  pstate    : Nat := 0
  transit   : Bool := false
  target    : Nat := 0
  entry     : EntryS := .none
  acks      : List Port := []
  held      : List Msg := []
  wakeNow   : Option Nat := none
  edgeAt    : Option (Nat × Nat) := none
  lastWake  : Nat := 0
  tE        : Option Nat := none
  capStage  : Nat := 0
  capEn     : Bool := true
  capW      : Nat := 64
  capLow    : Option Nat := none
  measPin   : Nat := 0
  measVin   : Nat := 0
  vinNever  : Bool := true
  vinBack   : Option Nat := none
  rails     : Nat := 0
  pll       : Bool := false
  startMs   : Nat := 0
  lockOpen  : Bool := true
  fbTick    : Option Nat := none
  deriving DecidableEq, Repr

/-- The firmware image a boot ROM works on (R441 to R449). -/
structure ImageS where
  stage   : Nat := 0
  header  : List Byte := []
  retried : Bool := false
  nextComp : Nat := 0
  len     : Nat := 0
  stream  : List Byte := []
  fail    : Nat := 0
  digest  : List Byte := []
  epoch   : Nat := 0
  version : Word := 0
  ended   : Bool := false
  deriving DecidableEq, Repr

/-- A mailbox bank beside its registers (R57, R58). -/
structure MbxS where
  item   : Option (Nat × Nat × List Word) := none
  result : Option (Nat × Nat × List Word) := none
  busyWr : Bool := false
  deriving DecidableEq, Repr

/-- A map write being applied (R270). -/
structure MapJob where
  dev   : Nat
  entry : Nat
  old   : List Nat
  new   : List Nat
  init  : Bool
  sent  : Bool := false
  deriving DecidableEq, Repr

/-! ### The parts of the state -/

/-- Identity: straps as sampled (R2), ordering grade (R10), serial number and trace of the base die (R61), dynamic I3C address, and
the bytes that the last private read sent (R43). -/
structure IdS where
  role   : Nat := 0
  slot   : Nat := 0
  gradeE : Bool := false
  serial : Nat := 1
  trace  : Nat := 0
  i3cDyn : Option (BitVec 7) := none
  i3cOut : List Byte := []
  deriving DecidableEq, Repr

/-- The register file: words as last written or set, by address (the I3C mailbox bank at its address plus 2^25); the words in
effect of registers with a field whose apply point is later than IMM; the registers with a write that waits. Absent: the reset
value. -/
structure RegsS where
  file : AMap Word := []
  eff  : AMap Word := []
  wait : List Nat := []
  mbxC : MbxS := {}
  mbxI : MbxS := {}
  deriving DecidableEq, Repr

/-- Ports and switch: the transmitters, the port that leads to the manager, messages inside the base die, and messages that have left, newest
last. -/
structure NetS where
  ports   : PerPort := {}
  air     : AirS := {}
  mgrPort : Port := .w
  inbox   : List Msg := []
  tx      : List (Port × Msg) := []
  deriving DecidableEq, Repr

/-- The array: line bytes by place index × 128 + byte (an unlisted byte reads zero), metadata words by place index, and the
initialisations that give the metadata of places not listed, newest first. -/
structure MemS where
  dram  : List Host.Cell := []
  md    : AMap Nat := []
  fills : List (FillSel × Nat) := []
  deriving DecidableEq, Repr

/-- Channels, pseudo-channels, tiers, bursts on their way. -/
structure StackS where
  chans   : AMap ChanS := []
  pcs     : AMap PcS := []
  tiers   : AMap TierS := []
  bursts  : AMap Burst := []
  nextAcc : Nat := 1
  deriving DecidableEq, Repr

/-- A whole-line write that waits for the copy of its line to pass (R161): line, data, metadata, class, and what it belongs to. -/
structure ParkS where
  line   : Nat
  data   : List Byte
  md     : Nat
  sc     : Nat
  origin : Origin
  deriving DecidableEq, Repr

/-- The owner's base die: requests, hold queues and counts by class, merge buffer, misses, requests and writes that wait for a copy. -/
structure OwnS where
  reqs    : AMap OReq := []
  next    : Nat := 1
  holds   : AMap (List Nat) := []
  count   : AMap Nat := []
  merges  : List MergeE := []
  commits : AMap MergeE := []
  nextC   : Nat := 1
  missAt  : AMap Nat := []
  missCnt : AMap Nat := []
  waits   : List Nat := []
  parked  : List ParkS := []
  deriving DecidableEq, Repr

/-- The accesses of this device's engines that are outstanding, by tag. -/
structure EngS where
  reqs : AMap EngAcc := []
  next : Nat := 0
  deriving DecidableEq, Repr

/-- The reserve pool: remap and steer tables, remap blocks in order, blocks spoilt by a second steer, running copies. -/
structure PoolS where
  remaps  : AMap RemapE := []
  blocks  : List Nat := []
  steers  : AMap SteerE := []
  bad     : List Nat := []
  jobs    : AMap CopyJob := []
  nextJob : Nat := 0
  deriving DecidableEq, Repr

/-- The manager's topology: table, last walk, adopted plan, placements learnt by serial number (R33), whether ENUM_SETTLE has passed. -/
structure TopoS where
  ents    : AMap TopoE := []
  walk    : Option WalkRec := none
  places  : AMap Nat := []
  settled : Bool := false
  trunk   : Word := 0
  spurs   : AMap Word := []
  settling : Bool := false
  adopted : Bool := false
  deriving DecidableEq, Repr

/-- The manager's requests: to devices, to the host, CFG; fences; requests held at its ingress, and which of them have been counted as
held by their class; its merge buffer for protected lines; the tags whose responses have been given up but may still come (R107); and CFG messages that
wait for a tag. -/
structure MgrS where
  reqs    : AMap MReq := []
  nextTag : Nat := 0
  late    : List Nat := []
  ingress : List (Nat × Msg) := []
  limited : List Nat := []
  fences  : List FenceS := []
  arrivals : Nat := 0
  merges  : List MergeE := []
  host    : AMap HReq := []
  nextH   : Nat := 0
  cfg     : AMap CReq := []
  nextC   : Nat := 0
  lateC   : List Nat := []
  waitC   : List (WardenUse × Msg) := []
  deriving DecidableEq, Repr

/-- The manager's queues: contexts (R199), the bases in use and as written (R223), reads and queues of the poll that runs, the groups
hinted with the reads they still wait for (R111), the class whose limit stopped a queue's fetch (R211), tails, the queues
served last, descriptors in flight, completion rings, groups, the management descriptor, and the flash. -/
structure QueS where
  ctx     : AMap (List Nat) := []
  dbBase  : Nat := 0
  sumBase : Nat := 0
  dbNew   : Nat := 0
  sumNew  : Nat := 0
  polling : Nat := 0
  inPoll  : List Nat := []
  hints   : AMap Nat := []
  stalled : AMap Nat := []
  pollDue : Bool := false
  tails   : AMap Nat := []
  last    : Nat := 65535
  lastOrd : Nat := 65535
  descs   : List DescS := []
  nextDesc : Nat := 0
  cqs     : AMap CqS := []
  groups  : AMap GroupS := []
  job     : Option JobS := none
  flash   : List Byte := []
  density : Nat := 0
  deriving DecidableEq, Repr

/-- Protection: key slots and master maps (manager), the device's own map, the map writes being applied, oldest first, and a
test-window access that runs (true: a write), and what the last memory read from the JTAG or IEEE 1838 path returned (R285). -/
structure ProtS where
  keys  : AMap KeyS := []
  maps  : AMap (List Nat) := []
  own   : AMap (List Nat) := []
  jobs  : List MapJob := []
  win     : Option Bool := none
  jtagOut : List Byte := []
  deriving DecidableEq, Repr

/-- Fuse cells and locks, shadows, region states, programmers, the level of the VPGM pin and the last reading of it, in mV. -/
structure FuseS where
  cells   : AMap FuseW := []
  locks   : AMap LockS := []
  shadow  : AMap (Nat × Nat) := []
  regions : AMap RegionS := []
  prog    : Option ProgS := none
  blowers : AMap BlowerS := []
  vpgm    : Nat := 0
  mv      : Nat := 0
  deriving DecidableEq, Repr

/-- Notices of this device and, in the manager, of every device; fault windows; the blaze log; census counters and snapshot; and, in a
firebreak, its FATAL classifications by rising source and the blaze log before their entries (R464). -/
structure FltS where
  notices : AMap NoticeS := []
  nseq    : AMap Nat := []
  hostNtc : List NoticeS := []
  devNseq : AMap Nat := []
  windows : AMap WindowS := []
  admitStop : Bool := false
  blaze   : BlazeS := {}
  counts  : AMap (Nat × Nat) := []
  torn    : List Nat := []
  fatals  : List (Nat × Nat × List Byte) := []
  before  : Option BlazeS := none
  snap    : AMap (Nat × Nat) := []
  snapTorn : List Nat := []
  snapHdr : List Nat := []
  lastCensus : Nat := 0
  census  : Option CensusS := none
  censusNo : Nat := 0
  deriving DecidableEq, Repr

/-- The whole state of the device. -/
structure State where
  /-- Commands that wait, first in, first out. -/
  pending : List Instr := []
  /-- CK_CTL cycles that have passed. -/
  now     : Nat := 0
  /-- The CK_TICK count (R358). -/
  tick    : Nat := 0
  /-- Free values drawn so far (the model's own field: it indexes the opaque constants of Config). -/
  draws   : Nat := 0
  id      : IdS := {}
  power   : PowerS := {}
  image   : ImageS := {}
  regs    : RegsS := {}
  net     : NetS := {}
  mem     : MemS := {}
  stack   : StackS := {}
  own     : OwnS := {}
  eng     : EngS := {}
  pool    : PoolS := {}
  topo    : TopoS := {}
  mgr     : MgrS := {}
  que     : QueS := {}
  prot    : ProtS := {}
  fuse    : FuseS := {}
  flt     : FltS := {}
  sensors : AMap SensorS := []
  bist    : AMap (Nat × Nat × Nat) := []
  deriving DecidableEq, Repr

/-! ### Reset (R433, R492) -/

/-- The fuse words of a device as shipped that are not blank (R418): the seals, CRC-32C of all-zero words (R420), of the mandatory
regions, keyed die × 4096 + word. DESIGN CHOICE: the words of those regions are all zero. -/
def factoryCells : AMap FuseW :=
  [(0x7F, ⟨0x53EC57A9C3, 0⟩), (0x8F, ⟨0x285A0B0531, 0⟩)] ++
  (List.range 4).flatMap (fun t => [((1 + t) * 4096 + 0xFF, ⟨0xFB641CDE2, 0⟩), ((1 + t) * 4096 + 0x1FF, ⟨0xFB641CDE2, 0⟩)]) ++
  (List.range 16).map (fun m => ((5 + m) * 4096 + 0xFF, ⟨0xFB641CDE2, 0⟩))

/-- The lock pairs of a device as shipped (R418): WLOCK of every mandatory region, by the index of `FUSE.REGION`. -/
def factoryLocks : AMap LockS :=
  ([0, 1] ++ (List.range 4).flatMap (fun t => [8 + 4 * t, 9 + 4 * t]) ++ (List.range 16).map (24 + ·)).map (fun k => (k, ⟨3, 0⟩))

/-- The device with VIN valid and RESET_N held low before its first cold start (R375, R433, R492): every register at its reset value
(none is listed), no memory listed, and the fuses as shipped. -/
def State.reset : State := { fuse := { cells := factoryCells, locks := factoryLocks } }

end Sys2Proof.Machine
end

