-- ==== Sys2Proof/Machine/Operands.lean ====
section
/-! DEFINITION. Operand forms: bytes and words, the host address (R136), the granules of R137, the placement of a line and its
inverse (R139, R140), pool places (R157), the fields of a descriptor (R208), the fields of a topology entry (R22). -/

namespace Sys2Proof.Machine

/-! ### Order -/

/-- Inserts an element before the first that it does not follow. -/
def insertBy {α : Type} (le : α → α → Bool) (a : α) : List α → List α
  | [] => [a]
  | b :: r => if le a b then a :: b :: r else b :: insertBy le a r

/-- A list in an order; equal elements keep their places. -/
def sortBy {α : Type} (le : α → α → Bool) (l : List α) : List α := l.foldr (insertBy le) []

/-! ### Bytes -/

/-- `n` bytes of `v`, least significant first. -/
def leBytes : Nat → Nat → List Byte
  | 0, _ => []
  | n + 1, v => BitVec.ofNat 8 v :: leBytes n (v / 256)

/-- The number that little-endian bytes spell. -/
def ofLe : List Byte → Nat
  | [] => 0
  | b :: r => b.toNat + 256 * ofLe r

/-- The number that big-endian bytes spell. -/
def ofBe (l : List Byte) : Nat := l.foldl (fun a b => a * 256 + b.toNat) 0

/-- `n` bytes of `v`, most significant first. -/
def beBytes (n v : Nat) : List Byte := (leBytes n v).reverse

/-- `n` zero bytes. -/
def zeros (n : Nat) : List Byte := List.replicate n 0

/-- `len` bytes from offset `off`. -/
def slice (l : List Byte) (off len : Nat) : List Byte := (l.drop off).take len

/-- The little-endian number in `len` bytes from offset `off`. -/
def leAt (l : List Byte) (off len : Nat) : Nat := ofLe (slice l off len)

/-- A list of bytes as 32-bit little-endian words. -/
def toWords : Nat → List Byte → List Nat
  | 0, _ => []
  | n + 1, l => ofLe (l.take 4) :: toWords n (l.drop 4)

/-- Words as little-endian bytes. -/
def ofWords (ws : List Nat) : List Byte := ws.flatMap (leBytes 4)

/-- Bytewise exclusive-or. -/
def xorBytes (a b : List Byte) : List Byte := List.zipWith (· ^^^ ·) a b

/-- `a` with the bytes of `b` put at offset `off`. -/
def splice (a : List Byte) (off : Nat) (b : List Byte) : List Byte := a.take off ++ b ++ a.drop (off + b.length)

/-- A signed number as the low 12 bits of a register field in 0.1 °C. -/
def tempBits (t : Int) : Nat := (t % 4096).toNat

/-! ### The host address (R136, R137) -/

/-- KEYID, ADDR[63:52]. -/
def adKey (a : Nat) : Nat := bits a 63 52
/-- DEVNUM, ADDR[51:46]. -/
def adDev (a : Nat) : Nat := bits a 51 46
/-- The bits that must be zero, ADDR[45:37]. -/
def adZero (a : Nat) : Nat := bits a 45 37
/-- LOCAL, ADDR[36:0]. -/
def adLocal (a : Nat) : Nat := bits a 36 0
/-- The line index λ of a local address (R138). -/
def lineIx (loc : Nat) : Nat := loc / 128
/-- The half of a line that a local address names: true for the upper. -/
def upperHalf (loc : Nat) : Bool := bit loc 6
/-- The host address of a local address. -/
def mkAddr (kid dev loc : Nat) : Nat := kid * 2 ^ 52 + dev * 2 ^ 46 + loc

/-- The granule of an operation in bytes (R102, R137). -/
def granule : MOp → Nat
  | .rd64 => 64 | .wr64 => 64 | _ => 128

/-! ### Placement (R139, R140, R157) -/

/-- The number of the low `n` bits of the exclusive-or of two numbers. -/
def xorLow (n a b : Nat) : Nat := (a ^^^ b) % 2 ^ n

/-- R139: the place of line `l`. -/
def placeOf (l : Nat) : Place :=
  { pc := (bits l 5 0 ^^^ bits l 11 6 ^^^ bits l 17 12 ^^^ bits l 23 18 ^^^ bits l 29 24) % 64
    bg := 4 * bits l 29 28 + (bits l 12 11 ^^^ bits l 16 15 ^^^ bits l 24 23) % 4
    bk := (bits l 10 9 ^^^ bits l 14 13 ^^^ bits l 22 21) % 4
    row := bits l 27 13
    col := bits l 8 6 }

/-- The line that R139 puts at a place. -/
def homeLine (p : Place) : Nat :=
  let hi := p.bg / 4 * 2 ^ 28 + p.row * 2 ^ 13
  let l1211 := ((p.bg % 4) ^^^ bits hi 16 15 ^^^ bits hi 24 23) % 4
  let l109 := (p.bk ^^^ bits hi 14 13 ^^^ bits hi 22 21) % 4
  let up := hi + l1211 * 2 ^ 11 + l109 * 2 ^ 9 + p.col * 2 ^ 6
  up + (p.pc ^^^ bits up 11 6 ^^^ bits up 17 12 ^^^ bits up 23 18 ^^^ bits up 29 24) % 64

end Sys2Proof.Machine

namespace Sys2Proof
open Sys2Proof.Machine

/-- A number for each line place, rising with pseudo-channel, bank group, bank, row, column. -/
def Place.ix (p : Place) : Nat := (((p.pc * 12 + p.bg) * 4 + p.bk) * 32768 + p.row) * 8 + p.col

/-- The place of a number. -/
def Place.ofIx (i : Nat) : Place :=
  { col := i % 8, row := i / 8 % 32768, bk := i / 262144 % 4, bg := i / 1048576 % 12, pc := i / 12582912 }

/-- R156: places of the reserve pool. -/
def Place.inPool (p : Place) : Bool := 8 ≤ p.bg && Config.poolFirstRow ≤ p.row

end Sys2Proof

namespace Sys2Proof.Machine

/-- R157: line offset `j` of pool block `k`. -/
def poolPlace (k j : Nat) : Place :=
  { pc := k, bg := 8 + bits j 6 5, bk := bits j 4 3, row := Config.poolFirstRow + bits j 17 7, col := bits j 2 0 }

end Sys2Proof.Machine

namespace Sys2Proof
open Sys2Proof.Machine

/-- The offset of a pool place in its block. -/
def poolOffset (p : Place) : Nat :=
  (p.row - Config.poolFirstRow) * 128 + (p.bg - 8) * 32 + p.bk * 8 + p.col

/-- The channel of a place, 8 × tier + channel (R140). -/
def Place.chan (p : Place) : Nat := p.pc / 2
/-- The tier of a place (R140). -/
def Place.tier (p : Place) : Nat := p.pc / 16
/-- The bank position of a place, R296: bank p div 12 of bank group p mod 12. -/
def Place.pos (p : Place) : Nat := p.bk * 12 + p.bg
/-- R328: the place index of Ranger within a channel. -/
def Place.ranger (p : Place) : Nat := ((p.row * 12 + p.bg) * 4 + p.bk) * 16 + p.col * 2 + p.pc % 2
/-- The place of channel `n` with Ranger index `i`. -/
def Place.ofRanger (n i : Nat) : Place :=
  { pc := 2 * n + i % 2, col := i / 2 % 8, bk := i / 16 % 4, bg := i / 64 % 12, row := i / 768 }

end Sys2Proof

namespace Sys2Proof.Machine

/-! ### Metadata (R145, R146) -/

/-- The metadata word of a state, poison flag and KeyID. -/
def mdWord (st : Nat) (poison : Bool) (kid : Nat) : Nat := st * 2 ^ 13 + b2n poison * 2 ^ 12 + kid
/-- STATE of a metadata word. -/
def mdState (w : Nat) : Nat := bits w 15 13
/-- POISON of a metadata word. -/
def mdPoison (w : Nat) : Bool := bit w 12
/-- KEYID of a metadata word. -/
def mdKid (w : Nat) : Nat := bits w 11 0

/-! ### Descriptors (R208, R209) -/

/-- Word `n` of a descriptor. -/
def dw (d : List Nat) (n : Nat) : Nat := d.getD n 0
def dOpc (d : List Nat) : Nat := bits (dw d 0) 7 0
def dDfv (d : List Nat) : Nat := bits (dw d 0) 11 8
def dOrder (d : List Nat) : Bool := bit (dw d 0) 12
def dQuiet (d : List Nat) : Bool := bit (dw d 0) 13
def dOflags (d : List Nat) : Nat := bits (dw d 0) 23 16
def dSc (d : List Nat) : Nat := bits (dw d 0) 27 24
def dSeq (d : List Nat) : Nat := dw d 1
def dSrc (d : List Nat) : Nat := dw d 2 + dw d 3 * 2 ^ 32
def dDst (d : List Nat) : Nat := dw d 4 + dw d 5 * 2 ^ 32
def dLen (d : List Nat) : Nat := dw d 6
def dCtag (d : List Nat) : Nat := dw d 7
/-- SRC2 of a DFV 2 descriptor. -/
def dSrc2 (d : List Nat) : Nat := dw d 8 + dw d 9 * 2 ^ 32
/-- The AUX bytes, R209. -/
def dAux (d : List Nat) : List Byte :=
  ofWords (if dDfv d == 2 then (d.drop 10).take 5 else (d.drop 8).take 8)
/-- `len` AUX bytes from `off` as a number. -/
def dAuxN (d : List Nat) (off len : Nat) : Nat := leAt (dAux d) off len
/-- TGT, AUX byte 0 (R214). -/
def dTgt (d : List Nat) : Nat := bits (dAuxN d 0 1) 5 0
def dTgtAll (d : List Nat) : Bool := bit (dAuxN d 0 1) 7
/-- PATTERN, AUX bytes 0 to 15. -/
def dPattern (d : List Nat) : List Byte := slice (dAux d ++ zeros 16) 0 16

/-! ### Queue contexts (R199) -/

/-- Word `n` of a context. -/
def cw (c : List Nat) (n : Nat) : Nat := c.getD n 0
def cRing (c : List Nat) : Nat := cw c 0 + cw c 1 * 2 ^ 32
def cRingLog2 (c : List Nat) : Nat := bits (cw c 2) 4 0
def cDfv (c : List Nat) : Nat := bits (cw c 2) 11 8
def cSc (c : List Nat) : Nat := bits (cw c 2) 15 12
def cGrp (c : List Nat) : Nat := bits (cw c 2) 23 16
def cGrpEn (c : List Nat) : Bool := bit (cw c 2) 24
def cMgmt (c : List Nat) : Bool := bit (cw c 2) 25
def cDomain (c : List Nat) : Nat := bits (cw c 3) 9 0
def cCqSel (c : List Nat) : Nat := bits (cw c 3) 31 16
def cCq (c : List Nat) : Nat := cw c 4 + cw c 5 * 2 ^ 32
def cCqLog2 (c : List Nat) : Nat := bits (cw c 6) 4 0
def cKeyLo (c : List Nat) : Nat := bits (cw c 7) 11 0
def cKeyHi (c : List Nat) : Nat := bits (cw c 7) 23 12
def cPlainOk (c : List Nat) : Bool := bit (cw c 7) 24
def cHead (c : List Nat) : Nat := cw c 8
def cNextSeq (c : List Nat) : Nat := cw c 9
def cCqTail (c : List Nat) : Nat := cw c 10
def cCqHead (c : List Nat) : Nat := cw c 11
def cState (c : List Nat) : Nat := bits (cw c 12) 1 0
def cCause (c : List Nat) : Nat := bits (cw c 12) 7 4
def cInflight (c : List Nat) : Nat := bits (cw c 12) 24 8
/-- A context with word `n` replaced. -/
def cPut (c : List Nat) (n v : Nat) : List Nat := (c ++ List.replicate (16 - c.length) 0).set n (v % 2 ^ 32)
def cPutState (c : List Nat) (v : Nat) : List Nat := cPut c 12 (setBits (cw c 12) 1 0 v)
def cPutCause (c : List Nat) (v : Nat) : List Nat := cPut c 12 (setBits (cw c 12) 7 4 v)
def cPutInflight (c : List Nat) (v : Nat) : List Nat := cPut c 12 (setBits (cw c 12) 24 8 v)

/-! ### Protection map entries (R268) -/

def peValid (e : List Nat) : Bool := bit (e.getD 0 0) 31
def peInit (e : List Nat) : Bool := bit (e.getD 0 0) 30
def peKind (e : List Nat) : Nat := bits (e.getD 0 0) 29 28
def peDomain (e : List Nat) : Nat := bits (e.getD 0 0) 9 0
def peFirst (e : List Nat) : Nat := bits (e.getD 1 0) 15 0
def peLast (e : List Nat) : Nat := bits (e.getD 1 0) 31 16
def peKeyLo (e : List Nat) : Nat := bits (e.getD 2 0) 11 0
def peKeyHi (e : List Nat) : Nat := bits (e.getD 2 0) 23 12
def peTag (e : List Nat) : Nat := bits (e.getD 3 0) 19 0
/-- Whether an entry's extent covers a local address: granule LOCAL[36:21]. -/
def peCovers (e : List Nat) (loc : Nat) : Bool := peValid e && peFirst e ≤ bits loc 36 21 && bits loc 36 21 ≤ peLast e

/-- R273: the local byte address of the tag of the line at `a` in a protected entry. -/
def tagAddr (e : List Nat) (a : Nat) : Nat := peTag e * 131072 + (a - peFirst e * 2097152) / 16

/-! ### Ports and agents -/

/-- The number of a port: 0 crown A, 1 crown B, 2 east, 3 west. -/
def portNo : Port → Nat
  | .ca => 0 | .cb => 1 | .e => 2 | .w => 3

/-- All four ports, in the order of their numbers. -/
def allPorts : List Port := [.ca, .cb, .e, .w]

/-- The class of an operation (R99). -/
def MOp.cls : MOp → Nat
  | .rd64 | .rd128 | .wr64 | .wr128 | .fence | .hint => 0
  | .rdata | .wdone | .fdone | .err => 1
  | .sealGood | .sealBad | .sealVoid => 2
  | .crd | .cwr | .crdRsp | .cwrRsp => 3
  | .ntc => 4
  | .shard | .shardDone | .part | .abort => 5
  | .credit | .census | .pwr | .ack | .nak | .replay | .quiet => 6

end Sys2Proof.Machine

namespace Sys2Proof
open Sys2Proof.Machine

/-- The fault unit, counter and die numbers of dies: base 0, tiers 1 to 4, memory dies 5 to 20. -/
def Die.ix : Die → Nat
  | .base => 0 | .tier t => 1 + t.val | .mem m => 5 + m.val

end Sys2Proof

namespace Sys2Proof.Machine

/-- The code of a port state (R77). -/
def TState.code : TState → Nat
  | .off => 0 | .huntFull => 1 | .huntHalf => 2 | .cap => 3 | .step => 4 | .active => 5 | .down => 6 | .prbs => 7 | .quiet => 8

/-- The code of a channel's power state (R321). -/
def PState.code : PState → Nat
  | .active => 0 | .entering => 1 | .selfRefresh => 2 | .exiting => 3 | .training => 4 | .retired => 5

end Sys2Proof.Machine
end

