-- ==== Sys2Proof/Machine/Codes.lean ====
section
/-! DEFINITION. The codes of the manual: arithmetic in GF(2^m), the Reed-Solomon decoder of the line code (R141, R143) and of the
frames of a link, the cyclic redundancy checks of R233, and the fuse code of R422. -/

namespace Sys2Proof.Machine

/-! ### GF(2^m) -/

/-- A field GF(2^m): m and the generating polynomial with its leading term. -/
structure GF where
  m    : Nat
  poly : Nat
  deriving DecidableEq, Repr

/-- The field of the line code: x^8 + x^4 + x^3 + x^2 + 1 (R141). -/
def gfLine : GF := ⟨8, 0x11D⟩

/-- Multiplication by the root α. -/
def GF.alpha (f : GF) (a : Nat) : Nat := if 2 ^ f.m ≤ 2 * a then (2 * a) ^^^ f.poly else 2 * a

/-- The product, by `n` low bits of `b`. -/
def GF.mulN (f : GF) : Nat → Nat → Nat → Nat
  | 0, _, _ => 0
  | n + 1, a, b => (if b % 2 = 1 then a else 0) ^^^ f.mulN n (f.alpha a) (b / 2)

/-- The product. -/
def GF.mul (f : GF) (a b : Nat) : Nat := f.mulN f.m a b

/-- α to the power `n`. -/
def GF.pow (f : GF) : Nat → Nat
  | 0 => 1
  | n + 1 => f.alpha (f.pow n)

/-- The product of `k` factors a^(2^i), i = 1 to k: for k = m − 1, the inverse of `a`. -/
def GF.invN (f : GF) : Nat → Nat → Nat
  | 0, _ => 1
  | k + 1, a => let q := f.mul a a; f.mul q (f.invN k q)

/-- The inverse of `a` (0 for 0). -/
def GF.inv (f : GF) (a : Nat) : Nat := f.invN (f.m - 1) a

/-- The value at `x` of a polynomial given lowest coefficient first. -/
def GF.eval (f : GF) (p : List Nat) (x : Nat) : Nat := p.foldr (fun c acc => c ^^^ f.mul acc x) 0

/-- The sum of two polynomials. -/
def polyAdd : List Nat → List Nat → List Nat
  | [], q => q
  | p, [] => p
  | a :: p, b :: q => (a ^^^ b) :: polyAdd p q

/-- A polynomial times a constant. -/
def GF.scale (f : GF) (c : Nat) (p : List Nat) : List Nat := p.map (f.mul c)

/-! ### Reed-Solomon encoding -/

/-- The coefficients of (x − α^0)…(x − α^(r−1)) after the leading 1, highest first. -/
def GF.gen (f : GF) : Nat → List Nat
  | 0 => []
  | n + 1 => let p := 1 :: f.gen n; (List.zipWith (· ^^^ ·) (p ++ [0]) (0 :: f.scale (f.pow n) p)).drop 1

/-- The `r` check symbols of a word, highest first: the remainder of m(x) · x^r divided by the generator polynomial (R72, R141). -/
def GF.check (f : GF) (r : Nat) (m : List Nat) : List Nat :=
  let g := f.gen r
  m.foldl (fun st c => List.zipWith (· ^^^ ·) (st.drop 1 ++ [0]) (f.scale (c ^^^ st.headD 0) g)) (List.replicate r 0)

/-- R141: the 12 check bytes of a line of 128 data bytes and a metadata word. -/
def lineCheck (data : List Byte) (md : Nat) : List Byte :=
  (gfLine.check 12 ((data ++ leBytes 4 md).map (·.toNat))).map (BitVec.ofNat 8)

/-! ### Reed-Solomon decoding of an error pattern -/

/-- S_j = Σ e_k · α^(j·(n−1−k)) for j = 0 to r − 1, of the errors `es` in a word of `n` symbols. -/
def GF.syndromes (f : GF) (n r : Nat) (es : List (Nat × Nat)) : List Nat :=
  (List.range r).map (fun j => es.foldl (fun a e => a ^^^ f.mul e.2 (f.pow (j * (n - 1 - e.1) % (2 ^ f.m - 1)))) 0)

/-- State of the Berlekamp-Massey iteration: the locator, the last one, the last discrepancy, the length, the shift. -/
structure BM where
  lam : List Nat
  old : List Nat
  b   : Nat
  l   : Nat
  sh  : Nat
  deriving DecidableEq, Repr

/-- One Berlekamp-Massey step for syndrome index `i`. -/
def GF.bmStep (f : GF) (syn : List Nat) (st : BM) (i : Nat) : BM :=
  let d := (List.range (st.l + 1)).foldl (fun a j => a ^^^ f.mul (st.lam.getD j 0) (syn.getD (i - j) 0)) 0
  if d = 0 then { st with sh := st.sh + 1 }
  else
    let lam' := polyAdd st.lam (List.replicate st.sh 0 ++ f.scale (f.mul d (f.inv st.b)) st.old)
    if 2 * st.l ≤ i then { lam := lam', old := st.lam, b := d, l := i + 1 - st.l, sh := 1 }
    else { st with lam := lam', sh := st.sh + 1 }

/-- The error locator of a syndrome list. -/
def GF.locator (f : GF) (syn : List Nat) : BM :=
  (List.range syn.length).foldl (f.bmStep syn) { lam := [1], old := [1], b := 1, l := 0, sh := 1 }

/-- The product of two polynomials, cut to `r` coefficients. -/
def GF.mulPoly (f : GF) (r : Nat) (p q : List Nat) : List Nat :=
  (List.range r).map (fun k => (List.range (k + 1)).foldl (fun a j => a ^^^ f.mul (p.getD j 0) (q.getD (k - j) 0)) 0)

/-- R143: the correction a decoder of `n` symbols with `r` check symbols makes to an error pattern: the positions and values it
adds, or none where it reports the word uncorrectable. -/
def GF.decode (f : GF) (n r : Nat) (es : List (Nat × Nat)) : Option (List (Nat × Nat)) :=
  let syn := f.syndromes n r es
  if syn.all (· == 0) then some []
  else
    let bm := f.locator syn
    if r < 2 * bm.l then none
    else
      let omega := f.mulPoly r syn bm.lam
      let lamD := bm.lam.mapIdx (fun i c => if i % 2 = 1 then c else 0) |>.drop 1
      let fix := (List.range n).filterMap (fun k =>
        let x := f.pow (n - 1 - k)
        let xi := f.inv x
        if f.eval bm.lam xi = 0 then some (k, f.mul x (f.mul (f.eval omega xi) (f.inv (f.eval lamD xi)))) else none)
      if fix.length = bm.l ∧ (f.syndromes n r (es ++ fix)).all (· == 0) then some fix else none

/-- R141, R143: what the line decoder makes of an error pattern: none for an uncorrectable line, otherwise the difference that
remains in symbols 0 to 131 after its correction and the number of symbols it corrected. -/
def lineDecode (errors : List (Nat × Byte)) : Option (List (Nat × Byte) × Nat) :=
  let es := (List.range 144).filterMap (fun k =>
    let v := (errors.filter (fun e => e.1 == k)).foldl (fun a e => a ^^^ e.2.toNat) 0
    if v = 0 then none else some (k, v))
  if es.isEmpty then some ([], 0)
  else match gfLine.decode 144 12 es with
    | none => none
    | some fix =>
      let left := (List.range 132).filterMap (fun k =>
        let v := ((es ++ fix).filter (fun e => e.1 == k)).foldl (fun a e => a ^^^ e.2) 0
        if v = 0 then none else some (k, BitVec.ofNat 8 v))
      some (left, fix.length)

/-- Adds differences to the symbols of a list of bytes. -/
def addErrors (errs : List (Nat × Byte)) (l : List Byte) : List Byte :=
  l.mapIdx (fun i b => errs.foldl (fun a e => if e.1 = i then a ^^^ e.2 else a) b)

/-! ### Cyclic redundancy checks (R233) -/

/-- One bit of a reflected CRC register. -/
def crcBit (poly c : Nat) : Nat := if c % 2 = 1 then (c / 2) ^^^ poly else c / 2

/-- `n` bits of a reflected CRC register. -/
def crcBits (poly : Nat) : Nat → Nat → Nat
  | 0, c => c
  | n + 1, c => crcBits poly n (crcBit poly c)

/-- A reflected CRC register after bytes. -/
def crcRun (poly : Nat) (l : List Byte) (c : Nat) : Nat := l.foldl (fun c b => crcBits poly 8 (c ^^^ b.toNat)) c

/-- 0x1EDC_6F41 reflected. -/
def poly32C : Nat := 0x82F63B78
/-- 0x42F0_E1EB_A9EA_3693 reflected. -/
def poly64 : Nat := 0xC96C5795D7870F42

/-- CRC-32C of R233, continuing from the CRC of what precedes (0 for nothing). -/
def crc32cFrom (seed : Nat) (l : List Byte) : Nat := crcRun poly32C l (seed ^^^ 0xFFFFFFFF) ^^^ 0xFFFFFFFF
/-- CRC-32C of R233. -/
def crc32c (l : List Byte) : Nat := crc32cFrom 0 l
/-- CRC-64 of R233, continuing from the CRC of what precedes. -/
def crc64From (seed : Nat) (l : List Byte) : Nat := crcRun poly64 l (seed ^^^ (2 ^ 64 - 1)) ^^^ (2 ^ 64 - 1)

/-! ### The fuse code (R422) -/

/-- The number of ones in the low `n` bits. -/
def ones : Nat → Nat → Nat
  | 0, _ => 0
  | n + 1, v => v % 2 + ones n (v / 2)

/-- R422: the columns: the 7-bit values with exactly three ones, rising; column i belongs to data bit i. -/
def fuseCols : List Nat := ((List.range 128).filter (fun v => ones 7 v == 3)).take 32

/-- R422: the check bits of a data word. -/
def fuseCheck (d : Nat) : Nat :=
  fuseCols.zipIdx.foldl (fun a c => if bit d c.2 then a ^^^ c.1 else a) 0

/-- R422: the 39 cells of a data word. -/
def fuseCodeword (d : Nat) : Nat := d % 2 ^ 32 + fuseCheck (d % 2 ^ 32) * 2 ^ 32

/-- The syndrome of 39 cell values. -/
def fuseSyndrome (w : Nat) : Nat := fuseCheck (w % 2 ^ 32) ^^^ (w / 2 ^ 32 % 128)

/-- R422: the decode of a stored word from its strong and marginal cells: the data and the word status (0 clean, 1 corrected
marginal, 2 corrected, 3 uncorrectable). -/
def fuseDecode (strong marg : Nat) : Nat × Nat :=
  let w := strong % 2 ^ 39
  match ones 39 marg with
  | 0 =>
    let s := fuseSyndrome w
    if s = 0 then (w % 2 ^ 32, 0)
    else match fuseCols.findIdx? (· == s) with
      | some i => ((w ^^^ 2 ^ i) % 2 ^ 32, 2)
      | none => if ones 7 s = 1 then (w % 2 ^ 32, 2) else (0, 3)
  | 1 =>
    let w0 := w - (w &&& marg)
    let w1 := w0 + marg % 2 ^ 39
    if fuseSyndrome w0 = 0 then (w0 % 2 ^ 32, 1)
    else if fuseSyndrome w1 = 0 then (w1 % 2 ^ 32, 1)
    else (0, 3)
  | _ => (0, 3)

end Sys2Proof.Machine
end

