-- ==== Sys2Proof/Machine/Crypto.lean ====
section
/-! DEFINITION. The cryptography of the manual: AES-256 (FIPS 197), CMAC (SP 800-38B), XTS (IEEE 1619, R265), key wrap (RFC 3394,
R261), the counter-mode KDF (SP 800-108r1, R261), the line tag (R266), SHA-384 and ECDSA P-384 (R442). -/

namespace Sys2Proof.Machine

/-! ### AES-256 -/

/-- The field of AES: x^8 + x^4 + x^3 + x + 1. -/
def gfAes : GF := ⟨8, 0x11B⟩

/-- A byte rotated left by `n`. -/
def rotl8 (b n : Nat) : Nat := (b * 2 ^ n % 256) + b * 2 ^ n / 256

/-- The substitution box. -/
def aesSub (b : Nat) : Nat :=
  let i := gfAes.inv b
  i ^^^ rotl8 i 1 ^^^ rotl8 i 2 ^^^ rotl8 i 3 ^^^ rotl8 i 4 ^^^ 0x63

/-- The inverse substitution box. -/
def aesInvSub (b : Nat) : Nat := gfAes.inv (rotl8 b 1 ^^^ rotl8 b 3 ^^^ rotl8 b 6 ^^^ 5)

/-- Elementwise exclusive-or. -/
def xorL (a b : List Nat) : List Nat := List.zipWith (· ^^^ ·) a b

/-- Expands a key: `n` more words after those given, newest first; `i` is the index of the next word. -/
def aesExpand : Nat → Nat → Nat → List (List Nat) → List (List Nat)
  | 0, _, _, ws => ws
  | n + 1, i, rc, ws =>
    let prev := ws.headD []
    let t := if i % 8 = 0 then
        (match prev.map aesSub with
          | [a, b, c, d] => [b ^^^ rc, c, d, a]
          | l => l)
      else if i % 8 = 4 then prev.map aesSub else prev
    aesExpand n (i + 1) (if i % 8 = 0 then gfAes.alpha rc else rc) (xorL (ws.getD 7 []) t :: ws)

/-- The fifteen round keys of a 32-byte key. -/
def aesKeys (key : List Byte) : List (List Nat) :=
  let k := (key ++ zeros 32).map (·.toNat)
  let ws := ((List.range 8).map (fun i => (k.drop (4 * i)).take 4)).reverse
  let all := (aesExpand 52 8 1 ws).reverse
  (List.range 15).map (fun r => ((all.drop (4 * r)).take 4).flatten)

/-- ShiftRows of a state in column order. -/
def aesShift (s : List Nat) : List Nat := (List.range 16).map (fun i => s.getD ((i + 4 * (i % 4)) % 16) 0)
/-- The inverse of ShiftRows. -/
def aesInvShift (s : List Nat) : List Nat := (List.range 16).map (fun i => s.getD ((i + 16 - 4 * (i % 4)) % 16) 0)

/-- MixColumns with the coefficients of its first row. -/
def aesMix (co : List Nat) (s : List Nat) : List Nat :=
  (List.range 16).map (fun i =>
    (List.range 4).foldl (fun a j => a ^^^ gfAes.mul (s.getD (4 * (i / 4) + j) 0) (co.getD ((j + 4 - i % 4) % 4) 0)) 0)

/-- AES-256 encryption of 16 bytes under expanded keys. -/
def aesEnc (ks : List (List Nat)) (b : List Byte) : List Byte :=
  let s := xorL (b.map (·.toNat)) (ks.headD [])
  let s := ((ks.drop 1).take 13).foldl (fun s k => xorL (aesMix [2, 3, 1, 1] (aesShift (s.map aesSub))) k) s
  (xorL (aesShift (s.map aesSub)) (ks.getD 14 [])).map (BitVec.ofNat 8)

/-- AES-256 decryption of 16 bytes under expanded keys. -/
def aesDec (ks : List (List Nat)) (b : List Byte) : List Byte :=
  let s := xorL (b.map (·.toNat)) (ks.getD 14 [])
  let s := ((ks.drop 1).take 13).reverse.foldl
    (fun s k => aesMix [14, 11, 13, 9] (xorL ((aesInvShift s).map aesInvSub) k)) s
  (xorL ((aesInvShift s).map aesInvSub) (ks.headD [])).map (BitVec.ofNat 8)

/-! ### CMAC -/

/-- Doubling in the field of CMAC, big-endian. -/
def cmacDbl (b : List Byte) : List Byte :=
  let v := ofBe b
  beBytes 16 ((2 * v % 2 ^ 128) ^^^ (if 2 ^ 127 ≤ v then 0x87 else 0))

/-- The chain over `n` whole blocks. -/
def cmacChain (ks : List (List Nat)) : Nat → List Byte → List Byte → List Byte
  | 0, _, c => c
  | n + 1, m, c => cmacChain ks n (m.drop 16) (aesEnc ks (xorBytes c (m.take 16)))

/-- AES-256-CMAC of a message. -/
def cmac (key msg : List Byte) : List Byte :=
  let ks := aesKeys key
  let k1 := cmacDbl (aesEnc ks (zeros 16))
  let n := if msg.isEmpty then 0 else (msg.length - 1) / 16
  let last := msg.drop (16 * n)
  let fin := if last.length = 16 then xorBytes last k1
    else xorBytes ((last ++ [0x80] ++ zeros 16).take 16) (cmacDbl k1)
  aesEnc ks (xorBytes (cmacChain ks n msg (zeros 16)) fin)

/-! ### XTS (R265) -/

/-- The next tweak: multiplication by α, little-endian. -/
def xtsNext (t : List Byte) : List Byte :=
  let v := ofLe t
  leBytes 16 ((2 * v % 2 ^ 128) ^^^ (if 2 ^ 127 ≤ v then 0x87 else 0))

/-- `n` blocks of XTS with a block function. -/
def xtsBlocks (f : List Byte → List Byte) : Nat → List Byte → List Byte → List Byte
  | 0, _, _ => []
  | n + 1, t, d => xorBytes (f (xorBytes (d.take 16) t)) t ++ xtsBlocks f n (xtsNext t) (d.drop 16)

/-- R265: the tweak of a line before encryption. -/
def lineTweak (dev loc : Nat) : List Byte := leBytes 16 (dev * 2 ^ 64 + loc / 128 * 128)

/-- R265: a line encrypted under its KeyID's keys. -/
def lineEncrypt (kData kTweak : List Byte) (dev loc : Nat) (d : List Byte) : List Byte :=
  xtsBlocks (aesEnc (aesKeys kData)) 8 (aesEnc (aesKeys kTweak) (lineTweak dev loc)) d

/-- R265: a line decrypted under its KeyID's keys. -/
def lineDecrypt (kData kTweak : List Byte) (dev loc : Nat) (d : List Byte) : List Byte :=
  xtsBlocks (aesDec (aesKeys kData)) 8 (aesEnc (aesKeys kTweak) (lineTweak dev loc)) d

/-- R266: TAG64 of a ciphertext line, as the number its 8 bytes spell little-endian. -/
def lineTag (kTag : List Byte) (dev loc kid : Nat) (ct : List Byte) : Nat :=
  ofLe ((cmac kTag (ct ++ leBytes 8 (loc / 128 * 128) ++ leBytes 1 dev ++ [0] ++ leBytes 2 kid ++ zeros 4)).take 8)

/-! ### Key wrap and derivation (R261) -/

/-- One step of the unwrap of RFC 3394: A, the registers R1 to Rn, and t. -/
def unwrapStep (ks : List (List Nat)) (n : Nat) (st : List Byte × List (List Byte)) (t : Nat) : List Byte × List (List Byte) :=
  let i := (t - 1) % n
  let b := aesDec ks (beBytes 8 (ofBe st.1 ^^^ t) ++ st.2.getD i [])
  (b.take 8, st.2.set i (b.drop 8))

/-- RFC 3394: unwraps 40 bytes under a key-encryption key; none where the integrity check fails. -/
def keyUnwrap (kek blob : List Byte) : Option (List Byte) :=
  let n := 4
  let ks := aesKeys kek
  let r := (List.range n).map (fun i => slice blob (8 + 8 * i) 8)
  let st := ((List.range (6 * n)).map (fun j => 6 * n - j)).foldl (unwrapStep ks n) (blob.take 8, r)
  if st.1 = List.replicate 8 0xA6 then some st.2.flatten else none

/-- R261: the 13 ASCII bytes of the label. -/
def kdfLabel : List Byte := [0x45, 0x56, 0x53, 0x2D, 0x4C, 0x49, 0x4E, 0x45, 0x2D, 0x4B, 0x45, 0x59, 0x53]

/-- R261: K_DATA, K_TWEAK and K_TAG of a key and a KeyID. -/
def deriveKeys (k : List Byte) (kid : Nat) : List Byte × List Byte × List Byte :=
  let out := (List.range 6).flatMap (fun i =>
    cmac k (beBytes 4 (i + 1) ++ kdfLabel ++ [0] ++ beBytes 2 kid ++ beBytes 4 768))
  (out.take 32, slice out 32 32, slice out 64 32)

/-! ### SHA-384 -/

/-- The integer `k`-th root of `n`, from bit `b` down. -/
def rootBits (k n : Nat) : Nat → Nat → Nat
  | 0, r => r
  | b + 1, r => rootBits k n b (if (r + 2 ^ b) ^ k ≤ n then r + 2 ^ b else r)

/-- The first primes below 410. -/
def primesTo410 : List Nat :=
  (List.range 410).filter (fun n => decide (2 ≤ n) && (List.range n).all (fun d => decide (d < 2) || n % d != 0))

/-- The 80 round constants: the first 64 bits of the fractions of the cube roots of the first 80 primes. -/
def shaK : List Nat := (primesTo410.take 80).map (fun p => rootBits 3 (p * 2 ^ 192) 68 0 % 2 ^ 64)

/-- The initial value: the first 64 bits of the fractions of the square roots of the 9th to 16th primes. -/
def shaH0 : List Nat := ((primesTo410.drop 8).take 8).map (fun p => rootBits 2 (p * 2 ^ 128) 68 0 % 2 ^ 64)

/-- A 64-bit rotation right. -/
def rotr64 (x n : Nat) : Nat := x / 2 ^ n + x % 2 ^ n * 2 ^ (64 - n)

/-- Extends a message schedule, newest first, by `n` words. -/
def shaSched : Nat → List Nat → List Nat
  | 0, w => w
  | n + 1, w =>
    let a := w.getD 1 0
    let b := w.getD 14 0
    let s1 := rotr64 a 19 ^^^ rotr64 a 61 ^^^ (a / 2 ^ 6)
    let s0 := rotr64 b 1 ^^^ rotr64 b 8 ^^^ (b / 2 ^ 7)
    shaSched n (((s1 + w.getD 6 0 + s0 + w.getD 15 0) % 2 ^ 64) :: w)

/-- One round over the eight working variables. -/
def shaRound (v : List Nat) (kw : Nat × Nat) : List Nat :=
  match v with
  | [a, b, c, d, e, f, g, h] =>
    let t1 := h + (rotr64 e 14 ^^^ rotr64 e 18 ^^^ rotr64 e 41) + ((e &&& f) ^^^ ((2 ^ 64 - 1 - e) &&& g)) + kw.1 + kw.2
    let t2 := (rotr64 a 28 ^^^ rotr64 a 34 ^^^ rotr64 a 39) + ((a &&& b) ^^^ (a &&& c) ^^^ (b &&& c))
    [(t1 + t2) % 2 ^ 64, a, b, c, (d + t1) % 2 ^ 64, e, f, g]
  | l => l

/-- `n` blocks of 128 bytes. -/
def shaBlocks (ks : List Nat) : Nat → List Byte → List Nat → List Nat
  | 0, _, h => h
  | n + 1, m, h =>
    let w := (shaSched 64 ((List.range 16).map (fun i => ofBe (slice m (8 * i) 8))).reverse).reverse
    shaBlocks ks n (m.drop 128) (List.zipWith (fun x y => (x + y) % 2 ^ 64) h ((List.zip ks w).foldl shaRound h))

/-- SHA-384 of a message: 48 bytes. -/
def sha384 (msg : List Byte) : List Byte :=
  let len := msg.length
  let pad := (127 - (len + 16) % 128)
  let m := msg ++ [0x80] ++ zeros pad ++ beBytes 16 (8 * len)
  ((shaBlocks shaK (m.length / 128) m shaH0).flatMap (beBytes 8)).take 48

/-! ### ECDSA P-384 -/

def p384P : Nat := 2 ^ 384 - 2 ^ 128 - 2 ^ 96 + 2 ^ 32 - 1
def p384N : Nat := 0xFFFFFFFFFFFFFFFFFFFFFFFFFFFFFFFFFFFFFFFFFFFFFFFFC7634D81F4372DDF581A0DB248B0A77AECEC196ACCC52973
def p384B : Nat := 0xB3312FA7E23EE7E4988E056BE3F82D19181D9C6EFE8141120314088F5013875AC656398D8A2ED19D2A85C8EDD3EC2AEF
def p384Gx : Nat := 0xAA87CA22BE8B05378EB1C71EF320AD746E1D3B628BA79B9859F741E082542A385502F25DBF55296C3A545E3872760AB7
def p384Gy : Nat := 0x3617DE4A96262C6F5D9E98BF9292DC29F8F41DBD289A147CE9DA3113B5F0B8C00A60B1CE1D7E819D7A431D7C90EA0E5F

/-- `b` to the power `e` modulo `m`, by `fuel` bits of `e`. -/
def powMod (m : Nat) : Nat → Nat → Nat → Nat
  | 0, _, _ => 1 % m
  | fuel + 1, b, e => (if e % 2 = 1 then b else 1) * powMod m fuel (b * b % m) (e / 2) % m

/-- The inverse modulo a prime of 384 bits. -/
def invMod (m a : Nat) : Nat := powMod m 384 a (m - 2)

/-- A point of the curve; none is the point at infinity. -/
abbrev EcPoint := Option (Nat × Nat)

/-- The sum of two points. -/
def ecAdd (a b : EcPoint) : EcPoint :=
  let p := p384P
  match a, b with
  | none, q => q
  | q, none => q
  | some (x1, y1), some (x2, y2) =>
    if x1 = x2 ∧ (y1 + y2) % p = 0 then none
    else
      let l := if x1 = x2 then (3 * x1 * x1 + (p - 3)) * invMod p (2 * y1 % p) % p
        else (y2 + p - y1) * invMod p ((x2 + p - x1) % p) % p
      let x3 := (l * l + 2 * p - x1 - x2) % p
      some (x3, (l * (x1 + p - x3) + p - y1) % p)

/-- A multiple of a point, by `fuel` bits of `k`. -/
def ecMul : Nat → Nat → EcPoint → EcPoint
  | 0, _, _ => none
  | fuel + 1, k, q => ecAdd (if k % 2 = 1 then q else none) (ecMul fuel (k / 2) (ecAdd q q))

/-- Whether a signature (r ‖ s, big-endian) over a 48-byte digest verifies under a public key (x ‖ y, big-endian). -/
def ecdsaVerify (pub digest sig : List Byte) : Bool :=
  let x := ofBe (pub.take 48)
  let y := ofBe (slice pub 48 48)
  let r := ofBe (sig.take 48)
  let t := ofBe (slice sig 48 48)
  if x < p384P ∧ y < p384P ∧ y * y % p384P = (x * x * x + (p384P - 3) * x + p384B) % p384P ∧
      1 ≤ r ∧ r < p384N ∧ 1 ≤ t ∧ t < p384N then
    let w := invMod p384N t
    match ecAdd (ecMul 384 (ofBe digest * w % p384N) (some (p384Gx, p384Gy))) (ecMul 384 (r * w % p384N) (some (x, y))) with
    | some (x1, _) => x1 % p384N == r
    | none => false
  else false

end Sys2Proof.Machine
end

