-- ==== Sys2Proof/Machine/Float.lean ====
section
/-! DEFINITION. The element types of R229 and the exact arithmetic of R237 to R239 and R245: elements as whole multiples of the
accumulator's weight, one rounding to nearest with ties to even and gradual underflow, and the binary64 sum of FADD. -/

namespace Sys2Proof.Machine

/-- A floating-point format: exponent bits, fraction bits, and how many powers of two its least subnormal lies above the weight of its
accumulator (R237). -/
structure Fmt where
  e   : Nat
  m   : Nat
  adj : Nat
  deriving DecidableEq, Repr

/-- The format of a floating-point ETYPE (R229): 4 FP16, 5 BF16, 6 FP32, 7 FP64. -/
def fmtOf (t : Nat) : Fmt := if t = 4 then ⟨5, 10, 0⟩ else if t = 5 then ⟨8, 7, 16⟩ else if t = 6 then ⟨8, 23, 0⟩ else ⟨11, 52, 0⟩

/-- The BODY width of an ETYPE's accumulator in bits and in whole bytes (R237, R244). -/
def bodyBits (t : Nat) : Nat := if t < 4 then 128 else if t = 4 then 80 else if t < 7 then 300 else 2112
def bodyBytes (t : Nat) : Nat := (bodyBits t + 7) / 8

def Fmt.sign (f : Fmt) (b : Nat) : Bool := bit b (f.e + f.m)
def Fmt.expo (f : Fmt) (b : Nat) : Nat := bits b (f.e + f.m - 1) f.m
def Fmt.frac (f : Fmt) (b : Nat) : Nat := b % 2 ^ f.m
def Fmt.isNan (f : Fmt) (b : Nat) : Bool := f.expo b == 2 ^ f.e - 1 && f.frac b != 0
def Fmt.isInf (f : Fmt) (b : Nat) : Bool := f.expo b == 2 ^ f.e - 1 && f.frac b == 0
def Fmt.signBit (f : Fmt) : Nat := 2 ^ (f.e + f.m)

/-- The magnitude of a finite element in units of the accumulator's weight. -/
def Fmt.mag (f : Fmt) (b : Nat) : Nat :=
  (if f.expo b = 0 then f.frac b else (2 ^ f.m + f.frac b) * 2 ^ (f.expo b - 1)) * 2 ^ f.adj

/-- A finite element in units of the accumulator's weight. -/
def Fmt.units (f : Fmt) (b : Nat) : Int := if f.sign b then -(f.mag b : Int) else f.mag b

/-- R238: the canonical quiet NaN, and the infinities. -/
def Fmt.nan (f : Fmt) : Nat := (2 ^ f.e - 1) * 2 ^ f.m + 2 ^ (f.m - 1)
def Fmt.inf (f : Fmt) (neg : Bool) : Nat := (2 ^ f.e - 1) * 2 ^ f.m + (if neg then f.signBit else 0)

/-- Rounds a division by a power of two to nearest, ties to even. -/
def roundShift (v q : Nat) : Nat :=
  let n := v / 2 ^ q
  let r := v % 2 ^ q
  if q = 0 then n else if 2 ^ (q - 1) < r ∨ (r = 2 ^ (q - 1) ∧ n % 2 = 1) then n + 1 else n

/-- R238 item 3: rounds a nonzero magnitude in units of the weight to the format. The result is the encoding without its sign, and
whether it overflowed, is inexact, is tiny. -/
def Fmt.round (f : Fmt) (v : Nat) : Nat × Bool × Bool × Bool :=
  let q := max f.adj (Nat.log2 v - f.m)
  let n := roundShift v q
  let (n, q) := if n = 2 ^ (f.m + 1) then (2 ^ f.m, q + 1) else (n, q)
  let inexact := n * 2 ^ q != v
  if n < 2 ^ f.m then (n, false, inexact, inexact)
  else
    let e := q - f.adj + 1
    if 2 ^ f.e - 1 ≤ e then (f.inf false, true, true, false)
    else (e * 2 ^ f.m + (n - 2 ^ f.m), false, inexact, false)

/-- R245: binary64 addition of FADD. -/
def fadd64 (a b : Nat) : Nat :=
  let f := fmtOf 7
  if f.isNan a || f.isNan b then f.nan
  else if f.isInf a then (if f.isInf b && f.sign a != f.sign b then f.nan else a)
  else if f.isInf b then b
  else
    let s := f.units a + f.units b
    if s = 0 then (if f.sign a && f.sign b then f.signBit else 0)
    else (f.round s.natAbs).1 + (if s < 0 then f.signBit else 0)

/-- A number read as signed from `n` bits. -/
def toSigned (n v : Nat) : Int := if 2 ^ (n - 1) ≤ v % 2 ^ n then (v % 2 ^ n : Nat) - (2 ^ n : Int) else (v % 2 ^ n : Nat)

/-- The order in which MIN and MAX compare elements (R238): −0 below +0, infinities as values. -/
def elemKey (t : Nat) (uns : Bool) (b : Nat) : Int :=
  if t < 4 then (if uns then (b : Int) else toSigned (8 * 2 ^ t) b)
  else
    let f := fmtOf t
    let m := b % f.signBit
    if f.sign b then -(m : Int) - 1 else m

/-- The new word of an atomic operation, and whether a CAS swapped (R245). -/
def atomNew (aop old a b : Nat) : Nat × Bool :=
  let sg (v : Nat) : Int := toSigned 64 v
  match aop with
  | 0 => ((old + a) % 2 ^ 64, false)
  | 1 => (old &&& a, false)
  | 2 => (old ||| a, false)
  | 3 => (old ^^^ a, false)
  | 4 => (if sg a < sg old then a else old, false)
  | 5 => (if sg old < sg a then a else old, false)
  | 6 => (min old a, false)
  | 7 => (max old a, false)
  | 8 => (a, false)
  | 9 => (if old = a then (b, true) else (old, false))
  | 10 => (fadd64 old a, false)
  | _ => (old, false)

end Sys2Proof.Machine
end

