-- ==== Sys2Proof/Machine/Flags.lean ====
section
/-! DEFINITION. Registers and flags: the register file, latched and condition flags with their sequence (R50), the census counters
(R480, R482), and the configuration of the fault sources (R460). -/

namespace Sys2Proof.Machine

/-! ### Fault sources (R460, R461) -/

/-- What keeps its own count: the device, a port, a tier or a channel. -/
inductive Per where
  | device | port | tier | chan
  deriving DecidableEq, Repr

/-- A row of R460: group, unit, base severity, ceiling, N and W in ms. Severities: 0 NOTE, 1 DEGRADE, 2 SEVERE, 3 FATAL. -/
structure FaultRow where
  group : Nat
  per   : Per
  base  : Nat
  ceil  : Nat
  n     : Nat
  w     : Nat
  deriving DecidableEq, Repr

/-- R460: the row of source `s`. -/
def faultRow (s : Nat) : FaultRow :=
  if s ≤ 2 then ⟨0, .device, 3, 3, 1, 1⟩
  else if s ≤ 8 then ⟨1, .device, 3, 3, 1, 1⟩
  else if s ≤ 10 then ⟨1, .device, 0, 0, 1, 60000⟩
  else if s ≤ 12 then ⟨2, .device, 3, 3, 1, 1⟩
  else if s == 13 then ⟨2, .device, 1, 2, 8, 60000⟩
  else if s == 14 then ⟨2, .device, 1, 2, 2, 60000⟩
  else if s ≤ 16 then ⟨2, .device, 0, 0, 1, 60000⟩
  else if s ≤ 19 then ⟨3, .device, 0, 0, 1, 60000⟩
  else if s ≤ 35 then
    (match (s - 20) % 4 with
      | 0 => ⟨4, .port, 0, 1, 64, 1000⟩
      | 1 => ⟨4, .port, 0, 1, 2, 60000⟩
      | 2 => ⟨4, .port, 1, 1, 1, 1000⟩
      | _ => ⟨4, .port, 0, 0, 1, 1000⟩)
  else if s ≤ 41 then ⟨5, .device, 0, 0, 1, 1000⟩
  else if s ≤ 57 then
    (match (s - 42) % 4 with
      | 0 => ⟨6, .tier, 0, 3, 2, 60000⟩
      | 1 => ⟨6, .tier, 0, 0, 1, 60000⟩
      | 2 => ⟨6, .chan, 0, 0, 1, 60000⟩
      | _ => ⟨6, .chan, 1, 2, 2, 60000⟩)
  else if s ≤ 77 then
    (match (s - 58) % 5 with
      | 0 => ⟨7, .chan, 1, 3, 16, 1⟩
      | 1 => ⟨7, .chan, 0, 2, 64, 1000⟩
      | _ => ⟨7, .chan, 0, 0, 1, 1000⟩)
  else if s ≤ 85 then
    (match (s - 78) % 2 with
      | 0 => ⟨8, .tier, 1, 1, 1, 1000⟩
      | _ => ⟨8, .tier, 0, 0, 1, 1000⟩)
  else if s == 86 then ⟨9, .device, 3, 3, 1, 1⟩
  else if s == 87 then ⟨9, .device, 0, 2, 4, 60000⟩
  else if s ≤ 91 then ⟨9, .tier, 1, 2, 3, 60000⟩
  else if s ≤ 93 then ⟨9, .device, 0, 0, 1, 1000⟩
  else if s == 94 then ⟨10, .device, 0, 0, 1, 1000⟩
  else if s == 95 then ⟨10, .device, 1, 2, 4, 1000⟩
  else if s ≤ 101 then ⟨10, .device, 0, 0, 1, 1000⟩
  else if s == 102 then ⟨11, .device, 0, 0, 1, 1000⟩
  else if s == 103 then ⟨11, .device, 3, 3, 1, 1⟩
  else if s == 104 then ⟨11, .device, 1, 3, 4, 1000⟩
  else if s == 105 then ⟨11, .device, 3, 3, 1, 1⟩
  else if s ≤ 109 then ⟨11, .tier, 1, 3, 2, 1000⟩
  else if s == 110 then ⟨11, .device, 2, 2, 1, 60000⟩
  else if s ≤ 116 then ⟨11, .device, 0, 0, 1, 1000⟩
  else if s == 117 then ⟨11, .device, 3, 3, 1, 1⟩
  else if s == 118 then ⟨11, .device, 1, 3, 2, 60000⟩
  else ⟨11, .device, 0, 3, 1, 1⟩

/-- The reset word of `FAULT.SRC[s]` (R460, R483). -/
def faultWord (s : Nat) : Word :=
  let r := faultRow s
  BitVec.ofNat 32 (r.ceil * 2 ^ 30 + r.base * 2 ^ 28 + r.w * 2 ^ 8 + r.n)

/-! ### The register file -/

/-- The address of `FAULT.SRC[s]`, if `a` is one. -/
def faultSrcOf (a : Nat) : Option Nat :=
  if 0x2100 ≤ a ∧ a < 0x2100 + 480 ∧ a % 4 = 0 then some ((a - 0x2100) / 4) else none

/-- The reset value of the register at `a` in a device of a role: the register table's, `FAULT.SRC` by R460, and
`LINK_x.CTL.ENABLE` 0 on the crown ports of a worker (R95). -/
def regReset (role a : Nat) : Word :=
  match faultSrcOf a with
  | some s => faultWord s
  | none =>
    if role = 0 ∧ (a = Reg.LINK_CTL .ca ∨ a = Reg.LINK_CTL .cb) then 0x10
    else match findReg (a % 2 ^ 25) with
      | some (r, _) => BitVec.ofNat 32 (resetWord r.fields)
      | none => 0

/-- The word held at a register address. -/
def State.reg (s : State) (a : Nat) : Word := (AMap.find a s.regs.file).getD (regReset s.id.role a)

/-- Holds a word at a register address. -/
def State.setReg (a : Nat) (w : Word) (s : State) : State :=
  { s with regs.file := AMap.set a (regReset s.id.role a) w s.regs.file }

/-- A field of a register. -/
def State.fld (s : State) (a : Nat) (f : Fld) : Nat := f.get (s.reg a)

/-- Sets a field of a register. -/
def State.setFld (a : Nat) (f : Fld) (v : Nat) (s : State) : State := s.setReg a (f.set v (s.reg a))

/-- The word in effect at a register with fields of a later apply point (R54). -/
def State.effReg (s : State) (a : Nat) : Word := (AMap.find a s.regs.eff).getD (regReset s.id.role a)

/-- A field in effect. -/
def State.effFld (s : State) (a : Nat) (f : Fld) : Nat := f.get (s.effReg a)

/-! ### Status registers (R50) -/

/-- SEQ of a status register. -/
def seqFld : Fld := ⟨31, 16⟩
/-- STALE of a status register. -/
def staleFld : Fld := ⟨15, 15⟩

/-- Advances SEQ of the status register at `a`. -/
def State.seqUp (a : Nat) (s : State) : State := s.setFld a seqFld (s.fld a seqFld + 1)

/-- An event that sets the latched flag `f` of the status register at `a`. -/
def State.raise (a : Nat) (f : Fld) (s : State) : State := (s.setFld a f 1).seqUp a

/-- A condition flag follows its condition; SEQ advances when it changes. -/
def State.cond (a : Nat) (f : Fld) (b : Bool) (s : State) : State :=
  if s.fld a f = b2n b then s else (s.setFld a f (b2n b)).seqUp a

/-- Raises a flag when a condition holds. -/
def State.raiseIf (c : Bool) (a : Nat) (f : Fld) (s : State) : State := if c then s.raise a f else s

/-! ### Census counters (R480, R482) -/

/-- Adds `n` to the counter in slot `k`; the epoch advances when the 48-bit value wraps. -/
def State.bump (k n : Nat) (s : State) : State :=
  let v := AMap.get k (0, 0) s.flt.counts
  let t := v.1 + n
  { s with flt.counts := AMap.set k (0, 0) (t % 2 ^ 48, (v.2 + t / 2 ^ 48) % 256) s.flt.counts }

def chSlot (n k : Nat) : Nat := 40 * n + k
def tierSlot (t k : Nat) : Nat := 0x500 + 32 * t + k
def portSlot (p : Port) (k : Nat) : Nat := 0x580 + 64 * portNo p + k
def classSlot (c k : Nat) : Nat := 0x680 + 8 * c + k
def devSlot (k : Nat) : Nat := 0x700 + k
def mgrSlot (k : Nat) : Nat := 0x800 + k

/-! ### Parts of the state by index -/

def State.port (s : State) : Port → PortS
  | .ca => s.net.ports.ca | .cb => s.net.ports.cb | .e => s.net.ports.e | .w => s.net.ports.w

def State.setPort (p : Port) (x : PortS) (s : State) : State :=
  match p with
  | .ca => { s with net.ports.ca := x } | .cb => { s with net.ports.cb := x }
  | .e => { s with net.ports.e := x } | .w => { s with net.ports.w := x }

def State.modPort (p : Port) (f : PortS → PortS) (s : State) : State := s.setPort p (f (s.port p))

def State.chan (s : State) (n : Nat) : ChanS := AMap.get n {} s.stack.chans
def State.modChan (n : Nat) (f : ChanS → ChanS) (s : State) : State :=
  { s with stack.chans := AMap.set n {} (f (s.chan n)) s.stack.chans }

def State.pc (s : State) (k : Nat) : PcS := AMap.get k {} s.stack.pcs
def State.modPc (k : Nat) (f : PcS → PcS) (s : State) : State :=
  { s with stack.pcs := AMap.set k {} (f (s.pc k)) s.stack.pcs }

def PcS.bank (p : PcS) (pos : Nat) : BankS := AMap.get pos {} p.banks
def PcS.modBank (pos : Nat) (f : BankS → BankS) (p : PcS) : PcS :=
  { p with banks := AMap.set pos {} (f (p.bank pos)) p.banks }

def State.bank (s : State) (k pos : Nat) : BankS := (s.pc k).bank pos
def State.modBank (k pos : Nat) (f : BankS → BankS) (s : State) : State := s.modPc k (PcS.modBank pos f)

def State.tier (s : State) (t : Nat) : TierS := AMap.get t {} s.stack.tiers
def State.modTier (t : Nat) (f : TierS → TierS) (s : State) : State :=
  { s with stack.tiers := AMap.set t {} (f (s.tier t)) s.stack.tiers }

def State.sensor (s : State) (i : Nat) : SensorS := AMap.get i {} s.sensors
def State.modSensor (i : Nat) (f : SensorS → SensorS) (s : State) : State :=
  { s with sensors := AMap.set i {} (f (s.sensor i)) s.sensors }

def State.ent (s : State) (n : Nat) : TopoE := AMap.get n {} s.topo.ents
def State.modEnt (n : Nat) (f : TopoE → TopoE) (s : State) : State :=
  { s with topo.ents := AMap.set n {} (f (s.ent n)) s.topo.ents }

def State.ctx (s : State) (q : Nat) : List Nat := AMap.get q (List.replicate 16 0) s.que.ctx
def State.setCtx (q : Nat) (c : List Nat) (s : State) : State :=
  { s with que.ctx := AMap.set q (List.replicate 16 0) c s.que.ctx }

def State.key (s : State) (k : Nat) : KeyS := AMap.get k {} s.prot.keys
def State.setKey (k : Nat) (x : KeyS) (s : State) : State := { s with prot.keys := AMap.set k {} x s.prot.keys }

def State.modPower (f : PowerS → PowerS) (s : State) : State := { s with power := f s.power }

/-- Applies a step to each element of a list, in order. -/
def forEach {α : Type} (l : List α) (f : α → State → State) (s : State) : State := l.foldl (fun s a => f a s) s

/-- Applies a step when a condition holds. -/
def when (c : Bool) (f : State → State) (s : State) : State := if c then f s else s

/-! ### Roles and modes -/

def State.isManager (s : State) : Bool := s.id.role == 2
def State.isBranch (s : State) : Bool := s.id.role == 1
def State.isWorker (s : State) : Bool := s.id.role == 0
def State.isTest (s : State) : Bool := s.id.role == 3

/-- The device's own number (`IDENT.DEVNUM`). -/
def State.num (s : State) : Nat := s.fld Reg.IDENT_DEVNUM F.IDENT_DEVNUM_NUM
/-- Whether the device has a number. -/
def State.numValid (s : State) : Bool := s.fld Reg.IDENT_DEVNUM F.IDENT_DEVNUM_NUM_VALID == 1

/-- The start is done and nothing has stopped the device (R435). -/
def State.running (s : State) : Bool := s.power.phase == .running
/-- The device drives its ports: its start sequence runs or is done (R26). -/
def State.awake (s : State) : Bool := s.power.phase == .running || s.power.phase == .starting
/-- Only the blocks of R44 answer, and only on I3C: reset, waiting for the start slot, firebreak, dead state. -/
def State.stopped (s : State) : Bool := !s.awake
/-- The device has supply for its always-on domain. -/
def State.powered (s : State) : Bool := s.power.phase != .unpowered && s.power.phase != .off

/-- The throttle stage of a tier: the higher of its thermal stage and the cap stage (R392, R403). -/
def State.throttle (s : State) (t : Nat) : Nat := max (s.tier t).stage s.power.capStage

/-- The next free value's index, and the state that has drawn it. -/
def State.draw (s : State) : Nat × State := (s.draws, { s with draws := s.draws + 1 })

end Sys2Proof.Machine
end

