-- ==== Sys2Proof/Machine/Ops.lean ====
section
/-! DEFINITION. Shared operations: the array and its metadata (R145, R148), the mapping of a line (R163) and the reserve pool
(R156 to R162), notices (R129, R130), the blaze log (R473 to R475), fault events (R460 to R467), and the stop of a device in a
firebreak or a reset (R468, R493). -/

namespace Sys2Proof.Machine

/-- The outcome `t` of a command, with the queue and the clocks as they were in `s`: a command takes no time. -/
def State.carry (s t : State) : State := { t with pending := s.pending, now := s.now, tick := s.tick }

/-- The outcome of a command that always completes. -/
def run (f : State → State) (s : State) : Host.Outcome State Fault Refusal := .next (s.carry (f s))

/-! ### The array -/

/-- Whether an initialisation covered a place. -/
def FillSel.covers (p : Place) : FillSel → Bool
  | .all => true
  | .lines a b => !p.inPool && a ≤ homeLine p && homeLine p ≤ b
  | .slot k sl => p.inPool && p.pc == k && poolOffset p / 32 == sl
  | .bank pc bg bk k a b =>
    p.inPool && p.pc == k &&
      (let l := homeLine { pc := pc, bg := bg, bk := bk, row := poolOffset p / 8, col := poolOffset p % 8 }
       a ≤ l && l ≤ b)
  | .segments n keep a b => p.chan == n && keep < p.row / 4096 && a ≤ p.row && p.row ≤ b && !p.inPool
  | .tier t ks => p.tier == t && !(p.inPool && ks.contains p.pc)

/-- The metadata word of places that are not listed. -/
def fillWord (fills : List (FillSel × Nat)) (p : Place) : Nat :=
  match fills.find? (fun f => f.1.covers p) with
  | some f => f.2
  | none => 0

/-- The data bytes of the line at a place. -/
def State.lineData (s : State) (p : Place) : List Byte :=
  (List.range 128).map (fun k => AMap.get (p.ix * 128 + k) 0 s.mem.dram)

/-- The metadata word of the line at a place (R145). -/
def State.lineMd (s : State) (p : Place) : Nat := AMap.get p.ix (fillWord s.mem.fills p) s.mem.md

/-- Stores bytes at consecutive keys of the array. -/
def storeBytes (key : Nat) : List Byte → List Host.Cell → List Host.Cell
  | [], m => m
  | b :: r, m => storeBytes (key + 1) r (AMap.set key 0 b m)

/-- R141: the codeword of a line: its data, its metadata and the check bytes, the remainder of m(x) · x^12 by g(x). -/
def State.codeword (s : State) (p : Place) : List Byte :=
  s.lineData p ++ leBytes 4 (s.lineMd p) ++ lineCheck (s.lineData p) (s.lineMd p)

/-- R141: writes a whole line: 128 data bytes and the metadata word; the check bytes follow from them (`State.codeword`). -/
def State.setLine (p : Place) (data : List Byte) (md : Nat) (s : State) : State :=
  { s with mem.dram := storeBytes (p.ix * 128) ((data ++ zeros 128).take 128) s.mem.dram,
           mem.md := AMap.set p.ix (fillWord s.mem.fills p) md s.mem.md }

/-- An initialisation (R148): every place that `f` covers holds zero data and metadata `w`. -/
def State.fill (f : FillSel) (w : Nat) (s : State) : State :=
  { s with mem.dram := s.mem.dram.filter (fun c => !f.covers (Place.ofIx (c.1 / 128))),
           mem.md := s.mem.md.filter (fun c => !f.covers (Place.ofIx c.1)),
           mem.fills := if f = .all then (if w = 0 then [] else [(f, w)]) else (f, w) :: s.mem.fills }

/-! ### The mapping and the reserve pool -/

/-- R158: whether pool block `k` is usable. -/
def State.usable (s : State) (k : Nat) : Bool :=
  let c := s.chan (k / 2)
  c.half.isNone && !c.retired && !s.pool.bad.contains k && !(s.pool.steers.any (fun e => e.2.pc == k && 8 ≤ e.2.bg))

/-- Pool blocks that hold something: remap blocks, steer targets, targets of running copies. -/
def State.blocksUsed (s : State) : List Nat :=
  s.pool.blocks ++ s.pool.steers.map (fun e => e.2.block) ++
  s.pool.jobs.filterMap (fun j => match j.2.kind with | .page _ _ => none | _ => some j.2.target)

/-- R158, R161: the usable free blocks, in rising order. -/
def State.freeBlocks (s : State) : List Nat :=
  (List.range 64).filter (fun k => s.usable k && !s.blocksUsed.contains k)

/-- R161: the block allotted to a steer from a tier: the highest of another tier, or else the highest. -/
def State.steerTarget (s : State) (tier : Nat) : Option Nat :=
  let f := s.freeBlocks.reverse
  match f.find? (fun k => k / 16 != tier) with
  | some k => some k
  | none => f.head?

/-- Remap entries consumed (R159). -/
def State.remapUsed (s : State) : Nat := s.pool.remaps.length

/-- The condition flags of `NDL.LINE_STATUS` that follow the pool (R165). -/
def State.poolFlags (s : State) : State :=
  let a := Reg.NDL_LINE_STATUS
  ((s.cond a F.NDL_LINE_STATUS_COPYING (!s.pool.jobs.isEmpty)).cond a F.NDL_LINE_STATUS_REMAP_FULL (decide (16384 ≤ s.remapUsed))).cond
    a F.NDL_LINE_STATUS_POOL_LOW s.freeBlocks.isEmpty

/-- The copy that moves a whole block or bank out of block `old`, if one runs. -/
def State.blockJob (s : State) (old : Nat) : Option CopyJob :=
  (s.pool.jobs.find? (fun j => match j.2.kind with
    | .remapBlock _ o => o == old | .steerBlock _ o => o == old | .bank _ (some o) => o == old | _ => false)).map (·.2)

/-- R161: the place of offset `j` of a block while it may be relocating: below the watermark the target, above it the old block;
the line being copied waits. -/
def State.blockPlace (s : State) (block j : Nat) : Option Place :=
  match s.blockJob block with
  | none => some (poolPlace block j)
  | some job => if j < job.next then some (poolPlace job.target j) else if j = job.next then none else some (poolPlace block j)

/-- The steer entry of a bank (R160). -/
def State.steerOf (s : State) (p : Place) : Option (Nat × SteerE) :=
  s.pool.steers.find? (fun e => e.2.pc == p.pc && e.2.bg == p.bg && e.2.bk == p.bk)

/-- Where the bank of a home place lies now (R160, R161, R163 item 2). -/
def State.steered (s : State) (p : Place) : Option Place :=
  match s.steerOf p with
  | none => some p
  | some (i, e) =>
    let j := 8 * p.row + p.col
    if e.done then s.blockPlace e.block j
    else match (s.pool.jobs.find? (fun w => w.2.kind = .bank i none)) with
      | some (_, w) => if j < w.next then some (poolPlace e.block j) else if j = w.next then none else some p
      | none => s.blockPlace e.block j

/-- The remap entry that redirects a page, the one being copied before the one it replaces (R159). -/
def State.remapOf (s : State) (page : Nat) : Option (Nat × RemapE) :=
  match s.pool.remaps.find? (fun e => e.2.page == page && e.2.valid && !e.2.done) with
  | some e => some e
  | none => s.pool.remaps.find? (fun e => e.2.page == page && e.2.valid)

/-- R163: where a line lies now; none while it must wait for a copy (R161). -/
def State.mapLine (s : State) (l : Nat) : Option Place :=
  match s.remapOf (l / 32) with
  | some (_, e) => if e.done then s.blockPlace e.block (32 * e.slot + l % 32) else none
  | none => s.steered (placeOf l)

/-- R161: where the copy of a page reads a line: the mapping without the entry being installed. -/
def State.pageSource (s : State) (l : Nat) : Option Place :=
  match s.pool.remaps.find? (fun e => e.2.page == l / 32 && e.2.valid && e.2.done) with
  | some (_, e) => s.blockPlace e.block (32 * e.slot + l % 32)
  | none => s.steered (placeOf l)

/-- Where the copy of a line that is itself being copied reads it. -/
def State.copyFrom (s : State) (l : Nat) : Place :=
  match s.remapOf (l / 32) with
  | some (_, e) => (s.pageSource l).getD (poolPlace e.block (32 * e.slot + l % 32))
  | none =>
    let p := placeOf l
    match s.steerOf p with
    | none => p
    | some (_, e) => if e.done then poolPlace e.block (8 * p.row + p.col) else p

/-- R163: the place of a line; while a copy is in the way, the one that the copy reads. -/
def State.linePlace (s : State) (l : Nat) : Place := (s.mapLine l).getD (s.copyFrom l)

/-- The lines that a pool place may serve: those of the entries, whatever block they lie in. -/
def State.poolLines (s : State) (p : Place) : List Nat :=
  let j := poolOffset p
  (s.pool.remaps.filter (fun e => e.2.valid && e.2.slot == j / 32)).map (fun e => 32 * e.2.page + j % 32) ++
  s.pool.steers.map (fun e => homeLine { pc := e.2.pc, bg := e.2.bg, bk := e.2.bk, row := j / 8, col := j % 8 })

/-- The local address of the line that a place serves now: its home line, or the line that the mapping of R163 gives a pool place, that of a
copy that runs included. -/
def State.lineAt (s : State) (p : Place) : Option Nat :=
  if p.inPool then (s.poolLines p).find? (fun l => s.linePlace l == p) else some (homeLine p)

/-- R178: an excluded event has touched a request of a class. `NDL.PATH_STATUS` acts in the manager only (R181). DESIGN CHOICE: an event that
another device meets as owner or on the route leaves it as it is, for the manual names no message that tells the manager. -/
def State.exclude (sc : Nat) (s : State) : State :=
  if sc < 4 ∧ s.isManager then s.raise Reg.NDL_PATH_STATUS F.NDL_PATH_STATUS_EXCLUDED else s

/-! ### Notices (R128 to R131) -/

/-- Sixteen payload bytes. -/
def payload (l : List Byte) : List Byte := (l ++ zeros 16).take 16

/-- R129, R130: an event of type `t` at this device. -/
def State.notice (t sev : Nat) (pl : List Byte) (s : State) : State :=
  let q := (AMap.get t 0 s.flt.nseq + 1) % 65536
  let n : NoticeS := match AMap.find t s.flt.notices with
    | some o => { o with sev := max o.sev sev, nseq := q, count := min 65535 (o.count + 1), payload := payload pl }
    | none => { sev := sev, nseq := q, count := 1, payload := payload pl, first := s.now, dev := s.num, src := s.num, ntype := t }
  let s := if (AMap.find t s.flt.notices).isSome then s.bump (devSlot t) 1 else s
  { s with flt.nseq := AMap.set t 0 q s.flt.nseq, flt.notices := AMap.put t n s.flt.notices }

/-- R130: a notice reaches the manager's slots toward the host: merged per device and type, or counted and discarded when masked. -/
def State.hostNotice (n : NoticeS) (s : State) : State :=
  if !bit (s.reg Reg.NDL_NTC_EN).toNat n.ntype then
    (s.bump (devSlot (32 + n.ntype)) n.count).raise Reg.NDL_STATUS F.NDL_STATUS_MASKED
  else if s.flt.hostNtc.any (fun o => o.dev == n.dev && o.ntype == n.ntype) then
    let l := s.flt.hostNtc.map (fun o =>
      if o.dev == n.dev && o.ntype == n.ntype then
        { o with sev := max o.sev n.sev, nseq := n.nseq, count := min 65535 (o.count + n.count), payload := n.payload }
      else o)
    ({ s with flt.hostNtc := l }).bump (devSlot n.ntype) 1
  else { s with flt.hostNtc := s.flt.hostNtc ++ [n] }

/-- R128, R129: a notice that the manager raises on behalf of device `d`. -/
def State.noticeFor (d t sev : Nat) (pl : List Byte) (s : State) : State :=
  let k := d * 256 + t
  let q := (AMap.get k 0 s.flt.devNseq + 1) % 65536
  let s := { s with flt.devNseq := AMap.set k 0 q s.flt.devNseq }
  s.hostNotice { sev := sev, nseq := q, count := 1, payload := payload pl, first := s.now, dev := d, src := 0, ntype := t }

/-! ### The blaze log (R473 to R475) -/

/-- The 32 bytes of an entry as eight words. -/
def blazeEntry (tick eseq src grp unit sev code count : Nat) (args : List Byte) : BlazeE :=
  toWords 8 (leBytes 6 tick ++ leBytes 2 eseq ++ leBytes 1 src ++ leBytes 1 grp ++ leBytes 1 unit ++ leBytes 1 sev ++
    leBytes 2 code ++ leBytes 2 (min count 65535) ++ payload args)

/-- R475: the index of the next entry. -/
def BlazeS.nextIx (b : BlazeS) : Nat :=
  match b.f1 with
  | none => if b.entries.isEmpty then 0 else (b.newest + 1) % 2048
  | some n =>
    let d := (b.newest + 2048 - n) % 2048
    (n + (if 1024 ≤ d then 1 else d + 1)) % 2048

/-- R475: an entry that finds no room is dropped. -/
def State.blazeDrop (s : State) : State :=
  (({ s with flt.blaze.drops := min (2 ^ 32 - 1) (s.flt.blaze.drops + 1) }).bump (devSlot 143) 1).raise Reg.BLAZE_STATUS F.BLAZE_STATUS_DROPPED

/-- R474: an entry takes the next index. -/
def State.blazeWrite (src grp unit sev code count : Nat) (args : List Byte) (s : State) : State :=
  { s with flt.blaze.entries := AMap.put s.flt.blaze.nextIx
              (blazeEntry s.tick s.flt.blaze.next src grp unit (sev + 8 * b2n (!s.power.pll)) code count args) s.flt.blaze.entries,
            flt.blaze.newest := s.flt.blaze.nextIx, flt.blaze.next := (s.flt.blaze.next + 1) % 65536 }

/-- R474: an entry takes the next index, and is counted. -/
def State.blazePut (src grp unit sev code count : Nat) (args : List Byte) (s : State) : State :=
  (s.blazeWrite src grp unit sev code count args).bump (devSlot 142) 1

/-- Writes an entry; the second component is its index, or none where it was dropped (R475). -/
def State.blazeAt (src grp unit sev code count : Nat) (args : List Byte) (s : State) : State × Option Nat :=
  if s.flt.blaze.f2.isSome then (s.blazeDrop, none)
  else (s.blazePut src grp unit sev code count args, some s.flt.blaze.nextIx)

/-- The condition flags of `BLAZE.STATUS` (R484). -/
def State.blazeFlags (s : State) : State :=
  (s.cond Reg.BLAZE_STATUS F.BLAZE_STATUS_FROZEN s.flt.blaze.f1.isSome).cond Reg.BLAZE_STATUS F.BLAZE_STATUS_FULL_FROZEN
    s.flt.blaze.f2.isSome

/-- R475: a freeze protects the 1,024 entries that end with the newest. -/
def State.blazeFreeze (s : State) : State :=
  (match s.flt.blaze.f1 with
    | none => { s with flt.blaze.f1 := some s.flt.blaze.newest }
    | some _ => match s.flt.blaze.f2 with
      | none => { s with flt.blaze.f2 := some s.flt.blaze.newest }
      | some _ => s).blazeFlags

/-! ### Stopping a device (R468, R493) -/

/-- Every write not yet issued in a tier: bank queues and admission queues, oldest first (R170). DESIGN CHOICE: a write that no bank queue has
accepted yet, of which no response has left, is held like the accepted ones. -/
def State.waitingWrites (s : State) (t : Nat) : List Acc :=
  let q := (s.stack.pcs.filter (fun k => k.1 / 16 == t)).flatMap (fun k => k.2.banks.flatMap (fun b => b.2.queue))
  let a := (s.stack.chans.filter (fun n => n.1 / 8 == t)).flatMap (fun n => n.2.admission)
  (sortBy (fun x y => x.id ≤ y.id) ((q ++ a ++ (s.tier t).buffer).filter (fun x => x.wr.isSome))).map (fun x => { x with origin := .done })

/-- The time that a channel's saturation flag has stood and the time it has spent in self-refresh, in whole µs, enter the counters (R191,
R305); what is left of a µs counts later. -/
def State.tallyChan (n : Nat) (s : State) : State :=
  let c := s.chan n
  let a := if c.sat then (s.now - c.satAt) / 1000 else 0
  let b := if c.pstate = .selfRefresh then (s.now - c.srFrom) / 1000 else 0
  ((s.modChan n (fun c => { c with satAt := c.satAt + a * 1000, srFrom := c.srFrom + b * 1000 })).bump (chSlot n 28) a).bump (chSlot n 5) b

/-- Brings the counters of time up to now, for a latch (R478) or a look at them. -/
def State.tally (s : State) : State :=
  forEach ((s.stack.chans.filter (fun c => c.2.sat || c.2.pstate == .selfRefresh)).map (·.1)) State.tallyChan s

/-- R468, R493: a channel stopped into self-refresh. -/
def ChanS.halt (n : Nat) (c : ChanS) : ChanS :=
  { c with pstate := if c.retired then .retired else .selfRefresh, admission := [], srAt := n, srFrom := n, wantExit := false, visit := none,
           switchAt := none, pauseTill := 0, quietTill := 0,
           levels := [0, 0, 0, 0], sat := false }

/-- What every stop of a device does (R468 steps 1, 2 and 4, R493): ports idle, merge entries discarded, accepted writes held in their tier, every
other access and request gone, engines stopped, channels in self-refresh, relays closed, ALIVE low, THERM_N released but for a trip (R407, R488).
A tally that has left the residue is still to be blown (R412). The THERM block does not answer until the start that resets it (R44). -/
def State.stopCore (s : State) : State :=
  let s := forEach (List.range 4) (fun t s => s.modTier t (fun x =>
    { x with held := x.held ++ s.waitingWrites t, buffer := [], run := none, waiting := [] })) s
  let s := forEach (List.range 32) (fun n s => (s.tallyChan n).modChan n (ChanS.halt s.now)) s
  let s := when s.power.relays (fun s => (s.bump (portSlot .e 36) 1).bump (portSlot .w 36) 1) s
  let pin := s.power.thermN && s.power.tripHold
  { s with
    net := { ports := {}, air := { rows := s.net.air.rows }, mgrPort := s.net.mgrPort, inbox := [], tx := s.net.tx }
    stack.pcs := [], stack.bursts := []
    own := {}, mgr := {}, eng := {}
    que := { ctx := s.que.ctx, flash := s.que.flash, density := s.que.density }
    prot.jobs := [], prot.win := none, prot.keys := [], prot.maps := [], prot.own := if s.isManager then [] else s.prot.own
    fuse.prog := none, fuse.blowers := (s.fuse.blowers.filter (fun b => decide (1 ≤ b.1))).map (fun b => (b.1, { want := b.2.want + b2n b.2.cur.isSome }))
    flt.notices := [], flt.hostNtc := [], flt.census := none
    pool.jobs := s.pool.jobs
    power.thermN := pin, power.relays := false, power.relayAt := none, power.alive := false, power.entry := .none, power.acks := [], power.held := [], power.transit := false,
    power.tE := none, power.wakeNow := none, power.resetAt := none }

/-! ### Fault events (R460 to R469) -/

/-- R465: whether a DEGRADE classification of a source excludes an element. -/
def excludes (src : Nat) : Bool :=
  (decide (20 ≤ src) && decide (src < 36) && decide ((src - 20) % 4 < 3)) || (decide (42 ≤ src) && decide (src < 58) && (src - 42) % 4 == 0) ||
  (decide (78 ≤ src) && decide (src < 86) && (src - 78) % 2 == 0) || (decide (106 ≤ src) && decide (src < 110)) || src == 118 || src == 13 ||
  (decide (45 ≤ src) && decide (src < 58) && (src - 42) % 4 == 3) || (decide (88 ≤ src) && decide (src < 92)) || src == 95 || src == 104

/-- R465: what a DEGRADE classification of a source excludes; `elem` names the lane of the event where the source needs one. -/
def State.excludeElem (src unit elem : Nat) (s : State) : State :=
  if 20 ≤ src ∧ src < 36 ∧ (src - 20) % 4 < 3 then
    s.modPort (allPorts.getD ((src - 20) / 4) .ca) (fun x => { x with excluded := setBits x.excluded elem elem 1 })
  else if (42 ≤ src ∧ src < 58 ∧ (src - 42) % 4 = 0) ∨ (78 ≤ src ∧ src < 86 ∧ (src - 78) % 2 = 0) then
    s.modTier unit (fun t => { t with excluded := true })
  else if 106 ≤ src ∧ src < 110 ∨ src = 118 then s.modTier (unit % 4) (fun t => { t with excluded := true })
  else s

/-- R462: the window that an event of a source's unit falls into, the event counted. -/
def State.faultWin (src key : Nat) (s : State) : WindowS :=
  let cfg := s.reg (Reg.FAULT_SRC src)
  let new : WindowS := { start := s.tick, k := 1, n := F.FAULT_SRC_N.get cfg, w := F.FAULT_SRC_W_MS.get cfg, ceil := F.FAULT_SRC_CEIL.get cfg }
  match AMap.find key s.flt.windows with
  | some w => if s.tick < w.start + w.w * 10000 then { w with k := w.k + 1 } else new
  | none => new

/-- R463: the counters, flags and FAULT.LAST of an event that is classified. -/
def State.faultMark (src unit cls : Nat) (prom : Bool) (s : State) : State :=
  (when prom (fun s => (s.bump (devSlot 141) 1).raise Reg.FAULT_STATUS F.FAULT_STATUS_PROMOTED)
    ((s.bump (devSlot 140) 1).raise Reg.FAULT_STATUS F.FAULT_STATUS_EVENT)).setReg Reg.FAULT_LAST
      (BitVec.ofNat 32 (cls * 2 ^ 30 + b2n prom * 2 ^ 29 + unit % 256 * 2 ^ 16 + src))

/-- The window of an event, kept. -/
def State.keepWindow (key : Nat) (w : WindowS) (s : State) : State := { s with flt.windows := AMap.put key w s.flt.windows }

/-- R467: the count of an entry of the blaze log, counted up. -/
def State.recount (entry : Option Nat) (k : Nat) (s : State) : State :=
  match entry with
  | none => s
  | some i => match AMap.find i s.flt.blaze.entries with
    | none => s
    | some e => { s with flt.blaze.entries := AMap.put i (e.set 3 (setBits (e.getD 3 0) 31 16 (min k 65535))) s.flt.blaze.entries }

/-- R467: the entry of an event in the blaze log, new or counted up. -/
def State.faultLog (src unit cls : Nat) (prom : Bool) (key : Nat) (w : WindowS) (pl : List Byte) (s : State) : State × Bool :=
  if 1 ≤ cls ∨ prom = true ∨ w.k = 1 then
    let r := s.blazeAt src (faultRow src).group unit (cls + 4 * b2n prom) 1 w.k pl
    (r.1.keepWindow key { w with entry := r.2 }, r.2.isNone)
  else ((s.recount w.entry w.k).keepWindow key w, false)

/-- The classification of an event (R462): its severity, whether it was promoted, and its window. -/
def State.faultClass (src unit : Nat) (s : State) : Nat × Bool × WindowS :=
  let w := s.faultWin src (src * 256 + (if src = 118 then 0 else unit))
  let cls := min w.ceil ((faultRow src).base + w.k / w.n)
  (cls, decide ((faultRow src).base < cls), w)

/-- The part of a fault event before the reaction: counting, flags, the log (R462, R463, R467). The second component says whether a
blaze-log entry was dropped. -/
def State.faultCount (src unit : Nat) (pl : List Byte) (s : State) : State × Bool :=
  let c := s.faultClass src unit
  (s.faultMark src unit c.1 c.2.1).faultLog src unit c.1 c.2.1 (src * 256 + (if src = 118 then 0 else unit)) c.2.2 pl

/-- R468: the device stands in the firebreak of this tick; an unpowered one stays unpowered. -/
def State.toFirebreak (s : State) : State :=
  { s with power.phase := if s.power.phase = .unpowered then s.power.phase else .firebreak, power.fbTick := some s.tick }

/-- R468: the firebreak that a FATAL classification of a source starts. -/
def State.firebreak (src unit : Nat) (s : State) : State :=
  (s.blazeAt 255 255 0 3 2 0 (leBytes 6 s.tick ++ leBytes 1 src ++ leBytes 1 unit)).1.blazeFreeze.stopCore.toFirebreak

/-- The FAULT notice of a classification (R467, R131). -/
def State.faultNotice (src cls : Nat) (prom : Bool) (k : Nat) (s : State) : State :=
  when ((prom && decide (cls < 3)) || cls == 2)
    (State.notice 0x04 cls (leBytes 2 src ++ leBytes 1 (faultRow src).group ++ leBytes 1 cls ++ leBytes 2 (min k 65535))) s

/-- R465: the reaction to a DEGRADE classification. -/
def State.degrade (src unit elem : Nat) (s : State) : State :=
  when (excludes src) (fun s => (s.bump (devSlot 137) 1).raise Reg.FAULT_STATUS F.FAULT_STATUS_EXCLUDED) (s.excludeElem src unit elem)

/-- R466: the reaction to a SEVERE classification: admission stops. -/
def State.severe (s : State) : State :=
  (({ s with flt.admitStop := true }).raise Reg.FAULT_STATUS F.FAULT_STATUS_SEVERE).cond Reg.FAULT_STATUS F.FAULT_STATUS_ADMIT_STOP true

/-- The reaction to a classification (R465 to R468), after its notice. -/
def State.reactTo (src unit elem cls : Nat) (s : State) : State :=
  if cls = 1 then s.degrade src unit elem else if cls = 2 then s.severe else if cls = 3 then s.firebreak src unit else s

/-- The notice of a classification and the reaction to it (R465 to R468). -/
def State.react (src unit elem cls : Nat) (prom : Bool) (k : Nat) (s : State) : State :=
  (s.faultNotice src cls prom k).reactTo src unit elem cls

/-- The FATAL classifications of a firebreak in ascending source number (R464). -/
def fatalInsert (e : Nat × Nat × List Byte) : List (Nat × Nat × List Byte) → List (Nat × Nat × List Byte)
  | [] => [e]
  | x :: r => if e.1 < x.1 then e :: x :: r else x :: fatalInsert e r

/-- The FATAL entries of a firebreak, the FIREBREAK entry and the freeze (R464, R468 step 3), from the log `b` before them. -/
def State.fatalEntries (b : BlazeS) (l : List (Nat × Nat × List Byte)) (s : State) : State :=
  let s := forEach l (fun e s => s.blazeWrite e.1 (faultRow e.1).group e.2.1 3 1 1 e.2.2) { s with flt.blaze := b }
  match l with
  | [] => s
  | e :: _ => (s.blazeWrite 255 255 0 3 2 0 (leBytes 6 s.tick ++ leBytes 1 e.1 ++ leBytes 1 e.2.1)).blazeFreeze

/-- R464, R468: a further FATAL classification on the tick of the firebreak: its entry is one of those that the freeze protects. -/
def State.fatalLate (src unit : Nat) (pl : List Byte) (s : State) : State :=
  match s.flt.before with
  | none => s
  | some b =>
    let l := fatalInsert (src, unit, pl) s.flt.fatals
    if b.f2.isSome then s.blazeDrop else ({ s with flt.fatals := l }.fatalEntries b l).bump (devSlot 142) 1

/-- What a firebreak keeps of its first FATAL classification and of the blaze log before it (R464). -/
def State.fatalFirst (cls src unit : Nat) (pl : List Byte) (s : State) : State :=
  when (cls == 3) (fun s => { s with flt.before := some s.flt.blaze, flt.fatals := [(src, unit, pl)] }) s

/-- A fault event; `fuel` bounds the events of source 113 that dropped entries make. -/
def State.faultN : Nat → Nat → Nat → List Byte → Nat → State → State
  | 0, _, _, _, _, s => s
  | fuel + 1, src, unit, pl, elem, s =>
    if s.awake then
      let c := s.faultClass src unit
      let r := (s.fatalFirst c.1 src unit pl).faultCount src unit pl
      (if r.2 = true ∧ c.1 ≠ 3 then r.1.faultN fuel 113 0 [] 0 else r.1).react src unit elem c.1 c.2.1 c.2.2.k
    else if s.power.phase = .firebreak ∧ s.power.fbTick = some s.tick ∧ (s.faultClass src unit).1 = 3 then s.fatalLate src unit pl
    else s

/-- R463: an event of a fault source at a unit, with the payload of its notice, and the lane it names where it names one. -/
def State.faultE (src unit : Nat) (pl : List Byte) (elem : Nat) (s : State) : State := s.faultN 3 src unit pl elem

/-- R463: an event of a fault source at a unit, with the payload of its notice. -/
def State.fault (src unit : Nat) (pl : List Byte) (s : State) : State := s.faultN 3 src unit pl 0

end Sys2Proof.Machine
end

