-- ==== Sys2Proof/Machine/Wire.lean ====
section
/-! DEFINITION. What travels on the lanes: the header blocks of messages (R99, R102, R103, R112, R115, R119, R124, R128), the blocks of
R74, frames with their scrambler, code and levels (R70 to R73), and the test patterns (R93). -/

namespace Sys2Proof.Machine

/-! ### Header blocks (R99) -/

/-- OP of an operation within its class; QUIET has none, and stands for no header. -/
def MOp.code : MOp → Nat
  | .rd64 => 0 | .rd128 => 1 | .wr64 => 2 | .wr128 => 3 | .fence => 4 | .hint => 5
  | .rdata => 0 | .wdone => 1 | .fdone => 2 | .err => 3
  | .sealGood => 0 | .sealBad => 1 | .sealVoid => 2
  | .crd => 0 | .cwr => 1 | .crdRsp => 8 | .cwrRsp => 9
  | .ntc => 0
  | .shard => 0 | .shardDone => 1 | .part => 2 | .abort => 3
  | .credit => 0 | .ack => 1 | .nak => 2 | .replay => 3 | .census => 4 | .pwr => 5 | .quiet => 15

/-- Every operation of the chapter. -/
def allOps : List MOp :=
  [.rd64, .rd128, .wr64, .wr128, .fence, .hint, .rdata, .wdone, .fdone, .err, .sealGood, .sealBad, .sealVoid, .crd, .cwr, .crdRsp, .cwrRsp,
   .ntc, .shard, .shardDone, .part, .abort, .credit, .census, .pwr, .ack, .nak, .replay]

/-- The operation that byte 0 of a header names: none for class 0b111 and for an operation that is not listed (R100). -/
def headerOp (b0 : Nat) : Option MOp := allOps.find? (fun o => o.cls == bits b0 6 4 && o.code == bits b0 3 0)

/-- The code of an agent (R99). -/
def agentCode : Agent → Nat
  | .switch => 0 | .warden => 1 | .queue => 2 | .engine => 3

/-- Bytes 8 to 31 of a header block (R102, R103, R112, R115, R117, R119, R124, R128). -/
def Msg.body (m : Msg) : List Byte :=
  let b : List Byte := match m.op.cls with
    | 3 => leBytes 4 m.addr ++ (ofWords m.words ++ zeros 16).take 16 ++ leBytes 2 (m.way.getD 0) ++ leBytes 1 m.status
    | 4 => (match m.ntc with
        | some n => leBytes 1 n.ntype ++ leBytes 1 n.sev ++ leBytes 1 n.dev ++ [0] ++ leBytes 2 n.nseq ++ leBytes 2 n.count ++ n.payload
        | none => [])
    | 5 => (match m.eng with
        | some g => leBytes 2 g.queue ++ leBytes 4 g.dseq.toNat ++ leBytes 2 g.index ++ leBytes 2 g.epoch ++ leBytes 1 g.part ++ [g.status] ++
            (if m.op = .part then leBytes 1 (m.words.getD 0 0) ++ leBytes 1 (m.words.getD 1 0) else ofWords m.words)
        | none => [])
    | 6 => (match m.op with
        | .credit => m.words.flatMap (leBytes 2)
        | .census => leBytes 4 (m.words.getD 0 0) ++ leBytes 6 (m.words.getD 1 0)
        | .pwr => leBytes 1 (m.words.getD 0 0) ++ leBytes 1 (m.words.getD 1 0)
        | _ => leBytes 2 m.addr)
    | _ => if m.op = .hint then leBytes 2 (m.words.headD 0) else leBytes 8 m.addr ++ leBytes 1 m.status ++ zeros 3 ++ leBytes 8 m.tag64
  (b ++ zeros 24).take 24

/-- The 32 bytes of a message's header block (R99). -/
def Msg.header (m : Msg) : List Byte :=
  leBytes 1 (m.op.cls * 16 + m.op.code) ++ leBytes 1 (m.h.ndata % 8 + (if m.op.cls ≤ 1 then m.h.sc.val * 16 else 0)) ++ leBytes 2 m.h.tag.toNat ++
  leBytes 1 (m.h.src.val + 64 * b2n m.h.srcHost) ++ leBytes 1 (m.h.dst.val + 64 * b2n m.h.dstHost) ++
  leBytes 1 (agentCode m.h.agent + 4 * b2n m.way.isSome) ++ [m.h.flags] ++ m.body

/-- The common header that the first 8 bytes of a header block spell, on a port (R99). -/
def headerHdr (p : Port) (b : List Byte) : Hdr :=
  let n (k : Nat) : Nat := leAt b k 1
  { port := p, ndata := n 1 % 8, sc := Fin.ofNat 16 (bits (n 1) 7 4), tag := BitVec.ofNat 16 (leAt b 2 2), src := Fin.ofNat 64 (n 4 % 64),
    srcHost := bit (n 4) 6, dst := Fin.ofNat 64 (n 5 % 64), dstHost := bit (n 5) 6,
    agent := (match n 6 % 4 with | 0 => .switch | 1 => .warden | 2 => .queue | _ => .engine), flags := BitVec.ofNat 8 (n 7) }

/-! ### Blocks (R74) -/

/-- A block: its header (0b01 control, 0b10 data) and its 32 payload bytes. -/
structure WBlock where
  header : Nat
  bytes  : List Byte
  deriving DecidableEq, Repr

/-- A control block of a type. -/
def ctlBlock (b : List Byte) : WBlock := { header := 1, bytes := (b ++ zeros 32).take 32 }
def idleBlock : WBlock := ctlBlock [0x80]
def trainBlock (lane : Nat) (crownB : Bool) (count : Nat) : WBlock := ctlBlock ([0x81] ++ leBytes 1 (lane + 8 * b2n crownB) ++ leBytes 2 count)
def capBlk (cap : List Byte) : WBlock := ctlBlock cap
def stepBlock : WBlock := ctlBlock [0x83]
def quietBlock : WBlock := ctlBlock [0x84]

/-- The type of a control block: payload byte 0. -/
def WBlock.ty (b : WBlock) : Nat := (b.bytes.headD 0).toNat

/-- R74: whether a block is discarded: an invalid header, or a reserved type. -/
def WBlock.bad (b : WBlock) : Bool := b.header == 0 || b.header == 3 || (b.header == 1 && decide (0x85 ≤ b.ty))

/-- R87: whether a block makes its row a sequenced one: any but IDLE and the replay markers. -/
def WBlock.sequenced (b : WBlock) : Bool := !(b.header == 1 && [0x80, 0x61, 0x62, 0x63].contains b.ty)

/-- R100, R101: whether a block is a header that no port takes, of which there is no command: one of class 0b111 or of an operation that is not
listed; a SEAL, which only the host receives; and an NTC or LNK header with data blocks. -/
def WBlock.refused (b : WBlock) : Bool :=
  b.header == 1 && decide (b.ty < 0x80) &&
  (match headerOp b.ty with
    | none => true
    | some op => op.cls == 2 || ((op.cls == 4 || op.cls == 6) && leAt b.bytes 1 1 % 8 != 0))

/-- The blocks of a message: its header block, then its data blocks, the last filled up with zeros (R98, R244). -/
def Msg.blocks (m : Msg) : List WBlock :=
  if m.op = .quiet then [quietBlock]
  else ctlBlock m.header ::
    (List.range ((m.data.length + 31) / 32)).map (fun k => { header := 2, bytes := (slice m.data (32 * k) 32 ++ zeros 32).take 32 })

/-! ### Frames (R70 to R73) -/

/-- The number that bits spell, the first in bit 0. -/
def bitsLe (l : List Bool) : Nat := l.foldr (fun b a => 2 * a + b2n b) 0

/-- The number that bits spell, the first the most significant. -/
def bitsBe (l : List Bool) : Nat := l.foldl (fun a b => 2 * a + b2n b) 0

/-- The bits of bytes in order of transmission (R71). -/
def byteBits (l : List Byte) : List Bool := l.flatMap (fun b => (List.range 8).map (fun n => b.getLsbD n))

/-- The bytes that bits spell. -/
def bitBytes : Nat → List Bool → List Byte
  | 0, _ => []
  | n + 1, l => BitVec.ofNat 8 (bitsLe (l.take 8)) :: bitBytes n (l.drop 8)

/-- The bits of symbols of the frame code in order of transmission: ten of each, the most significant first (R72). -/
def symBits (f : List Nat) : List Bool := f.flatMap (fun v => (List.range 10).map (fun i => bit v (9 - i)))

/-- The symbols that bits spell. -/
def bitSyms : Nat → List Bool → List Nat
  | 0, _ => []
  | n + 1, l => bitsBe (l.take 10) :: bitSyms n (l.drop 10)

/-- R73: scrambles payload bits by x^58 + x^39 + 1: `st` holds the last 58 bits sent, the newest in bit 0. -/
def scramble : List Bool → Nat → List Bool × Nat
  | [], st => ([], st)
  | b :: r, st =>
    let o := b != (bit st 38 != bit st 57)
    let (out, st') := scramble r ((2 * st + b2n o) % 2 ^ 58)
    (o :: out, st')

/-- R73: descrambles payload bits: `st` holds the last 58 received, the newest in bit 0. -/
def descramble : List Bool → Nat → List Bool × Nat
  | [], st => ([], st)
  | b :: r, st =>
    let (out, st') := descramble r ((2 * st + b2n b) % 2 ^ 58)
    ((b != (bit st 38 != bit st 57)) :: out, st')

/-- The field of the frame code: x^10 + x^3 + 1 (R72). -/
def gfFrame : GF := ⟨10, 0x409⟩

/-- R71, R73: the 1,290 bits of five blocks, scrambled, and the scrambler after them. -/
def blocksBits (bs : List WBlock) (st : Nat) : List Bool × Nat :=
  bs.foldl (fun (x : List Bool × Nat) b =>
    let (pl, st) := scramble (byteBits b.bytes) x.2
    (x.1 ++ [bit b.header 1, bit b.header 0] ++ pl, st)) ([], st)

/-- R72: the 137 symbols of a frame of five blocks. -/
def frameSyms (bs : List WBlock) (st : Nat) : List Nat :=
  let m := bitSyms 129 (blocksBits bs st).1
  m ++ gfFrame.check 8 m

/-- R70: the levels of a frame's bit pairs under the Gray code. -/
def grayLevels : List Bool → List Nat
  | a :: b :: r => (if a then (if b then 2 else 3) else if b then 1 else 0) :: grayLevels r
  | _ => []

/-- R70: the bit pairs of levels. -/
def grayBits (l : List Nat) : List Bool := l.flatMap (fun v => [decide (2 ≤ v), v == 1 || v == 2])

/-- R70: precoding, y(s) = (x(s) − y(s − 1)) mod 4, after a level sent. -/
def precode : Nat → List Nat → List Nat
  | _, [] => []
  | y, x :: r => let z := (x + 4 - y % 4) % 4; z :: precode z r

/-- R70: what a receiver makes of precoded levels, x(s) = (y(s) + y(s − 1)) mod 4, after a level received. -/
def unprecode : Nat → List Nat → List Nat
  | _, [] => []
  | y, z :: r => (z + y) % 4 :: unprecode z r

/-- The 685 levels of a frame of five blocks: `st` is the scrambler before it, `pre` the level sent before it where precoding is on. -/
def frameOut (bs : List WBlock) (st : Nat) (pre : Option Nat) : List Nat :=
  let x := grayLevels (symBits (frameSyms bs st))
  match pre with
  | some y => precode y x
  | none => x

/-- A frame of five blocks on a lane, precoded or not, and the lane after it (R70 to R73). -/
def LaneTxS.frame (bs : List WBlock) (pre : Bool) (t : LaneTxS) : List Nat × LaneTxS :=
  let x := frameOut bs t.scr (if pre then some t.level else none)
  (x, { scr := (blocksBits bs t.scr).2, level := x.getLastD t.level })

/-- A lane after `n` more frames, frame `c` and those that follow it. -/
def LaneTxS.frames (f : Nat → List WBlock) (pre : Bool) : Nat → Nat → LaneTxS → LaneTxS
  | 0, _, t => t
  | n + 1, c, t => LaneTxS.frames f pre n (c + 1) (t.frame (f c) pre).2

/-- The blocks of frame `c` of lane `l` of a port that repeats itself (R74, R77, R84). -/
def TxFill.blocks (crownB : Bool) (l c : Nat) : TxFill → List WBlock
  | .train => List.replicate 5 (trainBlock l crownB (c % 65536))
  | .cap b => List.replicate 5 (capBlk b)
  | .step => List.replicate 5 stepBlock
  | .idle => List.replicate 5 idleBlock

/-- R73: the blocks of the `i`-th of `w` lanes of a row: stream blocks i, i + w, … -/
def dealt (bs : List WBlock) (w i : Nat) : List WBlock := (List.range 5).map (fun j => bs.getD (j * w + i) idleBlock)

/-- The 137 symbols of a frame's levels; `pre` is the level received before it where the partner precodes. -/
def frameIn (l : List Nat) (pre : Option Nat) : List Nat :=
  bitSyms 137 (grayBits (match pre with | some y => unprecode y l | none => l))

/-- R72: the corrected frame and the number of symbols corrected; none where it is uncorrectable. -/
def frameDecode (f : List Nat) : Option (List Nat × Nat) :=
  let es := (f.zipIdx.map (fun e => (e.2, e.1))).filter (fun e => e.2 != 0)
  match gfFrame.decode 137 8 es with
  | none => none
  | some fix => some (f.mapIdx (fun i v => (fix.filter (fun e => e.1 == i)).foldl (fun a e => a ^^^ e.2) v), fix.length)

/-- The five blocks of a frame's symbols, and the descrambler after it. -/
def frameBlocks (f : List Nat) (st : Nat) : List WBlock × Nat :=
  let bs := symBits f
  (List.range 5).foldl (fun (x : List WBlock × Nat) j =>
    let b := (bs.drop (258 * j)).take 258
    let (pl, st) := descramble (b.drop 2) x.2
    (x.1 ++ [{ header := bitsBe (b.take 2), bytes := bitBytes 32 pl }], st)) ([], st)

/-! ### Test patterns (R93) -/

/-- `n` bits of a linear-feedback register with taps, the newest bit in bit 0. -/
def lfsr (taps : List Nat) (len : Nat) : Nat → Nat → List Bool
  | 0, _ => []
  | n + 1, st =>
    let b := taps.foldl (fun a k => a != bit st k) false
    b :: lfsr taps len n ((2 * st + b2n b) % 2 ^ len)

/-- R93: `n` PAM4 levels of a lane's generator from a state: PRBS31 by x^31 + x^28 + 1, or PRBS13Q. PRESUMED from IEEE 802.3 Clause 120:
PRBS13Q is x^13 + x^12 + x^2 + x + 1. Both send two bits per symbol under R70. -/
def prbsLevels (prbs31 : Bool) (n st : Nat) : List Nat :=
  grayLevels (if prbs31 then lfsr [27, 30] 31 (2 * n) st else lfsr [0, 1, 11, 12] 13 (2 * n) st)

end Sys2Proof.Machine
end

