-- ==== Sys2Proof/Machine/Net.lean ====
section
/-! DEFINITION. Messages on the ports: credits (R118 to R122), sending in sequence into the replay buffer (R87), acceptance of what
arrives (R99 to R101, R121, R125 to R127), the routes of a switch (R168) and the notices that leave the device (R130). -/

namespace Sys2Proof.Machine

/-! ### Credits -/

/-- The data credits a class uses: REQ, RSP and ENG (R118). -/
def dataIx (cls : Nat) : Option Nat := if cls = 0 then some 0 else if cls = 1 then some 1 else if cls = 5 then some 2 else none

/-- R118: whether the credits allow a message of a class with `nd` data blocks. LNK messages use none. -/
def Credits.has (c : Credits) (cls nd : Nat) : Bool :=
  cls == 6 || (decide (0 < c.hdr.getD cls 0) && (match dataIx cls with | some k => decide (nd ≤ c.dat.getD k 0) | none => true))

/-- Consumes the credits of a message. -/
def Credits.take (c : Credits) (cls nd : Nat) : Credits :=
  if cls = 6 then c else
  { hdr := c.hdr.set cls (c.hdr.getD cls 0 - 1),
    dat := match dataIx cls with | some k => c.dat.set k (c.dat.getD k 0 - nd) | none => c.dat }

/-- Adds the credits of a message. -/
def Credits.give (c : Credits) (cls nd : Nat) : Credits :=
  if cls = 6 then c else
  { hdr := c.hdr.set cls (c.hdr.getD cls 0 + 1),
    dat := match dataIx cls with | some k => c.dat.set k (c.dat.getD k 0 + nd) | none => c.dat }

/-- Adds the increments of a CREDIT message (R119). -/
def Credits.addAll (c : Credits) (hs ds : List Nat) : Credits :=
  { hdr := List.zipWith (· + ·) c.hdr (hs ++ List.replicate 7 0), dat := List.zipWith (· + ·) c.dat (ds ++ List.replicate 3 0) }

/-- Whether nothing is left to return. -/
def Credits.none? (c : Credits) : Bool := c.hdr.all (· == 0) && c.dat.all (· == 0)

/-- R122: the receive credits a port grants. -/
def grantOf (host : Bool) : Credits :=
  if host then { hdr := [256, 256, 0, 16, 0, 0, 0], dat := [1024, 1024, 0] }
  else { hdr := [128, 128, 0, 16, 64, 64, 0], dat := [512, 512, 256] }

/-- R122, R125: the receive credits a port grants on a link of version `v`: none for the classes that the version does not carry. -/
def grantFor (host : Bool) (v : Nat) : Credits :=
  if host ∨ 2 ≤ v then grantOf host
  else if v = 1 then { hdr := [128, 128, 0, 16, 64, 0, 0], dat := [512, 512, 0] }
  else { hdr := [0, 0, 0, 16, 0, 0, 0], dat := [0, 0, 0] }

/-! ### Ports by role -/

/-- A crown port of the manager leads to the host (R65, R101). -/
def State.hostSide (s : State) (p : Port) : Bool := s.isManager && (p == .ca || p == .cb)

/-- The other half of the host port. -/
def otherHalf : Port → Port
  | .ca => .cb | .cb => .ca | p => p

/-- Whether a port carries sequenced traffic. -/
def State.portUp (s : State) (p : Port) : Bool := (s.port p).tstate == .active

/-- The crown half that carries the host's messages: crown A where it is up (both halves of a bonded port are one port, R82). -/
def State.hostPort (s : State) : Port :=
  if s.portUp .ca && (s.port .ca).bond then .ca else if s.portUp .cb && (s.port .cb).bond then .cb
  else if s.portUp .ca then .ca else if s.portUp .cb then .cb else .ca

/-- `LINK_x.CTL.MAX_RATE`. -/
def State.maxRate (s : State) (p : Port) : Bool := s.fld (Reg.LINK_CTL p) F.LINK_CTL_MAX_RATE == 1

/-- R78, R80: whether a port that hunts at its last active rate hunts at 112 Gbit/s. DEDUCED: MAX_RATE, taken at the next training, bounds
that rate. -/
def State.lastRate (s : State) (p : Port) : Bool := (s.port p).lastFull && s.maxRate p

/-- The ports that carry a link: those that are up, of the host's halves the one that stands for its port. -/
def State.links (s : State) : List Port := allPorts.filter (fun p => s.portUp p && (!s.hostSide p || p == s.hostPort))

/-! ### Lanes in use (R66, R67, R73, R84) -/

/-- The lowest `n` set bits of a mask of 8. -/
def lowestBits (n m : Nat) : Nat := (((List.range 8).filter (bit m)).take n).foldl (fun a i => setBits a i i 1) 0

/-- R66: the halves whose lanes carry a port's traffic: of the bonded host port those that are up in the bond, of another port itself. -/
def State.halves (s : State) (p : Port) : List Port :=
  if s.hostSide p && (s.port p).bond then [Port.ca, Port.cb].filter (fun h => s.portUp h && (s.port h).bond) else [p]

/-- R67, R84: the width of a half in use: the smaller of the two in a bond. -/
def State.useWidth (s : State) (p : Port) : Nat :=
  ((s.halves p).map (fun h => (s.port h).width)).foldl min (s.port p).width

/-- The port whose sequences and credits serve what arrives on a port: both halves of a bonded host port are one port (R82). -/
def State.inPort (s : State) (p : Port) : Port := if s.hostSide p && (s.port p).bond then s.hostPort else p

/-- R84: the transmit lanes of a half that carry traffic. -/
def State.useLanes (s : State) (p : Port) : Nat := lowestBits (s.useWidth p) (s.port p).inUse

/-- R66: the logical lane of lane `l` of a port. -/
def State.logical (s : State) (p : Port) (l : Nat) : Nat := if s.hostSide p && p == .cb then 8 + l else l

/-! ### Transmitters (R70, R73, R74, R77) -/

/-- The key of a transmit lane. -/
def laneKey (p : Port) (l : Nat) : Nat := 8 * portNo p + l

/-- A transmit lane as it stands; one that has been silent begins anywhere. -/
def State.txLane (s : State) (p : Port) (l : Nat) : LaneTxS :=
  (AMap.find (laneKey p l) s.net.air.lanes).getD
    { scr := Config.txScrambler s.net.air.rows (laneKey p l) % 2 ^ 58, level := Config.txLevel s.net.air.rows (laneKey p l) % 4 }

/-- The frame count of a port: of its next frame. -/
def State.frameNo (s : State) (p : Port) : Nat := AMap.get (portNo p) 0 s.net.air.frames

/-- The lanes that a half of a port sends on. -/
def State.sendLanes (s : State) (h : Port) : List Nat := (List.range 8).filter (fun l => !bit (s.port h).excluded l)

/-- R70: whether a half precodes what it sends: traffic, at the partner's request; never training or capability frames. -/
def State.precodes (s : State) (h : Port) : Bool := (s.port h).preTx && AMap.find (portNo h) s.net.air.fill == some .idle

/-- The frames that a half has repeated since the row laid out last have run through its lanes (R73). -/
def State.airPass (h : Port) (s : State) : State :=
  match AMap.find (portNo h) s.net.air.fill with
  | none => s
  | some f =>
    let n := Config.framesBetween s.net.air.rows
    let c := s.frameNo h
    { s with net.air.lanes := (s.sendLanes h).foldl (fun m l =>
               AMap.put (laneKey h l) ((s.txLane h l).frames (f.blocks (s.hostSide h && h == .cb) l) (s.precodes h) n c) m) s.net.air.lanes,
             net.air.frames := AMap.put (portNo h) (c + n) s.net.air.frames }

/-- A half now repeats something else, or falls silent. -/
def State.airTo (h : Port) (f : Option TxFill) (s : State) : State :=
  let s := s.airPass h
  match f with
  | some f => { s with net.air.fill := AMap.put (portNo h) f s.net.air.fill }
  | none => { s with net.air.fill := AMap.del (portNo h) s.net.air.fill,
                     net.air.lanes := s.net.air.lanes.filter (fun e => e.1 / 8 != portNo h) }

/-- R73: a port lays out a row: one frame on each lane listed, all on the same frame count. -/
def State.airRow (p : Port) (hs : List Port) (out : List (Port × Nat × List WBlock)) (s : State) : State :=
  let fr : List (Port × Nat × List Nat × LaneTxS) := out.map (fun e => (e.1, e.2.1, (s.txLane e.1 e.2.1).frame e.2.2 (s.precodes e.1)))
  { s with net.air.lanes := fr.foldl (fun m (e : Port × Nat × List Nat × LaneTxS) => AMap.put (laneKey e.1 e.2.1) e.2.2.2 m) s.net.air.lanes,
           net.air.frames := hs.foldl (fun m h => AMap.put (portNo h) (s.frameNo h + 1) m) s.net.air.frames,
           net.air.rows := s.net.air.rows + 1 }.modPort p (fun x => { x with row := fr.map (fun (e : Port × Nat × List Nat × LaneTxS) => (s.logical e.1 e.2.1, e.2.2.1)) })

/-- R73, R84: the frames of a row that carries stream blocks: dealt over the lanes in use in ascending logical order; the other lanes send
IDLE. -/
def State.rowOut (s : State) (p : Port) (bs : List WBlock) : List (Port × Nat × List WBlock) :=
  let all := (s.halves p).flatMap (fun h => (List.range 8).map (fun l => (h, l)))
  let used := all.filter (fun e => bit (s.useLanes e.1) e.2)
  used.zipIdx.map (fun e => (e.1.1, e.1.2, dealt bs used.length e.2)) ++
    (all.filter (fun e => !bit (s.useLanes e.1) e.2)).map (fun e => (e.1, e.2, List.replicate 5 idleBlock))

/-- A port lays out a row of traffic after the rows it has repeated. -/
def State.layRow (p : Port) (bs : List WBlock) (s : State) : State :=
  let s := forEach (s.halves p) State.airPass s
  s.airRow p (s.halves p) (s.rowOut p bs)

/-- R93: the patterns of a port in PRBS: of the lanes enabled, while the generators run. -/
def State.prbsRow (s : State) (p : Port) : List (Nat × List Nat) :=
  let w := s.effReg (Reg.LINK_PRBS_CTL p)
  if F.LINK_PRBS_CTL_GEN_EN.get w = 0 then []
  else ((List.range 8).filter (bit (F.LINK_PRBS_CTL_LANE_EN.get w))).map (fun l =>
    (s.logical p l, prbsLevels (F.LINK_PRBS_CTL_PAT.get w == 1) 685 (Config.prbsState s.net.air.rows (laneKey p l))))

/-- What a port repeats in the state that it is in (R77, R74): nothing where it is silent. -/
def PortS.fillOf (x : PortS) : Option TxFill :=
  match x.tstate with
  | .huntFull | .huntHalf | .down => if x.gap then none else some .train
  | .cap => some (.cap x.ownCap)
  | .step => if x.stepping then none else some .step
  | .active => some .idle
  | .off | .quiet | .prbs => none

/-- A port sends what belongs to the state that it is in now: outside traffic its first such row. -/
def State.sendState (p : Port) (s : State) : State :=
  let x := s.port p
  let s := s.airTo p x.fillOf
  if x.tstate = .active then s
  else match x.fillOf with
  | some f => s.airRow p [p] ((s.sendLanes p).map (fun l => (p, l, f.blocks (s.hostSide p && p == .cb) l (s.frameNo p))))
  | none => { s with net.air.rows := s.net.air.rows + 1 }.modPort p (fun x => { x with row := if x.tstate = TState.prbs then s.prbsRow p else [] })

/-- The header of a message that this device sends. -/
def State.hdrTo (s : State) (dst : Nat) (dstHost : Bool) (agent : Agent) (tag nd sc flags : Nat) : Hdr :=
  { port := .w, ndata := nd, sc := Fin.ofNat 16 sc, tag := BitVec.ofNat 16 tag, src := Fin.ofNat 64 s.num, srcHost := false,
    dst := Fin.ofNat 64 dst, dstHost := dstHost, agent := agent, flags := BitVec.ofNat 8 flags }

/-! ### Sending -/

/-- R125, R126: whether a link of version `v` carries an operation. -/
def versionCarries (v : Nat) (op : MOp) : Bool :=
  if 2 ≤ v then true
  else if v = 1 then (match op.cls with | 2 => false | 5 => false | _ => op != .census)
  else (match op.cls with | 3 => true | 6 => op == .credit | _ => false)

/-- A port that has given what it sends in a row a sequence number, and keeps it until it is acknowledged (R87). -/
def PortS.number (m : Msg) (x : PortS) : PortS := { x with txSeq := (x.txSeq + 1) % 4096, buffer := x.buffer ++ [(x.txSeq, m)] }

/-- What is sent fills a sequenced row (R71 to R73, R87). -/
def State.sequence (p : Port) (m : Msg) (s : State) : State := (s.modPort p (PortS.number m)).layRow p m.blocks

/-- Sends one message in the next row, out of its credits. -/
def State.emit (p : Port) (m : Msg) (s : State) : State :=
  let cls := m.op.cls
  let s := (s.modPort p (fun x => { x with held := x.held.take cls m.h.ndata, sent := min 65535 (x.sent + 1) })).sequence p m
  ({ s with net.tx := s.net.tx ++ [(p, { m with h := { m.h with port := p } })] }).bump (portSlot p (16 + cls)) 1

/-- The message that stands for a QUIET block. -/
def State.quietMsg (s : State) : Msg := { op := .quiet, h := s.hdrTo 0 false .switch 0 0 0 0 }

/-- Whether a message is kept for a link that does not take it now: responses, seals and notices, of which none is dropped (R105, R130), and the
manager's requests to the host, each of which is answered (R110). Other requests, engine messages and markers that meet no link are lost
with it (R24, R126). -/
def Msg.lasting (m : Msg) : Bool :=
  match m.op with
  | .crdRsp => true | .cwrRsp => true
  | op => op.cls == 1 || op.cls == 2 || op.cls == 4 || (op.cls == 0 && m.h.dstHost)

/-- R113: whether a seal must wait because the data of its read is still kept. -/
def Msg.behindData (m : Msg) (kept : List Msg) : Bool :=
  m.op.cls == 2 && kept.any (fun k => k.op == .rdata && k.h.tag == m.h.tag && k.h.dst == m.h.dst)

/-- Sends from a list of waiting messages what the port may send: a class whose first message lacks credit waits, and no class waits
on another (R123), but a seal on its data (R113). -/
def State.drain (p : Port) : List Msg → List Nat → List Msg → State → State
  | [], _, kept, s => s.modPort p (fun x => { x with wait := kept })
  | m :: r, blocked, kept, s =>
    let x := s.port p
    let cls := m.op.cls
    if x.tstate == .active && !versionCarries x.version m.op && !m.lasting then s.drain p r blocked kept
    else if x.tstate == .active && versionCarries x.version m.op && !blocked.contains cls && !m.behindData kept &&
        decide (x.buffer.length < Config.REPLAY_DEPTH) && x.held.has cls m.h.ndata
    then (s.emit p m).drain p r blocked kept
    else s.drain p r (cls :: blocked) (kept ++ [m])

/-- R386: a link that comes up while the device returns from SLEEP or DEEP carries nothing before AWAKE. -/
def State.muted (s : State) (p : Port) : Bool := (s.port p).owes

/-- Sends what a port may send now. -/
def State.flush (p : Port) (s : State) : State := if s.muted p then s else s.drain p (s.port p).wait [] []

/-- Sends what every port may send now. -/
def State.flushAll (s : State) : State := forEach allPorts State.flush s

/-- R95: MAX_RATE and PRECODE_REQ, used from the training that begins. -/
def State.newTraining (p : Port) (s : State) : State :=
  s.modPort p (fun x => { x with ctlRate := s.maxRate p, ctlPre := s.fld (Reg.LINK_CTL p) F.LINK_CTL_PRECODE_REQ == 1 })

/-- A port that begins to hunt at a rate: its lanes lose lock and its exchange begins anew. -/
def PortS.hunting (full : Bool) (x : PortS) : PortS :=
  { x with tstate := if full then .huntFull else .huntHalf, full := full, firstLock := none, gotCap := false, gotSeen := false, stepping := false,
           clkLive := true, lanes := AMap.mapVal (fun l => { l with lock := false }) x.lanes }

/-- R388, R390: a port or half in QUIET wakes its link by TRAIN frames, which may have to wake the partner. -/
def State.wakeHalf (p : Port) (s : State) : State :=
  if (s.port p).tstate == .quiet then
    ((s.newTraining p).modPort p (fun x => { x.hunting (s.lastRate p) with waking := some s.now })).sendState p
  else s

/-- R388: a link is woken on both its halves, where it is the host port. -/
def State.wakePort (p : Port) (s : State) : State := forEach (if s.hostSide p then [p, otherHalf p] else [p]) State.wakeHalf s

/-- A message waits at a port, which sends what it may; one that waits for a sleeping partner is counted, and a firm request has met an
excluded event (R388). -/
def State.hand (p : Port) (m : Msg) (s : State) : State :=
  (((when (s.port p).sleeping (fun s =>
    if m.op.cls = 0 then (s.bump (portSlot p 38) 1).exclude m.h.sc.val else s.bump (portSlot p 38) 1) s).wakePort p).modPort p (fun x =>
      { x with wait := x.wait ++ [m] })).flush p

/-- R178: a message that waits for the host's credit is counted; a response of a firm class has met an excluded event. -/
def State.hostWait (p : Port) (m : Msg) (s : State) : State :=
  if s.hostSide p && s.portUp p && !(s.port p).wait.isEmpty then
    if m.op.cls = 1 then (s.bump (mgrSlot 48) 1).exclude m.h.sc.val else s.bump (mgrSlot 48) 1
  else s

/-- Hands a message to a port. A port that is not in use takes responses, seals and notices only, which wait for it (R105, R130); a wait for
the host's credit is counted (R178). -/
def State.sendOn (p : Port) (m : Msg) (s : State) : State :=
  if ((s.port p).tstate == .off || (s.port p).tstate == .down) && !m.lasting then s else (s.hand p m).hostWait p m

/-- R17: the manager's trunk port toward a numbered device. -/
def State.trunkPort (s : State) (d : Nat) : Port := if F.TOPO_ENT_W0_ROUTE.get (s.ent d).w0 = 1 then .w else .e

/-- The ports by which a message may leave a switch: the data ports of its role but the one it came by. -/
def State.waysOut (s : State) (from? : Option Port) : List Port :=
  (if s.isWorker then [Port.e, Port.w] else [Port.e, Port.w, Port.ca, Port.cb]).filter (fun p => from? != some p)

/-- R168: the port on which a device that is not the manager passes a message on, given where it came from: toward the manager along the
line it stands in; toward another device by one of its other ports, of which a worker has one (R12). -/
def State.switchPort (s : State) (from? : Option Port) (dst : Nat) (toMgr : Bool) : Port :=
  if toMgr then (match from? with | some .w => .e | some .e => .w | _ => s.net.mgrPort)
  else
    let l := s.waysOut from?
    l.getD (Config.switchRoute s.num dst (match from? with | some p => portNo p | none => 4) (portNo s.net.mgrPort) % l.length) .e

/-- Sends a message where its destination lies: to this device, to the host, or out of the port its route takes. -/
def State.route (from? : Option Port) (m : Msg) (s : State) : State :=
  if m.h.dstHost then
    if s.isManager then s.sendOn s.hostPort m else s.sendOn (s.switchPort from? 0 true) m
  else if m.h.dst.val = s.num ∧ (s.numValid ∨ s.isManager) then { s with net.inbox := s.net.inbox ++ [m] }
  else if s.isManager then s.sendOn (s.trunkPort m.h.dst.val) m
  else s.sendOn (s.switchPort from? m.h.dst.val (m.h.dst.val == 0)) m

/-- A response to a message leaves by the port on which the message came; one to a message of this device by its route. -/
def State.reply (from? : Option Port) (m : Msg) (s : State) : State :=
  match from? with
  | some p => s.sendOn p m
  | none => s.route none m

/-! ### Arrival -/

/-- A counted discard under R100 or R101. -/
def State.protoErr (p : Port) (s : State) : State :=
  ((s.bump (portSlot p 30) 1).raise Reg.NDL_STATUS F.NDL_STATUS_PROTO_ERR).fault 36 0 []

/-- Data blocks an operation carries (R100, R102, R103, R124): those it allows. -/
def ndataOk (op : MOp) (nd : Nat) : Bool :=
  match op with
  | .wr64 => nd == 2 | .wr128 => nd == 4 | .rdata => nd == 2 || nd == 4
  | .shard => nd == 2 | .part => decide (1 ≤ nd) && decide (nd ≤ 4)
  | _ => nd == 0

/-- R101, R125: the classes that may arrive at a port. DESIGN CHOICE: FENCE, HINT and FDONE, which pass between the host and the manager
only, count as misplaced on a trunk or spur port. -/
def State.classOk (s : State) (p : Port) (op : MOp) : Bool :=
  if s.hostSide p then (match op.cls with | 0 => true | 1 => op != .fdone | 3 => op == .crd || op == .cwr | 6 => op == .credit || op == .pwr | _ => false)
  else versionCarries (s.port p).version op && op.cls != 2 && op != .fence && op != .hint && op != .fdone

/-- A port with the credits of an accepted message used up and owed again, and the message counted since the last census (R120, R481). -/
def PortS.took (cls nd : Nat) (x : PortS) : PortS :=
  { x with granted := x.granted.take cls nd, back := x.back.give cls nd,
           sinceAct := if x.closed then x.sinceAct else x.sinceAct.set cls (x.sinceAct.getD cls 0 + 1) }

/-- A message is taken from its port. -/
def State.take (p : Port) (cls nd : Nat) (s : State) : State := (s.modPort p (PortS.took cls nd)).bump (portSlot p (23 + cls)) 1

/-- Accounts for a message that arrives on a port in an accepted row: the port is up and discards no rows (R88), the version carries it, its class belongs
there, its credits were granted and its data fit (R100, R101, R121, R127). The second component says whether the message is accepted. -/
def State.accept (p : Port) (op : MOp) (nd : Nat) (dataOk : Bool) (s : State) : State × Bool :=
  if (s.port p).tstate != .active || ((s.port p).nak.isSome && !(s.port p).gotReplay) then (s, false)
  else if s.hostSide p && decide ((s.port p).version < 2) && op.cls != 6 then (s, false)
  else if !s.classOk p op then ((if (s.port p).granted.has op.cls nd then s.take p op.cls nd else s).protoErr p, false)
  else if !(s.port p).granted.has op.cls nd then
    (((s.bump (portSlot p 31) 1).raise Reg.NDL_STATUS F.NDL_STATUS_CREDIT_ERR).fault 37 0 [], false)
  else if !(ndataOk op nd && dataOk) then ((s.take p op.cls nd).protoErr p, false)
  else (s.take p op.cls nd, true)

/-- Whether a message is for this device: the host's REQ and CFG to device 0 are the manager's. -/
def State.mine (s : State) (h : Hdr) : Bool := !h.dstHost && h.dst.val == s.num && (s.numValid || s.isManager)

/-! ### Notices that leave -/

/-- The message of a notice (R128). -/
def State.ntcMsg (s : State) (n : NoticeS) : Msg :=
  { op := .ntc, h := { s.hdrTo 0 true .switch 0 0 0 0 with src := Fin.ofNat 64 n.src },
    ntc := some { src := Fin.ofNat 64 n.src, ntype := n.ntype, sev := n.sev, dev := n.dev, nseq := n.nseq, count := n.count, payload := n.payload } }

/-- R130: the manager sends its pending notices, oldest first, while the host port takes them. -/
def State.ntcFlush : Nat → State → State
  | 0, s => s
  | fuel + 1, s =>
    if s.isManager && s.portUp s.hostPort && ((s.port s.hostPort).held.has 4 0) && decide ((s.port s.hostPort).buffer.length < Config.REPLAY_DEPTH) then
      match sortBy (fun a b => a.first ≤ b.first) s.flt.hostNtc with
      | [] => s
      | n :: r => (({ s with flt.hostNtc := r }).sendOn s.hostPort (s.ntcMsg n)).ntcFlush fuel
    else s

/-- Whether a port can send a notice at once. -/
def State.ntcRoom (s : State) (p : Port) : Bool :=
  let x := s.port p
  x.tstate == .active && x.held.has 4 0 && decide (x.buffer.length < Config.REPLAY_DEPTH) && !(x.wait.any (fun m => m.op == .ntc))

/-- R130: a pending notice of this device whose hold has passed leaves it: the manager's own goes to its slots toward the host, any
other device's to the port that leads to the manager, once that port has credit. -/
def State.ntcLeave (t : Nat) (s : State) : State :=
  match AMap.find t s.flt.notices with
  | none => s
  | some n =>
    if s.isManager then (({ s with flt.notices := AMap.del t s.flt.notices }).hostNotice n).ntcFlush 64
    else if s.ntcRoom s.net.mgrPort then
      ({ s with flt.notices := AMap.del t s.flt.notices }).sendOn s.net.mgrPort (s.ntcMsg n)
    else { s with flt.notices := AMap.put t { n with due := true } s.flt.notices }

/-- Sends the notices that were held back for credit. -/
def State.ntcRetry (s : State) : State :=
  let s := forEach (s.flt.notices.filter (fun n => n.2.due)) (fun n => State.ntcLeave n.1) s
  let s := s.ntcFlush 2048
  if s.flt.notices.any (fun n => n.2.due) || (s.isManager && !s.flt.hostNtc.isEmpty) then s else s.cond Reg.NDL_STATUS F.NDL_STATUS_NTC_BACKLOG false

end Sys2Proof.Machine
end

