-- ==== Sys2Proof/Machine/Mem.lean ====
section
/-! DEFINITION. The channels: queues and their admission (R293, R294), ranks and levels (R187, R188), the pick (R295 to R298),
refresh and neighbour refresh (R302, R311 to R313), self-refresh (R304 to R306), saturation (R191, R192), and what a decode of a
line does to the channel's bucket, log and suspects (R326, R327, R332 to R334). -/

namespace Sys2Proof.Machine

/-! ### Limits, reach and levels -/

/-- LIM of a class (R183). -/
def State.limit (s : State) (c : Nat) : Nat := s.fld (Reg.SVC_LIMIT c) F.SVC_LIMIT_LIM
/-- Whether a firm class reaches a channel (R185). -/
def State.reaches (s : State) (c n : Nat) : Bool := bit (s.reg (Reg.SVC_REACH c)).toNat n
/-- TARGET of a firm class (R186). -/
def State.target (s : State) (c : Nat) : Nat := s.fld (Reg.SVC_TARGET c) F.SVC_TARGET_TARGET
/-- R196: whether a firm class pins a channel. -/
def State.pinned (s : State) (n : Nat) : Bool :=
  (List.range 4).any (fun c => s.fld (Reg.SVC_TARGET c) F.SVC_TARGET_PIN == 1 && s.reaches c n)
/-- R189: the sum of the firm limits that reach a channel. -/
def State.firmSum (s : State) (n : Nat) : Nat :=
  (List.range 4).foldl (fun a c => if s.reaches c n then a + s.limit c else a) 0

/-- Every access that is outstanding in channel `n`: queued, waiting for a queue, or on its way. -/
def State.chanAccs (s : State) (n : Nat) : List Acc :=
  (s.stack.pcs.filter (fun k => k.1 / 2 == n)).flatMap (fun k => k.2.banks.flatMap (fun b => b.2.queue)) ++
  (s.chan n).admission ++ ((s.tier (n / 8)).buffer.filter (fun a => a.place.chan == n)) ++
  (s.stack.bursts.filter (fun b => b.2.acc.place.chan == n)).map (fun b => b.2.acc)

/-- R187: the level of an age against a target. -/
def levelOf (target age : Nat) : Nat :=
  if target = 0 then 0
  else if target * 90 / 100 ≤ age then 3
  else if target * 75 / 100 ≤ age then 2
  else if target * 50 / 100 ≤ age then 1
  else 0

/-- R187: the escalation level of a firm class in a channel at this moment. -/
def State.levelNow (s : State) (n c : Nat) : Nat :=
  match ((s.chanAccs n).filter (fun a => a.firm && a.sc == c)).map (fun a => a.time) with
  | [] => 0
  | t :: r => levelOf (s.target c) (s.now - r.foldl min t)

/-- `SVC.STATUS.SAT_ANY` follows the channels' flags. -/
def State.satAny (s : State) : State :=
  s.cond Reg.SVC_STATUS F.SVC_STATUS_SAT_ANY (s.stack.chans.any (fun n => n.2.sat))

/-- R187, R191: the levels of a channel are computed anew; a class at level 3 sets the saturation flag. -/
def State.relevel (n : Nat) (s : State) : State :=
  let l := (List.range 4).map (s.levelNow n)
  let s := s.modChan n (fun x => { x with levels := l })
  if l.contains 3 && !(s.chan n).sat then
    (((s.modChan n (fun x => { x with sat := true, satAt := s.now })).raise Reg.SVC_STATUS F.SVC_STATUS_SATURATED).notice 0x0E 0
      [BitVec.ofNat 8 (n / 8), BitVec.ofNat 8 (n % 8)]).satAny
  else s

/-- Clears the saturation flag of a channel (R191). -/
def State.unsat (n : Nat) (s : State) : State :=
  if (s.chan n).sat then ((s.tallyChan n).modChan n (fun x => { x with sat := false })).satAny else s

/-! ### Queues -/

/-- Whether an access is the device's own work, of no class: copies, Ranger, the test window. -/
def Acc.ownWork (a : Acc) : Bool := match a.origin with | .copy _ => true | .copyW => true | .ranger => true | .win => true | _ => false

/-- Accesses of an ordinary class in the bank queues of a channel (R192). -/
def State.ordQueued (s : State) (n c : Nat) : Nat :=
  ((s.stack.pcs.filter (fun k => k.1 / 2 == n)).flatMap (fun k => k.2.banks.flatMap (fun b => b.2.queue))).countP
    (fun a => !a.ownWork && a.sc == c)

/-- Whether a bank queue takes an access now (R293, R302, R192). -/
def State.bankTakes (s : State) (a : Acc) : Bool :=
  let b := s.bank a.place.pc a.place.pos
  decide (b.queue.length < Config.BANK_DEPTH) && !b.paying &&
  (decide (a.sc < 4) || !(s.chan a.place.chan).sat || a.ownWork || decide (s.ordQueued a.place.chan a.sc < min (s.limit a.sc) 4))

/-! ### Self-refresh (R304 to R307) -/

/-- The condition flags of `TIERt.CHc.STATUS` (R321). -/
def State.chFlags (n : Nat) (s : State) : State :=
  let c := s.chan n
  let a := Reg.CH_STATUS n
  ((((s.cond a F.CH_STATUS_SR (c.pstate == .selfRefresh)).cond a F.CH_STATUS_HALF c.half.isSome).cond a F.CH_STATUS_RETIRED
    c.retired).cond a F.CH_STATUS_HOT (decide (1 < c.mult))).cond a F.CH_STATUS_PASR_INIT c.pasrInit.isSome

/-- When every row of a bank is closed and its refresh operation has ended: the first cycle at which entry into self-refresh may issue. -/
def BankS.closed (now : Nat) (b : BankS) : Nat := if b.row.isSome then max now b.preOk + Config.tRP else max now b.actOk

/-- When the entry of a channel into self-refresh issues, once it is decided: every row is closed first (R292, R305). -/
def State.srWhen (s : State) (n : Nat) : Nat :=
  let banks := (s.pc (2 * n)).banks ++ (s.pc (2 * n + 1)).banks
  banks.foldl (fun a b => max a (b.2.closed s.now)) (if (s.chan n).pstate = .exiting then max s.now ((s.chan n).exitAt + Config.tXS) else s.now)

/-- Every row of a channel closes. -/
def State.closeRows (n : Nat) (s : State) : State :=
  let clr (k : Nat) (s : State) : State := s.modPc k (fun x =>
    { x with banks := AMap.mapVal (fun b => { b with actOk := max b.actOk (b.closed s.now), row := none }) x.banks })
  clr (2 * n) (clr (2 * n + 1) s)

/-- The entry of a channel into self-refresh issues (R305). -/
def State.srIssue (n : Nat) (s : State) : State :=
  ((s.modChan n (fun c => { c with pstate := .selfRefresh, srFrom := s.now, wantExit := false })).bump (chSlot n 4) 1).chFlags n

/-- The entry of a channel into self-refresh is decided: its rows close, and entry issues as soon as they have (R305, R307). -/
def State.enterSr (n : Nat) (s : State) : State :=
  let c := s.chan n
  if c.retired ∨ c.pstate = .selfRefresh ∨ c.pstate = .entering then s
  else ((s.closeRows n).modChan n (fun c => { c with pstate := .entering, srAt := s.srWhen n })).chFlags n

/-- Exit from self-refresh issues (R305). -/
def State.startSrExit (n : Nat) (s : State) : State :=
  if (s.chan n).pstate = .selfRefresh then
    ((s.tallyChan n).modChan n (fun c => { c with pstate := .exiting, exitAt := s.now, wantExit := false })).chFlags n
  else s

/-- R305: something wants a channel awake. An entry that has not issued is cancelled; exit issues once tSR_MIN has passed since entry. A tier
that is cut off stays as it is (R368). -/
def State.wantSrExit (n : Nat) (s : State) : State :=
  let c := s.chan n
  if (s.tier (n / 8)).hbLost then s
  else match c.pstate with
    | .entering => (s.modChan n (fun c => { c with pstate := .active })).chFlags n
    | .selfRefresh =>
      if c.srAt + Config.tSR_MIN ≤ s.now then s.startSrExit n else s.modChan n (fun c => { c with wantExit := true })
    | _ => s

/-- Whether a channel is in self-refresh, for step 2 of R385: a retired one has no contents, a tier that is cut off sees to its own. -/
def State.inSr (s : State) (n : Nat) : Bool :=
  (s.chan n).retired || (s.chan n).pstate == .selfRefresh || (s.tier (n / 8)).hbLost

/-- What the passing of time does to a channel in or near self-refresh (R305). -/
def State.srTick (n : Nat) (s : State) : State :=
  let c := s.chan n
  if c.pstate = .entering ∧ c.srAt ≤ s.now then s.srIssue n
  else if c.pstate = .selfRefresh ∧ c.wantExit = true ∧ c.srAt + Config.tSR_MIN ≤ s.now then s.startSrExit n
  else s

/-- R364, R366, R178: an access that meets a quiet window, or a tier that waits for a calibration run, is counted. -/
def State.stall (a : Acc) (s : State) : State :=
  if a.ownWork then s
  else
    let s := s.bump (chSlot a.place.chan 31) 1
    if a.firm then s.exclude a.sc else s

/-- Whether a channel may issue nothing because of a calibration (R364, R366). -/
def State.calStalls (s : State) (n : Nat) : Bool := (s.tier (n / 8)).cal.blocked || decide (s.now < (s.chan n).quietTill)

/-- An access arrives at a channel: it wakes it, restarts its idle time (R304, R305), and may meet a calibration. -/
def State.arriveAt (a : Acc) (s : State) : State :=
  let n := a.place.chan
  let s := (s.wantSrExit n).modChan n (fun c => { c with idleAt := s.now })
  if s.calStalls n then s.stall a else s

/-- R176: an access that meets a refresh operation of its bank under way waits for it. -/
def State.metRefresh (s : State) (a : Acc) : Acc :=
  if s.now < (s.bank a.place.pc a.place.pos).refTill then { a with refs := a.refs + 1 } else a

/-- Places an access into its bank queue, or behind it (R294). An access for a bank for which another already waits stays behind it. -/
def State.enqueue (a : Acc) (s : State) : State :=
  let s := s.arriveAt a
  let a := s.metRefresh a
  let n := a.place.chan
  let t := n / 8
  let same (x : Acc) : Bool := x.place.pc == a.place.pc && x.place.pos == a.place.pos
  let c := s.chan n
  if ((s.tier t).buffer.any (fun x => x.place.chan == n)) then s.modTier t (fun x => { x with buffer := x.buffer ++ [a] })
  else if !(c.admission.any same) && s.bankTakes a then
    s.modBank a.place.pc a.place.pos (fun b => { b with queue := b.queue ++ [a] })
  else if c.admission.length < Config.ADMIT_DEPTH then s.modChan n (fun x => { x with admission := x.admission ++ [a] })
  else s.modTier t (fun x => { x with buffer := x.buffer ++ [a] })

/-- A new access to a place. -/
def State.newAcc (p : Place) (wr : Option (List Byte × Nat)) (sc : Nat) (firm : Bool) (o : Origin) (time : Nat) (s : State) : State :=
  ({ s with stack.nextAcc := s.stack.nextAcc + 1 }).enqueue
    { id := s.stack.nextAcc, place := p, wr := wr, sc := sc, firm := firm, origin := o, time := time }

/-- R169, R295: the write that waits for a place, the youngest: a read behind it takes its data from it. Writes held over a stop
(R170) come before any other access, and count too. -/
def State.queuedWrite (s : State) (p : Place) : Option (List Byte × Nat) :=
  let q := ((s.bank p.pc p.pos).queue ++ (s.chan p.chan).admission ++ (s.tier p.tier).buffer ++ (s.tier p.tier).held).filter
    (fun a => a.place == p && a.wr.isSome)
  match q with
  | [] => none
  | a :: r => (r.foldl (fun (b : Acc) (x : Acc) => if b.id < x.id then x else b) a).wr

/-- A line as every read sees it now: the youngest accepted write, or the array. -/
def State.lineNow (s : State) (p : Place) : List Byte × Nat :=
  match s.queuedWrite p with
  | some w => w
  | none => (s.lineData p, s.lineMd p)

/-- Writes a whole line at once, for a debug or test access (R286): what waits for the place goes too. -/
def State.writeNow (p : Place) (data : List Byte) (md : Nat) (s : State) : State :=
  let f (a : Acc) : Acc := if a.place == p && a.wr.isSome then { a with wr := some (data, md) } else a
  let s := s.modBank p.pc p.pos (fun b => { b with queue := b.queue.map f })
  let s := s.modChan p.chan (fun c => { c with admission := c.admission.map f })
  let s := s.modTier p.tier (fun t => { t with buffer := t.buffer.map f, held := t.held.map f })
  s.setLine p data md

/-- R294: accesses move from the tier buffer into the admission queue in arrival order. -/
def State.refill (n : Nat) : Nat → State → State
  | 0, s => s
  | fuel + 1, s =>
    if (s.chan n).admission.length < Config.ADMIT_DEPTH then
      match (s.tier (n / 8)).buffer.find? (fun a => a.place.chan == n) with
      | none => s
      | some a =>
        ((s.modTier (n / 8) (fun t => { t with buffer := t.buffer.filter (fun x => x.id != a.id) })).modChan n
          (fun c => { c with admission := c.admission ++ [a] })).refill n fuel
    else s

/-- R188: the rank of an access: 4 for a firm access at level 3, then 3, 2, 1 for levels 2 to 0, and 0 for the ordinary rank. -/
def State.rank (s : State) (a : Acc) : Nat :=
  if a.firm then (s.chan a.place.chan).levels.getD a.sc 0 + 1 else 0

/-- R294: the access that moves from an admission queue: of those whose bank queue has room and that no older one for their bank
precedes, the highest rank, and the oldest of it. -/
def State.nextMove (s : State) (n : Nat) : Option Acc :=
  let l := (s.chan n).admission
  let ok := l.filter (fun a => s.bankTakes a &&
    !(l.any (fun b => decide (b.id < a.id) && b.place == a.place)))
  match ok with
  | [] => none
  | a :: r => some (r.foldl (fun b x => if s.rank b < s.rank x ∨ (s.rank b = s.rank x ∧ x.id < b.id) then x else b) a)

/-- R294: moves one access from a channel's admission queue into its bank queue. -/
def State.admitMove (n : Nat) (s : State) : State :=
  match s.nextMove n with
  | none => s
  | some a =>
    let s := s.modChan n (fun c => { c with admission := c.admission.filter (fun x => x.id != a.id) })
    (s.modBank a.place.pc a.place.pos (fun b => { b with queue := b.queue ++ [a] })).refill n 64

/-! ### The pick -/

/-- T_PAUSE(s) in ns. -/
def tPause (stage : Nat) : Nat := [0, 20, 60, 150].getD stage 0

/-- R295: the eligible entries of a bank queue: no earlier entry names their line. -/
def eligible : List Acc → List Place → List Acc
  | [], _ => []
  | a :: r, seen => if seen.contains a.place then eligible r seen else a :: eligible r (a.place :: seen)

/-- The oldest of some accesses. -/
def oldest : List Acc → Option Acc
  | [] => none
  | a :: r => some (r.foldl (fun (b : Acc) (x : Acc) => if x.id < b.id then x else b) a)

/-- R295: the candidate of a bank for a rank; while it pays a debt that stood at REF_DEBT_MAX only entries that have waited for a refresh
operation issue (R302). -/
def State.candidate (s : State) (b : BankS) (rk : Nat) : Option Acc :=
  let el := (eligible b.queue []).filter (fun a => s.rank a == rk && (!b.paying || decide (1 ≤ a.refs)))
  if rk = 0 then
    match oldest el with
    | none => none
    | some o => if 4 ≤ o.passed then some o
                else match oldest (el.filter (fun a => b.row == some a.place.row)) with
                  | some h => some h
                  | none => some o
  else oldest el

/-- The row command a candidate needs next: precharge, activate, or none because its row is open. -/
inductive RowCmd where
  | pre | act | open_
  deriving DecidableEq, Repr

/-- What a candidate needs of its bank's row. -/
def rowCmd (b : BankS) (a : Acc) : RowCmd :=
  match b.row with
  | none => .act
  | some r => if r = a.place.row then .open_ else .pre

/-- R297: whether the activate windows of a pseudo-channel allow one more activate or refresh of bank group `bg`: fewer than four in the last
tFAW, and tRRD from each, those that a precharge still holds up included. -/
def PcS.actOk (k : PcS) (now bg : Nat) : Bool :=
  decide ((k.acts.filter (fun e => decide (e.1 ≤ now) && decide (now < e.1 + Config.tFAW))).length < 4) &&
  k.acts.all (fun e => let d := if e.2 = bg then Config.tRRD_L else Config.tRRD_S; decide (e.1 + d ≤ now) || decide (now + d ≤ e.1))

/-- The first of the cycles from `t` on at which the row path is free (R290). -/
def freeCycle (l : List Nat) : Nat → Nat → Nat
  | 0, t => t
  | fuel + 1, t => if l.contains t then freeCycle l fuel (t + 1) else t

/-- The first cycle from `t` on at which the row path of a pseudo-channel is free. -/
def PcS.rowCycle (k : PcS) (t : Nat) : Nat := freeCycle k.rowAts k.rowAts.length t

/-- A row command takes a cycle of the row path (R290). -/
def PcS.rowTake (now t : Nat) (k : PcS) : PcS := { k with rowAts := t :: k.rowAts.filter (fun c => decide (now ≤ c)) }

/-- An activate or a refresh operation of bank group `bg` enters the windows of R297. -/
def PcS.actTake (t bg : Nat) (k : PcS) : PcS := { k with acts := ((t, bg) :: k.acts).take 16 }

/-- R311, R313: k of the neighbour refresh in effect for a channel. -/
def State.nrefK (s : State) (n : Nat) : Nat :=
  let k := s.effFld (Reg.CH_CTL n) F.CH_CTL_NREF_K
  if (s.tier (n / 8)).lastSeed then min k 6 else k

/-- R311: whether neighbours at distance 2 are refreshed too. -/
def State.nref2 (s : State) (n : Nat) : Bool := s.effFld (Reg.CH_CTL n) F.CH_CTL_NREF_DIST2 == 1

/-- R313: whether the neighbour-refresh queue of a bank is full. -/
def BankS.nrefFull (b : BankS) : Bool := decide (Config.NREF_DEPTH ≤ b.nref.length)

/-- Whether an access has already waited for a refresh operation and is firm (R176). -/
def Acc.waited (a : Acc) : Bool := a.firm && decide (1 ≤ a.refs)

/-- R403: the cycles that a throttle stage skips, evenly within each group of 16: 4, 8 and 12 of them at stages 1, 2 and 3. -/
def skipped (stage now : Nat) : Bool :=
  match stage with
  | 0 => false
  | 1 => now % 4 == 0
  | 2 => now % 2 == 0
  | _ => now % 4 != 3

/-- R194, R403: whether a class of work may issue in this cycle: no pause runs, and ordinary work skips the thinned cycles. Refresh and
neighbour refresh do not ask (R303, R405). -/
def State.mayIssue (s : State) (n : Nat) (firm : Bool) : Bool :=
  decide ((s.chan n).pauseTill ≤ s.now) && (firm || !skipped (s.throttle (n / 8)) s.now)

/-- R296: whether a candidate's next command is a row command that meets R292 now. -/
def State.rowReady (s : State) (k : Nat) (b : BankS) (a : Acc) : Bool :=
  s.mayIssue (k / 2) a.firm && !((s.pc k).rowAts.contains s.now) &&
  (match rowCmd b a with
    | .open_ => false
    | .pre => decide (b.preOk ≤ s.now)
    | .act => decide (b.actOk ≤ s.now) && (s.pc k).actOk s.now a.place.bg && (s.tier (k / 16)).drbg)

/-- R296: whether a candidate's next command is a column command that meets R292 now. -/
def State.colReady (s : State) (k : Nat) (b : BankS) (a : Acc) : Bool :=
  let x := s.pc k
  let other := s.pc (if k % 2 = 0 then k + 1 else k - 1)
  s.mayIssue (k / 2) a.firm && rowCmd b a == .open_ && decide (b.colOk ≤ s.now) &&
  (match x.lastCol with
    | none => true
    | some (t, g) => decide (t + (if g = a.place.bg then Config.tCCD_L else Config.tCCD_S) ≤ s.now)) &&
  (a.wr.isSome || decide (x.rdOk ≤ s.now)) &&
  ((s.chan (k / 2)).half.isNone || (match other.lastCol with | none => true | some (t, _) => decide (t + Config.tBURST ≤ s.now)))

/-- The bank positions from a pick pointer on (R296). -/
def fromPtr (p : Nat) : List Nat := (List.range 48).map (fun i => (p + i) % 48)

/-- The ready candidates of a rank, in position order from the pointer. -/
def State.readyOf (s : State) (k ptr rk : Nat) (column : Bool) : List (Nat × Acc) :=
  (fromPtr ptr).filterMap (fun pos =>
    let b := s.bank k pos
    match s.candidate b rk with
    | none => none
    | some a => if (if column then s.colReady k b a else s.rowReady k b a) then some (pos, a) else none)

/-- R188: the class that is served next in rotation, in proportion to the limits, and the counts after it. DESIGN CHOICE: the manual gives no
scheme; the classes are served one by one in rising order from the one served last, each up to LIM issues in a round, and a round ends when
every class that is ready has had them. -/
def rotate (lim : Nat → Nat) (rot : List Nat) (last : Nat) (cs : List Nat) : Nat × List Nat :=
  let order := (List.range 16).map (fun i => (last + 1 + i) % 16)
  let rot := if cs.all (fun c => lim c ≤ rot.getD c 0) then List.replicate 16 0 else rot
  match order.find? (fun c => cs.contains c && decide (rot.getD c 0 < lim c)) with
  | some c => (c, rot.set c (rot.getD c 0 + 1))
  | none => (cs.headD 0, rot)

/-- A rotation moves on: level 3 and the ordinary rank each have their own (R188, R192). -/
def PcS.rotated (x : PcS) : Option (Bool × List Nat × Nat) → PcS
  | none => x
  | some (true, rot, c) => { x with rotF := rot, rotFLast := c }
  | some (false, rot, c) => { x with rot := rot, rotLast := c }

/-- R296: the candidate that the pick takes, and what its rotation becomes: the highest rank that is ready; at level 3 and in the ordinary
rank the class whose turn it is; the first bank from the pointer. -/
def State.pick (s : State) (k : Nat) (column : Bool) : Option (Nat × Acc × Option (Bool × List Nat × Nat)) :=
  let x := s.pc k
  let ptr := if column then x.colPtr else x.rowPtr
  match [4, 3, 2, 1, 0].find? (fun rk => !(s.readyOf k ptr rk column).isEmpty) with
  | none => none
  | some rk =>
    let l := s.readyOf k ptr rk column
    if rk = 4 ∨ rk = 0 then
      let top := rk == 4
      let (c, rot) := rotate s.limit (if top then x.rotF else x.rot) (if top then x.rotFLast else x.rotLast) (l.map (fun e => e.2.sc))
      (l.find? (fun e => e.2.sc == c)).map (fun e => (e.1, e.2, if column then some (top, rot, c) else none))
    else l.head?.map (fun e => (e.1, e.2, none))

/-- Counts a refresh operation that the accesses for a bank wait for, wherever they wait (R176). -/
def State.refWait (k pos : Nat) (s : State) : State :=
  let f (a : Acc) : Acc := if a.place.pc = k ∧ a.place.pos = pos then { a with refs := a.refs + 1 } else a
  ((s.modBank k pos (fun b => { b with queue := b.queue.map f })).modChan (k / 2) (fun c => { c with admission := c.admission.map f })).modTier
    (k / 16) (fun t => { t with buffer := t.buffer.map f })

/-- R176, R302: whether a firm access for a bank has already waited for one refresh operation. -/
def State.waitedAt (s : State) (k pos : Nat) : Bool :=
  ((s.bank k pos).queue ++ (s.chan (k / 2)).admission ++ (s.tier (k / 16)).buffer).any (fun a =>
    a.place.pc == k && a.place.pos == pos && a.waited)

/-- Records a command of a pseudo-channel while an alert may still come for it (R316). -/
def State.didIssue (k : Nat) (c : Issued) (s : State) : State :=
  s.modPc k (fun x => { x with issued := ((s.now, c) :: x.issued).filter (fun e => decide (s.now ≤ e.1 + Config.T_ALERT)) })

/-- Whether a bank can start an owed refresh operation now: nothing but a precharge that is due stands before it. -/
def BankS.refReady (b : BankS) (now : Nat) : Bool := decide (b.actOk ≤ now) && (b.row.isNone || decide (b.preOk ≤ now))

/-- A refresh operation of `dur` ns on a bank, not before `from_`: an open row is precharged first, each command in a free cycle of the row
path, and the bank is busy (R290, R292, R297). -/
def State.refOp (k pos dur from_ : Nat) (s : State) : State :=
  let b := s.bank k pos
  let pre := (s.pc k).rowCycle (max from_ b.preOk)
  let s := if b.row.isSome then s.modPc k (PcS.rowTake s.now pre) else s
  let start := (s.pc k).rowCycle (max b.actOk (if b.row.isSome then pre + Config.tRP else from_))
  let s := s.modPc k (fun x => (x.rowTake s.now start).actTake start (pos % 12))
  (s.modBank k pos (fun b => { b with row := none, actOk := start + dur, refTill := start + dur })).refWait k pos

/-- Issues a refresh operation of a bank, not before `from_` (R299, R302). -/
def State.doRefresh (k pos debt from_ : Nat) (s : State) : State :=
  (((s.didIssue k (.ref pos)).refOp k pos Config.tRFCpb from_).modBank k pos (fun b =>
    { b with debt := debt, paying := b.paying && debt != 0 })).bump (chSlot (k / 2) 1) 1

/-- Issues the oldest pending neighbour refresh of a bank (R312, R313). -/
def State.doNref (k pos : Nat) (s : State) : State :=
  (((s.didIssue k (.nref pos)).refOp k pos Config.tNR s.now).modBank k pos (fun b => { b with nref := b.nref.drop 1 })).bump (chSlot (k / 2) 3) 1

/-! ### Random bits (R314, R315) -/

/-- Whether the entropy source of a tier passes its tests. -/
def State.sourceOk (s : State) (t : Nat) : Bool := !(s.tier t).rct && !(s.tier t).apt

/-- R314, R315: the DRBG of a tier is seeded anew from its own source, or a borrowed one; with none it keeps its last seed. -/
def State.reseed (t : Nat) (s : State) : State :=
  let a := Reg.CMN_STATUS t
  let any := (List.range 4).any (fun u => s.sourceOk u && (s.tier u).built)
  if s.sourceOk t ∨ any then
    let n := min (2 ^ 31 - 1) (s.fld (Reg.CMN_DRBG t) F.CMN_DRBG_RESEEDS + 1)
    ((((s.modTier t (fun x => { x with lastSeed := false, drbg := true, gens := 0 })).setFld (Reg.CMN_DRBG t) F.CMN_DRBG_RESEEDS n).bump
      (tierSlot t 9) 1).cond a F.CMN_STATUS_RNG_BORROW (!s.sourceOk t)).cond a F.CMN_STATUS_RNG_LASTSEED false
  else
    ((s.modTier t (fun x => { x with lastSeed := true, gens := 0 })).cond a F.CMN_STATUS_RNG_BORROW false).cond a F.CMN_STATUS_RNG_LASTSEED true

/-- R314: one generate request of a tier's DRBG; after 2^20 of them it is seeded anew. DESIGN CHOICE: each draw of R311 is one request. -/
def State.generate (t : Nat) (s : State) : State :=
  let s := s.modTier t (fun x => { x with gens := x.gens + 1 })
  if 2 ^ 20 ≤ (s.tier t).gens then s.reseed t else s

/-- R311: an activate of an access, with its draw of neighbour refreshes. DESIGN CHOICE: of two that a draw adds to a queue of three, the one of
distance 2 finds no room and is dropped. -/
def State.doAct (k pos row : Nat) (s : State) : State :=
  let n := k / 2
  let (i, s) := (s.generate (n / 8)).draw
  let hit := decide (Config.drbgBits i % 2 ^ s.nrefK n = 0)
  let add := if hit then (row, 1) :: (if s.nref2 n then [(row, 2)] else []) else []
  let s := (s.modPc k (fun x => (x.rowTake s.now s.now).actTake s.now (pos % 12))).didIssue k .row
  (s.modBank k pos (fun b =>
    { b with row := some row, preOk := s.now + Config.tRAS, actOk := s.now + Config.tRC,
             colOk := s.now + Config.tRCD, nref := (b.nref ++ add).take Config.NREF_DEPTH })).bump (chSlot n 0) 1

/-- Whether a channel issues commands at all: awake, not switching its width, not retired, its tier in no quiet window (R303). -/
def State.issues (s : State) (n : Nat) : Bool :=
  let c := s.chan n
  c.pstate == .active && c.switchAt.isNone && !c.retired && s.awake && !(s.tier (n / 8)).hbLost && !(s.tier (n / 8)).cal.blocked &&
  decide (c.quietTill ≤ s.now)

/-- Whether some candidate of a bank satisfies a condition. -/
def State.someCand (s : State) (b : BankS) (f : Acc → Bool) : Bool :=
  [4, 3, 2, 1, 0].any (fun rk => match s.candidate b rk with | some a => f a | none => false)

/-- R302: whether a bank repays a refresh operation now: it holds no ready candidate; one whose debt stood at REF_DEBT_MAX, as soon as the
entries that have waited for one have issued; and R176 does not put it off. -/
def State.repays (s : State) (k pos : Nat) : Bool :=
  let b := s.bank k pos
  decide (0 < b.debt) && b.refReady s.now && (s.pc k).actOk s.now (pos % 12) &&
  (if b.paying then !(b.queue.any (fun a => decide (1 ≤ a.refs)))
   else !s.waitedAt k pos && !s.someCand b (fun a => s.rowReady k b a || s.colReady k b a))

/-- R313: whether a pending neighbour refresh of a bank issues now: before the activate that a candidate needs, except where R176 defers it.
DESIGN CHOICE: where the queue is full it issues even then, for the bank takes no activate before, and the manual does not say which of the
two rules gives way. -/
def State.nrefs (s : State) (k pos : Nat) : Bool :=
  let b := s.bank k pos
  !b.nref.isEmpty && b.row.isNone && decide (b.actOk ≤ s.now) && (s.pc k).actOk s.now (pos % 12) && (b.nrefFull || !s.waitedAt k pos) &&
  s.someCand b (fun a => rowCmd b a == .act)

/-- One row command of a pseudo-channel (R290, R296, R297, R302, R303, R313): a repayment, else a neighbour refresh, neither thinned nor
paused; else the pick's command. -/
def State.pickRow (k : Nat) (s : State) : State :=
  let n := k / 2
  let x := s.pc k
  if x.rowAts.contains s.now then s
  else match (fromPtr x.rowPtr).find? (s.repays k) with
  | some pos => s.doRefresh k pos ((x.bank pos).debt - 1) s.now
  | none => match (fromPtr x.rowPtr).find? (s.nrefs k) with
  | some pos =>
    (if (x.bank pos).nrefFull then (s.raise (Reg.CH_STATUS n) F.CH_STATUS_NREF_STALL).bump (chSlot n 37) 1 else s).doNref k pos
  | none => match s.pick k false with
    | some (pos, a, _) =>
      let s := s.modPc k (fun x => { x with rowPtr := (pos + 1) % 48 })
      (match rowCmd (x.bank pos) a with
        | .pre => ((s.modPc k (PcS.rowTake s.now s.now)).didIssue k .row).modBank k pos (fun b =>
            { b with row := none, actOk := max b.actOk (s.now + Config.tRP) })
        | .open_ => s
        | .act => s.doAct k pos a.place.row)
    | none => s

/-- The bookkeeping of a column command at a bank: timing, passed hits, auto-precharge (R292, R295, R298). -/
def State.colDone (k pos : Nat) (a : Acc) (s : State) : State :=
  let b := s.bank k pos
  let q := b.queue.filter (fun x => x.id != a.id)
  let q := if a.firm then q else q.map (fun x => if !x.firm && decide (x.id < a.id) then { x with passed := x.passed + 1 } else x)
  let more := (eligible q []).any (fun x => x.place.row == a.place.row)
  let preOk := max b.preOk (if a.wr.isSome then s.now + Config.tCWL + Config.tBURST + Config.tWR else s.now + Config.tRTP)
  let s := s.modBank k pos (fun b =>
    if more then { b with queue := q, preOk := preOk }
    else { b with queue := q, preOk := preOk, row := none, actOk := max b.actOk (preOk + Config.tRP) })
  let stage := s.throttle (k / 16)
  let s := s.modPc k (fun x =>
    { x with colPtr := (pos + 1) % 48, lastCol := some (s.now, a.place.bg),
             rdOk := if a.wr.isSome then s.now + Config.tCWL + Config.tBURST + Config.tWTR else x.rdOk })
  s.modChan (k / 2) (fun c => { c with pauseTill := if a.firm then max c.pauseTill (s.now + tPause stage) else c.pauseTill })


/-! ### Error log and decode -/

/-- Word 1 of an error-log entry (R334). -/
def placeWord (p : Place) : Nat := p.pc + p.bg * 2 ^ 6 + p.bk * 2 ^ 10 + p.row * 2 ^ 12 + p.col * 2 ^ 27

/-- The index of the newest entry of a channel's log for a place. -/
def ChanS.elogFor (c : ChanS) (p : Place) : Option Nat :=
  ((List.range 32).map (fun i => (c.elogNew + 32 - i) % 32)).find? (fun i =>
    match AMap.find i c.elog with | some e => e.getD 1 0 == placeWord p && (decide (i ≤ c.elogNew) || decide (32 ≤ c.elogCount)) | none => false)

/-- R334: an event for the error log of channel `n`; SYMS and AT as word 2 holds them. -/
def State.elog (n : Nat) (p : Place) (kind syms pin : Nat) (line : Option Nat) (s : State) : State :=
  let c := s.chan n
  let w0 := match line with | some l => 2 ^ 31 + l | none => 0
  match c.elogFor p with
  | some i =>
    let e := (AMap.find i c.elog).getD []
    if e.getD 2 0 % 16 = kind then
      let e := (e.set 2 (setBits (e.getD 2 0) 31 16 (min 65535 (bits (e.getD 2 0) 31 16 + 1)))).set 3 (s.tick % 2 ^ 32)
      s.modChan n (fun c => { c with elog := AMap.put i e c.elog })
    else s.modChan n (fun c =>
      let j := if c.elogCount = 0 then 0 else (c.elogNew + 1) % 32
      { c with elog := AMap.put j [w0, placeWord p, kind + syms * 16 + pin * 256, s.tick % 2 ^ 32] c.elog, elogNew := j,
               elogCount := min 65535 (c.elogCount + 1) })
  | none => s.modChan n (fun c =>
      let j := if c.elogCount = 0 then 0 else (c.elogNew + 1) % 32
      { c with elog := AMap.put j [w0, placeWord p, kind + syms * 16 + pin * 256, s.tick % 2 ^ 32] c.elog, elogNew := j,
               elogCount := min 65535 (c.elogCount + 1) })

/-- The local byte address that a notice carries for a place: that of its user line, or all ones for a free pool place (R331). -/
def State.noticeAddr (s : State) (p : Place) : Nat :=
  match s.lineAt p with | some l => l * 128 | none => 2 ^ 64 - 1

/-- R326, R327: one correction enters the bucket of a channel. -/
def State.bucketAdd (n : Nat) (s : State) : State :=
  let c := s.chan n
  if c.level < Config.CE_DEPTH then s.modChan n (fun c => { c with level := c.level + 1 })
  else
    let ov := min 65535 (c.overs + 1)
    let pl := [BitVec.ofNat 8 (n / 8), BitVec.ofNat 8 (n % 8)] ++ leBytes 4 (c.overs + 1)
    ((((((s.modChan n (fun c => { c with level := 0, overs := c.overs + 1 })).setFld (Reg.CH_CE n) F.CH_CE_OVERFLOWS ov).raise (Reg.CH_ECC_STATUS n)
      F.CH_ECC_STATUS_CE_OVF).bump (chSlot n 9) 1).notice 0x05 0 pl).fault (61 + 5 * (n / 8)) n pl)

/-- R331, R332: the pin whose four symbols all show errors, if one does. -/
def alignedPin (fix : List Nat) : Option Nat :=
  (List.range 36).find? (fun x =>
    (List.range 4).all (fun u => fix.contains (if x < 32 then 32 * u + x else 128 + 4 * u + (x - 32))))

/-- The positions that an error pattern's correction touches. -/
def correctedAt (errors : List (Nat × Byte)) : List Nat :=
  ((List.range 144).filter (fun k => (errors.filter (fun e => e.1 == k)).foldl (fun (a : Byte) e => a ^^^ e.2) 0 != 0))

/-- A pin becomes suspect (R332). -/
def PcS.suspectPin (x : Nat) (k : PcS) : PcS := if k.suspect.contains x then k else { k with suspect := k.suspect ++ [x] }

/-- R332: `SUSPECT_HITS` hits on a pin within SUSPECT_WINDOW make it suspect. -/
def PcS.suspects (k : PcS) (x : Nat) : PcS :=
  if Config.SUSPECT_HITS ≤ k.hits.countP (fun h => h.1 == x) then k.suspectPin x else k

/-- R326, R332: what a corrected decode does to its channel: the bucket, the counters, and hits on a pin. -/
def State.corrected (p : Place) (syms : Nat) (fix : List Nat) (s : State) : State :=
  let n := p.chan
  let s := (s.bump (chSlot n 7) 1).bucketAdd n
  let s := if 3 ≤ syms then s.bump (chSlot n 8) 1 else s
  match alignedPin fix with
  | none => s
  | some x => s.modPc p.pc (fun k =>
      { k with lastHit := some (p, syms), hits := (k.hits ++ [(x, s.now)]).filter (fun h => s.now < h.2 + Config.SUSPECT_WINDOW) }.suspects x)

/-- R144: whether a decode takes the slow path. -/
def slowDecode (errors : List (Nat × Byte)) : Bool := match lineDecode errors with | some (_, syms) => decide (3 ≤ syms) | none => false

/-- R141 to R144, R146: the decode of a codeword read with an error pattern: the line and whether it was corrected, or none where it
is uncorrectable, a reserved STATE included. Corrections feed the channel. -/
def State.decode (p : Place) (errors : List (Nat × Byte)) (data : List Byte) (md : Nat) (s : State) :
    State × Option (List Byte × Nat × Bool) :=
  match lineDecode errors with
  | none => (s, none)
  | some (left, syms) =>
    let d := addErrors left data
    let m := ofLe (addErrors (left.filterMap (fun e => if 128 ≤ e.1 then some (e.1 - 128, e.2) else none)) (leBytes 4 md)) % 65536
    let s := if syms = 0 then s else s.corrected p syms (correctedAt errors)
    if 4 ≤ mdState m then (s, none) else (s, some (d, m, syms != 0))

/-- R333: what an uncorrectable line does, beside the reader's own error: `kind` of its log entry, and the counter of its reader. -/
def State.uncorrectable (p : Place) (kind slot : Nat) (errors : List (Nat × Byte)) (s : State) : State :=
  let n := p.chan
  let l := s.lineAt p
  let pl := leBytes 8 (s.noticeAddr p) ++ [0]
  ((((s.elog n p kind 15 ((correctedAt errors).headD 255) l).bump (chSlot n slot) 1).raise (Reg.CH_ECC_STATUS n) F.CH_ECC_STATUS_UNCORR).notice
    0x07 1 pl).fault (59 + 5 * (n / 8)) n pl

/-- R150: a read of a poisoned line raises the UNCORR notice with payload byte [8] = 1. -/
def State.poisonRead (p : Place) (s : State) : State := s.notice 0x07 1 (leBytes 8 (s.noticeAddr p) ++ [1])

/-! ### Ranger's visit (R329, R331) -/

/-- R331: a line whose verify read still needs correction; errors in exactly the four symbols of a pin make it suspect (R332). -/
def State.sticky (p : Place) (errors : List (Nat × Byte)) (s : State) : State :=
  let n := p.chan
  let e := correctedAt errors
  let s := match alignedPin e with
    | some x => if e.length = 4 then s.modPc p.pc (fun k => { k.suspectPin x with lastHit := some (p, 4) }) else s
    | none => s
  let pl := leBytes 8 (s.noticeAddr p) ++ [BitVec.ofNat 8 (n / 8), BitVec.ofNat 8 (n % 8)]
  ((((s.elog n p 3 (min 6 e.length) (e.headD 255) (s.lineAt p)).bump (chSlot n 13) 1).raise (Reg.CH_ECC_STATUS n) F.CH_ECC_STATUS_STICKY).notice
    0x06 0 pl).fault (60 + 5 * (n / 8)) n pl

/-- R329: the read, the write-back and the verify read of a place, one after the other: the read met `errors`, the verify read `verify`. -/
def State.visitPlace (p : Place) (errors verify : List (Nat × Byte)) (s : State) : State :=
  match s.decode p errors (s.lineData p) (s.lineMd p) with
  | (s, none) => s.uncorrectable p 2 17 errors
  | (s, some (_, _, false)) => s
  | (s, some (d, md, true)) =>
    let s := (s.setLine p d md).bump (chSlot p.chan 11) 1
    (match s.decode p verify d md with
      | (s, none) => s.uncorrectable p 2 17 verify
      | (s, some (_, _, false)) => s
      | (s, some (_, _, true)) => s.sticky p verify)

/-- RANGER_PERIOD in ns (R353). -/
def State.rangerPeriod (s : State) (t : Nat) : Nat := s.fld (Reg.CMN_RANGER_CTL t) F.CMN_RANGER_CTL_PERIOD * 3600000000000

/-- Places of a channel (R328). -/
def rangerPlaces : Nat := 25165824

/-- The pass moves on by one place; its end is judged against RANGER_PERIOD (R330). -/
def State.rangerNext (n : Nat) (s : State) : State :=
  let c := s.chan n
  if c.rangerPos + 1 < rangerPlaces then s.modChan n (fun c => { c with rangerPos := c.rangerPos + 1 })
  else
    let s := if s.now ≤ c.rangerAt + s.rangerPeriod (n / 8) then s.cond (Reg.CH_ECC_STATUS n) F.CH_ECC_STATUS_RANGER_LATE false else s
    s.modChan n (fun c => { c with rangerPos := 0, rangerAt := s.now })

/-- The visit whose entry of the bank queue issues (R329): all of it, with the errors that it meets, and the pass moves on. -/
def State.visitDone (p : Place) (s : State) : State :=
  let n := p.chan
  match (s.chan n).visit with
  | none => s
  | some (errors, verify) => ((s.modChan n (fun c => { c with visit := none })).visitPlace p errors verify).rangerNext n

/-- One column command of a pseudo-channel: a write stores its codeword, a read starts its burst, a visit of Ranger runs (R290, R296, R329). -/
def State.pickCol (k : Nat) (s : State) : State :=
  match s.pick k true with
  | none => s
  | some (pos, a, turn) =>
    let s := s.modPc k (fun x => x.rotated turn)
    let s := (s.didIssue k (.col a (a.wr.map (fun _ => (s.lineData a.place, s.lineMd a.place))))).colDone k pos a
    if a.origin = .ranger then (s.visitDone a.place).relevel (k / 2)
    else match a.wr with
    | some (d, md) => (s.setLine a.place d md).relevel (k / 2)
    | none => { s with stack.bursts := AMap.put a.id { acc := a, data := s.lineData a.place, md := s.lineMd a.place } s.stack.bursts }

/-! ### Power of a channel -/

/-- Whether a channel holds no work (R304). -/
def State.chanIdle (s : State) (n : Nat) : Bool :=
  (s.chanAccs n).isEmpty && (s.chan n).pasrInit.isNone

end Sys2Proof.Machine
end

