-- ==== Sys2Proof/Machine/Owner.lean ====
section
/-! DEFINITION. The device that owns a line: admission under the class limits (R183, R184, R195), the merge buffer (R151 to R154),
reads and their tags (R169, R275, R278), the acceptance of writes (R170, R274, R276), responses and misses (R103, R193), and the
copies of the reserve pool (R161, R162, R336). -/

namespace Sys2Proof.Machine

/-! The causes of R171. -/
namespace Cause
def illegalAddr : Nat := 0x01
def misaligned : Nat := 0x02
def noDevice : Nat := 0x03
def outOfRange : Nat := 0x04
def protDenied : Nat := 0x05
def keyMismatch : Nat := 0x06
def unreachable : Nat := 0x07
def pathReset : Nat := 0x08
def timeout : Nat := 0x09
def admission : Nat := 0x0A
def parity : Nat := 0x0B
def retired : Nat := 0x0C
def uncorrectable : Nat := 0x0D
def poisoned : Nat := 0x0E
def tagFail : Nat := 0x0F
end Cause

/-! ### The map and the class of a request -/

/-- R100: whether two messages have one source. -/
def sameSource (a b : Msg) : Bool := a.h.src == b.h.src && a.h.srcHost == b.h.srcHost && a.h.agent == b.h.agent

/-- The valid entry of this device's map that covers a local address (R268). -/
def State.ownEntry (s : State) (loc : Nat) : Option (List Nat) := (s.prot.own.find? (fun e => peCovers e.2 loc)).map (·.2)

/-- Whether a local address lies in a protected entry. -/
def State.ownProt (s : State) (loc : Nat) : Bool := match s.ownEntry loc with | some e => peKind e == 1 | none => false

/-- R285, R283: whether a local address lies in a protected or tag-pool entry. -/
def State.ownGuarded (s : State) (loc : Nat) : Bool :=
  match s.ownEntry loc with | some e => peKind e == 1 || peKind e == 2 | none => false

/-- R185: whether a class has firm rank at a channel. -/
def State.firmAt (s : State) (c n : Nat) : Bool := decide (c < 4) && s.reaches c n

/-- R195, R457, R466: whether a request of a class is refused at a channel. -/
def State.refuses (s : State) (c n : Nat) : Bool :=
  s.flt.admitStop || (s.tier (n / 8)).released ||
  (decide (3 ≤ s.throttle (n / 8)) && !s.firmAt c n)

/-! ### Responses -/

/-- The message of a response to a request: tag and address of the request, source and destination exchanged (R103); SC is that of the
request in RSP messages and zero in others (R99). -/
def State.rspMsg (s : State) (m : Msg) (op : MOp) (data : List Byte) (status flags tag64 : Nat) : Msg :=
  { op := op, h := { s.hdrTo m.h.src.val m.h.srcHost .switch m.h.tag.toNat (data.length / 32) (if op.cls = 1 then m.h.sc.val else 0) flags with
                     agent := m.h.agent },
    addr := m.addr, data := data, status := status, tag64 := tag64 }

/-- R193: counts a miss of a firm class. -/
def State.miss (c n : Nat) (s : State) : State :=
  let a := Reg.SVC_MISS c
  let since := AMap.get c 0 s.own.missCnt + 1
  let s := (((s.setFld a F.SVC_MISS_VALUE (min (2 ^ 32 - 1) (s.fld a F.SVC_MISS_VALUE + 1))).raise Reg.SVC_STATUS F.SVC_STATUS_MISS).bump
    (classSlot c 4) 1).bump (chSlot n (24 + c)) 1
  if (match AMap.find c s.own.missAt with | some t => decide (t + Config.MISS_INTERVAL ≤ s.now) | none => true) then
    ({ s with own.missAt := AMap.put c s.now s.own.missAt, own.missCnt := AMap.set c 0 0 s.own.missCnt }).notice 0x0D 0
      ([BitVec.ofNat 8 c, BitVec.ofNat 8 n] ++ leBytes 4 since)
  else { s with own.missCnt := AMap.set c 0 since s.own.missCnt }

/-- R193: judges the local latency of a host request of a firm class with a target, accepted at `time` (R186). An access of an engine never
misses. -/
def State.judge (m : Msg) (time n : Nat) (s : State) : State :=
  let c := m.h.sc.val
  if c < 4 ∧ 0 < s.target c ∧ m.h.agent ≠ .engine ∧ s.target c < s.now - time then s.miss c n else s

/-- The response of the owner to a message: counted by cause, and sent on its way (R172, R482). -/
def State.answer (m : Msg) (from? : Option Port) (op : MOp) (data : List Byte) (status flags tag64 : Nat) (s : State) : State :=
  let s := if op = .err then s.bump (devSlot (64 + status)) 1 else s
  s.reply from? (s.rspMsg m op data status flags tag64)

/-- Ends a request: its class count falls, a miss is judged, and the response leaves (R183, R193). -/
def State.ownEnd (id : Nat) (r : OReq) (op : MOp) (data : List Byte) (status flags tag64 : Nat) (s : State) : State :=
  let s := { s with own.reqs := AMap.del id s.own.reqs }
  let s := if r.admitted then { s with own.count := AMap.set r.sc 0 (AMap.get r.sc 0 s.own.count - 1) s.own.count } else s
  let n := (s.linePlace r.line).chan
  let s := if r.admitted then s.judge r.m r.time n else s
  (s.answer r.m r.from? op data status flags tag64).relevel n

/-- Ends a request with ERR. -/
def State.ownErr (id : Nat) (r : OReq) (cause : Nat) (s : State) : State := s.ownEnd id r .err [] cause 0 0

/-- R275: what a key mismatch does beside the response. -/
def State.keyMismatch (kid loc : Nat) (s : State) : State :=
  let pl := leBytes 2 kid ++ leBytes 8 loc
  (((s.raise Reg.PROT_STATUS F.PROT_STATUS_MISMATCH).bump (devSlot 148) 1).notice 0x0F 0 pl).fault 92 0 pl

/-! ### Writes into the queues -/

/-- The metadata a write of a user line stores (R147, R276). -/
def State.writeMd (s : State) (loc kid : Nat) (poison : Bool) : Nat :=
  if s.ownProt loc then mdWord 2 poison kid else mdWord 1 poison 0

/-- The metadata that a write request stores: FLAGS[0] sets POISON; with FLAGS[1] beside it the line stands in place of a lost one and stores
STATE CLEAR and KEYID 0 (R149). DESIGN CHOICE: how an EVACUATE tells the owner so is not stated. -/
def State.msgMd (s : State) (m : Msg) : Nat :=
  if bits m.h.flags.toNat 1 0 = 3 then mdWord 0 true 0 else s.writeMd (adLocal m.addr) (adKey m.addr) (bit m.h.flags.toNat 0)

/-- R185: an access of a firm class to a channel outside its reach is counted. -/
def State.outOfReach (c n : Nat) (s : State) : State :=
  if c < 4 ∧ !s.reaches c n then (s.bump (classSlot c 2) 1).raise Reg.SVC_STATUS F.SVC_STATUS_OUT_OF_REACH else s

/-- The places that a request reads or writes: its line, and for a protected one its tag line. -/
def State.reqPlaces (s : State) (r : OReq) : List Place :=
  s.linePlace r.line ::
    (if r.prot then (match s.ownEntry (adLocal r.m.addr) with | some e => [s.linePlace (lineIx (tagAddr e (adLocal r.m.addr)))] | none => [])
     else [])

/-- Ends the writes of a merge entry: each leaves its class count, is judged, and draws WDONE or ERR (R151, R153, R193). -/
def State.mergeAnswer (e : MergeE) (cause : Option Nat) (s : State) : State :=
  forEach e.who (fun w s =>
    let c := w.m.h.sc.val
    let n := (s.linePlace e.line).chan
    let s := ({ s with own.count := AMap.set c 0 (AMap.get c 0 s.own.count - 1) s.own.count }).judge w.m w.time n
    match cause with
    | none => s.answer w.m w.from? .wdone e.old 0 0 0
    | some k => s.answer w.m w.from? .err [] k 0 0) s

/-- A commit whose write cannot be made: the writes of its entry draw ERR. -/
def State.commitErr (k cause : Nat) (s : State) : State :=
  match AMap.find k s.own.commits with
  | none => s
  | some e => ({ s with own.commits := AMap.del k s.own.commits }).mergeAnswer e (some cause)

/-- R170: a bank queue has accepted a write: the request, or the entry, that it belongs to is answered once all its writes are accepted. -/
def State.accepted (o : Origin) (s : State) : State :=
  match o with
  | .wrOf id =>
    (match AMap.find id s.own.reqs with
      | none => s
      | some r =>
        if r.accs ≤ 1 then
          (s.bump (chSlot (s.linePlace r.line).chan (if r.m.h.agent = .engine then 35 else 34)) 1).ownEnd id r .wdone [] 0 0 0
        else { s with own.reqs := AMap.put id { r with accs := r.accs - 1 } s.own.reqs })
  | .commit k =>
    (match AMap.find k s.own.commits with
      | none => s
      | some e => ({ s with own.commits := AMap.del k s.own.commits }).mergeAnswer e none)
  | _ => s

/-- R347: a write that its retired channel does not accept any longer draws ERR RETIRED. -/
def State.retiredWrite (o : Origin) (s : State) : State :=
  match o with
  | .wrOf id => (match AMap.find id s.own.reqs with | some q => s.ownErr id q Cause.retired | none => s)
  | .commit k => s.commitErr k Cause.retired
  | _ => s

/-- Sends a whole-line write toward the queue of its place; where that takes it at once it is accepted (R170). While its line is being copied it
waits (R161). DESIGN CHOICE: whether the access is firm is settled here, as it enters the channel; a later change of REACH does not re-rank
it. -/
def State.acceptWrite (l : Nat) (data : List Byte) (md sc : Nat) (o : Origin) (s : State) : State :=
  match s.mapLine l with
  | some p =>
    if (s.chan p.chan).retired then s.retiredWrite o
    else
      let id := s.stack.nextAcc
      let s := (s.outOfReach sc p.chan).newAcc p (some (data, md)) sc (s.firmAt sc p.chan) o s.now
      if (s.bank p.pc p.pos).queue.any (fun a => a.id == id) then s.accepted o else s
  | none => { s with own.parked := s.own.parked ++ [{ line := l, data := data, md := md, sc := sc, origin := o }] }

/-- The outcome of a read that a queued write answers, or the access that will answer it (R169, R295). DESIGN CHOICE: the age of an access
(R187) counts from here, its entry into the channel. -/
def State.readLine (l sc : Nat) (o : Origin) (s : State) : State × Option (List Byte × Nat) :=
  let p := s.linePlace l
  let s := s.outOfReach sc p.chan
  match s.queuedWrite p with
  | some w => (s, some w)
  | none => (s.newAcc p none sc (s.firmAt sc p.chan) o s.now, none)

/-- ADMISSION_QUEUE_MOVE: a write that moves into its bank queue is accepted there (R170, R294). -/
def State.admitGo (n : Nat) (s : State) : State :=
  match s.nextMove n with
  | none => s
  | some a => if a.wr.isSome then (s.admitMove n).accepted a.origin else s.admitMove n

/-! ### The merge buffer (R151 to R154) -/

/-- MERGE_WAIT in ns (R165). -/
def State.mergeWait (s : State) : Nat := s.fld Reg.NDL_LINE_CTL F.NDL_LINE_CTL_MERGE_WAIT

/-- Removes the merge entries of a line, or changes them. -/
def State.mergeDrop (l : Nat) (s : State) : State := { s with own.merges := s.own.merges.filter (fun e => e.line != l) }

/-- Sends the whole-line write of a merge entry on its way; the writes it holds are answered once it is accepted. -/
def State.commit (e : MergeE) (data : List Byte) (md : Nat) (s : State) : State :=
  let k := s.own.nextC
  ({ s.mergeDrop e.line with own.nextC := k + 1, own.commits := AMap.put k e s.own.commits }).acceptWrite e.line data md e.sc (.commit k)

/-- Commits a merge entry that holds both halves as one whole-line write. -/
def State.mergeWhole (e : MergeE) (data : List Byte) (s : State) : State := s.commit e data (s.writeMd (e.line * 128) e.kid false)

/-- The line that an entry makes of the old one: the halves it holds, or an engine's change (R153, R235, R245). -/
def MergeE.merged (e : MergeE) (base : List Byte) : List Byte :=
  match e.upd with
  | some (.bytes off d) => splice base off d
  | some (.atom off aop a b) => splice base off (leBytes 8 (atomNew aop (leAt base off 8) a b).1)
  | _ => (match e.lo with | some d => d | none => base.take 64) ++ (match e.hi with | some d => d | none => (base.drop 64).take 64)

/-- What an entry answers beside WDONE: the word before an atomic operation. -/
def MergeE.answers (e : MergeE) (base : List Byte) : List Byte :=
  match e.upd with | some (.atom off _ _ _) => slice base off 8 | _ => []

/-- R153, R235, R275, R150, R277: completes a read-modify-write with the old line (none: uncorrectable). An atomic operation leaves a line that
it cannot read as it is (R246). -/
def State.mergeFinish (e : MergeE) (old : Option (List Byte × Nat)) (s : State) : State :=
  match old with
  | none =>
    (match e.upd with
      | some (.atom _ _ _ _) => s.mergeDrop e.line
      | _ => ((s.mergeDrop e.line).acceptWrite e.line (e.merged (zeros 128)) (s.writeMd (e.line * 128) e.kid true) e.sc .done).raise
          Reg.NDL_LINE_STATUS F.NDL_LINE_STATUS_POISON_WR).mergeAnswer e (some Cause.uncorrectable)
  | some (d, md) =>
    if mdState md ≠ 0 ∧ mdKid md ≠ e.kid then
      ((s.mergeDrop e.line).keyMismatch e.kid (e.line * 128)).mergeAnswer e (some Cause.keyMismatch)
    else if mdPoison md then ((s.mergeDrop e.line).poisonRead (s.linePlace e.line)).mergeAnswer e (some Cause.poisoned)
    else s.commit { e with old := e.answers d } (e.merged d) (s.writeMd (e.line * 128) e.kid false)

/-- Starts the read-modify-write of a merge entry: its line is read, or taken from a queued write. -/
def State.mergeRmw (e : MergeE) (s : State) : State :=
  if (s.chan (s.linePlace e.line).chan).retired then
    (s.mergeDrop e.line).mergeAnswer e (some Cause.retired)
  else
    let s := { s with own.merges := (s.own.merges.filter (fun (x : MergeE) => x.line != e.line)) ++ [{ e with busy := true }] }
    match s.readLine e.line e.sc (.merge e.line) with
    | (s, some w) => s.mergeFinish e (some w)
    | (s, none) => s

/-- Sets the half of a merge entry that a WR64 writes. -/
def MergeE.setHalf (e : MergeE) (w : Held) : MergeE :=
  if upperHalf (adLocal w.m.addr) then { e with hi := some w.m.data, who := e.who ++ [w] }
  else { e with lo := some w.m.data, who := e.who ++ [w] }

/-- An entry for the line of a request, with nothing in it yet. -/
def State.mergeFor (w : Held) (s : State) : MergeE :=
  { dev := s.num, line := lineIx (adLocal w.m.addr), kid := adKey w.m.addr, lo := none, hi := none, who := [], time := s.now,
    expires := s.now + s.mergeWait, sc := w.m.h.sc.val }

/-- The entry of a new WR64. -/
def State.mergeNew (w : Held) (s : State) : MergeE := (s.mergeFor w).setHalf w

/-- The whole line of an entry that holds both halves. -/
def MergeE.whole (e : MergeE) : Option (List Byte) :=
  match e.lo, e.hi with | some a, some b => some (a ++ b) | _, _ => none

/-- R154: the entries of a merge buffer in use: those that a WR64 took, without an engine's read-modify-writes (R235) and without the writes
that found the buffer full. -/
def entriesUsed (l : List MergeE) : Nat := l.countP (fun e => e.upd.isNone && !e.excess)

/-- R151, R152, R154: a WR64 at the owner of an unprotected line. -/
def State.merge64 (w : Held) (s : State) : State :=
  let l := lineIx (adLocal w.m.addr)
  let fresh (s : State) : State :=
    let e := s.mergeNew w
    if entriesUsed s.own.merges < Config.MERGE_ENTRIES then
      let s := { s with own.merges := s.own.merges ++ [e] }
      if s.mergeWait = 0 then s.mergeRmw e else s
    else
      (((s.raise Reg.NDL_LINE_STATUS F.NDL_LINE_STATUS_MERGE_FULL).bump (devSlot 86) 1).fault 99 0 []).mergeRmw { e with excess := true }
  match s.own.merges.find? (fun e => e.line == l) with
  | none => fresh s
  | some e =>
    if e.kid = adKey w.m.addr then
      let e := e.setHalf w
      match e.whole with
      | some d => (s.bump (devSlot 83) 1).mergeWhole e d
      | none => { s with own.merges := s.own.merges.map (fun (x : MergeE) => if x.line == l then e else x) }
    else
      let s := s.mergeRmw e
      match s.own.merges.find? (fun x => x.line == l) with
      | none => fresh s
      | some _ => { s with own.merges := s.own.merges.map (fun (x : MergeE) => if x.line == l then { x with behind := x.behind ++ [w] } else x) }

/-- R235, R245: an engine's change of part of a line, by a read-modify-write in its channel. -/
def State.mergeUpd (w : Held) (u : Upd) (s : State) : State := s.mergeRmw { s.mergeFor w with who := [w], upd := some u }

/-! ### Serving an admitted request -/

/-- Answers a read whose line, and for a protected line its tag line, have arrived (R103, R144, R172, R275, R277, R278). -/
def State.ownReadDone (id : Nat) (r : OReq) (s : State) : State :=
  match r.data, (if r.prot then r.tag else some none) with
  | some (d, md, corr), some tg =>
    let loc := adLocal r.m.addr
    let tagBad := r.prot && tg.isNone
    match d with
    | none => s.ownErr id r Cause.uncorrectable
    | some d =>
      if tagBad ∧ bit r.m.h.flags.toNat 1 ∧ mdState md ≠ 0 ∧ (mdKid md ≠ r.kid ∨ mdPoison md) then
        ((s.raise Reg.PROT_STATUS F.PROT_STATUS_TAGERR).bump (devSlot 149) 1).ownErr id r Cause.uncorrectable
      else if mdState md ≠ 0 ∧ mdKid md ≠ r.kid then (s.keyMismatch r.kid loc).ownErr id r Cause.keyMismatch
      else if mdPoison md then (s.poisonRead (s.linePlace r.line)).ownErr id r Cause.poisoned
      else
        let n := (s.linePlace r.line).chan
        let s := s.bump (chSlot n (if r.m.h.agent = .engine then 35 else 33)) 1
        let d := if r.m.op = .rd64 then (if upperHalf loc then d.drop 64 else d.take 64) else d
        let flags := 2 * b2n corr
        if !r.prot || mdState md = 0 then s.ownEnd id r .rdata d 0 flags 0
        else match tg with
          | some t => s.ownEnd id r .rdata d 0 flags (leAt t (loc / 128 % 16 * 8) 8)
          | none =>
            ((s.raise Reg.PROT_STATUS F.PROT_STATUS_TAGERR).bump (devSlot 149) 1).ownEnd id r .rdata d 0 (flags + 4) 0
  | _, _ => s

/-- Whether a place lies in a dropped segment that its rewriting has not passed yet (R310). -/
def State.pasrWaits (s : State) (p : Place) : Bool :=
  match (s.chan p.chan).pasrInit with
  | some keep => (FillSel.segments p.chan keep (s.chan p.chan).pasrMark 32767).covers p
  | none => false

/-- Whether a line's place cannot be reached yet: a copy is in the way (R161), or dropped segments are being rewritten (R310). -/
def State.mustWait (s : State) (l : Nat) : Bool :=
  match s.mapLine l with
  | none => true
  | some p => s.pasrWaits p

/-- R274: a protected write whose tag line has been read: both lines are accepted together, or the write fails; where a copy has come in the way
of either, it waits and reads its tag line again. -/
def State.ownTagWrite (id : Nat) (r : OReq) (s : State) : State :=
  match r.tag with
  | none => s
  | some none => s.ownErr id r Cause.uncorrectable
  | some (some _) =>
    let loc := adLocal r.m.addr
    match s.ownEntry loc with
    | none => s.ownErr id r Cause.protDenied
    | some e =>
      let tl := lineIx (tagAddr e loc)
      if s.mustWait r.line || s.mustWait tl then
        { s with own.waits := s.own.waits ++ [id], own.reqs := AMap.put id { r with tag := none, stage := .waiting } s.own.reqs }
      else
        let t := (s.lineNow (s.linePlace tl)).1
        let s := { s with own.reqs := AMap.put id { r with accs := 2, stage := .reading } s.own.reqs }
        let s := s.acceptWrite r.line r.m.data (s.msgMd r.m) r.sc (.wrOf id)
        s.acceptWrite tl (splice t (loc / 128 % 16 * 8) (leBytes 8 r.m.tag64)) (mdWord 3 false 0) r.sc (.wrOf id)

/-- The tag read of a protected request (R169, R170): the tag line from a queued write, or by an access of its own. DESIGN CHOICE: a tag line on
a retired channel counts as uncorrectable: R347 speaks of accesses to the channel, R278 of tag lines that cannot be read. -/
def State.ownTagRead (id : Nat) (r : OReq) (s : State) : State × OReq :=
  match s.ownEntry (adLocal r.m.addr) with
  | none => (s, { r with tag := some none })
  | some e =>
    let tl := lineIx (tagAddr e (adLocal r.m.addr))
    if (s.chan (s.linePlace tl).chan).retired then (s, { r with tag := some none })
    else match s.readLine tl r.sc (.tagOf id) with
      | (s, some w) => (s, { r with tag := some (if mdPoison w.2 then none else some w.1) })
      | (s, none) => (s, r)

/-- A request as a merge entry holds it. -/
def OReq.hold (r : OReq) : Held := { m := r.m, from? := r.from?, time := r.time }

/-- Serves an admitted request whose line no merge entry holds: the mapping (R163), then the channel. -/
def State.ownServeLine (id : Nat) (r : OReq) (s : State) : State :=
  let wr := r.m.op = .wr64 ∨ r.m.op = .wr128
  let gone := { s with own.reqs := AMap.del id s.own.reqs }
  if (s.chan (s.linePlace r.line).chan).retired then s.ownErr id r Cause.retired
  else match r.m.upd with
  | some u => gone.mergeUpd r.hold u
  | none =>
  if r.m.op = .wr64 ∧ !r.prot then gone.merge64 r.hold
  else if wr ∧ !r.prot then
    ({ s with own.reqs := AMap.put id { r with accs := 1, stage := .reading } s.own.reqs }).acceptWrite r.line r.m.data (s.msgMd r.m) r.sc (.wrOf id)
  else if wr then
    let (s, r) := s.ownTagRead id { r with stage := .queued }
    let s := { s with own.reqs := AMap.put id r s.own.reqs }
    s.ownTagWrite id r
  else
    let (s, d) := s.readLine r.line r.sc (.req id)
    let r := match d with | some w => { r with data := some (some w.1, w.2, false) } | none => r
    let (s, r) := if r.prot then s.ownTagRead id r else (s, r)
    let s := { s with own.reqs := AMap.put id { r with stage := .reading } s.own.reqs }
    s.ownReadDone id r

/-- Puts a request behind the read-modify-write of its line. -/
def State.putBehind (id : Nat) (r : OReq) (s : State) : State :=
  { s with own.merges := s.own.merges.map (fun (x : MergeE) => if x.line == r.line then { x with behind := x.behind ++ [r.hold] } else x),
           own.reqs := AMap.del id s.own.reqs }

/-- R106, R170: whether an earlier protected write of a request's line still waits for its tag line; what follows waits behind it. -/
def State.tagAhead (s : State) (id : Nat) (r : OReq) : Bool :=
  s.own.reqs.any (fun q => decide (q.1 < id) && q.2.line == r.line && q.2.stage == .queued)

/-- Whether a request must wait for a copy or an initialisation, at its line or at its tag line (R161, R310). -/
def State.reqWaits (s : State) (r : OReq) : Bool :=
  s.mustWait r.line || (r.prot && (match s.ownEntry (adLocal r.m.addr) with
    | some e => s.mustWait (lineIx (tagAddr e (adLocal r.m.addr)))
    | none => false))

/-- R178: a read that waits for the commit of a merge entry of its line. -/
def State.behindMerge (r : OReq) (s : State) : State :=
  if r.m.op = .rd64 ∨ r.m.op = .rd128 then ((s.bump (devSlot 85) 1).bump (chSlot (s.linePlace r.line).chan 32) 1).exclude r.sc else s

/-- Serves an admitted request: a line that is being copied makes it wait (R161), then merge entries (R152), then the line. -/
def State.ownServe (id : Nat) (s : State) : State :=
  match AMap.find id s.own.reqs with
  | none => s
  | some r =>
    if s.reqWaits r then
      let s := { s with own.waits := s.own.waits ++ [id], own.reqs := AMap.put id { r with counted := true } s.own.reqs }
      if r.counted then s else (s.bump (chSlot (s.linePlace r.line).chan 30) 1).exclude r.sc
    else if s.tagAhead id r then { s with own.waits := s.own.waits ++ [id] }
    else
      match s.own.merges.find? (fun e => e.line == r.line) with
      | none => s.ownServeLine id r
      | some e =>
        if e.busy then (s.behindMerge r).putBehind id r
        else if r.m.op = .wr64 ∧ !r.prot ∧ r.m.upd = none then ({ s with own.reqs := AMap.del id s.own.reqs }).merge64 r.hold
        else if r.m.op = .wr128 ∧ !r.prot ∧ r.m.upd = none then
          ({ s with own.reqs := AMap.del id s.own.reqs }).commit { e with kid := r.kid, who := e.who ++ [r.hold] } r.m.data (s.msgMd r.m)
        else
          let s := (s.behindMerge r).mergeRmw e
          if s.own.merges.any (fun x => x.line == r.line) then s.putBehind id r else s.ownServeLine id r

/-- R183: admits a request: its class count rises, and it is served. -/
def State.ownAdmit (id : Nat) (r : OReq) (s : State) : State :=
  let c := r.sc
  let s := { s with own.count := AMap.set c 0 (AMap.get c 0 s.own.count + 1) s.own.count,
                    own.reqs := AMap.put id { r with admitted := true, time := s.now, stage := .waiting } s.own.reqs }
  (s.bump (classSlot c 0) 1).ownServe id

/-- A refusal under R195 or R466, counted (R178). -/
def State.refused (c n : Nat) (s : State) : State := (s.bump (classSlot c 3) 1).bump (chSlot n 29) 1

/-- R106: whether an earlier request of the same source to the line of a request still waits in a hold queue. -/
def State.heldAhead (s : State) (id : Nat) (r : OReq) : Bool :=
  s.own.reqs.any (fun q => decide (q.1 < id) && q.2.stage == .held && q.2.line == r.line && sameSource q.2.m r.m)

/-- R183, R184: whether a class has room for a request. -/
def State.room (s : State) (c : Nat) : Bool := decide (AMap.get c 0 s.own.count < s.limit c)

/-- A memory request reaches the device that owns its line (R183, R184, R283); a host request may be refused (R195, R466). A host request that
finds its class at its limit waits, and is counted (R184); an engine's waits in its engine, here the same queue; one behind an earlier request
of its source to the line (R106) is no such wait. One that comes
before the start is done is not accepted (R436; DEDUCED: it is answered UNREACHABLE, as R436 says of the manager). -/
def State.ownRequest (m : Msg) (from? : Option Port) (s : State) : State :=
  let loc := adLocal m.addr
  let l := lineIx loc
  let c := m.h.sc.val
  let n := (s.linePlace l).chan
  if !s.running then s.answer m from? .err [] Cause.unreachable 0 0
  else if m.h.agent = .engine ∧ s.ownGuarded loc then s.answer m from? .err [] Cause.protDenied 0 0
  else if m.h.agent ≠ .engine ∧ s.refuses c n then (s.refused c n).answer m from? .err [] Cause.admission 0 0
  else
    let id := s.own.next
    let r : OReq := { m := m, from? := from?, line := l, kid := adKey m.addr, prot := s.ownProt loc, sc := c, time := s.now, stage := .held }
    let s := { s with own.next := id + 1, own.reqs := AMap.put id r s.own.reqs }
    let full := !s.room c || !(AMap.get c [] s.own.holds).isEmpty
    if !full ∧ !s.heldAhead id r then s.ownAdmit id r
    else
      let s := { s with own.holds := AMap.set c [] (AMap.get c [] s.own.holds ++ [id]) s.own.holds }
      if full ∧ m.h.agent ≠ .engine then
        let s := s.bump (classSlot c 1) 1
        if c < 4 then s.raise Reg.SVC_STATUS F.SVC_STATUS_HELD else s
      else s

/-- R184: the oldest held request of a class is admitted once the count has fallen. -/
def State.holdAdmit (c : Nat) (s : State) : State :=
  match AMap.get c [] s.own.holds with
  | [] => s
  | id :: rest =>
    if s.room c then
      match AMap.find id s.own.reqs with
      | some r =>
        if s.heldAhead id r then s
        else
          let s := { s with own.holds := AMap.set c [] rest s.own.holds }
          let n := (s.linePlace r.line).chan
          if r.m.h.agent ≠ .engine ∧ s.refuses c n then (s.refused c n).ownErr id r Cause.admission else s.ownAdmit id r
      | none => { s with own.holds := AMap.set c [] rest s.own.holds }
    else s

/-- An access of this device's own engine, for which its class has room (R183, R225); a line that no engine reaches refuses it (R283). -/
def State.ownEngine (m : Msg) (s : State) : State :=
  if s.ownGuarded (adLocal m.addr) then s.answer m none .err [] Cause.protDenied 0 0
  else
    let id := s.own.next
    ({ s with own.next := id + 1 }).ownAdmit id { m := m, from? := none, line := lineIx (adLocal m.addr), kid := adKey m.addr, prot := false,
                                                  sc := m.h.sc.val, time := s.now, stage := .waiting }

/-- The writes that waited for a copy go on (R161); one whose requests have been answered meanwhile is dropped. -/
def State.unpark (s : State) : State :=
  let l := s.own.parked
  forEach l (fun (w : ParkS) s =>
    match w.origin with
    | .commit k => if (AMap.find k s.own.commits).isSome then s.acceptWrite w.line w.data w.md w.sc w.origin else s
    | o => s.acceptWrite w.line w.data w.md w.sc o) { s with own.parked := [] }

/-- Serves again what waited for a copy, an initialisation or a merge. -/
def State.retryWaits (s : State) : State :=
  let s := s.unpark
  let w := s.own.waits
  let s := forEach w State.ownServe { s with own.waits := [] }
  forEach (s.own.merges.filter (fun e => !e.busy && e.expires == 0 && !s.mustWait e.line)) State.mergeRmw s

/-- Serves what waited behind a read-modify-write of a line, in order, without counting it anew. -/
def State.serveBehind (l : List Held) (s : State) : State :=
  forEach l (fun w s =>
    let id := s.own.next
    let r : OReq := { m := w.m, from? := w.from?, line := lineIx (adLocal w.m.addr), kid := adKey w.m.addr, prot := s.ownProt (adLocal w.m.addr),
                      sc := w.m.h.sc.val, time := w.time, stage := .waiting, admitted := true }
    ({ s with own.next := id + 1, own.reqs := AMap.put id r s.own.reqs }).ownServe id) s

/-- Ends the read-modify-write of a busy merge entry and serves what waited behind it. -/
def State.mergeRead (l : Nat) (old : Option (List Byte × Nat)) (s : State) : State :=
  match s.own.merges.find? (fun e => e.line == l && e.busy) with
  | none => s
  | some e => ((s.mergeFinish e old).serveBehind e.behind).retryWaits

/-! ### Copies (R161, R162, R336) -/

/-- The source place of line `j` of a copy. -/
def State.copySource (s : State) (k : CopyKind) (j : Nat) : Option Place :=
  match k with
  | .page i _ => match AMap.find i s.pool.remaps with
    | some e => s.pageSource (32 * e.page + j)
    | none => none
  | .bank i none => match AMap.find i s.pool.steers with
    | some e => some { pc := e.pc, bg := e.bg, bk := e.bk, row := j / 8, col := j % 8 }
    | none => none
  | .bank _ (some old) => some (poolPlace old j)
  | .remapBlock _ old => some (poolPlace old j)
  | .steerBlock _ old => some (poolPlace old j)

/-- The target place of line `j` of a copy. -/
def State.copyTarget (s : State) (c : CopyJob) (j : Nat) : Place :=
  match c.kind with
  | .page i _ => match AMap.find i s.pool.remaps with
    | some e => (s.blockPlace e.block (32 * e.slot + j)).getD (poolPlace e.block (32 * e.slot + j))
    | none => poolPlace c.target j
  | _ => poolPlace c.target j

/-- Whether a copy must wait for a relocation: a page copy whose remap block moves, a bank copy whose old block moves (R160, R162). DESIGN CHOICE:
the manual does not order the two. -/
def State.copyHeld (s : State) (c : CopyJob) : Bool :=
  match c.kind with
  | .page i _ => (match AMap.find i s.pool.remaps with | some e => (s.blockJob e.block).isSome | none => false)
  | .bank i (some _) => s.pool.jobs.any (fun j => match j.2.kind with | .steerBlock k _ => k == i | _ => false)
  | _ => false

/-- A copy writes a line of its target, an access of its own (R293). -/
def State.copyPut (p : Place) (d : List Byte) (md : Nat) (s : State) : State :=
  if (s.chan p.chan).retired then s else s.newAcc p (some (d, md)) 15 false .copyW s.now

/-- Copies one line: `old` is what the source read gave, none where it is lost (R149, R336). -/
def State.copyLine (job : Nat) (old : Option (List Byte × Nat)) (s : State) : State :=
  match AMap.find job s.pool.jobs with
  | none => s
  | some c =>
    if s.copyHeld c then s else
    let j := c.next
    let s := match old with
      | some (d, md) => s.copyPut (s.copyTarget c j) d md
      | none =>
        let src := (s.copySource c.kind j).getD (s.copyTarget c j)
        ((s.elog src.chan src 7 15 255 (s.lineAt src)).bump (chSlot src.chan 22) 1).copyPut (s.copyTarget c j) (zeros 128) (mdWord 0 true 0)
    let c := { c with next := j + 1, value := if old.isNone then c.value + 1 else c.value }
    let s := { s with pool.jobs := AMap.put job c s.pool.jobs }
    match c.kind with
    | .bank i _ => (match AMap.find i s.pool.steers with
        | some e => { s with pool.steers := AMap.put i { e with mark := min c.next (c.total - 1) } s.pool.steers }
        | none => s)
    | _ => s

/-- Issues the read of the next line of a copy, or takes it from a queued write. -/
def State.copyIssue : Nat → Nat → State → State
  | 0, _, s => s
  | fuel + 1, job, s =>
    match AMap.find job s.pool.jobs with
    | none => s
    | some c =>
      if c.total ≤ c.next ∨ s.copyHeld c then s
      else match s.copySource c.kind c.next with
        | none => s
        | some p =>
          if s.pasrWaits p then s
          else if (s.chan p.chan).retired then (s.copyLine job none).copyIssue fuel job
          else match s.queuedWrite p with
            | some w => (s.copyLine job (some w)).copyIssue fuel job
            | none => s.newAcc p none 15 false (.copy job) s.now

/-- Whether no access of a copy is outstanding. -/
def State.copyIdle (s : State) (job : Nat) : Bool :=
  let l := s.stack.pcs.flatMap (fun k => k.2.banks.flatMap (fun b => b.2.queue)) ++ s.stack.chans.flatMap (fun c => c.2.admission) ++
    s.stack.tiers.flatMap (fun t => t.2.buffer) ++ s.stack.bursts.map (fun b => b.2.acc)
  !(l.any (fun a => a.origin == .copy job))

/-- The copies that have no access outstanding go on, as far as nothing holds them up. -/
def State.copyGo (s : State) : State := forEach (s.pool.jobs.filter (fun j => s.copyIdle j.1)) (fun j s => s.copyIssue 8 j.1) s

/-- Starts a copy; the second component is its number. -/
def State.copyStart (k : CopyKind) (total target : Nat) (wanted : Bool) (s : State) : State × Nat :=
  let job := s.pool.nextJob
  let s := { s with pool.nextJob := job + 1,
                    pool.jobs := AMap.put job { kind := k, next := 0, total := total, target := target, value := 0, wanted := wanted } s.pool.jobs }
  ((s.poolFlags).copyIssue 8 job, job)

/-- Whether a copy that runs fills a block. -/
def State.copyInto (s : State) (b : Nat) : Bool :=
  s.pool.jobs.any (fun j => (match j.2.kind with | .page _ _ => false | _ => true) && j.2.target == b)

/-- R162: relocates every block in use that has become unusable; one that a copy is filling once that copy has ended. -/
def State.relocate (s : State) : State :=
  let used := s.pool.blocks ++ s.pool.steers.map (fun e => e.2.block)
  forEach (used.filter (fun b => (let c := s.chan (b / 2); c.half.isSome || c.retired ||
      s.pool.steers.any (fun e => e.2.pc == b && 8 ≤ e.2.bg)) && (s.blockJob b).isNone && !s.copyInto b)) (fun b s =>
    if s.pool.blocks.contains b then
      match s.freeBlocks with
      | [] => (s.raise Reg.NDL_LINE_STATUS F.NDL_LINE_STATUS_RELOC_FAIL).poolFlags
      | t :: _ => (s.copyStart (.remapBlock ((s.pool.blocks.findIdx? (· == b)).getD 0) b) 262144 t false).1
    else match s.pool.steers.find? (fun e => e.2.block == b) with
      | none => s
      | some (i, e) => match s.steerTarget (e.pc / 16) with
        | none => (s.raise Reg.NDL_LINE_STATUS F.NDL_LINE_STATUS_RELOC_FAIL).poolFlags
        | some t => (s.copyStart (.steerBlock i b) 262144 t false).1) s

/-- R159 to R162: a copy has ended and its entry takes full effect. -/
def State.copyEffect (job : Nat) (s : State) : State :=
  match AMap.find job s.pool.jobs with
  | none => s
  | some c =>
    let s := { s with pool.jobs := AMap.del job s.pool.jobs }
    let upS (i : Nat) (f : SteerE → SteerE) (s : State) : State :=
      { s with pool.steers := match AMap.find i s.pool.steers with | some e => AMap.put i (f e) s.pool.steers | none => s.pool.steers }
    let upR (i : Nat) (f : RemapE → RemapE) (s : State) : State :=
      { s with pool.remaps := match AMap.find i s.pool.remaps with | some e => AMap.put i (f e) s.pool.remaps | none => s.pool.remaps }
    let s := match c.kind with
      | .page i old =>
        let s := (upR i (fun e => { e with done := true }) s).bump (devSlot 150) 1
        (match old with | some o => upR o (fun e => { e with valid := false, retired := true }) s | none => s)
      | .bank i old =>
        let s := (upS i (fun e => { e with block := c.target, done := true, mark := 0 }) s).bump (devSlot 151) 1
        (match old with | some o => { s with pool.bad := s.pool.bad ++ [o] } | none => s)
      | .remapBlock _ old =>
        ({ s with pool.blocks := s.pool.blocks.map (fun b => if b = old then c.target else b),
                  pool.remaps := AMap.mapVal (fun e => if e.block = old then { e with block := c.target } else e) s.pool.remaps }).bump (devSlot 152) 1
      | .steerBlock i old =>
        let s := { s with pool.jobs := AMap.mapVal (fun (j : CopyJob) => if j.kind = CopyKind.bank i (some old) then { j with kind := CopyKind.bank i (some c.target) } else j)
                            s.pool.jobs }
        (upS i (fun e => { e with block := c.target }) s).bump (devSlot 152) 1
    s.poolFlags.relocate.copyGo.retryWaits

/-! ### A burst returns -/

/-- What a decoded line does for the access that read it (R144, R153, R161, R333). -/
def State.readBack (a : Acc) (r : Option (List Byte × Nat × Bool)) (errors : List (Nat × Byte)) (s : State) : State :=
  let slot (id : Nat) : Nat := match AMap.find id s.own.reqs with | some q => if q.m.h.agent = .engine then 15 else 14 | none => 14
  match a.origin with
  | .req id =>
    let s := if r.isNone then s.uncorrectable a.place 1 (slot id) errors else s
    (match AMap.find id s.own.reqs with
      | none => s
      | some q =>
        let q := { q with data := some (match r with | some (d, md, c) => (some d, md, c) | none => (none, 0, false)) }
        ({ s with own.reqs := AMap.put id q s.own.reqs }).ownReadDone id q)
  | .tagOf id =>
    let s := if r.isNone then s.uncorrectable a.place 1 (slot id) errors else s
    let bad := match r with | some (_, md, _) => mdPoison md | none => false
    let s := if bad then s.poisonRead a.place else s
    (match AMap.find id s.own.reqs with
      | none => s
      | some q =>
        let q := { q with tag := some (match r with | some (d, md, _) => if mdPoison md then none else some d | none => none) }
        let s := { s with own.reqs := AMap.put id q s.own.reqs }
        (if q.m.op = .wr64 ∨ q.m.op = .wr128 then s.ownTagWrite id q else s.ownReadDone id q).retryWaits)
  | .merge l =>
    let s := if r.isNone then s.uncorrectable a.place 1 16 errors else s
    s.mergeRead l (r.map (fun x => (x.1, x.2.1)))
  | .copy job =>
    let s := if r.isNone then
        ((s.bump (chSlot a.place.chan 16) 1).raise (Reg.CH_ECC_STATUS a.place.chan) F.CH_ECC_STATUS_UNCORR).notice 0x07 1
          (leBytes 8 (s.noticeAddr a.place) ++ [0]) |>.fault (59 + 5 * a.place.tier) a.place.chan (leBytes 8 (s.noticeAddr a.place) ++ [0])
      else s
    ((s.copyLine job (r.map (fun x => (x.1, x.2.1)))).copyIssue 8 job).retryWaits
  | _ => s

/-- R347: an access that was still queued on a channel that is retired: a read, and a write that is not yet accepted, draws ERR RETIRED; a
write is discarded. -/
def State.retiredRead (a : Acc) (s : State) : State :=
  match a.origin with
  | .wrOf _ => s.retiredWrite a.origin
  | .commit _ => s.retiredWrite a.origin
  | .req id => (match AMap.find id s.own.reqs with
      | some q => s.ownErr id q Cause.retired
      | none => s)
  | .tagOf id => (match AMap.find id s.own.reqs with
      | some q =>
        let q := { q with tag := some none }
        let s := { s with own.reqs := AMap.put id q s.own.reqs }
        (if q.m.op = .wr64 ∨ q.m.op = .wr128 then s.ownTagWrite id q else s.ownReadDone id q).retryWaits
      | none => s)
  | .merge l => (match s.own.merges.find? (fun e => e.line == l && e.busy) with
      | some e => (((s.mergeDrop l).mergeAnswer e (some Cause.retired)).serveBehind e.behind).retryWaits
      | none => s)
  | .copy job => ((s.copyLine job none).copyIssue 8 job).retryWaits
  | _ => s

/-- R317: an access whose command failed parity: a read draws ERR PARITY; every other access is made again, as long as its channel is not retired
(R347). -/
def State.parityRead (a : Acc) (s : State) : State :=
  match a.origin with
  | .req id => match AMap.find id s.own.reqs with
    | some q => s.ownErr id q Cause.parity
    | none => s
  | .tagOf id => match AMap.find id s.own.reqs with
    | some q => (s.ownErr id q Cause.parity).retryWaits
    | none => s
  | .merge l => match s.own.merges.find? (fun e => e.line == l && e.busy) with
    | some e => (((s.mergeDrop l).mergeAnswer e (some Cause.parity)).serveBehind e.behind).retryWaits
    | none => s
  | _ => if (s.chan a.place.chan).retired then s.retiredRead a else s.enqueue (if a.wr.isSome then { a with origin := .done } else a)

end Sys2Proof.Machine
end

