-- ==== Sys2Proof/Machine/Mgr.lean ====
section
/-! DEFINITION. The manager's path: the checks of a host request (R137, R271), its ingress (R108, R184, R24, R270), internal tags
(R167), protected lines (R151, R265, R266, R277, R278, R282), seals (R112 to R114), the halt of an owner (R280, R281), path resets
(R24) and configuration accesses (R115, R116). -/

namespace Sys2Proof.Machine

/-! ### Answers to the host -/

/-- Whether a request comes from the manager's own relay engines (R283), whose requests name their shard. -/
def Msg.ofRelay (m : Msg) : Bool := m.eng.isSome

/-- A response of the manager to a host request, or to one of its relay engines. -/
def State.hostRsp (m : Msg) (op : MOp) (data : List Byte) (status flags : Nat) (s : State) : State :=
  if m.ofRelay then s.route none (s.rspMsg m op data status flags 0) else s.sendOn s.hostPort (s.rspMsg m op data status flags 0)

/-- ERR from the manager, counted by its cause (R171, R482). -/
def State.hostErr (m : Msg) (cause : Nat) (s : State) : State :=
  (if m.ofRelay then s else s.bump (devSlot (64 + cause)) 1).hostRsp m .err [] cause 0

/-- The SEAL of a speculative read (R112): verdict 0 GOOD, 1 BAD, 2 VOID. One that the host's credit withholds from a firm read is an excluded
event (R178). -/
def State.sendSeal (m : Msg) (verdict cause : Nat) (s : State) : State :=
  let s := (s.bump (mgrSlot (37 + verdict)) 1).hostRsp m (if verdict = 0 then .sealGood else if verdict = 1 then .sealBad else .sealVoid) [] cause 0
  if s.portUp s.hostPort && (s.port s.hostPort).wait.any (fun k => k.op.cls == 2 && k.h.tag == m.h.tag) then s.exclude m.h.sc.val else s

/-! ### What the manager knows of a device -/

def TopoE.valid (e : TopoE) : Bool := F.TOPO_ENT_W0_VALID.get e.w0 == 1
def TopoE.state (e : TopoE) : Nat := F.TOPO_ENT_W0_STATE.get e.w0
def TopoE.is232 (e : TopoE) : Bool := F.TOPO_ENT_W0_GEN.get e.w0 == 1
/-- User capacity in bytes (R137, check 4). -/
def TopoE.capacity (e : TopoE) : Nat := if e.is232 then e.userGib * 2 ^ 30 else Config.userBytes

/-- R24, R37, R280, R436: whether requests to device `d` draw UNREACHABLE. -/
def State.unreachable (s : State) (d : Nat) : Bool := (s.ent d).state != 0 || (s.ent d).halted

/-- R9, R126: whether a device is an EVS-232 or lies beyond one. -/
def State.noEngines (s : State) (d : Nat) : Bool := (s.ent d).is232 || (s.ent d).behind.any (fun v => (s.ent v).is232)

/-- R24, R280: whether requests to device `d` wait for the topology table: a re-survey runs, or a halted device lies on the route. -/
def State.routeHeld (s : State) (d : Nat) : Bool := d != 0 && (s.topo.settling || (s.ent d).behind.any (fun v => (s.ent v).halted))

/-- The valid entry of a device's master map that covers a local address (R268). -/
def State.mapEntry (s : State) (d loc : Nat) : Option (List Nat) :=
  (s.prot.maps.find? (fun e => e.1 / 256 == d && peCovers e.2 loc)).map (·.2)

/-- Whether the manager's map marks a local address of a device as protected. -/
def State.mapProt (s : State) (d loc : Nat) : Bool := match s.mapEntry d loc with | some e => peKind e == 1 | none => false

/-- R271: whether the map admits a request with a KeyID. -/
def State.mapAdmits (s : State) (d loc kid : Nat) : Bool :=
  match s.mapEntry d loc with
  | none => kid == 0
  | some e =>
    if peKind e = 0 then kid == 0
    else if peKind e = 1 then decide (peKeyLo e ≤ kid) && decide (kid ≤ peKeyHi e) && (s.key kid).state == 1
    else false

/-- Whether a map write concerns an address of a device. -/
def MapJob.meets (j : MapJob) (d loc : Nat) : Bool := j.dev == d && (peCovers j.old loc || peCovers j.new loc)

/-- R270 step 1: whether a map write that is being applied concerns an address. -/
def State.mapHeld (s : State) (d loc : Nat) : Bool := s.isManager && s.prot.jobs.any (fun j => j.meets d loc)

/-! ### Sources and fences -/

/-- Whether a request lies in a fence's scope; a HINT names no device. -/
def FenceS.scope (f : FenceS) (m : Msg) : Bool := sameSource f.m m && (f.all || (m.op != .hint && adDev m.addr == f.dev))

/-- Whether a response is one to a request in a fence's scope. -/
def FenceS.awaits (f : FenceS) (m : Msg) : Bool :=
  (m.op.cls == 1 || m.op.cls == 2) && m.op != .fdone && m.h.dst == f.m.h.src && m.h.dstHost == f.m.h.srcHost && m.h.agent == f.m.h.agent &&
  (f.all || adDev m.addr == f.dev)

/-- R108: whether a request that arrived as number `n` is held by a fence. -/
def State.fenced (s : State) (n : Nat) (m : Msg) : Bool := s.mgr.fences.any (fun f => decide (f.id < n) && f.scope m)

/-- The host requests that a merge entry of the manager holds. -/
def MergeE.msgs (e : MergeE) : List Msg := (e.who ++ e.behind).map (·.m)

/-- The host requests whose response, and SEAL where one is due, has not been sent, beside those at the ingress. -/
def State.hostOpen (s : State) : List Msg :=
  s.mgr.reqs.flatMap (fun r => match r.2.purpose with | .host => [r.2.m] | .rmwRead => [] | .commit w => w) ++
  s.mgr.merges.flatMap MergeE.msgs

/-- R108: whether FDONE may be sent for a fence: no earlier request in its scope waits for its response, no such response waits at the
port, and no earlier fence holds it. -/
def State.fenceDone (s : State) (f : FenceS) : Bool :=
  !(s.hostOpen.any f.scope) && !(s.mgr.ingress.any (fun e => decide (e.1 < f.id) && e.2.op != .hint && f.scope e.2)) &&
  !((s.port .ca).wait.any f.awaits) && !((s.port .cb).wait.any f.awaits) && !s.fenced f.id f.m

/-! ### Requests to devices -/

/-- REQ_TIMEOUT in ns (R181). -/
def State.reqTimeout (s : State) : Nat := s.fld Reg.NDL_REQ_TMO F.NDL_REQ_TMO_TMO * 10000

/-- R107: the first tag from `t` on that is not in use, of at most `n` tried. -/
def freeTag (used : Nat → Bool) : Nat → Nat → Option Nat
  | 0, _ => none
  | n + 1, t => if used t then freeTag used n ((t + 1) % 65536) else some t

/-- R107, R167: the internal tag of the next request: one that is neither outstanding nor still awaits a late response. The ingress admits no more
requests than there are such tags (`State.tagsDue`). -/
def State.reqTag (s : State) : Nat :=
  (freeTag (fun t => (AMap.find t s.mgr.reqs).isSome || s.mgr.late.contains t) 65536 s.mgr.nextTag).getD s.mgr.nextTag

/-- The internal tags that are in use or that what the merge buffer holds will need. -/
def State.tagsDue (s : State) : Nat := s.mgr.reqs.length + s.mgr.late.length + (s.mgr.merges.map (fun e => 1 + e.behind.length)).sum

/-- R167: sends a request to a device under a new internal tag. -/
def State.sendReq (m : Msg) (op : MOp) (dev line kid sc : Nat) (prot : Bool) (data : List Byte) (tag64 flags addr : Nat) (p : Purpose)
    (s : State) : State :=
  let t := s.reqTag
  let r : MReq := { m := m, dev := dev, line := line, kid := kid, prot := prot, sc := sc, time := s.now, limit := s.reqTimeout, purpose := p }
  let s := { s with mgr.nextTag := (t + 1) % 65536, mgr.reqs := AMap.put t r s.mgr.reqs, mgr.late := s.mgr.late.filter (· != t) }
  s.route none { op := op, h := s.hdrTo dev false .switch t (data.length / 32) sc flags, addr := addr, data := data, tag64 := tag64 }

/-- The keys of a KeyID encrypt and tag a line, which leaves as a protected WR128 (R170, R265, R266, R282); a line that stands in place of a
lost one leaves as zeros (R149). -/
def State.protWrite (m : Msg) (dev line kid sc : Nat) (plain : List Byte) (fl : Nat) (p : Purpose) (s : State) : State :=
  let k := s.key kid
  let ct := if fl = 3 then zeros 128 else lineEncrypt k.kData k.kTweak dev (line * 128) plain
  s.sendReq m .wr128 dev line kid sc true ct (lineTag k.kTag dev (line * 128) kid ct) fl (mkAddr kid dev (line * 128)) p

/-- Sends the read of a protected line; FLAGS[1] tells the owner of a NOSPEC read, as the read of a read-modify-write is one (R172, R282). -/
def State.protRead (m : Msg) (dev line kid sc : Nat) (p : Purpose) (s : State) : State :=
  s.sendReq m .rd128 dev line kid sc true [] 0 (if p = .host then m.h.flags.toNat / 2 % 2 * 2 else 2) (mkAddr kid dev (line * 128)) p

/-! ### The merge buffer for protected lines (R151, R152, R154, R282) -/

/-- The merge entry of a line. -/
def State.mgrMerge (s : State) (dev line : Nat) : Option MergeE := s.mgr.merges.find? (fun e => e.dev == dev && e.line == line)

def State.mgrDrop (dev line : Nat) (s : State) : State :=
  { s with mgr.merges := s.mgr.merges.filter (fun e => !(e.dev == dev && e.line == line)) }

def State.mgrPut (e : MergeE) (s : State) : State :=
  { s with mgr.merges := s.mgr.merges.map (fun (x : MergeE) => if x.dev == e.dev && x.line == e.line then e else x) }

/-- The header source that stands for writes of several sources: the first one held. -/
def MergeE.head (e : MergeE) : Msg :=
  match e.who with
  | w :: _ => w.m
  | [] => { op := .wr64, h := { port := .ca, ndata := 0, sc := 0, tag := 0, src := 0, srcHost := true, dst := 0, dstHost := false, agent := .switch, flags := 0 }, addr := 0 }

/-- The whole line that an entry makes leaves for its device: sealed, or as it is where a relay writes an open line (R283). -/
def State.mgrWrite (e : MergeE) (plain : List Byte) (fl : Nat) (who : List Msg) (s : State) : State :=
  let s := s.mgrDrop e.dev e.line
  if s.mapProt e.dev (e.line * 128) then s.protWrite e.head e.dev e.line e.kid e.sc plain fl (.commit who)
  else s.sendReq e.head .wr128 e.dev e.line e.kid e.sc false plain 0 fl (mkAddr e.kid e.dev (e.line * 128)) (.commit who)

/-- The writes that an entry answers, with the word before an atomic operation. -/
def MergeE.asks (e : MergeE) : List Msg := e.who.map (fun w => if e.upd.isSome then { w.m with data := e.old } else w.m)

/-- Commits an entry as one whole-line write (R152). -/
def State.mgrWhole (e : MergeE) (plain : List Byte) (s : State) : State := s.mgrWrite e plain 0 e.asks

/-- R282 step 1: starts the read-modify-write of an entry. -/
def State.mgrRmw (e : MergeE) (s : State) : State :=
  let e := { e with busy := true }
  let s := if (s.mgrMerge e.dev e.line).isSome then s.mgrPut e else { s with mgr.merges := s.mgr.merges ++ [e] }
  if s.mapProt e.dev (e.line * 128) then s.protRead e.head e.dev e.line e.kid e.sc .rmwRead
  else s.sendReq e.head .rd128 e.dev e.line e.kid e.sc false [] 0 0 (mkAddr e.kid e.dev (e.line * 128)) .rmwRead

/-- R282, R283: a relay's change of part of a line: a read-modify-write of the manager's own, behind one that runs. -/
def State.mgrUpd (m : Msg) (u : Upd) (s : State) : State :=
  let w : Held := { m := m, time := s.now }
  match s.mgrMerge (adDev m.addr) (lineIx (adLocal m.addr)) with
  | none => s.mgrRmw { s.mergeFor w with dev := adDev m.addr, who := [w], upd := some u }
  | some e =>
    let e := { e with behind := e.behind ++ [w] }
    if e.busy then s.mgrPut e else s.mgrRmw e

/-- A protected WR64 (R151, R152, R154). -/
def State.mgr64 (m : Msg) (s : State) : State :=
  let w : Held := { m := m, time := s.now }
  let dev := adDev m.addr
  let l := lineIx (adLocal m.addr)
  match s.mgrMerge dev l with
  | none =>
    let e := { s.mergeNew w with dev := dev }
    if entriesUsed s.mgr.merges < Config.MERGE_ENTRIES then
      let s := { s with mgr.merges := s.mgr.merges ++ [e] }
      if s.mergeWait = 0 then s.mgrRmw e else s
    else (((s.raise Reg.NDL_LINE_STATUS F.NDL_LINE_STATUS_MERGE_FULL).bump (devSlot 86) 1).fault 99 0 []).mgrRmw { e with excess := true }
  | some e =>
    if e.busy then s.mgrPut { e with behind := e.behind ++ [w] }
    else if e.kid = adKey m.addr then
      let e := e.setHalf w
      match e.whole with
      | some d => (s.bump (devSlot 83) 1).mgrWhole e d
      | none => s.mgrPut e
    else (s.mgrRmw { e with behind := e.behind ++ [w] })

/-! ### Serving a request that has passed its checks -/

/-- FLAGS that the manager sends with a write: those of its relay engines; a host sets none (R102). -/
def Msg.relayFlags (m : Msg) : Nat := if m.ofRelay && (m.op == .wr64 || m.op == .wr128) then m.h.flags.toNat % 4 else 0

/-- R178: a read at the manager that waits for the commit of a merge entry. -/
def State.mgrBehindMerge (m : Msg) (s : State) : State :=
  if m.op = .rd64 ∨ m.op = .rd128 then (s.bump (devSlot 85) 1).exclude m.h.sc.val else s

/-- Forwards a request to a line of no protected entry, or holds it behind a relay's read-modify-write of that line. -/
def State.mgrOpen (m : Msg) (s : State) : State :=
  let dev := adDev m.addr
  let l := lineIx (adLocal m.addr)
  match s.mgrMerge dev l with
  | none => s.sendReq m m.op dev l (adKey m.addr) m.h.sc.val false m.data 0 m.relayFlags m.addr .host
  | some e => s.mgrPut { e with behind := e.behind ++ [{ m := m, time := s.now }] }

/-- Forwards a request, or gives it to the merge buffer. -/
def State.mgrServe (m : Msg) (s : State) : State :=
  match m.upd with
  | some u => s.mgrUpd m u
  | none =>
  let w : Held := { m := m, time := s.now }
  let dev := adDev m.addr
  let loc := adLocal m.addr
  let l := lineIx loc
  let kid := adKey m.addr
  let sc := m.h.sc.val
  if !s.mapProt dev loc then s.mgrOpen m
  else if m.op = .wr64 then s.mgr64 m
  else
    let serve (s : State) : State :=
      if m.op = .wr128 then s.protWrite m dev l kid sc m.data m.relayFlags .host else s.protRead m dev l kid sc .host
    match s.mgrMerge dev l with
    | none => serve s
    | some e =>
      if e.busy then (s.mgrBehindMerge m).mgrPut { e with behind := e.behind ++ [w] }
      else if m.op = .wr128 ∧ m.relayFlags = 0 then s.mgrWhole { e with kid := kid, who := e.who ++ [w] } m.data
      else (s.mgrBehindMerge m).mgrRmw { e with behind := e.behind ++ [w] }

/-- Serves what waited behind a read-modify-write. -/
def State.mgrBehind (l : List Held) (s : State) : State := forEach l (fun w s => s.mgrServe w.m) s

/-! ### Admission at the manager -/

/-- What the manager does with a host request now: an error of a cause, hold it, or forward it. -/
inductive Verdict where
  | err (cause : Nat) | hold | limit | go
  deriving DecidableEq, Repr

/-- Host requests of a class outstanding to a device, those that the merge buffer holds or commits among them (R184). -/
def State.mgrCount (s : State) (dev sc : Nat) : Nat :=
  s.hostOpen.countP (fun m => !m.ofRelay && adDev m.addr == dev && m.h.sc.val == sc)

/-- A request held at the ingress by its class, counted once (R184). -/
def State.limitHeld (n : Nat) (m : Msg) (s : State) : State :=
  if s.mgr.limited.contains n then s
  else
    let s := ({ s with mgr.limited := s.mgr.limited ++ [n] }).bump (classSlot m.h.sc.val 1) 1
    if m.h.sc.val < 4 then s.raise Reg.SVC_STATUS F.SVC_STATUS_HELD else s

/-- R108, R137, R24, R270, R271, R184, R106: judges a request that arrived as number `n`, behind the requests `before` that wait. -/
def State.mgrJudge (s : State) (before : List Msg) (n : Nat) (m : Msg) : Verdict :=
  let d := adDev m.addr
  let loc := adLocal m.addr
  if s.fenced n m || m.op == .hint then .hold
  else if adZero m.addr ≠ 0 then .err Cause.illegalAddr
  else if m.addr % granule m.op ≠ 0 then .err Cause.misaligned
  else if !(s.ent d).valid then .err Cause.noDevice
  else if (s.ent d).halted then .err Cause.unreachable
  else if s.routeHeld d then .hold
  else if s.unreachable d then .err Cause.unreachable
  else if (s.ent d).capacity ≤ loc then .err Cause.outOfRange
  else if s.mapHeld d loc then .hold
  else if !s.mapAdmits d loc (adKey m.addr) then .err Cause.protDenied
  else if before.any (fun b => sameSource b m && adDev b.addr == d && lineIx (adLocal b.addr) == lineIx loc) then .hold
  else if s.limit m.h.sc.val + Config.HOLD_DEPTH ≤ s.mgrCount d m.h.sc.val then .limit
  else if 65536 ≤ s.tagsDue then .hold
  else .go

/-- R178: whether a request that is held meets an excluded event: a re-survey or route change that concerns its device. -/
def State.resurveyed (s : State) (m : Msg) : Bool := m.op != .hint && (s.ent (adDev m.addr)).valid && s.routeHeld (adDev m.addr)

/-- The requests among what waits at the ingress; a HINT names no line. -/
def waiting (l : List (Nat × Msg)) : List Msg := (l.map (·.2)).filter (fun m => m.op != .hint)

/-- R165: a host request that fails a check; checks 1, 2 and 4 set ADDR_ERR. -/
def State.reject (m : Msg) (cause : Nat) (s : State) : State :=
  (if cause = Cause.illegalAddr ∨ cause = Cause.misaligned ∨ cause = Cause.outOfRange then
    s.raise Reg.NDL_LINE_STATUS F.NDL_LINE_STATUS_ADDR_ERR else s).hostErr m cause

/-- Tries every request at the ingress once, in order of arrival. -/
def State.ingressGo : List (Nat × Msg) → List (Nat × Msg) → State → State
  | [], kept, s => { s with mgr.ingress := kept, mgr.limited := s.mgr.limited.filter (fun n => kept.any (fun e => e.1 == n)) }
  | (n, m) :: r, kept, s =>
    match s.mgrJudge (waiting kept) n m with
    | .err c => (s.reject m c).ingressGo r kept
    | .limit => (s.limitHeld n m).ingressGo r (kept ++ [(n, m)])
    | .go => (s.mgrServe m).ingressGo r kept
    | .hold => (when (s.resurveyed m) (State.exclude m.h.sc.val) s).ingressGo r (kept ++ [(n, m)])

/-- Releases what the ingress need not hold any longer. -/
def State.ingress (s : State) : State := s.ingressGo s.mgr.ingress []

/-- A memory request of the host arrives at the manager. -/
def State.mgrRequest (m : Msg) (s : State) : State :=
  let n := s.mgr.arrivals
  let s := { s with mgr.arrivals := n + 1 }
  match s.mgrJudge (waiting s.mgr.ingress) n m with
  | .err c => s.reject m c
  | .go => s.mgrServe m
  | .hold => when (s.resurveyed m) (State.exclude m.h.sc.val) { s with mgr.ingress := s.mgr.ingress ++ [(n, m)] }
  | .limit => ({ s with mgr.ingress := s.mgr.ingress ++ [(n, m)] }).limitHeld n m

/-- A HINT of the host arrives: it waits at the ingress, at least until no fence of its source holds it (R108, R111). -/
def State.mgrHint (m : Msg) (s : State) : State :=
  { s with mgr.arrivals := s.mgr.arrivals + 1, mgr.ingress := s.mgr.ingress ++ [(s.mgr.arrivals, m)] }

/-- R108: a FENCE of the host arrives. -/
def State.mgrFence (m : Msg) (s : State) : State :=
  let n := s.mgr.arrivals
  { s with mgr.arrivals := n + 1, mgr.fences := s.mgr.fences ++ [{ id := n, m := m, all := bit m.h.flags.toNat 0, dev := adDev m.addr }] }

/-- R108: FDONE leaves for a fence whose earlier requests have had their responses, and releases what it held. -/
def State.mgrFdone (id : Nat) (s : State) : State :=
  match s.mgr.fences.find? (fun f => f.id == id) with
  | none => s
  | some f =>
    if s.fenceDone f then (({ s with mgr.fences := s.mgr.fences.filter (fun f => f.id != id) }).hostRsp f.m .fdone [] 0 0).ingress else s

/-! ### Configuration accesses (R115 to R117) -/

/-- R107: the tag of the manager's next CFG access: one that is neither outstanding nor still awaits a late response. -/
def State.cfgTag (s : State) : Option Nat :=
  freeTag (fun t => (AMap.find t s.mgr.cfg).isSome || s.mgr.lateC.contains t) 65536 s.mgr.nextC

/-- A CFG access is outstanding no longer although its response has not come. -/
def State.cfgGone (t : Nat) (s : State) : State := { s with mgr.cfg := AMap.del t s.mgr.cfg, mgr.lateC := s.mgr.lateC ++ [t] }

/-- A CFG message of the manager leaves under a tag of its own, or waits until one is free (R107). -/
def State.tagCfg (use : WardenUse) (m : Msg) (s : State) : State :=
  match s.cfgTag with
  | some t =>
    ({ s with mgr.nextC := (t + 1) % 65536, mgr.cfg := AMap.put t { dst := m.h.dst.val, use := use, time := s.now } s.mgr.cfg }).route none
      { m with h := { m.h with tag := BitVec.ofNat 16 t } }
  | none => { s with mgr.waitC := s.mgr.waitC ++ [(use, m)] }

/-- CFG messages that have waited for a tag leave. -/
def State.cfgTags (s : State) : State :=
  if s.mgr.waitC.isEmpty || s.cfgTag.isNone then s
  else forEach s.mgr.waitC (fun e => State.tagCfg e.1 e.2) { s with mgr.waitC := [] }

/-- Sends a CFG message to a device. -/
def State.sendCfg (dst : Nat) (op : MOp) (reg : Nat) (words : List Nat) (count : Nat) (use : WardenUse) (s : State) : State :=
  let h := s.hdrTo dst false .warden 0 0 0 (count - 1)
  let h := match use with | .host m => { h with srcHost := true, src := m.h.src, agent := .switch } | _ => h
  s.tagCfg use { op := op, h := h, addr := reg, words := words }

/-- A write by the manager's warden. -/
def State.wardenWrite (dst reg : Nat) (words : List Nat) (use : WardenUse) (s : State) : State :=
  s.sendCfg dst .cwr reg words words.length use

/-- R125: the words that one CFG message to a device carries at most: one where the route crosses a link of version 1.1. -/
def State.cfgWords (s : State) (n : Nat) : Nat := if s.noEngines n then 1 else 4

/-- Writes of successive registers by the manager's warden, in as few messages as the route carries. -/
def State.wardenData (dst reg : Nat) (words : List Nat) (s : State) : State :=
  if s.noEngines dst then forEach words.zipIdx (fun w s => s.wardenWrite dst (reg + 4 * w.2) [w.1] .seq) s else s.wardenWrite dst reg words .seq

/-- The CFG response that the manager gives in place of a target, or passes on, to the host (R116). -/
def State.cfgAnswer (m : Msg) (words : List Nat) (status : Nat) (s : State) : State :=
  s.sendOn s.hostPort { s.rspMsg m (if m.op = .crd then .crdRsp else .cwrRsp) [] status m.h.flags.toNat 0 with words := words }

/-- A CFG message of the host arrives at the manager, for any device but the manager's own (R116). -/
def State.mgrCfg (m : Msg) (count : Nat) (s : State) : State :=
  let d := m.h.dst.val
  let e := s.ent d
  if m.way.isSome ∨ (s.noEngines d ∧ 1 < count) then s.cfgAnswer m [] 5
  else if !e.valid then s.cfgAnswer m [] 1
  else if e.state = 1 ∨ e.state = 2 ∨ e.halted then s.cfgAnswer m [] 2
  else s.sendCfg d m.op m.addr m.words count (.host m)

/-! ### The halt of an owner (R280, R281) -/

/-- Ends a request outstanding at the manager with an error to everyone it answers. -/
def State.mgrFail (t : Nat) (r : MReq) (cause : Nat) (s : State) : State :=
  let s := { s with mgr.reqs := AMap.del t s.mgr.reqs }
  match r.purpose with
  | .host => s.hostErr r.m cause
  | .commit w => forEach w (fun m s => s.hostErr m cause) s
  | .rmwRead =>
    match s.mgrMerge r.dev r.line with
    | none => s
    | some e =>
      let s := s.mgrDrop r.dev r.line
      let s := forEach e.who (fun w s => s.hostErr w.m cause) s
      s.mgrBehind e.behind

/-- Whether a request's response has not arrived. -/
def MReq.waits (r : MReq) : Bool := r.open_.isNone

/-- Whether the data of a speculative read has left while its tag is still being verified (R112). -/
def MReq.sealDue (r : MReq) : Bool := r.purpose == .host && r.prot && r.open_.isSome && !bit r.m.h.flags.toNat 1

/-- R178, R24: a request has met a path reset, which the manager counts. -/
def State.resetMark (sc : Nat) (s : State) : State := ((s.bump (devSlot 82) 1).exclude sc).fault 100 0 []

/-- R112, R171: the seals that a path reset makes impossible: VOID. -/
def State.voidSeals (ds : List Nat) (s : State) : State :=
  forEach (s.mgr.reqs.filter (fun r => ds.contains r.2.dev && r.2.sealDue)) (fun r s =>
    (({ s with mgr.reqs := AMap.del r.1 s.mgr.reqs }).sendSeal r.2.m 2 Cause.pathReset).resetMark r.2.sc) s

/-- The host requests that one of the manager's requests to a device answers. -/
def MReq.owners (r : MReq) : List Msg := match r.purpose with | .host => [r.m] | .rmwRead => [] | .commit w => w

/-- R24, R280: the merge entries for devices of `ds` are dropped, with what they hold and what waits behind them; what is left to answer. -/
def State.dropMerges (ds : List Nat) (s : State) : List Msg × State :=
  ((s.mgr.merges.filter (fun e => ds.contains e.dev)).flatMap MergeE.msgs,
   { s with mgr.merges := s.mgr.merges.filter (fun e => !ds.contains e.dev) })

/-- R24, R280: every request that waits for a device of `ds`, also in the merge buffer, is answered with PATH_RESET; a response that comes later is
late. -/
def State.resetReqsTo (ds : List Nat) (s : State) : State :=
  let hit := s.mgr.reqs.filter (fun r => ds.contains r.2.dev && r.2.waits)
  let held := (s.dropMerges ds).1
  let s := forEach hit (fun r s => { s with mgr.late := s.mgr.late ++ [r.1], mgr.reqs := AMap.del r.1 s.mgr.reqs }) (s.dropMerges ds).2
  let s := forEach (hit.flatMap (fun r => r.2.owners) ++ held) (fun m s => (s.hostErr m Cause.pathReset).resetMark m.h.sc.val) s
  let cfg := s.mgr.cfg.filter (fun c => ds.contains c.2.dst)
  forEach cfg (fun c s => match c.2.use with
    | .host m => (s.cfgGone c.1).cfgAnswer m [] 3
    | _ => { s with mgr.cfg := AMap.put c.1 { c.2 with lost := true } s.mgr.cfg }) s

/-- R24: the route to the devices `ds` has changed, or they have cleared: what is outstanding to them ends with a path reset. -/
def State.pathReset (ds : List Nat) (s : State) : State := (s.voidSeals ds).resetReqsTo ds

/-- R280: the manager finds that a tag fails with a matching KeyID. -/
def State.mgrHalt (dev loc kid : Nat) (s : State) : State :=
  if (s.ent dev).halted then s
  else
    let s := (s.modEnt dev (fun e => { e with halted := true })).resetReqsTo [dev]
    let s := s.noticeFor dev 0x10 3 ([BitVec.ofNat 8 dev] ++ leBytes 8 loc ++ leBytes 2 kid)
    let s := { s with flt.hostNtc := s.flt.hostNtc.map (fun (n : NoticeS) => if n.ntype == 0x10 then { n with first := 0 } else n) }
    let s := (((s.bump (mgrSlot 40) 1).raise Reg.PROT_STATUS F.PROT_STATUS_HALT_ORDERED).ntcFlush 64)
    if dev = 0 then s.fault 86 0 []
    else s.wardenWrite dev Reg.FAULT_CTL [F.FAULT_CTL_KEY_HALT.mask.toNat] (.halt dev)

/-! ### Responses from devices (R103, R167) -/

/-- The bytes of a line that a read asked for. -/
def readPart (op : MOp) (loc : Nat) (line : List Byte) : List Byte :=
  if op = .rd64 then (if upperHalf loc then line.drop 64 else line.take 64) else line

/-- R153, R282: writes the merged line of an entry with what it does not hold zero and POISON set; every write draws UNCORRECTABLE. An atomic
operation leaves the line as it is (R246). -/
def State.mgrPoison (e : MergeE) (s : State) : State :=
  let s := match e.upd with
    | some (.atom _ _ _ _) => s.mgrDrop e.dev e.line
    | _ => (s.mgrWrite e (e.merged (zeros 128)) 1 []).raise Reg.NDL_LINE_STATUS F.NDL_LINE_STATUS_POISON_WR
  (forEach e.who (fun w s => s.hostErr w.m Cause.uncorrectable) s).mgrBehind e.behind

/-- R277, R282 step 4: merges an entry with the old plaintext and writes the whole line sealed. -/
def State.mgrFinish (e : MergeE) (old : List Byte) (s : State) : State :=
  (s.mgrWhole { e with old := e.answers old } (e.merged old)).mgrBehind e.behind

/-- Whether a protected read found a line in STATE CLEAR: its owner answered with zero data and a zero tag (R277). -/
def clearLine (data : List Byte) (tag64 flags : Nat) : Bool := data.all (· == 0) && tag64 == 0 && !bit flags 2

/-- RDATA of a request with internal tag `t` reaches the manager. -/
def State.mgrRdata (t : Nat) (r : MReq) (data : List Byte) (tag64 flags : Nat) (s : State) : State :=
  let corr := 2 * (flags / 2 % 2)
  let fin (s : State) : State := { s with mgr.reqs := AMap.del t s.mgr.reqs }
  let loc := adLocal r.m.addr
  if !r.prot then
    (match r.purpose, s.mgrMerge r.dev r.line with
      | .rmwRead, some e => (fin s).mgrFinish e data
      | .rmwRead, none => fin s
      | _, _ => (fin s).hostRsp r.m .rdata data 0 corr)
  else
    let op : Option (List Byte × Nat × Bool) := some (data, tag64, bit flags 2)
    match r.purpose with
    | .rmwRead =>
      match s.mgrMerge r.dev r.line with
      | none => fin s
      | some e =>
        if clearLine data tag64 flags then (fin s).mgrFinish e (zeros 128)
        else if bit flags 2 then s.mgrFail t r Cause.uncorrectable
        else { s with mgr.reqs := AMap.put t { r with open_ := op } s.mgr.reqs }
    | _ =>
      if clearLine data tag64 flags then (fin s).hostRsp r.m .rdata (readPart r.m.op loc (zeros 128)) 0 corr
      else
        let s := { s with mgr.reqs := AMap.put t { r with open_ := op, corr := corr } s.mgr.reqs }
        if bit r.m.h.flags.toNat 1 then s
        else
          let k := s.key r.kid
          s.hostRsp r.m .rdata (readPart r.m.op loc (lineDecrypt k.kData k.kTweak r.dev (r.line * 128) data)) 0 (1 + corr)

/-- R112 to R114, R278, R282: the CMAC of a protected read completes. -/
def State.mgrVerify (t : Nat) (s : State) : State :=
  match AMap.find t s.mgr.reqs with
  | none => s
  | some r =>
    match r.open_ with
    | none => s
    | some (ct, tag64, tagErr) =>
      let k := s.key r.kid
      let ok := lineTag k.kTag r.dev (r.line * 128) r.kid ct == tag64
      let plain := lineDecrypt k.kData k.kTweak r.dev (r.line * 128) ct
      let s1 := { s with mgr.reqs := AMap.del t s.mgr.reqs }
      let bad (s : State) : State := s.mgrHalt r.dev (r.line * 128) r.kid
      match r.purpose with
      | .rmwRead =>
        (match s.mgrMerge r.dev r.line with
          | none => s1
          | some e =>
            if ok then s1.mgrFinish e plain
            else bad ((forEach e.who (fun w s => s.hostErr w.m Cause.tagFail) (s1.mgrDrop r.dev r.line)).mgrBehind e.behind))
      | _ =>
        if bit r.m.h.flags.toNat 1 then
          if tagErr then s1.hostErr r.m Cause.uncorrectable
          else if ok then s1.hostRsp r.m .rdata (readPart r.m.op (adLocal r.m.addr) plain) 0 r.corr
          else bad (s1.hostErr r.m Cause.tagFail)
        else
          if tagErr then s1.sendSeal r.m 2 Cause.uncorrectable
          else if ok then s1.sendSeal r.m 0 0
          else bad (s1.sendSeal r.m 1 Cause.tagFail)

/-- WDONE of a request with internal tag `t` reaches the manager. -/
def State.mgrWdone (t : Nat) (r : MReq) (s : State) : State :=
  let s := { s with mgr.reqs := AMap.del t s.mgr.reqs }
  match r.purpose with
  | .commit w => forEach w (fun m s => s.hostRsp m .wdone (if m.upd.isSome then m.data else []) 0 0) s
  | _ => s.hostRsp r.m .wdone [] 0 0

/-- ERR of a request with internal tag `t` reaches the manager; it is passed on with its cause. -/
def State.mgrErr (t : Nat) (r : MReq) (cause : Nat) (s : State) : State :=
  let s1 := { s with mgr.reqs := AMap.del t s.mgr.reqs }
  match r.purpose with
  | .host => s1.hostRsp r.m .err [] cause 0
  | .commit w => forEach w (fun m s => s.hostRsp m .err [] cause 0) s1
  | .rmwRead =>
    match s.mgrMerge r.dev r.line with
    | none => s1
    | some e =>
      if cause = Cause.uncorrectable then s1.mgrPoison e
      else (forEach e.who (fun w s => s.hostRsp w.m .err [] cause 0) (s1.mgrDrop r.dev r.line)).mgrBehind e.behind

/-- R134: a response that matches nothing outstanding. -/
def State.tagErr (s : State) : State := (s.raise Reg.NDL_STATUS F.NDL_STATUS_TAG_ERR).fault 38 0 []

/-- A response that matches no outstanding request (R134, R167). -/
def State.mgrStray (t : Nat) (s : State) : State :=
  if s.mgr.late.contains t then
    (((({ s with mgr.late := s.mgr.late.filter (· != t) }).raise Reg.NDL_PATH_STATUS F.NDL_PATH_STATUS_LATE_RSP).bump (devSlot 81) 1).fault 41 0 [])
  else s.tagErr

/-- A memory response of a device reaches the manager: matched by its source (the manager's switch) and internal tag, its sender, and the shape of
its request (R100). -/
def State.mgrResponse (m : Msg) (s : State) : State :=
  let t := m.h.tag.toNat
  match AMap.find t s.mgr.reqs with
  | none => s.mgrStray t
  | some r =>
    if m.h.src.val ≠ r.dev ∨ m.h.srcHost ∨ m.h.agent ≠ .switch then s.tagErr
    else if !r.waits then s.mgrStray t
    else
      let rd : Bool := match r.purpose with | .host => r.m.op == .rd64 || r.m.op == .rd128 | .rmwRead => true | .commit _ => false
      let len := if r.prot then 128 else granule r.m.op
      match m.op with
      | .rdata => if rd ∧ m.data.length = len then (s.mgrRdata t r m.data m.tag64 m.h.flags.toNat).ingress else s.protoErr m.h.port
      | .wdone => if rd then s.protoErr m.h.port else (s.mgrWdone t r).ingress
      | _ => (s.mgrErr t r m.status).ingress

/-- R173: REQ_TIMEOUT has passed without a response. -/
def State.mgrTimeout (t : Nat) (s : State) : State :=
  match AMap.find t s.mgr.reqs with
  | none => s
  | some r =>
    if r.waits then
      (((({ s with mgr.late := s.mgr.late ++ [t] }.mgrFail t r Cause.timeout).bump (devSlot 80) 1).raise Reg.NDL_PATH_STATUS
        F.NDL_PATH_STATUS_REQ_TIMEOUT).fault 40 0 []).ingress
    else s

/-! ### Requests to host memory (R110) -/

/-- Sends a request to host memory. -/
def State.hostReq (use : HostUse) (op : MOp) (addr : Nat) (data : List Byte) (s : State) : State :=
  let t := (freeTag (fun t => (AMap.find t s.mgr.host).isSome) 65536 s.mgr.nextH).getD s.mgr.nextH
  let r : HReq := { use := use, len := if data.isEmpty then granule op else 0, addr := addr, time := s.now }
  let s := { s with mgr.nextH := (t + 1) % 65536, mgr.host := AMap.put t r s.mgr.host }
  s.sendOn s.hostPort { op := op, h := { s.hdrTo 0 true .queue t (data.length / 32) 0 0 with src := 0 }, addr := addr % 2 ^ 64, data := data }

end Sys2Proof.Machine
end

