-- ==== Sys2Proof/Machine/Queue.lean ====
section
/-! DEFINITION. Queues (R198 to R223): contexts, polls and doorbells, fetch turns, the checks of a descriptor (R213, R228 to R231,
R271, R272), completion records (R215 to R218), failed host-memory accesses (R219), the commands of `QCTX.CMD` (R220) and determinism
groups (R248 to R250). -/

namespace Sys2Proof.Machine

/-! The completion codes beyond those of R171 and R213 (R218). -/
namespace Code
def badField : Nat := 0x13
def aborted : Nat := 0x18
def noResource : Nat := 0x19
def locked : Nat := 0x1A
def rollback : Nat := 0x1B
def condition : Nat := 0x1C
def authFail : Nat := 0x1D
def busy : Nat := 0x1E
end Code

/-! ### Queues and rings -/

/-- Whether a queue is ENABLED. -/
def State.qEnabled (s : State) (q : Nat) : Bool := cState (s.ctx q) == 1
/-- The completion ring of a queue (R199 CQ_SEL). -/
def State.ringOf (s : State) (q : Nat) : Nat := cCqSel (s.ctx q)
/-- The queues that are not DISABLED and name a ring. -/
def State.naming (s : State) (c : Nat) : List Nat :=
  (s.que.ctx.filter (fun e => cState e.2 != 0 && cCqSel e.2 == c)).map (·.1)
/-- A subtraction modulo 2^32 of free-running counts. -/
def ahead (a b : Nat) : Nat := (a + 2 ^ 32 - b % 2 ^ 32) % 2 ^ 32
/-- R216: whether a ring has no slot left to reserve. -/
def State.ringFull (s : State) (c : Nat) : Bool :=
  let x := s.ctx c
  let res := s.que.descs.countP (fun d => s.ringOf d.q == c) + (AMap.get c ({} : CqS) s.que.cqs).recs.length
  decide (2 ^ cCqLog2 x ≤ ahead (cCqTail x) (cCqHead x) + res)
/-- R219: whether records can still be written into a ring. -/
def State.ringBad (s : State) (c : Nat) : Bool := (AMap.get c ({} : CqS) s.que.cqs).bad

/-- A descriptor in flight. -/
def State.desc (s : State) (q i : Nat) : Option DescS := s.que.descs.find? (fun d => d.q == q && d.i == i)
def State.putDesc (d : DescS) (s : State) : State :=
  { s with que.descs := s.que.descs.map (fun (x : DescS) => if x.q == d.q && x.i == d.i then d else x) }
def State.dropDesc (q i : Nat) (s : State) : State :=
  { s with que.descs := s.que.descs.filter (fun d => !(d.q == q && d.i == i)) }

/-! ### Groups (R248 to R250) -/

/-- The members of a determinism group. -/
def State.members (s : State) (g : Nat) : List Nat :=
  (s.que.ctx.filter (fun e => (cState e.2 == 1 || cState e.2 == 2) && cGrpEn e.2 && cGrp e.2 == g &&
    !(AMap.get g ({} : GroupS) s.que.groups).joining.contains e.1)).map (·.1)

/-- Whether a queue waits to join its group (R250). -/
def State.joins (s : State) (q : Nat) : Bool :=
  cGrpEn (s.ctx q) && (AMap.get (cGrp (s.ctx q)) ({} : GroupS) s.que.groups).joining.contains q

/-- Whether a descriptor is an EPOCH_END FENCE of a queue with a group. -/
def State.isEpochEnd (s : State) (d : DescS) : Bool := dOpc d.words == 0x40 && bit (dOflags d.words) 0 && cGrpEn (s.ctx d.q)

/-- The EPOCH_END FENCE of a queue's open epoch, once fetched: the earliest in flight. -/
def State.epochFence (s : State) (q : Nat) : Option DescS := s.que.descs.find? (fun d => d.q == q && s.isEpochEnd d)

/-- `ENG.STATUS.EPOCH_OPEN`. -/
def State.epochFlag (s : State) : State :=
  s.cond Reg.ENG_STATUS F.ENG_STATUS_EPOCH_OPEN (s.que.ctx.any (fun e => (cState e.2 == 1 || cState e.2 == 2) && cGrpEn e.2))

/-! ### Completion (R210, R215 to R217) -/

/-- R220: a queue that drains reaches DISABLED once nothing is in flight. -/
def State.drained (q : Nat) (s : State) : State :=
  let c := s.ctx q
  if cState c = 2 ∧ cInflight c = 0 then
    ((s.setCtx q (cPutState c 0)).raise Reg.QCTX_STATUS F.QCTX_STATUS_DRAINED).epochFlag
  else s

/-- One descriptor of a queue is no longer in flight. -/
def State.inflightDown (q : Nat) (s : State) : State :=
  let c := s.ctx q
  (s.setCtx q (cPutInflight c (cInflight c - 1))).drained q

/-- R262: a key slot turns ACTIVE. -/
def State.keyActive (k : Nat) (s : State) : State := s.setKey k { s.key k with state := 1, pend := false }

/-- R471: a reset write is accepted; the warm start follows after RESET_DELAY. -/
def State.resetSoon (cause : Nat) (s : State) : State := { s with power.resetAt := some (s.now + Config.RESET_DELAY, cause) }

/-- The records of the granule that the oldest waiting record of a ring lies in. -/
def CqS.granule (c : CqS) : List RecS :=
  match c.recs with
  | [] => []
  | r :: _ => c.recs.filter (fun x => x.n / 4 == r.n / 4)

/-- R217: sends the write of the granule of the oldest records; `old` is the granule as read, where it was. -/
def State.recSend (cq : Nat) (old : List Byte) (s : State) : State :=
  let c := AMap.get cq ({} : CqS) s.que.cqs
  let g := c.granule
  match g with
  | [] => s
  | r :: _ =>
    let x := s.ctx cq
    let slot := r.n % 2 ^ cCqLog2 x
    let data := g.foldl (fun d r => splice d (r.n % 4 * 16) (leBytes 16 r.word)) old
    let s := forEach g (fun r s => match r.key with | some k => s.keyActive k | none => s) s
    let s := s.setCtx cq (cPut x 10 (cCqTail x + g.length))
    let s := { s with que.cqs := AMap.put cq { c with recs := c.recs.filter (fun x => x.n / 4 != r.n / 4), read := none } s.que.cqs }
    s.hostReq (.recWrite cq g) .wr64 (cCq x + slot / 4 * 64) data

/-- R217: writes the granule of the oldest records, reading it first where a slot of it is not new. -/
def State.recWrite (cq : Nat) (s : State) : State :=
  let c := AMap.get cq ({} : CqS) s.que.cqs
  match c.granule with
  | [] => s
  | r :: t =>
    if t.length = 3 then s.recSend cq (zeros 64)
    else if c.read = some (r.n / 4) then s
    else
      let x := s.ctx cq
      ({ s with que.cqs := AMap.put cq { c with read := some (r.n / 4) } s.que.cqs }).hostReq (.recRead cq (r.n / 4)) .rd64
        (cCq x + r.n % 2 ^ cCqLog2 x / 4 * 64) []

/-- R482: the counter that tells apart the ends of a KEY_LOAD, a KEY_RETIRE or an FW_STAGE by their codes. -/
def endSlot (op code : Nat) : Option Nat :=
  let pick (first : Nat) (l : List Nat) : Nat := first + (l.findIdx? (· == code)).getD l.length
  if op = 0x43 then some (pick 41 [0, Code.locked, Code.authFail, Code.condition])
  else if op = 0x44 ∧ code = 0 then some 46
  else if op = 0x48 then some (pick 53 [0, Code.badField, Code.locked, Code.rollback, Code.condition, Code.busy])
  else none

/-- R482: counts the end of a descriptor. -/
def State.countEnd (op code : Nat) (s : State) : State :=
  let s := s.bump (mgrSlot (code + 1)) 1
  match endSlot op code with | some k => s.bump (mgrSlot k) 1 | none => s

/-- R215, R216: assembles the record of a descriptor that has completed; QUIET and a ring that cannot be written end it at once. -/
def State.record (d : DescS) (code value : Nat) (key : Option Nat) (reset : Bool) (s : State) : State :=
  let cq := s.ringOf d.q
  let s := (s.dropDesc d.q d.i).countEnd (dOpc d.words) code
  if (code = 0 ∧ dQuiet d.words) ∨ s.ringBad cq then
    let s := if code = 0 ∧ dQuiet d.words then s else s.bump (mgrSlot 32) 1
    let s := match key with | some k => s.keyActive k | none => s
    (if reset then s.resetSoon 2 else s).inflightDown d.q
  else
    let x := s.ctx cq
    let c := AMap.get cq ({} : CqS) s.que.cqs
    let n := (cCqTail x + c.recs.length) % 2 ^ 32
    let phase := 1 - n / 2 ^ cCqLog2 x % 2
    let w := d.q + (phase * 2 ^ 15 + code) * 2 ^ 16 + dSeq d.words * 2 ^ 32 + value % 2 ^ 32 * 2 ^ 64 + dCtag d.words * 2 ^ 96
    let c := { c with recs := c.recs ++ [{ n := n, q := d.q, word := w, key := key, reset := reset }] }
    let s := { s with que.cqs := AMap.put cq c s.que.cqs }
    if c.granule.length = 4 then s.recWrite cq else s

/-- R228: the host address of the result granule of an engine descriptor, where it has one. -/
def resultGranule (w : List Nat) : Option Nat :=
  match dOpc w with
  | 4 => if dDst w = 0 then none else some (dDst w)
  | 5 => if dDst w = 0 then none else some (dDst w)
  | 8 => some (dDst w)
  | _ => none

/-- A descriptor's work has ended with a code; an engine descriptor that passed its checks writes its result granule first (R228). -/
def State.descEnd (d : DescS) (code value : Nat) (result : List Byte) (s : State) : State :=
  match resultGranule d.words with
  | none => s.record d code (if code = 0 then value else 0) none false
  | some a =>
    let s := s.putDesc { d with stage := .granule, code := code, value := if code = 0 then value else 0 }
    s.hostReq (.granule d.q d.i) .wr64 a (if code = 0 then (result ++ zeros 64).take 64 else zeros 64)

/-! ### Failed accesses and leaving a group -/

/-- R250: a queue leaves its group: its ATOMIC_BATCH descriptors that wait for phase B and its EPOCH_END FENCE complete with ABORTED. -/
def State.leaveGroup (q : Nat) (s : State) : State :=
  if cGrpEn (s.ctx q) then
    let g := cGrp (s.ctx q)
    let grp := AMap.get g ({} : GroupS) s.que.groups
    let s := { s with que.groups := AMap.set g {} { grp with joining := grp.joining.filter (· != q) } s.que.groups }
    forEach (s.que.descs.filter (fun d => d.q == q && (d.phaseB == .waits || s.isEpochEnd d))) (fun d s => s.record d 0x18 0 none false) s
  else s

/-- R219: a queue enters ERROR; an uncorrectable context word (cause 4) takes a DISABLED one there too (R198). -/
def State.queueError (q cause : Nat) (s : State) : State :=
  let c := s.ctx q
  if cState c = 1 ∨ cState c = 2 ∨ (cState c = 0 ∧ cause = 4) then
    let s := (s.setCtx q (cPutCause (cPutState c 3) cause)).raise Reg.QCTX_STATUS F.QCTX_STATUS_QUEUE_ERR
    let s := s.setReg Reg.QCTX_LAST_ERR (BitVec.ofNat 32 (cause * 2 ^ 16 + q))
    let s := { s with que.tails := AMap.del q s.que.tails }
    (((s.notice 0x17 1 (leBytes 2 q ++ leBytes 1 cause)).fault 96 0 (leBytes 2 q ++ leBytes 1 cause)).leaveGroup q).epochFlag
  else s

/-- R219: a request to host memory drew ERR. -/
def State.hostErrFlag (s : State) : State := (s.raise Reg.QCTX_STATUS F.QCTX_STATUS_HOST_ERR).fault 97 0 []

/-- A ring's records can no longer be written: every queue that names it enters ERROR, and what waits is discarded. -/
def State.ringError (c cause : Nat) (lost : List RecS) (s : State) : State :=
  let s := forEach (s.naming c) (fun q s => s.queueError q cause) s
  let all := lost ++ (AMap.get c ({} : CqS) s.que.cqs).recs
  let s := { s with que.cqs := AMap.put c { bad := true } s.que.cqs }
  forEach all (fun r s =>
    let s := match r.key with | some k => s.keyActive k | none => s
    ((if r.reset then s.resetSoon 2 else s).bump (mgrSlot 32) 1).inflightDown r.q) s

/-! ### Polls and doorbells (R202 to R207) -/

/-- Reads the doorbell line of a queue. -/
def State.readDoorbell (q : Nat) (poll : Bool) (s : State) : State :=
  let s := if poll then { s with que.polling := s.que.polling + 1 } else s
  s.hostReq (.doorbell q poll) .rd64 (s.que.dbBase + 64 * q) []

/-- The enabled queues, in order. -/
def State.enabled (s : State) : List Nat := (s.que.ctx.filter (fun e => cState e.2 == 1)).map (·.1)

/-- Removes repeats from a list. -/
def dedup : List Nat → List Nat
  | [] => []
  | a :: r => a :: (dedup r).filter (· != a)

/-- R204, R216: starts a poll. -/
def State.pollStart (s : State) : State :=
  let s := ({ s with que.dbBase := s.que.dbNew, que.sumBase := s.que.sumNew, que.pollDue := false, que.inPoll := s.enabled }).bump (mgrSlot 33) 1
  let lines := dedup (s.enabled.map (· / 1024))
  let s := forEach lines (fun k s =>
    { s with que.polling := s.que.polling + 1 }.hostReq (.summary k) .rd128 (s.que.sumBase + 128 * k) []) s
  let rings := (dedup (s.enabled.map s.ringOf)).filter s.ringFull
  forEach rings (fun c s => s.readDoorbell c true) s

/-- `QCTX.POLL.RUN`. -/
def State.pollsRun (s : State) : Bool := s.fld Reg.QCTX_POLL F.QCTX_POLL_RUN == 1

/-- One read of a poll has been answered; a poll that was delayed starts once the running one has finished, where polls run. -/
def State.pollRead (s : State) : State :=
  let s := { s with que.polling := s.que.polling - 1 }
  if s.que.polling = 0 ∧ s.que.pollDue then (if s.pollsRun then s.pollStart else { s with que.pollDue := false }) else s

/-- R204: POLL_INTERVAL has passed. -/
def State.pollTick (s : State) : State :=
  if s.isManager && s.running && s.pollsRun then
    if s.que.polling = 0 then s.pollStart
    else (({ s with que.pollDue := true }.raise Reg.QCTX_STATUS F.QCTX_STATUS_POLL_OVERRUN).bump (mgrSlot 34) 1).fault 98 0 []
  else s

/-- R204: a summary line arrives: the doorbell lines of the enabled queues whose bits are set are read. A queue enabled since takes part from
the next poll (R220). -/
def State.summaryLine (k : Nat) (data : List Byte) (s : State) : State :=
  let n := ofLe data
  forEach (s.enabled.filter (fun q => q / 1024 == k && bit n (q % 1024) && s.que.inPoll.contains q)) (fun q s => s.readDoorbell q true) s

/-- R202, R207, R216: a doorbell line arrives. -/
def State.doorbellLine (q : Nat) (data : List Byte) (s : State) : State :=
  let tail := leAt data 0 4
  let head := leAt data 4 4
  let c := s.ctx q
  let s := if cState c = 1 then
      if 2 ^ cRingLog2 c < ahead tail (cHead c) then s.queueError q 5
      else { s with que.tails := if tail = cHead c then AMap.del q s.que.tails else AMap.put q tail s.que.tails }
    else s
  if (s.naming q).isEmpty then s
  else
    let c := s.ctx q
    let s := s.setCtx q (cPut c 11 head)
    if 2 ^ 31 ≤ ahead (cCqTail c) head then s.ringError q 6 [] else s

/-- R111, R205: a HINT for a group of queues: its doorbell lines are read, unless an earlier HINT for it is still being served. -/
def State.hintGroup (g : Nat) (s : State) : State :=
  let qs := s.enabled.filter (fun q => q / 64 == g)
  let s := s.bump (mgrSlot 35) 1
  if qs.isEmpty || (AMap.find g s.que.hints).isSome then s
  else forEach qs (fun q s => s.readDoorbell q false) { s with que.hints := AMap.put g qs.length s.que.hints }

/-- One doorbell line that a HINT asked for has been answered. -/
def State.hintRead (q : Nat) (s : State) : State :=
  { s with que.hints := AMap.set (q / 64) 0 (AMap.get (q / 64) 0 s.que.hints - 1) s.que.hints }

/-- R108: the HINTs at the ingress that no fence holds any longer take effect. -/
def State.hintsGo (s : State) : State :=
  let l := s.mgr.ingress.filter (fun e => e.2.op == .hint && !s.fenced e.1 e.2)
  forEach l (fun e s => s.hintGroup (e.2.words.headD 0)) { s with mgr.ingress := s.mgr.ingress.filter (fun e => !l.contains e) }

/-! ### Fetch (R206, R211, R212, R216) -/

/-- Queues with news. -/
def State.newsy (s : State) : List Nat :=
  (s.que.tails.filter (fun e => s.qEnabled e.1 && e.2 != cHead (s.ctx e.1) && !s.joins e.1)).map (·.1)

/-- R211: whether a class is at its limit on the manager. -/
def State.classFull (s : State) (c : Nat) : Bool := decide (s.limit c ≤ AMap.get c 0 s.own.count)

/-- Queues with news that can fetch: their ring has room (R216), and no class at its limit stopped them (R211). -/
def State.fetchable (s : State) : List Nat :=
  s.newsy.filter (fun q => !s.ringFull (s.ringOf q) && (match AMap.find q s.que.stalled with | some c => !s.classFull c | none => true))

/-- The next of a list of numbers in rotation after `last`. -/
def nextAfter (last : Nat) (l : List Nat) : Option Nat :=
  match l.find? (fun q => last < q) with
  | some q => some q
  | none => l.head?

/-- Fetches one descriptor of a queue, if its ring allows it. -/
def State.fetchOne (q : Nat) (s : State) : State × Bool :=
  let c := s.ctx q
  let tail := AMap.get q (cHead c) s.que.tails
  if tail = cHead c then (s, false)
  else if s.ringFull (s.ringOf q) then (s.bump (mgrSlot 36) 1, false)
  else
    let i := cHead c
    let d : DescS := { q := q, i := i, order := s.que.nextDesc, seqWant := cNextSeq c }
    let c := cPutInflight (cPut (cPut c 8 (i + 1)) 9 (cNextSeq c + 1)) (cInflight c + 1)
    let s := { s with que.nextDesc := s.que.nextDesc + 1, que.descs := s.que.descs ++ [d], que.stalled := AMap.del q s.que.stalled }
    ((s.setCtx q c).hostReq (.desc q i) .rd64 (cRing c + 64 * (i % 2 ^ cRingLog2 c)) [], true)

/-- Fetches up to `n` descriptors. -/
def State.fetchN (q : Nat) : Nat → State → State
  | 0, s => s
  | n + 1, s => match s.fetchOne q with
    | (s, true) => s.fetchN q n
    | (s, false) => s

/-- R206: one fetch turn. -/
def State.fetchTurn (s : State) : State :=
  let l := s.fetchable
  let s := s.bump (mgrSlot 36) (s.newsy.countP (fun q => s.ringFull (s.ringOf q)))
  match nextAfter s.que.last (l.filter (fun q => cSc (s.ctx q) < 4)) with
  | some q => ({ s with que.last := q }).fetchN q Config.FETCH_BATCH
  | none => match nextAfter s.que.lastOrd (l.filter (fun q => 4 ≤ cSc (s.ctx q))) with
    | some q => ({ s with que.lastOrd := q }).fetchN q Config.FETCH_BATCH
    | none => s

/-! ### The checks of a descriptor (R213) -/

/-- The size of an element of a type (R229). -/
def etypeSize (t : Nat) : Nat := [1, 2, 4, 8, 2, 2, 4, 8].getD t 1
/-- ESIZE in bytes (R230). -/
def esize (w : List Nat) : Nat := 8 * 2 ^ bits (dAuxN w 0 1) 2 0
/-- The device numbers of DEVMASK (R230). -/
def devMask (w : List Nat) : List Nat :=
  let m := dAuxN w 0 8
  if m = 0 then [adDev (dSrc w)] else (List.range 64).filter (bit m)
/-- A host-form address with its device number replaced. -/
def withDev (a n : Nat) : Nat := setBits a 51 46 n
/-- N and STRIDE of XOR_PARITY. -/
def xorN (w : List Nat) : Nat := dAuxN w 8 1
def xorStride (w : List Nat) : Nat := dAuxN w 0 8

/-- The device-memory operands of an engine descriptor in the order of R213, as ranges. -/
def operands (w : List Nat) : List (Nat × Nat) :=
  let len := dLen w
  match dOpc w with
  | 1 => [(dSrc w, len), (dDst w, len)]
  | 2 => [(dDst w, len)]
  | 3 => [(dDst w, len)]
  | 4 => (dSrc w, len) :: (if bit (dOflags w) 0 then [(dSrc2 w, len)] else [])
  | 5 => [(dSrc w, len)]
  | 6 => [(dSrc w, len / esize w * 8), (dDst w, len)]
  | 7 => [(dSrc w, len), (dDst w, len / esize w * 8)]
  | 8 => (devMask w).map (fun n => (withDev (dSrc w) n, len))
  | 9 => (dSrc w, len) :: (if dDst w = 0 then [] else [(dDst w, len / 32 * 16)])
  | 10 => (List.range (xorN w)).map (fun j => (dSrc w + j * xorStride w, len)) ++ [(dDst w, len)]
  | _ => []

/-- The driving operand (R240). -/
def driving (w : List Nat) : Nat := match dOpc w with | 2 => dDst w | 3 => dDst w | 10 => dDst w | _ => dSrc w

/-- Whether two ranges of device memory overlap. -/
def overlap (a b : Nat × Nat) : Bool :=
  adDev a.1 == adDev b.1 && decide (adLocal a.1 < adLocal b.1 + b.2) && decide (adLocal b.1 < adLocal a.1 + a.2)

/-- Whether every AUX byte outside the first `n` and the listed ones is zero. -/
def auxZero (w : List Nat) (used : List Nat) : Bool :=
  let a := dAux w
  (List.range a.length).all (fun k => used.contains k || a.getD k 0 == 0)

/-- SRC2 is zero in a DFV 2 descriptor. -/
def src2Zero (w : List Nat) : Bool := dDfv w != 2 || dSrc2 w == 0

/-- R230, R231: the operand rules of the engine opcodes. -/
def engineFields (w : List Nat) : Bool :=
  let src := dSrc w
  let dst := dDst w
  let len := dLen w
  let f := dOflags w
  let same (a b : Nat) : Bool := adDev a == adDev b
  match dOpc w with
  | 1 => src % 64 == 0 && dst % 64 == 0 && len % 64 == 0 && f == 0 && auxZero w [] && src2Zero w && !overlap (src, len) (dst, len)
  | 2 => src == 0 && dst % 64 == 0 && len % 64 == 0 && f == 0 && auxZero w (List.range 16) && src2Zero w
  | 3 => src == 0 && dst % 64 == 0 && len % 64 == 0 && f == 0 && auxZero w [] && src2Zero w
  | 4 => dst % 64 == 0 && decide (f < 2) &&
    (if f = 1 then dDfv w == 2 && same (dSrc2 w) src && auxZero w [] else auxZero w (List.range 16) && src2Zero w)
  | 5 => dst % 64 == 0 && decide (f < 4) && auxZero w (List.range 8) && src2Zero w
  | 6 => src % 8 == 0 && decide (dAuxN w 0 1 ≤ 4) && auxZero w [0] && f == 0 && src2Zero w && dst % esize w == 0 && len % esize w == 0 &&
    !overlap (src, len / esize w * 8) (dst, len)
  | 7 => dst % 8 == 0 && decide (dAuxN w 0 1 ≤ 4) && auxZero w [0] && f == 0 && src2Zero w && src % esize w == 0 && len % esize w == 0 &&
    same dst src
  | 8 =>
    let t := f % 8
    dst % 64 == 0 && decide (f < 64) && bits f 4 3 != 3 && !(bit f 5 && decide (4 ≤ t)) && auxZero w (List.range 8) && src2Zero w &&
      src % etypeSize t == 0 && len % etypeSize t == 0 && (dAuxN w 0 8 == 0 || bit (dAuxN w 0 8) (adDev src))
  | 9 => src % 32 == 0 && dst % 64 == 0 && len % 32 == 0 && decide (len ≤ 32 * Config.ATOM_MAX) && f == 0 && auxZero w [] && src2Zero w &&
    (dst == 0 || same dst src && !overlap (src, len) (dst, len / 32 * 16))
  | 10 => src % 64 == 0 && dst % 64 == 0 && len % 64 == 0 && f == 0 && auxZero w (List.range 9) && src2Zero w && same src dst &&
    xorStride w % 64 == 0 && decide (2 ≤ xorN w) && decide (xorN w ≤ 64) &&
    (List.range (xorN w)).all (fun j => !overlap (src + j * xorStride w, len) (dst, len))
  | _ => false

/-- R214: the operand rules of the management opcodes. -/
def mgmtFields (w : List Nat) : Bool :=
  let src := dSrc w
  let dst := dDst w
  let len := dLen w
  let f := dOflags w
  let t := dAuxN w 0 1
  let tgt (all : Bool) : Bool := !bit t 6 && (all || !bit t 7)
  src2Zero w &&
  (match dOpc w with
    | 0x40 => src == 0 && dst == 0 && len == 0 && decide (f < 2) && auxZero w []
    | 0x41 => src == 0 && f == 0 && auxZero w []
    | 0x42 => src == 0 && dst == 0 && len == 0 && f == 0 && auxZero w [0, 1] && tgt true && decide (dAuxN w 1 1 ≤ 4)
    | 0x43 => dst == 0 && len == 0 && f == 0 && auxZero w [2, 3] && decide (dAuxN w 2 2 < 4096)
    | 0x44 => src == 0 && dst == 0 && len == 0 && f == 0 && auxZero w [2, 3] && decide (dAuxN w 2 2 < 4096)
    | 0x45 => src % 128 == 0 && dst % 128 == 0 && len % 128 == 0 && f == 0 && auxZero w [0] && tgt false
    | 0x46 => dst == 0 && len == 0 && decide (f < 2) && auxZero w [0] && tgt false
    | 0x47 => src == 0 && dst == 0 && len == 0 && f == 0 && auxZero w [0, 4, 5, 6, 7] && tgt true
    | 0x48 => dst == 0 && f == 0 && auxZero w [] && decide (len ≤ 2 ^ 24)
    | 0x49 => src == 0 && dst % 128 == 0 && len % 32 == 0 && decide (f < 2) && auxZero w [0] && tgt false
    | 0x4A => src == 0 && dst == 0 && len == 0 && f == 0 && auxZero w [0] && tgt false
    | 0x4B => src == 0 && dst == 0 && len == 0 && f == 0 && auxZero w [0, 1] && tgt true && decide (dAuxN w 1 1 < 16)
    | 0x4C => dst == 0 && f == 0 && auxZero w [0] && tgt false
    | _ => false)

/-- Whether an opcode is listed (R214, R230). -/
def isEngineOpc (o : Nat) : Bool := decide (1 ≤ o) && decide (o ≤ 10)
def isMgmtOpc (o : Nat) : Bool := decide (0x40 ≤ o) && decide (o ≤ 0x4C)

/-- R137 for an operand range (R228). -/
def State.rangeCheck (s : State) (r : Nat × Nat) : Nat :=
  let d := adDev r.1
  if adZero r.1 ≠ 0 then 1
  else if !(s.ent d).valid then 3
  else if s.unreachable d then 7
  else if (s.ent d).capacity ≤ adLocal r.1 ∨ (s.ent d).capacity < adLocal r.1 + r.2 then 4
  else 0

/-- The 2 MiB granules of a range, by their first byte. -/
def granulesOf (r : Nat × Nat) : List Nat :=
  if r.2 = 0 then [] else
    let a := adLocal r.1 / 2097152
    (List.range ((adLocal r.1 + r.2 - 1) / 2097152 + 1 - a)).map (fun k => (a + k) * 2097152)

/-- R272: whether the map of the owning device admits a range for a domain. -/
def State.rangeProt (s : State) (dom : Nat) (r : Nat × Nat) : Bool :=
  (granulesOf r).all (fun g =>
    match s.mapEntry (adDev r.1) g with
    | none => false
    | some e => peKind e != 2 && peDomain e == dom && s.mapAdmits (adDev r.1) g (adKey r.1))

/-- R283: whether a range lies wholly or partly in a protected entry. -/
def State.rangeRelay (s : State) (r : Nat × Nat) : Bool := (granulesOf r).any (fun g => s.mapProt (adDev r.1) g)

/-- R270: whether a map write concerns a range. -/
def State.rangeHeld (s : State) (r : Nat × Nat) : Bool := (granulesOf r).any (fun g => s.mapHeld (adDev r.1) g)

/-- R213 check 7: whether the queue may name a KeyID. -/
def keyAllowed (c : List Nat) (k : Nat) : Bool :=
  if k = 0 then cPlainOk c else decide (cKeyLo c ≤ k) && decide (k ≤ cKeyHi c)

/-- The first failing code of a list of checks. -/
def firstCode (l : List Nat) : Nat := (l.find? (· != 0)).getD 0

/-- R283: whether a range lies wholly or partly outside protected entries. -/
def State.rangeOpen (s : State) (r : Nat × Nat) : Bool := (granulesOf r).any (fun g => !s.mapProt (adDev r.1) g)

/-- R283: a relay whose source is protected and whose destination lies in an open entry. The destinations of a SCATTER are judged entry by
entry. -/
def State.relayLeak (s : State) (w : List Nat) : Bool :=
  let src := match dOpc w with | 1 => [(dSrc w, dLen w)] | 6 => [(dSrc w, dLen w / esize w * 8)] | 7 => [(dSrc w, dLen w)]
                               | 9 => [(dSrc w, dLen w)] | 10 => (operands w).take (xorN w) | _ => []
  let dst := match dOpc w with | 1 => [(dDst w, dLen w)] | 6 => [(dDst w, dLen w)] | 9 => ((operands w).drop 1) | 10 => [(dDst w, dLen w)] | _ => []
  src.any s.rangeRelay && dst.any s.rangeOpen

/-- R272, R283: whether the protection map or the keys refuse a descriptor (check 9 of R213). -/
def State.protStops (s : State) (d : DescS) : Bool :=
  (operands d.words).any (fun r => !s.rangeProt (cDomain (s.ctx d.q)) r) || s.relayLeak d.words

/-- R213: the code of the first check that a fetched descriptor fails, 0 for none. -/
def State.descCheck (s : State) (d : DescS) (w : List Nat) : Nat :=
  let c := s.ctx d.q
  let o := dOpc w
  if dSeq w ≠ d.seqWant then 0x12
  else if dDfv w ≠ cDfv c ∨ (dDfv w = 2 ∧ crc32c ((ofWords w).take 60) ≠ dw w 15) then 0x11
  else if !(isEngineOpc o || isMgmtOpc o) then 0x10
  else if isMgmtOpc o ∧ !cMgmt c then 0x17
  else if dSc w < 4 ∧ dSc w ≠ cSc c then 0x14
  else if bits (dw w 0) 15 14 ≠ 0 ∨ bits (dw w 0) 31 28 ≠ 0 then 0x13
  else if isMgmtOpc o then (if mgmtFields w then 0 else 0x13)
  else if !engineFields w then 0x13
  else
    let ops := operands w
    if ops.any (fun r => !keyAllowed c (adKey r.1)) then 0x15
    else
      let k := firstCode (ops.map s.rangeCheck)
      if k ≠ 0 then k
      else if s.protStops { d with words := w } then 5
      else if ops.any (fun r => s.noEngines (adDev r.1)) then 0x16
      else 0

/-- A descriptor that the manager has read is checked (R213); one whose operands meet a map write waits for it (R270), and an EPOCH_END FENCE of a
queue that has left its group completes with ABORTED (R250). -/
def State.descArrive (d : DescS) (w : List Nat) (s : State) : State :=
  let s := s.putDesc { d with words := w }
  let d := { d with words := w }
  if isEngineOpc (dOpc w) && (operands w).any s.rangeHeld then s
  else
    let k := s.descCheck d w
    if k ≠ 0 then s.record d k 0 none false
    else if s.isEpochEnd d && !(cState (s.ctx d.q) == 1 || cState (s.ctx d.q) == 2) then s.record d 0x18 0 none false
    else s.putDesc { d with stage := .ready, relay := isEngineOpc (dOpc w) && (operands w).any s.rangeRelay }

/-- R211: the queue's fetch stops at a descriptor whose class is at its limit: it, and what was fetched after it, is fetched in a later
turn. -/
def State.unfetch (d : DescS) (s : State) : State :=
  let n := s.que.descs.countP (fun e => e.q == d.q && decide (d.order ≤ e.order))
  let c := s.ctx d.q
  let late (u : HostUse) : Bool := match u with | .desc q i => q == d.q && decide (ahead i d.i < 65536) | _ => false
  let s := { s with que.descs := s.que.descs.filter (fun e => !(e.q == d.q && decide (d.order ≤ e.order))),
                    que.stalled := AMap.put d.q (dSc d.words) s.que.stalled,
                    mgr.host := AMap.mapVal (fun h => if late h.use then { h with use := .drop } else h) s.mgr.host }
  (s.setCtx d.q (cPutInflight (cPut (cPut c 8 d.i) 9 d.seqWant) (cInflight c - n))).drained d.q

/-- The descriptors of a queue that have been read are taken in ring order: those whose class has room are checked, and what a map write has held
is checked again. -/
def State.descTake : List DescS → State → State
  | [], s => s
  | d :: r, s =>
    if d.words.isEmpty then s
    else if d.stage ≠ .fetching then s.descTake r
    else if d.taken then (s.descArrive d d.words).descTake r
    else if s.classFull (dSc d.words) then s.unfetch d
    else (((s.bump (mgrSlot 0) 1).bump (classSlot (dSc d.words) 5) 1).descArrive { d with taken := true } d.words).descTake r

/-- The descriptors of one queue are taken as far as they go. -/
def State.queueTake (q : Nat) (s : State) : State := s.descTake (s.que.descs.filter (fun e => e.q == q))

/-- A descriptor has been read. -/
def State.descRead (d : DescS) (w : List Nat) (s : State) : State := (s.putDesc { d with words := w }).queueTake d.q

/-- Takes the descriptors that a map write held. -/
def State.descRetry (s : State) : State :=
  forEach (dedup ((s.que.descs.filter (fun d => d.stage == .fetching && !d.words.isEmpty)).map (·.q))) State.queueTake s

/-- R210, R214: whether a ready descriptor may start: every earlier one of its queue has started, no FENCE stands before it, and with
ORDER none is in flight before it. -/
def State.mayStart (s : State) (d : DescS) : Bool :=
  d.stage == .ready &&
  (s.que.descs.filter (fun e => e.q == d.q && decide (e.order < d.order))).all (fun e =>
    (e.stage == .running || e.stage == .granule) && !dOrder d.words && dOpc e.words != 0x40)

/-! ### The commands of QCTX.CMD (R220) -/

/-- R199, R200, R201: whether a context may be enabled. -/
def State.ctxValid (s : State) (q : Nat) : Bool :=
  let c := s.ctx q
  let r := if cCqSel c = q then c else s.ctx (cCqSel c)
  cw c 0 % 64 == 0 && bits (cw c 2) 7 5 == 0 && bits (cw c 2) 31 26 == 0 && bits (cw c 3) 15 10 == 0 && cw c 4 % 64 == 0 &&
  bits (cw c 6) 31 5 == 0 && bits (cw c 7) 31 25 == 0 && bits (cw c 12) 3 2 == 0 && bits (cw c 12) 31 25 == 0 &&
  cw c 13 == 0 && cw c 14 == 0 && cw c 15 == 0 &&
  decide (6 ≤ cRingLog2 c) && decide (cRingLog2 c ≤ 16) && (cDfv c == 1 || cDfv c == 2) && cRing c % (64 * 2 ^ cRingLog2 c) == 0 &&
  decide (6 ≤ cCqLog2 r) && decide (cCqLog2 r ≤ 20) && cCq r % (16 * 2 ^ cCqLog2 r) == 0 &&
  decide (1 ≤ cKeyLo c) && decide (cKeyLo c ≤ cKeyHi c)

/-- A command is refused with a code. -/
def State.cmdErr (e : Nat) (s : State) : State :=
  (s.setFld Reg.QCTX_CMD F.QCTX_CMD_ERR e).raise Reg.QCTX_STATUS F.QCTX_STATUS_CMD_ERR

/-- The context window as words. -/
def State.win (s : State) : List Nat := (List.range 16).map (fun k => (s.reg (Reg.QCTX_WIN k)).toNat)

/-- The context that a WRITE makes of the window: read-only parts stay (R199). -/
def ctxMerge (old win : List Nat) : List Nat :=
  let keep := bits (cw old 12) 1 0 + bits (cw old 12) 7 4 * 16 + bits (cw old 12) 24 8 * 256
  let w12 := cw win 12 - (bits (cw win 12) 1 0 + bits (cw win 12) 7 4 * 16 + bits (cw win 12) 24 8 * 256) + keep
  (win.set 11 (cw old 11)).set 12 w12

/-- READ. -/
def State.qRead (q : Nat) (s : State) : State :=
  forEach (List.range 16) (fun k s => s.setReg (Reg.QCTX_WIN k) (BitVec.ofNat 32 (cw (s.ctx q) k))) s

/-- WRITE. -/
def State.qWrite (q : Nat) (s : State) : State :=
  let c := s.ctx q
  let n := ctxMerge c s.win
  if cState c ≠ 0 then s.cmdErr 1
  else if (s.naming q).any (fun x => cState (s.ctx x) == 1) && [4, 5, 6, 10].any (fun k => cw c k != cw n k) then s.cmdErr 3
  else s.setCtx q n

/-- ENABLE (R200, R250). -/
def State.qEnable (q : Nat) (s : State) : State :=
  let c := s.ctx q
  if cState c ≠ 0 then s.cmdErr 1
  else if !s.ctxValid q then s.cmdErr 2
  else
    let g := cGrp c
    let grp := AMap.get g ({} : GroupS) s.que.groups
    let join := cGrpEn c && !(s.members g).isEmpty
    let s := s.setCtx q (cPutState c 1)
    let s := if s.ringBad (cCqSel c) then { s with que.cqs := AMap.del (cCqSel c) s.que.cqs } else s
    let s := if join then { s with que.groups := AMap.set g {} { grp with joining := grp.joining ++ [q] } s.que.groups } else s
    s.epochFlag

/-- DRAIN. -/
def State.qDrain (q : Nat) (s : State) : State :=
  let c := s.ctx q
  if cState c = 1 then (({ s with que.tails := AMap.del q s.que.tails }).setCtx q (cPutState c 2)).drained q
  else if cState c = 0 then s.raise Reg.QCTX_STATUS F.QCTX_STATUS_DRAINED
  else s

/-- An ENG message of the manager to a shard (R124, R244). -/
def State.engMsg (s : State) (op : MOp) (dev : Nat) (d : DescS) (ix epoch part status : Nat) (data : List Byte) (words : List Nat) : Msg :=
  { op := op, h := s.hdrTo dev false .queue 0 ((data.length + 31) / 32) 0 0, addr := 0, data := data, words := words,
    eng := some { queue := d.q, dseq := BitVec.ofNat 32 (dSeq d.words), index := ix, epoch := epoch, part := part,
                  status := BitVec.ofNat 8 status } }

/-- The descriptor reads of a queue that are outstanding bring nothing any more. -/
def State.dropReads (q : Nat) (s : State) : State :=
  { s with mgr.host := AMap.mapVal (fun h => match h.use with | .desc r _ => if r = q then { h with use := .drop } else h | _ => h) s.mgr.host }

/-- DISABLE (R220): the fetch stops, shards are aborted, what has not started completes with ABORTED, and so does the management descriptor
that the warden works on. -/
def State.qDisable (q : Nat) (s : State) : State :=
  let c := s.ctx q
  if cState c = 0 then s.raise Reg.QCTX_STATUS F.QCTX_STATUS_DRAINED
  else
    let s := ({ s with que.tails := AMap.del q s.que.tails }).leaveGroup q
    let s := (s.setCtx q (cPutState (s.ctx q) 2)).dropReads q
    let ds := s.que.descs.filter (fun d => d.q == q)
    let s := forEach ds (fun d s =>
      if d.stage = .ready then s.descEnd d 0x18 0 []
      else if d.stage = .running ∧ isMgmtOpc (dOpc d.words) ∧ dOpc d.words ≠ 0x45 then s.putDesc { d with cut := true }
      else if d.stage = .fetching then s.record { d with words := if d.words.isEmpty then [0, d.seqWant] else d.words } 0x18 0 none false
      else forEach (d.shards.filter (fun x => !x.2.done)) (fun x s =>
        if x.2.sent then s.route none (s.engMsg .abort (if d.relay then 0 else x.2.dev) d x.1 x.2.epoch 0 0 [] [])
        else match s.desc d.q d.i with
          | some d' => s.putDesc { d' with shards := AMap.put x.1 { x.2 with done := true, fail := 0x18 } d'.shards }
          | none => s) s) s
    s.drained q

/-- A write of `QCTX.CMD` with an operation and a tag (R220, R222). -/
def State.qctxCmd (op tag : Nat) (s : State) : State :=
  let q := s.fld Reg.QCTX_SEL F.QCTX_SEL_QUEUE
  let busy := s.fld Reg.QCTX_CMD F.QCTX_CMD_BUSY = 1
  let s := s.setFld Reg.QCTX_CMD F.QCTX_CMD_TAG tag
  if op = 0 ∨ 5 < op then s
  else if busy then s.cmdErr 4
  else
    let s := (s.setFld Reg.QCTX_CMD F.QCTX_CMD_ERR 0).setFld Reg.QCTX_CMD F.QCTX_CMD_BUSY 1
    match op with
    | 1 => s.qRead q
    | 2 => s.qWrite q
    | 3 => s.qEnable q
    | 4 => s.qDrain q
    | _ => s.qDisable q

/-- BUSY clears. -/
def State.qctxDone (s : State) : State := s.setFld Reg.QCTX_CMD F.QCTX_CMD_BUSY 0

/-! ### What the host answers (R110, R219) -/

/-- The answer to a read or write of host memory that concerns queues: `ok` holds the data of a read, an error its cause. -/
def State.queueAnswer (u : HostUse) (r : Except Nat (List Byte)) (s : State) : State :=
  let s := match r with | .error _ => s.hostErrFlag | .ok _ => s
  match u, r with
  | .summary k, .ok d => (s.summaryLine k d).pollRead
  | .summary _, .error _ => s.pollRead
  | .doorbell q p, .ok d => let s := s.doorbellLine q d; if p then s.pollRead else s.hintRead q
  | .doorbell q p, .error _ => let s := s.queueError q 1; if p then s.pollRead else s.hintRead q
  | .desc q i, .ok d => (match s.desc q i with | some x => if x.words.isEmpty then s.descRead x (toWords 16 d) else s | none => s)
  | .desc q i, .error _ => (match s.desc q i with
      | some x => (((s.queueError q 2).dropDesc q i |>.bump (mgrSlot 32) 1).inflightDown x.q).queueTake q
      | none => s)
  | .recRead cq n, .ok d => if (AMap.get cq ({} : CqS) s.que.cqs).read = some n then s.recSend cq d else s
  | .recRead cq _, .error _ => s.ringError cq 3 []
  | .recWrite _ l, .ok _ => forEach l (fun r s => (if r.reset then s.resetSoon 2 else s).inflightDown r.q) s
  | .recWrite cq l, .error _ => s.ringError cq 3 l
  | .granule q i, .ok _ => (match s.desc q i with | some x => s.record x x.code x.value none false | none => s)
  | .granule q i, .error c => (match s.desc q i with
      | some x =>
        let k := if x.code = 0 then c else min c x.code
        s.record x k 0 none false
      | none => s)
  | _, _ => s

end Sys2Proof.Machine
end

