-- ==== Sys2Proof/Machine/Engine.lean ====
section
/-! DEFINITION. Engine descriptors and shards (R224 to R257): the split into shards (R240), the accesses of an engine (R225, R235, R283), the work
of every opcode (R232 to R234, R245, R246), partials and their exact combination (R237 to R239, R243, R244), phases and epochs (R247 to R250), checkpoints and migration (R242, R251, R252). -/

namespace Sys2Proof.Machine

/-! ### Ranges and shards -/

/-- The lower of two codes, zero standing for none. -/
def minCode (a b : Nat) : Nat := if a = 0 then b else if b = 0 then a else min a b

/-- The lines of a range, by line index. -/
def linesOf (r : Nat × Nat) : List Nat :=
  if r.2 = 0 then [] else
    let a := adLocal r.1 / 128
    (List.range ((adLocal r.1 + r.2 - 1) / 128 + 1 - a)).map (a + ·)

/-- The parts of a range line by line: line, offset in the line, bytes, offset in the range. -/
def piecesOf (r : Nat × Nat) : List (Nat × Nat × Nat × Nat) :=
  let a := adLocal r.1
  (linesOf r).map (fun l =>
    let lo := max a (l * 128)
    let hi := min (a + r.2) (l * 128 + 128)
    (l, lo - l * 128, hi - lo, lo - a))

/-- The tier of a line's place under R139. -/
def engTier (l : Nat) : Nat := (placeOf l).tier

/-- The driving ranges of a descriptor, with their devices (R240). -/
def drivingRanges (w : List Nat) : List (Nat × Nat × Nat) :=
  match dOpc w with
  | 8 => (devMask w).map (fun n => (n, withDev (dSrc w) n, dLen w))
  | 6 => [(adDev (dSrc w), dSrc w, dLen w / esize w * 8)]
  | _ => [(adDev (driving w), driving w, dLen w)]

/-- The operand ranges of a descriptor that engines work on. -/
def shardRanges (w : List Nat) : List (Nat × Nat) :=
  if dOpc w = 0x45 then [(dSrc w, dLen w), (dDst w, dLen w)] else operands w

/-- The tier of a device that holds line `l`, as the manager knows it: of its own lines by their places, of another device's by R139 or, once a
RETIRE_MAP may have moved it, a free value. -/
def State.tierOf (s : State) (d l : Nat) : Nat :=
  if d = s.num then (s.linePlace l).tier
  else if (s.ent d).moved = 0 then engTier l
  else Config.movedTier d (s.ent d).moved l % 4

/-- Whether tier `t` of a device holds line `l`. -/
def State.mayHold (s : State) (d t l : Nat) : Bool := s.tierOf d l == t

/-- The shards of a descriptor in order of device and tier (R240). -/
def State.shardsOf (s : State) (w : List Nat) : List (Nat × Nat) :=
  (drivingRanges w).flatMap (fun d =>
    ((List.range 4).filter (fun t => (linesOf d.2).any (s.mayHold d.1 t))).map (fun t => (d.1, t)))

/-! ### Partials (R237, R243, R244) -/

/-- The partial that an element adds to (R237, R238). -/
def Partial.add (t rop : Nat) (uns : Bool) (e : Nat) (p : Partial) : Partial :=
  let p := { p with count := p.count + 1 }
  let pick (p : Partial) : Partial :=
    match p.elem with
    | none => { p with elem := some e }
    | some o =>
      let less := elemKey t uns e < elemKey t uns o
      let more := elemKey t uns o < elemKey t uns e
      if (rop = 1 ∧ less) ∨ (rop = 2 ∧ more) then { p with elem := some e } else p
  if t < 4 then
    let p := { p with allNegZ := false }
    if rop = 0 then { p with acc := p.acc + (if uns then (e : Int) else toSigned (8 * 2 ^ t) e) } else pick p
  else
    let f := fmtOf t
    let p := { p with allNegZ := p.allNegZ && e == f.signBit }
    if f.isNan e then { p with nan := true }
    else
      let p := if f.isInf e then (if f.sign e then { p with negInf := true } else { p with posInf := true }) else p
      if rop ≠ 0 then pick p
      else if f.isInf e then p
      else { p with acc := p.acc + f.units e }

/-- The exact combination of two partials (R237, R243). -/
def Partial.merge (t rop : Nat) (uns : Bool) (a b : Partial) : Partial :=
  { acc := a.acc + b.acc
    elem := match a.elem, b.elem with
      | none, y => y
      | x, none => x
      | some x, some y =>
        if (rop = 1 ∧ elemKey t uns y < elemKey t uns x) ∨ (rop = 2 ∧ elemKey t uns x < elemKey t uns y) then some y else some x
    nan := a.nan || b.nan, posInf := a.posInf || b.posInf, negInf := a.negInf || b.negInf
    allNegZ := a.allNegZ && b.allNegZ
    count := a.count + b.count
    rem := a.rem ^^^ b.rem
    first := match a.first, b.first with | none, y => y | x, none => x | some x, some y => some (min x y)
    diff := a.diff + b.diff }

/-- ETYPE, ROP and UNSIGNED of a REDUCE. -/
def rEtype (w : List Nat) : Nat := dOflags w % 8
def rRop (w : List Nat) : Nat := bits (dOflags w) 4 3
def rUns (w : List Nat) : Bool := bit (dOflags w) 5

/-- The bytes of a partial in PARTIAL messages (R244). -/
def Partial.toBytes (w : List Nat) (p : Partial) : List Byte :=
  match dOpc w with
  | 4 => leBytes 8 (p.first.getD (2 ^ 64 - 1)) ++ leBytes 8 p.diff
  | 5 => leBytes 8 p.rem
  | _ =>
    let fl := b2n p.nan + 2 * b2n p.posInf + 4 * b2n p.negInf + 128 * b2n p.allNegZ
    if rRop w = 0 then
      let t := rEtype w
      let m : Int := 2 ^ bodyBits t
      let lo : Int := p.acc % m
      let body : Int := if m / 2 ≤ lo then lo - m else lo
      leBytes (bodyBytes t) (body % 2 ^ (8 * bodyBytes t)).toNat ++ leBytes 4 (((p.acc - body) / m) % 2 ^ 32).toNat ++ leBytes 2 fl ++
        leBytes 8 p.count
    else leBytes 8 (p.elem.getD 0) ++ leBytes 4 0 ++ leBytes 2 fl ++ leBytes 8 p.count

/-- The partial that bytes spell. -/
def Partial.ofBytes (w : List Nat) (d : List Byte) : Partial :=
  match dOpc w with
  | 4 => { first := if leAt d 0 8 = 2 ^ 64 - 1 then none else some (leAt d 0 8), diff := leAt d 8 8 }
  | 5 => { rem := leAt d 0 8 }
  | _ =>
    let t := rEtype w
    let nb := if rRop w = 0 then bodyBytes t else 8
    let fl := leAt d (nb + 4) 2
    let cnt := leAt d (nb + 6) 8
    let p : Partial := { nan := bit fl 0, posInf := bit fl 1, negInf := bit fl 2, allNegZ := bit fl 7, count := cnt }
    if rRop w = 0 then { p with acc := toSigned (8 * nb) (leAt d 0 nb) + toSigned 32 (leAt d nb 4) * 2 ^ bodyBits t }
    else { p with elem := if cnt = 0 then none else some (leAt d 0 8) }

/-- R238, R239: the result granule of a REDUCE and its RFLAGS. -/
def Partial.reduce (w : List Nat) (p : Partial) : List Byte × Nat :=
  let t := rEtype w
  let rop := rRop w
  let uns := rUns w
  let (res, fl) : Nat × Nat :=
    if p.count = 0 then (0, 32)
    else if t < 4 then
      if rop = 0 then ((p.acc % 2 ^ 128).toNat, 0)
      else (((if uns then (p.elem.getD 0 : Int) else toSigned (8 * 2 ^ t) (p.elem.getD 0)) % 2 ^ 128).toNat, 0)
    else
      let f := fmtOf t
      let inf := 2 * b2n p.posInf + 4 * b2n p.negInf
      if p.nan ∨ (rop = 0 ∧ p.posInf ∧ p.negInf) then (f.nan, 1 + inf)
      else if rop ≠ 0 then (p.elem.getD 0, inf)
      else if p.posInf ∨ p.negInf then (f.inf p.negInf, inf)
      else if p.acc = 0 then ((if p.allNegZ then f.signBit else 0), 0)
      else
        let (r, ov, ix, tiny) := f.round p.acc.natAbs
        (r + (if p.acc < 0 then f.signBit else 0), 8 * b2n ov + 16 * b2n ix + 64 * b2n tiny)
  (leBytes 16 res ++ leBytes 8 p.count ++ leBytes 2 fl, fl)

/-! ### What a unit of work asks (R225, R235)

A unit is worked out as a function of the answers that its accesses have drawn so far: it either names the next access, or has its result. -/

/-- The code and the bytes that an access has drawn, or the access itself. -/
def ShardS.ask (sh : ShardS) (op : EngOp) : Except EngOp (Nat × List Byte) :=
  match sh.got.find? (fun g => g.1 == op) with
  | some g => .ok g.2
  | none => .error op

/-- R231: choice `k` of a unit, which the overlaps of list contents leave open. -/
def ShardS.chance (sh : ShardS) (k : Nat) : Bool := bit (Config.overlapPick sh.pick) k

/-- The host-form address of a line. -/
def lineAddr (a l : Nat) : Nat := mkAddr (adKey a) (adDev a) (l * 128)

/-- A line as a list opcode reads it: one that this shard has changed may read as it was before (R231). -/
def ShardS.line (sh : ShardS) (k a : Nat) : Except EngOp (Nat × List Byte) := do
  let (c, d) ← sh.ask (.rd a)
  if c ≠ 0 then pure (c, zeros 128)
  else match AMap.find (lineIx (adLocal a)) sh.old with
    | some o => pure (0, if sh.chance k then o else d)
    | none => pure (0, d)

/-- The bytes of a range of at most a few lines, with the codes of those that failed. -/
def ShardS.read (sh : ShardS) (k a n : Nat) : Except EngOp (List Nat × List Byte) :=
  (piecesOf (a, n)).foldlM (fun (x : List Nat × List Byte) p => do
    let (c, d) ← sh.line k (lineAddr a p.1)
    pure (if c = 0 then x.1 else x.1 ++ [c], x.2 ++ slice d p.2.1 p.2.2.1)) ([], [])

/-- The lowest of some codes, zero for none. -/
def lowestCode (l : List Nat) : Nat := l.foldl minCode 0

/-- R149: whether a line that was read is lost or poisoned. -/
def spoilt (l : List Nat) : Bool := l.any (fun c => c == Cause.uncorrectable || c == Cause.poisoned)

/-- Write `ix` of a unit. -/
def ShardS.put (sh : ShardS) (ix a : Nat) (u : Upd) (fl : Nat) : Except EngOp Nat := do
  let (c, _) ← sh.ask (.wr ix a u fl)
  pure c

/-- Whether an address lies on the device of the engine that works on it, so that the channel itself changes part of a line. -/
def ShardS.own (sh : ShardS) (a : Nat) : Bool := !sh.relay && adDev a == sh.dev

/-- Writes part of a line by read-modify-write: in its channel (R235), or for a relay in the manager (R283); on another device by a read and a
whole-line WR128 (R241). -/
def ShardS.patch (sh : ShardS) (ix a off : Nat) (data : List Byte) : Except EngOp Nat := do
  if sh.own a || sh.relay then sh.put ix a (.bytes off data) 0
  else
    let (c, d) ← sh.ask (.rd a)
    if c = 0 then sh.put ix a (.whole (splice d off data)) 0
    else if c = Cause.uncorrectable then
      let e ← sh.put ix a (.whole (splice (zeros 128) off data)) 1
      pure (minCode c e)
    else pure c

/-- Writes what a unit computed for part of a line: invalid inputs store a poisoned line of zeros (R149, R235); inputs that failed otherwise
leave it unwritten. -/
def ShardS.store (sh : ShardS) (ix a off : Nat) (codes : List Nat) (data : List Byte) : Except EngOp Nat := do
  if spoilt codes then
    let e ← sh.put ix a (.whole (zeros 128)) 1
    pure (minCode (lowestCode codes) e)
  else if lowestCode codes ≠ 0 then pure (lowestCode codes)
  else if data.length = 128 then sh.put ix a (.whole data) 0
  else sh.patch ix a off data

/-- What a shard has found, with one more line and a code. -/
def EngR.line (r : EngR) (code : Nat) : EngR := { r with code := minCode r.code code, done := r.done + 1 }

/-! ### The work of a shard -/

/-- R234, R246: whether the engine's queue may name a KeyID. The manager looks the context up; the message does not carry it further. -/
def State.engKey (s : State) (q kid : Nat) : Bool := if s.isManager then keyAllowed (s.ctx q) kid else Config.keyPermitted q kid

/-- R234, R246: the checks of a list entry or a record's address of alignment `al` and length `n`. A list entry takes the order of R213
(item 6 for another device, then 7, 8, 9; DEDUCED), a record that of R246. A relay moves nothing from a protected range into an open line: not by
a SCATTER entry that lies in one, nor by a GATHER whose destination does (R258, R283). What another device than the manager knows of a record's
address on a third device the manual does not say: the code is one of those that R246 may give, a free value. -/
def State.entryCheck (sh : ShardS) (dev a n al : Nat) (s : State) : Nat :=
  let loc := adLocal a
  let d := adDev a
  let mgr := s.isManager
  let far := decide (d ≠ dev)
  let ent : Option (List Nat) := if mgr then s.mapEntry d loc else s.ownEntry loc
  let dom : Option Nat :=
    if mgr then some (cDomain (s.ctx sh.g.queue)) else (s.ownEntry (adLocal (driving sh.desc))).map peDomain
  let form := if adZero a ≠ 0 then Cause.illegalAddr else if a % al ≠ 0 then Cause.misaligned else 0
  let there :=
    if mgr ∧ !(s.ent d).valid then Cause.noDevice
    else if mgr ∧ s.unreachable d then Cause.unreachable
    else if (if mgr then (s.ent d).capacity else Config.userBytes) < loc + n then Cause.outOfRange
    else 0
  let opc := dOpc sh.desc
  let leak : Bool := sh.relay &&
    match ent with
    | none => false
    | some e => (opc == 7 && peKind e == 0 && s.rangeRelay (dSrc sh.desc, dLen sh.desc)) ||
        (opc == 6 && peKind e == 1 && s.rangeOpen (dDst sh.desc, dLen sh.desc))
  let key := if s.engKey sh.g.queue (adKey a) then 0 else 0x15
  let prot :=
    match ent with
    | none => Cause.protDenied
    | some e =>
      if peKind e = 2 ∨ some (peDomain e) ≠ dom then Cause.protDenied
      else if peKind e = 1 then
        (if sh.relay ∧ dOpc sh.desc ≠ 9 ∧ peKeyLo e ≤ adKey a ∧ adKey a ≤ peKeyHi e ∧ (s.key (adKey a)).state = 1 ∧ !leak then 0 else Cause.protDenied)
      else if adKey a ≠ 0 ∨ leak then Cause.protDenied
      else 0
  if dOpc sh.desc = 9 then
    if far && !mgr then
      firstCode [form, [Cause.noDevice, Cause.unreachable, Cause.outOfRange, 0x15, Cause.protDenied].getD (Config.farRecord sh.g.queue a % 6) 0x13]
    else firstCode [form, there, key, prot, if far then 0x13 else 0]
  else firstCode [if far then 0x13 else 0, key, form, there, prot]

/-- COPY, FILL, ZERO, XOR_PARITY: one line of the destination. -/
def ShardS.moveUnit (sh : ShardS) (p : Nat × Nat × Nat × Nat) : Except EngOp EngR := do
  let w := sh.desc
  let (l, off, n, k) := p
  let (cs, d) ← match dOpc w with
    | 1 => sh.read 0 (dSrc w + k) n
    | 2 => pure ([], (List.range n).map (fun j => (dPattern w).getD ((k + j) % 16) 0))
    | 3 => pure ([], zeros n)
    | _ => (List.range (xorN w)).foldlM (fun (y : List Nat × List Byte) j => do
        let (c, d) ← sh.read 0 (dSrc w + j * xorStride w + k) n
        pure (y.1 ++ c, xorBytes y.2 d)) ([], zeros n)
  let e ← sh.store 0 (lineAddr (dDst w) l) off cs d
  pure (sh.at_.res.line e)

/-- EVACUATE: one line, from offset `k` of the source range; a lost source line is written with zero data and POISON set, and counted
(R349). -/
def ShardS.evacUnit (sh : ShardS) (p : Nat × Nat × Nat × Nat) : Except EngOp EngR := do
  let w := sh.desc
  let (c, d) ← sh.ask (.rd (lineAddr (dSrc w) p.1))
  let lost := c == Cause.uncorrectable || c == Cause.poisoned || c == Cause.retired
  if c ≠ 0 ∧ !lost then pure (sh.at_.res.line c)
  else
    let e ← sh.put 0 (lineAddr (dDst w) (lineIx (adLocal (dDst w) + p.2.2.2))) (if lost then .lost else .whole d) 0
    let r := sh.at_.res.line e
    pure { r with swaps := r.swaps + b2n (lost && e == 0) }

/-- One element of a GATHER: the codes of what it read, and its bytes; an entry that fails gives zeros (R234). The third component tells
whether a line of the element itself was lost. -/
def State.gatherElem (s : State) (sh : ShardS) (j e : Nat) : Except EngOp (List Nat × List Byte × List Nat) := do
  let w := sh.desc
  let es := esize w
  let (cs, d) ← sh.read 0 (dSrc w + 8 * e) 8
  if lowestCode cs ≠ 0 then pure (cs, zeros es, cs)
  else
    let a := ofLe d
    let k := s.entryCheck sh (adDev (dSrc w)) a es es
    if k ≠ 0 then pure ([k], zeros es, [])
    else
      let (cs, d) ← sh.read j a es
      pure (cs, d, cs)

/-- GATHER: one line of the destination. -/
def State.gatherUnit (s : State) (sh : ShardS) (p : Nat × Nat × Nat × Nat) : Except EngOp EngR := do
  let w := sh.desc
  let es := esize w
  let (l, off, n, k) := p
  let (cs, d, bad) ← (List.range (n / es)).foldlM (fun (y : List Nat × List Byte × List Nat) j => do
    let (c, d, b) ← s.gatherElem sh j (k / es + j)
    pure (y.1 ++ c, y.2.1 ++ d, y.2.2 ++ b)) ([], [], [])
  let e ← sh.store 0 (lineAddr (dDst w) l) off (bad.filter (fun c => spoilt [c])) d
  pure (sh.at_.res.line (minCode (lowestCode cs) e))

/-- SCATTER: element `e`, number `j` of its line. Where its target has been written already, which element stays is open (R231). -/
def State.scatterElem (s : State) (sh : ShardS) (r : EngR) (j e : Nat) : Except EngOp EngR := do
  let w := sh.desc
  let es := esize w
  let (cs, d) ← sh.read (3 * j) (dDst w + 8 * e) 8
  if lowestCode cs ≠ 0 then pure { r with code := minCode r.code (lowestCode cs) }
  else
    let a := ofLe d
    let k := s.entryCheck sh (adDev (dSrc w)) a es es
    if k ≠ 0 then pure { r with code := minCode r.code k }
    else
      let (cs, d) ← sh.read (3 * j + 1) (dSrc w + e * es) es
      if r.written.contains (adLocal a) && sh.chance (3 * j + 2) then pure { r with code := minCode r.code (lowestCode cs) }
      else
        let e ← sh.store e (lineAddr a (lineIx (adLocal a))) (adLocal a % 128) cs d
        pure { r with code := minCode r.code e, written := adLocal a :: r.written }

/-- SCATTER: one line of the source. -/
def State.scatterUnit (s : State) (sh : ShardS) (p : Nat × Nat × Nat × Nat) : Except EngOp EngR :=
  let es := esize sh.desc
  (List.range (p.2.2.1 / es)).foldlM (fun r j => s.scatterElem sh r j (p.2.2.2 / es + j)) (sh.at_.res.line 0)

/-- COMPARE, CRC, REDUCE: one part of the driving range. -/
def ShardS.foldUnit (sh : ShardS) (p : Nat × Nat × Nat × Nat) : Except EngOp EngR := do
  let w := sh.desc
  let (_, _, n, k) := p
  let r := sh.at_.res
  let (cs, d) ← sh.read 0 (withDev (dSrc w) sh.dev + k) n
  match dOpc w with
  | 4 =>
    let (cs2, e) ← (if bit (dOflags w) 0 then sh.read 0 (dSrc2 w + k) n
      else pure ([], (List.range n).map (fun j => (dPattern w).getD ((k + j) % 16) 0)))
    let dif := (List.range n).filter (fun j => d.getD j 0 != e.getD j 0)
    let q : Partial := { first := dif.head?.map (k + ·), diff := dif.length }
    pure { r.line (lowestCode (cs ++ cs2)) with part := r.part.merge 0 0 false q }
  | 5 =>
    let poly := if bit (dOflags w) 0 then poly64 else poly32C
    pure { r.line (lowestCode cs) with part := { r.part with rem := r.part.rem ^^^ crcRun poly (d ++ zeros (dLen w - k - n)) 0 } }
  | _ =>
    let t := rEtype w
    let z := etypeSize t
    let part := (List.range (n / z)).foldl (fun q j => q.add t (rRop w) (rUns w) (leAt d (j * z) z)) r.part
    pure { r.line (lowestCode cs) with part := if cs.isEmpty then part else r.part }

/-- Whether a record belongs to phase B: SWAP, CAS, FADD, and a commutative record with FETCH (R245, R247). -/
def atomOrdered (b8 : Nat) : Bool := let aop := b8 % 16; (decide (8 ≤ aop) && decide (aop ≤ 10)) || (decide (aop < 8) && bit b8 4)

/-- Writes a result slot (R245). -/
def ShardS.slot (sh : ShardS) (ix old st : Nat) (r : EngR) : Except EngOp EngR := do
  let w := sh.desc
  if dDst w = 0 then pure r
  else
    let a := dDst w + 16 * ix
    let c ← sh.patch (2 * ix + 1) (lineAddr a (lineIx (adLocal a))) (adLocal a % 128) (leBytes 8 old ++ leBytes 8 st)
    pure { r with code := minCode r.code c }

/-- A skipped record (R246). -/
def ShardS.skip (sh : ShardS) (ix code : Nat) (r : EngR) : Except EngOp EngR :=
  let r := if ix < r.failRec then { r with failRec := ix, recCode := code } else r
  sh.slot ix 0 code { r with skipped := r.skipped + 1 }

/-- An atomic operation on the word at `a`, which lies on the device of the record list (R246): its code, and the word before. -/
def ShardS.atom (sh : ShardS) (ix a aop x y : Nat) : Except EngOp (Nat × Nat) := do
  let (c, d) ← sh.ask (.wr (2 * ix) (lineAddr a (lineIx (adLocal a))) (.atom (adLocal a % 128) aop x y) 0)
  pure (c, ofLe d)

/-- Record `ix` of an ATOMIC_BATCH, with bytes `d`; a shard that has stopped skips what its phase has left (R251). -/
def State.atomRec (s : State) (sh : ShardS) (ix : Nat) (d : List Byte) (r : EngR) : Except EngOp EngR := do
  let b8 := leAt d 8 1
  if atomOrdered b8 ≠ sh.phaseB then pure r
  else
    let r := { r with done := r.done + 1 }
    let a := leAt d 0 8
    let k := s.entryCheck sh (adDev (dSrc sh.desc)) a 8 8
    if sh.stop ≠ 0 then sh.skip ix sh.stop r
    else if k ≠ 0 then sh.skip ix k r
    else if 10 < b8 % 16 ∨ bits b8 7 5 ≠ 0 ∨ leAt d 9 7 ≠ 0 then sh.skip ix 0x13 r
    else
      let (c, old) ← sh.atom ix a (b8 % 16) (leAt d 16 8) (leAt d 24 8)
      if c ≠ 0 then sh.skip ix c r
      else
        let sw := (atomNew (b8 % 16) old (leAt d 16 8) (leAt d 24 8)).2
        sh.slot ix (if sh.phaseB then old else 0) 0 { r with swaps := r.swaps + b2n sw, applied := r.applied + 1 }

/-- ATOMIC_BATCH: one line of the record list. Where it cannot be read, each of its records is skipped (R246). -/
def State.atomUnit (s : State) (sh : ShardS) (p : Nat × Nat × Nat × Nat) : Except EngOp EngR := do
  let (l, off, n, k) := p
  let (c, d) ← sh.ask (.rd (lineAddr (dSrc sh.desc) l))
  (List.range (n / 32)).foldlM (fun r j =>
    let ix := k / 32 + j
    if c ≠ 0 then sh.skip ix c { r with done := r.done + 1 } else s.atomRec sh ix (slice d (off + 32 * j) 32) r) sh.at_.res

/-- One unit of a shard's work (R232). -/
def State.unitRun (s : State) (sh : ShardS) (p : Nat × Nat × Nat × Nat) : Except EngOp EngR :=
  match dOpc sh.desc with
  | 4 => sh.foldUnit p
  | 5 => sh.foldUnit p
  | 6 => s.gatherUnit sh p
  | 7 => s.scatterUnit sh p
  | 8 => sh.foldUnit p
  | 9 => s.atomUnit sh p
  | 0x45 => sh.evacUnit p
  | _ => sh.moveUnit p

/-- Whether a shard holds a line of its device: by the line's place (R163); a relay holds another device's lines as the manager knows them. -/
def State.holds (s : State) (sh : ShardS) (l : Nat) : Bool := s.tierOf sh.dev l == sh.home

/-- The units of a shard in ascending address: lines of the destination for COPY (by their first source byte, DEDUCED), GATHER (by their
first list entry, DEDUCED), FILL, ZERO and XOR_PARITY, lines of the source for the others; phase B takes the whole record list (R240, R247). -/
def State.unitsOf (s : State) (sh : ShardS) : List (Nat × Nat × Nat × Nat) :=
  let w := sh.desc
  let src := piecesOf (withDev (dSrc w) sh.dev, dLen w)
  let dst := piecesOf (dDst w, dLen w)
  match dOpc w with
  | 1 => dst.filter (fun p => s.holds sh (lineIx (adLocal (dSrc w) + p.2.2.2)))
  | 6 => dst.filter (fun p => s.holds sh (lineIx (adLocal (dSrc w) + p.2.2.2 / esize w * 8)))
  | 9 => if sh.phaseB then src else src.filter (fun p => s.holds sh p.1)
  | 4 => src.filter (fun p => s.holds sh p.1)
  | 5 => src.filter (fun p => s.holds sh p.1)
  | 7 => src.filter (fun p => s.holds sh p.1)
  | 8 => src.filter (fun p => s.holds sh p.1)
  | 0x45 => src.filter (fun p => s.holds sh p.1)
  | _ => dst.filter (fun p => s.holds sh p.1)

/-- The driving bytes of a unit: the bytes copied, the list entries of a GATHER, whole lines of the others (R242). -/
def unitBytes (w : List Nat) (p : Nat × Nat × Nat × Nat) : Nat :=
  match dOpc w with
  | 1 => p.2.2.1
  | 6 => p.2.2.1 / esize w * 8
  | _ => 128

/-- The driving bytes of a shard. -/
def ShardS.bytes (sh : ShardS) : Nat := sh.units.foldl (fun n p => n + unitBytes sh.desc p) 0

/-! ### The accesses of an engine (R183, R225, R241, R283) -/

/-- The address of an access. -/
def EngOp.addr : EngOp → Nat
  | .rd a => a
  | .wr _ a _ _ => a

/-- R107: the tag of the engines' next access. -/
def State.engTag (s : State) : Nat := (freeTag (fun t => (AMap.find t s.eng.reqs).isSome) 65536 s.eng.next).getD s.eng.next

/-- The message of an access under a tag: reads of a relay are NOSPEC, since its engine waits for the verdict. -/
def State.engAsk (s : State) (sh : ShardS) (t : Nat) (op : EngOp) : Msg :=
  let h (nd fl : Nat) : Hdr := s.hdrTo (adDev op.addr) false .engine t nd sh.sc fl
  let m : Msg := match op with
    | .rd a => { op := .rd128, h := h 0 (2 * b2n sh.relay), addr := a }
    | .wr _ a (.whole d) fl => { op := .wr128, h := h 4 fl, addr := a, data := d }
    | .wr _ a .lost _ => { op := .wr128, h := h 4 3, addr := a, data := zeros 128 }
    | .wr _ a (.bytes off d) _ =>
      { op := .wr128, h := h 0 0, addr := a, upd := some (.bytes off d) }
    | .wr _ a u _ => { op := .wr128, h := h 0 0, addr := a, upd := some u }
  if sh.relay then { m with eng := some sh.g } else m

/-- R231: a line that a list opcode changes, as it was before. -/
def State.engOld (s : State) (sh : ShardS) (op : EngOp) : AMap (List Byte) :=
  match op with
  | .rd _ => sh.old
  | .wr _ a _ _ =>
    let l := lineIx (adLocal a)
    if (dOpc sh.desc = 6 ∨ dOpc sh.desc = 7) ∧ sh.own a ∧ AMap.find l sh.old = none then AMap.put l (s.lineNow (s.linePlace l)).1 sh.old else sh.old

/-- Issues an access of the shard that a tier runs. At the device's own channels it waits in its engine until its class has room (R183, R184);
one of a relay waits while the route to its device may change (R24), and draws UNREACHABLE where that is unreachable or halted (R280). -/
def State.engIssue (t : Nat) (sh : ShardS) (op : EngOp) (s : State) : State :=
  let own := sh.own op.addr
  let dev := adDev op.addr
  if (own && !s.room sh.sc) || (sh.relay && !(s.ent dev).halted && s.routeHeld dev) then s
  else
    let g := s.engTag
    let m := s.engAsk sh g op
    let sh := { sh with tag := some g, old := s.engOld sh op }
    let s := { s with eng.next := (g + 1) % 65536,
                      eng.reqs := AMap.put g { tier := t, src := if sh.relay then s.num else adDev op.addr, op := op } s.eng.reqs }
    let s := s.modTier t (fun x => { x with run := some sh })
    if sh.relay then (if s.unreachable dev then s.hostErr m Cause.unreachable else s.mgrServe m) else if own then s.ownEngine m else s.route none m

/-- A unit is done: its result counts, and a checkpoint is due where a multiple of CKPT_BYTES has been passed (R242, R246). -/
def State.unitDone (t : Nat) (sh : ShardS) (p : Nat × Nat × Nat × Nat) (r : EngR) (s : State) : State :=
  let a : EngMark := { unit := sh.at_.unit + 1, bytes := sh.at_.bytes + unitBytes sh.desc p, res := r }
  let mark := if sh.at_.bytes / Config.CKPT_BYTES < a.bytes / Config.CKPT_BYTES then a else sh.mark
  let (pick, s) := if dOpc sh.desc = 6 ∨ dOpc sh.desc = 7 then s.draw else (sh.pick, s)
  let s := if sh.at_.res.applied < r.applied then s.bump (tierSlot t 7) (r.applied - sh.at_.res.applied) else s
  let s := if sh.at_.res.skipped < r.skipped then
    (s.bump (tierSlot t 8) (r.skipped - sh.at_.res.skipped)).raise Reg.ENG_STATUS F.ENG_STATUS_ATOM_FAIL else s
  let wrote := sh.got.any (fun g => g.2.1 == 0 && match g.1 with | .wr _ _ _ _ => true | .rd _ => false)
  let s := if dOpc sh.desc = 0x45 ∧ sh.dev = s.num ∧ wrote then s.bump (chSlot (s.linePlace p.1).chan 23) 1 else s
  s.modTier t (fun x => { x with run := some { sh with at_ := a, mark := mark, got := [], pick := pick } })

/-! ### Shards on a device -/

/-- `ENG.STATUS.BUSY` and RELAY follow the shards of this device. -/
def State.engFlags (s : State) : State :=
  let all := (List.range 4).flatMap (fun t => (match (s.tier t).run with | some x => [x] | none => []) ++ (s.tier t).waiting)
  (s.cond Reg.ENG_STATUS F.ENG_STATUS_BUSY (!all.isEmpty)).cond Reg.ENG_STATUS F.ENG_STATUS_RELAY
    (s.isManager && (List.range 4).any (fun t => match (s.tier t).run with | some x => x.relay | none => false))

/-- R226: the next waiting shard of a tier starts: firm classes first, then in order of arrival. Where no engine is left, those that have
stopped go on to skip their records (R251). -/
def State.engNext (t : Nat) (s : State) : State :=
  let x := s.tier t
  let can := x.waiting.filter (fun w => !x.excluded || w.stop != 0)
  if x.run.isSome || s.fld Reg.ENG_CTL F.ENG_CTL_HOLD == 1 then s.engFlags
  else match (match can.find? (fun (w : ShardS) => w.firm) with | some w => some w | none => can.head?) with
    | none => s.engFlags
    | some w =>
      (s.modTier t (fun x => { x with run := some w, waiting := x.waiting.erase w })).engFlags

/-- A message of this device's engine to the manager (R124, R244). -/
def State.engReply (op : MOp) (sh : ShardS) (part status : Nat) (data : List Byte) (words : List Nat) (s : State) : State :=
  s.route none { op := op, h := s.hdrTo 0 false .engine 0 ((data.length + 31) / 32) 0 0, addr := 0, data := data, words := words,
                 eng := some { sh.g with part := part, status := BitVec.ofNat 8 status } }

/-- The parts of a partial: messages of four data blocks, the last of as many as it needs (R244). -/
def partChunks (b : List Byte) : List (List Byte) := (List.range ((b.length + 127) / 128)).map (fun k => slice b (128 * k) 128)

/-- R243: a shard reports with a code: its partial, then SHARD_DONE. -/
def State.shardReport (sh : ShardS) (code : Nat) (s : State) : State :=
  let w := sh.desc
  let r := sh.at_.res
  let s := if dOpc w = 4 ∨ dOpc w = 5 ∨ dOpc w = 8 then
      let cs := partChunks (r.part.toBytes w)
      forEach (List.range cs.length) (fun k s => s.engReply .part sh k 0 (cs.getD k []) [(cs.getD k []).length, b2n (k + 1 == cs.length)]) s
    else s
  s.engReply .shardDone sh 0 code [] [r.done, r.failRec, r.swaps]

/-- The code of a shard that has worked through its lines (R236): of an ATOMIC_BATCH, that of its lowest skipped record. -/
def ShardS.code (sh : ShardS) : Nat :=
  if dOpc sh.desc = 9 ∧ sh.at_.res.failRec < 4294967295 then sh.at_.res.recCode else minCode sh.stop sh.at_.res.code

/-- R251: the engines that are not excluded, by tier. -/
def State.enginesLeft (s : State) : List Nat := (List.range 4).filter (fun t => !(s.tier t).excluded)

/-- R251: a shard that finds no engine stops with ADMISSION; one of an ATOMIC_BATCH goes on to skip its remaining records. -/
def State.shardStop (sh : ShardS) (s : State) : State :=
  if dOpc sh.desc = 9 then
    (s.modTier sh.place (fun x => { x with waiting := x.waiting ++ [{ sh with stop := Cause.admission }] })).engNext sh.place
  else s.shardReport sh Cause.admission

/-- R241: a SHARD message takes a shard slot of its tier; while a device admits nothing it completes with ADMISSION (R466). -/
def State.shardArrive (g : EngHdr) (dev tier : Nat) (phaseB relay : Bool) (desc : List Nat) (s : State) : State :=
  let c := dSc desc
  let sh : ShardS := { g := g, dev := dev, home := tier, phaseB := phaseB, relay := relay, desc := desc, sc := c, firm := decide (c < 4), place := tier }
  if !s.running then s
  else if s.flt.admitStop || (s.tier tier).released then s.shardReport sh Cause.admission
  else
    let (pick, s) := if dOpc desc = 6 ∨ dOpc desc = 7 then s.draw else (0, s)
    let sh := { sh with units := s.unitsOf sh, pick := pick }
    match (if (s.tier tier).excluded then s.enginesLeft.head? else some tier) with
    | none => s.shardStop sh
    | some t => (s.modTier t (fun x => { x with waiting := x.waiting ++ [{ sh with place := t }] })).engNext t

/-- Whether the shard that a tier runs may go on: an ordinary one stalls at stage 3 (R195). -/
def State.engGoes (s : State) (t : Nat) (sh : ShardS) : Bool := sh.firm || decide (s.throttle t < 3)

/-- The engine of a tier works on until it waits for an access. -/
def State.engGo : Nat → Nat → State → State
  | 0, _, s => s
  | n + 1, t, s =>
    match (s.tier t).run with
    | none => s
    | some sh =>
      if !s.engGoes t sh || sh.tag.isSome then s
      else match sh.units[sh.at_.unit]? with
        | none => s
        | some p => match s.unitRun sh p with
          | .error op => s.engIssue t sh op
          | .ok r => (s.unitDone t sh p r).engGo n t

/-- The engines of a device work on. -/
def State.engPump (s : State) : State := forEach (List.range 4) (State.engGo 1024) s

/-- R252: a result of an older placement is discarded. -/
def State.staleResult (t : Nat) (s : State) : State := (s.raise Reg.ENG_STATUS F.ENG_STATUS_STALE_RESULT).bump (tierSlot t 5) 1

/-- What an engine makes of a response: its code, and its bytes. -/
def Msg.drawn (m : Msg) : Nat × List Byte := match m.op with | .err => (m.status, []) | _ => (0, m.data)

/-- A response reaches the engine that asked, by source and tag (R100); a shard that has stopped takes none. -/
def State.engAnswer (m : Msg) (s : State) : State :=
  let g := m.h.tag.toNat
  match AMap.find g s.eng.reqs with
  | none => s.tagErr
  | some a =>
    if m.h.src.val ≠ a.src ∨ m.h.srcHost then s.tagErr
    else
      let s := { s with eng.reqs := AMap.del g s.eng.reqs }
      if a.stale then s.staleResult a.tier
      else match (s.tier a.tier).run with
        | none => s
        | some sh =>
          if sh.tag = some g then s.modTier a.tier (fun x => { x with run := some { sh with tag := none, got := sh.got ++ [(a.op, m.drawn)] } })
          else s

/-- R243: the engine of a tier that has done its work finishes its shard, reports, and starts the next shard. -/
def State.shardFinish (t : Nat) (s : State) : State :=
  match (s.tier t).run with
  | none => s
  | some sh =>
    if s.engGoes t sh ∧ sh.units.length ≤ sh.at_.unit then
      let s := s.bump (tierSlot t 0) 1
      let s := if sh.home = t then s else s.bump (tierSlot t 28) 1
      let s := if sh.relay then (s.bump (tierSlot t 6) 1).bump (mgrSlot 47) (sh.at_.res.done * 128 / 1024) else s
      ((s.modTier t (fun x => { x with run := none })).shardReport sh sh.code).engNext t
    else s

/-- R220: an ABORT stops a shard of this device; what its access draws is dropped. -/
def State.shardAbort (g : EngHdr) (s : State) : State :=
  let hit (x : ShardS) : Bool := x.g.queue == g.queue && x.g.dseq == g.dseq && x.g.index == g.index
  forEach (List.range 4) (fun t s =>
    let x := s.tier t
    let gone := (match x.run with | some r => if hit r then [r] else [] | none => []) ++ x.waiting.filter hit
    if gone.isEmpty then s
    else
      let s := s.modTier t (fun x => { x with run := (match x.run with | some r => if hit r then none else some r | none => none),
                                              waiting := x.waiting.filter (fun w => !hit w) })
      (forEach gone (fun w s => (s.raise Reg.ENG_STATUS F.ENG_STATUS_ABORTED).shardReport w 0x18) s).engNext t) s

/-- R242: a checkpoint of the shard that a tier runs: what it had done at the last multiple of CKPT_BYTES is kept. -/
def State.engCheckpoint (t : Nat) (s : State) : State :=
  match (s.tier t).run with
  | none => s
  | some sh =>
    if sh.saved.unit < sh.mark.unit then
      (s.modTier t (fun x => { x with run := some { sh with saved := sh.mark } })).bump (tierSlot t 1) 1
    else s

/-- The tiers that a thermal migration may go to: stage 0, no shard running or waiting, not excluded; the coolest first. -/
def State.coolTiers (s : State) (t : Nat) : List Nat :=
  sortBy (fun a b => (s.tier a).inputT ≤ (s.tier b).inputT) ((List.range 4).filter (fun u => u != t && s.throttle u == 0 &&
    (s.tier u).run.isNone && (s.tier u).waiting.isEmpty && !(s.tier u).excluded))

/-- The ranges that a unit reads and writes. -/
def ShardS.unitRanges (sh : ShardS) (p : Nat × Nat × Nat × Nat) : List (Nat × Nat) :=
  let w := sh.desc
  let n := p.2.2.1
  let k := p.2.2.2
  match dOpc w with
  | 2 => [(dDst w + k, n)]
  | 3 => [(dDst w + k, n)]
  | 4 => (dSrc w + k, n) :: (if bit (dOflags w) 0 then [(dSrc2 w + k, n)] else [])
  | 5 => [(dSrc w + k, n)]
  | 8 => [(withDev (dSrc w) sh.dev + k, n)]
  | 10 => (dDst w + k, n) :: (List.range (xorN w)).map (fun j => (dSrc w + j * xorStride w + k, n))
  | _ => [(dSrc w + k, n), (dDst w + k, n)]

/-- Whether a shard uses a channel at half width: one that holds a line of its units on this device; list contents may name any (DEDUCED). -/
def State.usesHalf (s : State) (sh : ShardS) : Bool :=
  if dOpc sh.desc = 6 ∨ dOpc sh.desc = 7 then (List.range 32).any (fun c => (s.chan c).half.isSome)
  else (sh.units.flatMap sh.unitRanges).any (fun r =>
    adDev r.1 == s.num && (linesOf r).any (fun l => (s.chan (s.linePlace l).chan).half.isSome))

/-- R252: a shard under a new placement: it goes on from its last checkpoint. -/
def ShardS.replaced (sh : ShardS) (u now : Nat) : ShardS :=
  { sh with g := { sh.g with epoch := sh.g.epoch + 1 }, place := u, moved := some now, at_ := sh.saved, mark := sh.saved, got := [], tag := none }

/-- R251, R252: migration of the shard that a tier runs: trigger 0 thermal, 1 windthrow, 2 engine fault. -/
def State.engMigrate (t trigger : Nat) (s : State) : State :=
  match (s.tier t).run with
  | none =>
    if trigger = 2 ∧ (s.tier t).excluded then
      let w := (s.tier t).waiting.filter (fun x => x.stop == 0)
      let s := s.modTier t (fun x => { x with waiting := x.waiting.filter (fun y => y.stop != 0) })
      forEach w (fun sh s => match s.enginesLeft.head? with
        | none => s.shardStop sh
        | some u => (s.modTier u (fun x => { x with waiting := x.waiting ++ [{ sh with place := u }] })).engNext u) s
    else s
  | some sh =>
    let go (u : Nat) (s : State) : State :=
      let s := { s with eng.reqs := AMap.mapVal (fun a => if a.tier = t ∧ sh.tag.isSome then { a with stale := true } else a) s.eng.reqs }
      let s := s.modTier t (fun x => { x with run := none })
      let sh := sh.replaced u s.now
      let s := s.modTier u (fun x => if x.run.isNone then { x with run := some sh } else { x with waiting := sh :: x.waiting })
      let s := ((s.bump (tierSlot t (2 + trigger)) 1).raise Reg.ENG_STATUS F.ENG_STATUS_MIGRATED).exclude sh.sc
      s.engNext t
    let stop (s : State) : State := ((s.modTier t (fun x => { x with run := none })).shardStop sh).engNext t
    if sh.stop ≠ 0 then s
    else if dOpc sh.desc = 9 then (if trigger = 2 ∧ (s.tier t).excluded ∧ s.enginesLeft.isEmpty then stop s else s)
    else if trigger = 0 then
      if s.fld Reg.ENG_CTL F.ENG_CTL_MIGRATE_EN = 1 ∧ s.fld Reg.ENG_CTL F.ENG_CTL_MIG_STAGE ≤ s.throttle t ∧
          Config.MIG_MIN ≤ sh.bytes - sh.at_.bytes ∧ (match sh.moved with | some m => decide (m + Config.MIG_HOLD ≤ s.now) | none => true) = true then
        match s.coolTiers t with
        | u :: _ => go u s
        | [] => s
      else s
    else if trigger = 1 then (if s.usesHalf sh then go t s else s)
    else if (s.tier t).excluded then
      match s.enginesLeft with
      | u :: _ => go u s
      | [] => stop s
    else s

/-! ### Shards at the manager -/

/-- The device that runs a shard: a relay runs on the manager (R283). -/
def DescS.runsOn (d : DescS) (x : ShardM) : Nat := if d.relay then 0 else x.dev

/-- Shards sent to a tier of a device and not yet done; relay shards by themselves (R226, R283). -/
def State.slotsUsed (s : State) (dev tier : Nat) (relay : Bool) : Nat :=
  (s.que.descs.flatMap (fun d => d.shards.filter (fun x => x.2.sent && !x.2.done && d.runsOn x.2 == dev && x.2.tier == tier &&
    (!relay || d.relay)))).length

/-- R241: sends the SHARD message of a shard. -/
def State.sendShard (d : DescS) (ix : Nat) (x : ShardM) (s : State) : State :=
  let s := (s.putDesc { d with shards := AMap.put ix { x with sent := true } d.shards }).bump (classSlot (dSc d.words) 6) 1
  s.route none (s.engMsg .shard (d.runsOn x) d ix 0 0 0 (ofWords d.words) [x.tier + 4 * b2n (d.phaseB == .runs) + 8 * b2n d.relay])

/-- Sends what the slots of the tiers allow, in order of fetch. -/
def State.sendShards (s : State) : State :=
  forEach (s.que.descs.filter (fun d => d.stage == .running)) (fun d s =>
    forEach (d.shards.filter (fun x => !x.2.sent && !x.2.done)) (fun x s =>
      match s.desc d.q d.i with
      | none => s
      | some d =>
        let dev := d.runsOn x.2
        if s.slotsUsed dev x.2.tier false < Config.SHARD_SLOTS ∧ (!d.relay ∨ s.slotsUsed 0 x.2.tier true = 0) then s.sendShard d x.1 x.2
        else s) s) s

/-- The partial of a shard that has reported. -/
def ShardM.part (w : List Nat) (x : ShardM) : Partial := Partial.ofBytes w (x.parts.flatMap (·.2))

/-- R218, R246: the code of a descriptor from its shards. -/
def DescS.shardCode (d : DescS) : Nat :=
  let rs := d.shards.map (·.2)
  let any := rs.foldl (fun c x => minCode c x.fail) 0
  if dOpc d.words = 9 then
    match rs.filter (fun x => decide (x.failRec < 4294967295)) with
    | [] => any
    | x :: r => (r.foldl (fun (a b : ShardM) => if b.failRec < a.failRec then b else a) x).fail
  else any

/-- R232, R233, R238, R239, R246: VALUE and result granule of a descriptor whose shards have all reported. -/
def DescS.outcome (d : DescS) : Nat × List Byte :=
  let w := d.words
  let p := (d.shards.map (fun x => x.2.part w)).foldl (fun a b => a.merge (rEtype w) (rRop w) (rUns w) b) ({} : Partial)
  match dOpc w with
  | 4 => (b2n (p.diff != 0), leBytes 8 (p.first.getD (2 ^ 64 - 1)) ++ leBytes 8 p.diff)
  | 5 =>
    let wide := bit (dOflags w) 0
    let ones := if wide then 2 ^ 64 - 1 else 2 ^ 32 - 1
    let seed := if bit (dOflags w) 1 then dAuxN w 0 8 % (ones + 1) else 0
    let v := p.rem ^^^ crcRun (if wide then poly64 else poly32C) (zeros (dLen w)) (seed ^^^ ones) ^^^ ones
    (v % 2 ^ 32, leBytes 8 v ++ leBytes 8 (dLen w))
  | 8 => let (r, fl) := p.reduce w; (fl, r)
  | 9 => (d.shards.foldl (fun n x => n + x.2.swaps) 0, [])
  | 0x45 => (d.shards.foldl (fun n x => n + x.2.swaps) 0, [])
  | _ => (0, [])

/-- Ends an engine descriptor whose shards have all reported. -/
def State.engEnd (d : DescS) (s : State) : State :=
  let (v, r) := d.outcome
  if dOpc d.words = 0x45 then s.record d d.shardCode v none false else s.descEnd d d.shardCode v r

/-- R247: sends phase B of an ATOMIC_BATCH to one engine of its device. -/
def State.phaseBSend (d : DescS) (s : State) : State :=
  let ix := d.shards.length
  let l := lineIx (adLocal (dSrc d.words))
  let dev := adDev (dSrc d.words)
  let x : ShardM := { dev := dev, tier := s.tierOf dev l }
  (s.putDesc { d with phaseB := .runs, shards := AMap.put ix x d.shards }).sendShards

/-- Whether a descriptor is of a queue of group `g`. -/
def State.ofGroup (s : State) (g : Nat) (d : DescS) : Bool := cGrpEn (s.ctx d.q) && cGrp (s.ctx d.q) == g

/-- R248: the descriptors of a group's open epoch whose phase B is in a state; one that runs counts though its queue has left (R250). -/
def State.epochBatches (s : State) (g : Nat) (ph : PhaseB) : List DescS :=
  sortBy (fun a b => a.q < b.q || (a.q == b.q && a.order ≤ b.order))
    (s.que.descs.filter (fun d => s.ofGroup g d && d.phaseB == ph && (ph == .runs || (s.members g).contains d.q) &&
      (match s.epochFence d.q with | some f => decide (d.order < f.order) | none => true)))

/-- R249: one step of the close of an epoch: on every device the next phase B starts; when none is left, the batches complete, then the
fences, and the next epoch opens. -/
def State.epochStep (g : Nat) (s : State) : State :=
  let grp := AMap.get g ({} : GroupS) s.que.groups
  if !grp.closing then s
  else
    let busy := (s.epochBatches g .runs).map (fun d => adDev (dSrc d.words))
    let wait := s.epochBatches g .waits
    let first := wait.filter (fun d => !busy.contains (adDev (dSrc d.words)) &&
      (wait.find? (fun e => adDev (dSrc e.words) == adDev (dSrc d.words))) == some d)
    if busy.isEmpty && wait.isEmpty then
      let s := forEach (s.epochBatches g .done) State.engEnd s
      let fences := (s.members g).filterMap s.epochFence
      let s := forEach fences (fun d s => s.record d 0 0 none false) s
      let n := s.fld Reg.ENG_EPOCHS F.ENG_EPOCHS_VALUE
      let s := s.setFld Reg.ENG_EPOCHS F.ENG_EPOCHS_VALUE (min (2 ^ 32 - 1) (n + 1))
      ({ s with que.groups := AMap.set g {} { epoch := grp.epoch + 1 } s.que.groups }).bump (mgrSlot 60) 1
    else forEach first State.phaseBSend s

/-- R249: whether the open epoch of a group may close. -/
def State.epochReady (s : State) (g : Nat) : Bool :=
  let ms := s.members g
  !ms.isEmpty && !(AMap.get g ({} : GroupS) s.que.groups).closing &&
  ms.all (fun q => match s.epochFence q with
    | none => false
    | some f => (s.que.descs.filter (fun d => d.q == q && decide (d.order < f.order))).all (fun d => d.phaseB == .waits))

/-- R249: the close of an epoch. -/
def State.epochClose (g : Nat) (s : State) : State :=
  if s.epochReady g then
    let grp := AMap.get g ({} : GroupS) s.que.groups
    ({ s with que.groups := AMap.set g {} { grp with closing := true } s.que.groups }).epochStep g
  else s

/-- R243, R247: what follows when every shard of a descriptor that is sent has reported. -/
def State.shardsDone (d : DescS) (s : State) : State :=
  if d.shards.all (fun x => x.2.done) then
    if dOpc d.words = 9 then
      let cut := d.shards.any (fun x => x.2.fail == 0x18 || x.2.fail == Cause.pathReset)
      match d.phaseB with
      | .none =>
        if cut then s.engEnd d
        else
          let s := s.putDesc { d with phaseB := .waits }
          if cGrpEn (s.ctx d.q) ∧ (cState (s.ctx d.q) = 1 ∨ cState (s.ctx d.q) = 2) then s
          else if cGrpEn (s.ctx d.q) then s.record d 0x18 0 none false
          else s.phaseBSend { d with phaseB := .waits }
      | .runs =>
        if (s.members (cGrp (s.ctx d.q))).contains d.q ∧ !cut ∧ (AMap.get (cGrp (s.ctx d.q)) ({} : GroupS) s.que.groups).closing then
          (s.putDesc { d with phaseB := .done }).epochStep (cGrp (s.ctx d.q))
        else (s.engEnd d).epochStep (cGrp (s.ctx d.q))
      | _ => s
    else s.engEnd d
  else s

/-- R240: an engine descriptor starts. What has changed since it was read is judged again: it waits while a map write concerns its operands, and
draws PROT_DENIED where the map or the keys no longer admit it (R263, R270). -/
def State.engStart (opc q i : Nat) (s : State) : State :=
  match s.desc q i with
  | none => s
  | some d =>
    if dOpc d.words = opc ∧ s.mayStart d ∧ !(operands d.words).any s.rangeHeld then
      if s.protStops d then s.record d Cause.protDenied 0 none false
      else
        let d := { d with relay := (operands d.words).any s.rangeRelay }
        let l := s.shardsOf d.words
        let sh : AMap ShardM := (List.range l.length).map (fun k => (k, { dev := (l.getD k (0, 0)).1, tier := (l.getD k (0, 0)).2 }))
        let d := { d with stage := .running, shards := sh }
        let s := s.putDesc d
        if l.isEmpty then s.descEnd d 0 d.outcome.1 d.outcome.2 else s.sendShards
    else s

/-- The descriptor in flight that an ENG message names. -/
def State.engDesc (s : State) (g : EngHdr) : Option (DescS × ShardM) :=
  match s.que.descs.find? (fun d => d.q == g.queue && dSeq d.words == g.dseq.toNat && d.stage == .running) with
  | none => none
  | some d => (AMap.find g.index d.shards).map (fun x => (d, x))

/-- R243: a PARTIAL message reaches the manager. -/
def State.partArrive (g : EngHdr) (data : List Byte) (s : State) : State :=
  match s.engDesc g with
  | none => s
  | some (d, x) =>
    if x.done then s
    else if g.epoch < x.epoch then s.staleResult x.tier
    else
      let parts := if x.epoch < g.epoch then [] else x.parts
      (s.putDesc { d with shards := AMap.put g.index { x with epoch := g.epoch, parts := AMap.put g.part data parts } d.shards }).bump
        (mgrSlot 61) 1

/-- A shard is done with a code. -/
def State.shardEnd (d : DescS) (ix : Nat) (x : ShardM) (code failRec swaps : Nat) (s : State) : State :=
  let d := { d with shards := AMap.put ix { x with done := true, fail := code, failRec := failRec, swaps := swaps } d.shards }
  ((s.putDesc d).shardsDone d).sendShards

/-- R243: SHARD_DONE reaches the manager. -/
def State.shardDoneArrive (g : EngHdr) (failRec swaps : Nat) (s : State) : State :=
  match s.engDesc g with
  | none => s
  | some (d, x) =>
    if x.done then s
    else if g.epoch < x.epoch then s.staleResult x.tier
    else s.shardEnd d g.index { x with epoch := g.epoch } g.status.toNat failRec swaps

/-- The devices that a shard reads or writes, as far as its descriptor names them. -/
def shardDevs (w : List Nat) (x : ShardM) : List Nat := if dOpc w = 8 then [x.dev] else (shardRanges w).map (fun r => adDev r.1)

/-- R24, R236: the shards that run on devices that have cleared, or have an operand there, end with PATH_RESET; those that run elsewhere are
aborted. -/
def State.shardsLost (ds : List Nat) (s : State) : State :=
  forEach s.que.descs (fun d s =>
    forEach (d.shards.filter (fun x => !x.2.done && (ds.contains (d.runsOn x.2) || (shardDevs d.words x.2).any ds.contains))) (fun x s =>
      match s.desc d.q d.i with
      | none => s
      | some d =>
        let on := d.runsOn x.2
        let s := if x.2.sent && !ds.contains on then s.route none (s.engMsg .abort on d x.1 x.2.epoch 0 0 [] []) else s
        (s.fault (79 + 2 * x.2.tier) x.2.tier []).shardEnd d x.1 x.2 Cause.pathReset 4294967295 0) s) s

/-- R250: what a change of membership leaves behind: a batch whose phase B has run in a queue that has left completes; the queues that wait
to join a group without members join at once (DEDUCED); a close goes on over the members that are left. -/
def State.epochSweep (s : State) : State :=
  let out (d : DescS) : Bool := d.phaseB == .done && !(s.members (cGrp (s.ctx d.q))).contains d.q
  let s := forEach (s.que.descs.filter out) State.engEnd s
  forEach s.que.groups (fun e s =>
    let g := AMap.get e.1 ({} : GroupS) s.que.groups
    if g.closing then s.epochStep e.1
    else if (s.members e.1).isEmpty && !g.joining.isEmpty then
      { s with que.groups := AMap.set e.1 {} { g with joining := [] } s.que.groups }
    else s) s

end Sys2Proof.Machine
end

