-- ==== Sys2Proof/Machine/Prot.lean ====
section
/-! DEFINITION. The protection map (R268 to R270): the reasons for which a write is refused, the application of an accepted write,
the copies that the manager's warden writes into owners; retired keys (R263); debug and test accesses (R285, R286). -/

namespace Sys2Proof.Machine

/-! ### The checks of a map write (R269) -/

/-- Whether two closed intervals of granules meet. -/
def meets (a b c d : Nat) : Bool := decide (a ≤ d) && decide (c ≤ b)

/-- The tag region of a protected entry in units of 128 KiB: first unit and length (R268). -/
def peTagRegion (e : List Nat) : Nat × Nat := (peTag e, peLast e + 1 - peFirst e)

/-- Whether the tag region of a protected entry lies wholly in a tag-pool entry. -/
def peTagIn (e pool : List Nat) : Bool :=
  let (a, n) := peTagRegion e
  decide (peFirst pool * 16 ≤ a) && decide (a + n ≤ (peLast pool + 1) * 16)

/-- Whether the tag regions of two protected entries overlap. -/
def peTagsMeet (e f : List Nat) : Bool :=
  let (a, n) := peTagRegion e
  let (b, m) := peTagRegion f
  decide (a < b + m) && decide (b < a + n)

/-- R268: stores an entry; an entry of zeros is not listed. -/
def mapPut (k : Nat) (w : List Nat) (m : AMap (List Nat)) : AMap (List Nat) := if w.all (· == 0) then AMap.del k m else AMap.put k w m

/-- The master maps as they will stand once the accepted writes have taken effect: what a further write is judged by, and what a read of the
items gives (R269, R270; DEDUCED). -/
def State.mapsNext (s : State) : AMap (List Nat) := s.prot.jobs.foldl (fun m j => mapPut (j.dev * 256 + j.entry) j.new m) s.prot.maps

/-- The other valid entries of a device's master map. -/
def State.otherEntries (s : State) (n e : Nat) : List (List Nat) :=
  (s.mapsNext.filter (fun x => x.1 / 256 == n && x.1 != n * 256 + e && peValid x.2)).map (·.2)

/-- The zero fields of R268, and KIND not reserved. -/
def peZeros (w : List Nat) : Bool :=
  bits (w.getD 0 0) 27 10 == 0 && bits (w.getD 2 0) 31 24 == 0 && bits (w.getD 3 0) 31 20 == 0 && peKind w != 3 &&
  (peKind w == 1 || (peKeyLo w == 0 && peKeyHi w == 0 && peTag w == 0))

/-- R269: the lowest-numbered reason against a write of entry `e` of device `n`, 0 for none. -/
def State.mapReason (s : State) (n e : Nat) (w : List Nat) : Nat :=
  let t := s.ent n
  let old := AMap.get (n * 256 + e) [] s.mapsNext
  let rest := s.otherEntries n e
  if !t.valid || !(decide (peFirst w ≤ peLast w) && decide (peLast w < t.capacity / 2097152)) then 1
  else if peValid w && rest.any (fun f => meets (peFirst w) (peLast w) (peFirst f) (peLast f)) then 2
  else if peKind w == 1 && !(decide (1 ≤ peKeyLo w) && decide (peKeyLo w ≤ peKeyHi w)) then 3
  else if peKind w == 1 && !(rest.any (fun f => peKind f == 2 && peTagIn w f) &&
      !(rest.any (fun f => peKind f == 1 && peTagsMeet w f))) then 4
  else if peValid old && peValid w && !(peKind old == peKind w && peFirst old == peFirst w && peLast old == peLast w && peTag old == peTag w) then 5
  else if peValid old && peKind old == 2 && !peValid w && rest.any (fun f => peKind f == 1 && peTagIn f old) then 6
  else if t.is232 && peKind w != 0 then 7
  else if !peZeros w then 8
  else 0

/-! ### Applying a map write (R270) -/

/-- `PROT.STATUS.MAP_BUSY` follows the writes being applied. -/
def State.mapFlag (s : State) : State := s.cond Reg.PROT_STATUS F.PROT_STATUS_MAP_BUSY (!s.prot.jobs.isEmpty)

/-- R270 step 1: commits the protected merge entries pending for a line that a map write concerns. -/
def State.mapMerges (j : MapJob) (s : State) : State :=
  forEach (s.mgr.merges.filter (fun (e : MergeE) => !e.busy && j.meets e.dev (e.line * 128))) State.mgrRmw s

/-- Whether something accepted under the old entry is outstanding for a map write: requests, merge entries, and descriptors that run. -/
def State.mapOpen (s : State) (j : MapJob) : Bool :=
  s.mgr.reqs.any (fun r => j.meets r.2.dev (r.2.line * 128)) || s.mgr.merges.any (fun e => j.meets e.dev (e.line * 128)) ||
  s.que.descs.any (fun d => d.stage == .running && (shardRanges d.words).any (fun r => (granulesOf r).any (fun g => j.meets (adDev r.1) g)))

/-- R270 step 4: an entry takes effect in the manager's master copy. -/
def State.mapTake (j : MapJob) (s : State) : State :=
  if s.isManager then { s with prot.maps := mapPut (j.dev * 256 + j.entry) j.new s.prot.maps } else s

/-- The first step of `TopoE.loading` at which map entries are written. -/
def mapping : Nat := 2 ^ 33

/-- R25: whether the whole map of a device is being written into it, before it becomes active. -/
def State.mapLoading (s : State) (n : Nat) : Bool := match (s.ent n).loading with | some k => decide (mapping ≤ k) | none => false

/-- The tag region of an entry as a range of lines. -/
def peTagLines (e : List Nat) : Nat × Nat := let (a, n) := peTagRegion e; (a * 1024, (a + n) * 1024 - 1)

/-- The lines of an entry's extent. -/
def peLines (e : List Nat) : Nat × Nat := (peFirst e * 16384, peLast e * 16384 + 16383)

/-- The fills of the lines `a` to `b` in the blocks to which running copies have moved them (R161 to R163). -/
def State.copyFills (s : State) (a b : Nat) : List FillSel :=
  let bank (i k : Nat) : List FillSel :=
    match AMap.find i s.pool.steers with | some e => [.bank e.pc e.bg e.bk k a b] | none => []
  s.pool.jobs.flatMap (fun j => match j.2.kind with
    | .page _ _ => []
    | .bank i _ => bank i j.2.target
    | .steerBlock i _ => bank i j.2.target
    | .remapBlock _ old =>
      (s.pool.remaps.filter (fun e => e.2.valid && e.2.block == old && decide (a ≤ e.2.page * 32) && decide (e.2.page * 32 ≤ b))).map
        (fun e => .slot j.2.target e.2.slot))

/-- Every line of a range, its pool places included, holds zero data and metadata `w`; writes accepted before go with it (R148, R270), and a copy
reads again a line that it had read before. -/
def State.fillLines (a b w : Nat) (s : State) : State :=
  let hit (p : Place) : Bool := match s.lineAt p with | some l => decide (a ≤ l) && decide (l ≤ b) | none => false
  let keep (x : Acc) : Bool := !hit x.place || (x.wr.isNone && (match x.origin with | .copy _ => false | _ => true))
  let slots := s.pool.remaps.filter (fun e => e.2.valid && decide (a ≤ e.2.page * 32) && decide (e.2.page * 32 ≤ b))
  let s := { s with
    stack.pcs := AMap.mapVal (fun k => { k with banks := AMap.mapVal (fun x => { x with queue := x.queue.filter keep }) k.banks }) s.stack.pcs
    stack.chans := AMap.mapVal (fun c => { c with admission := c.admission.filter keep }) s.stack.chans
    stack.tiers := AMap.mapVal (fun t => { t with buffer := t.buffer.filter keep, held := t.held.filter keep }) s.stack.tiers
    stack.bursts := s.stack.bursts.filter (fun e => keep e.2.acc) }
  let s := s.fill (.lines a b) w
  let s := forEach (s.copyFills a b) (fun f s => s.fill f w) s
  let s := forEach slots (fun e s => s.fill (.slot e.2.block e.2.slot) w) s
  (forEach s.pool.steers (fun e s => s.fill (.bank e.2.pc e.2.bg e.2.bk e.2.block a b) w) s).copyGo

/-- R270 step 3: the owner initialises the extent, and the tag region of a protected entry with STATE TAGS. -/
def State.mapFill (e : List Nat) (s : State) : State :=
  let x := peLines e
  let s := s.fillLines x.1 x.2 0
  if peKind e = 1 then let t := peTagLines e; s.fillLines t.1 t.2 (mdWord 3 false 0) else s

/-- Writes of one map entry into an owner's copy through its mailbox (R57, R58, R268): the item, its four words, the transfer. -/
def State.sendMap (n e : Nat) (w : List Nat) (use : WardenUse) (s : State) : State :=
  ((s.wardenWrite n Reg.MBX_SEL [0x00E * 2 ^ 16 + (0x1000 + 256 * n + e) % 65536] .seq).wardenData n (Reg.MBX_DATA 0)
    ((w ++ [0, 0, 0, 0]).take 4)).wardenWrite n Reg.MBX_CTL [3] use

/-- The word that asks for initialisation with the entry. -/
def peWithInit (w : List Nat) : List Nat := w.set 0 (setBits (w.getD 0 0) 30 30 1)

/-- R270 step 4: the map write at the front takes effect, and what it held goes on; an owner that is not active receives the entry before it
becomes active again, and an EVS-232 never does (R505). -/
def State.mapEffect : Nat → State → State
  | 0, s => s
  | fuel + 1, s =>
    match s.prot.jobs with
    | [] => s
    | j :: rest =>
      if j.sent then s
      else
        let s := s.mapMerges j
        if s.mapOpen j || s.mapLoading j.dev then s
        else if j.dev = s.num then
          if j.init then { s with prot.jobs := { j with sent := true } :: rest }
          else (({ s with prot.own := mapPut j.entry j.new s.prot.own, prot.jobs := rest }.mapTake j).mapFlag.ingress.descRetry).mapEffect fuel
        else if (s.ent j.dev).state != 0 || (s.ent j.dev).halted || (s.ent j.dev).is232 then
          (((({ s with prot.jobs := rest }.mapTake j).modEnt j.dev (fun t => if j.init && !t.is232 then { t with owed := t.owed ++ [j.entry] } else t)).mapFlag).ingress.descRetry).mapEffect fuel
        else ({ s with prot.jobs := { j with sent := true } :: rest }).sendMap j.dev j.entry (if j.init then peWithInit j.new else j.new)
          (.map j.dev j.entry)

/-- Advances the map writes as far as they go now. -/
def State.mapStep (s : State) : State := s.mapEffect (s.prot.jobs.length + 1)

/-- The map write at the front, which its owner has applied, is done. -/
def State.mapFinish (s : State) : State :=
  match s.prot.jobs with
  | [] => s
  | j :: rest => (({ s with prot.jobs := rest }.mapTake j).mapFlag.ingress.descRetry).mapStep

/-- R269, R270: a mailbox write of entry `e` of device `n` at the manager; the second component is ERR. -/
def State.mapWrite (n e : Nat) (w : List Nat) (s : State) : State × Nat :=
  let k := s.mapReason n e w
  if k ≠ 0 then
    ((s.raise Reg.PROT_STATUS F.PROT_STATUS_MAP_ERR).setReg Reg.PROT_MAP_ERR (BitVec.ofNat 32 (k * 2 ^ 16 + e * 2 ^ 8 + n)), 5)
  else
    let old := AMap.get (n * 256 + e) [0, 0, 0, 0] s.mapsNext
    let new := w.set 0 (setBits (w.getD 0 0) 30 30 0)
    let j : MapJob := { dev := n, entry := e, old := old, new := new, init := peInit w && peValid w && !peValid old }
    (((({ s with prot.jobs := s.prot.jobs ++ [j] }).mapFlag).mapMerges j).mapStep, 0)

/-- R268, R270: the manager's warden writes an entry of this device's own copy. -/
def State.mapCopy (e : Nat) (w : List Nat) (s : State) : State :=
  let new := w.set 0 (setBits (w.getD 0 0) 30 30 0)
  if peInit w && peValid w then
    let j : MapJob := { dev := s.num, entry := e, old := AMap.get e [0, 0, 0, 0] s.prot.own, new := new, init := true, sent := true }
    { s with prot.jobs := s.prot.jobs ++ [j] }.mapFlag
  else { s with prot.own := mapPut e new s.prot.own }

/-- MAP_INIT_DONE: the owner has initialised what the write at the front asks for; where the owner is another device, its manager learns
of it. -/
def State.mapInitDone (s : State) : State :=
  match s.prot.jobs with
  | [] => s
  | j :: _ =>
    if !j.sent ∨ s.mgr.cfg.any (fun c => c.2.use == .map j.dev j.entry) then s
    else if j.dev = s.num then (({ s with prot.own := mapPut j.entry j.new s.prot.own }).mapFill j.new).mapFinish
    else s.mapFinish

/-! ### Keys (R263) -/

/-- Whether a descriptor names a KeyID in its operands, or may in its list: any that its queue may name (DEDUCED). -/
def State.namesKey (s : State) (d : DescS) (k : Nat) : Bool :=
  (shardRanges d.words).any (fun r => adKey r.1 == k) || ((dOpc d.words == 6 || dOpc d.words == 7) && keyAllowed (s.ctx d.q) k)

/-- The host requests with a KeyID that are outstanding, until their response and SEAL (R263, R289). -/
def State.keyRequests (s : State) (k : Nat) : Nat := s.hostOpen.countP (fun m => !m.ofRelay && adKey m.addr == k)

/-- Uses of a KeyID that a retirement waits for: requests, and relay descriptors that run; one that has not started is judged again when it
does. -/
def State.keyUses (s : State) (k : Nat) : Nat :=
  s.keyRequests k + s.que.descs.countP (fun d => (d.stage == .running || d.stage == .granule) && d.relay && s.namesKey d k)

/-! ### Debug and test accesses (R285, R286) -/

/-- R285: whether a debug or test access to a line is refused. -/
def State.debugRefused (s : State) (l : Nat) : Bool :=
  s.ownGuarded (l * 128) || mdState (s.lineNow (s.linePlace l)).2 == 2 || mdState (s.lineNow (s.linePlace l)).2 == 3

/-- R285, R131, R474: the record of a refused access on a path: 0 JTAG or IEEE 1838, 1 I3C. -/
def State.debugRecord (l path : Nat) (s : State) : State :=
  let pl := leBytes 1 path ++ leBytes 8 (l * 128)
  let s := (s.blazeAt 255 255 0 2 0x000A 0 (leBytes 4 path ++ leBytes 4 l)).1
  let s := (s.setReg Reg.PROT_DBG_ADDR (BitVec.ofNat 32 ((path + 1) * 2 ^ 30 + l))).raise Reg.PROT_STATUS F.PROT_STATUS_DEBUG_BLOCK
  ((s.bump (devSlot 147) 1).notice 0x19 2 pl).fault 87 0 pl

/-- A whole line written by a debug or test access: STATE PLAIN, KeyID 0 (R286). -/
def State.debugWrite (l : Nat) (d : List Byte) (s : State) : State := s.writeNow (s.linePlace l) d (mdWord 1 false 0)

end Sys2Proof.Machine
end

