-- ==== Sys2Proof/Machine/Fuse.lean ====
section
/-! DEFINITION. One-time-programmable memory (R417 to R431): regions, the cells of a word and of a pair, sensing (R421 to R425), the
shadows (R426), spare entries (R419), programming (R427 to R429) and the counters of tallies and of anti-rollback (R412, R430). -/

namespace Sys2Proof.Machine

/-! ### Regions (R418) -/

/-- A region: its code, its index in `FUSE.REGION`, its die, its first word and length, whether it is a counter, mandatory, and
accepts programming (R428). -/
structure FuseReg where
  code      : Nat
  k         : Nat
  die       : Nat
  first     : Nat
  len       : Nat
  counter   : Bool
  mandatory : Bool
  program   : Bool
  deriving DecidableEq, Repr

/-- R418: the regions of the base die. -/
def baseRegions : List FuseReg := [
  ⟨0, 0, 0, 0x000, 0x80, false, true, false⟩, ⟨1, 1, 0, 0x080, 0x10, false, true, false⟩, ⟨2, 2, 0, 0x090, 0x10, false, false, true⟩,
  ⟨3, 3, 0, 0x0A0, 0x10, false, false, true⟩, ⟨4, 4, 0, 0x0B0, 0x10, false, false, true⟩, ⟨5, 5, 0, 0x0C0, 0x10, true, false, false⟩,
  ⟨6, 6, 0, 0x100, 0x40, false, false, true⟩]

/-- R418: the regions of tier die `t`. -/
def tierRegions (t : Nat) : List FuseReg := [
  ⟨0x1000 + 0x100 * t, 8 + 4 * t, 1 + t, 0x000, 0x100, false, true, false⟩,
  ⟨0x1001 + 0x100 * t, 9 + 4 * t, 1 + t, 0x100, 0x100, false, true, false⟩,
  ⟨0x1002 + 0x100 * t, 10 + 4 * t, 1 + t, 0x200, 0x100, false, false, true⟩,
  ⟨0x1003 + 0x100 * t, 11 + 4 * t, 1 + t, 0x300, 0x40, true, false, false⟩]

/-- R418: the region of memory die `m`. -/
def memRegions (m : Nat) : List FuseReg := [⟨0x2000 + 0x100 * m, 24 + m, 5 + m, 0x000, 0x100, false, true, false⟩]

/-- Every region of the device. -/
def fuseRegions : List FuseReg :=
  baseRegions ++ (List.range 4).flatMap tierRegions ++ (List.range 16).flatMap memRegions

/-- The region of a code. -/
def regionOf (code : Nat) : Option FuseReg := fuseRegions.find? (fun r => r.code == code)

/-- The region with an index of `FUSE.REGION`. -/
def regionAt (k : Nat) : Option FuseReg := fuseRegions.find? (fun r => r.k == k)

/-- The regions of a die. -/
def dieRegions (d : Nat) : List FuseReg := fuseRegions.filter (fun r => r.die == d)

/-! ### Cells -/

/-- The cells of a word of a die. -/
def State.fuseWord (s : State) (die w : Nat) : FuseW := AMap.get (die * 4096 + w) {} s.fuse.cells

/-- The lock pairs of a region. -/
def State.lockOf (s : State) (k : Nat) : LockS := AMap.get k {} s.fuse.locks

/-- R423: whether a lock pair reads 1: 0 WLOCK, 1 RLOCK. -/
def LockS.reads (l : LockS) (pair : Nat) : Bool := bits l.strong (2 * pair + 1) (2 * pair) != 0 || bits l.marg (2 * pair + 1) (2 * pair) != 0

/-- R422: the decoded words of a region with their status. -/
def State.fuseWords (s : State) (r : FuseReg) : List (Nat × Nat) :=
  (List.range r.len).map (fun i => let c := s.fuseWord r.die (r.first + i); fuseDecode c.strong c.marg)

/-- R420: the seal of a region's words: CRC-32C over every word but the last. -/
def sealValue (ws : List Nat) : Nat := crc32c (ofWords ws.dropLast)

/-- R420, R423: whether a counter bit reads 1: either cell of its pair is strong. -/
def State.counterBit (s : State) (r : FuseReg) (i : Nat) : Bool :=
  bits (s.fuseWord r.die (r.first + i / 16)).strong (2 * (i % 16) + 1) (2 * (i % 16)) != 0

/-- The bits of a counter region. -/
def FuseReg.nbits (r : FuseReg) : Nat := r.len * 16

/-- R423: the value of a counter. -/
def State.counterValue (s : State) (r : FuseReg) : Nat := (List.range r.nbits).countP (s.counterBit r)

/-- R420: whether a region's decoded seal word matches its other words. -/
def sealOk (ws : List (Nat × Nat)) : Bool := (ws.getLastD (0, 3)).2 != 3 && (ws.getLastD (0, 3)).1 == sealValue (ws.map (·.1))

/-- R424: the state of a data region: 0 open, 1 locked, 2 locked-incomplete, 3 unusable. -/
def State.regionState (s : State) (r : FuseReg) : Nat :=
  if r.counter then 0
  else
    let ws := s.fuseWords r
    let wl := (s.lockOf r.k).reads 0
    let bad := ws.dropLast.any (fun w => w.2 == 3)
    let st := if wl && ((ws.getLastD (0, 3)).2 == 3 || (!bad && !sealOk ws)) then 2
              else if bad || (ws.getLastD (0, 3)).2 == 3 then 3
              else if wl then 1 else 0
    if r.mandatory && st == 0 then 2 else st

/-- The number of a region's marginal cells (R422, R423). -/
def State.margCells (s : State) (r : FuseReg) : Nat :=
  if r.counter then
    (List.range r.nbits).countP (fun i => bits (s.fuseWord r.die (r.first + i / 16)).marg (2 * (i % 16) + 1) (2 * (i % 16)) != 0)
  else ((List.range r.len).map (fun i => ones 39 (s.fuseWord r.die (r.first + i)).marg)).sum

/-! ### Sensing -/

/-- R426: the shadows of a region as its cells read now. -/
def State.shadowRegion (r : FuseReg) (s : State) : State :=
  if r.counter then
    forEach (List.range r.len) (fun i s =>
      let v := ((List.range 32).map (fun b => if decide (32 * i + b < r.nbits) && s.counterBit r (32 * i + b) then 2 ^ b else 0)).sum
      { s with fuse.shadow := AMap.set (r.die * 4096 + r.first + i) (0, 0) (v, 0) s.fuse.shadow }) s
  else
    forEach ((s.fuseWords r).zipIdx) (fun w s =>
      { s with fuse.shadow := AMap.set (r.die * 4096 + r.first + w.2) (0, 0) w.1 s.fuse.shadow }) s

/-- The word of a region that its consumers use: its shadow. -/
def State.fuseUse (s : State) (r : FuseReg) (i : Nat) : Nat := (AMap.get (r.die * 4096 + r.first + i) (0, 0) s.fuse.shadow).1

/-- The state of region `k` after sensing. -/
def State.region (s : State) (k : Nat) : RegionS := AMap.get k {} s.fuse.regions

/-- R260, R425: K_DU is usable: its region is locked and its read-lock is set. -/
def State.duk (s : State) : Bool := (s.region 2).state == 1 && (s.region 2).rlock

/-- R453, R425: UPDATE_LOCK is set, or treated as set. -/
def State.updateLock (s : State) : Bool :=
  2 ≤ (s.region 4).state || bit (AMap.get 0xB0 (0, 0) s.fuse.shadow).1 0

/-- R443, R425: the owner key hash, where its region is present, else the vendor's. -/
def State.keyHash (s : State) : List Byte :=
  let use (first : Nat) : List Byte := ofWords ((List.range 12).map (fun i => (AMap.get (first + i) (0, 0) s.fuse.shadow).1))
  if (s.region 3).state < 2 ∧ !((use 0xA0).all (· == 0)) then use 0xA0 else use 0x80

/-- R444: the anti-rollback count. -/
def State.arbCount (s : State) : Nat := match regionOf 5 with | some r => s.counterValue r | none => 0

/-- Updates shadows and state of a region from its cells (R424, R426). -/
def State.regionUpdate (r : FuseReg) (s : State) : State :=
  let s := s.shadowRegion r
  let l := s.lockOf r.k
  let x := s.region r.k
  let s := { s with fuse.regions := AMap.put r.k { x with state := s.regionState r, rlock := l.reads 1, wlock := l.reads 0 } s.fuse.regions }
  if r.code = 2 then s.cond Reg.PROT_STATUS F.PROT_STATUS_DUK_ABSENT (s.isManager && !s.duk) else s

/-- The operands of sensing and of pulses name a cell by 39 × word + cell, and a lock cell of region `k` of the table by 39 × 4096 + 4 × k
+ cell. -/
def lockCell : Nat := 39 * 4096

/-- Sets what a cell of a die is. -/
def State.setCell (die c : Nat) (v : Cell) (s : State) : State :=
  let f (b old : Nat) (on : Bool) : Nat := setBits old b b (b2n on)
  if lockCell ≤ c then
    let k := (c - lockCell) / 4
    let b := (c - lockCell) % 4
    if (dieRegions die).any (fun r => r.k == k) then
      let l := s.lockOf k
      { s with fuse.locks := AMap.set k {} ⟨f b l.strong (v == .strong), f b l.marg (v == .marginal)⟩ s.fuse.locks }
    else s
  else if (dieRegions die).any (fun r => decide (r.first ≤ c / 39) && decide (c / 39 < r.first + r.len)) then
    let w := s.fuseWord die (c / 39)
    { s with fuse.cells := AMap.set (die * 4096 + c / 39) {} ⟨f (c % 39) w.strong (v == .strong), f (c % 39) w.marg (v == .marginal)⟩ s.fuse.cells }
  else s

/-- R422: the events of one sensed region: corrected words and marginal cells. -/
def State.senseRegion (r : FuseReg) (s : State) : State :=
  let corr := if r.counter then 0 else ((s.fuseWords r).filter (fun w => w.2 == 1 || w.2 == 2)).length
  let marg := s.margCells r
  let s := s.regionUpdate r
  let x := s.region r.k
  let s := { s with fuse.regions := AMap.put r.k { x with corr := min 255 corr, marg := min 255 marg } s.fuse.regions }
  let s := forEach (List.range corr) (fun _ s =>
    let s := ((s.raise Reg.FUSE_STATUS F.FUSE_STATUS_CORRECTED).bump (devSlot 118) 1).fault 17 0 []
    if r.code = 0 then s.raise Reg.IDENT_STATUS F.IDENT_STATUS_ID_CORR else s) s
  let s := forEach (List.range marg) (fun _ s => ((s.raise Reg.FUSE_STATUS F.FUSE_STATUS_MARGINAL).bump (devSlot 119) 1).fault 18 0 []) s
  if !r.mandatory && decide (2 ≤ (s.region r.k).state) then s.raise Reg.FUSE_STATUS F.FUSE_STATUS_UNUSABLE else s

/-- R425: the mandatory region of a die that fails, if one does: its code and its first failing word. -/
def State.fuseFail (s : State) (die : Nat) : Option (Nat × Nat) :=
  match (dieRegions die).find? (fun r => r.mandatory && decide (2 ≤ (s.region r.k).state)) with
  | none => none
  | some r => some (r.code, ((s.fuseWords r).findIdx? (fun w => w.2 == 3)).getD (r.len - 1))

/-! ### Spare entries (R419, R340) -/

/-- R338: whether crossing group `g` of tier `t` exists. -/
def groupExists (t g : Nat) : Bool := decide (g ≤ 5 * t) || (decide (32 ≤ g) && decide (g ≤ 35))

/-- The spare entries of a region's words: key 64 × group + spare, and the position. -/
def State.spareEntries (s : State) (r : FuseReg) : List (Nat × Nat) :=
  if 2 ≤ (s.region r.k).state then []
  else (List.range (r.len - 1)).filterMap (fun i =>
    let w := s.fuseUse r i
    if bit w 31 then some (bits w 29 24 * 64 + bits w 21 16, bits w 10 0) else none)

/-- An entry of the fuses assigns its spare; one that failed in the field before a warm start stays failed (R340). -/
def State.spareFuse (t : Nat) (was : AMap SpareS) (e : Nat × Nat) (s : State) : State :=
  s.modTier t (fun x => { x with spares := AMap.put e.1 { assigned := true, position := e.2, failed := (AMap.get e.1 {} was).failed } x.spares })

/-- R419: the owner entries apply in order; one whose spare or position an entry of `named` names already is ignored. -/
def State.ownerSpares (t : Nat) (was : AMap SpareS) : List (Nat × Nat) → List (Nat × Nat) → State → State
  | _, [], s => s
  | named, e :: l, s =>
    (if named.any (fun x => x.1 == e.1 || (x.1 / 64 == e.1 / 64 && x.2 == e.2)) then s.raise Reg.FUSE_STATUS F.FUSE_STATUS_SPARE_CONFLICT
     else s.spareFuse t was e).ownerSpares t was (e :: named) l

/-- R340, R419: the spares of a tier as its fuses assign them; field assignments stay. -/
def State.spareLoad (t : Nat) (s : State) : State :=
  match regionOf (0x1001 + 0x100 * t), regionOf (0x1002 + 0x100 * t) with
  | some rf, some ro =>
    let was := (s.tier t).spares
    let s := s.modTier t (fun x => { x with spares := x.spares.filter (fun e => e.2.field) })
    (forEach (s.spareEntries rf) (State.spareFuse t was) s).ownerSpares t was (s.spareEntries rf) (s.spareEntries ro)
  | _, _ => s

/-! ### The ledger's tallies (R412, R413) -/

/-- The warning flags follow the tallies. -/
def State.ledgerFlags (s : State) : State :=
  (s.cond Reg.THERM_STATUS F.THERM_STATUS_LEDGER_WARN ((List.range 4).any (fun t => decide (60 ≤ (s.tier t).tallies)))).cond Reg.THERM_STATUS
    F.THERM_STATUS_LEDGER_RETIRE ((List.range 4).any (fun t => decide (90 ≤ (s.tier t).tallies)))

/-- One more tally: a crossing of 60 or 90 raises the LEDGER notice. -/
def State.tallied (t : Nat) (s : State) : State :=
  let s := s.modTier t (fun x => { x with tallies := min 1024 (x.tallies + 1) })
  let n := (s.tier t).tallies
  let s := s.ledgerFlags
  if n = 60 then s.notice 0x0C 0 ([BitVec.ofNat 8 t] ++ leBytes 2 n)
  else if n = 90 then s.notice 0x0C 1 ([BitVec.ofNat 8 t] ++ leBytes 2 n)
  else s

/-! ### Programming -/

/-- R427, R499: whether a pulse takes its current from VPGM. -/
def State.vpgmOk (s : State) : Bool := decide (2400 ≤ s.fuse.vpgm) && decide (s.fuse.vpgm ≤ 2600)

/-- R427, R499: the device measures VPGM. -/
def State.vpgmRead (s : State) : State :=
  ({ s with fuse.mv := s.fuse.vpgm }).cond Reg.FUSE_STATUS F.FUSE_STATUS_VPGM_OK s.vpgmOk

/-- `FUSE.STATUS.PROG_BUSY`. VPGM is measured before the pulses begin. -/
def State.fuseBusy (s : State) : State :=
  let s := when ((match s.fuse.prog with | some p => p.started | none => false) || s.fuse.blowers.any (fun b => b.2.cur.isSome)) State.vpgmRead s
  s.cond Reg.FUSE_STATUS F.FUSE_STATUS_PROG_BUSY
    ((match s.fuse.prog with | some p => p.started && !p.todo.isEmpty | none => false) || s.fuse.blowers.any (fun b => b.2.cur.isSome))

/-- R403, R429: the device thermal stage. -/
def State.devStage (s : State) : Nat := (List.range 4).foldl (fun a t => max a (s.tier t).stage) 0

/-- The pulses that a WRITE of a word needs, or none against a strong cell (R428). -/
def State.writePulses (s : State) (die : Nat) (d : Die) (w data : Nat) : Option (List Pulse) :=
  let cw := fuseCodeword data
  let c := s.fuseWord die w
  if (List.range 39).any (fun i => bit c.strong i && !bit cw i) then none
  else some (((List.range 39).filter (fun i => bit cw i && !bit c.strong i)).map (fun i => { die := d, word := w, cell := 39 * w + i }))

/-- The pulses that blow a lock pair. -/
def State.lockPulses (s : State) (r : FuseReg) (d : Die) (pair : Nat) : List Pulse :=
  ((List.range 2).filter (fun i => !bit (s.lockOf r.k).strong (2 * pair + i))).map (fun i =>
    { die := d, word := 0, cell := lockCell + 4 * r.k + 2 * pair + i })

/-- The die with a number. -/
def dieOf (n : Nat) : Die :=
  if n = 0 then .base else if n ≤ 4 then .tier (Fin.ofNat 4 (n - 1)) else .mem (Fin.ofNat 16 (n - 5))

/-- R428, R429: what an entry pulses, or the code of the first row of R429 that stops it. -/
def State.fuseEntry (s : State) (op : Nat) (e : FuseEntry) : Except Nat (List Pulse) :=
  match regionOf e.region with
  | none => .error Code.badField
  | some r =>
    let ws := s.fuseWords r
    let d := dieOf r.die
    let w := if op = 2 then r.len - 1 else e.word
    let data := if op = 2 then sealValue (ws.map (·.1)) else e.data.toNat
    if op = 0 ∨ 4 < op ∨ r.len ≤ w ∨ e.zero = false then .error Code.badField
    else if (op = 1 ∨ op = 2) ∧ (s.writePulses r.die d (r.first + w) data).isNone then .error Code.badField
    else if op = 4 ∧ r.code ≠ 2 ∧ r.code ≠ 6 then .error Code.badField
    else if !r.program ∨ r.counter ∨ (s.regionState r = 2) ∨ (op ≠ 4 ∧ (s.lockOf r.k).reads 0) then .error Code.locked
    else if (op = 3 ∧ !(ws.all (fun x => x.2 != 3) && sealOk ws)) ∨ (op = 4 ∧ !(s.lockOf r.k).reads 0) then .error Code.condition
    else if 2 ≤ s.devStage ∨ s.fld Reg.PWR_STATUS F.PWR_STATUS_VIN_OK = 0 then .error Code.condition
    else if op = 3 then .ok (s.lockPulses r d 0)
    else if op = 4 then .ok (s.lockPulses r d 1)
    else match s.writePulses r.die d (r.first + w) data with
      | some l => .ok l
      | none => .error Code.badField

/-- Ends a fuse program with a code. -/
def State.progEnd (code : Nat) (p : ProgS) (s : State) : State :=
  let s := s.setReg Reg.FUSE_PROG (BitVec.ofNat 32 (min 65535 p.cells * 2 ^ 16 + p.idx % 65536))
  ({ s with fuse.prog := if p.owner then some { p with started := false, todo := [], result := some code } else none }).fuseBusy

/-- An entry has been worked through: the shadows and the state follow (R429), and the next entry, or the end, comes. -/
def State.progNext (p : ProgS) (s : State) : State :=
  let s := match (p.entries[p.idx]?).bind (fun e => regionOf e.2.region) with | some r => s.regionUpdate r | none => s
  let p := { p with idx := p.idx + 1, started := false, todo := [], tries := 0 }
  match p.entries[p.idx]? with
  | none => s.progEnd 0 { p with idx := p.idx - 1 }
  | some (op, e) =>
    let s := s.setReg Reg.FUSE_PROG (BitVec.ofNat 32 (min 65535 p.cells * 2 ^ 16 + p.idx % 65536))
    if op = 0 ∨ 4 < op then (match s.fuseEntry op e with | .error k => s.progEnd k p | .ok _ => s)
    else ({ s with fuse.prog := some p }).fuseBusy

/-- A program starts: its first entry waits, or ends the program where no command of R428 names it. -/
def State.progStart (entries : List (Nat × FuseEntry)) (owner : Bool) (s : State) : State :=
  let p : ProgS := { entries := entries, owner := owner }
  let s := s.setReg Reg.FUSE_PROG 0
  match entries.head? with
  | none => s.progEnd 0 p
  | some (op, e) =>
    if op = 0 ∨ 4 < op then (match s.fuseEntry op e with | .error k => s.progEnd k p | .ok _ => s)
    else { s with fuse.prog := some p }

/-- The entry that a program has reached starts (R428): its pulses, or its end. With no program running, the entry is an order of its own. -/
def State.fuseStart (op : Nat) (e : FuseEntry) (s : State) : State :=
  let s := if s.fuse.prog.isNone then s.progStart [(op, e)] false else s
  match s.fuse.prog with
  | none => s
  | some p =>
    if p.started || p.result.isSome || p.entries[p.idx]? != some (op, e) then s
    else match s.fuseEntry op e with
      | .error k => s.progEnd k p
      | .ok [] => s.progNext p
      | .ok l => ({ s with fuse.prog := some { p with started := true, todo := l, tries := 0, ext := s.vpgmOk && !e.pump } }).fuseBusy

/-! ### Counter bits (R412, R430) -/

/-- The counter region that a die's programmer serves: ARB of the base die, LEDGER of a tier. -/
def counterOf (die : Nat) : Option FuseReg :=
  if die = 0 then regionOf 5 else if die ≤ 4 then regionOf (0x1003 + 0x100 * (die - 1)) else none

/-- The next counter bit: the one above the highest that reads 1. -/
def State.nextBit (s : State) (r : FuseReg) : Nat :=
  match ((List.range r.nbits).filter (s.counterBit r)).getLast? with | some b => b + 1 | none => 0

/-- Whether a program is pulsing cells of a die. -/
def State.pulsing (s : State) (die : Nat) : Bool :=
  match s.fuse.prog with | some p => p.started && (match p.todo.head? with | some x => x.die.ix == die | none => false) | none => false

/-- Starts the next counter bit of a die, where one is wanted and none is at work. -/
def State.blowStart (die : Nat) (s : State) : State :=
  let b := AMap.get die ({} : BlowerS) s.fuse.blowers
  match counterOf die with
  | none => s
  | some r =>
    if b.cur.isSome || b.want = 0 then s
    else
      let i := s.nextBit r
      if r.nbits ≤ i then { s with fuse.blowers := AMap.del die s.fuse.blowers }
      else ({ s with fuse.blowers := AMap.put die { b with cur := some { bit := i } } s.fuse.blowers }).fuseBusy

/-- R412, R430: `n` more counter bits of a die fall due. -/
def State.blowWant (die n : Nat) (s : State) : State :=
  if n = 0 then s
  else
    let b := AMap.get die ({} : BlowerS) s.fuse.blowers
    let s := { s with fuse.blowers := AMap.put die { b with want := b.want + n } s.fuse.blowers }
    if s.pulsing die then s else s.blowStart die

/-- The time of a pulse and its verify (R427), in µs. -/
def pulseTime (ext : Bool) : Nat := if ext then 12 else 52

/-- A cell of a counter bit has passed or failed verify: its second cell follows, or the bit is judged. -/
def State.blowCell (die : Nat) (r : FuseReg) (b : BlowerS) (c : BlowS) (pass : Bool) (s : State) : State :=
  let c := { c with passed := c.passed || pass, tries := 0 }
  if !c.second then { s with fuse.blowers := AMap.put die { b with cur := some { c with second := true } } s.fuse.blowers }
  else
    let s := s.regionUpdate r
    if c.passed then
      let s := { s with fuse.blowers := AMap.set die {} { want := b.want - 1, cur := none } s.fuse.blowers }
      let s := if die = 0 then s.bump (devSlot 139) 1 else s.tallied (die - 1)
      (s.blowStart die).fuseBusy
    else
      let s := if die = 0 then (s.raise Reg.FUSE_STATUS F.FUSE_STATUS_VERIFY_FAIL).fault 19 0 []
               else (s.raise Reg.THERM_STATUS F.THERM_STATUS_TALLY_FAIL).fault 16 0 []
      let i := c.bit + 1
      if r.nbits ≤ i then ({ s with fuse.blowers := AMap.del die s.fuse.blowers }).fuseBusy
      else { s with fuse.blowers := AMap.put die { b with cur := some { bit := i } } s.fuse.blowers }

/-- R427: a pulse of a counter bit's cell has ended and was verified. -/
def State.blowPulse (die : Nat) (strong : Bool) (b : BlowerS) (c : BlowS) (s : State) : State :=
  match counterOf die with
  | none => s
  | some r =>
    let cell := 39 * (r.first + c.bit / 16) + 2 * (c.bit % 16) + b2n c.second
    let s := s.bump (devSlot 122) (pulseTime (die == 0 && s.vpgmOk))
    if strong then ((s.setCell die cell .strong).bump (devSlot 120) 1).blowCell die r b c true
    else if c.tries + 1 < Config.PULSE_MAX then { s with fuse.blowers := AMap.put die { b with cur := some { c with tries := c.tries + 1 } } s.fuse.blowers }
    else (s.bump (devSlot 121) 1).blowCell die r b c false

/-- R427, R429: a pulse of the program's cell has ended and was verified. -/
def State.progPulse (strong : Bool) (p : ProgS) (s : State) : State :=
  match p.todo with
  | [] => s
  | x :: rest =>
    let s := s.bump (devSlot 122) (pulseTime p.ext)
    let pump := match p.entries[p.idx]? with | some e => e.2.pump | none => false
    let src (p : ProgS) : ProgS := { p with ext := s.vpgmOk && !pump }
    if strong then
      let s := (s.setCell x.die.ix x.cell .strong).bump (devSlot 120) 1
      let p := src { p with todo := rest, tries := 0, cells := p.cells + 1 }
      let s := if rest.isEmpty then s.progNext p else ({ s with fuse.prog := some p }).setReg Reg.FUSE_PROG
        (BitVec.ofNat 32 (min 65535 p.cells * 2 ^ 16 + p.idx % 65536))
      s.blowStart x.die.ix
    else if p.tries + 1 < Config.PULSE_MAX then { s with fuse.prog := some (src { p with tries := p.tries + 1 }) }
    else
      let s := ((s.bump (devSlot 121) 1).raise Reg.FUSE_STATUS F.FUSE_STATUS_VERIFY_FAIL).fault 19 0 []
      let s := match (p.entries[p.idx]?).bind (fun e => regionOf e.2.region) with | some r => s.regionUpdate r | none => s
      (s.progEnd Code.condition p).blowStart x.die.ix

/-- FUSE_PULSE_DONE: the pulse of the die's programmer has ended. -/
def State.pulseDone (die : Nat) (strong : Bool) (s : State) : State :=
  let b := AMap.get die ({} : BlowerS) s.fuse.blowers
  match b.cur with
  | some c => s.blowPulse die strong b c
  | none =>
    if s.pulsing die then (match s.fuse.prog with | some p => s.progPulse strong p | none => s) else s

end Sys2Proof.Machine
end

