-- ==== Sys2Proof/Machine/Ecc.lean ====
section
/-! DEFINITION. Repair: the positions of the crossing groups (R338, R339, R503), suspects, steers and windthrow (R332, R340 to R344),
half width and retirement (R345 to R347), Ranger (R328 to R331), the bucket's leak (R326), command parity (R317) and the entropy
sources (R315). -/

namespace Sys2Proof.Machine

/-! ### Positions -/

/-- What a position of a crossing group carries (R339, R503). -/
inductive PosKind where
  | data (pc : Nat) | cmd (chan : Nat) | ctl | unused
  deriving DecidableEq, Repr

/-- R503: the kind of position `x` of group `g` of tier `t`. -/
def posKind (t g x : Nat) : PosKind :=
  if g < 32 then (if x < 1984 then .data (16 * t + x / 124) else .ctl)
  else
    let d := x / 512
    let q := x % 512 / 128
    let k := x % 128
    let pc := 16 * t + 4 * d + q
    if d < g - 32 then .unused
    else if k < 36 then .data pc
    else if k ≤ 58 then .cmd (pc / 2)
    else if 64 ≤ k ∧ k ≤ 71 ∧ q % 2 = 0 then .cmd (pc / 2)
    else .unused

/-- R338: the boundary of a group. -/
def groupBoundary (t g : Nat) : Nat := if g < 32 then g + 1 else 2 + 5 * t + (g - 32)

/-- The AT field of the log entries of a position (R334): its pin, or 0xFF. -/
def posPin (g x : Nat) : Nat := if 32 ≤ g ∧ x % 128 < 36 then x % 128 else 255

/-- The channels that a position concerns. -/
def posChans (t g x : Nat) : List Nat :=
  match posKind t g x with
  | .data pc => [pc / 2]
  | .cmd n => [n]
  | .ctl => (List.range 8).map (8 * t + ·)
  | .unused => []

/-- A place for a position whose failure no line triggered: the first of its pseudo-channel; and no symbols in error. -/
def posPlace (t g x : Nat) : Place × Nat :=
  ({ pc := (match posKind t g x with | .data pc => pc | .cmd n => 2 * n | _ => 16 * t), bg := 0, bk := 0, row := 0, col := 0 }, 0)

/-- R341: the lowest free spare of a group that no waiting steer has taken. -/
def State.freeSpare (s : State) (t g : Nat) : Option Nat :=
  let x := s.tier t
  (List.range Config.GROUP_SPARES).find? (fun i =>
    let sp := AMap.get (g * 64 + i) ({} : SpareS) x.spares
    !sp.assigned && !sp.failed && !(x.toSteer.any (fun e => e.1 == g && e.2.1 == i)))

/-- R334, R474: the entries of kind 4 SUSPECT, 5 STEER or 6 WINDTHROW in the error log of the channels concerned and in the blaze log; `at_` is
the place of the triggering line and the symbols in error at its last decode. -/
def State.crossingLog (kind t g x : Nat) (chans : List Nat) (at_ : Place × Nat) (s : State) : State :=
  let s := forEach chans (fun n s => s.elog n { at_.1 with pc := if at_.1.chan = n then at_.1.pc else 2 * n } kind at_.2 (posPin g x) none) s
  (s.blazeAt 255 255 0 0 0x0008 0 (leBytes 1 kind ++ leBytes 1 t ++ leBytes 1 g ++ leBytes 1 (groupBoundary t g) ++ leBytes 2 x)).1

/-! ### Retirement and half width (R343 to R347) -/

/-- The accesses of a channel that have not issued. -/
def State.chanQueued (s : State) (n : Nat) : List Acc :=
  (s.stack.pcs.filter (fun k => k.1 / 2 == n)).flatMap (fun k => k.2.banks.flatMap (fun b => b.2.queue)) ++ (s.chan n).admission ++
    ((s.tier (n / 8)).buffer.filter (fun a => a.place.chan == n))

/-- Takes the accesses that have not issued and that `keep` does not keep out of a channel. -/
def State.chanFilter (n : Nat) (keep : Acc → Bool) (s : State) : State :=
  let clr (k : Nat) (s : State) : State := s.modPc k (fun x =>
    { x with banks := AMap.mapVal (fun b => { b with queue := b.queue.filter keep }) x.banks })
  ((clr (2 * n) (clr (2 * n + 1) s)).modChan n (fun c => { c with admission := c.admission.filter keep })).modTier (n / 8) (fun t =>
    { t with buffer := t.buffer.filter (fun a => a.place.chan != n || keep a) })

/-- Takes every access that has not issued, and what its banks owe, out of a channel that is powered down (R347). -/
def State.chanEmpty (n : Nat) (s : State) : State :=
  let clr (k : Nat) (s : State) : State := s.modPc k (fun x => { x with banks := [] })
  clr (2 * n) (clr (2 * n + 1) ((s.chanFilter n (fun _ => false)).modChan n (fun c => { c with visit := none })))

/-- The WINDTHROW event of a channel whose state has changed: 0 half width, 1 retired. -/
def State.throwEvent (n kind : Nat) (s : State) : State :=
  let pl := [BitVec.ofNat 8 (n / 8), BitVec.ofNat 8 (n % 8), BitVec.ofNat 8 kind]
  (s.notice 0x09 2 pl).fault (45 + 4 * (n / 8)) n pl

/-- A windthrow of tier `t` enters the windthrow fault source of channel `n`: 0 half width or no change, 1 retired (R344). -/
def State.throwFault (n kind : Nat) (s : State) : State :=
  s.fault (45 + 4 * (n / 8)) n [BitVec.ofNat 8 (n / 8), BitVec.ofNat 8 (n % 8), BitVec.ofNat 8 kind]

/-- R344: the records of a windthrow of a position at the channels concerned: an entry in the error log of each, one in the blaze log, the flag
and the counter. -/
def State.throwRecord (t g x : Nat) (ns : List Nat) (at_ : Place × Nat) (s : State) : State :=
  let s := s.crossingLog 6 t g x ns at_
  let s := forEach ns (fun n s => (s.raise (Reg.CH_ECC_STATUS n) F.CH_ECC_STATUS_WINDTHROW).bump (chSlot n 21) 1) s
  s.modTier t (fun y => { y with thrown := AMap.put g true y.thrown })

/-- R344, R346: the windthrow that has a channel switch to half width is recorded, where the channel is retired before the switch ends. -/
def State.throwPending (n : Nat) (s : State) : State :=
  match (s.chan n).halfFrom with
  | some (g, x, at_) => (s.throwRecord (n / 8) g x [n] at_).throwFault n 0
  | none => s

/-- R347: a channel is retired. -/
def State.retireChan (n : Nat) (s : State) : State :=
  if (s.chan n).retired then s
  else
    let s := s.throwPending n
    let q := s.chanQueued n
    let s := (s.chanEmpty n).modTier (n / 8) (fun t => { t with held := t.held.filter (fun a => a.place.chan != n) })
    let s := s.unsat n
    let s := (s.modChan n (fun c => { c with retired := true, pstate := .retired, switchAt := none, toHalf := none, halfFrom := none, levels := [0, 0, 0, 0],
                                             pasrInit := none })).chFlags n
    (forEach q State.retiredRead s).relocate.poolFlags.retryWaits

/-- R344: a windthrow of a position that changes the state of no channel: recorded and counted. -/
def State.throwOnly (t g x n : Nat) (at_ : Place × Nat) (s : State) : State :=
  ((s.throwRecord t g x [n] at_).modTier t (fun y => { y with failedPos := AMap.put (g * 2048 + x) true y.failedPos })).throwFault n 0

/-- R343: a position without a free spare. -/
def State.windthrow (t g x : Nat) (at_ : Place × Nat) (s : State) : State :=
  match posKind t g x with
  | .unused => s
  | .cmd n => if (s.chan n).retired then s.throwOnly t g x n at_ else ((s.throwRecord t g x [n] at_).retireChan n).throwEvent n 1
  | .ctl =>
    let live := ((List.range 8).map (8 * t + ·)).filter (fun n => !(s.chan n).retired)
    let s := forEach live State.retireChan (s.throwRecord t g x live at_)
    let s := s.modTier t (fun y => { y with excluded := true })
    forEach live (fun n s => s.throwEvent n 1) s
  | .data pc =>
    let n := pc / 2
    let c := s.chan n
    if c.retired then s.throwOnly t g x n at_
    else match (match c.half with | some b => some b | none => c.toHalf) with
      | none =>
        let s := s.modChan n (fun c => { c with switchAt := some s.now, toHalf := some (pc % 2 == 0), halfFrom := some (g, x, at_) })
        s.modTier t (fun y => { y with failedPos := AMap.put (g * 2048 + x) true y.failedPos })
      | some up =>
        if up == (pc % 2 == 1) then ((s.throwRecord t g x [n] at_).retireChan n).throwEvent n 1 else s.throwOnly t g x n at_

/-- R346: the switch of a channel to half width ends; R344 and R345 take effect. A firm request that waits across the switch is flagged and
counted. DESIGN CHOICE: R482 names no counter for it; it enters that of the calibration stalls, whose window also retrains pins. -/
def State.halfResume (n : Nat) (s : State) : State :=
  let c := s.chan n
  match c.switchAt, c.toHalf with
  | some _, some b =>
    let t := n / 8
    let s := forEach ((s.chanAccs n).filter (fun a => a.firm)) State.stall s
    let s := (s.modChan n (fun c => { c with half := some b, toHalf := none, halfFrom := none, switchAt := none })).chFlags n
    let s := match c.halfFrom with
      | some (g, x, at_) => s.throwRecord t g x [n] at_
      | none => s
    (s.throwEvent n 0).relocate.poolFlags
  | _, _ => s

/-! ### Suspects and steers (R332, R340 to R342) -/

/-- R342, R343: a position has failed its test, or has no passing window: a free spare is taken for the next quiet window, or it is
windthrown. A spare that served it has failed with it. -/
def State.failPosition (t g x : Nat) (at_ : Place × Nat) (s : State) : State :=
  if posKind t g x = .unused ∨ groupExists t g = false then s
  else
    let s := s.modTier t (fun y => { y with
      spares := y.spares.map (fun e => if e.1 / 64 == g && e.2.assigned && !e.2.failed && e.2.position == x then (e.1, { e.2 with failed := true }) else e) })
    if (s.tier t).toSteer.any (fun e => e.1 == g && e.2.2.1 == x) then s
    else match s.freeSpare t g with
      | some i => s.modTier t (fun y => { y with toSteer := y.toSteer ++ [(g, i, x, at_)], failedPos := AMap.put (g * 2048 + x) true y.failedPos })
      | none => s.windthrow t g x at_

/-- R342: at the quiet window the waiting steers of a tier switch in. -/
def State.steerIn (t : Nat) (s : State) : State :=
  let l := (s.tier t).toSteer
  forEach l (fun e s =>
    let g := e.1
    let x := e.2.2.1
    let ch := posChans t g x
    let s := s.modTier t (fun y => { y with toSteer := y.toSteer.filter (· != e), failedPos := AMap.del (g * 2048 + x) y.failedPos,
                                            spares := AMap.put (g * 64 + e.2.1) { assigned := true, field := true, position := x } y.spares })
    let s := s.crossingLog 5 t g x ch e.2.2.2
    let s := forEach ch (fun n s => (s.raise (Reg.CH_ECC_STATUS n) F.CH_ECC_STATUS_STEERED).bump (chSlot n 20) 1) s
    s.fault (44 + 4 * t) (ch.headD (8 * t)) []) s

/-- R332: the test of a suspect position has ended. -/
def State.pinTested (t g x pc : Nat) (pass : Bool) (s : State) : State :=
  let n := pc / 2
  let at_ := ((s.pc pc).lastHit).getD (posPlace t g x)
  let s := (s.crossingLog 4 t g x [n] at_).raise (Reg.CH_ECC_STATUS n) F.CH_ECC_STATUS_PIN_SUSPECT
  let s := s.modPc pc (fun k => { k with hits := [], suspect := [] })
  if pass then s.bump (chSlot n 18) 1 else (s.bump (chSlot n 19) 1).failPosition t g x at_

/-- PIN_TEST_DONE: the test that a suspect pin of a pseudo-channel has started ends for a data or code position of its route (R332). -/
def State.pinTest (t g x pc : Nat) (pass : Bool) (s : State) : State :=
  if groupExists t g && !(s.pc pc).suspect.isEmpty && decide (posKind t g x = .data pc) then s.pinTested t g x pc pass else s

/-! ### Interface training (R318 to R320) -/

/-- Elements of items 8 and 10 of R438: a crossing position is (64 × tier + group) × 2,048 + position, and a delay cell of item 8 is
2^24 + ((64 × tier + group) × 128 + bit-group) × 16 + cell. -/
def State.failElement (e : Nat) (s : State) : State :=
  if 2 ^ 24 ≤ e then
    let k := e - 2 ^ 24
    let t := k / (64 * 2048)
    if t < 4 then (s.modTier t (fun x => { x with failCells := AMap.put (k % (64 * 2048)) true x.failCells })).bump (tierSlot t 20) 1 else s
  else
    let t := e / (64 * 2048)
    let g := e / 2048 % 64
    if t < 4 then s.failPosition t g (e % 2048) (posPlace t g (e % 2048)) else s

/-- The pin items that a training found for pseudo-channel `k`. -/
def pinsOf (k : Nat) (l : List (Nat × Word × Word)) : AMap (Word × Word) :=
  (List.range 36).filterMap (fun i => (l.find? (fun e => e.1 == k * 64 + i)).map (fun e => (i, e.2)))

/-- The least margin over the pins, in ps, from the two edges at bits `lo` and `lo` + 8 of their items (R318, R324). DESIGN CHOICE: a training may
leave out the item of a pin; such a pin passes, with a margin that is not the least. -/
def leastMargin (pins : AMap (Word × Word)) (lo : Nat) : Nat :=
  pins.foldl (fun m e => let w := e.2.1.toNat; min m (min (bits w (lo + 7) lo) (bits w (lo + 15) (lo + 8)))) 255

/-- Whether a pin's item says that it has no passing window (R319, R324). -/
def pinFails (e : Nat × Word × Word) : Bool := bit e.2.2.toNat 8

/-- The position of pin `i` of pseudo-channel `k` at its own memory die, as an element of item 10 (R338, R503). -/
def pinElement (k i : Nat) : Nat := (64 * (k / 16) + 32 + k % 16 / 4) * 2048 + 512 * (k % 16 / 4) + 128 * (k % 4) + i

/-- Whether element `e` of item 10 is a position of pin `i` of pseudo-channel `k`, at whatever boundary. -/
def namesPin (k i e : Nat) : Bool :=
  let g := e / 2048 % 64
  decide (e < 2 ^ 24) && decide (posKind (e / (64 * 2048)) g (e % 2048) = .data k) && (posPin g (e % 2048) == i || posPin g (e % 2048) == 255)

/-- R319: the pins of some pseudo-channels whose items say FAIL and that no failing position stands for. DESIGN CHOICE: such a pin is handed to the
spares of its own die's boundary; the manual does not say at which of its boundaries a pin that the item alone names has failed. -/
def State.unnamed (s : State) (pcs : List Nat) (o : TrainObs) : List Nat :=
  (pcs.filter (fun k => !(s.chan (k / 2)).retired)).flatMap (fun k =>
    ((pinsOf k o.pins).filter (fun e => pinFails e && !(o.failing.any (namesPin k e.1)))).map (fun e => pinElement k e.1))

/-- `TIERt.CHc.TRAIN` of a trained pseudo-channel (R321). -/
def trainWord (ca : Nat) (pins : AMap (Word × Word)) : Word :=
  BitVec.ofNat 32 (2 ^ 31 + b2n (pins.any pinFails) * 2 ^ 30 + leastMargin pins 16 * 2 ^ 16 + leastMargin pins 0 * 2 ^ 8 + ca % 256)

/-- Pseudo-channel `k` holds new pin settings, and a low margin is flagged (R319). -/
def State.trainPc (k ca : Nat) (pins : AMap (Word × Word)) (s : State) : State :=
  let s := s.modChan (k / 2) (fun c => { c with train := c.train.set (k % 2) { word := trainWord ca pins, pins := pins } })
  if leastMargin pins 16 < Config.MIN_MARGIN ∨ leastMargin pins 0 < Config.MIN_MARGIN then
    (s.raise (Reg.CH_STATUS (k / 2)) F.CH_STATUS_TRAIN_LOW).bump (chSlot (k / 2) 36) 1
  else s

/-- R318: the training of some pseudo-channels; pins with no passing window go to the crossing spares (R319). -/
def State.trained (pcs : List Nat) (o : TrainObs) (s : State) : State :=
  let s := forEach pcs (fun k s => s.trainPc k (((o.ca.find? (fun e => e.1 == k)).map (·.2)).getD 0) (pinsOf k o.pins)) s
  forEach (o.failing ++ s.unnamed pcs o) State.failElement s

/-- The pin items of pseudo-channel `k` after a re-measurement: those that it names are new (R320). -/
def State.remeasured (s : State) (k : Nat) (o : TrainObs) : AMap (Word × Word) :=
  (pinsOf k o.pins).foldl (fun m e => AMap.put e.1 e.2 m) ((s.chan (k / 2)).train.getD (k % 2) {}).pins

/-- The re-measured pin settings of pseudo-channel `k` take effect; its command and address margin stands (R320). -/
def State.retune (k : Nat) (pins : AMap (Word × Word)) (s : State) : State :=
  s.trainPc k (bits ((s.chan (k / 2)).train.getD (k % 2) {}).word.toNat 7 0) pins

/-- The failing elements of a re-measurement that lie on tier `t`. -/
def failingOn (o : TrainObs) (t : Nat) : List Nat := o.failing.filter (fun e => decide (e < 2 ^ 24) && e / (64 * 2048) == t)

/-! ### Ranger (R328 to R331) -/

/-- R328: whether a place is skipped: its user line lives in the pool, or its bank is the source of a steer. -/
def State.rangerSkips (s : State) (p : Place) : Bool :=
  !p.inPool && ((s.steerOf p).isSome || (match s.mapLine (homeLine p) with | some q => q.inPool | none => false))

/-- Whether Ranger visits the places of a channel now (R330, R457). -/
def State.rangerRuns (s : State) (n : Nat) : Bool :=
  let c := s.chan n
  s.running && s.fld (Reg.CMN_RANGER_CTL (n / 8)) F.CMN_RANGER_CTL_EN == 1 && !c.retired && c.pstate == .active && c.pasrInit.isNone &&
  c.switchAt.isNone && c.visit.isNone &&
  decide (s.throttle (n / 8) < 3) && decide (s.power.pstate < 2) && s.power.entry == .none && !(s.tier (n / 8)).hbLost && !(s.tier (n / 8)).released

/-- Passes over the places that are skipped. -/
def State.rangerSkip (n : Nat) : Nat → State → State
  | 0, s => s
  | fuel + 1, s => if s.rangerSkips (Place.ofRanger n (s.chan n).rangerPos) then (s.rangerNext n).rangerSkip n fuel else s

/-- RANGER_VISIT: Ranger turns to the next place: one entry of its bank's queue, of the ordinary rank and of no class, which will meet `errors` in
its read and `verify` in its verify read (R293, R329, R330). -/
def State.rangerVisit (n : Nat) (errors verify : List (Nat × Byte)) (s : State) : State :=
  if !s.rangerRuns n then s
  else
    let s := s.rangerSkip n rangerPlaces
    ((s.bump (chSlot n 10) 1).modChan n (fun c => { c with visit := some (errors, verify) })).newAcc (Place.ofRanger n (s.chan n).rangerPos) none 15
      false .ranger s.now

/-- RANGER_LATE: RANGER_PERIOD has passed and the pass has not ended. -/
def State.rangerLate (n : Nat) (s : State) : State :=
  if (s.chan n).retired ∨ s.fld (Reg.CMN_RANGER_CTL (n / 8)) F.CMN_RANGER_CTL_EN = 0 then s
  else if s.fld (Reg.CH_ECC_STATUS n) F.CH_ECC_STATUS_RANGER_LATE = 1 then s
  else (s.cond (Reg.CH_ECC_STATUS n) F.CH_ECC_STATUS_RANGER_LATE true).bump (chSlot n 12) 1

/-- R326: every bucket above zero leaks one. -/
def State.ceLeak (s : State) : State :=
  { s with stack.chans := AMap.mapVal (fun c => { c with level := c.level - 1 }) s.stack.chans }

/-! ### Command parity (R317) -/

/-- R316: a command that the die dropped has had no effect: a write's place holds what it held. -/
def State.dropped (c : Issued) (s : State) : State :=
  match c with
  | .col a (some (d, md)) => if a.wr = some (s.lineData a.place, s.lineMd a.place) then s.setLine a.place d md else s
  | _ => s

/-- R317: a dropped command is reissued: an access goes back to the front of its bank queue, a refresh operation follows the precharge.
DEDUCED: an activate is reissued by the entry that needs it, and the precharge of every bank stands for a precharge. On a channel that is retired
meanwhile a read draws ERR RETIRED, and nothing is reissued (R347). -/
def State.reissue (k : Nat) (c : Issued) (s : State) : State :=
  let gone := (s.chan (k / 2)).retired
  match c with
  | .row => s
  | .ref pos => if gone then s else s.refOp k pos Config.tRFCpb s.now
  | .nref pos => if gone then s else s.refOp k pos Config.tNR s.now
  | .col a _ =>
    if gone then (if a.wr.isSome then s else ({ s with stack.bursts := AMap.del a.id s.stack.bursts }).retiredRead a)
    else ({ s with stack.bursts := AMap.del a.id s.stack.bursts }).modBank k a.place.pos (fun b => { b with queue := a :: b.queue })

/-- R317, step 4: the access of the failing command is completed: a read draws ERR PARITY, all else is reissued; where the alert has taken
the device down, a write is lost. -/
def State.completeFailing (k : Nat) (c : Issued) (s : State) : State :=
  match c with
  | .col a none =>
    if (AMap.find a.id s.stack.bursts).isSome then ({ s with stack.bursts := AMap.del a.id s.stack.bursts }).parityRead a else s
  | .col a (some _) => if s.awake then s.reissue k (.col a none) else s
  | c => s.reissue k c

/-- R317: an alert of a pseudo-channel for the command before its `later` newest: its banks precharge, each once R292 allows it, the later
commands are reissued, oldest first, and the access of the failing command is completed; the test of its command, address and clock positions
(R332) found `failing`, or none of them. -/
def State.parityAlert (k g : Nat) (failing : Option Nat) (later : Nat) (s : State) : State :=
  let n := k / 2
  let t := k / 16
  let x := s.pc k
  let pl := [BitVec.ofNat 8 t, BitVec.ofNat 8 (n % 8), BitVec.ofNat 8 g]
  let s := ((s.raise (Reg.CH_STATUS n) F.CH_STATUS_PARITY).bump (chSlot n 6) 1).notice 0x08 1 pl
  let lost := (x.issued.take (later + 1)).map (fun e => e.2)
  let s := forEach lost State.dropped s
  let s := s.modPc k (fun k => { k with issued := [], banks := AMap.mapVal (fun b => { b with row := none, actOk := max b.actOk (b.closed s.now) }) k.banks })
  let s := match failing.filter (fun y => decide (posKind t g y = .cmd n)) with
    | some y => s.pinTested t g y k false
    | none => (s.raise (Reg.CH_ECC_STATUS n) F.CH_ECC_STATUS_PIN_SUSPECT).bump (chSlot n 18) 1 |>.crossingLog 4 t g 2047 [n] ({ pc := k, bg := 0, bk := 0, row := 0, col := 0 }, 0)
  let s := forEach (lost.take later) (State.reissue k) s
  let s := s.fault (58 + 5 * t) n pl
  match lost[later]? with
  | some c => s.completeFailing k c
  | none => s

/-! ### Entropy sources (R315) -/

/-- R315: a source fails a health test: adaptive proportion or repetition count. -/
def State.entropyFail (t : Nat) (apt : Bool) (s : State) : State :=
  let s := s.modTier t (fun x => if apt then { x with apt := true } else { x with rct := true })
  let s := s.raise (Reg.CMN_STATUS t) (if apt then F.CMN_STATUS_APT_FAIL else F.CMN_STATUS_RCT_FAIL)
  let s := s.bump (tierSlot t (if apt then 11 else 10)) 1
  let pl := [BitVec.ofNat 8 t, BitVec.ofNat 8 (b2n apt)]
  ((s.reseed t).notice 0x1A 2 pl).fault (88 + t) t pl

/-- R315: the start-up tests of a failed source have run again; the tier returns to it once they pass. -/
def State.entropyRetest (t : Nat) (pass : Bool) (s : State) : State :=
  if s.sourceOk t ∨ pass = false then s else (s.modTier t (fun x => { x with rct := false, apt := false })).reseed t

end Sys2Proof.Machine
end

