-- ==== Sys2Proof/Machine/Clock.lean ====
section
/-! DEFINITION. Clocks and crossings (R354 to R371): loss of the reference, calibration runs (R362 to R366), the loss of a tier's
heartbeat and its return (R367 to R371). -/

namespace Sys2Proof.Machine

/-! ### The reference (R357, R358) -/

/-- The PLL's lock and the clock of CK_TICK as condition flags. -/
def State.pllFlags (s : State) : State :=
  (s.cond Reg.CLK_STATUS F.CLK_STATUS_PLL_LOCK s.power.pll).cond Reg.CLK_STATUS F.CLK_STATUS_TICK_LOSC (!s.power.pll)

/-- R357: a REFCLK fault (source 0) or a loss of lock (source 1). -/
def State.clockFault (src : Nat) (s : State) : State :=
  (({ s with power.pll := false }.pllFlags).raise Reg.CLK_STATUS F.CLK_STATUS_REFCLK_FAULT).fault src 0 []

/-- R357: whether a window's edge count is a REFCLK fault. -/
def badWindow (edges : Nat) : Bool := decide (edges < 80) || decide (120 < edges)

/-! ### The calibration temperature (R362) -/

/-- Readings of the working sensors among some indices. -/
def State.working (s : State) (l : List Nat) : List (Int × Nat) :=
  l.filterMap (fun i => let x := s.sensor i; if x.broken || !x.seen then none else some (x.reading, i))

/-- The hottest of some readings. -/
def hottest : List (Int × Nat) → Option (Int × Nat)
  | [] => none
  | a :: r => some (r.foldl (fun (b : Int × Nat) (x : Int × Nat) => if b.1 < x.1 then x else b) a)

/-- R362: the calibration temperature of tier `t`. -/
def State.calTemp (s : State) (t : Nat) : Option Int :=
  (hottest (s.working (List.range 6 ++ (List.range (8 * (t + 1))).map (8 + ·)))).map (·.1)

/-! ### Runs (R362 to R366) -/

/-- The census counter of a run by its cause. -/
def CalCause.slot : CalCause → Nat
  | .start => 12 | .temperature => 13 | .margin => 14 | .command => 15

/-- R364: whether a tier runs no calibration: in SLEEP or DEEP, or cut off. -/
def State.calAsleep (s : State) (t : Nat) : Bool := 2 ≤ s.power.pstate || (s.tier t).hbLost

/-- Starts the measurement of a run. -/
def State.calBegin (t : Nat) (c : CalCause) (s : State) : State :=
  let ref := (s.calTemp t).getD (s.tier t).cal.refTemp
  (s.modTier t (fun x => { x with cal := { x.cal with running := some c, measured := false, pending := none, startAt := some s.now, newRef := ref,
                                                      newMargins := [] } })).bump (tierSlot t c.slot) 1

/-- R364: whether CAL_GAP has passed since the last start of a run. -/
def State.calGapOver (s : State) (t : Nat) : Bool :=
  match (s.tier t).cal.startAt with | none => true | some a => decide (a + Config.CAL_GAP ≤ s.now)

/-- R362, R364: a trigger of a run. -/
def State.calTrigger (t : Nat) (c : CalCause) (s : State) : State :=
  let x := (s.tier t).cal
  if s.calAsleep t then s
  else if x.running.isSome then
    (if c = .command ∨ c = .start then s.modTier t (fun x => { x with cal := { x.cal with pending := some c } }) else s)
  else if s.calGapOver t then s.calBegin t c
  else if x.pending = some .command then s
  else s.modTier t (fun x => { x with cal := { x.cal with pending := some c } })

/-- CAL_GAP_EXPIRY: the pending run of a tier starts. -/
def State.calGap (t : Nat) (s : State) : State :=
  let x := (s.tier t).cal
  match x.pending with
  | some c => if x.running.isNone && !s.calAsleep t then s.calBegin t c else s
  | none => s

/-- `CLK.CAL_CTL.AUTO`. -/
def State.calAuto (s : State) : Bool := s.fld Reg.CLK_CAL_CTL F.CLK_CAL_CTL_AUTO == 1

/-- R362: judges the temperature rule of every tier. -/
def State.calJudge (s : State) : State :=
  forEach (List.range 4) (fun t s =>
    match s.calTemp t with
    | none => s
    | some a =>
      let x := (s.tier t).cal
      if s.running && s.calAuto && x.running.isNone && x.pending.isNone &&
        decide (10 * s.fld Reg.CLK_CAL_CTL F.CLK_CAL_CTL_DELTA < (a - x.refTemp).natAbs) then s.calTrigger t .temperature else s) s

/-- A run that ends without a switch: nothing is applied (R364). -/
def CalS.stopped (x : CalS) : CalS := { x with running := none, measured := false, pending := none, newMargins := [], newTrain := [] }

/-- The bit-group of a measurement (R359). -/
def bitGroupOf (g : GroupMargin) : Nat := g.group * 128 + g.bitGroup % 128

/-- The delay cell of a measurement. -/
def cellOf (g : GroupMargin) : Nat := (bitGroupOf g) * 16 + g.cell % 16

/-- The setting that a measurement offers. -/
def settingOf (g : GroupMargin) : MarginS := { margin := g.margin, cell := g.cell, step := g.step }

/-- The cells of a measurement that failed are recorded and counted; they are not chosen again until a cold start (R361). -/
def State.calFailed (t : Nat) (l : List GroupMargin) (s : State) : State :=
  forEach (l.filter (fun g => groupExists t g.group && g.failed)) (fun g s =>
    (s.modTier t (fun y => { y with failCells := AMap.put (cellOf g) true y.failCells })).bump (tierSlot t 20) 1) s

/-- Whether a measurement of tier `t` offers a setting: its group exists, and its cell has not failed (R361). -/
def State.offers (s : State) (t : Nat) (g : GroupMargin) : Bool :=
  groupExists t g.group && !g.failed && (AMap.find (cellOf g) (s.tier t).failCells).isNone

/-- R363: for each bit-group measured the cell and step with the widest margin; the first of equal ones. -/
def widest (l : List GroupMargin) : AMap MarginS :=
  l.foldl (fun n g => match AMap.find (bitGroupOf g) n with
    | some o => if o.margin < g.margin then AMap.put (bitGroupOf g) (settingOf g) n else n
    | none => AMap.put (bitGroupOf g) (settingOf g) n) []

/-- R363: the settings after a measurement: those it chooses, and the old ones of the bit-groups for which it offers none. -/
def State.calChoose (s : State) (t : Nat) (l : List GroupMargin) (m : AMap MarginS) : AMap MarginS :=
  (widest (l.filter (s.offers t))).foldl (fun m e => AMap.put e.1 e.2 m) m

/-- The cells that failed are recorded, and the settings chosen (R361, R363). -/
def State.calStore (t : Nat) (l : List GroupMargin) (m : AMap MarginS) (s : State) : State × AMap MarginS :=
  let s := s.calFailed t l
  (s, s.calChoose t l m)

/-- CAL_MEASURE_DONE: the measurement of a run has ended (R363). Awake pseudo-channels have measured their pins too; channels in self-refresh
will after their next exit (R320). -/
def State.calMeasured (t : Nat) (l : List GroupMargin) (o : TrainObs) (s : State) : State :=
  let x := (s.tier t).cal
  if x.running.isSome && !x.measured then
    let (s, m) := s.calStore t l x.margins
    let pcs := (List.range 16).map (16 * t + ·)
    let awake := pcs.filter (fun k => (s.chan (k / 2)).pstate == .active)
    let s := forEach pcs (fun k s => s.modChan (k / 2) (fun c =>
      if c.retired then c else { c with remeasure := c.pstate != .active })) s
    let new := awake.map (fun k => (k, s.remeasured k o))
    forEach (failingOn o t ++ s.unnamed awake o) State.failElement
      (s.modTier t (fun y => { y with cal := { y.cal with measured := true, newMargins := m, newTrain := new } }))
  else s

/-- The margin of bit-group `k`, measured in the background: its setting stays (R363). -/
def remargin (k : Nat) (x : MarginS) (m : AMap MarginS) : AMap MarginS :=
  AMap.put k (match AMap.find k m with | some o => { o with margin := x.margin } | none => x) m

/-- BACKGROUND_MEASUREMENT: the sampler has measured one bit-group (R363); a low margin of its group starts a run (R362). -/
def State.background (t : Nat) (m : GroupMargin) (s : State) : State :=
  if (s.tier t).cal.running.isSome || s.calAsleep t || !groupExists t m.group then s
  else
    let s := (s.calFailed t [m]).modTier t (fun y => { y with cal := { y.cal with margins := remargin (bitGroupOf m) (settingOf m) y.cal.margins } })
    if decide (m.margin < Config.XMARGIN_MIN) && s.calAuto then s.calTrigger t .margin else s

/-- The bit-groups of a group. -/
def groupOf (g : Nat) (m : AMap MarginS) : AMap MarginS := m.filter (fun e => e.1 / 128 == g)

/-- The lowest margin of some bit-groups and its bit-group: of a group's the group margin, of a tier's the tier margin (R360). -/
def lowest (m : AMap MarginS) : Option (Nat × Nat) :=
  match m with
  | [] => none
  | a :: r => some (r.foldl (fun (b : Nat × Nat) (x : Nat × MarginS) => if x.2.margin < b.1 then (x.2.margin, x.1) else b) (a.2.margin, a.1))

/-- The groups whose group margin is below XMARGIN_MIN, with it (R365). -/
def lowGroups (m : AMap MarginS) : List (Nat × Nat) :=
  (List.range 64).filterMap (fun g => match lowest (groupOf g m) with
    | some (v, _) => if v < Config.XMARGIN_MIN then some (g, v) else none
    | none => none)

/-- The groups' margins of tier `t` after a switch, the tier margin, and what low margins raise (R365). -/
def State.calSwitched (t : Nat) (new : AMap MarginS) (s : State) : State :=
  let low := (lowest new).getD (255, 0)
  let s := s.modTier t (fun y => { y with cal := { y.cal with margins := new, tierMin := min 255 low.1, group := low.2 / 128 } })
  forEach (lowGroups new) (fun e s =>
    (s.raise Reg.CLK_STATUS F.CLK_STATUS_CAL_LOW).notice 0x15 0 ([BitVec.ofNat 8 t, BitVec.ofNat 8 e.1] ++ leBytes 2 e.2)) s

/-- The settings after a switch in which the groups `bad` failed their check: those return to the old ones (R366). -/
def reverts (bad : List Nat) (old new : AMap MarginS) : AMap MarginS :=
  new.map (fun e => if bad.contains (e.1 / 128) then (match AMap.find e.1 old with | some o => (e.1, o) | none => e) else e)

/-- R318: the start calibration of a tier has switched, and its channels train next. -/
def State.toTraining (t : Nat) (s : State) : State :=
  forEach ((List.range 8).map (8 * t + ·)) (fun n s =>
    if (s.chan n).retired then s else (s.modChan n (fun c => { c with pstate := .training })).chFlags n) s

/-- R366: the quiet window of a tier: settings and spares switch; the groups in `reverted` failed their check. A spare that falls due during
a run joins its switch, and no window falls while a channel of the tier switches to half width (R364). -/
def State.quietWindow (t : Nat) (reverted : List Nat) (s : State) : State :=
  let x := (s.tier t).cal
  let ready := x.running.isSome && x.measured
  if s.calAsleep t || !(ready || (x.running.isNone && !(s.tier t).toSteer.isEmpty)) ||
      (List.range 8).any (fun i => (s.chan (8 * t + i)).switchAt.isSome) then s
  else
    let chans := (List.range 8).map (8 * t + ·)
    let s := forEach chans (fun n s =>
      (forEach (s.chanAccs n) State.stall s).modChan n (fun c => { c with quietTill := s.now + Config.T_QUIET })) s
    let s := s.steerIn t
    if !ready then s
    else
      let bad := reverted.filter (fun g => !(groupOf g x.newMargins).isEmpty)
      let new := reverts bad x.margins x.newMargins
      let s := s.modTier t (fun y => { y with cal := { y.cal with
        running := none, measured := false, refTemp := y.cal.newRef, newMargins := [], newTrain := [],
        blocked := false, wanted := y.cal.wanted && y.cal.pending == some .command } })
      let s := forEach x.newTrain (fun e s => s.retune e.1 e.2) s
      let s := s.bump (tierSlot t 16) 1
      let s := forEach bad (fun _ s => ((s.bump (tierSlot t 17) 1).raise Reg.CLK_STATUS F.CLK_STATUS_CAL_REVERT).fault (43 + 4 * t) t []) s
      let s := s.calSwitched t new
      let s := if x.running = some .start ∧ s.power.phase = .starting then s.toTraining t else s
      let s := if bad.isEmpty ∨ (s.tier t).cal.pending.isSome then s
               else s.modTier t (fun y => { y with cal := { y.cal with pending := some .margin } })
      s.calJudge

/-! ### The loss of a lower die (R367 to R371) -/

/-- Lists a line in a tier's journal (R368, R371). -/
def State.journalLine (t l n : Nat) (s : State) : State :=
  s.modTier t (fun x => if x.journal.length < Config.JOURNAL_TIER then { x with journal := x.journal ++ [l], jNew := x.jNew + 1 }
                        else { x with jOvf := setBits x.jOvf (n % 8) (n % 8) 1 })

/-- R369: a request that waits in an affected tier draws PATH_RESET. -/
def State.resetReqs (t : Nat) (s : State) : State :=
  let hit := s.own.reqs.filter (fun r => (s.reqPlaces r.2).any (fun p => decide (p.tier = t)))
  let merges := s.own.merges.filter (fun e => e.busy && (s.linePlace e.line).tier == t)
  let commits := s.own.commits.filter (fun e => (s.linePlace e.2.line).tier == t)
  let s := forEach hit (fun r s => match AMap.find r.1 s.own.reqs with | some q => s.ownErr r.1 q Cause.pathReset | none => s) s
  let s := forEach merges (fun e s => ((s.mergeDrop e.line).mergeAnswer e (some Cause.pathReset)).serveBehind e.behind) s
  let s := forEach commits (fun e s => s.commitErr e.1 Cause.pathReset) s
  { s with own.holds := AMap.mapVal (fun l => l.filter (fun id => (AMap.find id s.own.reqs).isSome)) s.own.holds,
           own.waits := s.own.waits.filter (fun id => (AMap.find id s.own.reqs).isSome) }

/-- R368, R369: a tier loses its heartbeat; the bursts to the places `aborted` are cut off. Its keeper puts its channels into self-refresh; its
writes are held, and what else its bank queues hold and owe stays until the rejoin. -/
def State.heartbeatLoss (t : Nat) (aborted : List Nat) (s : State) : State :=
  if (s.tier t).hbLost then s
  else
    let places := (aborted.map Place.ofIx).filter (fun p => decide (p.tier = t))
    let lines := places.filterMap (fun p => (s.lineAt p).map (fun l => (l, p.chan)))
    let s := s.modTier t (fun x => { x with held := x.held ++ s.waitingWrites t, hbLost := true, poisons := x.poisons ++ places, cal := x.cal.stopped })
    let s := forEach ((List.range 8).map (8 * t + ·)) (fun n s =>
      let s := (s.chanFilter n (fun a => a.wr.isNone)).closeRows n
      if (s.chan n).retired ∨ (s.chan n).pstate = .selfRefresh then s else (s.modChan n (fun c => { c with srAt := s.now })).srIssue n) s
    let s := { s with stack.bursts := s.stack.bursts.filter (fun b => decide (b.2.acc.place.tier ≠ t)) }
    let s := forEach lines (fun e s => s.journalLine t e.1 e.2) s
    let s := (s.raise Reg.CLK_STATUS F.CLK_STATUS_HB_LOSS).raiseIf (!lines.isEmpty) Reg.CLK_STATUS F.CLK_STATUS_JOURNAL
    let s := (s.bump (tierSlot t 18) 1).bump (tierSlot t 19) aborted.length
    let s := if s.awake then s.resetReqs t else s
    s.fault (42 + 4 * t) t []

/-- The writes a tier holds are made (R170, R369). -/
def State.heldWrites (t : Nat) (s : State) : State :=
  let l := (s.tier t).held
  forEach l (fun (a : Acc) s => match a.wr with | some (d, md) => s.setLine a.place d md | none => s) (s.modTier t (fun x => { x with held := [] }))

/-- R370: the journal's entries in the blaze log, three lines each. -/
def State.journalLog (t : Nat) : Nat → List Nat → State → State
  | 0, _, s => s
  | _, [], s => s
  | fuel + 1, l, s =>
    let g := l.take 3
    ((s.blazeAt 255 255 0 1 0x0009 0 (leBytes 1 t ++ leBytes 1 g.length ++ leBytes 2 0 ++ g.flatMap (leBytes 4))).1).journalLog t fuel (l.drop 3)

/-- R370, R131: the journal of a tier enters the blaze log, and the RESET_JOURNAL notice gives the lines that have entered it since the last
one. -/
def State.journalTell (t : Nat) (s : State) : State :=
  let x := s.tier t
  if x.jNew = 0 then s
  else ((s.journalLog t 64 x.journal).modTier t (fun x => { x with jNew := 0 })).notice 0x14 1 ([BitVec.ofNat 8 t] ++ leBytes 2 x.jNew)

/-- Steps 3 and 4 of R370: the held writes are made, the lines that bursts were cut off from are poisoned (places of the pool that hold none are
initialised), and the journal is told. -/
def State.rejoinWrites (t : Nat) (s : State) : State :=
  let s := s.heldWrites t
  let l := (s.tier t).poisons
  (forEach l (fun p s => s.setLine p (zeros 128) (if (s.lineAt p).isSome then mdWord 0 true 0 else 0))
    (s.modTier t (fun x => { x with poisons := [] }))).journalTell t

/-- R370: a tier rejoins: a start calibration and the training of its channels come first. -/
def State.tierRejoin (t : Nat) (l : List GroupMargin) (o : TrainObs) (s : State) : State :=
  if !(s.tier t).hbLost || !s.awake then s
  else
    let ref := (s.calTemp t).getD (s.tier t).cal.refTemp
    let s := (s.modTier t (fun x => { x with hbLost := false, cal := { x.cal with
      pending := none, startAt := some s.now, refTemp := ref, blocked := false, wanted := false } })).bump (tierSlot t 12) 1
    let s := forEach ((List.range 8).map (8 * t + ·)) (fun n s =>
      let s := s.startSrExit n
      (s.modChan n (fun c => if c.retired then c else { c with pstate := .active, remeasure := false })).chFlags n) s
    let (s, m) := s.calStore t l (s.tier t).cal.margins
    let s := s.calSwitched t m
    let s := s.trained (((List.range 16).map (16 * t + ·)).filter (fun k => !(s.chan (k / 2)).retired)) { o with failing := failingOn o t }
    (s.rejoinWrites t).copyGo.retryWaits

/-- R371: empties the reset journal and UNLISTED. -/
def State.journalClear (s : State) : State :=
  forEach (List.range 4) (fun t s => s.modTier t (fun x => { x with journal := [], jOvf := 0 })) s

end Sys2Proof.Machine
end

