-- ==== Sys2Proof/Machine/Therm.lean ====
section
/-! DEFINITION. Heat (R395 to R416): readings, broken sensors and blind dies, stage inputs, thermal stages, trips, refresh temperatures,
and the tree-ring ledger. Temperatures are in 0.1 °C. -/

namespace Sys2Proof.Machine

/-! ### Dies and sensors (R395) -/

/-- The die of a sensor, by its place in the stack: power stage 0, base 1, tier die t at 2 + 5 t, memory die M(4t + j) at 3 + 5 t + j. -/
def sensorDie (i : Nat) : Nat :=
  if i < 6 then 1 else if i < 8 then 0 else if i < 40 then 2 + 5 * ((i - 8) / 8)
  else let m := (i - 40) / 2; 3 + 5 * (m / 4) + m % 4

/-- The sensors of a die. -/
def dieSensors (d : Nat) : List Nat := (List.range 72).filter (fun i => sensorDie i == d)

/-- The tiers that a die concerns (R402). -/
def dieTiers (d : Nat) : List Nat := if d < 2 then List.range 4 else [(d - 2) / 5]

/-- R395: the DRAM sensors. -/
def isDram (i : Nat) : Bool := decide (40 ≤ i)

/-- R398: the comparison set of a sensor. -/
def State.comparison (s : State) (i : Nat) : List Int :=
  let d := sensorDie i
  if d = 0 then []
  else (s.working ((List.range 72).filter (fun j => j != i && sensorDie j != 0 &&
    (sensorDie j == d || sensorDie j + 1 == d || sensorDie j == d + 1)))).map (·.1)

/-- Twice the median of some readings. -/
def median2 (l : List Int) : Int :=
  let s := sortBy (fun a b => a ≤ b) l
  if s.length % 2 = 1 then 2 * s.getD (s.length / 2) 0 else s.getD (s.length / 2 - 1) 0 + s.getD (s.length / 2) 0

/-! ### The judgement of a reading (R398) -/

/-- What a sensor remembers after a reading; the medians it is compared with lie in `cmp`. -/
def SensorS.take (r : Int) (cmp : List Int) (x : SensorS) : SensorS :=
  let m := median2 cmp
  let again := x.seen && x.reading == r
  let out := decide (r < -400) || decide (1500 < r)
  let far := decide (3 ≤ cmp.length) && decide (500 < (2 * r - m).natAbs)
  { x with
    reading := r, seen := true, peak := some (match x.peak with | some p => max p r | none => r), none? := 0,
    same := if again then x.same + 1 else 1,
    spread := if cmp.isEmpty then (if again then x.spread else none)
              else match (if again then x.spread else none) with | some (lo, hi) => some (min lo m, max hi m) | none => some (m, m),
    rangeN := if out then x.rangeN + 1 else 0, far := if far then x.far + 1 else 0, hist := (r :: x.hist).take 51 }

/-- R398: the first condition that flags a sensor broken. -/
def SensorS.verdict (power : Bool) (x : SensorS) : Option Nat :=
  if 5 ≤ x.none? ∨ (!power ∧ 5000 ≤ x.same ∧ (match x.spread with | some (lo, hi) => decide (40 < hi - lo) | none => false) = true) then some 0
  else if 2 ≤ x.rangeN then some 1
  else if (match x.hist[50]?, x.hist.head? with | some a, some b => decide (100 < (a - b).natAbs) | _, _ => false) then some 2
  else if !power ∧ 50 ≤ x.far then some 3
  else none

/-- R408: the trip temperature of a sensor. -/
def State.tripTemp (s : State) (i : Nat) : Int := if isDram i then (if s.id.gradeE then 1100 else 1050) else 1150

/-! ### Die temperatures and stage inputs (R400) -/

/-- The die temperature of memory die `m`, with the sensor that gives it and whether it carries SUBST_MARGIN. -/
def State.dieTemp (s : State) (m : Nat) : Option (Int × Nat × Bool) :=
  let a := 40 + 2 * m
  let b := 41 + 2 * m
  match hottest (s.working [a, b]) with
  | none => none
  | some (t, i) => if (s.sensor a).broken || (s.sensor b).broken then some (t + 60, i, true) else some (t, i, false)

/-- R402: whether a die has no working sensor. -/
def State.blindDie (s : State) (d : Nat) : Bool := (dieSensors d).all (fun i => (s.sensor i).broken)

/-- The start threshold of a stage (R403). -/
def State.stageAt (s : State) (k : Nat) : Int := (if s.id.gradeE then 950 else 900) + 50 * (Int.ofNat k - 1)

/-- R403, R402: the stage that an input calls for. -/
def State.stageFor (s : State) (t : Nat) : Nat :=
  let x := s.tier t
  let k := if s.stageAt 3 ≤ x.inputT then 3 else if s.stageAt 2 ≤ x.inputT then 2 else if s.stageAt 1 ≤ x.inputT then 1 else 0
  if x.blind then max 2 k else k

/-- R404: whether the input lies low enough for the dwell. -/
def State.lowEnough (s : State) (t : Nat) : Bool :=
  let x := s.tier t
  decide (0 < x.stage) && decide (x.inputT ≤ s.stageAt x.stage - 30)

/-- Sets the stage of a tier; every change restarts the dwell (R404). -/
def State.setStage (t k : Nat) (s : State) : State :=
  if (s.tier t).stage = k then s
  else
    let s := (s.modTier t (fun x => { x with stage := k })).bump (tierSlot t 25) 1
    let s := if k = 3 then s.fault 15 0 [] else s
    s.modTier t (fun x => { x with dwellAt := if s.lowEnough t then some s.now else none })

/-! ### Flags, notices, the pin -/

/-- R406: the hottest stage input and its sensor. -/
def State.hottestInput (s : State) : Int × Nat :=
  (List.range 4).foldl (fun (b : Int × Nat) t => if b.1 < (s.tier t).inputT then ((s.tier t).inputT, (s.tier t).inputS) else b)
    ((s.tier 0).inputT, (s.tier 0).inputS)

/-- R195: `SVC.STATUS.STAGE3_STOP`: a tier refuses ordinary classes. -/
def State.stage3Flag (s : State) : State :=
  s.cond Reg.SVC_STATUS F.SVC_STATUS_STAGE3_STOP ((List.range 4).any (fun t => decide (3 ≤ s.throttle t)))

/-- R407, R488: THERM_N, by the stage of a device that runs or starts, and from a trip to the next reset; and the condition flags of
`THERM.STATUS`. -/
def State.thermFlags (s : State) : State :=
  let pin := (s.awake && decide (2 ≤ s.devStage)) || (s.power.tripHold && s.power.phase == .firebreak)
  let s := { s with power.thermN := pin }
  let a := Reg.THERM_STATUS
  ((s.stage3Flag.cond a F.THERM_STATUS_THERM_N pin).cond a F.THERM_STATUS_SUBST ((List.range 4).any (fun t => (s.tier t).subst))).cond a
    F.THERM_STATUS_BLIND ((List.range 22).any s.blindDie)

/-- R406: a change of the device thermal stage from `old` raises the THERMAL notice. -/
def State.devStageFrom (old : Nat) (s : State) : State :=
  let new := s.devStage
  let s := if new = old then s
    else
      let h := s.hottestInput
      s.notice 0x0A (if new < 2 then 0 else new - 1) ([BitVec.ofNat 8 new, BitVec.ofNat 8 old] ++ leBytes 2 (h.1 % 65536).toNat ++ [BitVec.ofNat 8 h.2])
  s.thermFlags

/-- The stage input of a tier is formed anew (R400). -/
def State.inputOf (t : Nat) (s : State) : State :=
  let l := (List.range 4).filterMap (fun j => s.dieTemp (4 * t + j))
  let sub := l.any (fun x => x.2.2)
  match hottest (l.map (fun x => (x.1, x.2.1))) with
  | none => s.modTier t (fun x => { x with subst := sub })
  | some (v, i) => s.modTier t (fun x => { x with inputT := v, inputS := i, subst := sub })

/-- R404: the stage of a tier follows its input: it rises at once, and the dwell runs while the input lies low enough. -/
def State.stageFollow (t : Nat) (s : State) : State :=
  let k := s.stageFor t
  let s := if (s.tier t).stage < k then s.setStage t k else s
  s.modTier t (fun x => { x with dwellAt := if s.lowEnough t then (match x.dwellAt with | some d => some d | none => some s.now) else none })

/-- R300: the refresh temperatures of the channels, and since when each has lain 3 °C below the threshold of its multiplier; that of a blind die
falls no more (R402). -/
def State.refreshTemps (s : State) : State :=
  forEach (List.range 32) (fun n s =>
    match s.dieTemp (n / 8 * 4 + n % 8 / 2) with
    | none => if (s.chan n).coolAt.isSome then s.modChan n (fun c => { c with coolAt := none }) else s
    | some (v, _, _) =>
      s.modChan n (fun c =>
        let low := (c.mult == 2 && decide (v ≤ 820)) || (c.mult == 4 && decide (v ≤ 970) && !s.blindDie (3 + 5 * (n / 8) + n % 8 / 2))
        { c with temp := v, coolAt := if low then (match c.coolAt with | some a => some a | none => some s.now) else none })) s

/-- Everything that follows a change of the readings (R300, R362, R400 to R404). -/
def State.thermUpdate (s : State) : State :=
  let old := s.devStage
  let s := forEach (List.range 4) (fun t s => (s.inputOf t).stageFollow t) s
  (s.refreshTemps.devStageFrom old).calJudge

/-- R399, R401, R402: sensor `i` breaks with a cause. -/
def State.sensorBreaks (i cause : Nat) (s : State) : State :=
  let d := sensorDie i
  let s := s.modSensor i (fun x => { x with broken := true, cause := cause })
  let pl := [BitVec.ofNat 8 i, BitVec.ofNat 8 cause]
  let s := (((s.raise Reg.THERM_STATUS F.THERM_STATUS_BROKEN).notice 0x0B 1 pl).blazeAt 255 255 0 1 6 0 pl).1
  let s := (s.bump (devSlot (113 + cause)) 1).fault 13 0 pl
  let s := forEach (List.range 4) (fun t s =>
    let x := s.tier t
    if x.inputS = i ∧ isDram i ∧ 1 ≤ x.stage then
      (s.modTier t (fun x => { x with holdTill := some (s.now + Config.SUBST_HOLD) })).bump (tierSlot t 26) 1
    else s) s
  let s := if isDram i ∧ !s.blindDie d then s.notice 0x0B 1 [BitVec.ofNat 8 i, 4] else s
  if s.blindDie d then
    let s := forEach (dieTiers d) (fun t s => (s.modTier t (fun x => { x with blind := true })).bump (tierSlot t 27) 1) s
    s.fault 14 0 []
  else s

/-- R408: a trip of sensor `i` with its two readings. -/
def State.trip (i : Nat) (a b : Int) (s : State) : State :=
  let s := ({ s with power.tripHold := true }.raise Reg.THERM_STATUS F.THERM_STATUS_TRIPPED).bump (devSlot 117) 1
  let s := (s.blazeAt 255 255 0 3 7 0 ([BitVec.ofNat 8 i, 0] ++ leBytes 2 (a % 65536).toNat ++ leBytes 2 (b % 65536).toNat)).1
  (s.fault (if isDram i then 11 else 12) 0 [BitVec.ofNat 8 i]).thermFlags

/-- R396: a reading of sensor `i`, or none where its converter delivers none. -/
def State.reading (i : Nat) (r : Option Int) (s : State) : State :=
  if !s.powered then s
  else
    let old := s.sensor i
    let s := match r with
      | none => s.modSensor i (fun x => { x with none? := x.none? + 1 })
      | some v => s.modSensor i (SensorS.take v (s.comparison i))
    if !s.awake then s
    else
      let x := s.sensor i
      let hot := match r with | some v => decide (s.tripTemp i ≤ v) | none => false
      let s := s.modSensor i (fun x => { x with tripN := if hot then x.tripN + 1 else if r.isNone then x.tripN else 0 })
      let s := if x.broken then s else match x.verdict (sensorDie i == 0) with | some c => s.sensorBreaks i c | none => s
      let s := s.thermUpdate
      if hot && !(s.sensor i).broken && decide (2 ≤ (s.sensor i).tripN) then s.trip i old.reading x.reading else s

/-- STAGE_DWELL_EXPIRY: the input has stayed low for STEP_DWELL (R404). -/
def State.stageFall (t : Nat) (s : State) : State :=
  let x := s.tier t
  if s.awake && x.dwellAt.isSome && x.holdTill.isNone && decide (s.stageFor t < x.stage) then
    let old := s.devStage
    (s.setStage t (x.stage - 1)).devStageFrom old
  else s

/-- SUBST_HOLD_EXPIRY: the hold of a tier ends; a dwell that ran during the hold counts (R401). -/
def State.holdEnd (t : Nat) (s : State) : State :=
  match (s.tier t).holdTill with
  | none => s
  | some _ =>
    let s := s.modTier t (fun x => { x with holdTill := none })
    match (s.tier t).dwellAt with
    | some d => if d + 2000000 ≤ s.now then s.stageFall t else s
    | none => s

/-- R409: whether the device has cooled enough after a trip to start its self-test. -/
def State.coolEnough (s : State) : Bool :=
  (List.range 72).all (fun i =>
    let x := s.sensor i
    x.broken || x.seen && (if isDram i then decide (x.reading ≤ s.tripTemp i - 150) else decide (x.reading ≤ 1000)))

/-! ### The ledger (R410 to R414). Ledger temperatures are exact: a mean of up to eight readings, in units of 0.1 °C / 840. -/

/-- R410: the ledger temperature of tier `t`. -/
def State.ledgerTemp (s : State) (t : Nat) : Option Int :=
  let own := s.working ((List.range 8).map (8 + 8 * t + ·))
  let l := if own.isEmpty then s.working ((List.range 8).map (40 + 8 * t + ·)) else own
  if l.isEmpty then none else some (l.foldl (fun (a : Int) x => a + x.1) 0 * 840 / Int.ofNat l.length)

/-- The bin of a range (R416). -/
def rangeBin (d : Nat) : Nat :=
  if d < 200 then 0 else if d < 250 then 1 else if d < 300 then 2 else if d < 350 then 3 else if d < 400 then 4
  else if d < 500 then 5 else if d < 600 then 6 else 7

/-- R411: equivalent cycles are kept exactly, in eighths of 10^−6: a half cycle of range d adds 25 d². -/
def tallyUnits : Nat := Config.TALLY_STEP * 8000000

/-- R411, R412: `h` half cycles of a range given in units of 0.1 °C / 840. -/
def State.ledgerCount (t : Nat) (h : Nat) (r : Nat) (s : State) : State :=
  let (i, s) := s.draw
  let d := r / 840 + (if r % 840 ≠ 0 ∧ Config.rangeUp i = true then 1 else 0)
  if d < Config.LEDGER_MIN then s
  else
    let s := s.modTier t (fun x => { x with
      residue := x.residue + h * 25 * d * d
      bins := x.bins.set (rangeBin d) (min (2 ^ 32 - 1) (x.bins.getD (rangeBin d) 0 + h)) })
    if 1024 ≤ (s.tier t).tallies then s.modTier t (fun x => { x with residue := min x.residue tallyUnits })
    else
      let n := (s.tier t).residue / tallyUnits
      (s.modTier t (fun x => { x with residue := x.residue % tallyUnits })).blowWant (1 + t) n

/-- R411: the cycles that rainflow closes (ASTM E1049), newest point first; the starting point is the last of the list. -/
def State.rainflow (t : Nat) : Nat → List Int → State → State × List Int
  | 0, l, s => (s, l)
  | fuel + 1, l, s =>
    match l with
    | c :: b :: a :: rest =>
      if (b - a).natAbs ≤ (c - b).natAbs then
        if rest.isEmpty then (s.ledgerCount t 1 (b - a).natAbs).rainflow t fuel [c, b]
        else (s.ledgerCount t 2 (b - a).natAbs).rainflow t fuel (c :: rest)
      else (s, l)
    | _ => (s, l)

/-- The turning points after one more temperature, newest first with the running extreme at the front: hysteresis 0.5 °C. -/
def turnPoint (v : Int) : List Int → List Int
  | [] => [v, v]
  | e :: l =>
    let last := l.headD e
    if e = last then (if 4200 ≤ (v - e).natAbs then v :: l else e :: l)
    else if (last < e ∧ e ≤ v) ∨ (e < last ∧ v ≤ e) then v :: l
    else if 4200 ≤ (v - e).natAbs then v :: e :: l
    else e :: l

/-- One ledger sample of a tier. -/
def State.ledgerTier (t : Nat) (s : State) : State :=
  match s.ledgerTemp t with
  | none => s
  | some v =>
    let l := turnPoint v (s.tier t).turning
    let (s, l) := s.rainflow t l.length l
    s.modTier t (fun x => { x with turning := l, lastT := some v })

/-- LEDGER_SAMPLE. -/
def State.ledgerSample (s : State) : State := if s.powered then forEach (List.range 4) State.ledgerTier s else s

/-- The half cycles of an open rainflow state. -/
def State.closeHalves (t : Nat) : List Int → State → State
  | a :: b :: r, s => (s.ledgerCount t 1 (a - b).natAbs).closeHalves t (b :: r)
  | _, s => s

/-- R414: the orderly power-down closes the rainflow state and blows a tally for a residue above zero. -/
def State.ledgerClose (s : State) : State :=
  forEach (List.range 4) (fun t s =>
    let s := s.closeHalves t (s.tier t).turning
    let n := if 0 < (s.tier t).residue ∧ (s.tier t).tallies < 1024 then 1 else 0
    (s.modTier t (fun x => { x with residue := 0, turning := [], lastT := none })).blowWant (1 + t) n) s

end Sys2Proof.Machine
end

