-- ==== Sys2Proof/Machine/Link.lean ====
section
/-! DEFINITION. Link bring-up and replay (R65 to R97, R506): training states, capability exchange, rows and their markers, eye scans. -/

namespace Sys2Proof.Machine

/-! ### What a port knows -/

/-- R14: whether a port works with a forwarded clock: trunk links and the host port. -/
def State.fwdClk (s : State) (p : Port) : Bool := s.isManager || (s.isBranch && (p == .e || p == .w))

/-- The lanes of a port that are locked, by receive lane. -/
def PortS.locked (x : PortS) : List (Nat × LaneS) := x.lanes.filter (fun l => l.2.lock)

/-- R82: RX_MAP: the partner's transmit lanes that are locked. -/
def PortS.rxMap (x : PortS) : Nat := x.locked.foldl (fun m l => setBits m l.2.peer l.2.peer 1) 0

/-- SERIAL of a capability block. -/
def capSerial (c : List Byte) : Nat := leAt c 8 8

/-- R66: the half of the host port that holds its sequences, for a half that trains; another port holds its own. -/
def State.carrier (s : State) (p : Port) : PortS := if s.hostSide p && (s.port (otherHalf p)).carry then s.port (otherHalf p) else s.port p

/-- R82, R90, R95: this end's capability block on a port, with MAX_RATE and PRECODE_REQ as the training found them; RESUME_VALID is set toward
the partner it had before. -/
def State.capOf (s : State) (p : Port) : List Byte :=
  let x := s.port p
  let known := x.gotCap && (s.carrier p).partner == some (capSerial x.peerCap)
  let cap := s.reg Reg.IDENT_NDL_CAP
  let no := x.gotCap && x.noStep.contains (capSerial x.peerCap)
  let flags := F.IDENT_NDL_CAP_RATE112.get cap + 2 * b2n x.ctlRate + 4 * F.IDENT_NDL_CAP_EYE_SCAN.get cap + 8 * F.IDENT_NDL_CAP_ENGINES.get cap +
    16 * b2n (s.fwdClk p) + 32 * b2n x.ctlPre + 64 * b2n x.gotCap + 128 * b2n no
  let body := leBytes 1 0x82 ++ leBytes 1 1 ++ leBytes 1 (F.IDENT_NDL_CAP_VERSIONS.get cap) ++ leBytes 1 flags ++ leBytes 1 x.rxMap ++
    leBytes 1 (s.id.role + 4 * portNo p) ++ leBytes 2 0x0496 ++ leBytes 8 s.id.serial ++ leBytes 1 (s.num + 64 * b2n s.numValid) ++ [0] ++
    leBytes 2 ((s.carrier p).rxNext + 2 ^ 15 * b2n known) ++ zeros 8
  body ++ leBytes 4 (crc32c body)

/-! ### What a port sends outside traffic (R74, R77, R93) -/

/-- R93: whether the PRBS checkers of a port run. -/
def State.prbsChecks (s : State) (p : Port) : Bool :=
  (s.port p).tstate == .prbs && s.effFld (Reg.LINK_PRBS_CTL p) F.LINK_PRBS_CTL_CHK_EN == 1

/-- R93: the errors that the checkers of a port have counted since the last look enter its counters. -/
def State.prbsCount (p : Port) (s : State) : State :=
  if s.prbsChecks p then
    let (k, s) := s.draw
    forEach ((List.range 8).filter (bit (s.effFld (Reg.LINK_PRBS_CTL p) F.LINK_PRBS_CTL_LANE_EN))) (fun l s =>
      s.setReg (Reg.LINK_PRBS_ERR p l) (BitVec.ofNat 32 (min (2 ^ 32 - 1) ((s.reg (Reg.LINK_PRBS_ERR p l)).toNat + Config.prbsErrors k l)))) s
  else s

/-- Notes the capability block that a port sends. -/
def State.capSent (p : Port) (s : State) : State := (s.modPort p (fun x => { x with ownCap := s.capOf p })).sendState p

/-- R22: the width code of a link: 0 down, 1 to 3 for 4, 6 and 8 lanes. -/
def widthCode (w : Nat) : Nat := if w = 8 then 3 else if w = 6 then 2 else if w = 4 then 1 else 0

/-- R22: the record of a port's link. -/
def State.linkRecord (s : State) (p : Port) : Nat :=
  let x := s.port p
  if x.tstate = .active ∨ x.tstate = .quiet then widthCode (s.useWidth p) + 4 * b2n x.full + 8 * x.version + 32 * b2n x.clk else 0

/-- R67: whether the bonded host port runs below 16 lanes. -/
def State.bondShort (s : State) : Bool :=
  !(s.portUp .ca && s.portUp .cb && (s.port .ca).bond && (s.port .cb).bond && (s.port .ca).width == 8 && (s.port .cb).width == 8)

/-- DEGRADED of a port (R95): both halves of the host port show that it runs, and below 16 lanes. -/
def State.degraded (s : State) (p : Port) : Bool :=
  (s.portUp p && decide (s.useWidth p < 8)) || (s.hostSide p && (s.portUp .ca || s.portUp .cb) && s.bondShort)

/-- RESCUE of a port (R86). -/
def State.rescued (s : State) (p : Port) : Bool :=
  let x := s.port p
  x.tstate == .active && !x.full && (match x.partner with | some n => x.noStep.contains n | none => false)

/-- The condition flags of `LINK_x.STATUS`; each change raises the LINK notice (R97). -/
def State.linkFlags (p : Port) (s : State) : State :=
  let a := Reg.LINK_STATUS p
  let up := s.portUp p
  let dg := s.degraded p
  let rs := s.rescued p
  let same := s.fld a F.LINK_STATUS_UP = b2n up ∧ s.fld a F.LINK_STATUS_DEGRADED = b2n dg ∧ s.fld a F.LINK_STATUS_RESCUE = b2n rs
  if same then s
  else
    let s := ((s.cond a F.LINK_STATUS_UP up).cond a F.LINK_STATUS_DEGRADED dg).cond a F.LINK_STATUS_RESCUE rs
    let x := s.port p
    s.notice 0x01 (if dg || rs then 1 else 0) (leBytes 1 (portNo p) ++ leBytes 1 x.tstate.code ++ leBytes 1 (s.linkRecord p) ++
      leBytes 1 (b2n up + 2 * b2n dg + 4 * b2n rs) ++ leBytes 8 (x.partner.getD 0))

/-- R127, R134: whether a crown half of the manager runs below NDL 2.0. -/
def State.hostOld (s : State) : Bool := s.isManager && [Port.ca, Port.cb].any (fun p => s.portUp p && decide ((s.port p).version < 2))

/-- The flags of a port, and of the other half of the host port with it. -/
def State.portFlags (p : Port) (s : State) : State :=
  let s := s.linkFlags p
  if s.hostSide p then (s.linkFlags (otherHalf p)).cond Reg.NDL_STATUS F.NDL_STATUS_HOST_VER s.hostOld else s

/-- The sequences, credits, buffers and replay of a half move to the other one (R67, R88, R89); what waits there already waits on behind. -/
def PortS.takeOver (y x : PortS) : PortS :=
  { y with bond := true, carry := true, partner := x.partner, txSeq := x.txSeq, buffer := x.buffer, resend := x.resend, wait := x.wait ++ y.wait,
           rxNext := x.rxNext, rxRows := x.rxRows, nak := x.nak, nakRows := x.nakRows, gotReplay := x.gotReplay, nakSeen := x.nakSeen,
           rounds := x.rounds, retrains := x.retrains, held := x.held, granted := x.granted, back := x.back, sent := x.sent, sinceAct := x.sinceAct }

/-- R67: a half of the host port leaves ACTIVE: the other half, where it is up, carries on alone, and the half rejoins at its next training
only where the other one stood idle, for then this is the retraining of the active half. -/
def State.leaveBond (p : Port) (s : State) : State :=
  if !s.hostSide p then s
  else if !s.portUp (otherHalf p) then s.modPort p (fun x => { x with bond := false })
  else
    let x := s.port p
    let idle := x.bond && !(s.port (otherHalf p)).bond
    let s := if x.bond && (p == .ca || idle) then
        (s.modPort (otherHalf p) (fun y => y.takeOver x)).modPort p (fun x => { x with wait := [], carry := false })
      else s
    s.modPort p (fun x => { x with bond := idle })

/-- What leaving ACTIVE does beside the new state: DOWN_EVT where the link went to DOWN, OFF or a hunt, and the bond (R67); and what leaving
PRBS does, the errors counted there (R93). -/
def State.leaveActive (p : Port) (evt : Bool) (s : State) : State :=
  let s := s.prbsCount p
  if (s.port p).tstate != .active then s
  else (s.raiseIf evt (Reg.LINK_STATUS p) F.LINK_STATUS_DOWN_EVT).leaveBond p

/-! ### Hunting (R77 to R80, R506) -/

/-- A port hunts at a rate. -/
def State.hunt (p : Port) (full : Bool) (s : State) : State :=
  (((s.leaveActive p true).modPort p (PortS.hunting full)).sendState p).portFlags p

/-- A new training: a port hunts at a rate. -/
def State.train (p : Port) (full : Bool) (s : State) : State := (s.newTraining p).hunt p full

/-- R78: a port hunts as after reset release. DESIGN CHOICE: until it is ACTIVE, its last active rate (R80) is the one it starts at. -/
def State.freshHunt (p : Port) (s : State) : State :=
  (s.modPort p (fun x => { x with bond := false, lastFull := s.maxRate p })).train p (s.maxRate p)

/-- R80: a port retrains at the rate it runs at. DESIGN CHOICE: one that runs at 112 Gbit/s stays there although MAX_RATE has been written 0
since: RETRAIN names the current rate, MAX_RATE the next training (R95), and the capability exchange at 112 Gbit/s asks for neither. -/
def State.relock (p : Port) (s : State) : State :=
  let full := (s.port p).full
  (((s.train p full).raise (Reg.LINK_STATUS p) F.LINK_STATUS_RETRAIN).bump (portSlot p 34) 1)

/-- R506: a port enters DOWN. -/
def State.goDown (p : Port) (s : State) : State :=
  let s := s.leaveActive p true
  ((s.modPort p (fun x => { x with tstate := .down, stepping := false, bond := false })).sendState p).portFlags p

/-- The lanes of a port that has no signal. -/
def PortS.silent (x : PortS) : PortS :=
  { x with lanes := (List.range 8).foldl (fun m l => AMap.put l { AMap.get l ({} : LaneS) m with lock := false, signal := some false } m) x.lanes }

/-- R95: a port enters OFF. -/
def State.goOff (p : Port) (s : State) : State :=
  let s := s.leaveActive p true
  ((s.modPort p (fun x => { x.silent with tstate := .off, stepping := false, bond := false })).sendState p).portFlags p

/-- Whether a port has fewer than 4 lanes left (R438 item 7). -/
def State.portLost (s : State) (p : Port) : Bool := decide (4 < ones 8 (s.port p).excluded)

/-! ### The relays (R26, R27) -/

/-- Whether the device would drive a port of its trunk or spur: it has the lanes and is enabled, and no tester holds it (R4, R95). -/
def State.drives (s : State) (p : Port) : Bool := !s.isTest && !s.portLost p && s.fld (Reg.LINK_CTL p) F.LINK_CTL_ENABLE == 1

/-- Every relay operation is counted on its port (R27). -/
def State.relayCount (s : State) : State := (s.bump (portSlot .e 36) 1).bump (portSlot .w 36) 1

/-- R26, R27: the relays open where the device drives its east or west port, and the wait of 2 × RELAY_SETTLE begins. -/
def State.openRelays (s : State) : State :=
  if (s.drives .e || s.drives .w) && !s.power.relays then ({ s with power.relays := true, power.relayAt := some s.now }).relayCount else s

/-- R26: the relays close. -/
def State.closeRelays (s : State) : State :=
  when s.power.relays State.relayCount { s with power.relays := false, power.relayAt := none }

/-- Whether a port may be driven: the device drives it in its role, and it has at least 4 lanes (R95, R437, R438). -/
def State.portAllowed (s : State) (p : Port) : Bool :=
  s.awake && !s.portLost p &&
  (match p with | .e => s.power.relays && s.power.relayAt.isNone | .w => s.power.relays && s.power.relayAt.isNone | _ => if s.isManager then s.running else !s.isWorker) && !s.isTest

/-- Starts a port as after reset release, where it is enabled. -/
def State.startPort (p : Port) (s : State) : State :=
  if s.portAllowed p && s.fld (Reg.LINK_CTL p) F.LINK_CTL_ENABLE == 1 && (s.port p).tstate == .off then s.freshHunt p else s

/-- HUNT_TIMEOUT: T_HUNT has passed in HUNT_FULL (R78). -/
def State.huntTimeout (p : Port) (s : State) : State :=
  let x := s.port p
  if x.tstate = .huntFull ∧ x.stepping = false then s.hunt p false else s

/-- R81: four lanes are locked, and the port enters CAP. -/
def State.enterCap (p : Port) (s : State) : State :=
  (s.modPort p (fun x => { x with tstate := .cap, gotCap := false, gotSeen := false, stepping := false, waking := none, gap := false })).capSent p

/-- A lane locks to a lane of the partner; what its descrambler and its last level then are, the frames before the lock have made (`k`). -/
def PortS.lockLane (lane peer : Nat) (inv : Bool) (now k : Nat) (x : PortS) : PortS :=
  { x with
    lanes := AMap.put lane { lock := true, inverted := inv, peer := peer, signal := some true, scr := Config.rxScrambler k % 2 ^ 58,
                             level := Config.rxLevel k % 4 } x.lanes
    firstLock := match x.firstLock with | some t => some t | none => some now }

/-- LANE_LOCK (R79, R81): a lane that locks in CAP enters the RX_MAP of the blocks sent. -/
def State.laneLock (p : Port) (lane peer : Nat) (inv : Bool) (s : State) : State :=
  let x := s.port p
  if x.tstate == .off || x.tstate == .prbs || x.tstate == .quiet || x.tstate == .step || bit x.excluded lane || x.gap then s
  else
    let (k, s) := s.draw
    let s := s.modPort p (PortS.lockLane lane peer inv s.now k)
    let x := s.port p
    if (x.tstate = .huntFull ∨ x.tstate = .huntHalf) ∧ 4 ≤ x.locked.length then s.enterCap p
    else if x.tstate = .cap then s.capSent p
    else s

/-- LANE_LOCK_LOSS (R80, R84). -/
def State.laneLoss (p : Port) (lane : Nat) (s : State) : State :=
  let x := s.port p
  if !(AMap.get lane ({} : LaneS) x.lanes).lock then s
  else
    let s := s.modPort p (fun x => { x with lanes := AMap.put lane { (AMap.get lane {} x.lanes) with lock := false, signal := some true } x.lanes })
    if x.tstate = .cap ∨ x.tstate = .step then s.relock p
    else if x.tstate = .active then (s.relock p).faultE (22 + 4 * portNo p) (portNo p) [] lane
    else s

/-- LOSS_OF_SIGNAL (R80): a port that hunts goes on hunting at its rate (R78); the silence of a step-up is no loss. -/
def State.lossOfSignal (p : Port) (s : State) : State :=
  let x := s.port p
  if x.tstate = .cap ∨ (x.tstate = .step ∧ x.stepping = false) ∨ x.tstate = .active then
    let s := if x.tstate = .active then (s.raise (Reg.LINK_STATUS p) F.LINK_STATUS_RETRAIN).bump (portSlot p 34) 1 else s
    (s.train p (s.lastRate p)).modPort p PortS.silent
  else if x.tstate = .huntFull ∨ x.tstate = .huntHalf ∨ x.tstate = .down then
    (s.modPort p PortS.silent).modPort p (fun x => { x with firstLock := none })
  else s

/-- CLOCK_LANE_SILENT (R75, R80). -/
def State.clockSilent (p : Port) (s : State) : State :=
  if s.fwdClk p then s.modPort p (fun x => { x with clkLive := false, clk := false }) else s

/-- DOWN_ENTRY (R506). -/
def State.downEntry (p : Port) (s : State) : State :=
  let x := s.port p
  let n := x.locked.length
  if (x.tstate = .huntFull ∨ x.tstate = .huntHalf) ∧ x.stepping = false ∧ 1 ≤ n ∧ n < 4 then s.goDown p else s

/-- DOWN_RETRY (R506). -/
def State.downRetry (p : Port) (s : State) : State := if (s.port p).tstate = .down then s.freshHunt p else s

/-! ### The capability exchange (R81 to R86, R90) -/

/-- R13, R83: whether the partner's PORT and ROLE fields join a trunk port of the manager against R11: east of it lies a branch's west port, west of
it a branch's east port. -/
def State.capMiswired (s : State) (p : Port) (b : List Byte) : Bool :=
  let f := leAt b 5 1
  s.isManager && ((p == .e && (bits f 3 2 != 3 || bits f 1 0 != 1)) || (p == .w && (bits f 3 2 != 2 || bits f 1 0 != 1)))

/-- A CAP block that arrives on a port. -/
def State.capBlock (p : Port) (b : List Byte) (s : State) : State :=
  if (s.port p).tstate ≠ .cap ∨ b.length ≠ 32 ∨ leAt b 0 1 ≠ 0x82 ∨ leAt b 28 4 ≠ crc32c (b.take 28) then s
  else
    let s := s.raiseIf (s.capMiswired p b && (s.port p).peerCap != b) Reg.TOPO_STATUS F.TOPO_STATUS_MISWIRE
    let s := (s.modPort p (fun x => { x with peerCap := b, gotCap := true, gotSeen := x.gotSeen || bit (leAt b 3 1) 6 })).capSent p
    let both := s.fld Reg.IDENT_NDL_CAP F.IDENT_NDL_CAP_VERSIONS &&& (leAt b 2 1 % 8)
    if both = 0 then ((s.raise (Reg.LINK_STATUS p) F.LINK_STATUS_CAP_ERR).goDown p).fault (23 + 4 * portNo p) (portNo p) []
    else s.modPort p (fun x => { x with version := if bit both 2 then 2 else if bit both 1 then 1 else 0 })

/-- CAP_TIMEOUT (R81). -/
def State.capTimeout (p : Port) (s : State) : State := if (s.port p).tstate = .cap then s.relock p else s

/-- R84: the width that two lane maps allow; 0 for none. -/
def widthOf (a b : Nat) : Nat :=
  let n := min (ones 8 a) (ones 8 b)
  if 8 ≤ n then 8 else if 6 ≤ n then 6 else if 4 ≤ n then 4 else 0

/-- Whether sequence `a` lies in the `n` numbers from `b` on, modulo 4,096. -/
def seqIn (a b n : Nat) : Bool := decide ((a + 4096 - b % 4096) % 4096 < n)

/-- The rows of a replay buffer from sequence `r` on. -/
def rowsFrom (r : Nat) (b : List (Nat × Msg)) : List (Nat × Msg) := b.filter (fun m => seqIn m.1 r 2048)

/-- The CREDIT message that grants credits (R119, R120). -/
def State.creditMsg (s : State) (c : Credits) : Msg :=
  { op := .credit, h := s.hdrTo 0 false .switch 0 0 0 0, words := c.hdr ++ c.dat }

/-- A replay marker that a port sends: ACK, NAK or REPLAY of a sequence (R87, R88). -/
def State.markerMsg (s : State) (p : Port) (op : MOp) (seq : Nat) : Msg :=
  { op := op, h := { s.hdrTo 0 false .switch 0 0 0 0 with port := p }, addr := seq }

/-- A message leaves a port in a row of its own that takes no sequence number: a replay marker, or a row that is sent again (R87, R88). -/
def State.leave (p : Port) (m : Msg) (s : State) : State :=
  (if m.op = .quiet then s else { s with net.tx := s.net.tx ++ [(p, m)] }).layRow p m.blocks

/-- Sends a replay marker, which takes no row of its own (R87, R88). -/
def State.marker (p : Port) (op : MOp) (seq : Nat) (s : State) : State := s.leave p (s.markerMsg p op seq)

/-- Rows leave again in order (R88, R90). -/
def State.leaveAll (p : Port) (rows : List (Nat × Msg)) (s : State) : State := forEach rows (fun r => State.leave p r.2) s

/-- Whether the exchange found the partner of before, with its rows to resume (R90). -/
def PortS.samePartner (x : PortS) : Bool := x.partner == some (capSerial x.peerCap) && bit (leAt x.peerCap 18 2) 15

/-- R82: RX_MAP of the capability block that a port sent last. -/
def PortS.sentMap (x : PortS) : Nat := leAt x.ownCap 4 1

/-- A port with the sequences, buffers and credits it comes up with: its own, or those of the host port that the other half held and that is
not up any more (R66, R90); what waits at the other half waits here (R105). -/
def State.upBase (s : State) (p : Port) : PortS :=
  let o := s.port (otherHalf p)
  if s.hostSide p && !s.portUp (otherHalf p) then
    (if o.carry then (s.port p).takeOver o else { s.port p with wait := (s.port p).wait ++ o.wait })
  else s.port p

/-- What a port is once it is ACTIVE, beside its sequences, buffers and credits (R81, R84). -/
def State.upPort (s : State) (p : Port) : PortS :=
  let x := s.upBase p
  let w := widthOf x.sentMap (leAt x.peerCap 4 1)
  { x with
    tstate := .active, lastFull := x.full, width := w, inUse := lowestBits w (leAt x.peerCap 4 1),
    bond := if s.hostSide p then (s.port p).bond || !s.portUp (otherHalf p) else false, carry := s.hostSide p && !s.portUp (otherHalf p),
    preTx := bit (leAt x.peerCap 3 1) 5, preRx := bit (leAt x.ownCap 3 1) 5, clk := s.fwdClk p && x.clkLive,
    partner := some (capSerial x.peerCap), firstLock := none, waking := none, gap := false, sleeping := false, sent := 0, nak := none, nakRows := 0,
    gotReplay := false, nakSeen := none }

/-- R67: a half of the host port joins the half that is up; crown A then holds what belongs to the port. -/
def State.joinHalf (p : Port) (x : PortS) (s : State) : State :=
  if p = .ca then (s.setPort .ca (x.takeOver (s.port .cb))).modPort .cb (fun y => { y with bond := true, carry := false, wait := [] })
  else (s.setPort p { x with carry := false, wait := [] }).modPort (otherHalf p) (fun y => { y with bond := true, carry := true, wait := y.wait ++ x.wait })

/-- A half of the host port that stays idle beside the active one until that retrains (R67); what waited at it waits there. -/
def State.idleHalf (p : Port) (x : PortS) (s : State) : State :=
  (s.setPort p { x with wait := [] }).modPort (otherHalf p) (fun y => { y with wait := y.wait ++ x.wait })

/-- R178: whether rows hold a request or response of a firm class. -/
def firmRows (rows : List (Nat × Msg)) : Bool := rows.any (fun r => decide (r.2.op.cls ≤ 1) && decide (r.2.h.sc.val < 4))

/-- R90: rows that the partner has not taken are sent again. -/
def State.resumeRows (p : Port) (x : PortS) (s : State) : State :=
  let rows := rowsFrom (leAt x.peerCap 18 2 % 4096) x.buffer
  when (firmRows rows) (State.exclude 0) (when (!rows.isEmpty) (State.bump (portSlot p 33) 1) ((s.setPort p { x with buffer := rows }).leaveAll p rows))

/-- R90: the devices that the manager reaches through a trunk port. -/
def State.devicesBy (s : State) (p : Port) : List Nat :=
  if s.isManager && (p == .e || p == .w) then
    (s.topo.ents.filter (fun e => e.2.valid && e.1 != 0 && s.trunkPort e.1 == p)).map (·.1)
  else []

/-- R90, R120: a link begins anew: sequences at 0, empty buffers, and the credits granted. The notices of the discarded buffer wait to be sent
again (R130), and the manager completes what it had sent through the port with a path reset (R24). DESIGN CHOICE: R120 and R386 each name a
first sequenced message; the AWAKE of a device that has returned to RUN goes before CREDIT, which needs no credit either. -/
def State.freshLink (p : Port) (x : PortS) (s : State) : State :=
  let g := grantFor (s.hostSide p) x.version
  let had := (s.upBase p).partner.isSome
  when had (fun s => s.pathReset (s.devicesBy p)) ((s.setPort p { x with
    txSeq := 0, buffer := [], resend := [], rxNext := 0, rxRows := 0, rounds := 0, held := {}, granted := g, back := {},
    wait := x.wait.filter (fun m => m.op == .pwr) ++ s.creditMsg g :: ((x.buffer.filter (fun r => r.2.op == .ntc)).map (·.2) ++
      x.wait.filter (fun m => m.op != .credit && m.op != .pwr)) }).raiseIf had
      (Reg.LINK_STATUS p) F.LINK_STATUS_PEER_CHANGED)

/-- The port enters ACTIVE (R81, R90, R120): from its CAP frames on it repeats IDLE rows between those that carry something. -/
def State.enterActive (p : Port) (s : State) : State :=
  let s := s.airTo p (some .idle)
  ((if s.hostSide p && s.portUp (otherHalf p) then (if (s.upPort p).bond then s.joinHalf p (s.upPort p) else s.idleHalf p (s.upPort p))
    else
      let t := when (s.hostSide p) (fun s => s.modPort (otherHalf p) (fun y => { y with carry := false, wait := [] })) s
      if (s.upBase p).samePartner then t.resumeRows p (s.upPort p) else t.freshLink p (s.upPort p)).portFlags p).flush p

/-- CAP_EXCHANGE_DONE (R81, R84, R85), by what the two blocks exchanged last show. -/
def State.capDone (p : Port) (s : State) : State :=
  let x := s.port p
  if x.tstate = .cap ∧ x.gotCap ∧ x.gotSeen then
    let f := leAt x.peerCap 3 1
    let own := leAt x.ownCap 3 1
    if widthOf x.sentMap (leAt x.peerCap 4 1) = 0 then s.goDown p
    else if x.full = false ∧ bit f 0 ∧ bit f 1 ∧ bit own 0 ∧ bit own 1 ∧ bit f 7 = false ∧ bit own 7 = false then
      (s.modPort p (fun x => { x with tstate := .step, stepping := false })).sendState p
    else s.enterActive p
  else s

/-- STEP_FRAMES_DONE: the port goes silent (R85). -/
def State.stepSilent (p : Port) (s : State) : State :=
  if (s.port p).tstate = .step then (s.modPort p (fun x => { x with stepping := true })).sendState p else s

/-- STEP_SILENCE_END: the port hunts at 112 Gbit/s (R85). DESIGN CHOICE: TSTATE reads HUNT_FULL during this hunt, not STEP. -/
def State.stepHunt (p : Port) (s : State) : State :=
  if (s.port p).tstate = .step ∧ (s.port p).stepping then (s.hunt p true).modPort p (fun x => { x with stepping := true }) else s

/-- STEP_UP_FAIL (R86). -/
def State.stepFail (p : Port) (s : State) : State :=
  let x := s.port p
  if x.tstate = .huntFull ∧ x.stepping then
    let n := capSerial x.peerCap
    ((s.hunt p false).modPort p (fun x => { x with noStep := if x.noStep.contains n then x.noStep else x.noStep ++ [n] })).bump (portSlot p 35) 1
  else s

/-! ### Writes of `LINK_x.CTL` (R86, R94, R95) -/

/-- RETRAIN: a port in training or in traffic retrains at its rate. -/
def State.ctlRetrain (p : Port) (s : State) : State :=
  let t := (s.port p).tstate
  if t = .cap ∨ t = .step ∨ t = .active ∨ t = .huntFull ∨ t = .huntHalf then s.relock p else s

/-- STEP_UP. -/
def State.ctlStepUp (p : Port) (s : State) : State := (s.modPort p (fun x => { x with noStep := [] })).ctlRetrain p

/-- ENABLE as written: a port in OFF starts, an east or west one with the relays closed after they have opened; a port is turned off, but for
an east or west port whose other port is driven (R95), and with it the relays close (R26). -/
def State.ctlEnable (p : Port) (on : Bool) (s : State) : State :=
  let side : Bool := p == .e || p == .w
  if on then (if side && s.awake && s.power.alive && !s.power.relays then s.openRelays else s.startPort p)
  else
    let held : Bool := match p with | .e => (s.port .w).tstate != .off | .w => (s.port .e).tstate != .off | _ => false
    if held then s else when side State.closeRelays (s.goOff p)

/-- MODE takes effect (R94). -/
def State.ctlMode (p : Port) (mode : Nat) (s : State) : State :=
  let x := s.port p
  if mode = 1 then
    if x.tstate = .off ∨ x.tstate = .prbs then s
    else
      let s := s.leaveActive p false
      ((s.modPort p (fun x => { x with tstate := .prbs, stepping := false })).sendState p).portFlags p
  else if x.tstate = .prbs then s.train p (s.lastRate p) else s

/-- CLR of `LINK_x.PRBS_CTL`. -/
def State.prbsClear (p : Port) (s : State) : State := forEach (List.range 8) (fun i s => s.setReg (Reg.LINK_PRBS_ERR p i) 0) s

/-! ### Rows and replay (R71 to R74, R87 to R89) -/

/-- The receive lanes of a half that carry traffic in a port `w` lanes wide: those of the `w` lowest lanes of the partner in the RX_MAP sent
(R84), in their order. -/
def PortS.rxLanes (w : Nat) (x : PortS) : List Nat :=
  ((List.range 8).filter (bit (lowestBits w x.sentMap))).filterMap (fun i => (x.locked.find? (fun l => l.2.peer == i)).map (·.1))

/-- R66, R73: the receive lanes that carry the traffic of a port, in logical order. -/
def State.rxLanes (s : State) (p : Port) : List (Port × Nat) :=
  (s.halves p).flatMap (fun h => ((s.port h).rxLanes (s.useWidth p)).map (fun l => (h, l)))

/-- R178: whether the manager has a firm request outstanding whose response a lost row may hold (DEDUCED: the row cannot be read). -/
def State.firmVia (s : State) (p : Port) : Bool :=
  s.mgr.reqs.any (fun r => decide (r.2.sc < 4) && (s.devicesBy p).contains r.2.dev)

/-- R88, R89: a NAK for the next expected row: a round of replay; the fourth retrains the port, the third retraining within 1 s takes the
link down. DESIGN CHOICE: of a bonded host port the half that holds its sequences retrains, whichever half's lane failed: R89 names the receiving
end alone. -/
def State.sendNak (p : Port) (s : State) : State :=
  let x := s.port p
  let again := x.nak.isSome && !x.gotReplay
  let x := { x with nak := some x.rxNext, nakRows := 0, gotReplay := false, rounds := if again then x.rounds else x.rounds + 1 }
  let s := ((s.setPort p x).marker p .nak x.rxNext).bump (portSlot p 32) 1
  let s := when (s.firmVia p) (State.exclude 0) s
  if again ∨ x.rounds < 4 then s
  else
    let l := (x.retrains.filter (fun t => s.now < t + 1000000000)) ++ [s.now]
    let s := s.modPort p (fun x => { x with rounds := 0, retrains := l })
    if l.length < 3 then s.relock p
    else ((s.modPort p (fun x => { x with retrains := [] })).raise (Reg.LINK_STATUS p) F.LINK_STATUS_REPLAY_LIMIT |>.goDown p).faultE (21 + 4 * portNo p)
      (portNo p) [] (((s.rxLanes p).map (·.2)).headD 0)

/-- R66: the port or half, and the receive lane, of a frame of a row: logical lanes 8 to 15 of the host port are crown B's. -/
def State.rxLane (s : State) (p : Port) (n : Nat) : Option (Port × Nat) :=
  if s.hostSide p then (if n < 8 then some (.ca, n) else if n < 16 then some (.cb, n - 8) else none)
  else if n < 8 then some (p, n) else none

/-- A frame as a lane receives it: the symbols corrected, or none for an uncorrectable one; its blocks; the lane after it. -/
structure FrameS where
  port   : Port
  lane   : Nat
  got    : Option Nat
  blocks : List WBlock
  after  : LaneS
  deriving DecidableEq, Repr

/-- R79: the last 320 headers after five more: those of a corrected frame as they are, those of an uncorrectable one as invalid. -/
def headersAfter (hdrs : Nat) (good : Bool) (bs : List WBlock) : Nat :=
  bs.foldl (fun h b => (2 * h + b2n (!good || b.header == 0 || b.header == 3)) % 2 ^ 320) hdrs

/-- Whether a port receives frames. -/
def PortS.hears (x : PortS) : Bool := !(x.tstate == .off || x.tstate == .prbs || x.tstate == .quiet || (x.tstate == .step && x.stepping))

/-- R70 to R73, R79: what a locked lane makes of the levels of a frame. -/
def State.frameRx (s : State) (p : Port) (f : Nat × List Nat) : Option FrameS :=
  match s.rxLane p f.1 with
  | none => none
  | some (q, l) =>
    let x := s.port q
    let a := AMap.get l ({} : LaneS) x.lanes
    if !a.lock || !x.hears then none
    else
      let raw := frameIn f.2 (if x.preRx && x.tstate == .active then some a.level else none)
      let dec := frameDecode raw
      let (bs, scr) := frameBlocks ((dec.map (·.1)).getD raw) a.scr
      some { port := q, lane := l, got := dec.map (·.2), blocks := if dec.isSome then bs else [],
             after := { a with scr := scr, level := f.2.getLastD 0, hdrs := headersAfter a.hdrs dec.isSome bs } }

/-- R72, R97: what the decode of frames counts, with uncorrectable ones as fault events, and R74: the bad blocks of corrected frames. -/
def State.rowErrors (got : List FrameS) (s : State) : State :=
  forEach got (fun f s =>
    let s := s.modPort f.port (fun x => { x with lanes := AMap.put f.lane f.after x.lanes })
    let s := when (f.blocks.any WBlock.bad) (State.bump (portSlot f.port 30) (f.blocks.countP WBlock.bad)) s
    match f.got with
    | some n => when (n != 0) (State.bump (portSlot f.port f.lane) n) s
    | none => (s.bump (portSlot f.port (8 + f.lane)) 1).faultE (20 + 4 * portNo f.port) (portNo f.port) [] f.lane) s

/-- R73: the blocks of a row in the order of the port's stream. -/
def rowBlocks (l : List FrameS) : List WBlock := (List.range 5).flatMap (fun j => l.map (fun f => f.blocks.getD j idleBlock))

/-- The frames of a row on the lanes that carry a port's traffic: none where one is missing. -/
def State.rowTraffic (s : State) (p : Port) (got : List FrameS) : Option (List FrameS) :=
  let l := (s.rxLanes p).filterMap (fun e => got.find? (fun f => f.port == e.1 && f.lane == e.2))
  if s.portUp p && l.length == (s.rxLanes p).length && !l.isEmpty then some l else none

/-- R87, R88: a row without an uncorrectable frame: a row that is discarded until the replay, a sequenced row, or a row that is not one. -/
def PortS.rowTake (sequenced : Bool) (x : PortS) : PortS :=
  if x.nak.isSome ∧ x.gotReplay = false then { x with nakRows := x.nakRows + 1 }
  else if sequenced then
    { x with rxNext := (x.rxNext + 1) % 4096, rxRows := x.rxRows + 1, nak := none, nakRows := 0, gotReplay := false, rounds := 0, retrains := [] }
  else { x with rxRows := x.rxRows + 1 }

/-- R87, R88, R100, R101: the frames of a row of traffic: one with an uncorrectable frame draws a NAK; headers of an accepted row that no port takes
are discarded. -/
def State.rowServe (p : Port) (l : List FrameS) (s : State) : State :=
  let hold : Bool := (s.port p).nak.isSome && !(s.port p).gotReplay
  if l.any (fun f => f.got.isNone) then (if hold then s.modPort p (fun x => { x with nakRows := x.nakRows + 1 }) else s.sendNak p)
  else
    let b := rowBlocks l
    let n := if hold then 0 else b.countP WBlock.refused
    forEach (List.range n) (fun _ => State.protoErr p) (s.modPort p (PortS.rowTake (b.any WBlock.sequenced)))

/-- R79: a lane of which LOSS_HDRS of the last 320 headers are invalid loses lock (R80). -/
def State.rowLoss (got : List FrameS) (s : State) : State :=
  forEach got (fun f s =>
    if Config.LOSS_HDRS ≤ ones Config.LOCK_HDRS (AMap.get f.lane ({} : LaneS) (s.port f.port).lanes).hdrs then s.laneLoss f.port f.lane else s) s

/-- A row of frames arrives, each by its logical lane (R66, R70 to R74, R79, R87, R88). -/
def State.rowIn (p : Port) (frames : List (Nat × List Nat)) (s : State) : State :=
  if !(frames.all (fun f => f.2.length == 685 && f.2.all (fun v => decide (v < 4)))) then s
  else
    let got := frames.filterMap (s.frameRx p)
    let s := s.rowErrors got
    ((match s.rowTraffic (s.inPort p) got with
      | some l => s.rowServe (s.inPort p) l
      | none => s)).rowLoss got

/-- ACK_DUE: an ACK leaves, and with it the credits to return (R87, R120). -/
def State.ackOut (p : Port) (s : State) : State :=
  let x := s.port p
  if x.tstate ≠ .active then s
  else
    let s := (s.marker p .ack x.rxNext).modPort p (fun x => { x with rxRows := 0 })
    if x.back.none? then s
    else (s.modPort p (fun x => { x with back := {}, granted := x.granted.addAll x.back.hdr x.back.dat, wait := x.wait ++ [s.creditMsg x.back] })).flush p

/-- NAK_REPEAT (R88). -/
def State.nakAgain (p : Port) (s : State) : State :=
  let x := s.port p
  if x.tstate = .active ∧ x.nak.isSome ∧ x.gotReplay = false then s.sendNak p else s

/-- R385: a PWR ENTER marker is acknowledged on a port once its row has left the replay buffer. -/
def State.pwrAcked (p : Port) (s : State) : State :=
  if s.power.acks.contains p && !((s.port p).buffer.any (fun m => m.2.op == .pwr)) && !((s.port p).wait.any (fun m => m.op == .pwr)) then
    { s with power.acks := s.power.acks.filter (· != p) }
  else s

/-- A port whose partner has accepted the rows before `seq` (R87). -/
def PortS.acked (seq : Nat) (x : PortS) : PortS :=
  { x with buffer := rowsFrom seq x.buffer, nakSeen := if x.nakSeen = some seq then some seq else none }

/-- An ACK marker frees the rows before `seq` (R87). -/
def State.ackIn (p : Port) (seq : Nat) (s : State) : State :=
  if (s.port p).tstate ≠ .active ∨ !(seq == (s.port p).txSeq || (s.port p).buffer.any (fun m => m.1 == seq)) then s
  else (((s.modPort p (PortS.acked seq)).flush p).ntcRetry).pwrAcked p

/-- A NAK marker: the rows from `seq` on are sent again (R88). -/
def State.nakIn (p : Port) (seq : Nat) (s : State) : State :=
  let x := s.port p
  if x.tstate ≠ .active ∨ x.nakSeen = some seq ∨ !(seq == x.txSeq || x.buffer.any (fun m => m.1 == seq)) then s
  else
    let s := ((s.modPort p (fun x => { x with nakSeen := some seq })).marker p .replay seq).bump (portSlot p 33) 1
    when (firmRows (rowsFrom seq x.buffer)) (State.exclude 0) (s.leaveAll p (rowsFrom seq x.buffer))

/-- A REPLAY marker (R88). -/
def State.replayIn (p : Port) (seq : Nat) (s : State) : State :=
  let x := s.port p
  if x.tstate = .active ∧ x.nak = some seq then s.modPort p (fun x => { x with gotReplay := true, nakRows := 0 }) else s

/-- A port or half that is ACTIVE goes quiet. -/
def State.quietHalf (p : Port) (s : State) : State :=
  if (s.port p).tstate = .active then ((s.modPort p (fun x => { x with tstate := .quiet })).sendState p).portFlags p else s

/-- A QUIET block (R74, R386): the link goes quiet. -/
def State.quietIn (p : Port) (s : State) : State := forEach (s.halves (s.inPort p)) State.quietHalf s

/-- A CREDIT message (R119, R120). -/
def State.creditIn (p : Port) (hs ds : List Nat) (s : State) : State :=
  match s.accept p .credit 0 true with
  | (s, true) => ((s.modPort p (fun x => { x with held := x.held.addAll hs ds })).flush p).ntcRetry
  | (s, false) => s

/-! ### Eye scans (R91, R92, R96) -/

/-- The length of the run of set bits of `m` that includes bit 32. -/
def runAt32 (m : Nat) : Nat :=
  if !bit m 32 then 0
  else
    let up := ((List.range 31).takeWhile (fun k => bit m (33 + k))).length
    let down := ((List.range 32).takeWhile (fun k => bit m (31 - k))).length
    1 + up + down

/-- R92: EH in mV, EW in mUI, MARGIN. -/
def eyeFigures (volts phase : Nat) : Nat × Nat × Nat :=
  let eh := 2 * runAt32 volts
  let ew := runAt32 phase * 15625 / 1000
  (eh, ew, min 255 (min (100 * eh / 12) (100 * ew / 125)))

/-- A word of `LINK_x.EYE_RES`. -/
def eyeWord (eh ew m : Nat) : Word := BitVec.ofNat 32 (2 ^ 26 + m * 2 ^ 18 + ew * 2 ^ 8 + min eh 255)

/-- The eyes that a code of EYE selects. -/
def eyeSet (e : Nat) : List Nat := if e = 3 then [0, 1, 2] else [e]

/-- START of `LINK_x.EYE_CTL`. -/
def State.eyeStart (p : Port) (s : State) : State :=
  if (s.port p).scan.isSome then s
  else
    let w := s.reg (Reg.LINK_EYE_CTL p)
    s.modPort p (fun x => { x with scan := some { lane := F.LINK_EYE_CTL_LANE.get w, eyes := F.LINK_EYE_CTL_EYE.get w,
                                                  map := F.LINK_EYE_CTL_MAP.get w == 1, bist := false, thr := F.LINK_EYE_CTL_THR.get w } })

/-- R91: the points that pass: at most THR disagreements. -/
def passMask (thr : Nat) (l : List Nat) : Nat := l.zipIdx.foldl (fun m e => if e.1 ≤ thr then m + 2 ^ e.2 else m) 0

/-- EYE_SCAN_DONE (R91, R92). DESIGN CHOICE: of eyes that share the lowest MARGIN, EYE_MIN holds the lower one. -/
def State.eyeDone (p : Port) (obs : List EyeObs) (s : State) : State :=
  match (s.port p).scan with
  | none => s
  | some sc =>
    let s := s.modPort p (fun x => { x with scan := none })
    let s := forEach (List.range 4) (fun e s => s.setReg (Reg.LINK_EYE_RES p e) 0) s
    let res := (eyeSet sc.eyes).filterMap (fun e => (obs.find? (fun o => o.eye.val == e)).map (fun o => (e, eyeFigures (passMask sc.thr o.volts) (passMask sc.thr o.phase))))
    let s := forEach res (fun r s => s.setReg (Reg.LINK_EYE_RES p r.1) (eyeWord r.2.1 r.2.2.1 r.2.2.2)) s
    let s := match res with
      | [] => s
      | a :: l =>
        let m := l.foldl (fun (b : Nat × Nat × Nat × Nat) (r : Nat × Nat × Nat × Nat) => if r.2.2.2 < b.2.2.2 then r else b) a
        s.setReg (Reg.LINK_EYE_RES p 3) (eyeWord m.2.1 m.2.2.1 m.2.2.2)
    let s := if sc.map then
        forEach (obs.filter (fun o => (eyeSet sc.eyes).contains o.eye.val)) (fun o s =>
          s.modPort p (fun x => { x with eyeMap := (o.map.take 64).zipIdx.foldl (fun m r => AMap.put (64 * o.eye.val + r.2) (passMask sc.thr r.1) m) x.eyeMap })) s
      else s
    s.raise (Reg.LINK_STATUS p) F.LINK_STATUS_EYE_DONE

/-! ### Waking a partner (R390) -/

/-- WAKE_RETRY: no lock T_WAKE_RETRY after the waking port started. -/
def State.wakeRetry (p : Port) (s : State) : State :=
  let x := s.port p
  if x.waking.isSome ∧ (x.tstate = .huntFull ∨ x.tstate = .huntHalf) ∧ x.gap = false ∧ x.locked.isEmpty then
    (((s.modPort p (fun x => { x with gap := true })).sendState p).raise Reg.PWR_STATUS F.PWR_STATUS_WAKE_RETRY).bump (portSlot p 37) 1
  else s

/-- WAKE_GAP_END. -/
def State.wakeGapEnd (p : Port) (s : State) : State :=
  if (s.port p).gap then (s.modPort p (fun x => { x with gap := false, waking := some s.now })).sendState p else s

end Sys2Proof.Machine
end

