-- ==== Sys2Proof/Machine/Chan.lean ====
section
/-! DEFINITION. What happens in a channel over time: refresh slots and the multiplier (R299 to R303), self-refresh (R304 to R306), the
rewriting of dropped segments (R310), saturation (R191), bursts (R144), and lone halves of merge entries (R151). -/

namespace Sys2Proof.Machine

/-! ### Bursts and commands -/

/-- LINE_READ_DONE: a burst returns with an error pattern. -/
def State.burstDone (id : Nat) (errors : List (Nat × Byte)) (s : State) : State :=
  match AMap.find id s.stack.bursts with
  | none => s
  | some b =>
    let s := { s with stack.bursts := AMap.del id s.stack.bursts }
    let (s, r) := s.decode b.acc.place errors b.data b.md
    let s := if b.acc.firm ∧ slowDecode errors then s.exclude b.acc.sc else s
    (s.readBack b.acc r errors).relevel b.acc.place.chan

/-- CHANNEL_PICK: the next row or column command of a pseudo-channel. -/
def State.chanPick (k : Nat) (column : Bool) (s : State) : State :=
  if s.issues (k / 2) then
    let s := s.relevel (k / 2)
    if column then s.pickCol k else s.pickRow k
  else s

/-! ### Refresh (R299 to R303) -/

/-- R299, R402: the multiplier that a channel's refresh temperature calls for. -/
def State.multFor (s : State) (n : Nat) : Nat :=
  let c := s.chan n
  if s.blindDie (3 + 5 * (n / 8) + n % 8 / 2) then 4 else if 1000 < c.temp then 4 else if 850 < c.temp then 2 else 1

/-- Whether no command may issue on a channel: it enters or leaves self-refresh, its tier is in a quiet window, or it switches to half width
(R292, R303, R346). -/
def State.silent (s : State) (n : Nat) : Bool :=
  let c := s.chan n
  c.pstate == .entering || c.pstate == .exiting || decide (s.now < c.quietTill) || c.switchAt.isSome

/-- The first cycle at which a refresh may issue on a channel (R292, R303). -/
def State.refreshFrom (s : State) (n : Nat) : Nat :=
  let c := s.chan n
  max (max s.now c.quietTill) (if c.pstate = .exiting then c.exitAt + Config.tXS else 0)

/-- A refresh is postponed: the bank's debt rises by one (R302). -/
def State.postpone (k pos : Nat) (s : State) : State :=
  let n := k / 2
  let b := s.bank k pos
  let full := decide (Config.REF_DEBT_MAX ≤ b.debt + 1)
  let s := (s.modBank k pos (fun b => { b with debt := b.debt + 1, paying := b.paying || full })).bump (chSlot n 2) 1
  if full then (s.raise (Reg.CH_STATUS n) F.CH_STATUS_REF_DEBT).fault (62 + 5 * (n / 8)) n [] else s

/-- REFRESH_DUE: a bank's refresh slot (R300, R302). At REF_DEBT_MAX the refresh issues even ahead of a firm access that has waited for one, at the
first cycle at which the channel may issue a command at all; of a channel that switches to half width the debt stands. -/
def State.refreshDue (k pos : Nat) (s : State) : State :=
  let n := k / 2
  let c := s.chan n
  if c.retired || c.pstate == .selfRefresh || c.pstate == .retired || !s.awake || (s.tier (n / 8)).hbLost then s
  else
    let s := (s.modChan n (fun c => { c with mult := max c.mult (s.multFor n) })).chFlags n
    let b := s.bank k pos
    let waited := s.waitedAt k pos
    if (waited || s.silent n) && decide (b.debt < Config.REF_DEBT_MAX) then s.postpone k pos
    else if c.switchAt.isSome then s
    else
      let s := if waited then (s.bump (chSlot n 38) 1).exclude 0 else s
      s.doRefresh k pos b.debt (s.refreshFrom n)

/-- REFRESH_RATE_FALL (R300). -/
def State.refreshFall (n : Nat) (s : State) : State :=
  let c := s.chan n
  if c.coolAt.isSome ∧ 1 < c.mult then
    (s.modChan n (fun c =>
      let m := c.mult / 2
      { c with mult := m, coolAt := if m = 2 ∧ c.temp ≤ 820 then some s.now else none })).chFlags n
  else s

/-! ### Self-refresh (R304 to R306) -/

/-- The lines of a copy that lie in different channels: all those of a page, one of a bank or block. -/
def CopyJob.lines (c : CopyJob) : List Nat := match c.kind with | .page _ _ => List.range 32 | _ => [0]

/-- Whether a copy runs for a channel, as its source or its target. -/
def State.copyAt (s : State) (n : Nat) : Bool :=
  s.pool.jobs.any (fun j => j.2.lines.any (fun i => (s.copyTarget j.2 i).chan == n ||
    (match s.copySource j.2.kind i with | some p => p.chan == n | none => false)))

/-- Whether an initialisation of this device's lines runs (R270). -/
def State.initRuns (s : State) : Bool := s.prot.jobs.any (fun j => j.dev == s.num && j.init && j.sent)

/-- What must hold together for IDLE_SR before a channel enters self-refresh (R304). -/
def State.srReady (s : State) (n : Nat) : Bool :=
  s.fld (Reg.CH_CTL n) F.CH_CTL_SR_EN == 1 && !s.pinned n && s.chanIdle n && !s.copyAt n && !s.initRuns

/-- IDLE_SR of a tier in ns (R322). -/
def State.idleSr (s : State) (t : Nat) : Nat := s.fld (Reg.CMN_IDLE_SR t) F.CMN_IDLE_SR_IDLE_SR * 100

/-- SELF_REFRESH_ENTRY: the channel has been idle for IDLE_SR (R304, R305); no command issues in a quiet window (R303). -/
def State.srEntry (n : Nat) (s : State) : State :=
  let c := s.chan n
  if c.pstate == .active && s.awake && s.srReady n && decide (c.idleAt + s.idleSr (n / 8) ≤ s.now) && decide (c.quietTill ≤ s.now) then s.enterSr n
  else s

/-- SELF_REFRESH_EXIT (R305). -/
def State.srExit (n : Nat) (s : State) : State :=
  let c := s.chan n
  if s.awake && decide (s.power.pstate < 2) && decide (c.srAt + Config.tSR_MIN ≤ s.now) && !(s.tier (n / 8)).hbLost then s.startSrExit n else s

/-- What one cycle does to the channels: entries and exits issue (R305), and what R304 asks for restarts the idle time where it fails. -/
def State.chanTick (s : State) : State :=
  if s.awake then
    forEach (s.stack.chans.map (·.1)) (fun n s =>
      let s := s.srTick n
      if (s.chan n).pstate = .active ∧ s.srReady n = false then s.modChan n (fun c => { c with idleAt := s.now }) else s) s
  else s

/-- SELF_REFRESH_EXIT_DONE: tXS after the exit issued (R292, R305). DESIGN CHOICE: the pins of a channel that missed a calibration event in
self-refresh are re-measured at the end of its exit (R320 allows 2 µs). -/
def State.srExitDone (n : Nat) (o : TrainObs) (s : State) : State :=
  if (s.chan n).pstate = .exiting ∧ (s.chan n).exitAt + Config.tXS ≤ s.now then
    let again := (s.chan n).remeasure
    let s := (s.modChan n (fun c => { c with pstate := .active, remeasure := false })).chFlags n
    if again then
      let s := forEach [2 * n, 2 * n + 1] (fun k s => s.retune k (s.remeasured k o)) s
      forEach (failingOn o (n / 8) ++ s.unnamed [2 * n, 2 * n + 1] o) State.failElement s
    else s
  else s

/-- Starts the exit of the channels that a pin wakes (R196). -/
def State.pinWake (s : State) : State :=
  forEach (List.range 32) (fun n s => if s.pinned n && decide (s.power.pstate < 2) && s.awake then s.wantSrExit n else s) s

/-- The rewriting of the dropped segments of a channel begins: at row 0, rising (R310). -/
def State.pasrBegin (n keep : Nat) (s : State) : State :=
  (s.modChan n (fun c => { c with pasrInit := some keep, pasrAt := s.now, pasrMark := 0 })).chFlags n

/-- The rewriting of a channel's dropped segments has reached row `r`; what waited for the rows below goes on (R148, R310). -/
def State.pasrReach (n r : Nat) (s : State) : State :=
  match (s.chan n).pasrInit with
  | none => s
  | some keep =>
    let m := (s.chan n).pasrMark
    if r ≤ m then s
    else ((s.fill (.segments n keep m (r - 1)) 0).modChan n (fun c => { c with pasrMark := r })).copyGo.retryWaits

/-- R310: one cycle of the rewritings that run: their pace within T_PASR_INIT is the channels' own. -/
def State.pasrTick (s : State) : State :=
  forEach (s.stack.chans.filter (fun c => c.2.pasrInit.isSome)) (fun c s =>
    s.pasrReach c.1 (min 32768 (Config.pasrRow c.1 (s.now - c.2.pasrAt)))) s

/-- PASR_INIT_DONE: the dropped segments of a channel are rewritten (R310, R148). -/
def State.pasrDone (n : Nat) (s : State) : State :=
  match (s.chan n).pasrInit with
  | none => s
  | some keep =>
    ((((s.fill (.segments n keep (s.chan n).pasrMark 32767) 0).modChan n (fun c => { c with pasrInit := none, pasrMark := 0 })).chFlags n).copyGo).retryWaits

/-! ### Saturation and ages (R187, R191) -/

/-- SATURATION_CLEAR (R191). -/
def State.satClear (n : Nat) (s : State) : State :=
  let s := s.relevel n
  if (s.chan n).levels.all (fun l => decide (l < 2)) then s.unsat n else s

/-! ### Lone halves (R151) -/

/-- MERGE_WAIT_EXPIRY: a lone half commits by a read-modify-write, at the owner of the line or, for a protected line, at the manager. -/
def State.mergeExpiry (dev line : Nat) (s : State) : State :=
  match (if dev = s.num then s.own.merges.find? (fun e => e.line == line && !e.busy) else none) with
  | some e =>
    let s := s.bump (devSlot 84) 1
    if s.mustWait line then { s with own.merges := s.own.merges.map (fun (x : MergeE) => if x.line == line then { x with expires := 0 } else x) }
    else s.mergeRmw e
  | none => match s.mgrMerge dev line with
    | some e => if e.busy then s else (s.bump (devSlot 84) 1).mgrRmw e
    | none => s

end Sys2Proof.Machine
end

