-- ==== Sys2Proof/Machine/Power.lean ====
section
/-! DEFINITION. Power (R374 to R394): the supply, rail faults, the five power states with entry, wake and exit, and the power cap. -/

namespace Sys2Proof.Machine

/-! ### What a loss of power leaves -/

/-- R375, R383: the device without its always-on domain: fuses, the base die's numbers, the flash and the strapped pins are left. -/
def State.unpower (ph : Phase) (vin : Bool) (s : State) : State :=
  { pending := s.pending, now := s.now, tick := s.tick, draws := s.draws,
    id := { role := s.id.role, slot := s.id.slot, serial := s.id.serial, trace := s.id.trace, gradeE := s.id.gradeE },
    power := { phase := ph, vin := vin, resetLow := s.power.resetLow, cold := true },
    net := { air := { rows := s.net.air.rows }, tx := s.net.tx }, que := { flash := s.que.flash, density := s.que.density },
    fuse := { cells := s.fuse.cells, locks := s.fuse.locks, vpgm := s.fuse.vpgm } }

/-- The straps are sampled and the start-slot wait begins (R2, R492). -/
def State.release (role slot : Nat) (s : State) : State :=
  { s with id.role := role, id.slot := slot, power.phase := .slotWait, power.tS := s.now }

/-- An exit from OFF counts as a release of RESET_N, at which the straps are sampled (R2, R492). -/
def State.leaveOff (s : State) : State :=
  if s.power.resetLow then { s with power.phase := .inReset }
  else
    let (n, s) := s.draw
    s.release ((Config.straps n).1 % 4) ((Config.straps n).2 % 64)

/-- VIN_LOSS (R375). -/
def State.vinLoss (s : State) : State := s.unpower .unpowered false

/-- VIN leaves its range or returns into it (R376). -/
def State.vinRange (mv10 : Nat) (s : State) : State :=
  if !s.powered ∨ !s.power.vin then s
  else
    let pl := [0] ++ leBytes 2 mv10
    let s := { s with power.vinNever := false, power.vinBack := none, power.measVin := mv10 % 65536 }
    (((s.raise Reg.PWR_STATUS F.PWR_STATUS_VIN_RANGE).cond Reg.PWR_STATUS F.PWR_STATUS_VIN_OK false).notice 0x13 1 pl).fault 9 0 pl

/-- VIN_IN_RANGE (R376). -/
def State.vinInRange (s : State) : State :=
  if !s.powered ∨ !s.power.vin then s
  else { s with power.vinBack := if s.power.vinNever then none else some s.now }.cond Reg.PWR_STATUS F.PWR_STATUS_VIN_OK true

/-- RAIL_FAULT (R378). -/
def State.railFault (r : Nat) (s : State) : State :=
  if !s.powered then s
  else ((({ s with power.rails := setBits s.power.rails r r 1 }).raise Reg.PWR_STATUS F.PWR_STATUS_RAIL_FAULT).bump (devSlot (107 + r)) 1).fault (3 + r) 0
    [BitVec.ofNat 8 r]

/-! ### Entry (R384, R385) -/

/-- Whether shards run or wait on the device, or a copy runs. -/
def State.entryWaits (s : State) : Bool :=
  (List.range 4).any (fun t => (s.tier t).run.isSome || !(s.tier t).waiting.isEmpty) || !s.pool.jobs.isEmpty

/-- Whether accesses stand in the channels. -/
def State.chansOpen (s : State) : Bool :=
  s.stack.chans.any (fun c => !c.2.admission.isEmpty) || s.stack.tiers.any (fun t => !t.2.buffer.isEmpty) ||
  s.stack.pcs.any (fun k => k.2.banks.any (fun b => !b.2.queue.isEmpty)) || !s.stack.bursts.isEmpty

/-- Whether requests, merge entries or commits, or channel accesses are outstanding (R385 step 1). -/
def State.workOpen (s : State) : Bool :=
  !s.own.reqs.isEmpty || !s.own.merges.isEmpty || !s.own.commits.isEmpty || !s.mgr.merges.isEmpty || !s.mgr.reqs.isEmpty ||
  !s.mgr.ingress.isEmpty || s.chansOpen

/-- The POWER notice: new state, old state, wake source; it leaves at once. -/
def State.powerNotice (new old wake : Nat) (s : State) : State :=
  (s.notice 0x12 0 [BitVec.ofNat 8 new, BitVec.ofNat 8 old, BitVec.ofNat 8 wake]).ntcLeave 0x12

/-- A PWR marker: 1 ENTER, 2 AWAKE. -/
def State.pwrMsg (s : State) (sub code : Nat) : Msg := { op := .pwr, h := s.hdrTo 0 false .switch 0 0 0 0, words := [sub, code] }

/-- R386: the ports on which a device that leaves SLEEP or DEEP owes AWAKE: those it sleeps on, and those it will drive. -/
def State.oweAwake (s : State) : State :=
  forEach allPorts (fun p s => s.modPort p (fun x => { x with owes := x.tstate == .quiet || (s.power.pstate == 3 && s.fld (Reg.LINK_CTL p) F.LINK_CTL_ENABLE == 1) })) s

/-- A wake event starts the exit to RUN (R383): out of SLEEP the ports train, which may have to wake their partners (R390); out of DEEP the PLL
has to lock before a port trains (R358). The exits of the channels from self-refresh start where the time they must stay has passed (R305). -/
def State.wakeFrom (src : Nat) (s : State) : State :=
  let old := s.power.pstate
  let s := ({ s with power.transit := true, power.target := 0, power.entry := .none, power.lastWake := src }).bump (devSlot (92 + src)) 1
  let s := forEach (List.range 32) State.wantSrExit s
  let s := if 2 ≤ old then s.oweAwake else s
  if old = 2 then forEach allPorts State.wakeHalf s else s

/-- R358: the PLL has locked on the way out of DEEP, and the ports may train. -/
def State.deepLock (s : State) : State :=
  let s := { s with power.pll := true }.pllFlags.openRelays
  (s.startPort .ca).startPort .cb

/-- A write of `PWR.CMD` that asks for state `k`. -/
def State.pwrCmd (k : Nat) (s : State) : State :=
  let old := s.power.pstate
  if s.running = false ∨ s.power.transit ∨ 4 < k then s
  else if k = 0 then (if old = 1 ∨ old = 2 then s.wakeFrom 0 else s)
  else if old = 0 then { s with power.transit := true, power.target := k, power.entry := .waiting }
  else s

/-- Commits every merge entry that waits (R155, R385 step 1). -/
def State.commitAll (s : State) : State :=
  let s := forEach (s.own.merges.filter (fun e => !e.busy && !s.mustWait e.line)) State.mergeRmw s
  forEach (s.mgr.merges.filter (fun e => !e.busy)) State.mgrRmw s

/-- Step 2 of R385: what the channels do. -/
def State.entryChans (k : Nat) (s : State) : State :=
  if k = 2 ∨ k = 3 then forEach (List.range 32) State.enterSr s else s

/-- POWER_ENTRY_START (R385). -/
def State.entryStart (s : State) : State :=
  if s.power.entry ≠ .waiting ∨ s.entryWaits then s
  else
    let s := s.commitAll
    if s.workOpen then s
    else
      let k := s.power.target
      let s := (s.entryChans k).powerNotice k s.power.pstate s.power.lastWake
      let ps := s.links
      let s := { s with power.entry := .marked, power.acks := ps }
      let s := if k = 4 then s.ledgerClose else s
      forEach ps (fun p s => (s.modPort p (fun x => { x with wait := x.wait ++ [s.pwrMsg 1 k] })).flush p) s

/-- R364, last row: on the exit a tier whose calibration temperature has moved more than 20 °C takes no access until a run has switched; a run
that a CAL_RUN still waits for starts too. -/
def State.wakeCal (s : State) : State :=
  forEach (List.range 4) (fun t s =>
    let s := if (s.tier t).cal.wanted then s.calTrigger t .command else s
    match s.calTemp t with
    | none => s
    | some a =>
      if 200 < (a - (s.tier t).cal.refTemp).natAbs then
        (s.modTier t (fun x => { x with cal := { x.cal with blocked := true } })).calTrigger t .temperature
      else s) s

/-- Ports stop and relays close (R385 step 4 for DEEP and OFF). -/
def State.portsStop (s : State) : State :=
  (forEach allPorts State.goOff s).closeRelays

/-- R385 step 4, R87: QUIET leaves in a numbered row of every link, and the ports fall silent. -/
def State.goQuiet (s : State) : State :=
  let s := forEach s.links (fun p s => s.sequence p s.quietMsg) s
  forEach (allPorts.filter (fun p => s.portUp p)) (fun p s =>
    let row := (s.port p).row
    ((s.modPort p (fun x => { x with tstate := .quiet })).airTo p none |>.modPort p (fun x => { x with row := row })).portFlags p) s

/-- What still holds an entry up after its markers: an acknowledgement, ledger bits being blown, work or merge entries that came since (R155,
R385 step 1), a channel not in self-refresh, a replay buffer without room for QUIET (R87). -/
def State.entryHeld (s : State) : Bool :=
  !s.power.acks.isEmpty || (s.power.target == 4 && !s.fuse.blowers.isEmpty) || s.workOpen ||
  ((s.power.target == 2 || s.power.target == 3) && !((List.range 32).all (fun n => s.inSr n))) ||
  (s.power.target == 2 && s.links.any (fun p => decide (Config.REPLAY_DEPTH ≤ (s.port p).buffer.length)))

/-- R364: entry into SLEEP or DEEP ends a calibration run that has not switched. -/
def State.calStop (s : State) : State :=
  forEach (List.range 4) (fun t s => s.modTier t (fun x => { x with cal := x.cal.stopped })) s

/-- POWER_ENTRY_DONE: t_E (R385, R387, R389). While something holds the entry up it goes on with what is left of steps 1 and 2. -/
def State.entryDone (s : State) : State :=
  if s.power.entry ≠ .marked then s
  else if s.entryHeld then s.commitAll.entryChans s.power.target
  else
    let k := s.power.target
    let s := s.bump (devSlot (87 + k)) 1
    let wake := match s.power.wakeNow, s.power.edgeAt with
      | some w, _ => some w
      | none, some (t, w) => if t + Config.WAKE_WINDOW ≤ s.now then some w else none
      | none, none => none
    let s := { s with power.pstate := k, power.transit := false, power.entry := .none, power.tE := some s.now, power.wakeNow := none, power.edgeAt := none }
    let s := if 3 ≤ k ∧ s.isManager then { s with prot.keys := [], prot.maps := [], prot.own := [] } else s
    let s := if 2 ≤ k then s.calStop else s
    let s := if k = 2 then s.goQuiet else if 3 ≤ k then s.portsStop else s
    let s := if k = 3 then ({ s with power.pll := false }).pllFlags else s
    if k = 4 then
      let s := s.unpower .off true
      match wake with
      | some _ => s.leaveOff
      | none => s
    else match wake with
      | some w => s.wakeFrom w
      | none => s

/-- WAKE_N abandons an entry (R387). -/
def State.abandon (s : State) : State :=
  let marked := s.power.entry = .marked
  let k := s.power.target
  let s := ({ s with power.transit := false, power.target := 0, power.entry := .none, power.acks := [], power.edgeAt := none }.raise Reg.PWR_STATUS
    F.PWR_STATUS_ENTRY_ABANDONED).bump (devSlot 97) 1
  let s := if marked ∧ (k = 2 ∨ k = 3) then forEach (List.range 32) State.wantSrExit s else s
  let s := if marked then
      forEach s.links (fun p s => (s.modPort p (fun x => { x with wait := s.pwrMsg 2 0 :: x.wait.filter (fun m => m.op != .pwr) })).flush p) s
    else s
  s.powerNotice s.power.pstate s.power.pstate 3

/-- WAKE_N: a low level held for 1 µs (R387). -/
def State.wakeN (s : State) : State :=
  if s.power.phase = .off then s.leaveOff
  else if s.running = false then s
  else if s.power.entry = .waiting ∨ (s.power.entry = .marked ∧ s.power.acks ≠ []) then s.abandon
  else if s.power.entry = .marked then { s with power.wakeNow := some 3 }
  else if s.power.transit then s
  else if s.power.pstate = 2 ∨ s.power.pstate = 3 then s.wakeFrom 3
  else s

/-- An edge wake event: 2 squelch, 4 I3C (R383, R389). -/
def State.wakeEdge (src : Nat) (s : State) : State :=
  if s.running = false then s
  else if s.power.entry = .marked ∧ s.power.target = 2 ∧ s.power.acks = [] then
    (if s.power.edgeAt.isSome then s else { s with power.edgeAt := some (s.now, src) })
  else if s.power.transit then s
  else if s.power.pstate = 2 then s.wakeFrom src
  else s

/-- R383: an NDL message other than LNK wakes a device in IDLE. -/
def State.wakeMsg (s : State) : State := if s.power.pstate = 1 ∧ s.power.transit = false then s.wakeFrom 1 else s

/-- SQUELCH_EDGE: an edge on a port in QUIET wakes a device in SLEEP (R389); of a device that is awake the port trains, for its partner has woken
of itself. -/
def State.squelch (p : Port) (s : State) : State :=
  if (s.port p).tstate = .quiet ∨ s.power.entry = .marked then
    let s := s.wakeEdge 2
    if (s.port p).tstate = .quiet ∧ s.power.pstate ≤ 1 ∧ s.running then s.train p (s.lastRate p) else s
  else s

/-- R383, R388: a message for a device that is not in RUN, or is returning to it, waits until it accepts requests; a request that waits is counted
as a power-wake wait. -/
def State.holdMsg (p : Port) (m : Msg) (s : State) : State :=
  let s := { s with power.held := s.power.held ++ [m] }
  if m.op.cls = 0 then (s.bump (portSlot p 38) 1).exclude m.h.sc.val else s

/-- R386: AWAKE leaves as the first sequenced message on each port. -/
def State.sendAwake (s : State) : State :=
  let ps := (allPorts.filter (fun p => (s.port p).owes || s.links.contains p)).filter (fun p => !s.hostSide p || p == s.hostPort)
  let s := forEach allPorts (fun p s => s.modPort p (fun x => { x with owes := false })) s
  forEach ps (fun p s => (s.modPort p (fun x => { x with wait := s.pwrMsg 2 0 :: x.wait })).flush p) s

/-- POWER_EXIT_DONE (R383, R386, R310). -/
def State.exitDone (s : State) : State :=
  let old := s.power.pstate
  if s.power.transit = false ∨ s.power.target ≠ 0 ∨ old = 0 ∨ (old = 3 ∧ s.power.pll = false) then s
  else
    let s := { s with power.pstate := 0, power.transit := false, power.tE := none }
    let s := if old = 3 then forEach (List.range 32) (fun n s =>
        let k := s.effFld (Reg.CH_CTL n) F.CH_CTL_PASR_KEEP
        if k < 7 ∧ (s.chan n).retired = false then s.pasrBegin n k else s) s else s
    let s := if 2 ≤ old then s.wakeCal else s
    s.sendAwake.powerNotice 0 old s.power.lastWake

/-- PWR markers of a partner (R386). -/
def State.pwrIn (p : Port) (sub code : Nat) (s : State) : State :=
  match s.accept p .pwr 0 (decide (code ≤ 4) && (sub == 1 || code == 0)) with
  | (s, true) => s.modPort p (fun x => { x with sleeping := sub == 1 && code == 2 })
  | (s, false) => s

/-! ### The cap (R392) -/

/-- CAP_ACTIVE and what follows the throttle stages. -/
def State.capFlags (s : State) : State :=
  (s.cond Reg.PWR_STATUS F.PWR_STATUS_CAP_ACTIVE (decide (0 < s.power.capStage))).stage3Flag

/-- CAP_WINDOW: a CAP_AVG window ends with an average input power in 10 mW and VIN in 10 mV. -/
def State.capWindow (pin vin : Nat) (s : State) : State :=
  if s.running = false then s
  else
    let p := s.power
    let s := { s with power.measPin := pin % 65536, power.measVin := vin % 65536,
                      power.capEn := s.fld Reg.PWR_CAP F.PWR_CAP_EN == 1, power.capW := s.fld Reg.PWR_CAP F.PWR_CAP_WATTS }
    if p.capEn = false then ({ s with power.capStage := 0, power.capLow := none }).capFlags
    else
      let s := { s with power.capLow := if pin * 100 ≤ 95 * (p.capW * 100) then (match p.capLow with | some a => some a | none => some s.now) else none }
      if pin ≤ p.capW * 100 then s
      else if p.capStage < 3 then
        let s := { s with power.capStage := p.capStage + 1 }.capFlags
        if p.capStage = 0 then s.notice 0x13 1 ([1] ++ leBytes 2 vin) else s
      else (s.raise Reg.PWR_STATUS F.PWR_STATUS_CAP_OVER).fault 10 0 ([1] ++ leBytes 2 vin)

/-- CAP_RELAX_EXPIRY. -/
def State.capRelax (s : State) : State :=
  if s.power.capLow.isSome ∧ 0 < s.power.capStage then
    ({ s with power.capStage := s.power.capStage - 1, power.capLow := some s.now }).capFlags
  else s

end Sys2Proof.Machine
end

