-- ==== Sys2Proof/Machine/Start.lean ====
section
/-! DEFINITION. Start-up and firmware (R425, R433 to R459, R492, R493): resets and kinds of start, the order of a start, self-test,
images and their checks, loads, restarts, the dead state. -/

namespace Sys2Proof.Machine

/-! ### What a start keeps (R56, R433) -/

/-- The always-on bits of a register. -/
def aoMask (fs : List FieldRow) : Nat :=
  fs.foldl (fun m f => if f.ao then setBits m f.bits.hi f.bits.lo (2 ^ (f.bits.hi + 1 - f.bits.lo) - 1) else m) 0

/-- R56: a register word after a warm reset: always-on fields stay, the others return to their reset values. -/
def warmWord (role a : Nat) (w : Word) : Word :=
  match findReg (a % 2 ^ 25) with
  | none => regReset role a
  | some (r, _) =>
    let m := BitVec.ofNat 32 (aoMask r.fields)
    (w &&& m) ||| (regReset role a &&& ~~~m)

/-- R56: the register file after a warm reset. -/
def State.warmRegs (s : State) : AMap Word :=
  s.regs.file.filterMap (fun e =>
    let w := warmWord s.id.role e.1 e.2
    if w = regReset s.id.role e.1 then none else some (e.1, w))

/-- What a channel keeps across a warm start, at which it trains anew (R318, R321), and, at a cold one, its error log (R334, R344, R328, R330). -/
def ChanS.restart (cold : Bool) (c : ChanS) : ChanS :=
  if cold then { elog := c.elog, elogNew := c.elogNew }
  else { half := c.half, retired := c.retired, pstate := if c.retired then .retired else .training, elog := c.elog, elogNew := c.elogNew, elogCount := c.elogCount,
         rangerPos := c.rangerPos, rangerAt := c.rangerAt, pasrInit := c.pasrInit, pasrAt := c.pasrAt, pasrMark := c.pasrMark }

/-- What a tier keeps: held writes, journal, field spares, failed cells, ledger (R170, R340, R361, R371, R414). -/
def TierS.restart (cold : Bool) (t : TierS) : TierS :=
  { held := if cold then [] else t.held, journal := t.journal, poisons := if cold then [] else t.poisons, jOvf := t.jOvf, jNew := t.jNew,
    spares := if cold then [] else t.spares.filter (fun e => e.2.field || e.2.failed), failedPos := if cold then [] else t.failedPos,
    thrown := if cold then [] else t.thrown, failCells := if cold then [] else t.failCells,
    tallies := t.tallies, residue := t.residue, turning := if cold then [] else t.turning, lastT := if cold then none else t.lastT, bins := if cold then List.replicate 8 0 else t.bins }

/-- What a sensor keeps: its peak since cold start (R397, R399). -/
def SensorS.restart (cold : Bool) (x : SensorS) : SensorS :=
  { peak := if cold then none else x.peak }

/-- The device at t0 of a start (R433, R434): what lies in the always-on domain stays, and at a cold start only what the loss of power
would have left of it. DESIGN CHOICE: a dynamic I3C address that SETDASA or ENTDAA assigned survives a warm reset; the manual does not say
(R43). -/
def State.restart (cold : Bool) (s : State) : State :=
  { pending := s.pending, now := s.now, tick := s.tick, draws := s.draws, id := s.id,
    power := { phase := .starting, vin := s.power.vin, resetLow := false, cold := cold, kind := if cold then 0 else 1, cause := s.power.cause,
               tS := s.power.tS, t0 := s.now, tripHold := s.power.tripHold, warmStarts := if cold then 0 else s.power.warmStarts + 1,
               vinNever := s.power.vinNever, vinBack := s.power.vinBack, pll := s.power.pll },
    regs := if cold then {} else { file := s.warmRegs }
    net := { air := { rows := s.net.air.rows }, tx := s.net.tx }
    mem := s.mem
    stack := { chans := AMap.mapVal (ChanS.restart cold) s.stack.chans, tiers := AMap.mapVal (TierS.restart cold) s.stack.tiers,
               nextAcc := s.stack.nextAcc }
    pool := if cold then {} else s.pool
    topo := if cold then {} else { trunk := s.topo.trunk, spurs := s.topo.spurs, adopted := s.topo.adopted, places := s.topo.places }
    que := { flash := s.que.flash, density := s.que.density }
    fuse := { cells := s.fuse.cells, locks := s.fuse.locks, vpgm := s.fuse.vpgm, blowers := if cold then [] else s.fuse.blowers }
    flt := { blaze := if cold then { s.flt.blaze with next := 0, drops := 0 } else s.flt.blaze, counts := if cold then [] else s.flt.counts,
             torn := if cold then [] else s.flt.torn }
    sensors := AMap.mapVal (SensorS.restart cold) s.sensors }

/-! ### Resets and the start slot (R375, R380, R492, R493) -/

/-- RESET_N is held low: the device stops into reset (R493). -/
def State.resetLow (s : State) : State :=
  if s.power.resetLow ∨ !s.powered then { s with power.resetLow := true }
  else
    let deep := s.power.pstate = 3
    let s := if deep then forEach (List.range 32) (fun n s =>
        let k := s.effFld (Reg.CH_CTL n) F.CH_CTL_PASR_KEEP
        if k < 7 ∧ (s.chan n).retired = false then s.pasrBegin n k else s) s else s
    ({ s.stopCore with power := { s.stopCore.power with phase := .inReset, resetLow := true, cause := 1, pstate := 0 } }).thermFlags

/-- RESET_N is released (R492). -/
def State.resetRelease (role slot : Nat) (s : State) : State :=
  if s.power.resetLow = false then s
  else
    let s := { s with power.resetLow := false }
    if s.power.phase = .inReset then s.release role slot else s

/-- VIN becomes valid (R375). -/
def State.vinValid (role slot : Nat) (s : State) : State :=
  if s.power.phase ≠ .unpowered then s
  else
    let s := { s with power.vin := true, power.phase := .inReset }
    if s.power.resetLow then s else s.release role slot

/-- The condition flag VIN_OK (R393). -/
def State.vinFlag (s : State) : State :=
  s.cond Reg.PWR_STATUS F.PWR_STATUS_VIN_OK (s.power.vin && (s.power.vinNever || s.power.vinBack.isSome))

/-- R474: the START entry, and the counter of starts by kind. -/
def State.startEntry (kind cause : Nat) (s : State) : State :=
  ((s.blazeAt 255 255 0 0 3 0 [BitVec.ofNat 8 kind, BitVec.ofNat 8 cause]).1).bump (devSlot (123 + kind)) 1

/-- START_SLOT_EXPIRY: t0 (R380, R434). -/
def State.startSlot (s : State) : State :=
  if s.power.phase ≠ .slotWait then s
  else
    let cold := s.power.cold
    let s := (if cold then s else s.tally).restart cold
    let s := forEach (s.stack.chans.map (·.1)) State.chFlags s
    let s := { s with regs.eff := if (s.reg Reg.TOPO_ENUM_CTL) = regReset s.id.role Reg.TOPO_ENUM_CTL then [] else
      [(Reg.TOPO_ENUM_CTL, s.reg Reg.TOPO_ENUM_CTL)] }
    ((((s.startEntry (if cold then 0 else 1) s.power.cause).vinFlag.pllFlags).ledgerFlags).poolFlags.blazeFlags).thermFlags

/-- RESET_DELAY_EXPIRY: the warm start of an accepted reset write begins (R380, R471, R472). -/
def State.resetDelay (s : State) : State :=
  match s.power.resetAt with
  | none => s
  | some (_, cause) =>
    let s := s.stopCore
    ({ s with power := { s.power with phase := .slotWait, cause := cause, tS := s.now, pstate := 0 } }).thermFlags

/-! ### The order of a start (R434, R438, R440) -/

/-- R451: the device enters the dead state. -/
def State.die (code item : Nat) (s : State) : State :=
  let s := (s.blazeAt 255 255 0 0 4 0 [BitVec.ofNat 8 code, BitVec.ofNat 8 item]).1
  let s := s.stopCore
  { s with power := { s.power with phase := .dead, failCode := code } }

/-- Whether a tier has a channel that is not retired. -/
def State.tierLives (s : State) (t : Nat) : Bool := ((List.range 8).any (fun c => !(s.chan (8 * t + c)).retired))

/-- Whether the sensing of every die has ended (R421). -/
def State.sensedAll (s : State) : Bool := (List.range 21).all (fun d => bit s.power.sensed d)

/-- Every unretired tier has finished step 5. -/
def State.tiersTested (s : State) : Bool := (List.range 4).all (fun t => !s.tierLives t || bit s.power.startTiers t)

/-- `BOOT.STATE.STEP` (R434). -/
def State.startStep (s : State) : Nat :=
  if s.power.phase ≠ .starting then 0
  else if s.power.kind = 0 ∧ (!s.sensedAll ∨ !s.power.pll ∨ s.power.items < 2) then 1
  else if s.power.items < 7 then 2
  else if s.power.items < 10 then 4
  else if !s.tiersTested then 5
  else if s.power.fw = 2 then 7 else 6

/-- R10, R60, R61: identity as the ID region of the base die gives it; the serial number is never 0 and never all ones. -/
def State.readId (s : State) : State :=
  let w := (List.range 0x7F).map (fun k => (AMap.get k ((0, 0) : Nat × Nat) s.fuse.shadow).1)
  let n := Config.idSerial w % 2 ^ 64
  { s with id.serial := if n = 0 ∨ n = 2 ^ 64 - 1 then 1 else n, id.trace := Config.idTrace w % 2 ^ 128, id.gradeE := Config.idGrade w }

/-- The tier of a die other than the base die. -/
def dieTier (d : Nat) : Nat := if d < 5 then d - 1 else (d - 5) / 4

/-- R381: whether the fuses of a die may be sensed now: at a cold start the base die comes first (step 3), then the tiers in order as they are
powered up (step 4). A warm start has no steps 2 to 4. -/
def State.senseDue (s : State) (d : Nat) : Bool :=
  s.power.kind != 0 || d == 0 ||
  (bit s.power.sensed 0 && (List.range 21).all (fun e => e == 0 || decide (dieTier d ≤ dieTier e) || bit s.power.sensed e))

/-- FUSE_SENSE_DONE: the fuses of a die have been sensed (R381, R421 to R425); `drift` names the cells that read otherwise than before. -/
def State.senseDie (d : Nat) (drift : List (Nat × Cell)) (s : State) : State :=
  if s.power.phase ≠ .starting ∨ bit s.power.sensed d ∨ !s.senseDue d then s
  else
    let s := { s with power.sensed := setBits s.power.sensed d d 1 }
    let s := forEach drift (fun c s => s.setCell d c.1 c.2) s
    let s := forEach (dieRegions d) State.senseRegion s
    match s.fuseFail d with
    | some (code, w) =>
      ((s.blazeAt 255 255 (d % 256) 0 5 0 (leBytes 2 code ++ leBytes 2 w)).1).die 0x10 0
    | none =>
      if d = 0 then s.readId
      else if 1 ≤ d ∧ d ≤ 4 then
        let t := d - 1
        let n := match counterOf d with | some r => s.counterValue r | none => 0
        ((s.spareLoad t).modTier t (fun x => { x with tallies := n })).ledgerFlags
      else s

/-- R459: the result of a self-test item, or of selection bit `b` of BIST_RUN under 12 + b. -/
def State.bistResult (k tested : Nat) (failing : List Nat) (s : State) : State :=
  { s with bist := AMap.put k (min 65535 tested, min 65535 failing.length, match failing.head? with | some f => f % 65536 | none => 65535) s.bist }

/-- R440: elements excluded by the self-test. -/
def State.startExclude (n : Nat) (s : State) : State :=
  forEach (List.range n) (fun _ s => ((s.raise Reg.BOOT_STATUS F.BOOT_STATUS_EXCLUDED).bump (devSlot 137) 1).fault 114 0 []) s

/-- R440: the ports that a role needs. -/
def State.portsFail (s : State) : Bool :=
  if s.isManager then s.portLost .ca && s.portLost .cb else if s.isTest then false else s.portLost .e || s.portLost .w

/-- Step 3 of R434: relays open where the device drives its east or west port (R4, R26), ports that have none hunt, ALIVE starts. -/
def State.startPorts (s : State) : State :=
  let s := { s with power.alive := true, power.healthy := true }
  let s := s.openRelays
  (s.startPort .ca).startPort .cb

/-- RELAY_WAIT_EXPIRY: the east and west ports begin to send (R27). -/
def State.relayWait (s : State) : State :=
  if s.power.relayAt.isNone ∨ !s.power.relays then s
  else (({ s with power.relayAt := none }).startPort .e).startPort .w

/-- Step 4, once training has ended: a warm start makes the writes its tiers hold, and poisons what a heartbeat loss cut off (R370, R434). -/
def State.startWrites (s : State) : State :=
  if s.power.cold then s
  else forEach (List.range 4) State.rejoinWrites s

/-- R318, R434: whether the start calibration of every tier that lives has switched; training comes after it. -/
def State.calibrated (s : State) : Bool := (List.range 4).all (fun t => !s.tierLives t || (s.tier t).cal.running.isNone)

/-- Whether item `k` may end now: items run in order; a warm start has no items 1 and 2, and only a manager has item 5 (R434, R438). Item 3
and what follows need the fuses sensed, the PLL locked, and R409; item 10 needs the start calibration (R318). -/
def State.itemDue (s : State) (k : Nat) : Bool :=
  s.power.phase == .starting && decide (1 ≤ k) && decide (k ≤ 10) && decide (s.power.items < k) &&
  (List.range (k - s.power.items - 1)).all (fun i =>
    let j := s.power.items + 1 + i
    (decide (j ≤ 2) && s.power.kind != 0) || (j == 5 && !s.isManager)) &&
  (decide (k < 3) || (s.sensedAll && s.power.pll && (!s.power.tripHold || s.coolEnough))) && (k != 10 || s.calibrated)

/-- SELF_TEST_ITEM_DONE (R438, R440). -/
def State.itemDone (k : Nat) (r : TestResult) (s : State) : State :=
  if !s.itemDue k then s
  else
    let s := { s with power.items := k, power.tripHold := if 3 ≤ k then false else s.power.tripHold }
    let n := r.failing.length
    let s := (s.bistResult k r.tested r.failing).bump (devSlot (125 + k)) n
    if k ≤ 5 then (if n = 0 then s else s.die 0x11 k)
    else
      let s := s.startExclude n
      match k with
      | 6 => (forEach r.failing (fun i s => if i < 72 then s.sensorBreaks i 3 else s) s).thermUpdate
      | 7 =>
        let s := forEach r.failing (fun e s =>
          if e % 9 < 8 ∧ e < 36 then s.modPort (allPorts.getD (e / 9) .ca) (fun x => { x with excluded := setBits x.excluded (e % 9) (e % 9) 1 }) else s) s
        if s.portsFail then s.die 0x14 7 else s.startPorts
      | 8 =>
        let s := forEach r.failing State.failElement s
        if (List.range 4).any s.tierLives then forEach (List.range 4) (fun t s => if s.tierLives t then s.calBegin t .start else s) s else s.die 0x13 8
      | 9 =>
        let s := forEach r.failing (fun e s => if e < 8 then s.modTier (e / 2) (fun x => if e % 2 = 1 then { x with apt := true } else { x with rct := true }) else s) s
        let s := forEach (List.range 4) (fun t s => s.modTier t (fun x => { x with built := true })) s
        if (List.range 4).any s.sourceOk then
          let s := forEach (r.failing.filter (fun e => decide (e < 8))) (fun e s => s.entropyFail (e / 2) (e % 2 == 1)) s
          forEach ((List.range 4).filter s.sourceOk) State.reseed s
        else s.die 0x12 9
      | _ =>
        let s := s.trained ((List.range 64).filter (fun k => !(s.chan (k / 2)).retired)) { ca := r.train, pins := r.pins, failing := r.failing }
        if (List.range 4).any s.tierLives then s.startWrites else s.die 0x13 10

/-- A finding of a memory march (R439). -/
def State.marchFinding (f : MarchFinding) (s : State) : State :=
  match f with
  | .uncorr p => s.elog p.chan p 2 15 255 (s.lineAt p)
  | .sticky p => s.elog p.chan p 3 6 255 (s.lineAt p)
  | .pin pc x => s.modPc pc.val (PcS.suspectPin x.val)
  | .command n =>
    let (g, x) := Config.marchPosition n.val
    let at_ : Place × Nat := ({ pc := 2 * n.val, bg := 0, bk := 0, row := 0, col := 0 }, 0)
    if (s.chan n.val).retired then s
    else (((s.throwRecord (n.val / 8) g x [n.val] at_).retireChan n.val).throwEvent n.val 1).startExclude 1

/-- MEMORY_SELF_TEST_DONE: step 5 of R434 for a tier; a cold start leaves every line place as R148 requires, a warm one the contents as they
were. Element t of item 11 is tier t. -/
def State.memTested (t : Nat) (found : List MarchFinding) (s : State) : State :=
  if s.power.phase ≠ .starting ∨ s.power.items < 10 ∨ !s.tierLives t ∨ bit s.power.startTiers t ∨
      !((List.range t).all (fun u => !s.tierLives u || bit s.power.startTiers u)) then s
  else
    let s := if s.power.cold ∨ s.isTest then s.fill (.tier t []) 0 else s
    let s := forEach found State.marchFinding s
    let old := AMap.get 11 (0, 0, 65535) s.bist
    let bad := !found.isEmpty
    let s := { s with bist := AMap.put 11 (old.1 + 1, old.2.1 + b2n bad, if bad && old.2.1 == 0 then t else old.2.2) s.bist }
    let s := s.bump (devSlot 136) (b2n bad)
    let s := { s with power.startTiers := setBits s.power.startTiers t t 1 }
    let s := forEach ((List.range 8).map (8 * t + ·)) (fun n s =>
      (s.modChan n (fun c => if c.retired then c else { c with pstate := .active })).chFlags n) s
    let s := if s.tiersTested then { s with power.cold := false, power.memTested := true } else s
    if (List.range 4).any s.tierLives then s else s.die 0x13 11

/-- START_DONE (R435, R437, R444). -/
def State.startDone (s : State) : State :=
  if s.power.phase ≠ .starting ∨ s.power.items < 10 ∨ !s.tiersTested ∨ s.power.fw ≠ 2 then s
  else
    let ms := (s.now - s.power.t0) / 1000000
    let s := { s with power := { s.power with phase := .running, startMs := if s.power.kind = 2 then s.power.startMs else min 65535 ms,
                                              lockOpen := false } }
    let s := s.cond Reg.BOOT_STATUS F.BOOT_STATUS_START_DONE true
    let s := if s.arbCount < s.image.epoch then (s.raise Reg.BOOT_STATUS F.BOOT_STATUS_ARB_ADV).blowWant 0 (s.image.epoch - s.arbCount) else s
    let s := if s.power.kind ≠ 0 then s else
      forEach (List.range 32) (fun n s => s.modChan n (fun c => if c = {} then c else { c with rangerAt := s.now })) s
    let s := if s.isManager then (s.startPort .ca).startPort .cb else s
    s.copyGo.retryWaits

/-! ### Images (R442, R443) -/

/-- The parts of a header. -/
def hdrLen : Nat := 0x3000
def hComp (h : List Byte) (k : Nat) : List Byte := slice h (0x20 + 64 * k) 64
def hNcomp (h : List Byte) : Nat := leAt h 6 2
def hVersion (h : List Byte) : Nat := leAt h 8 4
def hEpoch (h : List Byte) : Nat := leAt h 0xC 2
def hLen (h : List Byte) : Nat := leAt h 0x10 4
def cType (c : List Byte) : Nat := leAt c 0 2
def cRoles (c : List Byte) : Nat := leAt c 2 1
def cOff (c : List Byte) : Nat := leAt c 4 4
def cLen (c : List Byte) : Nat := leAt c 8 4
def cHash (c : List Byte) : List Byte := slice c 16 48

/-- The greatest length of a component of a known type. -/
def typeMax (ty : Nat) : Nat := if ty = 1 then 4 * 2 ^ 20 else if ty = 4 then 256 * 2 ^ 10 else 512 * 2 ^ 10

/-- Whether bytes `a` to `b - 1` of a header are zero. -/
def hZero (h : List Byte) (a b : Nat) : Bool := (slice h a (b - a)).all (· == 0)

/-- Check 0x02 of R443 within a flash of `density` bytes. -/
def headerForm (h : List Byte) (density : Nat) : Bool :=
  let n := hNcomp h
  let cs := (List.range n).map (hComp h)
  slice h 0 4 == [0x45, 0x56, 0x46, 0x57] && leAt h 4 2 == 1 && decide (1 ≤ n) && decide (n ≤ 16) &&
  hZero h 0xE 0x10 && hZero h 0x14 0x20 && hZero h (0x20 + 64 * n) 0x420 && hZero h 0x2143 hdrLen &&
  decide (hLen h ≤ 16 * 2 ^ 20) && decide (hLen h ≤ density) &&
  cs.all (fun c => hZero c 12 16 && cOff c % 4096 == 0 && decide (hdrLen ≤ cOff c) && decide (cOff c + cLen c ≤ hLen h) &&
    (if decide (1 ≤ cType c) && decide (cType c ≤ 4) then decide (cLen c ≤ typeMax (cType c)) else !bit (leAt c 3 1) 0)) &&
  cs.zipIdx.all (fun a => cs.zipIdx.all (fun b => a.2 == b.2 || cLen a.1 == 0 || cLen b.1 == 0 || decide (cOff a.1 + cLen a.1 ≤ cOff b.1) ||
    decide (cOff b.1 + cLen b.1 ≤ cOff a.1))) &&
  (List.range 3).all (fun r => (List.range 4).all (fun ty => (cs.filter (fun c => cType c == ty + 1 && bit (cRoles c) r)).length == 1))

/-- Checks 0x02 to 0x07 of R443: the code of the first that fails, 0 for none. Both signatures are verified whatever the first shows. -/
def State.headerCheck (s : State) (h : List Byte) (density : Nat) : Nat :=
  let h := (h ++ zeros hdrLen).take hdrLen
  let digest := slice h 0x420 48
  if !headerForm h density then 2
  else if sha384 (slice h 0x450 96 ++ slice h 0x510 2592) ≠ s.keyHash then 3
  else if hEpoch h < s.arbCount then 4
  else if sha384 (h.take 0x420) ≠ digest then 5
  else if !ecdsaVerify (slice h 0x450 96) digest (slice h 0x4B0 96) then 6
  else if !Config.mlDsaVerify (slice h 0x510 2592) digest (slice h 0xF30 4627) then 7
  else 0

/-- The firmware of a checked header runs (R435, R445); the manager keeps the components it has read, in entry order. -/
def State.fwRun (h st : List Byte) (s : State) : State :=
  { s with power.fw := 2, image := { header := h, stream := st, digest := slice h 0x420 48, epoch := hEpoch h,
                                     version := BitVec.ofNat 32 (hVersion h), ended := true } }

/-- Whether the manager's boot ROM reads its image: step 6 of R434. -/
def State.imageDue (s : State) : Bool := s.isManager && s.power.phase == .starting && decide (7 ≤ s.power.items) && decide (s.power.fw < 2)

/-- A check of the manager's image has failed: the retry of R443, or the dead state. -/
def State.imageFail (code : Nat) (s : State) : State :=
  if (code = 5 ∨ code = 8) ∧ s.image.retried = false then { s with image.retried := true } else s.die code 0

/-- IMAGE_HEADER_CHECK (R443). -/
def State.imageHeader (sfdp : Bool) (density : Nat) (h : List Byte) (s : State) : State :=
  if !s.imageDue ∨ s.image.stage ≠ 0 then s
  else if !sfdp then s.die 1 0
  else
    let s := { s with que.density := density }
    let k := s.headerCheck h density
    if k ≠ 0 then s.imageFail k
    else { s with power.fw := 1, image := { s.image with stage := 1, header := (h ++ zeros hdrLen).take hdrLen, nextComp := 0 } }

/-- COMPONENT_READ_DONE (R443). -/
def State.componentRead (k : Nat) (data : List Byte) (s : State) : State :=
  if !s.imageDue ∨ s.image.stage ≠ 1 ∨ s.image.nextComp ≠ k then s
  else
    let c := hComp s.image.header k
    if data.length ≠ cLen c ∨ sha384 data ≠ cHash c then s.imageFail 8
    else
      let st := s.image.stream ++ data
      if k + 1 < hNcomp s.image.header then { s with image.nextComp := k + 1, image.stream := st } else s.fwRun s.image.header st

/-! ### Loads into this device (R446 to R450) -/

/-- LOAD_CTL.START (R446). -/
def State.loadStart (len : Nat) (s : State) : State :=
  if s.isManager ∨ !s.awake ∨ s.power.fw ≠ 0 then s else { s with power.fw := 1, image := { stage := 1, len := len } }

/-- The components of a header that name a role, in entry order. -/
def roleComps (h : List Byte) (role : Nat) : List (List Byte) :=
  ((List.range (hNcomp h)).map (hComp h)).filter (fun c => bit (cRoles c) role)

/-- Check 8 of the components that have streamed in: whether one fails, and whether all have come. -/
def streamComps : List (List Byte) → List Byte → Bool × Bool
  | [], r => (false, r.isEmpty)
  | c :: cs, r =>
    if r.length < cLen c then (false, false)
    else if sha384 (r.take (cLen c)) ≠ cHash c then (true, true)
    else streamComps cs (r.drop (cLen c))

/-- LOAD_WIN: words of a load are appended (R448); the header is checked when it is complete, each component as it streams in. -/
def State.loadWords (ws : List Nat) (s : State) : State :=
  if s.isManager ∨ s.power.fw ≠ 1 ∨ s.image.ended then s
  else
    let old := s.image.stream.length
    let st := s.image.stream ++ ofWords ws
    let s := { s with image.stream := st }
    if s.image.fail ≠ 0 ∨ st.length < hdrLen then s
    else if old < hdrLen then
      let k := s.headerCheck (st.take hdrLen) (2 ^ 32)
      { s with image.fail := k, image.header := st.take hdrLen }
    else if (streamComps (roleComps s.image.header s.id.role) ((st.take s.image.len).drop hdrLen)).1 then { s with image.fail := 8 }
    else s

/-- LOAD_CTL.END. -/
def State.loadEnd (s : State) : State :=
  if s.isManager ∨ s.power.fw ≠ 1 then s else { s with image.ended := true }

/-- The ROM of this device finishes its checks (R446): the code, 0 for a good image. -/
def State.loadCode (s : State) : Nat :=
  let st := s.image.stream.take s.image.len
  if s.image.fail ≠ 0 then s.image.fail
  else if st.length < hdrLen then 2
  else match streamComps (roleComps s.image.header s.id.role) (st.drop hdrLen) with
    | (false, true) => 0
    | _ => 8

/-- LOAD_CHECK_DONE at the loaded device. -/
def State.loadChecked (s : State) : State :=
  if s.isManager ∨ s.power.fw ≠ 1 ∨ s.image.ended = false then s
  else
    let k := s.loadCode
    if k = 0 then s.fwRun s.image.header []
    else { s with power.fw := 3, power.failCode := k, image := {} }

/-- Whether shards of a tier run or wait. -/
def State.tierBusy (s : State) (t : Nat) : Bool := (s.tier t).run.isSome || !(s.tier t).waiting.isEmpty

/-- BOOT.CTL.REBOOT (R433, R450): a firmware restart; during a start it returns the warden to its ROM. -/
def State.rebootNow (s : State) : State :=
  if !s.awake ∨ (List.range 4).any s.tierBusy then s
  else
    let again := s.running
    let s := ((({ s with power := { s.power with fw := 0 }, image := {}, flt.windows := [] }).raise Reg.BOOT_STATUS F.BOOT_STATUS_REBOOTED).bump (devSlot 138) 1)
    if again then
      let s := forEach (List.range 32) State.enterSr s
      let s := { s with power := { s.power with phase := .starting, kind := 2, cause := 4, items := 10, t0 := s.now, cold := false } }
      (s.startEntry 2 4).cond Reg.BOOT_STATUS F.BOOT_STATUS_START_DONE false
    else s

/-- BOOT.CTL.OWNER_LOCK (R455). -/
def State.lockOwner (s : State) : State := if s.isManager then s.cond Reg.BOOT_STATUS F.BOOT_STATUS_OWNER_LOCK true else s

/-- BOOT.CTL.RELEASE (R457): a bit is set only while no shard of its tier runs or waits. -/
def State.releaseTiers (mask : Nat) (s : State) : State :=
  forEach (List.range 4) (fun t s => s.modTier t (fun x => { x with released := bit mask t && (x.released || !s.tierBusy t) })) s

end Sys2Proof.Machine
end

