-- ==== Sys2Proof/Machine/Topo.lean ====
section
/-! DEFINITION. The manager's topology (R11 to R39, R62 to R64, R507) and the loads it makes (R445 to R449): walks, numbers, the position
plan, hops and cleared positions, re-survey, return, firmware. -/

namespace Sys2Proof.Machine

/-! ### The plan (R33, R63) -/

/-- The positions of a plan word: true for a device, false for a blank. DESIGN CHOICE: NPOS of a spur is taken as written, 13 to 15 too (R62). -/
def planLine (w : Word) : List Bool := (List.range (bits w.toNat 3 0)).map (fun i => bit w.toNat (16 + i))

/-- A plan word that holds `n` devices and no blank. -/
def planOf (n : Nat) : Word := BitVec.ofNat 32 ((2 ^ n - 1) * 2 ^ 16 + n)

/-- A line of answering devices laid into plan positions: for each device, in walk order, its position where it can be placed and the
cleared positions and blanks before it; the positions of each segment that cannot be placed, with the first device beyond it. -/
structure Laid where
  devs  : List (Nat × Option Nat × Nat) := []
  extra : List (Nat × Nat) := []
  deriving DecidableEq, Repr

/-- The device positions of a plan line from `lo` up to `hi`. -/
def devPositions (pl : List Bool) (lo hi : Nat) : List Nat := (List.range pl.length).filter (fun i => decide (lo ≤ i) && decide (i < hi) && pl.getD i false)

/-- One segment: the devices `us` that no learnt placement fixes lie between positions `lo` and `hi`; `before` devices answer before them. -/
def layIn (pl : List Bool) (us : List Nat) (lo hi before : Nat) : Laid :=
  let d := devPositions pl lo hi
  if us.length = d.length then { devs := us.zipIdx.map (fun u => (u.1, some (d.getD u.2 0), d.getD u.2 0 - (before + u.2))) }
  else if us.isEmpty then {}
  else { devs := us.map (fun u => (u, none, hi - (before + us.length))), extra := [(before + us.length, hi - lo - us.length)] }

/-- R33: lays a line by the placements learnt: `us` are the devices met since the last placed one. -/
def layLine (pl : List Bool) : List (Nat × Option Nat) → List Nat → Nat → Nat → Laid
  | [], us, lo, before => layIn pl us lo pl.length before
  | (n, p) :: r, us, lo, before =>
    match p with
    | none => layLine pl r (us ++ [n]) lo before
    | some x =>
      if x < lo then layLine pl r (us ++ [n]) lo before
      else
        let a := layIn pl us lo x before
        let k := before + us.length
        let b := layLine pl r [] (x + 1) (k + 1)
        { devs := a.devs ++ [(n, some x, x - k)] ++ b.devs, extra := a.extra ++ b.extra }

/-- R33: the answering devices of a line, each with its learnt placement, laid into a plan line: in walk order where the counts agree. -/
def layPlan (pl : List Bool) (ds : List (Nat × Option Nat)) : Laid :=
  let d := devPositions pl 0 pl.length
  if ds.length = d.length then { devs := ds.zipIdx.map (fun u => (u.1.1, some (d.getD u.2 0), d.getD u.2 0 - u.2)) }
  else layLine pl ds [] 0 0

/-- R29: the indices before which a run of three or more cleared or blank positions lies. -/
def longRuns (l : Laid) : List Nat :=
  (List.range l.devs.length).filter (fun i =>
    match l.devs[i]? with
    | some (_, some x, _) =>
      (match i with
        | 0 => decide (3 ≤ x)
        | j + 1 => match l.devs[j]? with | some (_, some y, _) => decide (y + 4 ≤ x) | _ => false)
    | _ => false)

/-! ### Numbers (R19, R20) -/

/-- The link record of a port in a word of R22. -/
def recordAt (p : Port) (w : Word) : Nat :=
  match p with
  | .w => bits w.toNat 7 0 | .e => bits w.toNat 15 8 | .ca => bits w.toNat 23 16 | .cb => bits w.toNat 31 24

/-- R125: whether the link by which a walk enters a device runs NDL 1.0, so that the manager treats it as broken. -/
def oldLink (d : DevRec) : Bool := bits (recordAt d.into d.links) 1 0 != 0 && bits (recordAt d.into d.links) 4 3 == 0

/-- Whether a device fits the trunk, entered by port `p`: a branch, of this generation (R7, R20), wired as R11 says (R13, R83). -/
def fitsTrunk (p : Port) (d : DevRec) : Bool := d.role == 1 && !d.gen232 && d.into == p && !oldLink d
/-- Whether a device fits a spur: a worker, wired as R12 says (R13). -/
def fitsSpur (d : DevRec) : Bool := d.role == 0 && d.into == .w && !oldLink d

/-- The positions of a line before the first that has no value. -/
def before {α : Type} (l : List (Option α)) : List α := (l.takeWhile (·.isSome)).filterMap (fun x => x)

/-- R34: the arcs of a trunk whose devices have a value or none: east-about from the manager, west-about from it, and whether the ring is closed.
A ring closed but for a device without a value runs as two arcs. -/
def arcs {α : Type} (closed : Bool) (east west : List (Option α)) : List α × List α × Bool :=
  if closed then (if east.all (·.isSome) then (before east, [], true) else (before east, before east.reverse, false))
  else (before east, before west, false)

/-- A branch where it fits the trunk. -/
def fitBranch (p : Port) (b : BranchRec) : Option BranchRec := if fitsTrunk p b.dev then some b else none

/-- The branches of a walk on each arc, before the first that does not fit. -/
def goodArcs (w : WalkRec) : List BranchRec × List BranchRec × Bool := arcs w.closed (w.east.map (fitBranch .w)) (w.west.map (fitBranch .e))

/-- The devices of a spur before the first that does not fit, six at most. -/
def goodSpur (l : List DevRec) : List DevRec := (l.takeWhile fitsSpur).take 6

/-- The branches of a walk east-about (R19). -/
def trunkOf (w : WalkRec) : List BranchRec := (goodArcs w).1 ++ (goodArcs w).2.1.reverse

/-- Every branch record of a walk. -/
def walkBranches (w : WalkRec) : List BranchRec := w.east ++ (if w.closed then [] else w.west)

/-- Every device a walk has met. -/
def walkDevices (w : WalkRec) : List DevRec := (walkBranches w).flatMap (fun b => b.dev :: (b.spurA ++ b.spurB))

/-- R13, R83: whether a walk has met a link whose PORT or ROLE goes against R11 or R12: on the trunk a branch entered by its west port, by its east port
from the other side; on a spur a worker entered by its west port. -/
def miswired (w : WalkRec) : Bool :=
  w.east.any (fun b => b.dev.into != .w) || (!w.closed && w.west.any (fun b => b.dev.into != .e)) ||
  (walkBranches w).any (fun b => b.dev.role != 1 || (b.spurA ++ b.spurB).any (fun d => d.into != .w || d.role != 0))

/-- The devices to be numbered, in the order of R19, with trunk position, spur and spur position: number 0, the manager, excepted. -/
def numbering (w : WalkRec) : List (DevRec × Nat × Nat × Nat) :=
  let t := (trunkOf w).take 7
  let spur (p sp : Nat) (l : List DevRec) : List (DevRec × Nat × Nat × Nat) := (goodSpur l).zipIdx.map (fun d => (d.1, p, sp, d.2 + 1))
  ((t.zipIdx.map (fun (b : BranchRec × Nat) => (b.1.dev, b.2 + 1, 0, 0))) ++
    t.zipIdx.flatMap (fun (b : BranchRec × Nat) => spur (b.2 + 1) 0 b.1.spurA ++ spur (b.2 + 1) 1 b.1.spurB)).take 63

/-- Whether a walk breaks a limit of R20. DEDUCED: an EVS-232 on the trunk (R7) is a device that does not fit its position. -/
def overLimit (w : WalkRec) : Bool :=
  let t := trunkOf w
  decide (7 < t.length) || (walkBranches w).any (fun b => b.dev.role != 1 || b.dev.gen232) ||
  t.any (fun b => (b.spurA ++ b.spurB).any (fun d => d.role != 0) || decide (6 < b.spurA.length) || decide (6 < b.spurB.length)) ||
  decide (63 < ((t.take 7).map (fun b => 1 + (goodSpur b.spurA).length + (goodSpur b.spurB).length)).sum)

/-- Word 0 of a new entry (R22): state returning, or active for the manager. -/
def entWord (d : DevRec) (tp sp pos : Nat) : Word :=
  BitVec.ofNat 32 (1 + d.role.val * 2 + b2n d.gen232 * 8 + 3 * 16 + tp * 64 + sp * 512 + pos * 1024)

/-! ### The table -/

/-- The number that a serial number has. -/
def State.numberOf (s : State) (serial : Nat) : Option Nat :=
  (s.topo.ents.find? (fun e => e.2.valid && e.2.serial == serial)).map (·.1)

/-- Sets STATE, ROUTE, H and C of an entry; H and C read 0 unless it is active (R22). -/
def TopoE.place (e : TopoE) (st route h c : Nat) : TopoE :=
  let w := F.TOPO_ENT_W0_STATE.set st e.w0
  let w := F.TOPO_ENT_W0_ROUTE.set route w
  let w := F.TOPO_ENT_W0_H.set (if st = 0 then h else 0) w
  { e with w0 := F.TOPO_ENT_W0_C.set (if st = 0 then c else 0) w, h := h, c := c }

/-- R62: whether an entry is a branch reached through the east port, active or returning. -/
def TopoE.eastArc (e : Nat × TopoE) : Bool :=
  F.TOPO_ENT_W0_ROLE.get e.2.w0 == 1 && (e.2.state == 0 || e.2.state == 3) && F.TOPO_ENT_W0_ROUTE.get e.2.w0 == 0

/-- A table update is visible: SEQ advances and the TOPOLOGY notice is raised (R22, R62, R131). -/
def State.tableSeen (s : State) : State :=
  let s := s.seqUp Reg.TOPO_STATUS
  let w := (s.reg Reg.TOPO_STATUS).toNat
  s.noticeFor 0 0x02 0 (leBytes 2 (w / 65536) ++ leBytes 1 (s.fld Reg.TOPO_COUNT F.TOPO_COUNT_DEVICES) ++ leBytes 1 (w % 256))

/-- What a survey finds of a device: that it answers on an unbroken route, with ROUTE, H, C and the devices before it. -/
structure Found where
  num    : Nat
  route  : Nat
  h      : Nat
  c      : Nat
  behind : List Nat
  links  : Word
  deriving DecidableEq, Repr

/-- The outcome of a survey: devices reached, placements learnt, whether the trunk runs as arcs, whether a segment cannot be placed, whether a
device without a number answers, every number that answers, and the BROKEN bits of the manager's own trunk ports. -/
structure Survey where
  found  : List Found := []
  places : List (Nat × Nat) := []
  arcs   : Bool := false
  mism   : Bool := false
  unnum  : Bool := false
  seen   : List Nat := []
  own    : Nat := 0
  deriving DecidableEq, Repr

/-- The place of an entry on the trunk: its TRUNK_POS, for a branch. -/
def State.trunkKey (s : State) (n : Nat) : Option Nat :=
  if n != 0 && F.TOPO_ENT_W0_SPUR_POS.get (s.ent n).w0 == 0 then some (F.TOPO_ENT_W0_TRUNK_POS.get (s.ent n).w0) else none

/-- The place of an entry on spur `sp` of branch `b`: its SPUR_POS. -/
def State.spurKey (s : State) (b sp n : Nat) : Option Nat :=
  let w := (s.ent n).w0
  if F.TOPO_ENT_W0_TRUNK_POS.get w == F.TOPO_ENT_W0_TRUNK_POS.get (s.ent b).w0 && F.TOPO_ENT_W0_SPUR.get w == sp && F.TOPO_ENT_W0_SPUR_POS.get w != 0
  then some (F.TOPO_ENT_W0_SPUR_POS.get w) else none

/-- R25: the numbers of the devices of a line in walk order. A device has its number where it fits, its serial number is that of an entry on this
line, and its place follows those of the numbered devices before it. DEDUCED: cleared positions cannot be seen, so that its line and its order
there are all that a walk shows of a device's position. -/
def State.numbersOn (s : State) (fit : DevRec → Bool) (key : Nat → Option Nat) : List DevRec → Nat → List (Option (Nat × DevRec))
  | [], _ => []
  | d :: r, lo =>
    match (if fit d then s.numberOf d.serial.toNat else none) with
    | none => none :: s.numbersOn fit key r lo
    | some n =>
      match key n with
      | some k => if lo < k then some (n, d) :: s.numbersOn fit key r k else none :: s.numbersOn fit key r lo
      | none => none :: s.numbersOn fit key r lo

/-- The numbers of the trunk's devices as a walk meets them east-about, and west-about from the manager. -/
def State.trunkNums (s : State) (w : WalkRec) : List (Option (Nat × DevRec)) × List (Option (Nat × DevRec)) :=
  let e := s.numbersOn (fitsTrunk .w) s.trunkKey (w.east.map (·.dev)) 0
  let top := ((e.filterMap (fun x => x)).map (fun x => (s.trunkKey x.1).getD 0)).foldl max 0
  let key (n : Nat) : Option Nat := (s.trunkKey n).bind (fun k => if top < k then some (8 - k) else none)
  (e, if w.closed then [] else s.numbersOn (fitsTrunk .e) key (w.west.map (·.dev)) 0)

/-- The numbers of a spur's devices as a walk meets them. -/
def State.spurNums (s : State) (b sp : Nat) (l : List DevRec) : List (Option (Nat × DevRec)) := s.numbersOn fitsSpur (s.spurKey b sp) l 0

/-- The placement learnt for a device. -/
def State.placeOfDev (s : State) (d : DevRec) : Option Nat := AMap.find d.serial.toNat s.topo.places

/-- The BROKEN bit (R22) of a port's record. -/
def brokenBit : Port → Nat
  | .w => 2 ^ 6 | .e => 2 ^ 14 | .ca => 2 ^ 22 | .cb => 2 ^ 30

/-- The placements of the devices of a line that has been laid. -/
def placesOf (laid : Laid) (ds : List (Nat × DevRec)) : List (Nat × Nat) :=
  laid.devs.filterMap (fun d => match d.2.1, ds.find? (fun x => x.1 == d.1) with
    | some x, some y => some (y.2.serial.toNat, x)
    | _, _ => none)

/-- One spur of a branch that is reached: its workers up to the first break (R29, R36), and whether the link to the first is broken. -/
def State.surveySpur (s : State) (b : Found) (ord sp : Nat) (l : List DevRec) : Survey × Bool :=
  let marks : List (Option (Nat × DevRec)) := s.spurNums b.num sp l
  let ds : List (Nat × DevRec) := before marks
  let laid := layPlan (planLine (AMap.get (2 * (ord - 1) + sp) 0 s.topo.spurs)) (ds.map (fun d => (d.1, s.placeOfDev d.2)))
  let stop := ((longRuns laid).head?).getD laid.devs.length
  let ok := laid.devs.take stop
  let cut (i : Nat) : Bool := i == stop && decide (i < l.length)
  let bit (i : Nat) : Word := if cut i = true then BitVec.ofNat 32 (brokenBit .e) else 0
  let found : List Found := ok.zipIdx.map (fun d =>
    { num := d.1.1, route := b.route, h := b.h + d.2 + 1, c := b.c + d.1.2.2, behind := b.behind ++ [b.num] ++ (ok.take d.2).map (·.1),
      links := ((ds.find? (fun x => x.1 == d.1.1)).map (fun x => x.2.links)).getD 0 ||| bit (d.2 + 1) })
  ({ found := found, places := placesOf laid ds, mism := laid.extra.any (fun e => decide (3 ≤ e.2)), unnum := marks.any (·.isNone),
     seen := (marks.filterMap (fun x => x)).map (·.1) }, cut 0)

/-- A survey of the links by a walk (R13, R15 to R17, R20, R22, R23, R29, R33 to R37). DESIGN CHOICE: where the manager is the only numbered
device, ARCS stays 0 although the ring is open. -/
def State.survey (w : WalkRec) (s : State) : Survey :=
  let marks := s.trunkNums w
  let (e, we, closed) : List (Nat × DevRec) × List (Nat × DevRec) × Bool := arcs w.closed marks.1 marks.2
  let ds : List (Nat × DevRec) := e ++ we.reverse
  let laid := layPlan (planLine s.topo.trunk) (ds.map (fun d => (d.1, s.placeOfDev d.2)))
  let n := laid.devs.length
  let npos := (planLine s.topo.trunk).length
  let runs := longRuns laid ++ (match laid.devs.getLast? with | some (_, some x, _) => if x + 4 ≤ npos then [n] else [] | _ => [])
  let cutE := !closed && decide (e.length < w.east.length)
  let cutW := !closed && decide (we.length < (if w.closed then w.east.length else w.west.length))
  let breaks := runs ++ (if closed then [] else [e.length])
  let bE := breaks.foldl min n
  let bW := if breaks.isEmpty then 0 else breaks.foldl max 0
  let tot := (laid.extra.map (·.2)).sum
  let reach := laid.devs.zipIdx.filterMap (fun d =>
    let i := d.2
    let after (k : Nat) : Nat := ((laid.extra.filter (fun x => decide (k < x.1))).map (·.2)).sum
    let mine := match laid.extra.find? (fun x => decide (i < x.1)) with | some x => x.2 | none => 0
    let cE := match d.1.2.1 with | some _ => d.1.2.2 + after i | none => d.1.2.2 + (after i - mine)
    let cW := match d.1.2.1 with
      | some x => (npos - 1 - x) - (n - 1 - i) + (tot - after i)
      | none => (npos - n) - d.1.2.2 + mine + (tot - after i)
    let east : Option Found := if i < bE then some { num := d.1.1, route := 0, h := i + 1, c := cE, behind := (laid.devs.take i).map (·.1), links := 0 } else none
    let west : Option Found := if bW ≤ i then some { num := d.1.1, route := 1, h := n - i, c := cW, behind := (laid.devs.drop (i + 1)).map (·.1), links := 0 } else none
    match east, west with
    | some a, some b => some (if b.h < a.h ∨ (b.h = a.h ∧ b.c < a.c) then b else a)
    | some a, none => some a
    | none, b => b)
  let runCut (i : Nat) : Bool := runs.contains i && (closed || i != e.length)
  let eastCut (i : Nat) : Bool := runCut i || (cutE && i == e.length)
  let westCut (i : Nat) : Bool := runCut i || (cutW && i == e.length)
  let broken (i : Nat) : Nat := (if eastCut (i + 1) then brokenBit .e else 0) + (if westCut i then brokenBit .w else 0)
  let linked : List Found := reach.map (fun f => { f with links :=
    (((ds.find? (fun x => x.1 == f.num)).map (fun x => x.2.links)).getD 0) ||| BitVec.ofNat 32 (broken ((laid.devs.findIdx? (fun d => d.1 == f.num)).getD 0)) })
  let spurs : List (Found × Survey × Survey) := linked.map (fun f =>
    match (ds.find? (fun x => x.1 == f.num)).bind (fun x => (walkBranches w).find? (fun b => b.dev.serial == x.2.serial)) with
    | none => (f, ({} : Survey), ({} : Survey))
    | some b =>
      let ord := match (laid.devs.find? (fun x => x.1 == f.num)).bind (fun x => x.2.1) with
        | some x => (devPositions (planLine s.topo.trunk) 0 (x + 1)).length
        | none => F.TOPO_ENT_W0_TRUNK_POS.get (s.ent f.num).w0
      let x := s.surveySpur f ord 0 b.spurA
      let y := s.surveySpur f ord 1 b.spurB
      ({ f with links := f.links ||| BitVec.ofNat 32 ((if x.2 then brokenBit .ca else 0) + (if y.2 then brokenBit .cb else 0)) }, x.1, y.1))
  { found := spurs.map (·.1) ++ spurs.flatMap (fun x => x.2.1.found ++ x.2.2.found),
    places := placesOf laid ds ++ spurs.flatMap (fun x => x.2.1.places ++ x.2.2.places),
    arcs := !breaks.isEmpty && s.topo.ents.any (fun x => x.2.valid && x.1 != 0),
    mism := laid.extra.any (fun x => decide (3 ≤ x.2)) || spurs.any (fun x => x.2.1.mism || x.2.2.mism),
    unnum := marks.1.any (·.isNone) || marks.2.any (·.isNone) || spurs.any (fun x => x.2.1.unnum || x.2.2.unnum),
    seen := ((marks.1 ++ marks.2).filterMap (fun x => x)).map (·.1) ++ spurs.flatMap (fun x => x.2.1.seen ++ x.2.2.seen),
    own := (if eastCut 0 then brokenBit .e else 0) + (if westCut n then brokenBit .w else 0) }

/-- Whether two neighbours of a line, each with its place, lie on both sides of place `k`: the link between them crosses it. -/
def spans (k : Nat) : List (Option Nat) → Bool
  | some a :: some b :: r => (decide (min a b < k) && decide (k < max a b)) || spans k (some b :: r)
  | _ :: r => spans k r
  | [] => false

/-- R507: the STATE of a numbered device that no route reaches: cleared where the manager has taken it into DEEP or OFF, or where a link across
its position has locked to a device beyond it; unreachable otherwise, as an EVS-232 that stops always is (R39). DESIGN CHOICE: a device in DEEP or
OFF that also lies beyond a break, or on a spur of a cleared branch, shows cleared: R507 names both states for it. -/
def State.lostState (s : State) (w : WalkRec) (v : Survey) (n : Nat) : Nat :=
  let e := s.ent n
  let sp := F.TOPO_ENT_W0_SPUR_POS.get e.w0
  if v.seen.contains n then 2
  else if e.is232 then 2
  else if 3 ≤ e.pwr then 1
  else if sp = 0 then
    let marks := s.trunkNums w
    let keys (l : List (Option (Nat × DevRec))) : List (Option Nat) := l.map (fun x => x.bind (fun y => s.trunkKey y.1))
    if spans (F.TOPO_ENT_W0_TRUNK_POS.get e.w0) (some 0 :: (keys marks.1 ++ (if w.closed then [some 8] else []))) ||
       spans (F.TOPO_ENT_W0_TRUNK_POS.get e.w0) (some 8 :: keys marks.2) then 1 else 2
  else
    let side := F.TOPO_ENT_W0_SPUR.get e.w0
    let line := (walkBranches w).find? (fun b => match s.numberOf b.dev.serial.toNat with
      | some m => decide (s.trunkKey m = some (F.TOPO_ENT_W0_TRUNK_POS.get e.w0))
      | none => false)
    match line with
    | none => 2
    | some b =>
      let m := (s.numberOf b.dev.serial.toNat).getD 0
      if spans sp (some 0 :: (s.spurNums m side (if side = 0 then b.spurA else b.spurB)).map (fun x => x.bind (fun y => s.spurKey m side y.1))) then 1 else 2

/-! ### Firmware of other devices (R25, R445 to R449) -/

/-- The bytes that a device of a role is sent: the header and the components that name the role (R446). -/
def State.loadBytes (s : State) (role : Nat) : List Byte :=
  let h := s.image.header
  let cs := (List.range (hNcomp h)).map (hComp h)
  let starts := cs.foldl (fun (a : List Nat × Nat) c => (a.1 ++ [a.2], a.2 + cLen c)) ([], 0)
  h ++ (cs.zip starts.1).flatMap (fun c => if bit (cRoles c.1) role then slice s.image.stream c.2 (cLen c.1) else [])

/-- The CWR messages of a load toward a device carry COUNT words (R448). -/
def State.loadCount (s : State) (n : Nat) : Nat := s.cfgWords n

/-! The steps of `TopoE.loading`: 0 waits for its turn; 1 BOOT.STATE is read; 2 to 8 the digest is read; 9 REBOOT is written; 10 BOOT.STATE is
read until the start is done; 16 START is written; `chunk` + byte a part is written; `ending` END is written; `checking` the ROM checks;
`mapping` + e the copy of map entry e is written. -/
def chunk : Nat := 2 ^ 10
def ending : Nat := 2 ^ 32
def checking : Nat := 2 ^ 32 + 1

/-- Notes the step that a device has reached. -/
def State.loadAt (n k : Nat) (s : State) : State := s.modEnt n (fun e => { e with loading := some k })

/-- Reads registers of a device under step `k` of its load. -/
def State.loadRead (n k reg count : Nat) (s : State) : State := (s.loadAt n k).sendCfg n .crd reg [] count (.load n)

/-- Writes registers of a device under step `k` of its load. -/
def State.loadWrite (n k reg : Nat) (ws : List Nat) (s : State) : State := (s.loadAt n k).wardenWrite n reg ws (.load n)

/-- R447: on each trunk port the lowest-numbered device that waits for it takes its turn. -/
def State.loadTurn (s : State) : State :=
  forEach [0, 1] (fun r s =>
    let mine := s.topo.ents.filter (fun e => e.2.valid && F.TOPO_ENT_W0_ROUTE.get e.2.w0 == r && e.2.loading.isSome)
    if mine.any (fun e => e.2.loading != some 0) then s
    else match mine.head? with
      | some (n, _) => s.loadRead n 1 Reg.BOOT_STATE 1
      | none => s) s

/-- R449: a load has failed. -/
def State.loadFail (n code : Nat) (s : State) : State :=
  let e := s.ent n
  let tries := if (e.loading.getD 0) < 16 then e.tries + 1 else e.tries
  if tries < Config.LOAD_TRIES then
    ((s.modEnt n (fun e => { e with loading := some 0, tries := tries, failCode := code, fw := 3 })).bump (mgrSlot 52) 1).loadTurn
  else
    let s := s.modEnt n (fun e => { e with loading := none, tries := tries, failCode := code, fw := 3 })
    ((((s.bump (mgrSlot 51) 1).noticeFor n 0x18 0 [BitVec.ofNat 8 n, 2]).raise Reg.BOOT_STATUS F.BOOT_STATUS_LOAD_FAIL).fault 101 0 []).loadTurn

/-- R25: a device becomes active; the table is updated. -/
def State.deviceActive (n : Nat) (s : State) : State :=
  let s := s.modEnt n (fun e => { e.place 0 (F.TOPO_ENT_W0_ROUTE.get e.w0) e.h e.c with loading := none, halted := false, pwr := 0, pwrBusy := false })
  ((s.tableSeen.ingress).descRetry).loadTurn

/-- R25, R264, R270: entry `e` of the map is written into a device, valid or not; after the last the device is active. Of an EVS-232 the
manager writes no map (R505). -/
def State.loadMap (n e : Nat) (s : State) : State :=
  if 256 ≤ e || (s.ent n).is232 then s.deviceActive n
  else
    let w := AMap.get (n * 256 + e) [0, 0, 0, 0] s.prot.maps
    let init := (s.ent n).owed.contains e && peValid w
    let s := s.modEnt n (fun t => { t with owed := t.owed.filter (· != e) })
    (s.loadAt n (mapping + e)).sendMap n e (if init then peWithInit w else w) (.mapAll n e)

/-- The digest of the running image as words. -/
def State.digestWords (s : State) : List Nat := toWords 12 s.image.digest

/-- Takes words of a device's IMAGE_DIGEST: a match goes on with `next`; a mismatch reloads the device (R25, R446). -/
def State.digestPart (n off : Nat) (ws : List Nat) (next : State → State) (s : State) : State :=
  if ws.take 4 = (s.digestWords.drop off).take 4 then next s
  else (s.noticeFor n 0x18 0 [BitVec.ofNat 8 n, 1]).loadWrite n 9 Reg.BOOT_CTL [1]

/-- Sends the part of a load from byte `pos` on, or END. -/
def State.loadChunk (n pos : Nat) (s : State) : State :=
  let b := s.loadBytes (F.TOPO_ENT_W0_ROLE.get (s.ent n).w0)
  if b.length ≤ pos then s.loadWrite n ending Reg.BOOT_LOAD_CTL [2 ^ 30]
  else
    let k := s.loadCount n
    s.loadWrite n (chunk + pos) (Reg.BOOT_LOAD_WIN 0) (toWords k (slice b pos (4 * k) ++ zeros 16))

/-- A response to an access of a device's load, with its STATUS (R446, R449). -/
def State.loadAnswer (n : Nat) (ws : List Nat) (status : Nat) (s : State) : State :=
  match (s.ent n).loading with
  | none => s
  | some k =>
    let w := ws.headD 0
    if status ≠ 0 then s.loadFail n 0
    else match k with
      | 0 => s
      | 1 =>
        if w % 4 = 2 then s.loadWrite n 2 Reg.MBX_SEL [0x00A * 2 ^ 16]
        else if w % 4 = 0 then
          let len := (s.loadBytes (F.TOPO_ENT_W0_ROLE.get (s.ent n).w0)).length
          (s.modEnt n (fun e => { e with tries := e.tries + 1, fw := 1 })).loadWrite n 16 Reg.BOOT_LOAD_CTL [2 ^ 31 + len]
        else s.loadWrite n 9 Reg.BOOT_CTL [1]
      | 2 => s.loadWrite n 3 Reg.MBX_CTL [1]
      | 3 => s.loadRead n 4 (Reg.MBX_DATA 0) 4
      | 4 => s.digestPart n 0 ws (fun s => s.loadRead n 5 (Reg.MBX_DATA 4) 4)
      | 5 => s.digestPart n 4 ws (fun s => s.loadWrite n 6 Reg.MBX_SEL [2 ^ 28 + 0x00A * 2 ^ 16])
      | 6 => s.loadWrite n 7 Reg.MBX_CTL [1]
      | 7 => s.loadRead n 8 (Reg.MBX_DATA 0) 4
      | 8 => s.digestPart n 8 ws (fun s => (s.modEnt n (fun e => { e with fw := 2 })).loadRead n 10 Reg.BOOT_STATE 1)
      | 9 => s.loadRead n 1 Reg.BOOT_STATE 1
      | 10 =>
        if w % 4 ≠ 2 then s.loadRead n 1 Reg.BOOT_STATE 1
        else if bits w 15 12 = 0 then s.loadMap n 0 else s.loadRead n 10 Reg.BOOT_STATE 1
      | _ =>
        if k = 16 then s.loadChunk n 0
        else if k = ending then s.loadAt n checking
        else if k = checking then s
        else if mapping ≤ k then s.loadMap n (k - mapping + 1)
        else s.loadChunk n (k - chunk + 4 * s.loadCount n)

/-- LOAD_CHECK_DONE at the manager: the outcome of device `n`'s ROM (R446, R449). -/
def State.loadOutcome (n code : Nat) (s : State) : State :=
  if (s.ent n).loading ≠ some checking then s
  else if code = 0 then
    (((s.modEnt n (fun e => { e with fw := 2 })).bump (mgrSlot 50) 1).noticeFor n 0x18 0 [BitVec.ofNat 8 n, 0]).loadRead n 10 Reg.BOOT_STATE 1
  else s.loadFail n code

/-- R19, R25, R117: the number of a device is written into it by a routed message: its position gives the route. -/
def State.writeNumber (n : Nat) (s : State) : State :=
  let e := s.ent n
  let sp := F.TOPO_ENT_W0_SPUR_POS.get e.w0
  let hops := (e.behind.filter (fun m => decide (F.TOPO_ENT_W0_SPUR_POS.get (s.ent m).w0 = 0))).length
  let route := F.TOPO_ENT_W0_ROUTE.get e.w0 + (if sp = 0 then hops + 1 else hops) % 8 * 2 + (if sp = 0 then 0 else 16 + 32 * F.TOPO_ENT_W0_SPUR.get e.w0 +
    (e.behind.length + 1 - hops) % 8 * 64)
  s.tagCfg (.devnum n) { op := .cwr, h := s.hdrTo n false .warden 0 0 0 0, addr := Reg.IDENT_DEVNUM, words := [64 + n], way := some route }

/-- R25: a numbered device answers again: it is returning, and its number is written into it. -/
def State.comeBack (n : Nat) (s : State) : State :=
  (s.modEnt n (fun e => { e.place 3 (F.TOPO_ENT_W0_ROUTE.get e.w0) e.h e.c with tries := 0, loading := none, fw := 0 })).writeNumber n

/-- The response to the write of a number: an EVS-232, whose registers are not written, is active (R505); an EVS-496 waits for its firmware
(R445). -/
def State.numberDone (n status : Nat) (s : State) : State :=
  if (s.ent n).state ≠ 3 then s
  else if status ≠ 0 then s.writeNumber n
  else if (s.ent n).is232 then s.deviceActive n
  else (s.loadAt n 0).loadTurn

/-! ### Table updates (R18, R22 to R24) -/

/-- The link records of the manager's own ports (R22). -/
def State.ownLinks (s : State) : Nat := s.linkRecord .w + s.linkRecord .e * 2 ^ 8 + s.linkRecord .ca * 2 ^ 16 + s.linkRecord .cb * 2 ^ 24

/-- Applies a survey to the table: every entry at once (R22, R507). DESIGN CHOICE: the entry of a device that is not reached keeps its link
records and ROUTE as they were. -/
def State.tableSet (w : WalkRec) (v : Survey) (s : State) : State :=
  let s := { s with topo.places := v.places.foldl (fun (m : AMap Nat) (p : Nat × Nat) => AMap.put p.1 p.2 m) s.topo.places }
  let s := s.modEnt 0 (fun e => { e with w1 := BitVec.ofNat 32 (s.ownLinks ||| v.own) })
  let s := forEach (s.topo.ents.filter (fun e => e.2.valid && e.1 != 0)) (fun e s =>
    let n := e.1
    match v.found.find? (fun f => f.num == n) with
    | some f => s.modEnt n (fun t =>
        { t.place (if t.state = 0 then 0 else 3) f.route f.h f.c with w1 := f.links, behind := f.behind })
    | none =>
      let st := s.lostState w v n
      s.modEnt n (fun t => { t.place st (F.TOPO_ENT_W0_ROUTE.get t.w0) t.h t.c with loading := none })) s
  let ents := s.topo.ents.filter (fun e => e.2.valid)
  let count := s.topo.ents.countP (fun e => e.2.valid)
  let branches := ents.countP (fun e => F.TOPO_ENT_W0_ROLE.get e.2.w0 == 1)
  let arcE := ents.countP TopoE.eastArc
  let s := s.setReg Reg.TOPO_COUNT (BitVec.ofNat 32 (count + branches * 2 ^ 8 + arcE * 2 ^ 12))
  (s.cond Reg.TOPO_STATUS F.TOPO_STATUS_ARCS v.arcs).cond Reg.TOPO_STATUS F.TOPO_STATUS_PLAN_MISMATCH v.mism

/-- ENUMERATION_WALK, steps 3 to 5 of R18, then ENUM_SETTLE: numbers are assigned (R19 to R21). -/
def State.enumerate (w : WalkRec) (s : State) : State :=
  let nums := numbering w
  let man : TopoE := { w0 := entWord { role := 2, gen232 := false, serial := 0, userGib := 94, links := 0, into := .w } 0 0 0, serial := s.id.serial }
  let man := man.place 0 0 0 0
  let ents : AMap TopoE := (0, man) :: nums.zipIdx.map (fun d =>
    (d.2 + 1, { w0 := entWord d.1.1 d.1.2.1 d.1.2.2.1 d.1.2.2.2, serial := d.1.1.serial.toNat, userGib := if d.1.1.gen232 then d.1.1.userGib else 94, w1 := d.1.1.links }))
  let s := { s with topo.ents := ents, topo.walk := some w }
  let auto : Bool := s.fld Reg.TOPO_PLAN_CTL F.TOPO_PLAN_CTL_AUTO == 1 && !s.topo.adopted
  let s := if auto then
      let t := (trunkOf w).take 7
      let spurs : List (Nat × Word) := t.zipIdx.flatMap (fun b => [(2 * b.2, planOf (goodSpur b.1.spurA).length), (2 * b.2 + 1, planOf (goodSpur b.1.spurB).length)])
      let s := { s with topo.trunk := planOf t.length, topo.spurs := spurs.filter (fun x => x.2 != planOf 0), topo.adopted := true }
      let s := s.setReg Reg.TOPO_PLAN_TRUNK (planOf t.length)
      forEach (List.range 14) (fun j s => s.setReg (Reg.TOPO_PLAN_SPUR j) (AMap.get j (planOf 0) spurs)) s
    else s
  let s := (s.raiseIf (overLimit w) Reg.TOPO_STATUS F.TOPO_STATUS_LIMIT).raiseIf (miswired w) Reg.TOPO_STATUS F.TOPO_STATUS_MISWIRE
  let s := (s.setReg Reg.IDENT_DEVNUM 0x40).raise Reg.IDENT_STATUS F.IDENT_STATUS_NUM_CHANGED
  let v := s.survey w
  let s := (s.tableSet w v).cond Reg.TOPO_STATUS F.TOPO_STATUS_ENUM_DONE true
  let s := forEach (v.found.map (·.num)) (fun n s => s.writeNumber n) s
  s.tableSeen

/-- Whether the manager runs its firmware and may walk. -/
def State.walks (s : State) : Bool := s.isManager && s.awake && s.power.fw == 2

/-- Whether numbers have been assigned since the start. -/
def State.enumDone (s : State) : Bool := s.fld Reg.TOPO_STATUS F.TOPO_STATUS_ENUM_DONE == 1

/-- ENUMERATION_WALK: the last walk counts; after ENUM_SETTLE it assigns the numbers. -/
def State.enumWalk (w : WalkRec) (s : State) : State :=
  if !s.walks ∨ s.enumDone then s
  else if s.topo.settled then s.enumerate w
  else { s with topo.walk := some w }

/-- ENUM_SETTLE_EXPIRY (R18 steps 6 and 7). -/
def State.enumSettle (s : State) : State :=
  if !s.isManager ∨ !s.awake ∨ s.enumDone then s
  else
    let s := { s with topo.settled := true }
    match s.topo.walk with
    | some w => if s.walks then s.enumerate w else s
    | none => s

/-- RESURVEY: the links are changing (R23). -/
def State.resurvey (s : State) : State :=
  if !s.walks ∨ !s.enumDone then s else ({ s with topo.settling := true }).cond Reg.TOPO_STATUS F.TOPO_STATUS_UNSETTLED true

/-- TOPOLOGY_TABLE_UPDATE: the links have settled (R23, R24, R507). -/
def State.tableUpdate (w : WalkRec) (s : State) : State :=
  if !s.walks ∨ !s.enumDone then s
  else
    let old := s.topo.ents
    let s := (s.raiseIf (overLimit w) Reg.TOPO_STATUS F.TOPO_STATUS_LIMIT).raiseIf (miswired w) Reg.TOPO_STATUS F.TOPO_STATUS_MISWIRE
    let v := s.survey w
    let s := s.raiseIf v.unnum Reg.TOPO_STATUS F.TOPO_STATUS_UNNUMBERED
    let s := ({ s with topo.settling := false, topo.walk := some w }.tableSet w v).cond Reg.TOPO_STATUS F.TOPO_STATUS_UNSETTLED false
    let was (n : Nat) : TopoE := AMap.get n {} old
    let nums := (s.topo.ents.filter (fun e => e.2.valid && e.1 != 0)).map (·.1)
    let there (k : Nat) : Bool := k == 0 || k == 3
    let left := nums.filter (fun n => (was n).state == 0 && (s.ent n).state != 0)
    let out := nums.filter (fun n => there (was n).state && !there (s.ent n).state)
    let moved := nums.filter (fun n => there (was n).state && (!there (s.ent n).state || F.TOPO_ENT_W0_ROUTE.get (was n).w0 != F.TOPO_ENT_W0_ROUTE.get (s.ent n).w0 ||
      (was n).behind.any (fun m => out.contains m)))
    let back := nums.filter (fun n => ((was n).state == 1 || (was n).state == 2) && (s.ent n).state == 3)
    let asked (n : Nat) : Bool := s.mgr.cfg.any (fun c => match c.2.use with | .load k => k == n | .mapAll k _ => k == n | _ => false)
    let reload := nums.filter (fun n => (was n).loading.isSome && !asked n && (s.ent n).state == 3 && (was n).state == 3 &&
      F.TOPO_ENT_W0_ROUTE.get (was n).w0 != F.TOPO_ENT_W0_ROUTE.get (s.ent n).w0)
    let gone := nums.filter (fun n => (was n).state != 2 && (s.ent n).state == 2)
    let s := (s.pathReset moved).shardsLost moved
    let s := forEach left (fun n s => s.noticeFor n 0x03 2 [BitVec.ofNat 8 (s.ent n).state, BitVec.ofNat 8 (gone.filter (· != n)).length]) s
    let s := s.tableSeen
    let s := forEach back State.comeBack s
    let s := forEach reload (fun n s => s.loadFail n 0) s
    (s.ingress.descRetry).loadTurn

/-- RETURNING (R25): a device that the links went through has begun anew, so that what was under way to it and through it is lost (R24). -/
def State.returning (n serial : Nat) (s : State) : State :=
  if !s.walks ∨ !s.enumDone ∨ n = 0 ∨ !(s.ent n).valid then s
  else if (s.ent n).serial ≠ serial then s.raise Reg.TOPO_STATUS F.TOPO_STATUS_UNNUMBERED
  else
    let lost := (s.ent n).state = 0
    let led := lost ∨ (s.ent n).state = 3
    let all := if led then n :: ((s.topo.ents.filter (fun e => e.2.valid && e.2.behind.contains n)).map (·.1)) else []
    let s := if led then (s.pathReset all).shardsLost all else s
    let s := s.comeBack n
    let s := if lost then s.noticeFor n 0x03 2 [3, 0] else s
    s.tableSeen

/-- `TOPO.PLAN_CTL.COMMIT` (R33, R63). DESIGN CHOICE: MAP bits at or above NPOS count as named positions. -/
def State.planCommit (s : State) : State :=
  let ok := ones 16 ((s.reg Reg.TOPO_PLAN_TRUNK).toNat / 2 ^ 16) ≤ 15 ∧
    (List.range 14).all (fun j => decide (ones 12 ((s.reg (Reg.TOPO_PLAN_SPUR j)).toNat / 2 ^ 16) ≤ 6))
  if ok then
    let spurs : AMap Word := ((List.range 14).map (fun j => (j, s.reg (Reg.TOPO_PLAN_SPUR j)))).filter (fun x => x.2 != 0)
    let s := { s with topo.trunk := s.reg Reg.TOPO_PLAN_TRUNK, topo.spurs := spurs, topo.adopted := true }
    (s.setFld Reg.TOPO_PLAN_CTL F.TOPO_PLAN_CTL_AUTO 0).resurvey
  else s.raise Reg.TOPO_STATUS F.TOPO_STATUS_LIMIT

end Sys2Proof.Machine
end

