-- ==== Sys2Proof/Machine/Fault.lean ====
section
/-! DEFINITION. Fault events that come from inside the device (R460 to R464), the pins and orders of recovery (R470 to R472), the thaw of the
blaze log (R475), and the census (R132, R477 to R482). -/

namespace Sys2Proof.Machine

/-! ### Events -/

/-- The slots of the census tree below a node (R479): node 0 the base die, 1 to 4 the tiers, 5 to 36 the channels, 37 to 40 the ports. -/
def nodeHas (node k : Nat) : Bool :=
  if node = 0 then true
  else if node ≤ 4 then
    let t := node - 1
    (decide (320 * t ≤ k) && decide (k < 320 * (t + 1))) || (decide (0x500 + 32 * t ≤ k) && decide (k < 0x500 + 32 * (t + 1)))
  else if node ≤ 36 then decide (40 * (node - 5) ≤ k) && decide (k < 40 * (node - 4))
  else decide (0x580 + 64 * (node - 37) ≤ k) && decide (k < 0x580 + 64 * (node - 36))

/-- The census number, the tick of the latch and the VOID mask of the last snapshot. -/
def State.snapNo (s : State) : Nat := s.flt.snapHdr.getD 0 0
def State.snapTick (s : State) : Nat := s.flt.snapHdr.getD 1 0
def State.snapVoid (s : State) : Nat := s.flt.snapHdr.getD 2 0

/-- FAULT_EVENT: an event of a source (R463), with what its source does beside its classification: a torn counter restarts (R480; bytes 0
and 1 of the operand's payload name its slot), an uncorrectable census node voids its subtree (R479; byte 0 names the node), an uncorrectable
context word stops its queue (R219; bytes 0 and 1 name it), a corrected one is flagged (R198). Byte 0 names the lane of a link source. -/
def State.faultEvent (src unit : Nat) (pl : List Byte) (s : State) : State :=
  if !s.awake then s.fault src unit pl
  else
    let k := leAt pl 0 2
    let own := match src with | 94 => true | 95 => true | 111 => true | 112 => true | _ => false
    let s := match src with
      | 94 => if s.isManager then s.raise Reg.QCTX_STATUS F.QCTX_STATUS_CTX_CORR else s
      | 95 => if s.isManager then s.queueError (k % 65536) 4 else s
      | 111 =>
        let node := leAt pl 0 1 % 41
        ({ s with flt.snapHdr := [s.snapNo, s.snapTick, setBits s.snapVoid node node 1] }).raise Reg.CENSUS_STATUS F.CENSUS_STATUS_VOID
      | 112 =>
        let v := AMap.get k (0, 0) s.flt.counts
        ((({ s with flt.counts := AMap.set k (0, 0) (0, (v.2 + 1) % 256) s.flt.counts,
                    flt.torn := if s.flt.torn.contains k then s.flt.torn else s.flt.torn ++ [k] }).bump (devSlot 146) 1).raise Reg.CENSUS_STATUS
          F.CENSUS_STATUS_TORN)
      | _ => s
    s.faultE src unit (if own then [] else pl) (leAt pl 0 1 % 8)

/-- WATCHDOG_EXPIRY (R470). -/
def State.watchdog (s : State) : State := s.fault 2 0 []

/-- ALIVE_TOGGLE (R470). -/
def State.aliveToggle (s : State) : State :=
  if s.awake && s.power.healthy then { s with power.alive := !s.power.alive } else s

/-- An accepted WARM_RESET (R471, R472), by its cause: 2 DEVICE_RESET, 3 I3C. A device in the dead state or before its start ignores it. -/
def State.warmReset (cause : Nat) (s : State) : State :=
  if s.awake ∨ s.power.phase = .firebreak then s.resetSoon cause else s

/-- FAULT.CTL.RESUME (R466). -/
def State.resume (s : State) : State :=
  ({ s with flt.admitStop := false }).cond Reg.FAULT_STATUS F.FAULT_STATUS_ADMIT_STOP false

/-- BLAZE.CTL.THAW (R475). -/
def State.thaw (s : State) : State :=
  let b := s.flt.blaze
  let last := match b.f2, b.f1 with | some i, _ => some i | none, i => i
  let eseq := match last with
    | some i => (match AMap.find i b.entries with | some e => e.getD 1 0 / 65536 | none => 0)
    | none => 0
  (({ s with flt.blaze.f1 := none, flt.blaze.f2 := none }).blazeAt 255 255 0 0 0x000B 0 (leBytes 2 eseq)).1.blazeFlags

/-! ### The snapshot (R478 to R482) -/

/-- Whether a slot is not present in a role. -/
def slotAbsent (role k : Nat) : Bool := (decide (0x800 ≤ k) && role != 2) || (decide (0x580 ≤ k) && decide (k < 0x600) && role == 0)

/-- A slot in the format of R481, as two words. -/
def slotWords (v : Nat × Nat) (na torn void : Bool) : List Nat :=
  let x := if void || na then 0 else v.1 % 2 ^ 48
  [x % 2 ^ 32, x / 2 ^ 32 % 65536 + (if void || na then 0 else v.2 % 256) * 2 ^ 16 + b2n na * 2 ^ 29 + b2n torn * 2 ^ 30 + b2n void * 2 ^ 31]

/-- Slot `k` of the last snapshot. -/
def State.snapSlot (s : State) (k : Nat) : List Nat :=
  let void := (List.range 41).any (fun n => bit s.snapVoid n && nodeHas n k)
  slotWords (AMap.get k (0, 0) s.flt.snap) (slotAbsent s.id.role k) (s.flt.snapTorn.contains k) void

/-- The live value of counter `k`. -/
def State.liveSlot (s : State) (k : Nat) : List Nat := slotWords (AMap.get k (0, 0) s.tally.flt.counts) (slotAbsent s.id.role k) false false

/-- The section header of R481: device number, state, unclosed ports, tick of the latch, VOID mask, in-flight counts. -/
def sectionBytes (num state unclosed tick void : Nat) (counts : List (List Nat)) : List Byte :=
  let b := leBytes 1 num ++ leBytes 1 state ++ leBytes 1 unclosed ++ [0] ++ leBytes 6 tick ++ zeros 6 ++ leBytes 8 void ++
    counts.flatMap (fun c => (List.range 7).flatMap (fun i => leBytes 2 (min 65535 (c.getD i 0))))
  (b ++ zeros 128).take 128

/-- The section header of this device's last snapshot, as 32 words. -/
def State.sectionWords (s : State) : List Nat :=
  let un := allPorts.foldl (fun (a : Nat) p => a + b2n (s.port p).unclosed * 2 ^ portNo p) 0
  toWords 32 (sectionBytes s.num 0 un s.snapTick s.snapVoid (allPorts.map (fun p => (s.port p).sinceAct)))

/-- A trunk or spur port that carries markers (R132, R477). -/
def State.markerPort (s : State) (p : Port) : Bool := s.portUp p && !s.hostSide p

/-- A census marker. -/
def State.censusMsg (s : State) (number tick : Nat) (echo : Bool) : Msg :=
  { op := .census, h := s.hdrTo 0 false .switch 0 0 0 (b2n echo), words := [number, tick % 2 ^ 32, tick / 2 ^ 32] }

/-- Sends a marker as the next sequenced message of a port. -/
def State.sendMarker (p : Port) (number tick : Nat) (echo : Bool) (s : State) : State :=
  (s.modPort p (fun x => { x with wait := s.censusMsg number tick echo :: x.wait })).flush p

/-- `CENSUS.STATUS.RUNNING`. -/
def State.censusFlag (s : State) : State :=
  s.cond Reg.CENSUS_STATUS F.CENSUS_STATUS_RUNNING (s.flt.census.isSome || allPorts.any (fun p => !(s.port p).closed && !(s.port p).unclosed))

/-- R478: every counter is latched; `from?` is the port of first arrival. -/
def State.latch (number : Nat) (from? : Option Port) (s : State) : State :=
  let s := s.tally.bump (devSlot 144) 1
  let s := { s with flt.snap := s.flt.counts, flt.snapTorn := s.flt.torn, flt.torn := [], flt.snapHdr := [number, s.tick, 0], flt.lastCensus := number }
  let s := s.setReg Reg.CENSUS_LAST (BitVec.ofNat 32 number)
  forEach allPorts (fun p s => s.modPort p (fun x =>
    { x with sinceAct := [0, 0, 0, 0, 0, 0, 0], closed := !s.markerPort p || from? == some p, unclosed := false })) s

/-- CENSUS: a marker arrives (R132, R478). -/
def State.censusIn (p : Port) (number tick : Nat) (echo : Bool) (s : State) : State :=
  match s.accept p .census 0 true with
  | (s, false) => s
  | (s, true) =>
    if echo ∨ number = s.flt.lastCensus ∨ s.isManager then
      (s.modPort p (fun x => { x with closed := true })).censusFlag
    else
      let s := (s.latch number (some p)).sendMarker p number tick true
      (forEach (allPorts.filter (fun o => o != p && s.markerPort o)) (fun o s => s.sendMarker o number tick false) s).censusFlag

/-- CENSUS_WAIT_EXPIRY (R478). -/
def State.censusWait (p : Port) (s : State) : State :=
  if (s.port p).closed then s else (s.modPort p (fun x => { x with unclosed := true, closed := true })).censusFlag

/-! ### The manager's census (R477, R479, R481) -/

/-- Words of a device's part of the record: its section header and its slots. -/
def sectionLen : Nat := 32 + 2 * Config.CENSUS_SLOTS

/-- The state of a device in a census: 0 present, 1 ABSENT, 2 ASLEEP (R479). -/
def State.censusState (s : State) (n : Nat) : Nat :=
  let e := s.ent n
  if n = 0 then 0 else if 2 ≤ e.pwr then 2 else if e.state ≠ 0 ∨ s.noEngines n then 1 else 0

/-- Asks a device for the next part of its snapshot over CFG; phases 0 SEL, 1 CTL, 2 DATA, 3 CENSUS.LAST, 4 the transfer's end. -/
def State.censusSend (n ph : Nat) (s : State) : State :=
  match s.flt.census with
  | none => s
  | some c =>
    let k := (AMap.get n [] c.sections).length
    let s := { s with flt.census := some { c with asked := (c.asked.filter (fun x => x / 8 != n)) ++ [n * 8 + ph] } }
    let item := if k < 32 then 0x2000 else (k - 32) / 2
    match ph with
    | 0 => s.wardenWrite n Reg.MBX_SEL [(if k < 32 then k / 8 * 2 ^ 28 else 0) + 0x004 * 2 ^ 16 + item] (.census n)
    | 1 => s.wardenWrite n Reg.MBX_CTL [1] (.census n)
    | 2 => s.sendCfg n .crd (Reg.MBX_DATA (if k < 32 then k % 8 else 0)) [] (if k < 32 then 4 else 2) (.census n)
    | 4 => s.sendCfg n .crd Reg.MBX_CTL [] 1 (.census n)
    | _ => s.sendCfg n .crd Reg.CENSUS_LAST [] 1 (.census n)

/-- The device numbers of the table. -/
def State.numbers (s : State) : List Nat := (s.topo.ents.filter (fun e => e.2.valid)).map (·.1)

/-- R479: up to 16 devices are read at a time. -/
def State.censusTurn (s : State) : State :=
  match s.flt.census with
  | none => s
  | some c =>
    let busy := c.asked.length
    let next := s.numbers.filter (fun n => s.censusState n == 0 && n != 0 && !c.asked.any (fun x => x / 8 == n) && (AMap.find n c.sections).isNone)
    forEach (next.take (16 - busy)) (fun n s => s.censusSend n 3) s

/-- Starts a census (R477); `dst` is the queue, index and host address of a CENSUS descriptor. -/
def State.censusStart (dst : Option (Nat × Nat × Nat)) (s : State) : State :=
  let n := s.flt.censusNo + 1
  let s := ({ s with flt.censusNo := n }).latch n none
  let own := s.sectionWords ++ (List.range Config.CENSUS_SLOTS).flatMap s.snapSlot
  let s := { s with flt.census := some { number := n, tick := s.tick, topoSeq := s.fld Reg.TOPO_STATUS F.TOPO_STATUS_SEQ, dst := dst, asked := [],
                                         sections := [(0, own)] } }
  let s := forEach (allPorts.filter s.markerPort) (fun p s => s.sendMarker p n s.tick false) s
  s.censusTurn.censusFlag

/-- CENSUS_INTERVAL (R477, R481). -/
def State.censusInterval (s : State) : State :=
  if !s.isManager ∨ !s.running ∨ s.fld Reg.CENSUS_CTL F.CENSUS_CTL_INTERVAL = 0 then s
  else if s.flt.census.isSome then (s.raise Reg.CENSUS_STATUS F.CENSUS_STATUS_SKIPPED).bump (devSlot 145) 1
  else s.censusStart none

/-- The words of a device in the record: as collected, else ABSENT or ASLEEP. -/
def State.censusWords (s : State) (c : CensusS) (n : Nat) : List Nat :=
  match AMap.find n c.sections with
  | some l => if l.length = sectionLen then l
              else toWords 32 (sectionBytes n 1 0 0 0 []) ++ List.replicate (2 * Config.CENSUS_SLOTS) 0
  | none => toWords 32 (sectionBytes n (if s.censusState n = 2 then 2 else 1) 0 0 0 []) ++ List.replicate (2 * Config.CENSUS_SLOTS) 0

/-- The VOID mask in a device's section. -/
def sectionVoid (l : List Nat) : Nat := l.getD 4 0 + l.getD 5 0 * 2 ^ 32

/-- The record of a census (R481). -/
def State.censusRecord (s : State) (c : CensusS) : List Byte :=
  let ns := s.numbers
  let parts := ns.map (s.censusWords c)
  let void := (parts.map (fun l => ones 41 (sectionVoid l))).sum
  let head := leBytes 4 c.number ++ leBytes 6 c.tick ++ leBytes 6 s.tick ++ leBytes 1 ns.length ++ leBytes 1 (min 255 void) ++ leBytes 2 c.topoSeq
  (head ++ zeros 128).take 128 ++ parts.flatMap ofWords

/-- The census ends: the notice, and a CENSUS_VOID entry where a subtree is VOID (R481). DESIGN CHOICE: the notice's count of VOID subtrees
stops at 255, as the record's does; R131 does not say what one byte holds beyond it. -/
def State.censusEnd (c : CensusS) (s : State) : State :=
  let parts := s.numbers.map (s.censusWords c)
  let void := (parts.map (fun l => ones 41 (sectionVoid l))).sum
  let mask := parts.foldl (fun (a : Nat) l => a ||| sectionVoid l) 0
  let s := s.noticeFor 0 0x11 0 (leBytes 4 c.number ++ leBytes 1 (min 255 void))
  let s := if void = 0 then s else (s.blazeAt 255 255 0 0 0x000C 0 (leBytes 4 c.number ++ leBytes 8 mask)).1
  let s := { s with flt.census := none }.censusFlag
  match c.dst with
  | some (q, i, _) => (match s.desc q i with | some d => s.record d 0 c.number none false | none => s)
  | none => s

/-- Host writes of a record in 64-byte granules. -/
def State.hostWrites (use : HostUse) (addr : Nat) : List Byte → Nat → State → State
  | _, 0, s => s
  | l, n + 1, s => (s.hostReq use .wr64 addr (l.take 64)).hostWrites use (addr + 64) (l.drop 64) n

/-- The record is completed (R479): written to host memory where a descriptor asked for it; no further part is taken. -/
def State.censusComplete (s : State) : State :=
  match s.flt.census with
  | none => s
  | some c =>
    match c.dst with
    | none => s.censusEnd c
    | some (_, _, a) =>
      let b := s.censusRecord c
      let s := { s with flt.census := some { c with asked := [4 * 2 ^ 20] } }
      s.hostWrites .census a b (b.length / 64)

/-- Whether the record is being written. -/
def CensusS.writing (c : CensusS) : Bool := c.asked == [4 * 2 ^ 20]

/-- A response to an access of the census (R479). -/
def State.censusAnswer (n : Nat) (ws : List Nat) (status : Nat) (s : State) : State :=
  match s.flt.census with
  | none => s
  | some c =>
    match c.asked.find? (fun x => x / 8 == n) with
    | none => s
    | some x =>
      let drop (s : State) (sec : Option (List Nat)) : State :=
        { s with flt.census := some { c with asked := c.asked.filter (fun x => x / 8 != n), sections := match sec with | some l => AMap.put n l c.sections | none => c.sections } }
      let all (s : State) : State :=
        match s.flt.census with
        | some c => if c.asked.isEmpty ∧ s.numbers.all (fun m => s.censusState m != 0 || (AMap.find m c.sections).isSome) then s.censusComplete else s
        | none => s
      if status ≠ 0 then all (drop s (some [])).censusTurn
      else match x % 8 with
        | 0 => s.censusSend n 1
        | 1 => s.censusSend n 4
        | 4 => if bit (ws.headD 0) 2 then s.censusSend n 4 else if bits (ws.headD 0) 18 16 ≠ 0 then s.censusSend n 0 else s.censusSend n 2
        | 2 =>
          let l := AMap.get n [] c.sections ++ ws
          let s := { s with flt.census := some { c with sections := AMap.put n l c.sections } }
          if l.length < 32 ∧ l.length % 8 = 4 then s.censusSend n 2
          else if l.length < sectionLen then s.censusSend n 0
          else all (drop s (some l)).censusTurn
        | _ => if ws.headD 0 = c.number then s.censusSend n 0 else s.censusSend n 3

/-- CENSUS_DONE (R479). -/
def State.censusDone (s : State) : State :=
  match s.flt.census with
  | none => s
  | some c => if c.writing then s else s.censusComplete

/-- An answer to a write of the record: after the last, the census ends; an ERR fails the descriptor (R110, R219). -/
def State.censusWritten (r : Except Nat (List Byte)) (s : State) : State :=
  match s.flt.census with
  | none => s
  | some c =>
    match r with
    | .error k =>
      let s := { s with flt.census := none }.censusFlag
      (match c.dst with
        | some (q, i, _) => (match s.desc q i with | some d => s.record d k 0 none false | none => s)
        | none => s)
    | .ok _ => if s.mgr.host.any (fun h => h.2.use == .census) then s else s.censusEnd c

end Sys2Proof.Machine
end

