-- ==== Sys2Proof/Machine/Mgmt.lean ====
section
/-! DEFINITION. The management opcodes (R214): the descriptor the warden works on, and what each opcode does: FENCE, CENSUS, POWER_STATE
(R384), KEY_LOAD and KEY_RETIRE (R261 to R263), EVACUATE (R348 to R350), RETIRE_MAP (R335, R336), BIST_RUN (R456), FW_STAGE (R453, R454),
BLAZE_DUMP (R476), DEVICE_RESET (R471), CAL_RUN (R365), FUSE_PROGRAM (R428, R429). -/

namespace Sys2Proof.Machine

namespace Code
def unsupported : Nat := 0x16
end Code

/-! ### The descriptor at work -/

/-- Sets what is known of the descriptor at work. -/
def State.putJob (j : JobS) (s : State) : State := { s with que.job := some j }

/-- The descriptor at work completes. -/
def State.jobEnd (code value : Nat) (key : Option Nat) (reset : Bool) (s : State) : State :=
  match s.que.job with
  | none => s
  | some j =>
    let s := { s with que.job := none }
    match s.desc j.q j.i with
    | none => s
    | some d => s.record d code value key reset

/-- The accesses of the descriptor at work that are still outstanding concern it no longer. -/
def State.jobLeave (s : State) : State :=
  { s with mgr.host := AMap.mapVal (fun h => match h.use with | .job _ => { h with use := .drop } | .jobWrite _ => { h with use := .drop } | _ => h) s.mgr.host
           mgr.cfg := AMap.mapVal (fun c => match c.use with | .job _ => { c with use := .seq } | _ => c) s.mgr.cfg }

/-- Completion without a key or a reset. -/
def State.jobDone (code value : Nat) (s : State) : State := s.jobEnd code value none false

/-- R214: whether the warden takes up a descriptor: none is at work, none of an earlier fetch is or may be waiting, and no map write concerns the
ranges of an EVACUATE (R270). -/
def State.jobTurn (s : State) (d : DescS) : Bool :=
  s.que.job.isNone && s.mayStart d && !(dOpc d.words == 0x45 && (shardRanges d.words).any s.rangeHeld) &&
  s.que.descs.all (fun e => decide (d.order ≤ e.order) ||
    !((e.words.isEmpty && cMgmt (s.ctx e.q)) || (isMgmtOpc (dOpc e.words) && dOpc e.words != 0x40 && e.stage == .ready)))

/-- The warden starts the descriptor (q, i) where it carries opcode `opc`, and works on it as `f` says. -/
def State.jobStart (opc q i : Nat) (f : DescS → State → State) (s : State) : State :=
  match s.desc q i with
  | none => s
  | some d =>
    if s.isManager && s.running && dOpc d.words == opc && s.jobTurn d then
      f { d with stage := .running } ((s.putDesc { d with stage := .running }).putJob { q := q, i := i })
    else s

/-- R214: the code that a target draws before its opcode's own checks; `early` for the opcodes that a returning device takes. -/
def State.tgtCode (s : State) (n : Nat) (early : Bool) : Nat :=
  let e := s.ent n
  if !e.valid then Cause.noDevice
  else if e.state = 3 ∧ early ∧ !e.halted then 0
  else if s.unreachable n then Cause.unreachable
  else 0

/-- The code of a warden access that failed (R116, R214). -/
def cfgCode (status : Nat) : Nat :=
  if status = 1 then Cause.noDevice else if status = 3 then Cause.pathReset else if status = 4 then Cause.timeout else Cause.unreachable

/-- The targets of a descriptor: TGT, or every numbered device. -/
def State.targets (s : State) (w : List Nat) : List Nat := if dTgtAll w then s.numbers else [dTgt w]

/-- What another device makes of an order for which the manual gives no message: one of `codes`, or the end of the warden's access with
PATH_RESET or TIMEOUT (R116, R214), and a value. -/
def State.remoteOrder (codes : List Nat) (s : State) : State × Nat × Nat :=
  let (i, s) := s.draw
  let x := Config.remoteOrder i
  let codes := codes ++ [Cause.pathReset, Cause.timeout]
  (s, codes.getD (x.1 % codes.length) 0, x.2 % 2 ^ 32)

/-- Reads `n` granules of `g` bytes of host memory for the descriptor at work, at offsets from `off` on. -/
def State.jobRead (op : MOp) (g addr off n : Nat) (s : State) : State :=
  forEach (List.range n) (fun k s => s.hostReq (.job (off + k * g)) op (addr + k * g) []) s

/-- The bytes read for the descriptor at work, in order of offset. -/
def JobS.bytes (j : JobS) : List Byte := j.data.flatMap (·.2)

/-! ### FENCE and CENSUS -/

/-- FENCE: complete once every earlier descriptor of its queue is; an EPOCH_END of a group completes with its epoch (R214, R249). -/
def State.fenceRun (q i : Nat) (s : State) : State :=
  match s.desc q i with
  | none => s
  | some d =>
    if dOpc d.words = 0x40 ∧ d.stage = .ready ∧ !s.isEpochEnd d ∧ s.que.descs.all (fun e => e.q != q || decide (d.order ≤ e.order)) then
      s.record d 0 0 none false
    else s

/-- CENSUS (R477, R481). -/
def State.censusRun (d : DescS) (s : State) : State :=
  if s.flt.census.isSome then s.jobDone Code.busy 0
  else if dDst d.words % 128 ≠ 0 ∨ dLen d.words < 128 + 18560 * s.numbers.length then s.jobDone Code.badField 0
  else s.censusStart (some (d.q, d.i, dDst d.words))

/-! ### POWER_STATE (R384) -/

/-- The walk without one device. -/
def dropDev (sn : Nat) (w : WalkRec) : WalkRec :=
  let cut (l : List BranchRec) : List BranchRec := (l.filter (fun (b : BranchRec) => b.dev.serial.toNat != sn)).map (fun (b : BranchRec) =>
    { b with spurA := b.spurA.filter (fun (d : DevRec) => d.serial.toNat != sn), spurB := b.spurB.filter (fun (d : DevRec) => d.serial.toNat != sn) })
  { w with east := cut w.east, west := cut w.west }

/-- Whether the closed relays of device `n` would leave a device in RUN, IDLE or SLEEP unreachable (R29, R35 to R37). -/
def State.strands (s : State) (n : Nat) : Bool :=
  match s.topo.walk with
  | none => false
  | some w =>
    let v := s.survey (dropDev (s.ent n).serial w)
    s.topo.ents.any (fun x => x.1 != 0 && x.1 != n && x.2.valid && x.2.state == 0 && decide (x.2.pwr < 3) && !v.found.any (fun f => f.num == x.1))

/-- The power state of a device as the manager knows it. -/
def State.pwrOf (s : State) (n : Nat) : Nat := if n = 0 then s.power.pstate else (s.ent n).pwr

/-- The code with which POWER_STATE of device `n` into state `k` is refused, 0 for none. -/
def State.pwrRefusal (s : State) (n k : Nat) : Nat :=
  let e := s.ent n
  if !e.valid then Cause.noDevice
  else if e.is232 then Code.unsupported
  else if s.unreachable n ∨ 3 ≤ e.pwr then Cause.unreachable
  else if n = 0 ∧ 3 ≤ k then Code.condition
  else if (if n = 0 then s.power.transit else e.pwrBusy) then Code.condition
  else if k = 2 ∧ s.topo.ents.any (fun x => x.1 != n && x.2.valid && x.2.state == 0 && x.2.behind.contains n && decide (x.2.pwr < 2)) then
    Code.condition
  else if 3 ≤ k ∧ s.strands n then Code.condition
  else 0

/-- The word that asks for a power state. -/
def pwrWord (k : Nat) : Nat := (F.PWR_CMD_GO.set 1 (F.PWR_CMD_STATE.set k 0)).toNat

/-- Writes `PWR.CMD` of a device. -/
def State.pwrSend (n k stage : Nat) (j : JobS) (s : State) : State :=
  ((s.putJob { j with stage := stage }).modEnt n (fun e => { e with pwrBusy := true })).wardenWrite n Reg.PWR_CMD [pwrWord k] (.job n)

/-- One target is done: prior state on success, else its code. -/
def JobS.pwrNext (j : JobS) (code prior : Nat) : JobS :=
  { j with stage := 0, due := none, todo := j.todo.tail, done := if code = 0 then j.done + 1 else j.done, code := if code = 0 then j.code else code,
           value := if code = 0 then (if j.done = 0 then prior else min j.value prior) else j.value, data := [] }

/-- The prior state of the target at work. -/
def JobS.prior (j : JobS) : Nat := (AMap.get 0 [] j.data).length

/-- Works on the targets of a POWER_STATE in order; stages: 1 RUN written, 2 waits for RUN, 3 the state written, 4 waits for its notice, 5 waits until
the entry can be abandoned no longer, 50 the manager waits for its completion record. With ALL, a device that is in RUN already is not one that
RUN changes. -/
def State.pwrWork (all : Bool) (k : Nat) : Nat → State → State
  | 0, s => s
  | fuel + 1, s =>
    match s.que.job with
    | none => s
    | some j =>
      match j.todo with
      | [] =>
        let c := if all && j.code != 0 then Code.condition else j.code
        (s.raiseIf (c == Code.condition) Reg.PWR_STATUS F.PWR_STATUS_REFUSED).jobDone c
          (if c = 0 then j.value else if all then j.done else 0)
      | n :: _ =>
        let c := s.pwrRefusal n k
        let p := s.pwrOf n
        let note (j : JobS) : JobS := { j with data := [(0, zeros p)] }
        if c ≠ 0 then (s.putJob (j.pwrNext c 0)).pwrWork all k fuel
        else if p = 0 ∧ k = 0 then (s.putJob (if all then { j with todo := j.todo.tail } else j.pwrNext 0 0)).pwrWork all k fuel
        else if n = 0 then
          if p ≠ 0 then (s.putJob { note j with stage := 2 }).pwrCmd 0
          else ((s.jobDone 0 (if j.data.isEmpty then p else j.prior)).putJob { j with stage := 50, value := k })
        else if p ≠ 0 then s.pwrSend n 0 1 (note j)
        else s.pwrSend n k 3 (note j)

/-- The state code and the scope of a POWER_STATE. -/
def pwrArgs (w : List Nat) : Bool × Nat := (dTgtAll w, dAuxN w 1 1)

/-- The targets in the order of R384. -/
def State.pwrOrder (s : State) (k : Nat) : List Nat :=
  let h (n : Nat) : Nat := F.TOPO_ENT_W0_H.get (s.ent n).w0
  let l := sortBy (fun a b => decide (h a < h b) || (h a == h b && decide (a ≤ b))) (s.numbers.filter (· != 0))
  if k = 0 then l else l.reverse

/-- POWER_STATE. -/
def State.powerRun (d : DescS) (s : State) : State :=
  let (all, k) := pwrArgs d.words
  let l := if all then s.pwrOrder k else [dTgt d.words]
  (s.putJob { q := d.q, i := d.i, todo := l }).pwrWork all k (l.length + 1)

/-- Goes on with the next target. -/
def State.pwrGo (j : JobS) (s : State) : State :=
  match s.desc j.q j.i with
  | none => s
  | some d => let (all, k) := pwrArgs d.words; (s.putJob j).pwrWork all k (j.todo.length + 1)

/-- A response to a write of `PWR.CMD`. -/
def State.pwrAnswer (j : JobS) (n status : Nat) (s : State) : State :=
  if j.todo.head? ≠ some n ∨ !(j.stage = 1 ∨ j.stage = 3) then s
  else if status ≠ 0 then (s.modEnt n (fun e => { e with pwrBusy := false })).pwrGo (j.pwrNext (cfgCode status) 0)
  else s.putJob { j with stage := j.stage + 1 }

/-- R384, R387: a device has told its power state in a POWER notice: new state, old state, wake source. -/
def State.pwrTold (n new wake : Nat) (s : State) : State :=
  let s := s.modEnt n (fun e => { e with pwr := new, pwrBusy := false })
  match s.que.job with
  | none => s
  | some j =>
    match s.desc j.q j.i with
    | none => s
    | some d =>
      let k := (pwrArgs d.words).2
      if dOpc d.words ≠ 0x42 ∨ j.todo.head? ≠ some n ∨ j.stage = 0 then s
      else if j.stage ≤ 2 then
        if new ≠ 0 then s
        else if k = 0 then s.pwrGo (j.pwrNext 0 j.prior)
        else s.pwrSend n k 3 j
      else if new = k ∧ k ≠ 0 then s.putJob { j with stage := 5, due := some (s.now + Config.T_ENTRY) }
      else if new = k then s.jobLeave.pwrGo (j.pwrNext 0 j.prior)
      else if wake = 3 then s.jobLeave.pwrGo (j.pwrNext Code.condition 0)
      else s

/-- R384, R385: T_ENTRY after its POWER notice a device's entry has not been abandoned: its ENTER marker has been acknowledged. DEDUCED: no message
tells a manager of the acknowledgement, so it waits for the longest time of an entry. -/
def State.pwrDue (s : State) : State :=
  match s.que.job with
  | none => s
  | some j => if j.stage = 5 ∧ j.due.any (fun t => decide (t ≤ s.now)) then s.jobLeave.pwrGo (j.pwrNext 0 j.prior) else s

/-- What a POWER_STATE of the manager itself waits for. -/
def State.pwrOwn (j : JobS) (s : State) : State :=
  if j.stage = 50 then
    (if s.que.cqs.all (fun c => c.2.recs.all (fun r => r.q != j.q)) then { s with que.job := none }.pwrCmd j.value
     else s)
  else if j.stage = 2 ∧ j.todo.head? = some 0 ∧ s.power.pstate = 0 ∧ !s.power.transit then
    match s.desc j.q j.i with
    | none => s
    | some d =>
      let k := (pwrArgs d.words).2
      if k = 0 then s.pwrGo (j.pwrNext 0 j.prior) else s.pwrGo { j with stage := 0 }
  else s

/-! ### Keys (R259 to R263) -/

/-- KEY_LOAD. -/
def State.keyLoadRun (d : DescS) (s : State) : State :=
  let kid := dAuxN d.words 2 2
  if dSrc d.words % 64 ≠ 0 ∨ kid = 0 then s.jobDone Code.badField 0
  else if !s.duk then s.jobDone Code.condition 0
  else if (s.key kid).state ≠ 0 ∨ (s.key kid).pend then s.jobDone Code.locked 0
  else s.jobRead .rd64 64 (dSrc d.words) 0 1

/-- K_DU as its consumers read it: the first 32 bytes of the region. -/
def State.dukBytes (s : State) : List Byte :=
  match regionOf 2 with | some r => ofWords ((List.range 8).map (s.fuseUse r)) | none => zeros 32

/-- The wrapped key has arrived. -/
def State.keyLoaded (d : DescS) (blob : List Byte) (s : State) : State :=
  let kid := dAuxN d.words 2 2
  let fail (s : State) : State := (s.raise Reg.PROT_STATUS F.PROT_STATUS_AUTH_FAIL).jobDone Code.authFail 0
  match keyUnwrap s.dukBytes (blob.take 40) with
  | none => fail s
  | some k =>
    let (a, b, c) := deriveKeys k kid
    if a = b then fail s
    else (s.setKey kid { state := 0, kData := a, kTweak := b, kTag := c, pend := true }).jobEnd 0 0 (some kid) false

/-- KEY_RETIRE. -/
def State.keyRetireRun (d : DescS) (s : State) : State :=
  let kid := dAuxN d.words 2 2
  if kid = 0 then s.jobDone Code.badField 0
  else if (s.key kid).state = 0 then s.jobDone 0 0
  else s.setKey kid { s.key kid with state := 2, retire := some (d.q, d.i) }

/-- KEY_RETIRE_DRAIN: the last use of a retiring KeyID has completed (R263). -/
def State.keyDrain (kid : Nat) (s : State) : State :=
  if (s.key kid).state ≠ 2 ∨ s.keyUses kid ≠ 0 then s
  else
    let r := (s.key kid).retire
    let s := s.setKey kid {}
    match s.que.job, r with
    | some j, some (q, i) => if j.q = q ∧ j.i = i then s.jobDone 0 0 else s
    | _, _ => s

/-! ### EVACUATE (R348 to R350) -/

/-- EVACUATE. -/
def State.evacuateRun (d : DescS) (s : State) : State :=
  let w := d.words
  let t := dTgt w
  let src := (dSrc w, dLen w)
  let dst := (dDst w, dLen w)
  let c := s.tgtCode t false
  if adDev (dSrc w) ≠ t ∨ (s.ent (adDev (dDst w))).is232 ∨ overlap src dst then s.jobDone Code.badField 0
  else if c ≠ 0 then s.jobDone c 0
  else if s.noEngines t then s.jobDone Code.unsupported 0
  else if dLen w = 0 then s.jobDone 0 0
  else
    let k := firstCode [s.rangeCheck src, s.rangeCheck dst]
    if k ≠ 0 then s.jobDone k 0
    else if !s.rangeProt (cDomain (s.ctx d.q)) src ∨ !s.rangeProt (cDomain (s.ctx d.q)) dst ∨
        (s.rangeRelay src ∧ s.rangeOpen dst) then s.jobDone Cause.protDenied 0
    else
      let l := s.shardsOf w
      let sh : AMap ShardM := (List.range l.length).map (fun n => (n, { dev := (l.getD n (0, 0)).1, tier := (l.getD n (0, 0)).2 }))
      (s.putDesc { d with relay := s.rangeRelay src || s.rangeRelay dst, shards := sh }).sendShards

/-! ### RETIRE_MAP (R159 to R161, R335, R336) -/

/-- The RESERVE notice. -/
def State.reserveNotice (s : State) : State := s.notice 0x16 0 (leBytes 2 s.remapUsed ++ leBytes 1 s.pool.steers.length)

/-- The remap block of entry `i`, allotted where it is not yet; none where no usable block is free (R159, R161). DESIGN CHOICE: slots go on being
handed out from a remap block that has become unusable and found no block to move to. -/
def State.remapBlock (i : Nat) (s : State) : Option (State × Nat) :=
  match s.pool.blocks[i / 8192]? with
  | some b => some (s, b)
  | none => match s.freeBlocks with
    | [] => none
    | b :: _ => some ({ s with pool.blocks := s.pool.blocks ++ [b] }, b)

/-- Installs a page-remap entry and starts its copy; the entry's index and the copy's number. -/
def State.retirePage (page : Nat) (s : State) : Option (State × Nat × Nat) :=
  let i := s.remapUsed
  if 16384 ≤ i then none
  else match s.remapBlock i with
    | none => none
    | some (s, b) =>
      let old := (s.remapOf page).map (·.1)
      let s := { s with pool.remaps := AMap.put i { page := page, slot := i % 8192, block := b, valid := true, retired := false, done := false }
                          s.pool.remaps }
      let s := when (i + 1 == 12288 || i + 1 == 14746) State.reserveNotice s
      let (s, job) := s.copyStart (.page i old) 32 b true
      some (s, i, job)

/-- Installs a bank-steer entry, or moves the one that the bank has, and starts its copy. -/
def State.retireBank (p : Place) (s : State) : Option (State × Nat × Nat) :=
  let total := if 8 ≤ p.bg then 8 * Config.poolFirstRow else 262144
  match s.steerOf p with
  | some (i, e) =>
    (match s.steerTarget p.tier with
      | none => none
      | some b => let (s, job) := s.copyStart (.bank i (some e.block)) total b true; some (s, i, job))
  | none =>
    let i := s.pool.steers.length
    if 8 ≤ i then none
    else
      let e : SteerE := { pc := p.pc, bg := p.bg, bk := p.bk, block := 64, done := false, mark := 0 }
      let t := ({ s with pool.steers := AMap.put i e s.pool.steers }).steerTarget p.tier
      match t with
      | none => none
      | some b =>
        let s := { s with pool.steers := AMap.put i { e with block := b } s.pool.steers }
        let s := when (i + 1 == 8) State.reserveNotice s
        let (s, job) := s.copyStart (.bank i none) total b true
        some (s.relocate, i, job)

/-- RETIRE_MAP: the copy's number stands as the next of `todo`. -/
def State.retireRun (d : DescS) (s : State) : State :=
  let w := d.words
  let t := dTgt w
  let bank := bit (dOflags w) 0
  let c := s.tgtCode t false
  if bits (dSrc w) 63 37 ≠ 0 then s.jobDone Code.badField 0
  else if c ≠ 0 then s.jobDone c 0
  else if (s.ent t).is232 then s.jobDone Code.unsupported 0
  else if Config.userBytes ≤ dSrc w then s.jobDone Cause.outOfRange 0
  else if t ≠ 0 then
    let (s, k, v) := s.remoteOrder [0, Code.noResource]
    (if k = Code.noResource then s else s.modEnt t (fun e => { e with moved := e.moved + 1 })).jobDone k
      (if k = 0 then (if bank then v % 8 + 65536 else v % 16384) else 0)
  else match (if bank then s.retireBank (placeOf (lineIx (dSrc w))) else s.retirePage (dSrc w / 4096)) with
    | none => s.jobDone Code.noResource 0
    | some (s, i, job) => s.putJob { q := d.q, i := d.i, todo := [job], value := i + (if bank then 65536 else 0) }

/-! ### CAL_RUN (R365) -/

/-- The tiers a CAL_RUN names. -/
def calMask (w : List Nat) : List Nat := let m := dAuxN w 1 1 % 16; (List.range 4).filter (fun t => m == 0 || bit m t)

/-- CAL_RUN: `todo` holds the tiers of the manager that have not switched, `value` the lowest margin of the other devices. -/
def State.calRunRun (d : DescS) (s : State) : State :=
  let w := d.words
  let ts := s.targets w
  let c := if dTgtAll w then (if ts.any (fun n => s.tgtCode n false != 0) then Code.condition else 0) else s.tgtCode (dTgt w) false
  if c ≠ 0 then s.jobDone c 0
  else if ts.any (fun n => decide (2 ≤ s.pwrOf n)) then s.jobDone Code.condition 0
  else if ts.any (fun n => (s.ent n).is232) then s.jobDone Code.unsupported 0
  else
    let (s, k, v) := (ts.filter (· != 0)).foldl (fun (x : State × Nat × Nat) _ =>
      let (s, k, v) := x.1.remoteOrder [0]
      (s, minCode x.2.1 k, min x.2.2 (v % 256))) (s, 0, 255)
    if k ≠ 0 then s.jobDone k 0 else
    let l := if ts.contains 0 then calMask w else []
    let s := s.putJob { q := d.q, i := d.i, todo := l, value := v, stage := 1 }
    forEach l (fun t s => (s.modTier t (fun x => { x with cal := { x.cal with wanted := true } })).calTrigger t .command) s

/-- Every tier named has switched in a run that started after the command (R364, R365). -/
def State.calWait (d : DescS) (j : JobS) (s : State) : State :=
  if j.todo.any (fun t => (s.tier t).cal.wanted) then s
  else s.jobDone 0 ((if j.todo.isEmpty then [] else calMask d.words).foldl (fun m t => min m (s.tier t).cal.tierMin) j.value)

/-! ### BIST_RUN (R456) -/

/-- TEST SELECTION. -/
def bistSel (w : List Nat) : Nat := dAuxN w 4 4

/-- R456: the sensor test of this device: a converter that fails is flagged broken with cause 0. -/
def State.bistSensors (s : State) : State × Nat :=
  let (i, s) := s.draw
  let bad := (List.range 72).filter (Config.bistSensor i)
  let s := (forEach (bad.filter (fun k => !(s.sensor k).broken)) (fun k s => s.sensorBreaks k 0) s).thermUpdate
  (s.bistResult 13 72 bad, bad.length)

/-- R456: the margin test of every crossing group. -/
def State.bistCross (s : State) : State × Nat :=
  let (i, s) := s.draw
  let all := (List.range 256).filter (fun g => groupExists (g / 64) (g % 64))
  let bad := all.filter (Config.bistMargin i)
  (s.bistResult 14 all.length bad, bad.length)

/-- Adds failing elements to the descriptor at work. -/
def State.bistAdd (n : Nat) (s : State) : State :=
  match s.que.job with | some j => s.putJob { j with done := j.done + n } | none => s

/-- The lanes of active ports: 8 × port + lane. -/
def State.activeLanes (s : State) : List Nat :=
  allPorts.flatMap (fun p => if s.portUp p then ((s.port p).rxLanes (s.useWidth p)).map (8 * portNo p + ·) else [])

/-- BIST_RUN; stages: 1 lanes of `todo` are scanned, 2 tiers of `todo` are tested; `done` counts failing elements, `value` elements of the test. -/
def State.bistRunRun (d : DescS) (s : State) : State :=
  let w := d.words
  let ts := s.targets w
  let sel := bistSel w
  let mem := (List.range 4).filter (fun t => bit sel (8 + t))
  let c := if dTgtAll w then 0 else s.tgtCode (dTgt w) false
  if sel = 0 ∨ bits sel 7 3 ≠ 0 ∨ bits sel 31 12 ≠ 0 then s.jobDone Code.badField 0
  else if c ≠ 0 then s.jobDone c 0
  else if ts.any (fun n => (s.ent n).is232) then s.jobDone Code.unsupported 0
  else if ts.any (fun n => s.tgtCode n false != 0 || s.pwrOf n != 0) ∨
      (ts.contains 0 ∧ mem.any (fun t => !(s.tier t).released)) then s.jobDone Code.condition 0
  else
    let (s, k, v) := (ts.filter (· != 0)).foldl (fun (x : State × Nat × Nat) _ =>
      let (s, k, v) := x.1.remoteOrder (if mem.isEmpty then [0] else [0, Code.condition])
      (s, minCode x.2.1 k, x.2.2 + v)) (s, 0, 0)
    if k ≠ 0 then s.jobDone k (if k = Code.condition then 0 else v)
    else if !ts.contains 0 then
      s.jobDone 0 v
    else
      let s := s.putJob { q := d.q, i := d.i, done := v, stage := 1, todo := if bit sel 0 then s.activeLanes else [] }
      let s := if bit sel 0 then s.bistResult 12 s.activeLanes.length [] else s
      let s := if bit sel 1 then (let (s, n) := s.bistSensors; s.bistAdd n) else s
      if bit sel 2 then (let (s, n) := s.bistCross; s.bistAdd n) else s

/-- One lane of a BIST_RUN was scanned with a MARGIN. -/
def State.bistLane (lane margin : Nat) (s : State) : State :=
  match s.que.job with
  | none => s
  | some j =>
    if j.stage ≠ 1 ∨ j.todo.head? ≠ some lane then s
    else
      let bad := decide (margin < 100)
      let old := AMap.get 12 (0, 0, 65535) s.bist
      let s := if bad then { s with bist := AMap.put 12 (old.1, old.2.1 + 1, if old.2.1 = 0 then lane / 8 * 9 + lane % 8 else old.2.2) s.bist } else s
      s.putJob { j with todo := j.todo.tail, done := j.done + b2n bad }

/-- R456, R457, R439: the memory test of a released tier has ended: every place of the tier but those of pool blocks in use is written. -/
def State.bistMem (t : Nat) (found : List MarchFinding) (s : State) : State :=
  match s.que.job with
  | none => s
  | some j =>
    if j.stage ≠ 2 ∨ j.todo.head? ≠ some t then s
    else
      let s := s.fill (.tier t (s.blocksUsed.filter (fun b => b / 16 == t))) 0
      let s := forEach found State.marchFinding s
      let bad := !found.isEmpty
      let s := s.bistResult (20 + t) 1 (if bad then [t] else [])
      s.putJob { j with todo := j.todo.tail, done := j.done + b2n bad }

/-- What a BIST_RUN does next. -/
def State.bistWait (d : DescS) (j : JobS) (s : State) : State :=
  let sel := bistSel d.words
  match j.stage, j.todo with
  | 1, l :: r =>
    let p := allPorts.getD (l / 8) .ca
    if !s.portUp p then s.putJob { j with todo := r }
    else if (s.port p).scan.isSome then s
    else s.modPort p (fun x => { x with scan := some { lane := l % 8, eyes := 3, map := false, bist := true, thr := s.fld (Reg.LINK_EYE_CTL p) F.LINK_EYE_CTL_THR } })
  | 1, [] =>
    s.putJob { j with stage := 2, todo := (List.range 4).filter (fun t => bit sel (8 + t)) }
  | _, [] => (s.raiseIf (j.done != 0) Reg.BOOT_STATUS F.BOOT_STATUS_BIST_FAIL).jobDone 0 j.done
  | _, _ => s

/-! ### FW_STAGE (R453, R454) -/

/-- The bytes of the flash from offset `a` on replaced; what was never written reads 0xFF. -/
def flashPut (a : Nat) (d : List Byte) (f : List Byte) : List Byte :=
  splice (f ++ List.replicate (a + d.length - f.length) 0xFF) a d

/-- FW_STAGE: the first 4 KiB are read, unless SRC is not aligned for it. -/
def State.fwStageRun (d : DescS) (s : State) : State :=
  if dSrc d.words % 4096 ≠ 0 then s.jobDone Code.badField 0
  else s.jobRead .rd128 128 (dSrc d.words) 0 32

/-- R453: the guards of FW_STAGE, judged before the first erase. -/
def State.fwGuards (len : Nat) (h : List Byte) (s : State) : Nat :=
  let age := match s.power.vinBack with | some t => (s.now - t) / 10 ^ 9 | none => 0
  if len = 0 ∨ 2 ^ 24 < len ∨ s.que.density < len ∨ hLen h ≠ len then Code.badField
  else if s.updateLock ∨ s.fld Reg.BOOT_STATUS F.BOOT_STATUS_OWNER_LOCK = 1 then Code.locked
  else if hEpoch h < s.arbCount then Code.rollback
  else if (List.range 4).any (fun t => decide (2 ≤ s.throttle t)) ∨ s.topo.ents.any (fun x => x.1 != 0 && x.2.valid && decide (2 ≤ x.2.stage)) then
    Code.condition
  else if s.fld Reg.PWR_STATUS F.PWR_STATUS_VIN_OK = 0 ∨ (!s.power.vinNever ∧ (s.power.vinBack.isNone ∨ age < Config.VIN_QUIET)) then
    Code.condition
  else 0

/-- Data of FW_STAGE has arrived: the header, or one page. -/
def State.fwData (d : DescS) (j : JobS) (s : State) : State :=
  let len := dLen d.words
  if j.stage = 0 then
    let k := s.fwGuards len j.bytes
    if k ≠ 0 then s.jobDone k 0 else s.putJob { j with stage := 1, data := [] }
  else if j.stage = 2 then s.putJob { j with stage := 3 }
  else s

/-- Reads the next page of 256 bytes, or ends. -/
def State.fwPage (d : DescS) (j : JobS) (s : State) : State :=
  if dLen d.words ≤ j.done then (s.raise Reg.BOOT_STATUS F.BOOT_STATUS_STAGED).jobDone 0 j.done
  else (s.putJob { j with stage := 2, data := [] }).jobRead .rd128 128 (dSrc d.words + j.done) j.done (min 2 ((dLen d.words - j.done + 127) / 128))

/-- FLASH_OP_DONE: the erase, or the program of a page with its read-back, has ended. -/
def State.flashDone (readback : List Byte) (s : State) : State :=
  match s.que.job with
  | none => s
  | some j =>
    match s.desc j.q j.i with
    | none => s
    | some d =>
      let len := dLen d.words
      if dOpc d.words ≠ 0x48 then s
      else if j.stage = 1 then
        ({ s with que.flash := flashPut 0 (List.replicate ((len + 4095) / 4096 * 4096) 0xFF) s.que.flash }).fwPage d { j with done := 0 }
      else if j.stage = 3 then
        let page := j.bytes.take (min 256 (len - j.done))
        let s := { s with que.flash := flashPut j.done (readback.take page.length) s.que.flash }
        if readback.take page.length = page then s.fwPage d { j with done := j.done + page.length }
        else (s.raise Reg.BOOT_STATUS F.BOOT_STATUS_FLASH_ERR).jobDone Code.condition j.done
      else s

/-- FLASH_WIP_TIMEOUT: the flash is still at an earlier operation after T_WIP; nothing has been erased. -/
def State.flashWip (s : State) : State :=
  match s.que.job with
  | none => s
  | some j =>
    match s.desc j.q j.i with
    | none => s
    | some d => if dOpc d.words = 0x48 ∧ j.stage = 1 then s.jobDone Code.busy 0 else s

/-! ### BLAZE_DUMP (R476) -/

/-- ESEQ of an entry. -/
def blazeEseq (e : BlazeE) : Nat := e.getD 1 0 / 65536

/-- Entries in ascending ESEQ, the oldest of 65,536 first. -/
def blazeOrder (next : Nat) (l : List BlazeE) : List BlazeE :=
  sortBy (fun a b => decide ((blazeEseq a + 65536 - next % 65536) % 65536 ≤ (blazeEseq b + 65536 - next % 65536) % 65536)) l

/-- Writes the entries of a log to host memory, four to a WR128. -/
def State.dumpWrite (d : DescS) (j : JobS) (l : List BlazeE) (s : State) : State :=
  let l := l.take (dLen d.words / 32)
  let b := l.flatMap ofWords
  let b := b ++ zeros ((b.length + 127) / 128 * 128 - b.length)
  let s := s.putJob { j with stage := 9, done := l.length }
  forEach (List.range (b.length / 128)) (fun k s => s.hostReq (.jobWrite (128 * k)) .wr128 (dDst d.words + 128 * k) (slice b (128 * k) 128)) s

/-- Sends the next access of a dump of device `n`: stages 1 SEL, 2 CTL, 3 the transfer's end, 4 DATA, four words at a time or one where a link
of version 1.1 is crossed (R125), 6 `BLAZE.HEAD`. -/
def State.dumpSend (n stage : Nat) (j : JobS) (s : State) : State :=
  let s := s.putJob { j with stage := stage }
  match stage with
  | 1 => s.wardenWrite n Reg.MBX_SEL [0x003 * 2 ^ 16 + j.done] (.job n)
  | 2 => s.wardenWrite n Reg.MBX_CTL [1] (.job n)
  | 3 => s.sendCfg n .crd Reg.MBX_CTL [] 1 (.job n)
  | 4 => s.sendCfg n .crd (Reg.MBX_DATA ((AMap.get j.done [] j.data).length / 4)) [] (s.cfgWords n) (.job n)
  | 6 => s.sendCfg n .crd Reg.BLAZE_HEAD [] 1 (.job n)
  | _ => s.wardenWrite n Reg.BLAZE_CTL [1] (.job n)

/-- BLAZE_DUMP. -/
def State.dumpRun (d : DescS) (s : State) : State :=
  let t := dTgt d.words
  let c := s.tgtCode t true
  if c ≠ 0 then s.jobDone c 0
  else if (s.ent t).is232 then s.jobDone Code.unsupported 0
  else if t = 0 then s.dumpWrite d { q := d.q, i := d.i } (blazeOrder s.flt.blaze.next (s.flt.blaze.entries.map (·.2)))
  else s.dumpSend t 1 { q := d.q, i := d.i }

/-- A response in a dump of another device. -/
def State.dumpAnswer (d : DescS) (j : JobS) (n : Nat) (ws : List Nat) (status : Nat) (s : State) : State :=
  if status ≠ 0 then s.jobDone (cfgCode status) (if j.stage = 10 then j.done else 0)
  else match j.stage with
    | 1 => s.dumpSend n 2 j
    | 2 => s.dumpSend n 3 j
    | 3 =>
      let w := ws.headD 0
      if bit w 2 then s.dumpSend n 3 j else if bits w 18 16 ≠ 0 ∨ !bit w 3 then s.dumpSend n 1 j else s.dumpSend n 4 j
    | 4 =>
      let e := AMap.get j.done [] j.data ++ ofWords (ws.take (s.cfgWords n))
      if e.length < 32 then s.dumpSend n 4 { j with data := AMap.put j.done e j.data }
      else
        let j := { j with data := if e.all (· == 0) then AMap.del j.done j.data else AMap.put j.done e j.data, done := j.done + 1 }
        if j.done < 2048 then s.dumpSend n 1 j else s.dumpSend n 6 j
    | 6 => s.dumpWrite d { j with data := [] } (blazeOrder (F.BLAZE_HEAD_NEXT_ESEQ.get (BitVec.ofNat 32 (ws.headD 0))) (j.data.map (fun e => toWords 8 e.2)))
    | 10 => s.jobDone 0 j.done
    | _ => s

/-- The entries have been written: the log is released where THAW is set, and the descriptor completes. -/
def State.dumpEnd (d : DescS) (j : JobS) (s : State) : State :=
  let t := dTgt d.words
  if !bit (dOflags d.words) 0 then s.jobDone 0 j.done
  else if t = 0 then s.thaw.jobDone 0 j.done
  else s.dumpSend t 10 j

/-! ### DEVICE_RESET (R471) -/

/-- DEVICE_RESET. -/
def State.deviceResetRun (d : DescS) (s : State) : State :=
  let t := dTgt d.words
  let c := s.tgtCode t true
  if c ≠ 0 then s.jobDone c 0
  else if (s.ent t).is232 then s.jobDone Code.unsupported 0
  else if t = 0 then s.jobEnd 0 0 none true
  else s.wardenWrite t Reg.FAULT_CTL [(F.FAULT_CTL_WARM_RESET.set 1 0).toNat] (.job t)

/-! ### FUSE_PROGRAM (R428, R429) -/

/-- An entry of a program list with its OP. -/
def fuseOf (b : List Byte) : Nat × FuseEntry :=
  (leAt b 4 1, { region := leAt b 0 2, word := leAt b 2 2, data := BitVec.ofNat 32 (leAt b 8 4), pump := bit (leAt b 5 1) 0,
                 zero := bits (leAt b 5 1) 7 1 == 0 && (slice b 6 2).all (· == 0) && (slice b 12 4).all (· == 0) })

/-- FUSE_PROGRAM: the list is read in granules of 64 bytes. -/
def State.fuseRun (d : DescS) (s : State) : State :=
  let t := dTgt d.words
  let a := dSrc d.words
  let len := dLen d.words
  let c := s.tgtCode t false
  if len = 0 ∨ len % 16 ≠ 0 ∨ a / 65536 ≠ (a + len - 1) / 65536 then s.jobDone Code.badField 0
  else if c ≠ 0 then s.jobDone c 0
  else if (s.ent t).is232 then s.jobDone Code.unsupported 0
  else s.jobRead .rd64 64 (a / 64 * 64) 0 ((a % 64 + len + 63) / 64)

/-- The program list has arrived. -/
def State.fuseList (d : DescS) (j : JobS) (s : State) : State :=
  let b := slice j.bytes (dSrc d.words % 64) (dLen d.words)
  if dTgt d.words ≠ 0 then
    let (s, k, v) := s.remoteOrder [0, Code.busy, Code.badField, Code.locked, Code.condition]
    s.jobDone k (if k = Code.busy then 0 else v)
  else if s.fuse.prog.isSome then s.jobDone Code.busy 0
  else (s.putJob { j with stage := 1, data := [] }).progStart ((List.range (b.length / 16)).map (fun k => fuseOf (slice b (16 * k) 16))) true

/-- The program of the descriptor at work has ended. -/
def State.fuseWait (s : State) : State :=
  match s.fuse.prog with
  | some p => (match p.result with
      | some k => ({ s with fuse.prog := none }).fuseBusy.jobDone k p.cells
      | none => s)
  | none => s

/-! ### Answers and progress -/

/-- Host data for the descriptor at work: the read at offset `off` has been answered. -/
def State.jobData (off : Nat) (r : Except Nat (List Byte)) (s : State) : State :=
  match s.que.job with
  | none => s
  | some j =>
    match s.desc j.q j.i with
    | none => s
    | some d =>
      match r with
      | .error c => s.jobLeave.jobDone c
          (if dOpc d.words = 0x48 then j.done else 0)
      | .ok b =>
        let j := { j with data := AMap.put off b j.data }
        let s := s.putJob j
        if s.mgr.host.any (fun h => match h.2.use with | .job _ => true | _ => false) then s
        else match dOpc d.words with
          | 0x43 => s.keyLoaded d j.bytes
          | 0x48 => s.fwData d j
          | 0x4C => s.fuseList d j
          | _ => s

/-- A write to host memory for the descriptor at work has been answered. -/
def State.jobWritten (r : Except Nat (List Byte)) (s : State) : State :=
  match s.que.job with
  | none => s
  | some j =>
    match s.desc j.q j.i with
    | none => s
    | some d =>
      match r with
      | .error c => s.jobLeave.jobDone c 0
      | .ok _ =>
        if s.mgr.host.any (fun h => match h.2.use with | .jobWrite _ => true | _ => false) then s else s.dumpEnd d j

/-- A response to a warden access of the descriptor at work, from device `n`. -/
def State.jobAnswer (n : Nat) (ws : List Nat) (status : Nat) (s : State) : State :=
  match s.que.job with
  | none => s
  | some j =>
    match s.desc j.q j.i with
    | none => s
    | some d =>
      match dOpc d.words with
      | 0x42 => s.pwrAnswer j n status
      | 0x49 => s.dumpAnswer d j n ws status
      | 0x4A => s.jobDone (if status = 0 then 0 else cfgCode status) 0
      | _ => s

/-- The work that a descriptor cut short has done, where its VALUE counts work (R215, R220). -/
def State.jobCount (s : State) (d : DescS) (j : JobS) : Nat :=
  match dOpc d.words with
  | 0x42 => if dTgtAll d.words then j.done else 0
  | 0x47 => j.done
  | 0x48 => j.done
  | 0x49 => if 9 ≤ j.stage then j.done else 0
  | 0x4C => (match s.fuse.prog with | some p => if j.stage = 1 then p.cells else 0 | none => 0)
  | _ => 0

/-- What the descriptor at work waits for may have come about; one whose queue has been disabled ends with ABORTED (R220); one whose
descriptor is gone is no longer at work. -/
def State.jobStep (s : State) : State :=
  match s.que.job with
  | none => s
  | some j =>
    if j.stage = 50 then s.pwrOwn j
    else match s.desc j.q j.i with
      | none => { s with que.job := none }
      | some d =>
        if d.cut then s.jobLeave.jobDone Code.aborted (s.jobCount d j)
        else match dOpc d.words with
        | 0x42 =>
          let s := s.pwrOwn j
          (match j.todo.head? with
            | some n => if n ≠ 0 ∧ j.stage ≠ 0 ∧ s.unreachable n ∧ (s.ent n).pwr < 3 then s.jobLeave.pwrGo (j.pwrNext Cause.pathReset 0) else s
            | none => s)
        | 0x46 => (match j.todo with
            | [job] => if (AMap.find job s.pool.jobs).isNone then s.jobDone 0 j.value else s
            | _ => s)
        | 0x47 => s.bistWait d j
        | 0x4B => s.calWait d j
        | 0x4C => if j.stage = 1 then s.fuseWait else s
        | 0x49 => if j.stage = 9 ∧ !s.mgr.host.any (fun h => match h.2.use with | .jobWrite _ => true | _ => false) then s.dumpEnd d j else s
        | _ => s

end Sys2Proof.Machine
end

