-- ==== Sys2Proof/Machine/View.lean ====
section
/-! DEFINITION. What reads return beside the register file: the RO fields that follow the state (R60, R62, R95, R134, R165, R197, R222,
R256, R286, R288, R321, R351, R353, R372, R393, R415, R432, R458, R484), the raw windows (R397, R426), and the mailbox items (R58, R61,
R64, R96, R135, R166, R223, R257, R289, R324, R352, R353, R373, R394, R416, R459, R486). -/

namespace Sys2Proof.Machine

/-! ### Presence (R44, R46, R47) -/

/-- R46, R286: whether a block is present in the device's role. -/
def State.present (s : State) : Block → Bool
  | .topo => s.isManager
  | .qctx => s.isManager
  | .link .ca => s.isManager || s.isBranch
  | .link .cb => s.isManager || s.isBranch
  | .testWin => s.isTest
  | _ => true

/-- R44: the blocks that answer in reset, in a firebreak and in the dead state. -/
def Block.always : Block → Bool
  | .ident => true | .fault => true | .blaze => true | .mbx => true | _ => false

/-! ### Register views -/

/-- A word with fields replaced. -/
def putFields (l : List (Fld × Nat)) (w : Word) : Word := l.foldl (fun w e => e.1.set e.2 w) w

/-- The entries in a queue state that counts as enabled (R222). -/
def State.queuesOn (s : State) : Nat := s.que.ctx.countP (fun e => cState e.2 == 1 || cState e.2 == 2)

/-- R330: whether Ranger pauses on a channel: it runs on the tier, and something holds it. -/
def State.rangerPaused (s : State) (n : Nat) : Bool :=
  let c := s.chan n
  s.fld (Reg.CMN_RANGER_CTL (n / 8)) F.CMN_RANGER_CTL_EN == 1 && !c.retired && !s.rangerRuns n

/-- The groups of a tier. -/
def tierGroups (t : Nat) : List Nat := (List.range 36).filter (groupExists t)

/-- R340, R353: factory spares used, field spares used and free spares of a group. -/
def State.groupSpares (s : State) (t g : Nat) : Nat × Nat × Nat :=
  let l := (List.range Config.GROUP_SPARES).map (fun i => AMap.get (g * 64 + i) ({} : SpareS) (s.tier t).spares)
  (l.countP (fun e => e.assigned && !e.field), l.countP (fun e => e.assigned && e.field), l.countP (fun e => !e.assigned && !e.failed))

/-- The word of `LINK_x.STATE` (R95). -/
def State.linkState (s : State) (p : Port) : List (Fld × Nat) :=
  let x := s.port p
  let on := x.tstate == .active || x.tstate == .quiet
  let lr := s.linkRecord p
  [(F.LINK_STATE_BOND, b2n (s.hostSide p && on && x.bond)), (F.LINK_STATE_PRECODE_RX, b2n (on && x.preRx)), (F.LINK_STATE_LOCKED, x.rxMap),
   (F.LINK_STATE_IN_USE, if on then s.useLanes p else 0), (F.LINK_STATE_PRECODE_TX, b2n (on && x.preTx)), (F.LINK_STATE_CLK, bits lr 5 5),
   (F.LINK_STATE_VER, bits lr 4 3), (F.LINK_STATE_RATE, bits lr 2 2), (F.LINK_STATE_WIDTH, bits lr 1 0), (F.LINK_STATE_TSTATE, x.tstate.code)]

/-- The fields of a block's word at an offset that follow the state. -/
def State.liveFields (s : State) (b : Block) (o : Nat) : List (Fld × Nat) :=
  let p := s.power
  match b with
  | .ident =>
    if o = 0x8 then [(F.IDENT_STRAPS_GRADE, b2n s.id.gradeE), (F.IDENT_STRAPS_START_SLOT, s.id.slot), (F.IDENT_STRAPS_ROLE, s.id.role)]
    else if o = 0x14 ∧ p.fw = 2 then [(⟨31, 0⟩, s.image.version.toNat)]
    else []
  | .topo =>
    if o = 0xC then
      let v := s.topo.ents.filter (fun e => e.2.valid)
      let br := v.filter (fun e => F.TOPO_ENT_W0_ROLE.get e.2.w0 == 1)
      [(F.TOPO_COUNT_ARC_E, br.countP TopoE.eastArc), (F.TOPO_COUNT_BRANCHES, br.length),
       (F.TOPO_COUNT_DEVICES, v.length)]
    else if 0x100 ≤ o ∧ o < 0x300 then
      let e := s.ent ((o - 0x100) / 8)
      [(⟨31, 0⟩, (if !e.valid then (0 : Word) else if o % 8 = 0 then e.w0 else e.w1).toNat)]
    else []
  | .blaze =>
    let z := s.flt.blaze
    if o = 0x4 then [(F.BLAZE_HEAD_NEXT_ESEQ, z.next), (F.BLAZE_HEAD_NEWEST, z.newest)]
    else if o = 0x8 then
      [(F.BLAZE_FROZEN_F1_VALID, b2n z.f1.isSome), (F.BLAZE_FROZEN_F1_NEWEST, z.f1.getD 0), (F.BLAZE_FROZEN_F2_VALID, b2n z.f2.isSome),
       (F.BLAZE_FROZEN_F2_NEWEST, z.f2.getD 0)]
    else if o = 0x10 then [(F.BLAZE_DROPS_VALUE, z.drops)]
    else []
  | .pwr =>
    if o = 0x4 then
      [(F.PWR_STATE_CAP_STAGE, p.capStage), (F.PWR_STATE_LAST_WAKE, p.lastWake), (F.PWR_STATE_TRANSIT, b2n p.transit),
       (F.PWR_STATE_TARGET, if p.transit then p.target else 0), (F.PWR_STATE_STATE, p.pstate)]
    else if o = 0x10 then [(F.PWR_MEAS_PIN, p.measPin), (F.PWR_MEAS_VIN, p.measVin)]
    else if o = 0x14 then
      [(F.PWR_VIN_AGE_NEVER, b2n p.vinNever), (F.PWR_VIN_AGE_SECONDS, match p.vinBack with | some a => min 65535 ((s.now - a) / 1000000000) | none => 0)]
    else if o = 0x18 then [(F.PWR_RAILS_FAULT, p.rails)]
    else []
  | .therm =>
    if o = 0x4 then
      let h := s.hottestInput
      [(F.THERM_STAGE_HOTTEST, tempBits h.1), (F.THERM_STAGE_SENSOR, h.2), (F.THERM_STAGE_DEVICE, s.devStage),
       (F.THERM_STAGE_TIERS, (List.range 4).foldl (fun a t => a + (s.tier t).stage * 4 ^ t) 0)]
    else if 0x10 ≤ o ∧ o < 0x20 then
      let t := (o - 0x10) / 4
      let x := s.tier t
      [(F.THERM_TIER_INPUT, tempBits x.inputT), (F.THERM_TIER_SENSOR, x.inputS), (F.THERM_TIER_BLIND, b2n x.blind), (F.THERM_TIER_SUBST, b2n x.subst),
       (F.THERM_TIER_HOLD, b2n x.holdTill.isSome), (F.THERM_TIER_THROTTLE, s.throttle t), (F.THERM_TIER_STAGE, x.stage)]
    else if 0x20 ≤ o ∧ o < 0x2C then
      let k := (o - 0x20) / 4
      [(F.THERM_BROKEN_VALUE, (List.range 32).foldl (fun a i => a + b2n (decide (32 * k + i < 72) && (s.sensor (32 * k + i)).broken) * 2 ^ i) 0)]
    else if 0x30 ≤ o ∧ o < 0x40 then
      let x := s.tier ((o - 0x30) / 4)
      [(F.THERM_LEDGER_TALLIES, x.tallies), (F.THERM_LEDGER_RESIDUE, x.residue / 8000000)]
    else []
  | .clk =>
    if 0x10 ≤ o ∧ o < 0x20 then
      let c := (s.tier ((o - 0x10) / 4)).cal
      [(F.CLK_CAL_TIER_RUNNING, b2n c.running.isSome), (F.CLK_CAL_TIER_PENDING, b2n c.pending.isSome), (F.CLK_CAL_TIER_REF_TEMP, tempBits c.refTemp),
       (F.CLK_CAL_TIER_MARGIN, min 255 c.tierMin), (F.CLK_CAL_TIER_GROUP, c.group)]
    else if o = 0x20 then
      [(F.CLK_JOURNAL_OVF, b2n ((List.range 4).any (fun t => (s.tier t).jOvf != 0))),
       (F.CLK_JOURNAL_COUNT, (List.range 4).foldl (fun a t => a + (s.tier t).journal.length) 0)]
    else []
  | .fuse =>
    if o = 0x8 then [(F.FUSE_VPGM_MV, min 4095 s.fuse.mv)]
    else if 0x40 ≤ o ∧ o < 0xE0 then
      match regionAt ((o - 0x40) / 4) with
      | none => []
      | some r =>
        let g := s.region r.k
        [(F.FUSE_REGION_STATE, if r.counter then 0 else g.state), (F.FUSE_REGION_RLOCK, b2n g.rlock), (F.FUSE_REGION_WLOCK, b2n g.wlock),
         (F.FUSE_REGION_MANDATORY, b2n r.mandatory), (F.FUSE_REGION_CORR, min 255 g.corr), (F.FUSE_REGION_MARG, min 255 g.marg)]
    else []
  | .boot =>
    if o = 0x4 then
      [(F.BOOT_STATE_FAIL, p.failCode), (F.BOOT_STATE_KIND, p.kind), (F.BOOT_STATE_STEP, s.startStep), (F.BOOT_STATE_TIERS, p.startTiers),
       (F.BOOT_STATE_FW, p.fw)]
    else if o = 0xC then [(F.BOOT_ARB_EPOCH, if p.fw = 2 then s.image.epoch else 0), (F.BOOT_ARB_COUNT, s.arbCount)]
    else if o = 0x10 then [(F.BOOT_START_MS_MS, p.startMs)]
    else []
  | .ndl =>
    if o = 0x10 then [(F.NDL_NTC_PEND_PENDING, s.flt.notices.length + s.flt.hostNtc.length)]
    else if o = 0x208 then
      [(F.NDL_POOL_COUNT_FREE, s.freeBlocks.length), (F.NDL_POOL_COUNT_STEER, s.pool.steers.length), (F.NDL_POOL_COUNT_REMAP, s.remapUsed)]
    else []
  | .svc =>
    if 0x100 ≤ o ∧ o < 0x180 then
      let n := (o - 0x100) / 4
      let c := s.chan n
      [(F.SVC_CHAN_SAT, b2n c.sat), (F.SVC_CHAN_PINNED, b2n (s.pinned n && c.pstate == .active)), (F.SVC_CHAN_FIRM_SUM, s.firmSum n),
       (F.SVC_CHAN_LEVELS, (List.range 4).foldl (fun a k => a + c.levels.getD k 0 % 4 * 4 ^ k) 0)]
    else []
  | .eng =>
    if 0x10 ≤ o ∧ o < 0x20 then
      let t := (o - 0x10) / 4
      let x := s.tier t
      let w := [(F.ENG_TIER_WAITING, x.waiting.length)]
      match x.run with
      | none => w
      | some sh => [(F.ENG_TIER_RUNNING, 1), (F.ENG_TIER_HOSTED, b2n (sh.home != t)), (F.ENG_TIER_HOME, sh.home), (F.ENG_TIER_PLACEMENT, sh.g.epoch)] ++ w
    else []
  | .prot =>
    if o = 0x4 then
      [(F.PROT_KEYS_RETIRING, s.prot.keys.countP (fun k => k.2.state == 2)), (F.PROT_KEYS_ACTIVE, s.prot.keys.countP (fun k => k.2.state == 1))]
    else if o = 0x10 ∧ s.isManager then
      [(F.PROT_RELAY_RUNNING, min 127 ((s.que.descs.filter (fun d => d.relay && d.stage == .running)).map (fun d => d.shards.countP (fun x => !x.2.done))).sum)]
    else []
  | .qctx => if o = 0x10 then [(F.QCTX_COUNT_ENABLED, s.queuesOn)] else []
  | .link q =>
    if o = 0x8 then s.linkState q
    else if o = 0x20 then [(F.LINK_EYE_CTL_BUSY, b2n (s.port q).scan.isSome)]
    else if o = 0x40 ∧ s.prbsChecks q then
      [(F.LINK_PRBS_CTL_SYNC, Config.prbsSync s.now (portNo q) % 256 &&& s.effFld (Reg.LINK_PRBS_CTL q) F.LINK_PRBS_CTL_LANE_EN)]
    else if 0x100 ≤ o ∧ o < 0x120 then
      let l := AMap.get ((o - 0x100) / 4) ({} : LaneS) (s.port q).lanes
      let sig := match l.signal with
        | some b => b
        | none => l.lock || ((s.port q).tstate != .off && Config.laneSignal s.now (8 * portNo q + (o - 0x100) / 4))
      [(F.LINK_LANE_SIGNAL, b2n sig), (F.LINK_LANE_PEER_LANE, l.peer), (F.LINK_LANE_INVERTED, b2n l.inverted), (F.LINK_LANE_LOCK, b2n l.lock)]
    else []
  | .ch n =>
    let c := s.chan n
    if o = 0x8 then
      [(F.CH_STATE_TEMP, tempBits c.temp),
       (F.CH_STATE_QOCC, ((s.pc (2 * n)).banks ++ (s.pc (2 * n + 1)).banks).foldl (fun (a : Nat) b => a + b.2.queue.length) 0),
       (F.CH_STATE_REF_MULT, if c.mult = 1 then 0 else if c.mult = 2 then 1 else 2), (F.CH_STATE_PSTATE, c.pstate.code)]
    else if o = 0x10 ∨ o = 0x14 then [(⟨31, 0⟩, (c.train.getD ((o - 0x10) / 4) {}).word.toNat)]
    else if o = 0x44 then [(F.CH_CE_LEVEL, c.level)]
    else if o = 0x48 then [(F.CH_RANGER_PAUSED, b2n (s.rangerPaused n)), (F.CH_RANGER_POS, c.rangerPos)]
    else if o = 0x4C then [(F.CH_ELOG_WRITTEN, min 65535 c.elogCount), (F.CH_ELOG_NEWEST, c.elogNew)]
    else []
  | .cmn t =>
    if o = 0x8014 then
      let x := s.tier t
      [(F.CMN_SPARES_WINDTHROWN, (tierGroups t).countP (fun g => (AMap.find g x.thrown).isSome)),
       (F.CMN_SPARES_FIELD, x.spares.countP (fun e => e.2.assigned && e.2.field && !e.2.failed)),
       (F.CMN_SPARES_LOW, (tierGroups t).countP (fun g => decide ((s.groupSpares t g).2.2 < 8)))]
    else []
  | .testWin => if o = 0x4 then [(F.TESTWIN_CTL_BUSY, b2n s.prot.win.isSome)] else []
  | _ => []

/-- The word that a register reads as, before what the physical world adds. -/
def State.regView (s : State) (b : Block) (o a : Nat) : Word := putFields (s.liveFields b o) (s.reg a)

/-! ### The raw windows -/

/-- R426: the die and word of an offset in the fuse shadow window. -/
def shadowAt (o : Nat) : Option (Nat × Nat) :=
  if o < 0x4000 then some (0, o / 4)
  else if o < 0x8000 then some (1 + (o - 0x4000) / 0x1000, o % 0x1000 / 4)
  else if o < 0xC000 then some (5 + (o - 0x8000) / 0x400, o % 0x400 / 4)
  else none

/-- R426: what the fuse shadow window holds; none where no fuse word lies. DESIGN CHOICE: a word of the window outside every region is answered
as an unmapped address (R41). -/
def State.fuseView (s : State) (o : Nat) : Option Word :=
  match shadowAt (o % 0x20000) with
  | none => none
  | some (d, w) =>
    match (dieRegions d).find? (fun r => r.first ≤ w && decide (w < r.first + r.len)) with
    | none => none
    | some r =>
      if (s.region r.k).rlock || (r.code == 6 && decide (2 ≤ (s.region r.k).state) && decide (o < 0x20000)) then some 0
      else
        let v := AMap.get (d * 4096 + w) (0, 0) s.fuse.shadow
        some (BitVec.ofNat 32 (if 0x20000 ≤ o then v.2 % 4 else if v.2 % 4 = 3 then 0 else v.1))

/-- R397: the word of sensor `i`. -/
def State.sensorView (s : State) (i : Nat) : Word :=
  let x := s.sensor i
  BitVec.ofNat 32 (b2n x.broken * 2 ^ 31 + (if x.broken then x.cause % 8 else 0) * 2 ^ 28 + tempBits (x.peak.getD 0) * 2 ^ 12 + tempBits x.reading)

/-! ### Mailbox items -/

/-- The block that the BLOCK field of `MBX.SEL` names. -/
def mbxBlock (k : Nat) : Block :=
  if k < 16 then lowBlocks.getD k .none
  else if k = 0x10 then .link .ca else if k = 0x14 then .link .cb else if k = 0x18 then .link .e else if k = 0x1C then .link .w
  else if 0x20 ≤ k ∧ k < 0x60 then
    let t := (k - 0x20) / 16
    if k % 16 < 8 then .ch (8 * t + k % 16) else if k % 16 = 8 then .cmn t else .none
  else .none

/-- The errors of `MBX.CTL.ERR` (R59). -/
def mbxUnlisted : Nat := 1
def mbxNotWritable : Nat := 3
def mbxNoAnswer : Nat := 4
def mbxRefused : Nat := 5

/-- An item's words. -/
abbrev Item := Except Nat (List Nat)

/-- The two words of a 64-bit value. -/
def words64 (v : Nat) : List Nat := [v % 2 ^ 32, v / 2 ^ 32 % 2 ^ 32]

/-- R135: the credits this device holds toward a port's partner. -/
def State.creditItem (s : State) (p : Port) : List Nat :=
  let x := s.port p
  (List.range 7).map (fun c => x.held.hdr.getD c 0 % 65536 + (match dataIx c with | some k => x.held.dat.getD k 0 % 65536 | none => 0) * 65536) ++ [x.sent]

/-- R166: the state code of pool block `k`. -/
def State.blockCode (s : State) (k : Nat) : Nat :=
  if !s.usable k then 3
  else if s.pool.blocks.contains k then 1
  else if s.pool.steers.any (fun e => e.2.block == k) then 2
  else match s.pool.jobs.find? (fun j => j.2.target == k && (match j.2.kind with | .page _ _ => false | _ => true)) with
    | some (_, j) => (match j.kind with | .remapBlock _ _ => 1 | _ => 2)
    | none => 0

/-- R166: the items of the reserve pool. DESIGN CHOICE: while an entry that has been copied is steered anew or relocated, its STEER item goes on
reading COPY_DONE 1, watermark 0 and the old block until that copy ends. -/
def State.poolItem (s : State) (i : Nat) : Item :=
  if i = 0x100 then .ok (toWords 4 (leBytes 16 ((List.range 64).foldl (fun a k => a + s.blockCode k * 4 ^ k) 0)))
  else if 0x1000 ≤ i ∧ i < 0x1008 then
    match AMap.find (i - 0x1000) s.pool.steers with
    | none => .ok [0, 0]
    | some e => .ok [2 ^ 31 + e.bk * 2 ^ 10 + e.bg * 2 ^ 6 + e.pc, b2n e.done * 2 ^ 31 + (if e.done then 0 else e.mark * 2 ^ 6) + e.block]
  else if 0x4000 ≤ i ∧ i < 0x8000 then
    match AMap.find (i - 0x4000) s.pool.remaps with
    | none => .ok [0, 0]
    | some e => .ok [b2n e.valid * 2 ^ 31 + b2n e.retired * 2 ^ 30 + e.page, b2n e.done * 2 ^ 31 + e.slot * 2 ^ 6 + e.block]
  else .error mbxUnlisted

/-- R257: the state of determinism group `g`. -/
def State.groupItem (s : State) (g : Nat) : List Nat :=
  let x := AMap.get g ({} : GroupS) s.que.groups
  let m := s.members g
  let late := m.filter (fun q => (s.epochFence q).isNone)
  [x.epoch % 2 ^ 32, m.length, m.length - late.length, b2n x.closing + (match late with | [] => 65535 | q :: r => r.foldl min q) * 2 ^ 16]

/-- R257: the running shard of tier `t`. -/
def State.shardItem (s : State) (t : Nat) : List Nat :=
  match (s.tier t).run with
  | none => [0, 0, 0, 0]
  | some sh => [sh.g.queue % 65536 + sh.g.index % 65536 * 2 ^ 16, sh.g.dseq.toNat, sh.g.epoch % 65536 + dOpc sh.desc * 2 ^ 16, sh.saved.bytes / 64 % 2 ^ 32]

/-- R324, R352: the items of channel `n`. -/
def State.chanItem (s : State) (n i : Nat) : Item :=
  let c := s.chan n
  if i < 0x80 ∧ i % 64 < 36 then
    let w := AMap.get (i % 64) ((0, 0) : Word × Word) (c.train.getD (i / 64) {}).pins
    .ok [w.1.toNat, w.2.toNat]
  else if 0x100 ≤ i ∧ i < 0x120 then .ok ((AMap.get (i - 0x100) ([] : ELogEntry) c.elog ++ [0, 0, 0, 0]).take 4)
  else .error mbxUnlisted

/-- R353: the items of the common block of tier `t`. -/
def State.cmnItem (s : State) (t i : Nat) : Item :=
  if i < 64 then
    if groupExists t i then
      let (a, f, r) := s.groupSpares t i
      .ok [a + f * 2 ^ 8 + r * 2 ^ 16 + b2n (AMap.find i (s.tier t).thrown).isSome * 2 ^ 24]
    else .ok [0]
  else if 0x1000 ≤ i ∧ i < 0x2000 then
    let e := AMap.get (i - 0x1000) ({} : SpareS) (s.tier t).spares
    .ok [b2n e.assigned * 2 ^ 31 + b2n e.field * 2 ^ 30 + b2n e.failed * 2 ^ 29 + e.position % 2048]
  else if 0x2000 ≤ i ∧ i < 0x2004 then
    let r := Config.dieRepairs (4 * t + (i - 0x2000))
    .ok [r.1 % 129 + (128 - r.1 % 129) * 2 ^ 8 + r.2 % 33 * 2 ^ 16 + (32 - r.2 % 33) * 2 ^ 24]
  else .error mbxUnlisted

/-- R373: the items of the CLK block. -/
def State.clkItem (s : State) (i : Nat) : Item :=
  if i = 0 then .ok [(List.range 4).foldl (fun a t => a + (s.tier t).jOvf % 256 * 256 ^ t) 0]
  else if 0x100 ≤ i ∧ i < 0x300 then
    match ((List.range 4).flatMap (fun t => (s.tier t).journal))[i - 0x100]? with
    | some l => .ok [2 ^ 31 + l % 2 ^ 30]
    | none => .ok [0]
  else if 0x1000 ≤ i ∧ i < 0x1100 then
    let g := i % 64
    let l := (s.tier ((i - 0x1000) / 64)).cal.margins.filter (fun e => e.1 / 128 == g)
    (match l.foldl (fun (b : Option (Nat × MarginS)) e => match b with | some o => if e.2.margin < o.2.margin then some e else b | none => some e) none with
    | some (k, m) => .ok [2 ^ 31 + m.step % 64 * 2 ^ 20 + m.cell % 16 * 2 ^ 16 + k % 128 * 2 ^ 8 + min 255 m.margin]
    | none => .ok [0])
  else .error mbxUnlisted

/-- R459: the items of the BOOT block. -/
def State.bootItem (s : State) (i : Nat) : Item :=
  if i = 0 then .ok (if s.power.fw = 2 then s.digestWords else List.replicate 12 0)
  else if [1, 2, 3, 4, 5, 6, 7, 8, 9, 10, 11, 12, 13, 14, 20, 21, 22, 23].contains (i - 0x100) ∧ 0x100 ≤ i then
    let r := AMap.get (i - 0x100) ((0, 0, 0) : Nat × Nat × Nat) s.bist
    .ok [r.1 + r.2.1 * 2 ^ 16, r.2.2]
  else if 0x200 ≤ i ∧ i < 0x240 then
    if s.isManager then
      let e := s.ent (i - 0x200)
      .ok [if i = 0x200 then s.power.fw + s.power.failCode % 256 * 2 ^ 16 else e.fw % 4 + e.tries % 4 * 2 ^ 8 + e.failCode % 256 * 2 ^ 16]
    else .error mbxNoAnswer
  else .error mbxUnlisted

/-- The words of item `i` of a block, or the error its transfer ends with. -/
def State.readItem (s : State) (b : Block) (i : Nat) : Item :=
  match b with
  | .ident => if i = 0 then .ok (words64 s.id.serial) else if i = 1 then .ok (toWords 4 (leBytes 16 s.id.trace)) else .error mbxUnlisted
  | .topo => if i < 64 then .ok (words64 (if (s.ent i).valid then (s.ent i).serial else 0)) else .error mbxUnlisted
  | .fault =>
    if i < 120 * 256 then
      match AMap.find i s.flt.windows with
      | some w => .ok [min 65535 w.k, w.start % 2 ^ 32]
      | none => .ok [0, 0]
    else .error mbxUnlisted
  | .blaze => if i < 2048 then .ok ((AMap.get i ([] : BlazeE) s.flt.blaze.entries ++ List.replicate 8 0).take 8) else .error mbxUnlisted
  | .census =>
    if i < Config.CENSUS_SLOTS then .ok (s.snapSlot i)
    else if 0x1000 ≤ i ∧ i < 0x1000 + Config.CENSUS_SLOTS then .ok (s.liveSlot (i - 0x1000))
    else if i = 0x2000 then .ok s.sectionWords
    else .error mbxUnlisted
  | .ndl =>
    if i < 4 then (if s.isWorker && decide (i < 2) then .error mbxNoAnswer else .ok (s.creditItem (allPorts.getD i .ca)))
    else s.poolItem i
  | .qctx => if i = 0 then .ok (words64 s.que.dbNew) else if i = 1 then .ok (words64 s.que.sumNew) else .error mbxUnlisted
  | .eng =>
    if i < 256 then (if s.isManager then .ok (s.groupItem i) else .error mbxNoAnswer)
    else if 0x1000 ≤ i ∧ i < 0x1004 then .ok (s.shardItem (i - 0x1000))
    else .error mbxUnlisted
  | .prot =>
    if i = 0 then .error mbxUnlisted
    else if i < 0x1000 then
      (if s.isManager then .ok [(s.key i).state + min 65535 (s.keyRequests i) * 2 ^ 16] else .error mbxNoAnswer)
    else if i < 0x5000 then
      let n := (i - 0x1000) / 256
      if s.isManager then .ok (AMap.get (i - 0x1000) [0, 0, 0, 0] s.mapsNext)
      else if s.numValid && n == s.num then .ok (AMap.get (i % 256) [0, 0, 0, 0] s.prot.own)
      else .error mbxNoAnswer
    else .error mbxUnlisted
  | .pwr =>
    if i = 0 then
      (if s.isManager then
        .ok (toWords 8 (leBytes 32 ((List.range 64).foldl (fun a n =>
          a + (if (s.ent n).valid then
            (if n = 0 then s.power.pstate + 8 * b2n s.power.transit else (s.ent n).pwr % 8 + 8 * b2n (s.ent n).pwrBusy) else 0) * 16 ^ n) 0)))
      else .error mbxNoAnswer)
    else .error mbxUnlisted
  | .therm => if i < 4 then .ok (((s.tier i).bins.map (min (2 ^ 32 - 1)) ++ List.replicate 8 0).take 8) else .error mbxUnlisted
  | .clk => s.clkItem i
  | .boot => s.bootItem i
  | .link q =>
    if i = 0 then .ok (toWords 8 (s.port q).peerCap) else if i = 1 then .ok (toWords 8 (s.port q).ownCap)
    else if 0x100 ≤ i ∧ i < 0x1C0 then .ok (words64 (AMap.get (i - 0x100) 0 (s.port q).eyeMap))
    else .error mbxUnlisted
  | .ch n => s.chanItem n i
  | .cmn t => s.cmnItem t i
  | _ => .error mbxUnlisted

/-- A write of a writable item (R223, R289): the state after it, and the error. -/
def State.writeItem (b : Block) (i : Nat) (w : List Nat) (path : Path) (s : State) : State × Nat :=
  match b with
  | .qctx =>
    let v := w.getD 0 0 + w.getD 1 0 * 2 ^ 32
    if i = 0 then (if v % 2 ^ 22 = 0 then ({ s with que.dbNew := v }, 0) else (s, mbxRefused))
    else if i = 1 then (if v % 2 ^ 13 = 0 then ({ s with que.sumNew := v }, 0) else (s, mbxRefused))
    else (s, mbxUnlisted)
  | .prot =>
    if 0x1000 ≤ i ∧ i < 0x5000 then
      let n := (i - 0x1000) / 256
      if s.isManager then s.mapWrite n (i % 256) (w.take 4)
      else if !(s.numValid && n == s.num) then (s, mbxNoAnswer)
      else if path = .cfgWarden then (s.mapCopy (i % 256) (w.take 4), 0)
      else (s, mbxNotWritable)
    else match s.readItem b i with
      | .ok _ => (s, mbxNotWritable)
      | .error k => (s, k)
  | _ => match s.readItem b i with
    | .ok _ => (s, mbxNotWritable)
    | .error k => (s, k)

end Sys2Proof.Machine
end

