-- ==== Sys2Proof/Machine/Access.lean ====
section
/-! DEFINITION. Register accesses on the two paths (R40 to R59, R436, R504): where an access lands, what a read returns, what a write
stores and does, bit aliases, status registers, apply points, and the mailbox. A write that gives an RSV bit another value has no
outcome (R53): the functions answer none for it. -/

namespace Sys2Proof.Machine

/-! ### Where an access lands -/

/-- Sets a flag of `MBX.ACC_STATUS`, with the path of the access (R59). DESIGN CHOICE: LAST_PATH, which is no flag, does not advance SEQ when it
alone changes, and STALE set by a clear that does not match SEQ leaves it as it is (R50). -/
def State.accFlag (path : Path) (f : Fld) (s : State) : State :=
  (s.raise Reg.MBX_ACC_STATUS f).setFld Reg.MBX_ACC_STATUS F.MBX_ACC_STATUS_LAST_PATH (if path = .i3c then 2 else 1)

/-- R57: the address of a word in the register file: the I3C bank of the mailbox lies beside the CFG bank. -/
def bankAddr (path : Path) (b : Block) (o a : Nat) : Nat :=
  if path = .i3c ∧ b = .mbx ∧ o ≠ 8 then a + 2 ^ 25 else a

/-- R40 to R47: the block, offset and table row of a register, or the flag that the access sets. -/
def State.resolve (s : State) (a : Nat) : Except Fld (Block × Nat × RegRow) :=
  let (b, o) := blockOf a
  if b = .none ∨ (b = .testWin ∧ !s.isTest) then .error F.MBX_ACC_STATUS_UNMAPPED
  else if (s.stopped ∧ !b.always) ∨ !s.present b ∨ ((a = Reg.PROT_KEYS ∨ a = Reg.PROT_RELAY ∨ a = Reg.PROT_MAP_ERR) ∧ !s.isManager) then .error F.MBX_ACC_STATUS_UNAVAIL
  else match b.rows.find? (fun r => r.holds o) with
    | some r => .ok (b, o, r)
    | none => .error F.MBX_ACC_STATUS_UNMAPPED

/-- The word of a raw read-only window at an address (R397, R426); none outside them. -/
def State.rawView (s : State) (a : Nat) : Option (Except Fld Word) :=
  let (b, o) := blockOf a
  if b = .fuseWin ∨ b = .sensorWin then
    some (if s.stopped then .error F.MBX_ACC_STATUS_UNAVAIL
      else if b = .sensorWin then (if o < 288 then .ok (s.sensorView (o / 4)) else .error F.MBX_ACC_STATUS_UNMAPPED)
      else match s.fuseView o with | some w => .ok w | none => .error F.MBX_ACC_STATUS_UNMAPPED)
  else none

/-- Whether an address lies among the bit aliases (R40). -/
def isAlias (a : Nat) : Bool := decide (2 ^ 24 ≤ a) && decide (a < 2 ^ 25)
/-- R48: the word and the bit of an alias. -/
def aliasOf (a : Nat) : Nat × Nat := ((a - 2 ^ 24) / 128 * 4, (a - 2 ^ 24) % 128 / 4)

/-- The bank of a mailbox path. -/
def State.mbx (s : State) (path : Path) : MbxS := if path = .i3c then s.regs.mbxI else s.regs.mbxC
/-- Sets the bank of a mailbox path. -/
def State.setMbx (path : Path) (x : MbxS) (s : State) : State :=
  if path = .i3c then { s with regs.mbxI := x } else { s with regs.mbxC := x }
/-- A mailbox register of a path's bank. -/
def mbxReg (path : Path) (a : Nat) : Nat := if path = .i3c then a + 2 ^ 25 else a
/-- Whether a bank's transfer runs (R58). -/
def State.mbxBusy (s : State) (path : Path) : Bool := s.fld (mbxReg path Reg.MBX_CTL) F.MBX_CTL_BUSY == 1

/-! ### Reads -/

/-- What a read of an error counter of a port under PRBS adds: the errors counted since the last look. -/
def State.prbsLook (b : Block) (o a : Nat) (s : State) : State × Word :=
  match b with
  | .link p =>
    let en := s.effFld (Reg.LINK_PRBS_CTL p) F.LINK_PRBS_CTL_LANE_EN
    if s.prbsChecks p ∧ 0x80 ≤ o ∧ o < 0xA0 ∧ bit en ((o - 0x80) / 4) then
      let (k, s) := s.draw
      let w : Word := BitVec.ofNat 32 (min (2 ^ 32 - 1) ((s.reg a).toNat + Config.prbsErrors k ((o - 0x80) / 4)))
      (s.setReg a w, w)
    else (s, s.regView b o a)
  | _ => (s, s.regView b o a)

/-- A read of the word at an aligned primary or raw address. -/
def State.readReg (path : Path) (a : Nat) (s : State) : State × Word :=
  match s.rawView a with
  | some (.ok w) => (s, w)
  | some (.error f) => (s.accFlag path f, 0)
  | none =>
    match s.resolve a with
    | .error f => (s.accFlag path f, 0)
    | .ok (b, o, _) =>
      if b = .mbx ∧ 0x20 ≤ o ∧ s.mbxBusy path then (s, 0)
      else s.prbsLook b o (bankAddr path b o a)

/-- R40, R41, R48: a read of a word on a path. -/
def State.readWord (path : Path) (a : Nat) (s : State) : State × Word :=
  if a % 4 ≠ 0 then (s.accFlag path F.MBX_ACC_STATUS_UNALIGNED, 0)
  else if isAlias a then
    let (w, b) := aliasOf a
    let (s, v) := s.readReg path w
    (s, BitVec.ofNat 32 (b2n (v.getLsbD b)))
  else s.readReg path a

/-! ### The mailbox (R57 to R59) -/

/-- The page that a transfer ends with: its error and its words. -/
abbrev Page := Nat × List Word

/-- Page `g` of an item's words: none beyond the item. -/
def pageOf (g : Nat) (l : List Word) : Page :=
  match (l.drop (8 * g)).take 8 with
  | [] => (mbxUnlisted, [])
  | w => (0, w)

/-- R58: REQ starts a transfer of the item that `MBX.SEL` names. DESIGN CHOICE: a later page that no capture serves ends with ERR 0b110, and a
write of one with 0b011, whether or not the item is listed and answers: which error stands first the manual does not say. -/
def State.mbxStart (path : Path) (s : State) : State :=
  let ca := mbxReg path Reg.MBX_CTL
  let sel := s.reg (mbxReg path Reg.MBX_SEL)
  let k := F.MBX_SEL_BLOCK.get sel
  let i := F.MBX_SEL_ITEM.get sel
  let g := F.MBX_SEL_PAGE.get sel
  let wr : Bool := F.MBX_CTL_DIR.get (s.reg ca) == 1
  let b := mbxBlock k
  let s := s.setReg ca (putFields [(F.MBX_CTL_BUSY, 1), (F.MBX_CTL_VALID, 0), (F.MBX_CTL_ERR, 0)] (s.reg ca))
  let s := s.setMbx path { s.mbx path with busyWr := false }
  let fin (r : Page) (s : State) : State := s.setMbx path { s.mbx path with result := some (r.1, b2n wr, r.2) }
  if b = .none then fin (mbxUnlisted, []) s
  else if !s.present b ∨ (s.stopped ∧ !b.always) then
    fin (match s.readItem b i with | .error e => if e = mbxUnlisted then mbxUnlisted else mbxNoAnswer | .ok _ => mbxNoAnswer, []) s
  else if wr then
    if g ≠ 0 then fin (mbxNotWritable, []) s
    else
      let data := (List.range 8).map (fun n => (s.reg (mbxReg path (Reg.MBX_DATA n))).toNat)
      let (s, e) := s.writeItem b i data path
      fin (e, []) s
  else if g = 0 then
    match s.readItem b i with
    | .error e => fin (e, []) s
    | .ok l =>
      let w : List Word := l.map (BitVec.ofNat 32)
      fin (pageOf 0 w) (s.setMbx path { s.mbx path with item := some (k, i, w) })
  else match (s.mbx path).item with
    | some (k', i', w) => if k' = k ∧ i' = i then fin (pageOf g w) s else fin (6, []) s
    | none => fin (6, []) s

/-- R58: a transfer ends. -/
def State.mbxDone (path : Path) (s : State) : State :=
  match (s.mbx path).result with
  | none => s
  | some (e, wr, l) =>
    let ca := mbxReg path Reg.MBX_CTL
    let err := if e = 0 ∧ (s.mbx path).busyWr then 2 else e
    let s := s.setMbx path { s.mbx path with result := none, busyWr := false }
    let ok : Bool := e == 0 && wr == 0
    let s := s.setReg ca (putFields [(F.MBX_CTL_BUSY, 0), (F.MBX_CTL_ERR, err), (F.MBX_CTL_VALID, b2n ok)] (s.reg ca))
    if ok then
      forEach l.zipIdx (fun w s => s.setReg (mbxReg path (Reg.MBX_DATA w.2)) w.1) (s.setFld ca F.MBX_CTL_LEN l.length)
    else s

/-! ### Writes -/

/-- Whether a field refuses writes on a path (R504). -/
def guarded (path : Path) (b : Block) (o : Nat) (f : Fld) : Bool :=
  match b with
  | .ident => o == 0xC && f.hi ≤ 6 && path != .ownWarden && path != .cfgWarden
  | .pwr => o == 8 && (f == F.PWR_CMD_GO || f == F.PWR_CMD_STATE) && path != .cfgWarden
  | .boot => (((o == 8 && f == F.BOOT_CTL_REBOOT) || decide (0x20 ≤ o)) && path != .cfgWarden)
  | .fault => o == 4 && (f == F.FAULT_CTL_WARM_RESET || f == F.FAULT_CTL_KEY_HALT) && path != .cfgWarden && path != .i3c
  | _ => false

/-- R504, R446, R384: whether a refused write of value `v` to a field that held `old` sets RO_WRITE. -/
def guardFlags (b : Block) (o : Nat) (r : FieldRow) (v old : Nat) : Bool :=
  if b = .boot ∧ 0x20 ≤ o then r.ty != .rsv
  else if b = .pwr ∧ r.bits = F.PWR_CMD_STATE then false
  else match r.ty with | .rw => v != old | .wo => v != 0 | _ => false

/-- R436: which fields of a register a write reaches while the start runs; none where the write has no effect. -/
def startWrite (path : Path) (b : Block) (o : Nat) (data : Word) : Option (Fld → Bool) :=
  match b with
  | .mbx => some (fun _ => true)
  | .ident => if o = 0xC ∧ (path = .ownWarden ∨ path = .cfgWarden) then some (fun _ => true) else none
  | .boot =>
    if 0x20 ≤ o then some (fun _ => true)
    else if o = 8 ∧ F.BOOT_CTL_REBOOT.get data = 1 then some (fun f => f == F.BOOT_CTL_REBOOT)
    else none
  | .fault => if o = 4 ∧ F.FAULT_CTL_WARM_RESET.get data = 1 then some (fun f => f == F.FAULT_CTL_WARM_RESET) else none
  | _ => none

/-- R51: a write to the status register at `a`. -/
def State.statusReg (a : Nat) (r : RegRow) (data : Word) (s : State) : State :=
  let w := s.reg a
  if seqFld.get data = seqFld.get w then
    let clr := r.fields.foldl (fun (m : Nat) f => if f.ty == .rsq then m ||| (data.toNat &&& f.bits.mask.toNat) else m) 0
    s.setReg a (w &&& ~~~(BitVec.ofNat 32 clr))
  else s.setFld a staleFld 1

/-- R189: whether a firm limit or reach of `w` at offset `o` of the SVC block keeps every channel within FIRM_BUDGET. -/
def State.budgetOk (s : State) (o : Nat) (w : Word) : Bool :=
  let lim (c : Nat) : Nat := if o = 0x40 + 4 * c then F.SVC_LIMIT_LIM.get w else s.limit c
  let reach (c n : Nat) : Bool := if o = 0xA0 + 4 * c then w.getLsbD n else s.reaches c n
  (List.range 32).all (fun n => decide ((List.range 4).foldl (fun a c => if reach c n then a + lim c else a) 0 ≤ Config.FIRM_BUDGET))

/-- The reading of a field row's bits in a word. -/
def FieldRow.get (r : FieldRow) (w : Word) : Nat := r.bits.get w

/-- R52, R54: the word with the written fields stored, each at its nearest limit; an RWL field only while the set-up lock is open. DESIGN
CHOICE: an alias write of one bit that takes its field out of range stores the limit too, so that other bits of the field change (R48). -/
def storedWord (path : Path) (b : Block) (o : Nat) (lockOpen : Bool) (touch : Fld → Bool) (data old : Word) (fs : List FieldRow) : Word :=
  fs.foldl (fun w r =>
    if (r.ty == .rw || (r.ty == .rwl && lockOpen)) && touch r.bits && !guarded path b o r.bits then
      r.bits.set (max r.least (min r.most (r.get data))) w
    else w) old

/-- R52, R504: whether a write sets RO_WRITE. -/
def roWrite (path : Path) (b : Block) (o : Nat) (touch : Fld → Bool) (data old view : Word) (fs : List FieldRow) : Bool :=
  fs.any (fun r => touch r.bits &&
    (if guarded path b o r.bits then guardFlags b o r (r.get data) (r.get old)
     else (r.ty == .ro || r.ty == .rsq) && r.get data != r.get view))

/-- R53: whether a write gives an RSV bit another value. -/
def rsvBroken (touch : Fld → Bool) (data old : Word) (fs : List FieldRow) : Bool :=
  fs.any (fun r => r.ty == .rsv && touch r.bits && r.get data != r.get old)

/-- Fields with an apply point later than IMM that a write touches (R54). -/
def laterField (touch : Fld → Bool) (fs : List FieldRow) : Bool :=
  fs.any (fun r => r.ty == .rw && r.apply != .imm && touch r.bits)

/-- A write of `CMN.RANGER_CTL` stops or resumes Ranger (R330). -/
def State.rangerSwitch (t : Nat) (was now : Bool) (s : State) : State :=
  if was == now then s
  else forEach ((List.range 8).map (8 * t + ·)) (fun n s => s.modChan n (fun c =>
    if now then { c with rangerAt := c.rangerAt + (s.now - c.rangerOff), rangerOff := 0 } else { c with rangerOff := s.now })) s

/-- Starts a test-window access (R286); none while one runs, nor before the memory has been written under R148. -/
def State.testStart (write : Bool) (s : State) : State :=
  if s.prot.win.isSome ∨ !s.isTest ∨ !s.power.memTested then s else { s with prot.win := some write }

/-- What a write to `FAULT.CTL` does (R466, R472). -/
def State.faultCtl (path : Path) (wo : Fld → Nat) (s : State) : State :=
  let s := when (wo F.FAULT_CTL_RESUME == 1) State.resume s
  let s := when (wo F.FAULT_CTL_KEY_HALT == 1) (State.fault 86 0 []) s
  when (wo F.FAULT_CTL_WARM_RESET == 1) (State.warmReset (if path = .i3c then 3 else 2)) s

/-- What a write to `BOOT.CTL` does (R450, R455, R457). -/
def State.bootCtl (wo : Fld → Nat) (touch : Fld → Bool) (s : State) : State :=
  let s := when (wo F.BOOT_CTL_OWNER_LOCK == 1) State.lockOwner s
  let s := when (touch F.BOOT_CTL_RELEASE) (fun s => s.releaseTiers (s.fld Reg.BOOT_CTL F.BOOT_CTL_RELEASE)) s
  when (wo F.BOOT_CTL_REBOOT == 1) State.rebootNow s

/-- What a write to `LINK_x.CTL` does (R86, R94, R95). -/
def State.linkCtl (p : Port) (wo : Fld → Nat) (touch : Fld → Bool) (s : State) : State :=
  let s := when (touch F.LINK_CTL_ENABLE) (State.ctlEnable p (s.fld (Reg.LINK_CTL p) F.LINK_CTL_ENABLE == 1)) s
  if wo F.LINK_CTL_STEP_UP = 1 then s.ctlStepUp p
  else when (wo F.LINK_CTL_RETRAIN == 1) (State.ctlRetrain p) s

/-- What a stored write does beside its value. `wo f` is what the write gives a WO field. -/
def State.act (path : Path) (b : Block) (o a : Nat) (wo : Fld → Nat) (touch : Fld → Bool) (old : Word) (s : State) : State :=
  match b with
  | .ident => if o = 0xC ∧ (path = .ownWarden ∨ path = .cfgWarden) then s.raise Reg.IDENT_STATUS F.IDENT_STATUS_NUM_CHANGED else s
  | .topo => when (o == 8 && wo F.TOPO_PLAN_CTL_COMMIT == 1) State.planCommit s
  | .fault =>
    if o = 4 then s.faultCtl path wo
    else if o = 0xC then when (wo F.FAULT_INJECT_GO == 1) (State.fault 119 (s.fld a F.FAULT_INJECT_UNIT) []) s
    else if 0x100 ≤ o then s.setFld a F.FAULT_SRC_CEIL (max (s.fld a F.FAULT_SRC_CEIL) (s.fld a F.FAULT_SRC_BASE))
    else s
  | .blaze => when (o == 0xC && wo F.BLAZE_CTL_THAW == 1) State.thaw s
  | .census =>
    let v := s.fld a F.CENSUS_CTL_INTERVAL
    if o = 4 ∧ 1 ≤ v ∧ v < 100 then s.setFld a F.CENSUS_CTL_INTERVAL 100 else s
  | .mbx =>
    if o = 0 then
      let s := s.setFld (mbxReg path Reg.MBX_CTL) F.MBX_CTL_VALID 0
      if bits old.toNat 27 0 = bits (s.reg a).toNat 27 0 then s else s.setMbx path { s.mbx path with item := none }
    else when (o == 4 && wo F.MBX_CTL_REQ == 1) (State.mbxStart path) s
  | .pwr => when (o == 8 && wo F.PWR_CMD_GO == 1) (State.pwrCmd (wo F.PWR_CMD_STATE)) s
  | .clk => when (o == 0x20 && wo F.CLK_JOURNAL_CLR == 1) State.journalClear s
  | .boot =>
    if o = 8 then s.bootCtl wo touch
    else if o = 0x20 then
      when (wo F.BOOT_LOAD_CTL_END == 1) State.loadEnd (when (wo F.BOOT_LOAD_CTL_START == 1) (State.loadStart (wo F.BOOT_LOAD_CTL_LEN)) s)
    else if 0x30 ≤ o then when (path == .cfgWarden) (State.loadWords [wo F.BOOT_LOAD_WIN_VALUE]) s
    else s
  | .svc => when (decide (0x80 ≤ o) && decide (o < 0x90) && touch F.SVC_TARGET_PIN) State.pinWake s
  | .eng => if o = 4 ∧ s.fld a F.ENG_CTL_HOLD = 0 then forEach (List.range 4) State.engNext s else s
  | .qctx => when (o == 8 && wo F.QCTX_CMD_OP != 0) (State.qctxCmd (wo F.QCTX_CMD_OP) (s.fld a F.QCTX_CMD_TAG)) s
  | .link p =>
    if o = 4 then s.linkCtl p wo touch
    else if o = 0x20 then when (wo F.LINK_EYE_CTL_START == 1) (State.eyeStart p) s
    else when (o == 0x40 && wo F.LINK_PRBS_CTL_CLR == 1) (State.prbsClear p) s
  | .cmn t =>
    if o = 0x8008 then when (wo F.CMN_BCAST_GO == 1) (fun s => s.cond (Reg.CMN_STATUS t) F.CMN_STATUS_BCAST_PEND true) s
    else if o = 0x800C then when (wo F.CMN_DRBG_RESEED == 1) (State.reseed t) s
    else if o = 0x8010 then s.rangerSwitch t (F.CMN_RANGER_CTL_EN.get old == 1) (s.fld a F.CMN_RANGER_CTL_EN == 1)
    else s
  | .testWin =>
    if o = 4 then
      if wo F.TESTWIN_CTL_READ = 1 then s.testStart false else when (wo F.TESTWIN_CTL_WRITE == 1) (State.testStart true) s
    else s
  | _ => s

/-- A write to the fields `touch` of a register that is no status register. -/
def State.writeFields (path : Path) (b : Block) (o a : Nat) (r : RegRow) (data : Word) (touch : Fld → Bool) (s : State) : Option State :=
  let a := bankAddr path b o a
  let old := s.reg a
  if b = .mbx ∧ s.mbxBusy path then
    some ((s.setFld (mbxReg path Reg.MBX_CTL) F.MBX_CTL_ERR 2).setMbx path { s.mbx path with busyWr := true })
  else if rsvBroken touch data old r.fields then none
  else
    let new := storedWord path b o s.power.lockOpen touch data old r.fields
    if b = .svc ∧ (o < 0x50 ∨ (0xA0 ≤ o ∧ o < 0xB0)) ∧ !s.budgetOk o new then some (s.raise Reg.SVC_STATUS F.SVC_STATUS_BUDGET_ERR)
    else
      let ro := roWrite path b o touch data old (s.regView b o a) r.fields
      let s := s.setReg a new
      let s := if laterField touch r.fields ∧ !s.regs.wait.contains a then { s with regs.wait := s.regs.wait ++ [a] } else s
      let s := when ro (State.accFlag path F.MBX_ACC_STATUS_RO_WRITE) s
      let s := when (!s.power.lockOpen && r.fields.any (fun f => f.ty == .rwl && touch f.bits)) (State.accFlag path F.MBX_ACC_STATUS_LOCKED) s
      let wo (f : Fld) : Nat := if touch f && !guarded path b o f then f.get data else 0
      some (s.act path b o a wo touch old)

/-- A write to the word at an aligned primary or raw address; `touch` names the fields the write reaches. -/
def State.writeReg (path : Path) (a : Nat) (data : Word) (touch : Fld → Bool) (s : State) : Option State :=
  match s.rawView a with
  | some (.ok w) =>
    let (b, _) := blockOf a
    if b = .sensorWin ∧ bits data.toNat 27 24 ≠ 0 then none
    else some (when (data != w) (State.accFlag path F.MBX_ACC_STATUS_RO_WRITE) s)
  | some (.error f) => some (s.accFlag path f)
  | none =>
    match s.resolve a with
    | .error f => some (s.accFlag path f)
    | .ok (b, o, r) =>
      if s.power.phase = .starting then
        match startWrite path b o data with
        | none => some (s.accFlag path F.MBX_ACC_STATUS_UNAVAIL)
        | some g => if r.status then some (s.statusReg a r data) else s.writeFields path b o a r data (fun f => touch f && g f)
      else if r.status then some (s.statusReg a r data)
      else s.writeFields path b o a r data touch

/-- R48, R49: a write to the alias of bit `k` of the word at `a`. -/
def State.writeAlias (path : Path) (a k : Nat) (v : Bool) (s : State) : Option State :=
  match s.resolve a with
  | .error f => some (s.accFlag path f)
  | .ok (b, o, r) =>
    match r.fields.find? (fun f => f.bits.lo ≤ k && k ≤ f.bits.hi) with
    | none => some (s.accFlag path F.MBX_ACC_STATUS_ALIAS_IGN)
    | some f =>
      if f.ty == .rw || f.ty == .wo || f.ty == .rwl then
        let old := (s.reg (bankAddr path b o a)).toNat
        let w : Word := BitVec.ofNat 32 (setBits (if f.ty == .wo then 0 else old) k k (b2n v))
        s.writeReg path a w (fun g => g == f.bits)
      else some (s.accFlag path F.MBX_ACC_STATUS_ALIAS_IGN)

/-- R40, R48, R54: a write of a word on a path. -/
def State.writeWord (path : Path) (a : Nat) (data : Word) (s : State) : Option State :=
  if a % 4 ≠ 0 then some (s.accFlag path F.MBX_ACC_STATUS_UNALIGNED)
  else if isAlias a then let (w, k) := aliasOf a; s.writeAlias path w k (data.getLsbD 0)
  else s.writeReg path a data (fun _ => true)

/-- A write that gives one field of a register a value and leaves the others as they are. -/
def State.writeField (path : Path) (a : Nat) (f : Fld) (v : Nat) (s : State) : Option State :=
  s.writeReg path a (f.set v 0) (fun g => g == f)

/-- A write that gives some fields of a register values and leaves the others as they are. -/
def State.writeParts (path : Path) (a : Nat) (l : List (Fld × Nat)) (s : State) : Option State :=
  s.writeReg path a (putFields l 0) (fun g => l.any (fun e => e.1 == g))

/-- Writes of consecutive words in ascending address order (R116). -/
def State.writeWords (path : Path) (a : Nat) : List Word → State → Option State
  | [], s => some s
  | w :: r, s => (s.writeWord path a w).bind (fun s => s.writeWords path (a + 4) r)

/-- Reads of consecutive words in ascending address order (R116). -/
def State.readWords (path : Path) (a : Nat) : Nat → State → State × List Word
  | 0, s => (s, [])
  | n + 1, s =>
    let (s, w) := s.readWord path a
    let (s, r) := s.readWords path (a + 4) n
    (s, w :: r)

/-! ### Which accesses reach the registers -/

/-- R383, R389: an I3C transfer addressed to a device in SLEEP, or entering it, wakes it and does nothing else; a device in DEEP or
without supply takes none. A CFG access needs ports that run, and wakes a device in IDLE. -/
def State.pathOpen (path : Path) (s : State) : State × Bool :=
  if path = .i3c then
    if !s.powered ∨ s.power.pstate = 3 then (s, false)
    else if s.running ∧ (s.power.pstate = 2 ∨ (s.power.entry = .marked ∧ s.power.target = 2 ∧ s.power.acks = [])) then (s.wakeEdge 4, false)
    else (s, true)
  else if s.awake ∧ s.power.pstate < 2 then (s.wakeMsg, true)
  else (s, false)

/-- A register access on a path, where it reaches the registers. -/
def State.onPath (path : Path) (f : State → Option State) (s : State) : Option State :=
  let (s, go) := s.pathOpen path
  if go then f s else some s

/-! ### Apply points (R54, R55, R323) -/

/-- The fields of a register word that wait take effect. -/
def State.applyReg (a : Nat) (s : State) : State :=
  { s with regs.eff := AMap.set a (regReset s.id.role a) (s.reg a) s.regs.eff, regs.wait := s.regs.wait.filter (· != a) }

/-- BLK: the waiting fields of a port take effect together. -/
def State.applyPort (p : Port) (s : State) : State :=
  let mode := s.regs.wait.contains (Reg.LINK_CTL p)
  let s := if s.regs.wait.contains (Reg.LINK_PRBS_CTL p) then ((s.prbsCount p).applyReg (Reg.LINK_PRBS_CTL p)).sendState p else s
  if mode then (s.applyReg (Reg.LINK_CTL p)).ctlMode p (s.fld (Reg.LINK_CTL p) F.LINK_CTL_MODE) else s

/-- Whether a port sends frames, so that it has row boundaries (R54). -/
def PortS.sends (x : PortS) : Bool := !(x.tstate == .off || x.tstate == .quiet || (x.tstate == .step && x.stepping))

/-- REF: the waiting fields of a channel take effect together. -/
def State.applyChan (n : Nat) (s : State) : State := if s.regs.wait.contains (Reg.CH_CTL n) then s.applyReg (Reg.CH_CTL n) else s

/-- REF at a tier's boundary: a broadcast sets the fields of all eight channels (R323). -/
def State.applyTier (t : Nat) (s : State) : State :=
  if s.fld (Reg.CMN_STATUS t) F.CMN_STATUS_BCAST_PEND = 1 then
    let w := s.reg (Reg.CMN_BCAST t)
    let s := s.cond (Reg.CMN_STATUS t) F.CMN_STATUS_BCAST_PEND false
    forEach ((List.range 8).map (8 * t + ·)) (fun n s =>
      let a := Reg.CH_CTL n
      (s.setReg a (putFields [(F.CH_CTL_NREF_DIST2, F.CMN_BCAST_NREF_DIST2.get w), (F.CH_CTL_NREF_K, F.CMN_BCAST_NREF_K.get w),
        (F.CH_CTL_PASR_KEEP, F.CMN_BCAST_PASR_KEEP.get w)] (s.reg a))).applyReg a) s
  else s

/-- APPLY_POINT: the boundary of a unit. A tier's boundary is that of its channel 0 (R301), whichever of the two is named. No register of the
manual has a DSC or CEN field, and a BOOT field is taken by the next start. -/
def State.applyUnit (u : ApplyUnit) (s : State) : State :=
  if !s.awake then s
  else match u with
    | .port p => if (s.port p).sends then s.applyPort p else s
    | .chan n => (if n.val % 8 = 0 then s.applyTier (n.val / 8) else s).applyChan n.val
    | .tier t => (s.applyTier t.val).applyChan (8 * t.val)
    | _ => s

end Sys2Proof.Machine
end

