-- ==== Sys2Proof/Machine/Pump.lean ====
section
/-! DEFINITION. What follows a command inside the device: messages of the device to itself are taken, responses reach the agent that
waits for them, and work that waited for them goes on. -/

namespace Sys2Proof.Machine
open Sys2Proof

/-! ### Configuration accesses at their target (R116) -/

/-- The path of an arriving CFG message: the manager's warden is AGENT 0b01 with SRC 0 (R117, R504). -/
def Msg.cfgPath (m : Msg) : Path := if m.h.agent = .warden ∧ m.h.src = 0 ∧ !m.h.srcHost then .cfgWarden else .cfgHost

/-- COUNT of a CFG message. -/
def Msg.count (m : Msg) : Nat := m.h.flags.toNat % 4 + 1

/-- The response of a target: the words read, STATUS 0. -/
def State.cfgRsp (s : State) (m : Msg) (ws : List Nat) : Msg :=
  { s.rspMsg m (if m.op = .crd then .crdRsp else .cwrRsp) [] 0 m.h.flags.toNat 0 with words := ws }

/-- R116: a CFG read at its target. -/
def State.serveCrd (from? : Option Port) (m : Msg) (s : State) : State :=
  let (s, ws) := s.readWords m.cfgPath m.addr m.count
  s.reply from? (s.cfgRsp m (ws.map (·.toNat)))

/-- R116: a CFG write at its target; none where it breaks R53. -/
def State.serveCwr (from? : Option Port) (m : Msg) (s : State) : Option State :=
  (s.writeWords m.cfgPath m.addr (m.words.map (BitVec.ofNat 32))).map (fun s => s.reply from? (s.cfgRsp m []))

/-! ### Responses to the manager's agents -/

/-- A CFG access of the manager has been answered. The devices' copies of a map entry with INIT are finished by their owners. -/
def State.cfgDone (u : WardenUse) (ws : List Nat) (status : Nat) (s : State) : State :=
  match u with
  | .host m => s.cfgAnswer m ws status
  | .devnum n => s.numberDone n status
  | .map n e =>
    (match s.prot.jobs with
      | j :: _ =>
        if j.dev = n ∧ j.entry = e ∧ j.sent then
          if status ≠ 0 then (s.modEnt n (fun t => if j.init then { t with owed := t.owed ++ [e] } else t)).mapFinish
          else if j.init then s else s.mapFinish
        else s
      | [] => s)
  | .mapAll n _ => s.loadAnswer n ws status
  | .load n => s.loadAnswer n ws status
  | .job n => s.jobAnswer n ws status
  | .census n => s.censusAnswer n ws status
  | .halt _ => s
  | .seq => s

/-- R100, R116, R134: a CFG response reaches the manager, matched by its source and tag; one without an outstanding access is discarded. -/
def State.cfgResponse (m : Msg) (s : State) : State :=
  match AMap.find m.h.tag.toNat s.mgr.cfg with
  | some c =>
    let host : Bool := match c.use with | .host _ => true | _ => false
    if m.h.src.val ≠ c.dst ∨ m.h.srcHost ∨ m.h.dstHost ≠ host ∨ m.h.agent ≠ (if host then .switch else .warden) then s.tagErr
    else ({ s with mgr.cfg := AMap.del m.h.tag.toNat s.mgr.cfg }).cfgDone c.use m.words m.status
  | none => ({ s with mgr.lateC := s.mgr.lateC.filter (· != m.h.tag.toNat) }).tagErr

/-- CFG_TIMEOUT has passed without a response (R116); its tag is not used again while that may come (R107). -/
def State.cfgTimedOut (t : Nat) (s : State) : State :=
  match AMap.find t s.mgr.cfg with
  | none => s
  | some c =>
    let s := s.cfgGone t
    ((((s.raise Reg.NDL_STATUS F.NDL_STATUS_CFG_TIMEOUT).bump (mgrSlot 49) 1).fault 39 0 [])).cfgDone c.use [] 4

/-- What an answer from host memory does for the agent that asked (R110, R219). -/
def State.hostDone (u : HostUse) (r : Except Nat (List Byte)) (s : State) : State :=
  let flag (s : State) : State := match r with | .error _ => s.hostErrFlag | .ok _ => s
  match u with
  | .job off => (flag s).jobData off r
  | .jobWrite _ => (flag s).jobWritten r
  | .census => (flag s).censusWritten r
  | .drop => flag s
  | u => s.queueAnswer u r

/-- R100, R103, R110: a response of the host to a request of the manager: matched by its source and tag and by the shape of its request; an ERR with a
reserved cause counts as a protocol error and is passed on as UNREACHABLE. -/
def State.hostResponse (m : Msg) (s : State) : State :=
  let t := m.h.tag.toNat
  match AMap.find t s.mgr.host with
  | none => s.tagErr
  | some h =>
    if !m.h.srcHost || m.h.dstHost || m.h.dst != 0 || m.h.agent != .queue then s.tagErr else
    let gone (s : State) : State := { s with mgr.host := AMap.del t s.mgr.host }
    match m.op with
    | .rdata => if h.len ≠ 0 ∧ m.data.length = h.len then (gone s).hostDone h.use (.ok m.data) else s.protoErr m.h.port
    | .wdone => if h.len = 0 then (gone s).hostDone h.use (.ok []) else s.protoErr m.h.port
    | _ =>
      if m.status = 0 ∨ 15 < m.status then ((gone s).protoErr m.h.port).hostDone h.use (.error Cause.unreachable)
      else (gone s).hostDone h.use (.error m.status)

/-! ### ENG messages at this device (R124, R244) -/

/-- The tier, phase and relay mark of a SHARD message, in its first word. -/
def shardWord (tier : Nat) (phaseB relay : Bool) : Nat := tier + 4 * b2n phaseB + 8 * b2n relay

/-- An ENG message reaches the device or the manager. -/
def State.engIn (m : Msg) (s : State) : State :=
  match m.eng with
  | none => s
  | some g =>
    match m.op with
    | .shard =>
      let w := m.words.headD 0
      let dev := if bit w 3 then (match s.engDesc g with | some (_, x) => x.dev | none => s.num) else s.num
      s.shardArrive g dev (w % 4) (bit w 2) (bit w 3) (toWords 16 m.data)
    | .shardDone => s.shardDoneArrive g (m.words.getD 1 0) (m.words.getD 2 0)
    | .part => s.partArrive g m.data
    | .abort => s.shardAbort g
    | _ => s

/-! ### Messages of the device to itself -/

/-- A message of this device to itself. The warden writes reserved bits as it reads them, so its writes never meet R53. -/
def State.deliver (m : Msg) (s : State) : State :=
  match m.op.cls with
  | 0 => s.ownRequest m none
  | 1 => if m.h.agent = .engine then s.engAnswer m else s.mgrResponse m
  | 3 =>
    (match m.op with
      | .crd => s.serveCrd none m
      | .cwr => (s.serveCwr none m).getD s
      | _ => s.cfgResponse m)
  | 5 => s.engIn m
  | _ => s

/-! ### Work that goes on -/

/-- Whether a descriptor's shards have all reported while it still counts as running. -/
def DescS.reported (d : DescS) : Bool :=
  d.stage == .running && !d.shards.isEmpty && d.shards.all (fun x => x.2.done) && (d.phaseB == .none || d.phaseB == .runs)

/-- R24, R280: the warden's accesses to a device that has cleared, is halted, or whose route has changed end with a path reset. -/
def State.cfgLost (s : State) : State :=
  let lost (c : CReq) : Bool := c.lost ||
    (match c.use with | .host _ => false | .halt _ => false | _ => true) && c.dst != 0 &&
    ((s.ent c.dst).state == 1 || (s.ent c.dst).state == 2 || (s.ent c.dst).halted)
  forEach (s.mgr.cfg.filter (fun c => lost c.2)) (fun c s => (s.cfgGone c.1).cfgDone c.2.use [] 3) s

/-- The warden's work moves on step by step until it waits. -/
def State.jobRun : Nat → State → State
  | 0, s => s
  | n + 1, s =>
    let t := s.jobStep
    if t.que.job = s.que.job then t else t.jobRun n

/-- The copies that wait for the block they write to (R162) go on once it stands still. -/
def State.copyPump (s : State) : State :=
  forEach (s.pool.jobs.filter (fun j => decide (j.2.next < j.2.total) && s.copyIdle j.1)) (fun j s => s.copyIssue 64 j.1) s

/-- Engines, copies, descriptors, map writes and the warden's work move on where what they waited for has come. -/
def State.goOn (s : State) : State :=
  let s := s.copyPump.engPump
  if s.isManager then
    let s := forEach (s.que.descs.filter DescS.reported) (fun d s => match s.desc d.q d.i with | some d => s.shardsDone d | none => s) s
    s.epochSweep.hintsGo.cfgLost.cfgTags.mapStep.jobRun 64
  else s

/-- Takes the messages of the device to itself one after the other, and lets work go on, until nothing is left or the fuel is spent. -/
def State.settle : Nat → State → State
  | 0, s => s
  | n + 1, s =>
    match s.net.inbox with
    | m :: r => (({ s with net.inbox := r }).deliver m).settle n
    | [] =>
      let s := s.goOn
      if s.net.inbox.isEmpty then s else s.settle n

/-- R54: the waiting BLK fields of a port that sent nothing take effect when its training starts. -/
def State.trainApply (old : State) (s : State) : State :=
  forEach allPorts (fun p s =>
    if !(old.port p).sends && ((s.port p).tstate == .huntFull || (s.port p).tstate == .huntHalf) then s.applyPort p else s) s

/-- What follows a command: the effect, then what it sets going inside the device. -/
def State.after (f : State → State) (s : State) : State := s.trainApply ((f s).settle 65536)

/-- The outcome of a command that writes registers: the fault of R53, or the next state. -/
def access (f : State → Option State) (s : State) : Host.Outcome State Fault Refusal :=
  match f s with
  | some t => .next (s.carry (State.after (fun _ => t) s))
  | none => .fault .rsvWritten

/-- The outcome of a command that always completes. -/
def always (f : State → State) (s : State) : Host.Outcome State Fault Refusal := run (State.after f) s

/-- The outcome of a command that sends nothing to the device itself and that no work of the warden waits for. -/
def local_ (f : State → State) (s : State) : Host.Outcome State Fault Refusal := run (fun s => s.trainApply (f s)) s

/-- The effect of an event that only a device with its clocks running meets. -/
def whenAwake (f : State → State) (s : State) : State := if s.awake then f s else s

/-! ### Arrival of a message (R98 to R101) -/

/-- What a device learns from a message of the manager: the port that leads to it. -/
def State.learn (p : Port) (h : Hdr) (s : State) : State :=
  if s.isManager || h.src != 0 || h.dstHost then s else { s with net.mgrPort := p }

/-- R383: whether a message that has been accepted waits: it is for this device itself, which is not in RUN. -/
def State.holdsMsg (s : State) (p : Port) (m : Msg) : Bool :=
  s.power.pstate != 0 && (s.hostSide p || s.mine m.h || (s.isManager && (m.op.cls == 4 || m.h.dstHost)))

/-- A message arrives; where it is accepted, `f` says what becomes of it. A message other than LNK wakes a device in IDLE (R383). -/
def State.arrive (m : Msg) (dataOk : Bool) (f : Port → Msg → State → State) (s : State) : State :=
  let p := s.inPort m.h.port
  match s.accept p m.op m.h.ndata dataOk with
  | (s, false) => s
  | (s, true) =>
    let m := { m with h := { m.h with port := p } }
    let s := s.wakeMsg.learn p m.h
    if s.holdsMsg p m then s.holdMsg p m else f p m s

/-- A memory request: the host's are judged by the manager; a device serves its own and forwards the others (R102, R168). -/
def State.requestIn (p : Port) (m : Msg) (s : State) : State :=
  if s.hostSide p then s.mgrRequest { m with h := { m.h with flags := m.h.flags &&& 0xFE } }
  else if s.mine m.h then s.ownRequest m (some p)
  else s.route (some p) m

/-- A response: the host's answers the manager's requests of R110; another is for an agent of this device, or is forwarded. -/
def State.responseIn (p : Port) (m : Msg) (s : State) : State :=
  if s.hostSide p then s.hostResponse m
  else if s.mine m.h then (if m.h.agent = .engine then s.engAnswer m else s.mgrResponse m)
  else s.route (some p) m

/-- R117: where a routed CFG message goes from here: none where its route ends, else the next port and the rest of ROUTE, in which a
device that passes the message on counts itself off. -/
def State.wayOn (s : State) (p : Port) (r : Nat) : Option (Port × Nat) :=
  let other : Port := if p = .w then .e else .w
  if s.isWorker then (if 1 < bits r 8 6 then some (other, setBits r 8 6 (bits r 8 6 - 1)) else none)
  else if 1 < bits r 3 1 then some (other, setBits r 3 1 (bits r 3 1 - 1))
  else if bit r 4 then some (if bit r 5 then .cb else .ca, r)
  else none

/-- Where an accepted CFG request of a port goes on to; none where this device is its target. -/
def State.cfgOnward (s : State) (p : Port) (m : Msg) : Option (Port × Msg) :=
  match m.way with
  | some r => (s.wayOn p r).map (fun x => (x.1, { m with way := some x.2 }))
  | none => if s.mine m.h then none else some (s.switchPort (some p) m.h.dst.val (m.h.dst.val == 0), m)

/-- What becomes of an accepted CFG read or write of a port (R116, R117). -/
def State.cfgServe (p : Port) (m : Msg) (s : State) : Option State :=
  let serve (s : State) : Option State := if m.op = .crd then some (s.serveCrd (some p) m) else s.serveCwr (some p) m
  if s.hostSide p then
    if m.h.dst = 0 ∧ m.way = none then serve s else some (s.mgrCfg m m.count)
  else match s.cfgOnward p m with
    | some (o, m) => some (if s.isManager then s.route (some p) m else s.sendOn o m)
    | none => serve s

/-- A CFG read or write arrives (R116, R117). -/
def State.cfgIn (m : Msg) (dataOk : Bool) (s : State) : Option State :=
  let p := s.inPort m.h.port
  match s.accept p m.op m.h.ndata dataOk with
  | (s, false) => some s
  | (s, true) =>
    let m := { m with h := { m.h with port := p } }
    let s := s.wakeMsg.learn p m.h
    if s.power.pstate != 0 && (s.hostSide p || (s.cfgOnward p m).isNone) then some (s.holdMsg p m) else s.cfgServe p m

/-- A CFG response arrives; at the manager it answers an access of its own, the host's among them (R116, R117). -/
def State.cfgRspIn (p : Port) (m : Msg) (s : State) : State :=
  if s.mine m.h || (s.isManager && m.h.dstHost) then s.cfgResponse m else s.route (some p) m

/-- An ENG message arrives. -/
def State.engArrive (p : Port) (m : Msg) (s : State) : State := if s.mine m.h then s.engIn m else s.route (some p) m

/-- What the manager's warden takes from a notice that passes it: the thermal stage and the power state of its device. -/
def State.noticeSeen (n : Notice) (s : State) : State :=
  let b (k : Nat) : Nat := leAt n.payload k 1
  if n.ntype = 0x0A then s.modEnt n.dev (fun e => { e with stage := b 0 })
  else if n.ntype = 0x12 then s.pwrTold n.dev (b 0) (b 2)
  else s

/-- A notice arrives (R130). -/
def State.noticeIn (p : Port) (m : Msg) (s : State) : State :=
  match m.ntc with
  | none => s
  | some n =>
    if s.isManager then
      ((s.noticeSeen n).hostNotice { sev := n.sev, nseq := n.nseq, count := n.count, payload := n.payload, first := s.now, dev := n.dev,
                                     src := n.src.val, ntype := n.ntype }).ntcFlush 2048
    else s.route (some p) m

/-! ### What waited for RUN (R383) -/

/-- A message that has waited for the device's return to RUN is served. -/
def State.serveHeld (m : Msg) (s : State) : Option State :=
  let p := m.h.port
  match m.op.cls with
  | 0 => some (if m.op = .fence then s.mgrFence m else if m.op = .hint then s.mgrHint m else s.requestIn p m)
  | 1 => some (s.responseIn p m)
  | 3 => if m.op = .crd ∨ m.op = .cwr then s.cfgServe p m else some (s.cfgRspIn p m)
  | 4 => some (s.noticeIn p m)
  | 5 => some (s.engArrive p m)
  | _ => some s

/-- POWER_EXIT_DONE: the device accepts requests again; what waited is served in order of arrival. -/
def State.exitServe (s : State) : Option State :=
  let t := s.exitDone
  if t.power.pstate = 0 then t.power.held.foldl (fun o m => o.bind (State.serveHeld m)) (some { t with power.held := [] }) else some t

end Sys2Proof.Machine
end

