-- ==== Sys2Proof/Machine/Engines.lean ====
section
/-! DEFINITION. The meanings of the engine opcodes and of the events of the tier engines (R226 to R257). -/

namespace Sys2Proof.Machine
open Sys2Proof

/-- COPY: descriptor `i` of queue `q` starts (R232, R240). -/
def execCopy (q : Nat) (i : Nat) (s : State) : Host.Outcome State Fault Refusal := always (State.engStart 1 q i) s

/-- FILL: descriptor `i` of queue `q` starts (R232, R240). -/
def execFill (q : Nat) (i : Nat) (s : State) : Host.Outcome State Fault Refusal := always (State.engStart 2 q i) s

/-- ZERO: descriptor `i` of queue `q` starts (R232, R240). -/
def execZero (q : Nat) (i : Nat) (s : State) : Host.Outcome State Fault Refusal := always (State.engStart 3 q i) s

/-- COMPARE: descriptor `i` of queue `q` starts (R232, R240). -/
def execCompare (q : Nat) (i : Nat) (s : State) : Host.Outcome State Fault Refusal := always (State.engStart 4 q i) s

/-- CRC: descriptor `i` of queue `q` starts (R233, R240). -/
def execCrc (q : Nat) (i : Nat) (s : State) : Host.Outcome State Fault Refusal := always (State.engStart 5 q i) s

/-- GATHER: descriptor `i` of queue `q` starts (R234, R240). -/
def execGather (q : Nat) (i : Nat) (s : State) : Host.Outcome State Fault Refusal := always (State.engStart 6 q i) s

/-- SCATTER: descriptor `i` of queue `q` starts (R234, R240). -/
def execScatter (q : Nat) (i : Nat) (s : State) : Host.Outcome State Fault Refusal := always (State.engStart 7 q i) s

/-- REDUCE: descriptor `i` of queue `q` starts (R238, R240). -/
def execReduce (q : Nat) (i : Nat) (s : State) : Host.Outcome State Fault Refusal := always (State.engStart 8 q i) s

/-- ATOMIC_BATCH: descriptor `i` of queue `q` starts (R247, R240). -/
def execAtomicBatch (q : Nat) (i : Nat) (s : State) : Host.Outcome State Fault Refusal := always (State.engStart 9 q i) s

/-- XOR_PARITY: descriptor `i` of queue `q` starts (R232, R240). -/
def execXorParity (q : Nat) (i : Nat) (s : State) : Host.Outcome State Fault Refusal := always (State.engStart 10 q i) s

/-- SHARD_FINISH (R243). -/
def execShardFinish (tier : Fin 4) (_ : Fin 4) (s : State) : Host.Outcome State Fault Refusal :=
  always (whenAwake (State.shardFinish tier)) s

/-- CHECKPOINT (R242). -/
def execCheckpoint (tier : Fin 4) (s : State) : Host.Outcome State Fault Refusal := run (whenAwake (State.engCheckpoint tier)) s

/-- MIGRATION (R252). -/
def execMigration (tier : Fin 4) (trigger : Fin 3) (s : State) : Host.Outcome State Fault Refusal := always (whenAwake (State.engMigrate tier trigger)) s

/-- EPOCH_CLOSE (R249). -/
def execEpochClose (g : Fin 256) (s : State) : Host.Outcome State Fault Refusal :=
  always (fun s => if s.isManager && s.running then s.epochClose g else s) s

end Sys2Proof.Machine
end

