-- ==== Sys2Proof/Machine/Faults.lean ====
section
/-! DEFINITION. The meanings of the commands of faults, the blaze log and the census (R463 to R483). -/

namespace Sys2Proof.Machine
open Sys2Proof

/-- KEY_HALT: a write of FAULT.CTL.KEY_HALT (R472). -/
def execKeyHalt (path : Path) (s : State) : Host.Outcome State Fault Refusal :=
  access (State.onPath path (State.writeParts path Reg.FAULT_CTL [(F.FAULT_CTL_KEY_HALT, 1)])) s

/-- FAULT_EVENT (R463). -/
def execFaultEvent (source : Fin 120) (unit : Nat) (payload : List Byte) (s : State) : Host.Outcome State Fault Refusal :=
  always (State.faultEvent source unit payload) s

/-- WARM_RESET: a write of FAULT.CTL.WARM_RESET (R472). -/
def execWarmReset (path : Path) (s : State) : Host.Outcome State Fault Refusal :=
  access (State.onPath path (State.writeParts path Reg.FAULT_CTL [(F.FAULT_CTL_WARM_RESET, 1)])) s

/-- WATCHDOG_EXPIRY (R470). -/
def execWatchdogExpiry (s : State) : Host.Outcome State Fault Refusal := run (whenAwake State.watchdog) s

/-- ALIVE_TOGGLE (R470). -/
def execAliveToggle (s : State) : Host.Outcome State Fault Refusal := run State.aliveToggle s

/-- INJECT: a write of FAULT.INJECT.GO (R483). -/
def execInject (path : Path) (unit : Byte) (s : State) : Host.Outcome State Fault Refusal :=
  access (State.onPath path (State.writeParts path Reg.FAULT_INJECT [(F.FAULT_INJECT_GO, 1), (F.FAULT_INJECT_UNIT, unit.toNat)])) s

/-- THAW: a write of BLAZE.CTL.THAW (R475). -/
def execThaw (path : Path) (s : State) : Host.Outcome State Fault Refusal :=
  access (State.onPath path (State.writeParts path Reg.BLAZE_CTL [(F.BLAZE_CTL_THAW, 1)])) s

/-- CENSUS_INTERVAL (R477). -/
def execCensusInterval (s : State) : Host.Outcome State Fault Refusal := always State.censusInterval s

/-- CENSUS_WAIT_EXPIRY (R478). -/
def execCensusWaitExpiry (p : Port) (s : State) : Host.Outcome State Fault Refusal := run (whenAwake (State.censusWait p)) s

/-- CENSUS_DONE (R479). -/
def execCensusDone (s : State) : Host.Outcome State Fault Refusal := always (whenAwake State.censusDone) s

end Sys2Proof.Machine
end

