-- ==== Sys2Proof/Machine/Management.lean ====
section
/-! DEFINITION. The meanings of the management opcodes and of the operations they start (R214, R262, R263, R335, R349, R365, R384, R427 to
R429, R453 to R457, R471, R476, R481). -/

namespace Sys2Proof.Machine
open Sys2Proof

/-- FENCE: the warden takes up descriptor `i` of queue `q` (R214, R249). -/
def execFenceDesc (q : Nat) (i : Nat) (s : State) : Host.Outcome State Fault Refusal := always (State.fenceRun q i) s

/-- CENSUS: the warden takes up descriptor `i` of queue `q` (R481). -/
def execCensusDesc (q : Nat) (i : Nat) (s : State) : Host.Outcome State Fault Refusal := always (State.jobStart 0x41 q i State.censusRun) s

/-- POWER_STATE: the warden takes up descriptor `i` of queue `q` (R384). -/
def execPowerState (q : Nat) (i : Nat) (s : State) : Host.Outcome State Fault Refusal := always (State.jobStart 0x42 q i State.powerRun) s

/-- KEY_LOAD: the warden takes up descriptor `i` of queue `q` (R262). -/
def execKeyLoad (q : Nat) (i : Nat) (s : State) : Host.Outcome State Fault Refusal := always (State.jobStart 0x43 q i State.keyLoadRun) s

/-- KEY_RETIRE: the warden takes up descriptor `i` of queue `q` (R263). -/
def execKeyRetire (q : Nat) (i : Nat) (s : State) : Host.Outcome State Fault Refusal := always (State.jobStart 0x44 q i State.keyRetireRun) s

/-- EVACUATE: the warden takes up descriptor `i` of queue `q` (R349). -/
def execEvacuate (q : Nat) (i : Nat) (s : State) : Host.Outcome State Fault Refusal := always (State.jobStart 0x45 q i State.evacuateRun) s

/-- RETIRE_MAP: the warden takes up descriptor `i` of queue `q` (R335). -/
def execRetireMap (q : Nat) (i : Nat) (s : State) : Host.Outcome State Fault Refusal := always (State.jobStart 0x46 q i State.retireRun) s

/-- BIST_RUN: the warden takes up descriptor `i` of queue `q` (R456). -/
def execBistRun (q : Nat) (i : Nat) (s : State) : Host.Outcome State Fault Refusal := always (State.jobStart 0x47 q i State.bistRunRun) s

/-- FW_STAGE: the warden takes up descriptor `i` of queue `q` (R453). -/
def execFwStage (q : Nat) (i : Nat) (s : State) : Host.Outcome State Fault Refusal := always (State.jobStart 0x48 q i State.fwStageRun) s

/-- BLAZE_DUMP: the warden takes up descriptor `i` of queue `q` (R476). -/
def execBlazeDump (q : Nat) (i : Nat) (s : State) : Host.Outcome State Fault Refusal := always (State.jobStart 0x49 q i State.dumpRun) s

/-- DEVICE_RESET: the warden takes up descriptor `i` of queue `q` (R471). -/
def execDeviceReset (q : Nat) (i : Nat) (s : State) : Host.Outcome State Fault Refusal := always (State.jobStart 0x4A q i State.deviceResetRun) s

/-- CAL_RUN: the warden takes up descriptor `i` of queue `q` (R365). -/
def execCalRun (q : Nat) (i : Nat) (s : State) : Host.Outcome State Fault Refusal := always (State.jobStart 0x4B q i State.calRunRun) s

/-- FUSE_PROGRAM: the warden takes up descriptor `i` of queue `q` (R429). -/
def execFuseProgram (q : Nat) (i : Nat) (s : State) : Host.Outcome State Fault Refusal := always (State.jobStart 0x4C q i State.fuseRun) s

/-- KEY_RETIRE_DRAIN (R263). -/
def execKeyRetireDrain (kid : Fin 4096) (s : State) : Host.Outcome State Fault Refusal := always (whenAwake (State.keyDrain kid)) s

/-- FLASH_OP_DONE (R454). -/
def execFlashOpDone (readback : List Byte) (s : State) : Host.Outcome State Fault Refusal := always (whenAwake (State.flashDone readback)) s

/-- FLASH_WIP_TIMEOUT (R453). -/
def execFlashWipTimeout (s : State) : Host.Outcome State Fault Refusal := always (whenAwake State.flashWip) s

/-- FUSE_WRITE (R428). -/
def execFuseWrite (e : FuseEntry) (s : State) : Host.Outcome State Fault Refusal := always (whenAwake (State.fuseStart 1 e)) s

/-- FUSE_SEAL (R428). -/
def execFuseSeal (e : FuseEntry) (s : State) : Host.Outcome State Fault Refusal := always (whenAwake (State.fuseStart 2 e)) s

/-- FUSE_LOCK (R428). -/
def execFuseLock (e : FuseEntry) (s : State) : Host.Outcome State Fault Refusal := always (whenAwake (State.fuseStart 3 e)) s

/-- FUSE_RLOCK (R428). -/
def execFuseRlock (e : FuseEntry) (s : State) : Host.Outcome State Fault Refusal := always (whenAwake (State.fuseStart 4 e)) s

/-- FUSE_PULSE_DONE (R427). -/
def execFusePulseDone (die : Die) (strong : Bool) (s : State) : Host.Outcome State Fault Refusal :=
  always (whenAwake (State.pulseDone die.ix strong)) s

/-- VPGM_CHANGE (R499): the pin's level, measured while the device runs. -/
def execVpgmChange (mv : Nat) (s : State) : Host.Outcome State Fault Refusal := 
  run (fun s => whenAwake State.vpgmRead { s with fuse.vpgm := mv % 4096 }) s

end Sys2Proof.Machine
end

