-- ==== Sys2Proof/Machine/Memory.lean ====
section
/-! DEFINITION. The meanings of the commands of admission, channels and DRAM (R151, R184 to R196, R290 to R322). -/

namespace Sys2Proof.Machine
open Sys2Proof

/-- MERGE_WAIT_EXPIRY (R151). -/
def execMergeWaitExpiry (dev : Fin 64) (line : Nat) (s : State) : Host.Outcome State Fault Refusal :=
  always (whenAwake (State.mergeExpiry dev line)) s

/-- HOLD_QUEUE_ADMIT (R184). -/
def execHoldQueueAdmit (sc : Fin 16) (s : State) : Host.Outcome State Fault Refusal := always (whenAwake (State.holdAdmit sc)) s

/-- ADMISSION_QUEUE_MOVE (R294). -/
def execAdmissionQueueMove (n : Fin 32) (s : State) : Host.Outcome State Fault Refusal := always (whenAwake (State.admitGo n)) s

/-- CHANNEL_PICK (R296). -/
def execChannelPick (pc : Fin 64) (column : Bool) (s : State) : Host.Outcome State Fault Refusal := always (whenAwake (State.chanPick pc column)) s

/-- LINE_READ_DONE (R144). -/
def execLineReadDone (id : Nat) (errors : List (Nat × Byte)) (s : State) : Host.Outcome State Fault Refusal :=
  always (whenAwake (State.burstDone id errors)) s

/-- REFRESH_DUE (R302). -/
def execRefreshDue (pc : Fin 64) (pos : Fin 48) (s : State) : Host.Outcome State Fault Refusal := run (State.refreshDue pc pos) s

/-- REFRESH_RATE_FALL (R300). -/
def execRefreshRateFall (n : Fin 32) (s : State) : Host.Outcome State Fault Refusal := run (whenAwake (State.refreshFall n)) s

/-- SELF_REFRESH_ENTRY (R304). -/
def execSelfRefreshEntry (n : Fin 32) (s : State) : Host.Outcome State Fault Refusal := run (State.srEntry n) s

/-- SELF_REFRESH_EXIT (R305). -/
def execSelfRefreshExit (n : Fin 32) (s : State) : Host.Outcome State Fault Refusal := run (State.srExit n) s

/-- SELF_REFRESH_EXIT_DONE (R305). -/
def execSelfRefreshExitDone (e : ExitObs) (s : State) : Host.Outcome State Fault Refusal := always (whenAwake (State.srExitDone e.chan e.train)) s

/-- PASR_INIT_DONE (R310). -/
def execPasrInitDone (n : Fin 32) (s : State) : Host.Outcome State Fault Refusal := always (whenAwake (State.pasrDone n)) s

/-- DRBG_RESEED (R314). -/
def execDrbgReseed (tier : Fin 4) (s : State) : Host.Outcome State Fault Refusal :=
  run (whenAwake (fun s => if (s.tier tier).built then s.reseed tier else s)) s

/-- RESEED: a write of TIERt.CMN.DRBG.RESEED (R322). -/
def execReseed (path : Path) (tier : Fin 4) (s : State) : Host.Outcome State Fault Refusal :=
  access (State.onPath path (State.writeParts path (Reg.CMN_DRBG tier) [(F.CMN_DRBG_RESEED, 1)])) s

/-- ENTROPY_HEALTH_FAIL (R315). -/
def execEntropyHealthFail (tier : Fin 4) (apt : Bool) (s : State) : Host.Outcome State Fault Refusal := run (whenAwake (State.entropyFail tier apt)) s

/-- ENTROPY_RETEST (R315). -/
def execEntropyRetest (tier : Fin 4) (pass : Bool) (s : State) : Host.Outcome State Fault Refusal := run (whenAwake (State.entropyRetest tier pass)) s

/-- PARITY_ALERT (R317). -/
def execParityAlert (pc : Fin 64) (group : Nat) (alert : AlertObs) (s : State) : Host.Outcome State Fault Refusal :=
  always (whenAwake (State.parityAlert pc group alert.failing alert.later)) s

/-- ESCALATION (R187). -/
def execEscalation (n : Fin 32) (c : Fin 4) (s : State) : Host.Outcome State Fault Refusal :=
  run (whenAwake (fun s => if s.reaches c n then s.relevel n else s)) s

/-- SATURATION_CLEAR (R191). -/
def execSaturationClear (n : Fin 32) (s : State) : Host.Outcome State Fault Refusal := run (whenAwake (State.satClear n)) s

/-- SVC_LIMIT_WRITE (R189). -/
def execSvcLimitWrite (path : Path) (c : Fin 16) (w : Word) (s : State) : Host.Outcome State Fault Refusal :=
  access (State.onPath path (State.writeWord path (Reg.SVC_LIMIT c) w)) s

/-- SVC_REACH_WRITE (R189). -/
def execSvcReachWrite (path : Path) (c : Fin 4) (w : Word) (s : State) : Host.Outcome State Fault Refusal :=
  access (State.onPath path (State.writeWord path (Reg.SVC_REACH c) w)) s

/-- PIN_WRITE (R196). -/
def execPinWrite (path : Path) (c : Fin 4) (w : Word) (s : State) : Host.Outcome State Fault Refusal :=
  access (State.onPath path (State.writeWord path (Reg.SVC_TARGET c) w)) s

end Sys2Proof.Machine
end

