-- ==== Sys2Proof/Machine/Messages.lean ====
section
/-! DEFINITION. The meanings of the messages of Ndouth Link and of its timers (R98 to R135). -/

namespace Sys2Proof.Machine
open Sys2Proof

/-- RD64 (R102). -/
def execRd64 (h : Hdr) (addr : BitVec 64) (s : State) : Host.Outcome State Fault Refusal :=
  always (State.arrive { op := .rd64, h := h, addr := addr.toNat } true State.requestIn) s

/-- RD128 (R102). -/
def execRd128 (h : Hdr) (addr : BitVec 64) (s : State) : Host.Outcome State Fault Refusal :=
  always (State.arrive { op := .rd128, h := h, addr := addr.toNat } true State.requestIn) s

/-- WR64 (R102, R151). -/
def execWr64 (h : Hdr) (addr : BitVec 64) (data : List Byte) (s : State) : Host.Outcome State Fault Refusal :=
  always (State.arrive { op := .wr64, h := h, addr := addr.toNat, data := data } (data.length == 64) State.requestIn) s

/-- WR128 (R102). -/
def execWr128 (h : Hdr) (addr : BitVec 64) (data : List Byte) (tag64 : BitVec 64) (s : State) : Host.Outcome State Fault Refusal :=
  always (State.arrive { op := .wr128, h := h, addr := addr.toNat, data := data, tag64 := tag64.toNat } (data.length == 128) State.requestIn) s

/-- FENCE (R108). -/
def execFence (h : Hdr) (addr : BitVec 64) (s : State) : Host.Outcome State Fault Refusal :=
  always (State.arrive { op := .fence, h := h, addr := addr.toNat } true (fun _ => State.mgrFence)) s

/-- HINT (R111, R205). -/
def execHint (h : Hdr) (group : Fin 1024) (s : State) : Host.Outcome State Fault Refusal :=
  always (State.arrive { op := .hint, h := h, words := [group] } true (fun _ => State.mgrHint)) s

/-- RDATA (R103). -/
def execRdata (h : Hdr) (addr : BitVec 64) (data : List Byte) (tag64 : BitVec 64) (s : State) : Host.Outcome State Fault Refusal :=
  always (State.arrive { op := .rdata, h := h, addr := addr.toNat, data := data, tag64 := tag64.toNat } (data.length == 32 * h.ndata)
    State.responseIn) s

/-- WDONE (R104). -/
def execWdone (h : Hdr) (addr : BitVec 64) (s : State) : Host.Outcome State Fault Refusal :=
  always (State.arrive { op := .wdone, h := h, addr := addr.toNat } true State.responseIn) s

/-- FDONE (R108). -/
def execFdone (fence : Nat) (s : State) : Host.Outcome State Fault Refusal := always (State.mgrFdone fence) s

/-- ERR (R103, R110). -/
def execErr (h : Hdr) (addr : BitVec 64) (status : Byte) (s : State) : Host.Outcome State Fault Refusal :=
  always (State.arrive { op := .err, h := h, addr := addr.toNat, status := status.toNat } true State.responseIn) s

/-- CRD (R116). -/
def execCrd (h : Hdr) (reg : BitVec 25) (count : Fin 4) (way : Option (BitVec 16)) (s : State) : Host.Outcome State Fault Refusal :=
  access (State.cfgIn { op := .crd, h := { h with flags := BitVec.ofNat 8 count }, addr := reg.toNat, way := way.map (·.toNat) } true) s

/-- CWR (R116). -/
def execCwr (h : Hdr) (reg : BitVec 25) (words : List Word) (way : Option (BitVec 16)) (s : State) : Host.Outcome State Fault Refusal :=
  access (State.cfgIn { op := .cwr, h := { h with flags := BitVec.ofNat 8 (words.length - 1) }, addr := reg.toNat, words := words.map (·.toNat),
                        way := way.map (·.toNat) } (decide (1 ≤ words.length) && decide (words.length ≤ 4))) s

/-- CRD_RSP (R116). -/
def execCrdRsp (h : Hdr) (reg : BitVec 25) (words : List Word) (status : Byte) (s : State) : Host.Outcome State Fault Refusal :=
  always (State.arrive { op := .crdRsp, h := h, addr := reg.toNat, words := words.map (·.toNat), status := status.toNat }
    (decide (words.length ≤ 4)) State.cfgRspIn) s

/-- CWR_RSP (R116). -/
def execCwrRsp (h : Hdr) (reg : BitVec 25) (status : Byte) (s : State) : Host.Outcome State Fault Refusal :=
  always (State.arrive { op := .cwrRsp, h := h, addr := reg.toNat, status := status.toNat } true State.cfgRspIn) s

/-- CFG_TIMEOUT (R116). -/
def execCfgTimeout (itag : Nat) (s : State) : Host.Outcome State Fault Refusal := always (State.cfgTimedOut itag) s

/-- REQ_TIMEOUT (R173). -/
def execReqTimeout (itag : Nat) (s : State) : Host.Outcome State Fault Refusal := always (State.mgrTimeout itag) s

/-- CREDIT (R119, R120). -/
def execCredit (p : Port) (headers : List Nat) (datas : List Nat) (s : State) : Host.Outcome State Fault Refusal :=
  local_ (fun s => s.creditIn (s.inPort p) headers datas) s

/-- SHARD (R241, R244). -/
def execShard (h : Hdr) (g : EngHdr) (tier : Fin 4) (phaseB : Bool) (relay : Bool) (desc : List Word) (s : State) :
    Host.Outcome State Fault Refusal :=
  always (State.arrive { op := .shard, h := h, eng := some g, words := [shardWord tier phaseB relay], data := ofWords (desc.map (·.toNat)) }
    (desc.length == 16) State.engArrive) s

/-- SHARD_DONE (R243, R244). -/
def execShardDone (h : Hdr) (g : EngHdr) (lines : Word) (firstFail : Word) (swaps : Word) (s : State) : Host.Outcome State Fault Refusal :=
  always (State.arrive { op := .shardDone, h := h, eng := some g, words := [lines.toNat, firstFail.toNat, swaps.toNat] } true State.engArrive) s

/-- PARTIAL (R243, R244). -/
def execPartialMsg (h : Hdr) (g : EngHdr) (last : Bool) (data : List Byte) (s : State) : Host.Outcome State Fault Refusal :=
  always (State.arrive { op := .part, h := h, eng := some g, words := [data.length, b2n last], data := data }
    (decide (data.length ≤ 32 * h.ndata)) State.engArrive) s

/-- ABORT (R220). -/
def execAbort (h : Hdr) (g : EngHdr) (s : State) : Host.Outcome State Fault Refusal :=
  always (State.arrive { op := .abort, h := h, eng := some g } true State.engArrive) s

/-- CENSUS (R132, R478). -/
def execCensus (p : Port) (number : Word) (tick : BitVec 48) (echo : Bool) (s : State) : Host.Outcome State Fault Refusal :=
  local_ (State.censusIn p number.toNat tick.toNat echo) s

/-- PWR ENTER (R386). -/
def execPwrEnter (p : Port) (code : Fin 8) (s : State) : Host.Outcome State Fault Refusal := local_ (State.pwrIn p 1 code) s

/-- PWR AWAKE (R386). -/
def execPwrAwake (p : Port) (code : Fin 8) (s : State) : Host.Outcome State Fault Refusal := local_ (State.pwrIn p 2 code) s

/-- NOTICE (R130). -/
def execNotice (p : Port) (n : Notice) (s : State) : Host.Outcome State Fault Refusal :=
  always (fun s => s.arrive { op := .ntc, h := { s.hdrTo 0 true .switch 0 0 0 0 with port := p, src := n.src }, ntc := some n } true State.noticeIn) s

/-- NTC_HOLD_EXPIRY (R130). -/
def execNtcHoldExpiry (ntype : Nat) (s : State) : Host.Outcome State Fault Refusal := local_ (whenAwake (State.ntcLeave ntype)) s

/-- NTC_BACKLOG (R134): a notice that has left its hold still waits for credit. -/
def execNtcBacklog (s : State) : Host.Outcome State Fault Refusal :=
  run (whenAwake (fun s =>
    if s.flt.notices.any (fun n => n.2.due) || (s.isManager && !s.flt.hostNtc.isEmpty) then s.cond Reg.NDL_STATUS F.NDL_STATUS_NTC_BACKLOG true else s)) s

/-- TAG_VERIFY_DONE (R113). -/
def execTagVerifyDone (itag : Nat) (s : State) : Host.Outcome State Fault Refusal := always (fun s => (s.mgrVerify itag).ingress) s

end Sys2Proof.Machine
end

