-- ==== Sys2Proof/Machine/Ports.lean ====
section
/-! DEFINITION. The meanings of the commands of the ports: training, retraining, traffic, eye scans (R65 to R97). -/

namespace Sys2Proof.Machine
open Sys2Proof

/-- An effect on a port of a device whose ports may be driven. -/
def onPort (f : State → State) (s : State) : Host.Outcome State Fault Refusal := local_ (whenAwake f) s

/-- A write to one field of LINK_x.CTL. -/
def State.linkField (path : Path) (p : Port) (f : Fld) (v : Nat) (s : State) : Option State :=
  s.onPath path (State.writeParts path (Reg.LINK_CTL p) [(f, v)])

/-- LINK_ENABLE: a write of LINK_x.CTL.ENABLE = 1 (R78, R95). -/
def execLinkEnable (path : Path) (p : Port) (s : State) : Host.Outcome State Fault Refusal := access (State.linkField path p F.LINK_CTL_ENABLE 1) s

/-- LINK_DISABLE: a write of LINK_x.CTL.ENABLE = 0 (R95). -/
def execLinkDisable (path : Path) (p : Port) (s : State) : Host.Outcome State Fault Refusal := access (State.linkField path p F.LINK_CTL_ENABLE 0) s

/-- HUNT_TIMEOUT (R78). -/
def execHuntTimeout (p : Port) (s : State) : Host.Outcome State Fault Refusal := onPort (State.huntTimeout p) s

/-- LANE_LOCK (R79). -/
def execLaneLock (p : Port) (lane : Fin 8) (peer : Fin 8) (inverted : Bool) (s : State) : Host.Outcome State Fault Refusal :=
  onPort (State.laneLock p lane peer inverted) s

/-- LANE_LOCK_LOSS (R80). -/
def execLaneLockLoss (p : Port) (lane : Fin 8) (s : State) : Host.Outcome State Fault Refusal := onPort (State.laneLoss p lane) s

/-- CAP_BLOCK (R81, R82). -/
def execCapBlock (p : Port) (block : List Byte) (s : State) : Host.Outcome State Fault Refusal := onPort (State.capBlock p block) s

/-- CAP_EXCHANGE_DONE (R81). -/
def execCapExchangeDone (p : Port) (s : State) : Host.Outcome State Fault Refusal := always (whenAwake (State.capDone p)) s

/-- CAP_TIMEOUT (R81). -/
def execCapTimeout (p : Port) (s : State) : Host.Outcome State Fault Refusal := onPort (State.capTimeout p) s

/-- DOWN_ENTRY (R506). -/
def execDownEntry (p : Port) (s : State) : Host.Outcome State Fault Refusal := onPort (State.downEntry p) s

/-- DOWN_RETRY (R506). -/
def execDownRetry (p : Port) (s : State) : Host.Outcome State Fault Refusal := onPort (State.downRetry p) s

/-- STEP_FRAMES_DONE (R85). -/
def execStepFramesDone (p : Port) (s : State) : Host.Outcome State Fault Refusal := onPort (State.stepSilent p) s

/-- STEP_SILENCE_END (R85). -/
def execStepSilenceEnd (p : Port) (s : State) : Host.Outcome State Fault Refusal := onPort (State.stepHunt p) s

/-- STEP_UP_FAIL (R86). -/
def execStepUpFail (p : Port) (s : State) : Host.Outcome State Fault Refusal := onPort (State.stepFail p) s

/-- LOSS_OF_SIGNAL (R80). -/
def execLossOfSignal (p : Port) (s : State) : Host.Outcome State Fault Refusal := onPort (State.lossOfSignal p) s

/-- CLOCK_LANE_SILENT (R80). -/
def execClockLaneSilent (p : Port) (s : State) : Host.Outcome State Fault Refusal := onPort (State.clockSilent p) s

/-- TRAIN_BLOCK: the partner retrains, and the port retrains too (R80). -/
def execTrainBlock (p : Port) (s : State) : Host.Outcome State Fault Refusal :=
  onPort (fun s => if (s.port p).tstate = .cap ∨ (s.port p).tstate = .step ∨ (s.port p).tstate = .active then s.relock p else s) s

/-- RETRAIN: a write of LINK_x.CTL.RETRAIN (R95). -/
def execRetrain (path : Path) (p : Port) (s : State) : Host.Outcome State Fault Refusal := access (State.linkField path p F.LINK_CTL_RETRAIN 1) s

/-- STEP_UP: a write of LINK_x.CTL.STEP_UP (R86). -/
def execStepUp (path : Path) (p : Port) (s : State) : Host.Outcome State Fault Refusal := access (State.linkField path p F.LINK_CTL_STEP_UP 1) s

/-- PRBS_ENTER: a write of MODE = 0b01, which waits for the row boundary (R94, R54). -/
def execPrbsEnter (path : Path) (p : Port) (s : State) : Host.Outcome State Fault Refusal := access (State.linkField path p F.LINK_CTL_MODE 1) s

/-- PRBS_EXIT: a write of MODE = 0b00, which waits for the row boundary (R94, R54). -/
def execPrbsExit (path : Path) (p : Port) (s : State) : Host.Outcome State Fault Refusal := access (State.linkField path p F.LINK_CTL_MODE 0) s

/-- PRBS_CLEAR: a write of LINK_x.PRBS_CTL.CLR (R95). -/
def execPrbsClear (path : Path) (p : Port) (s : State) : Host.Outcome State Fault Refusal :=
  access (State.onPath path (State.writeParts path (Reg.LINK_PRBS_CTL p) [(F.LINK_PRBS_CTL_CLR, 1)])) s

/-- EYE_SCAN_START: a write of LINK_x.EYE_CTL with START (R92). -/
def execEyeScanStart (path : Path) (p : Port) (w : Word) (s : State) : Host.Outcome State Fault Refusal :=
  access (State.onPath path (State.writeWord path (Reg.LINK_EYE_CTL p) (F.LINK_EYE_CTL_START.set 1 w))) s

/-- A scan ends; one of a BIST_RUN is judged by its lowest MARGIN (R456). -/
def State.scanDone (p : Port) (obs : List EyeObs) (s : State) : State :=
  let sc := (s.port p).scan
  let s := s.eyeDone p obs
  match sc with
  | some x => if x.bist then s.bistLane (8 * portNo p + x.lane) (s.fld (Reg.LINK_EYE_RES p 3) F.LINK_EYE_RES_MARGIN) else s
  | none => s

/-- EYE_SCAN_DONE (R92). -/
def execEyeScanDone (p : Port) (obs : List EyeObs) (s : State) : Host.Outcome State Fault Refusal := always (whenAwake (State.scanDone p obs)) s

/-- ROW_RECEIVED (R87). -/
def execRowReceived (p : Port) (frames : List (Nat × List Nat)) (s : State) : Host.Outcome State Fault Refusal := onPort (State.rowIn p frames) s

/-- ACK_DUE (R87). -/
def execAckDue (p : Port) (s : State) : Host.Outcome State Fault Refusal := onPort (fun s => s.ackOut (s.inPort p)) s

/-- NAK_REPEAT (R88). -/
def execNakRepeat (p : Port) (s : State) : Host.Outcome State Fault Refusal := onPort (fun s => s.nakAgain (s.inPort p)) s

/-- ACK (R87). -/
def execAck (p : Port) (seq : Fin 4096) (s : State) : Host.Outcome State Fault Refusal := onPort (fun s => s.ackIn (s.inPort p) seq) s

/-- NAK (R88). -/
def execNak (p : Port) (seq : Fin 4096) (s : State) : Host.Outcome State Fault Refusal := onPort (fun s => s.nakIn (s.inPort p) seq) s

/-- REPLAY (R88). -/
def execReplay (p : Port) (seq : Fin 4096) (s : State) : Host.Outcome State Fault Refusal := onPort (fun s => s.replayIn (s.inPort p) seq) s

/-- QUIET (R74). -/
def execQuiet (p : Port) (s : State) : Host.Outcome State Fault Refusal := onPort (State.quietIn p) s

/-- SQUELCH_EDGE: an edge on a port in QUIET (R389). -/
def execSquelchEdge (p : Port) (s : State) : Host.Outcome State Fault Refusal :=
  onPort (State.squelch p) s

/-- WAKE_RETRY (R390). -/
def execWakeRetry (p : Port) (s : State) : Host.Outcome State Fault Refusal := onPort (State.wakeRetry p) s

/-- WAKE_GAP_END (R390). -/
def execWakeGapEnd (p : Port) (s : State) : Host.Outcome State Fault Refusal := onPort (State.wakeGapEnd p) s

end Sys2Proof.Machine
end

