-- ==== Sys2Proof/Machine/PowerStates.lean ====
section
/-! DEFINITION. The meanings of the commands of power states, power cap, temperatures and wear (R382 to R416). -/

namespace Sys2Proof.Machine
open Sys2Proof

/-- A write of PWR.CMD with GO and a state. -/
def State.pwrWrite (path : Path) (k : Nat) (s : State) : Option State :=
  s.onPath path (State.writeParts path Reg.PWR_CMD [(F.PWR_CMD_GO, 1), (F.PWR_CMD_STATE, k)])

/-- PWR_CMD_RUN (R384, R385). -/
def execPwrCmdRun (path : Path) (s : State) : Host.Outcome State Fault Refusal := access (State.pwrWrite path 0) s

/-- PWR_CMD_IDLE (R384, R385). -/
def execPwrCmdIdle (path : Path) (s : State) : Host.Outcome State Fault Refusal := access (State.pwrWrite path 1) s

/-- PWR_CMD_SLEEP (R384, R385). -/
def execPwrCmdSleep (path : Path) (s : State) : Host.Outcome State Fault Refusal := access (State.pwrWrite path 2) s

/-- PWR_CMD_DEEP (R384, R385). -/
def execPwrCmdDeep (path : Path) (s : State) : Host.Outcome State Fault Refusal := access (State.pwrWrite path 3) s

/-- PWR_CMD_OFF (R384, R385). -/
def execPwrCmdOff (path : Path) (s : State) : Host.Outcome State Fault Refusal := access (State.pwrWrite path 4) s

/-- POWER_ENTRY_START (R385). -/
def execPowerEntryStart (s : State) : Host.Outcome State Fault Refusal := always State.entryStart s

/-- POWER_ENTRY_DONE (R385). -/
def execPowerEntryDone (s : State) : Host.Outcome State Fault Refusal := always State.entryDone s

/-- WAKE_N (R387). -/
def execWakeN (s : State) : Host.Outcome State Fault Refusal := always State.wakeN s

/-- POWER_EXIT_DONE (R383). -/
def execPowerExitDone (s : State) : Host.Outcome State Fault Refusal := access State.exitServe s

/-- CAP_WINDOW (R392). -/
def execCapWindow (pin10mw : Nat) (vin10mv : Nat) (s : State) : Host.Outcome State Fault Refusal := run (State.capWindow pin10mw vin10mv) s

/-- CAP_RELAX_EXPIRY (R392). -/
def execCapRelaxExpiry (s : State) : Host.Outcome State Fault Refusal := run (whenAwake State.capRelax) s

/-- SENSOR_READING (R396). -/
def execSensorReading (i : Fin 72) (reading : Option Int) (s : State) : Host.Outcome State Fault Refusal := always (State.reading i reading) s

/-- STAGE_DWELL_EXPIRY (R404). -/
def execStageDwellExpiry (tier : Fin 4) (s : State) : Host.Outcome State Fault Refusal := always (State.stageFall tier) s

/-- SUBST_HOLD_EXPIRY (R401). -/
def execSubstHoldExpiry (tier : Fin 4) (s : State) : Host.Outcome State Fault Refusal := always (whenAwake (State.holdEnd tier)) s

/-- LEDGER_SAMPLE (R410, R411). -/
def execLedgerSample (s : State) : Host.Outcome State Fault Refusal := run State.ledgerSample s

end Sys2Proof.Machine
end

