-- ==== Sys2Proof/Machine/Queues.lean ====
section
/-! DEFINITION. The meanings of the commands of queues and descriptors (R204 to R220). -/

namespace Sys2Proof.Machine
open Sys2Proof

/-- POLL (R204). -/
def execPoll (s : State) : Host.Outcome State Fault Refusal := always State.pollTick s

/-- FETCH_TURN (R206). -/
def execFetchTurn (s : State) : Host.Outcome State Fault Refusal := always (fun s => if s.isManager && s.running then s.fetchTurn else s) s

/-- A write of QCTX.CMD. -/
def State.ctxCmd (path : Path) (op : Nat) (tag : Byte) (s : State) : Option State :=
  s.onPath path (State.writeParts path Reg.QCTX_CMD [(F.QCTX_CMD_OP, op), (F.QCTX_CMD_TAG, tag.toNat)])

/-- QCTX_READ (R220). -/
def execQctxRead (path : Path) (tag : Byte) (s : State) : Host.Outcome State Fault Refusal := access (State.ctxCmd path 1 tag) s

/-- QCTX_WRITE (R220). -/
def execQctxWrite (path : Path) (tag : Byte) (s : State) : Host.Outcome State Fault Refusal := access (State.ctxCmd path 2 tag) s

/-- QCTX_ENABLE (R220). -/
def execQctxEnable (path : Path) (tag : Byte) (s : State) : Host.Outcome State Fault Refusal := access (State.ctxCmd path 3 tag) s

/-- QCTX_DRAIN (R220). -/
def execQctxDrain (path : Path) (tag : Byte) (s : State) : Host.Outcome State Fault Refusal := access (State.ctxCmd path 4 tag) s

/-- QCTX_DISABLE (R220). -/
def execQctxDisable (path : Path) (tag : Byte) (s : State) : Host.Outcome State Fault Refusal := access (State.ctxCmd path 5 tag) s

/-- QCTX_CMD_DONE: BUSY clears (R220). -/
def execQctxCmdDone (s : State) : Host.Outcome State Fault Refusal := always (whenAwake (fun s => if s.isManager then s.qctxDone else s)) s

/-- RECORD_HOLD_EXPIRY (R217). -/
def execRecordHoldExpiry (cq : Nat) (s : State) : Host.Outcome State Fault Refusal := always (whenAwake (State.recWrite cq)) s

end Sys2Proof.Machine
end

