-- ==== Sys2Proof/Machine/Registers.lean ====
section
/-! DEFINITION. The meanings of register accesses, mailboxes, I3C transfers, apply points and the test accesses (R40 to R59, R285,
R286). -/

namespace Sys2Proof.Machine
open Sys2Proof

/-- DEVNUM_WRITE (R60). -/
def execDevnumWrite (path : Path) (w : Word) (s : State) : Host.Outcome State Fault Refusal :=
  access (State.onPath path (State.writeWord path Reg.IDENT_DEVNUM w)) s

/-- REGISTER_WRITE (R54). -/
def execRegisterWrite (path : Path) (addr : Nat) (w : Word) (s : State) : Host.Outcome State Fault Refusal :=
  access (State.onPath path (State.writeWord path addr w)) s

/-- ALIAS_WRITE (R48). -/
def execAliasWrite (path : Path) (addr : Nat) (w : Word) (s : State) : Host.Outcome State Fault Refusal :=
  access (State.onPath path (State.writeWord path addr w)) s

/-- STATUS_WRITE (R51). -/
def execStatusWrite (path : Path) (addr : Nat) (w : Word) (s : State) : Host.Outcome State Fault Refusal :=
  access (State.onPath path (State.writeWord path addr w)) s

/-- APPLY_POINT (R54). -/
def execApplyPoint (unit : ApplyUnit) (s : State) : Host.Outcome State Fault Refusal := always (State.applyUnit unit) s

/-- I3C_PRIVATE_WRITE (R43). -/
def execI3cPrivateWrite (bytes : List Byte) (s : State) : Host.Outcome State Fault Refusal :=
  access (State.onPath .i3c (fun s =>
    if bytes.length = 8 then s.writeWord .i3c (ofBe (bytes.take 4)) (BitVec.ofNat 32 (ofBe (bytes.drop 4))) else some s)) s

/-- A private read of a register: four bytes, and 0xFF for what a controller reads beyond them (R43). -/
def State.i3cRead (bytes : List Byte) (count : Nat) (s : State) : State :=
  if bytes.length = 4 ∧ 4 ≤ count then
    let (s, w) := s.readWord .i3c (ofBe bytes)
    { s with id.i3cOut := beBytes 4 w.toNat ++ List.replicate (count - 4) 0xFF }
  else s

/-- I3C_PRIVATE_READ (R43). -/
def execI3cPrivateRead (bytes : List Byte) (count : Nat) (s : State) : Host.Outcome State Fault Refusal :=
  always (fun s => match s.pathOpen .i3c with | (s, true) => s.i3cRead bytes count | (s, false) => s) s

/-- R43: the static address. -/
def State.i3cStatic (s : State) : Nat := if s.id.slot = 30 then 0x60 else if s.id.slot = 62 then 0x61 else 0x20 + s.id.slot

/-- SETDASA (R43). -/
def execSetdasa (static : BitVec 7) (dynamic : BitVec 7) (s : State) : Host.Outcome State Fault Refusal :=
  local_ (fun s =>
    if static.toNat = s.i3cStatic then
      match s.pathOpen .i3c with | (s, true) => { s with id.i3cDyn := some dynamic } | (s, false) => s
    else s) s

/-- ENTDAA: a device without a dynamic address takes one (R43). -/
def execEntdaa (dynamic : BitVec 7) (s : State) : Host.Outcome State Fault Refusal :=
  local_ (fun s =>
    if s.id.i3cDyn.isNone ∧ s.powered ∧ s.power.pstate < 2 then { s with id.i3cDyn := some dynamic } else s) s

/-- MBX_READ: a write of MBX.CTL with REQ = 1 and DIR = 0 (R58). -/
def execMbxRead (path : Path) (tag : Byte) (s : State) : Host.Outcome State Fault Refusal :=
  access (State.onPath path (State.writeParts path Reg.MBX_CTL [(F.MBX_CTL_TAG, tag.toNat), (F.MBX_CTL_DIR, 0), (F.MBX_CTL_REQ, 1)])) s

/-- MBX_WRITE: a write of MBX.CTL with REQ = 1 and DIR = 1 (R58). -/
def execMbxWrite (path : Path) (tag : Byte) (s : State) : Host.Outcome State Fault Refusal :=
  access (State.onPath path (State.writeParts path Reg.MBX_CTL [(F.MBX_CTL_TAG, tag.toNat), (F.MBX_CTL_DIR, 1), (F.MBX_CTL_REQ, 1)])) s

/-- MBX_TRANSFER_DONE (R58). -/
def execMbxTransferDone (path : Path) (s : State) : Host.Outcome State Fault Refusal := run (State.mbxDone path) s

/-- MAP_INIT_DONE (R270). -/
def execMapInitDone (s : State) : Host.Outcome State Fault Refusal := always (whenAwake State.mapInitDone) s

/-- The data of an access that R285 refuses. -/
def refusedBytes : List Byte := (List.replicate 32 (leBytes 4 0x5A5AA5A5)).flatten

/-- JTAG_MEMORY_ACCESS: raw access exists in a device strapped 0b11 once its memory has been written (R285, R286). -/
def execJtagMemoryAccess (line : Nat) (data : Option (List Byte)) (s : State) : Host.Outcome State Fault Refusal :=
  run (fun s =>
    if s.isTest && s.awake && s.power.memTested && decide (line < Config.userLines) then
      let no := s.debugRefused line
      let s := when no (State.debugRecord line 0) s
      match data with
      | some d => if no then s else s.debugWrite line ((d ++ zeros 128).take 128)
      | none => { s with prot.jtagOut := if no then refusedBytes else (s.lineNow (s.linePlace line)).1 }
    else s) s

/-- Fills TESTWIN.DATA. -/
def State.testData (d : List Byte) (s : State) : State :=
  forEach (toWords 32 d).zipIdx (fun w s => s.setReg (Reg.TESTWIN_DATA w.2) (BitVec.ofNat 32 w.1)) s

/-- R286, R144: the decode of a line into the window; an uncorrectable line reads as zero data. -/
def State.testRead (l : Nat) (errors : List (Nat × Byte)) (s : State) : State :=
  let p := s.linePlace l
  let x := s.lineNow p
  match s.decode p errors x.1 x.2 with
  | (s, none) => (s.uncorrectable p 1 14 errors).testData (zeros 128)
  | (s, some (d, md, _)) => (when (mdPoison md) (State.poisonRead p) s).testData d

/-- A test-window access ends (R285, R286). -/
def State.testDone (errors : List (Nat × Byte)) (s : State) : State :=
  match s.prot.win with
  | none => s
  | some wr =>
    let s := { s with prot.win := none }
    let l := s.fld Reg.TESTWIN_LINE F.TESTWIN_LINE_LINE
    let mark (b : Bool) (s : State) : State := s.setFld Reg.TESTWIN_CTL F.TESTWIN_CTL_REFUSED (b2n b)
    if Config.userLines ≤ l then
      let s := mark false s
      if wr then s else forEach (List.range 32) (fun k s => s.setReg (Reg.TESTWIN_DATA k) (BitVec.ofNat 32 (Config.outsideLine l k))) s
    else if s.debugRefused l then
      let s := mark true (s.debugRecord l 1)
      if wr then s else s.testData refusedBytes
    else if wr then
      (mark false s).debugWrite l ((List.range 32).flatMap (fun k => leBytes 4 (s.reg (Reg.TESTWIN_DATA k)).toNat))
    else (mark false s).testRead l errors

/-- TESTWIN_READ: a write of TESTWIN.CTL.READ (R286). -/
def execTestwinRead (path : Path) (s : State) : Host.Outcome State Fault Refusal :=
  access (State.onPath path (State.writeParts path Reg.TESTWIN_CTL [(F.TESTWIN_CTL_READ, 1)])) s

/-- TESTWIN_WRITE: a write of TESTWIN.CTL.WRITE (R286). -/
def execTestwinWrite (path : Path) (s : State) : Host.Outcome State Fault Refusal :=
  access (State.onPath path (State.writeParts path Reg.TESTWIN_CTL [(F.TESTWIN_CTL_WRITE, 1)])) s

/-- TESTWIN_ACCESS_DONE (R286). -/
def execTestwinAccessDone (errors : List (Nat × Byte)) (s : State) : Host.Outcome State Fault Refusal :=
  run (whenAwake (State.testDone errors)) s

end Sys2Proof.Machine
end

