-- ==== Sys2Proof/Machine/Repair.lean ====
section
/-! DEFINITION. The meanings of the commands of error correction, scrubbing, repair, crossings and tiers (R161, R326 to R347, R357 to
R371). -/

namespace Sys2Proof.Machine
open Sys2Proof

/-- COPY_DONE: a copy whose last line is copied ends, and its entry takes full effect (R161). -/
def execCopyDone (job : Nat) (s : State) : Host.Outcome State Fault Refusal :=
  always (whenAwake (fun s =>
    match AMap.find job s.pool.jobs with
    | some c => if c.total ≤ c.next then s.copyEffect job else s
    | none => s)) s

/-- CE_LEAK (R326). -/
def execCeLeak (s : State) : Host.Outcome State Fault Refusal := run (whenAwake State.ceLeak) s

/-- RANGER_VISIT (R329). -/
def execRangerVisit (n : Fin 32) (errors : List (Nat × Byte)) (verify : List (Nat × Byte)) (s : State) : Host.Outcome State Fault Refusal :=
  always (whenAwake (State.rangerVisit n errors verify)) s

/-- RANGER_LATE (R330). -/
def execRangerLate (n : Fin 32) (s : State) : Host.Outcome State Fault Refusal := run (whenAwake (State.rangerLate n)) s

/-- PIN_TEST_DONE (R332). -/
def execPinTestDone (t : PinTest) (s : State) : Host.Outcome State Fault Refusal :=
  always (whenAwake (State.pinTest t.tier t.group t.position t.pc t.pass)) s

/-- HALF_WIDTH_RESUME (R346). -/
def execHalfWidthResume (n : Fin 32) (s : State) : Host.Outcome State Fault Refusal := always (whenAwake (State.halfResume n)) s

/-- CAL_MEASURE_DONE (R320, R363). -/
def execCalMeasureDone (tier : Fin 4) (obs : CalObs) (s : State) : Host.Outcome State Fault Refusal :=
  always (State.calMeasured tier obs.margins obs.train) s

/-- CAL_GAP_EXPIRY (R364). -/
def execCalGapExpiry (tier : Fin 4) (s : State) : Host.Outcome State Fault Refusal := run (State.calGap tier) s

/-- QUIET_WINDOW (R366). -/
def execQuietWindow (tier : Fin 4) (reverted : List Nat) (s : State) : Host.Outcome State Fault Refusal := always (State.quietWindow tier reverted) s

/-- BACKGROUND_MEASUREMENT (R363). -/
def execBackgroundMeasurement (tier : Fin 4) (m : GroupMargin) (s : State) : Host.Outcome State Fault Refusal := run (State.background tier m) s

/-- HEARTBEAT_LOSS (R367 to R369). -/
def execHeartbeatLoss (tier : Fin 4) (aborted : List Nat) (s : State) : Host.Outcome State Fault Refusal := always (State.heartbeatLoss tier aborted) s

/-- TIER_REJOIN (R370). -/
def execTierRejoin (back : RejoinObs) (s : State) : Host.Outcome State Fault Refusal :=
  always (State.tierRejoin back.tier back.cal.margins back.cal.train) s

/-- JOURNAL_CLR: a write of CLK.JOURNAL.CLR (R371). -/
def execJournalClr (path : Path) (s : State) : Host.Outcome State Fault Refusal :=
  access (State.onPath path (State.writeParts path Reg.CLK_JOURNAL [(F.CLK_JOURNAL_CLR, 1)])) s

end Sys2Proof.Machine
end

