-- ==== Sys2Proof/Machine/Startup.lean ====
section
/-! DEFINITION. The meanings of the commands of power supply, reset, start-up and firmware (R375 to R380, R421, R433 to R459). -/

namespace Sys2Proof.Machine
open Sys2Proof

/-- VIN_VALID (R375). -/
def execVinValid (role : Fin 4) (slot : Fin 64) (s : State) : Host.Outcome State Fault Refusal := run (State.vinValid role slot) s

/-- VIN_LOSS (R375). -/
def execVinLoss (s : State) : Host.Outcome State Fault Refusal := run State.vinLoss s

/-- VIN_RANGE (R376). -/
def execVinRange (mv10 : Nat) (s : State) : Host.Outcome State Fault Refusal := run (State.vinRange mv10) s

/-- VIN_IN_RANGE (R376). -/
def execVinInRange (s : State) : Host.Outcome State Fault Refusal := run State.vinInRange s

/-- RESET_N_LOW (R493). -/
def execResetNLow (s : State) : Host.Outcome State Fault Refusal := run State.resetLow s

/-- RESET_RELEASE (R492). -/
def execResetRelease (role : Fin 4) (slot : Fin 64) (s : State) : Host.Outcome State Fault Refusal := run (State.resetRelease role slot) s

/-- START_SLOT_EXPIRY (R380). -/
def execStartSlotExpiry (s : State) : Host.Outcome State Fault Refusal := run State.startSlot s

/-- RAIL_FAULT (R378). -/
def execRailFault (rail : Fin 6) (s : State) : Host.Outcome State Fault Refusal := run (State.railFault rail) s

/-- PLL_LOCK: the PLL of a device that starts or leaves DEEP locks (R358). -/
def execPllLock (s : State) : Host.Outcome State Fault Refusal :=
  run (fun s => if s.power.phase = .starting then ({ s with power.pll := true }).pllFlags
    else if s.running && s.power.transit && s.power.pstate == 3 && !s.power.pll then s.deepLock else s) s

/-- REFCLK_WINDOW: a window of LOSC is judged while the device runs on REFCLK (R357). -/
def execRefclkWindow (edges : Nat) (s : State) : Host.Outcome State Fault Refusal :=
  run (fun s => if s.awake && s.power.pll && badWindow edges then s.clockFault 0 else s) s

/-- PLL_UNLOCK (R357). -/
def execPllUnlock (s : State) : Host.Outcome State Fault Refusal :=
  run (fun s => if s.awake && s.power.pll then s.clockFault 1 else s) s

/-- FUSE_SENSE_DONE (R421). -/
def execFuseSenseDone (die : Die) (drift : List (Nat × Cell)) (s : State) : Host.Outcome State Fault Refusal := run (State.senseDie die.ix drift) s

/-- SELF_TEST_ITEM_DONE (R438, R440). -/
def execSelfTestItemDone (item : Fin 12) (r : TestResult) (s : State) : Host.Outcome State Fault Refusal := local_ (State.itemDone item r) s

/-- MEMORY_SELF_TEST_DONE: of the start, or of a BIST_RUN (R439, R456). -/
def execMemorySelfTestDone (tier : Fin 4) (found : List MarchFinding) (s : State) : Host.Outcome State Fault Refusal :=
  always (fun s => if s.running then s.bistMem tier found else s.memTested tier found) s

/-- START_DONE (R435). -/
def execStartDone (s : State) : Host.Outcome State Fault Refusal := local_ State.startDone s

/-- IMAGE_HEADER_CHECK (R443). -/
def execImageHeaderCheck (sfdp : Bool) (density : Nat) (header : List Byte) (s : State) : Host.Outcome State Fault Refusal :=
  run (State.imageHeader sfdp density header) s

/-- COMPONENT_READ_DONE (R443). -/
def execComponentReadDone (k : Fin 16) (data : List Byte) (s : State) : Host.Outcome State Fault Refusal := run (State.componentRead k data) s

/-- RELAY_WAIT_EXPIRY (R27). -/
def execRelayWaitExpiry (s : State) : Host.Outcome State Fault Refusal := local_ State.relayWait s

/-- LOAD_START: a write of BOOT.LOAD_CTL.START (R446). -/
def execLoadStart (path : Path) (len : Fin 33554432) (s : State) : Host.Outcome State Fault Refusal :=
  access (State.onPath path (State.writeParts path Reg.BOOT_LOAD_CTL [(F.BOOT_LOAD_CTL_START, 1), (F.BOOT_LOAD_CTL_LEN, len)])) s

/-- LOAD_WIN: the words of a write to BOOT.LOAD_WIN (R448). -/
def execLoadWin (path : Path) (words : List Word) (s : State) : Host.Outcome State Fault Refusal :=
  access (State.onPath path (State.writeWords path (Reg.BOOT_LOAD_WIN 0) (words.take 4))) s

/-- LOAD_END: a write of BOOT.LOAD_CTL.END (R446). -/
def execLoadEnd (path : Path) (s : State) : Host.Outcome State Fault Refusal :=
  access (State.onPath path (State.writeParts path Reg.BOOT_LOAD_CTL [(F.BOOT_LOAD_CTL_END, 1)])) s

/-- LOAD_CHECK_DONE: at the manager the outcome of device `n`; at a device the end of its own checks (R446, R449). -/
def execLoadCheckDone (n : Fin 64) (code : Byte) (s : State) : Host.Outcome State Fault Refusal :=
  always (fun s => if s.isManager then (if s.running then s.loadOutcome n code.toNat else s) else s.loadChecked) s

/-- REBOOT: a write of BOOT.CTL.REBOOT (R450). -/
def execReboot (path : Path) (s : State) : Host.Outcome State Fault Refusal :=
  access (State.onPath path (State.writeParts path Reg.BOOT_CTL [(F.BOOT_CTL_REBOOT, 1)])) s

/-- OWNER_LOCK: a write of BOOT.CTL.OWNER_LOCK (R455). -/
def execOwnerLock (path : Path) (s : State) : Host.Outcome State Fault Refusal :=
  access (State.onPath path (State.writeParts path Reg.BOOT_CTL [(F.BOOT_CTL_OWNER_LOCK, 1)])) s

/-- RELEASE: a write of BOOT.CTL.RELEASE (R457). -/
def execRelease (path : Path) (mask : Fin 16) (s : State) : Host.Outcome State Fault Refusal :=
  access (State.onPath path (State.writeParts path Reg.BOOT_CTL [(F.BOOT_CTL_RELEASE, mask)])) s

/-- RESET_DELAY_EXPIRY (R471). -/
def execResetDelayExpiry (s : State) : Host.Outcome State Fault Refusal := run State.resetDelay s

end Sys2Proof.Machine
end

