-- ==== Sys2Proof/Machine/Topology.lean ====
section
/-! DEFINITION. The meanings of the commands of enumeration, re-survey and plan (R18 to R25, R63). -/

namespace Sys2Proof.Machine
open Sys2Proof

/-- ENUMERATION_WALK (R18). -/
def execEnumerationWalk (walk : WalkRec) (s : State) : Host.Outcome State Fault Refusal := always (State.enumWalk walk) s

/-- ENUM_SETTLE_EXPIRY (R18). -/
def execEnumSettleExpiry (s : State) : Host.Outcome State Fault Refusal := always State.enumSettle s

/-- RESURVEY (R23). -/
def execResurvey (s : State) : Host.Outcome State Fault Refusal := run State.resurvey s

/-- TOPOLOGY_TABLE_UPDATE (R23, R24). -/
def execTopologyTableUpdate (walk : WalkRec) (s : State) : Host.Outcome State Fault Refusal := always (State.tableUpdate walk) s

/-- RETURNING (R25). -/
def execReturning (n : Fin 64) (serial : BitVec 64) (s : State) : Host.Outcome State Fault Refusal := always (State.returning n serial.toNat) s

/-- PLAN_COMMIT: a write of TOPO.PLAN_CTL.COMMIT (R63). -/
def execPlanCommit (path : Path) (s : State) : Host.Outcome State Fault Refusal :=
  access (State.onPath path (State.writeParts path Reg.TOPO_PLAN_CTL [(F.TOPO_PLAN_CTL_COMMIT, 1)])) s

end Sys2Proof.Machine
end

