-- ==== Sys2Proof/Machine/Dispatch.lean ====
section
/-! DEFINITION. The dispatch: one arm for each command, each a direct call of that command's meaning. -/

namespace Sys2Proof.Machine
open Sys2Proof

/-- The effect of a command on everything but the queue. -/
def exec (i : Instr) (s : State) : Host.Outcome State Fault Refusal :=
  match i with
  | .vinValid role slot => Sys2Proof.Machine.execVinValid role slot s
  | .vinLoss => Sys2Proof.Machine.execVinLoss s
  | .vinRange mv10 => Sys2Proof.Machine.execVinRange mv10 s
  | .resetNLow => Sys2Proof.Machine.execResetNLow s
  | .resetRelease role slot => Sys2Proof.Machine.execResetRelease role slot s
  | .startSlotExpiry => Sys2Proof.Machine.execStartSlotExpiry s
  | .railFault rail => Sys2Proof.Machine.execRailFault rail s
  | .pllLock => Sys2Proof.Machine.execPllLock s
  | .refclkWindow edges => Sys2Proof.Machine.execRefclkWindow edges s
  | .pllUnlock => Sys2Proof.Machine.execPllUnlock s
  | .fuseSenseDone die drift => Sys2Proof.Machine.execFuseSenseDone die drift s
  | .selfTestItemDone item r => Sys2Proof.Machine.execSelfTestItemDone item r s
  | .memorySelfTestDone tier found => Sys2Proof.Machine.execMemorySelfTestDone tier found s
  | .startDone => Sys2Proof.Machine.execStartDone s
  | .imageHeaderCheck sfdp density header => Sys2Proof.Machine.execImageHeaderCheck sfdp density header s
  | .componentReadDone k data => Sys2Proof.Machine.execComponentReadDone k data s
  | .relayWaitExpiry => Sys2Proof.Machine.execRelayWaitExpiry s
  | .enumerationWalk walk => Sys2Proof.Machine.execEnumerationWalk walk s
  | .enumSettleExpiry => Sys2Proof.Machine.execEnumSettleExpiry s
  | .resurvey => Sys2Proof.Machine.execResurvey s
  | .topologyTableUpdate walk => Sys2Proof.Machine.execTopologyTableUpdate walk s
  | .returning n serial => Sys2Proof.Machine.execReturning n serial s
  | .planCommit path => Sys2Proof.Machine.execPlanCommit path s
  | .devnumWrite path w => Sys2Proof.Machine.execDevnumWrite path w s
  | .registerWrite path addr w => Sys2Proof.Machine.execRegisterWrite path addr w s
  | .aliasWrite path addr w => Sys2Proof.Machine.execAliasWrite path addr w s
  | .statusWrite path addr w => Sys2Proof.Machine.execStatusWrite path addr w s
  | .applyPoint unit => Sys2Proof.Machine.execApplyPoint unit s
  | .i3cPrivateWrite bytes => Sys2Proof.Machine.execI3cPrivateWrite bytes s
  | .i3cPrivateRead bytes count => Sys2Proof.Machine.execI3cPrivateRead bytes count s
  | .setdasa static dynamic => Sys2Proof.Machine.execSetdasa static dynamic s
  | .entdaa dynamic => Sys2Proof.Machine.execEntdaa dynamic s
  | .mbxRead path tag => Sys2Proof.Machine.execMbxRead path tag s
  | .mbxWrite path tag => Sys2Proof.Machine.execMbxWrite path tag s
  | .mbxTransferDone path => Sys2Proof.Machine.execMbxTransferDone path s
  | .mapInitDone => Sys2Proof.Machine.execMapInitDone s
  | .linkEnable path p => Sys2Proof.Machine.execLinkEnable path p s
  | .linkDisable path p => Sys2Proof.Machine.execLinkDisable path p s
  | .huntTimeout p => Sys2Proof.Machine.execHuntTimeout p s
  | .laneLock p lane peer inverted => Sys2Proof.Machine.execLaneLock p lane peer inverted s
  | .laneLockLoss p lane => Sys2Proof.Machine.execLaneLockLoss p lane s
  | .capBlock p block => Sys2Proof.Machine.execCapBlock p block s
  | .capExchangeDone p => Sys2Proof.Machine.execCapExchangeDone p s
  | .capTimeout p => Sys2Proof.Machine.execCapTimeout p s
  | .downEntry p => Sys2Proof.Machine.execDownEntry p s
  | .downRetry p => Sys2Proof.Machine.execDownRetry p s
  | .stepFramesDone p => Sys2Proof.Machine.execStepFramesDone p s
  | .stepSilenceEnd p => Sys2Proof.Machine.execStepSilenceEnd p s
  | .stepUpFail p => Sys2Proof.Machine.execStepUpFail p s
  | .lossOfSignal p => Sys2Proof.Machine.execLossOfSignal p s
  | .clockLaneSilent p => Sys2Proof.Machine.execClockLaneSilent p s
  | .retrain path p => Sys2Proof.Machine.execRetrain path p s
  | .stepUp path p => Sys2Proof.Machine.execStepUp path p s
  | .prbsEnter path p => Sys2Proof.Machine.execPrbsEnter path p s
  | .prbsExit path p => Sys2Proof.Machine.execPrbsExit path p s
  | .prbsClear path p => Sys2Proof.Machine.execPrbsClear path p s
  | .eyeScanStart path p w => Sys2Proof.Machine.execEyeScanStart path p w s
  | .eyeScanDone p obs => Sys2Proof.Machine.execEyeScanDone p obs s
  | .rowReceived p frames => Sys2Proof.Machine.execRowReceived p frames s
  | .ackDue p => Sys2Proof.Machine.execAckDue p s
  | .nakRepeat p => Sys2Proof.Machine.execNakRepeat p s
  | .ack p seq => Sys2Proof.Machine.execAck p seq s
  | .nak p seq => Sys2Proof.Machine.execNak p seq s
  | .replay p seq => Sys2Proof.Machine.execReplay p seq s
  | .quiet p => Sys2Proof.Machine.execQuiet p s
  | .squelchEdge p => Sys2Proof.Machine.execSquelchEdge p s
  | .rd64 h addr => Sys2Proof.Machine.execRd64 h addr s
  | .rd128 h addr => Sys2Proof.Machine.execRd128 h addr s
  | .wr64 h addr data => Sys2Proof.Machine.execWr64 h addr data s
  | .wr128 h addr data tag64 => Sys2Proof.Machine.execWr128 h addr data tag64 s
  | .fence h addr => Sys2Proof.Machine.execFence h addr s
  | .hint h group => Sys2Proof.Machine.execHint h group s
  | .rdata h addr data tag64 => Sys2Proof.Machine.execRdata h addr data tag64 s
  | .wdone h addr => Sys2Proof.Machine.execWdone h addr s
  | .fdone fence => Sys2Proof.Machine.execFdone fence s
  | .err h addr status => Sys2Proof.Machine.execErr h addr status s
  | .crd h reg count way => Sys2Proof.Machine.execCrd h reg count way s
  | .cwr h reg words way => Sys2Proof.Machine.execCwr h reg words way s
  | .crdRsp h reg words status => Sys2Proof.Machine.execCrdRsp h reg words status s
  | .cwrRsp h reg status => Sys2Proof.Machine.execCwrRsp h reg status s
  | .cfgTimeout itag => Sys2Proof.Machine.execCfgTimeout itag s
  | .reqTimeout itag => Sys2Proof.Machine.execReqTimeout itag s
  | .credit p headers datas => Sys2Proof.Machine.execCredit p headers datas s
  | .shard h g tier phaseB relay desc => Sys2Proof.Machine.execShard h g tier phaseB relay desc s
  | .shardDone h g lines firstFail swaps => Sys2Proof.Machine.execShardDone h g lines firstFail swaps s
  | .partialMsg h g last data => Sys2Proof.Machine.execPartialMsg h g last data s
  | .abort h g => Sys2Proof.Machine.execAbort h g s
  | .census p number tick echo => Sys2Proof.Machine.execCensus p number tick echo s
  | .pwrEnter p code => Sys2Proof.Machine.execPwrEnter p code s
  | .pwrAwake p code => Sys2Proof.Machine.execPwrAwake p code s
  | .notice p n => Sys2Proof.Machine.execNotice p n s
  | .ntcHoldExpiry ntype => Sys2Proof.Machine.execNtcHoldExpiry ntype s
  | .ntcBacklog => Sys2Proof.Machine.execNtcBacklog s
  | .mergeWaitExpiry dev line => Sys2Proof.Machine.execMergeWaitExpiry dev line s
  | .holdQueueAdmit sc => Sys2Proof.Machine.execHoldQueueAdmit sc s
  | .admissionQueueMove n => Sys2Proof.Machine.execAdmissionQueueMove n s
  | .channelPick pc column => Sys2Proof.Machine.execChannelPick pc column s
  | .lineReadDone id errors => Sys2Proof.Machine.execLineReadDone id errors s
  | .tagVerifyDone itag => Sys2Proof.Machine.execTagVerifyDone itag s
  | .refreshDue pc pos => Sys2Proof.Machine.execRefreshDue pc pos s
  | .refreshRateFall n => Sys2Proof.Machine.execRefreshRateFall n s
  | .selfRefreshEntry n => Sys2Proof.Machine.execSelfRefreshEntry n s
  | .selfRefreshExit n => Sys2Proof.Machine.execSelfRefreshExit n s
  | .pasrInitDone n => Sys2Proof.Machine.execPasrInitDone n s
  | .drbgReseed tier => Sys2Proof.Machine.execDrbgReseed tier s
  | .reseed path tier => Sys2Proof.Machine.execReseed path tier s
  | .entropyHealthFail tier apt => Sys2Proof.Machine.execEntropyHealthFail tier apt s
  | .entropyRetest tier pass => Sys2Proof.Machine.execEntropyRetest tier pass s
  | .parityAlert pc group alert => Sys2Proof.Machine.execParityAlert pc group alert s
  | .escalation n c => Sys2Proof.Machine.execEscalation n c s
  | .saturationClear n => Sys2Proof.Machine.execSaturationClear n s
  | .svcLimitWrite path c w => Sys2Proof.Machine.execSvcLimitWrite path c w s
  | .svcReachWrite path c w => Sys2Proof.Machine.execSvcReachWrite path c w s
  | .pinWrite path c w => Sys2Proof.Machine.execPinWrite path c w s
  | .poll => Sys2Proof.Machine.execPoll s
  | .fetchTurn => Sys2Proof.Machine.execFetchTurn s
  | .qctxRead path tag => Sys2Proof.Machine.execQctxRead path tag s
  | .qctxWrite path tag => Sys2Proof.Machine.execQctxWrite path tag s
  | .qctxEnable path tag => Sys2Proof.Machine.execQctxEnable path tag s
  | .qctxDrain path tag => Sys2Proof.Machine.execQctxDrain path tag s
  | .qctxDisable path tag => Sys2Proof.Machine.execQctxDisable path tag s
  | .recordHoldExpiry cq => Sys2Proof.Machine.execRecordHoldExpiry cq s
  | .fenceDesc q ix => Sys2Proof.Machine.execFenceDesc q ix s
  | .censusDesc q ix => Sys2Proof.Machine.execCensusDesc q ix s
  | .powerState q ix => Sys2Proof.Machine.execPowerState q ix s
  | .keyLoad q ix => Sys2Proof.Machine.execKeyLoad q ix s
  | .keyRetire q ix => Sys2Proof.Machine.execKeyRetire q ix s
  | .keyRetireDrain kid => Sys2Proof.Machine.execKeyRetireDrain kid s
  | .evacuate q ix => Sys2Proof.Machine.execEvacuate q ix s
  | .retireMap q ix => Sys2Proof.Machine.execRetireMap q ix s
  | .copyDone job => Sys2Proof.Machine.execCopyDone job s
  | .bistRun q ix => Sys2Proof.Machine.execBistRun q ix s
  | .fwStage q ix => Sys2Proof.Machine.execFwStage q ix s
  | .flashOpDone readback => Sys2Proof.Machine.execFlashOpDone readback s
  | .flashWipTimeout => Sys2Proof.Machine.execFlashWipTimeout s
  | .blazeDump q ix => Sys2Proof.Machine.execBlazeDump q ix s
  | .deviceReset q ix => Sys2Proof.Machine.execDeviceReset q ix s
  | .calRun q ix => Sys2Proof.Machine.execCalRun q ix s
  | .fuseProgram q ix => Sys2Proof.Machine.execFuseProgram q ix s
  | .fuseWrite e => Sys2Proof.Machine.execFuseWrite e s
  | .fuseSeal e => Sys2Proof.Machine.execFuseSeal e s
  | .fuseLock e => Sys2Proof.Machine.execFuseLock e s
  | .fuseRlock e => Sys2Proof.Machine.execFuseRlock e s
  | .fusePulseDone die strong => Sys2Proof.Machine.execFusePulseDone die strong s
  | .copy q ix => Sys2Proof.Machine.execCopy q ix s
  | .fill q ix => Sys2Proof.Machine.execFill q ix s
  | .zero q ix => Sys2Proof.Machine.execZero q ix s
  | .compare q ix => Sys2Proof.Machine.execCompare q ix s
  | .crc q ix => Sys2Proof.Machine.execCrc q ix s
  | .gather q ix => Sys2Proof.Machine.execGather q ix s
  | .scatter q ix => Sys2Proof.Machine.execScatter q ix s
  | .reduce q ix => Sys2Proof.Machine.execReduce q ix s
  | .atomicBatch q ix => Sys2Proof.Machine.execAtomicBatch q ix s
  | .xorParity q ix => Sys2Proof.Machine.execXorParity q ix s
  | .shardFinish tier blocks => Sys2Proof.Machine.execShardFinish tier blocks s
  | .checkpoint tier => Sys2Proof.Machine.execCheckpoint tier s
  | .migration tier trigger => Sys2Proof.Machine.execMigration tier trigger s
  | .epochClose g => Sys2Proof.Machine.execEpochClose g s
  | .keyHalt path => Sys2Proof.Machine.execKeyHalt path s
  | .jtagMemoryAccess line data => Sys2Proof.Machine.execJtagMemoryAccess line data s
  | .testwinRead path => Sys2Proof.Machine.execTestwinRead path s
  | .testwinWrite path => Sys2Proof.Machine.execTestwinWrite path s
  | .ceLeak => Sys2Proof.Machine.execCeLeak s
  | .rangerVisit n errors verify => Sys2Proof.Machine.execRangerVisit n errors verify s
  | .rangerLate n => Sys2Proof.Machine.execRangerLate n s
  | .pinTestDone t => Sys2Proof.Machine.execPinTestDone t s
  | .halfWidthResume n => Sys2Proof.Machine.execHalfWidthResume n s
  | .calMeasureDone tier obs => Sys2Proof.Machine.execCalMeasureDone tier obs s
  | .calGapExpiry tier => Sys2Proof.Machine.execCalGapExpiry tier s
  | .quietWindow tier reverted => Sys2Proof.Machine.execQuietWindow tier reverted s
  | .heartbeatLoss tier aborted => Sys2Proof.Machine.execHeartbeatLoss tier aborted s
  | .tierRejoin back => Sys2Proof.Machine.execTierRejoin back s
  | .journalClr path => Sys2Proof.Machine.execJournalClr path s
  | .pwrCmdRun path => Sys2Proof.Machine.execPwrCmdRun path s
  | .pwrCmdIdle path => Sys2Proof.Machine.execPwrCmdIdle path s
  | .pwrCmdSleep path => Sys2Proof.Machine.execPwrCmdSleep path s
  | .pwrCmdDeep path => Sys2Proof.Machine.execPwrCmdDeep path s
  | .pwrCmdOff path => Sys2Proof.Machine.execPwrCmdOff path s
  | .powerEntryStart => Sys2Proof.Machine.execPowerEntryStart s
  | .powerEntryDone => Sys2Proof.Machine.execPowerEntryDone s
  | .wakeN => Sys2Proof.Machine.execWakeN s
  | .powerExitDone => Sys2Proof.Machine.execPowerExitDone s
  | .wakeRetry p => Sys2Proof.Machine.execWakeRetry p s
  | .wakeGapEnd p => Sys2Proof.Machine.execWakeGapEnd p s
  | .capWindow pin10mw vin10mv => Sys2Proof.Machine.execCapWindow pin10mw vin10mv s
  | .capRelaxExpiry => Sys2Proof.Machine.execCapRelaxExpiry s
  | .sensorReading ix reading => Sys2Proof.Machine.execSensorReading ix reading s
  | .stageDwellExpiry tier => Sys2Proof.Machine.execStageDwellExpiry tier s
  | .substHoldExpiry tier => Sys2Proof.Machine.execSubstHoldExpiry tier s
  | .ledgerSample => Sys2Proof.Machine.execLedgerSample s
  | .loadStart path len => Sys2Proof.Machine.execLoadStart path len s
  | .loadWin path words => Sys2Proof.Machine.execLoadWin path words s
  | .loadEnd path => Sys2Proof.Machine.execLoadEnd path s
  | .loadCheckDone n code => Sys2Proof.Machine.execLoadCheckDone n code s
  | .reboot path => Sys2Proof.Machine.execReboot path s
  | .ownerLock path => Sys2Proof.Machine.execOwnerLock path s
  | .release path mask => Sys2Proof.Machine.execRelease path mask s
  | .faultEvent source unit payload => Sys2Proof.Machine.execFaultEvent source unit payload s
  | .warmReset path => Sys2Proof.Machine.execWarmReset path s
  | .resetDelayExpiry => Sys2Proof.Machine.execResetDelayExpiry s
  | .watchdogExpiry => Sys2Proof.Machine.execWatchdogExpiry s
  | .aliveToggle => Sys2Proof.Machine.execAliveToggle s
  | .inject path unit => Sys2Proof.Machine.execInject path unit s
  | .thaw path => Sys2Proof.Machine.execThaw path s
  | .censusInterval => Sys2Proof.Machine.execCensusInterval s
  | .censusWaitExpiry p => Sys2Proof.Machine.execCensusWaitExpiry p s
  | .censusDone => Sys2Proof.Machine.execCensusDone s
  | .vinInRange => Sys2Proof.Machine.execVinInRange s
  | .trainBlock p => Sys2Proof.Machine.execTrainBlock p s
  | .backgroundMeasurement tier m => Sys2Proof.Machine.execBackgroundMeasurement tier m s
  | .selfRefreshExitDone e => Sys2Proof.Machine.execSelfRefreshExitDone e s
  | .qctxCmdDone => Sys2Proof.Machine.execQctxCmdDone s
  | .testwinAccessDone errors => Sys2Proof.Machine.execTestwinAccessDone errors s
  | .vpgmChange mv => Sys2Proof.Machine.execVpgmChange mv s

end Sys2Proof.Machine
end

