-- ==== Sys2Proof/Machine/Time.lean ====
section
/-! DEFINITION. The passing of time (R354, R358, R482): what one CK_CTL cycle does. The timers of the manual are commands of their own;
the cycle moves the clock, the CK_TICK count and the counters of time. -/

namespace Sys2Proof.Machine
open Sys2Proof

/-- R482: the counters of time in ms: a tier's thermal stage (R406), the power state, the cap stage, a port in QUIET. -/
def State.msCount (s : State) : State :=
  let s := if s.awake then forEach (List.range 4) (fun t s => s.bump (tierSlot t (21 + (s.tier t).stage)) 1) s else s
  if s.running then
    let s := (s.bump (devSlot (98 + s.power.pstate)) 1).bump (devSlot (103 + s.power.capStage)) 1
    forEach allPorts (fun p s => if (s.port p).tstate = .quiet then s.bump (portSlot p 39) 1 else s) s
  else s

/-- R393: PWR.MEAS is updated every 100 µs. -/
def State.measure (s : State) : State :=
  if s.awake then
    let (i, s) := s.draw
    { s with power.measPin := (Config.pwrMeas i).1 % 65536, power.measVin := (Config.pwrMeas i).2 % 65536 }
  else s

/-- One CK_CTL cycle: 1 ns; CK_TICK counts every 100 ns (R354, R358). -/
def idle (s : State) : State :=
  let n := s.now + 1
  let s := if n % 1000000 = 0 then s.msCount else s
  let s := if n % 100000 = 0 then s.measure else s
  { s with now := n, tick := if n % 100 = 0 then s.tick + 1 else s.tick }.chanTick.pasrTick.pwrDue

end Sys2Proof.Machine
end

