-- ==== Sys2Proof/WellFormed.lean ====
section
/-! DEFINITION. Which commands are well formed: the operands that carry lists or plain numbers have the lengths and ranges the manual
gives them. Nothing in the machine needs it: a command that is not well formed is judged by the rules of its own (R100). -/

namespace Sys2Proof

/-- A queue number and a free-running index (R198, R199). -/
def wfDesc (q i : Nat) : Bool := decide (q < 65536) && decide (i < 2 ^ 32)

/-- A notice: the type, severity, device, counts of R128, and 16 payload bytes. -/
def Notice.wf (n : Notice) : Bool :=
  decide (n.ntype < 256) && decide (n.sev < 4) && decide (n.dev < 64) && decide (n.nseq < 65536) && decide (n.count < 65536) &&
  n.payload.length == 16

/-- A place of R139. -/
def Place.wf (p : Place) : Bool :=
  decide (p.pc < 64) && decide (p.bg < 12) && decide (p.bk < 4) && decide (p.row < 32768) && decide (p.col < 8)

/-- An error pattern: symbols of the 144-symbol codeword of R141. -/
def wfErrors (l : List (Nat × Byte)) : Bool := l.all (fun e => decide (e.1 < 144))

/-- Well-formed commands. -/
def Instr.wf : Instr → Bool
  | .memorySelfTestDone _ found =>
    found.all (fun f => match f with | .uncorr p => p.wf | .sticky p => p.wf | .pin _ _ => true | .command _ => true)
  | .registerWrite _ a _ => decide (a < 2 ^ 25) && a % 4 == 0
  | .aliasWrite _ a _ => decide (a < 2 ^ 25)
  | .statusWrite _ a _ => decide (a < 2 ^ 25) && a % 4 == 0
  | .i3cPrivateWrite b => b.length == 8
  | .i3cPrivateRead b _ => b.length == 4
  | .capBlock _ b => b.length == 32
  | .rowReceived _ fs => fs.all (fun f => decide (f.1 < 16) && f.2.length == 685 && f.2.all (fun x => decide (x < 4)))
  | .eyeScanDone _ obs => obs.all (fun o => o.volts.length == 64 && o.phase.length == 64 && o.map.all (fun r => r.length == 64))
  | .wr64 _ _ d => d.length == 64
  | .wr128 _ _ d _ => d.length == 128
  | .rdata _ _ d _ => d.length == 64 || d.length == 128
  | .cwr _ _ ws _ => decide (1 ≤ ws.length) && decide (ws.length ≤ 4)
  | .crdRsp _ _ ws _ => decide (ws.length ≤ 4)
  | .credit _ hs ds => hs.length == 7 && ds.length == 3
  | .shard _ g _ _ _ d => d.length == 16 && decide (g.queue < 65536)
  | .partialMsg _ g _ d => decide (d.length ≤ 128) && decide (g.queue < 65536)
  | .notice _ n => n.wf
  | .mergeWaitExpiry _ l => decide (l < Config.userLines)
  | .lineReadDone _ e => wfErrors e
  | .testwinAccessDone e => wfErrors e
  | .rangerVisit _ e v => wfErrors e && wfErrors v
  | .fenceDesc q i => wfDesc q i
  | .censusDesc q i => wfDesc q i
  | .powerState q i => wfDesc q i
  | .keyLoad q i => wfDesc q i
  | .keyRetire q i => wfDesc q i
  | .evacuate q i => wfDesc q i
  | .retireMap q i => wfDesc q i
  | .bistRun q i => wfDesc q i
  | .fwStage q i => wfDesc q i
  | .blazeDump q i => wfDesc q i
  | .deviceReset q i => wfDesc q i
  | .calRun q i => wfDesc q i
  | .fuseProgram q i => wfDesc q i
  | .copy q i => wfDesc q i
  | .fill q i => wfDesc q i
  | .zero q i => wfDesc q i
  | .compare q i => wfDesc q i
  | .crc q i => wfDesc q i
  | .gather q i => wfDesc q i
  | .scatter q i => wfDesc q i
  | .reduce q i => wfDesc q i
  | .atomicBatch q i => wfDesc q i
  | .xorParity q i => wfDesc q i
  | .jtagMemoryAccess l d => decide (l < Config.userLines) && (match d with | some b => b.length == 128 | none => true)
  | .loadWin _ ws => decide (1 ≤ ws.length) && decide (ws.length ≤ 4)
  | .faultEvent _ u p => decide (u < 256) && p.length == 16
  | .vpgmChange mv => decide (mv < 4096)
  | .vinRange v => decide (v < 65536)
  | .capWindow p v => decide (p < 65536) && decide (v < 65536)
  | _ => true

end Sys2Proof
end

