-- ==== Sys2Proof/Safety.lean ====
section
/-! DEFINITION. What counts as a safe run: the device takes every waiting command, and no write breaks R53. The terms in which
statements speak of states: what clocks and memory always satisfy, when a device serves commands, and what a command leaves alone. -/

namespace Sys2Proof.Machine
open Sys2Proof

/-- The state after `n` steps, while no step stops. -/
def steps : Nat → State → Option State
  | 0, s => some s
  | n + 1, s =>
    match step s with
    | .next t => steps n t
    | _ => none

/-- A run of `n` steps is safe: no step faults or is refused. -/
def Safe (n : Nat) (s : State) : Prop := (steps n s).isSome = true

/-- Every waiting command is well formed. -/
abbrev State.queueWf (s : State) : Prop := ∀ c ∈ s.pending, c.wf = true

/-- The clocks agree: CK_TICK counts every hundredth CK_CTL cycle (R354, R358). -/
abbrev State.clockInv (s : State) : Prop := s.tick = s.now / 100

/-- The canonical form of the array: rising keys, and no byte listed that an unlisted one reads as. -/
def memWf (m : List Host.Cell) : Bool := AMap.rising 0 m && m.all (fun c => c.2 != 0)

/-! ### When a device serves commands -/

/-- The start is done and the device is in RUN (R382, R435). -/
abbrev State.up (s : State) : Prop := s.power.phase = .running ∧ s.power.pstate = 0 ∧ s.power.entry = .none

/-- Whether the engine of tier `t` runs a shard that has work left and waits for no access. -/
def State.engTurns (s : State) (t : Nat) : Bool :=
  match (s.tier t).run with
  | some x => x.tag.isNone && decide (x.at_.unit < x.units.length)
  | none => false

/-- Whether an engine runs a shard that has work left and waits for no access. -/
def State.engBusy (s : State) : Bool := (List.range 4).any s.engTurns

/-- Whether a copy of R161 or R162 has lines left to read. -/
def State.copyBusy (s : State) : Bool := s.pool.jobs.any (fun j => decide (j.2.next < j.2.total))

/-- Whether a determinism group closes an epoch or has queues that wait to join it (R250). -/
def State.groupBusy (s : State) : Bool := s.que.groups.any (fun e => e.2.closing || !e.2.joining.isEmpty)

/-- A descriptor that goes on without further word: its shards have all reported, or its phase B has run. -/
def DescS.due (d : DescS) : Bool := d.reported || d.phaseB == .done

/-- The commands that write a word of the sender's choice to a register: only such a word can give an RSV bit another value (R53). -/
def writesWord : Instr → Bool
  | .devnumWrite _ _ | .registerWrite _ _ _ | .statusWrite _ _ _ | .i3cPrivateWrite _ | .cwr _ _ _ _ | .svcLimitWrite _ _ _ | .svcReachWrite _ _ _
  | .pinWrite _ _ _ | .eyeScanStart _ _ _ => true
  | .aliasWrite _ a _ => !isAlias a
  | _ => false

/-- Nothing goes on inside the device, whatever register fields wait: no message of the device to itself, no shard or copy that moves by
itself, and at a manager no warden work, map write, configuration access (outstanding, or waiting for a tag) or HINT that waits, no descriptor that goes on by itself, and no
group that closes or is joined. -/
abbrev State.calm (s : State) : Prop :=
  s.net.inbox = [] ∧ s.que.job = none ∧ s.prot.jobs = [] ∧ s.mgr.cfg = [] ∧ s.que.descs.any DescS.due = false ∧ s.groupBusy = false ∧
  s.mgr.ingress.any (fun e => e.2.op == .hint) = false ∧ s.engBusy = false ∧ s.copyBusy = false ∧ s.mgr.waitC = []

/-- Nothing goes on inside the device, and no register field waits for its apply point. -/
abbrev State.still (s : State) : Prop := s.calm ∧ s.regs.wait = []

/-- A port takes a message of an operation with `nd` data blocks: it is ACTIVE, discards no rows, its link carries the operation, its
credits were granted, and the operation may arrive there (R88, R100, R101, R121, R127). -/
abbrev State.takes (s : State) (p : Port) (op : MOp) (nd : Nat) : Prop :=
  (s.port p).tstate = .active ∧ (s.port p).nak = none ∧ (s.port p).granted.has op.cls nd = true ∧ ndataOk op nd = true ∧
  s.classOk p op = true ∧ (s.hostSide p = true → 2 ≤ (s.port p).version) ∧ s.inPort p = p

/-- A port sends a message of an operation with `nd` data blocks at once: it is ACTIVE, nothing waits at it, its link carries the
operation, its replay buffer has room, its partner's credits allow it, and no AWAKE is owed first (R87, R118, R123, R125, R386). -/
abbrev State.sends (s : State) (p : Port) (op : MOp) (nd : Nat) : Prop :=
  (s.port p).tstate = .active ∧ (s.port p).wait = [] ∧ versionCarries (s.port p).version op = true ∧
  (s.port p).buffer.length < Config.REPLAY_DEPTH ∧ (s.port p).held.has op.cls nd = true ∧ (s.port p).sleeping = false ∧ (s.port p).owes = false

/-- A request of a header for an unprotected line of this device is served at once: no engine sent it, its class is admitted and below its
limit with nothing held before it, no earlier request to its line waits for its class or its tag line, no copy or initialisation is in the
way, no merge entry holds the line, and its channel is not retired (R106, R152, R161, R163, R183, R184, R195). -/
abbrev State.serves (s : State) (h : Hdr) (loc : Nat) : Prop :=
  h.agent ≠ .engine ∧ s.refuses h.sc.val (s.linePlace (lineIx loc)).chan = false ∧
  AMap.get h.sc.val 0 s.own.count < s.limit h.sc.val ∧ AMap.get h.sc.val [] s.own.holds = [] ∧ s.ownProt loc = false ∧
  s.own.reqs.any (fun q => (q.2.stage == .held || q.2.stage == .queued) && q.2.line == lineIx loc) = false ∧
  s.mustWait (lineIx loc) = false ∧ s.own.merges.any (fun e => e.line == lineIx loc) = false ∧
  (s.chan (s.linePlace (lineIx loc)).chan).retired = false

/-- An access waits in its bank queue, in the admission queue of its channel, or in the buffer of its tier (R293, R294). -/
abbrev State.accWaits (s : State) (a : Acc) : Prop :=
  a ∈ (s.bank a.place.pc a.place.pos).queue ∨ a ∈ (s.chan a.place.chan).admission ∨ a ∈ (s.tier a.place.tier).buffer

/-- The registers that an access may change as it arrives at channel `n`: the class it belongs to may not reach it (R185), it may wake it (R305), and
it may meet a calibration (R178). -/
def arrivalRegs (n : Nat) : List Nat := [Reg.SVC_STATUS, Reg.CH_STATUS n, Reg.NDL_PATH_STATUS]

/-- A new access finds room in its bank queue at once: none of its channel waits in the buffer of its tier, none of its bank in the admission
queue, and the bank takes it (R293, R294). -/
abbrev State.bankFree (s : State) (a : Acc) : Bool :=
  !((s.tier a.place.tier).buffer.any (fun x => x.place.chan == a.place.chan)) &&
  !((s.chan a.place.chan).admission.any (fun x => x.place.pc == a.place.pc && x.place.pos == a.place.pos)) && s.bankTakes a

/-- The message that a command stands for, as it arrives on a port (R98 to R103, R115, R124). -/
def messageOf : Instr → Option Msg
  | .rd64 h a => some { op := .rd64, h := h, addr := a.toNat }
  | .rd128 h a => some { op := .rd128, h := h, addr := a.toNat }
  | .wr64 h a d => some { op := .wr64, h := h, addr := a.toNat, data := d }
  | .wr128 h a d g => some { op := .wr128, h := h, addr := a.toNat, data := d, tag64 := g.toNat }
  | .fence h a => some { op := .fence, h := h, addr := a.toNat }
  | .hint h g => some { op := .hint, h := h, words := [g.val] }
  | .rdata h a d g => some { op := .rdata, h := h, addr := a.toNat, data := d, tag64 := g.toNat }
  | .wdone h a => some { op := .wdone, h := h, addr := a.toNat }
  | .err h a c => some { op := .err, h := h, addr := a.toNat, status := c.toNat }
  | .crd h r n w => some { op := .crd, h := { h with flags := BitVec.ofNat 8 n }, addr := r.toNat, way := w.map (·.toNat) }
  | .cwr h r ws w => some { op := .cwr, h := { h with flags := BitVec.ofNat 8 (ws.length - 1) }, addr := r.toNat, words := ws.map (·.toNat), way := w.map (·.toNat) }
  | .crdRsp h r ws c => some { op := .crdRsp, h := h, addr := r.toNat, words := ws.map (·.toNat), status := c.toNat }
  | .cwrRsp h r c => some { op := .cwrRsp, h := h, addr := r.toNat, status := c.toNat }
  | .shard h g t b r d => some { op := .shard, h := h, eng := some g, words := [shardWord t b r], data := ofWords (d.map (·.toNat)) }
  | .shardDone h g l f w => some { op := .shardDone, h := h, eng := some g, words := [l.toNat, f.toNat, w.toNat] }
  | .partialMsg h g l d => some { op := .part, h := h, eng := some g, words := [d.length, b2n l], data := d }
  | .abort h g => some { op := .abort, h := h, eng := some g }
  | _ => none

/-- Messages arrive on a port of a running device, one of operation `op` with `nd` data blocks belongs there and lies beyond the credits granted,
and the fault event of that is not FATAL (R88, R101, R119, R121, R127). -/
abbrev State.overrun (s : State) (p : Port) (op : MOp) (nd : Nat) : Prop :=
  (s.port p).tstate = .active ∧ (s.port p).nak = none ∧ s.inPort p = p ∧ (s.hostSide p = true → 2 ≤ (s.port p).version) ∧
  s.classOk p op = true ∧ (s.port p).granted.has op.cls nd = false ∧ (s.faultClass 37 0).1 < 3 ∧ s.flt.blaze.f2 = none

/-- Whether the data of a command's message have the length that its operation and NDATA give (R100, R102, R103, R116, R124). -/
def dataFits : Instr → Bool
  | .wr64 _ _ d => d.length == 64
  | .wr128 _ _ d _ => d.length == 128
  | .rdata h _ d _ => d.length == 32 * h.ndata
  | .cwr _ _ ws _ => decide (1 ≤ ws.length) && decide (ws.length ≤ 4)
  | .crdRsp _ _ ws _ => decide (ws.length ≤ 4)
  | .shard _ _ _ _ _ d => d.length == 16
  | .partialMsg h _ _ d => decide (d.length ≤ 32 * h.ndata)
  | _ => true

/-- The completion ring of a queue can be written, and no record waits for it (R217). -/
abbrev State.ringFree (s : State) (q : Nat) : Prop :=
  s.ringBad (s.ringOf q) = false ∧ (AMap.get (s.ringOf q) ({} : CqS) s.que.cqs).recs = []

/-- Between `s` and `t` a descriptor ends with a completion code and a VALUE: it is no longer in flight, and its record, with its phase, waits
for the ring of its queue (R215 to R217). -/
def State.recorded (s : State) (d : DescS) (code value : Nat) (t : State) : Prop :=
  t.que.descs = s.que.descs.filter (fun x => !(x.q == d.q && x.i == d.i)) ∧
  ∃ r : RecS, (AMap.get (s.ringOf d.q) ({} : CqS) t.que.cqs).recs = [r] ∧ r.q = d.q ∧ r.n = cCqTail (s.ctx (s.ringOf d.q)) % 2 ^ 32 ∧
    r.word = d.q + ((1 - r.n / 2 ^ cCqLog2 (s.ctx (s.ringOf d.q)) % 2) * 2 ^ 15 + code) * 2 ^ 16 + dSeq d.words * 2 ^ 32 +
      value % 2 ^ 32 * 2 ^ 64 + dCtag d.words * 2 ^ 96

/-- Between `s` and `t` the manager asks the host for one granule for a use: the read is outstanding, and its message leaves the host port (R110). -/
def State.asked (s : State) (use : HostUse) (op : MOp) (addr : Nat) (t : State) : Prop :=
  AMap.find s.mgr.nextH t.mgr.host = some { use := use, len := granule op, addr := addr, time := s.now } ∧
  ∃ m : Msg, t.net.tx = s.net.tx ++ [(s.hostPort, m)] ∧ m.op = op ∧ m.addr = addr % 2 ^ 64 ∧ m.h.tag.toNat = s.mgr.nextH % 65536

/-! ### Parts of the state, for what a command leaves unchanged -/

/-- The parts of the state beside the queue and the clocks, which no command changes. `regs` are the registers as software reads them,
`effects` the fields in effect and those that wait (R54), `sent` the messages sent and those to the device itself, `faults` the fault
windows and the admission stop, `census` the snapshot and the census that runs. -/
inductive Part where
  | draws | id | power | image | regs | effects | mbx | ports | sent | mem | chans | pcs | tiers | bursts | own | eng | pool | topo | mgr | que
  | prot | fuse | notices | counts | faults | blaze | census | sensors | bist
  deriving DecidableEq, Repr

/-- Whether two states agree in a part. -/
def Part.same (s t : State) : Part → Prop
  | .draws => t.draws = s.draws
  | .id => t.id = s.id
  | .power => t.power = s.power
  | .image => t.image = s.image
  | .regs => t.regs.file = s.regs.file
  | .effects => t.regs.eff = s.regs.eff ∧ t.regs.wait = s.regs.wait
  | .mbx => t.regs.mbxC = s.regs.mbxC ∧ t.regs.mbxI = s.regs.mbxI
  | .ports => t.net.ports = s.net.ports ∧ t.net.mgrPort = s.net.mgrPort ∧ t.net.air = s.net.air
  | .sent => t.net.tx = s.net.tx ∧ t.net.inbox = s.net.inbox
  | .mem => t.mem = s.mem
  | .chans => t.stack.chans = s.stack.chans
  | .pcs => t.stack.pcs = s.stack.pcs
  | .tiers => t.stack.tiers = s.stack.tiers
  | .bursts => t.stack.bursts = s.stack.bursts ∧ t.stack.nextAcc = s.stack.nextAcc
  | .own => t.own = s.own
  | .eng => t.eng = s.eng
  | .pool => t.pool = s.pool
  | .topo => t.topo = s.topo
  | .mgr => t.mgr = s.mgr
  | .que => t.que = s.que
  | .prot => t.prot = s.prot
  | .fuse => t.fuse = s.fuse
  | .notices => t.flt.notices = s.flt.notices ∧ t.flt.nseq = s.flt.nseq ∧ t.flt.hostNtc = s.flt.hostNtc ∧ t.flt.devNseq = s.flt.devNseq
  | .counts => t.flt.counts = s.flt.counts ∧ t.flt.torn = s.flt.torn
  | .faults => t.flt.windows = s.flt.windows ∧ t.flt.admitStop = s.flt.admitStop ∧ t.flt.fatals = s.flt.fatals ∧ t.flt.before = s.flt.before
  | .blaze => t.flt.blaze = s.flt.blaze
  | .census => t.flt.snap = s.flt.snap ∧ t.flt.snapTorn = s.flt.snapTorn ∧ t.flt.snapHdr = s.flt.snapHdr ∧
      t.flt.lastCensus = s.flt.lastCensus ∧ t.flt.census = s.flt.census ∧ t.flt.censusNo = s.flt.censusNo
  | .sensors => t.sensors = s.sensors
  | .bist => t.bist = s.bist

/-- From `s` to `t` the queue, the clocks, every part of the state beside those of `ps`, and every register beside those of `as` are as they
were. -/
def State.only (s : State) (ps : List Part) (as : List Nat) (t : State) : Prop :=
  (t.pending = s.pending ∧ t.now = s.now ∧ t.tick = s.tick) ∧ (∀ p : Part, p ∉ ps → p.same s t) ∧ ∀ a : Nat, a ∉ as → t.reg a = s.reg a

/-- A command completes: it answers a next state of which `P` holds, and which differs from `s` in the parts `ps` and the registers `as`
alone. -/
def State.completes (s : State) (c : Instr) (ps : List Part) (as : List Nat) (P : State → Prop) : Prop :=
  ∃ t : State, exec c s = .next t ∧ P t ∧ s.only ps as t

/-- The device stands in the firebreak of this tick (R468): its ports, requests and merge entries are gone, its relays closed, every channel
that is not retired in self-refresh. -/
def State.halted (t : State) : Prop :=
  t.power.phase = .firebreak ∧ t.power.fbTick = some t.tick ∧ t.net.ports = {} ∧ t.net.inbox = [] ∧ t.own = {} ∧ t.mgr = {} ∧
  t.power.relays = false ∧ t.power.alive = false ∧ ∀ n < 32, (t.chan n).pstate = if (t.chan n).retired then .retired else .selfRefresh

/-- The parts that the training states of a port change. -/
abbrev portParts : List Part := [.ports, .regs, .notices, .counts]

/-- The registers that the training states of a port change: its flags, those of the other half of the host port, and HOST_VER. -/
abbrev portRegs (p : Port) : List Nat := [Reg.LINK_STATUS p, Reg.LINK_STATUS (otherHalf p), Reg.NDL_STATUS]

/-- The parts that the end of PRBS changes: with those of a training state the errors that the checkers have counted since the last look (R93). -/
abbrev prbsParts : List Part := .draws :: portParts
abbrev prbsRegs (p : Port) : List Nat := portRegs p ++ (List.range 8).map (Reg.LINK_PRBS_ERR p)

/-- The parts that a firebreak changes. -/
def fatalParts : List Part :=
  [.power, .ports, .sent, .chans, .pcs, .tiers, .bursts, .own, .eng, .mgr, .que, .prot, .fuse, .notices, .counts, .faults, .blaze, .census, .regs]

/-- The registers that a fault event may change. -/
def eventRegs : List Nat := [Reg.FAULT_STATUS, Reg.FAULT_LAST, Reg.BLAZE_STATUS]

/-- A fault event of a source at a unit would be a NOTE that the blaze log has room for: nothing beside its record follows (R462, R465). -/
abbrev State.noteOnly (s : State) (src unit : Nat) : Prop := (s.faultClass src unit).1 = 0 ∧ s.flt.blaze.f2 = none

/-- A fault event of a source at a unit would not be FATAL, and the blaze log has room for its record (R462, R465, R466). -/
abbrev State.mild (s : State) (src unit : Nat) : Prop := (s.faultClass src unit).1 < 3 ∧ s.flt.blaze.f2 = none

/-- The parts that an event changes which is not FATAL: its count, window, notice, log entry and flags, and what DEGRADE excludes (R463 to R466). -/
def mildParts : List Part := [.regs, .notices, .counts, .faults, .blaze, .ports, .tiers]

end Sys2Proof.Machine
end

