-- ==== Sys2Proof/Certificates/Slice0/Obligations.lean ====
section
/-! DEFINITION. The statements about this device, for the provers. Each is a proposition over all states and operands that meet its
hypotheses; `State.completes` says that a command answers a next state, what holds of it, and which parts of the state and which
registers alone it may have changed. -/

open Sys2Proof Sys2Proof.Machine

/-- R375, R376, R492, R493: the supply and RESET_N: what brings the device into reset and out of it. -/
def Obligations.SupplyAndReset : Prop :=
  ∀ s : State,
    (∀ (role : Fin 4) (slot : Fin 64), s.power.phase = .unpowered → s.power.resetLow = false →
      s.completes (.vinValid role slot) [.power, .id] [Reg.LINK_CTL .ca, Reg.LINK_CTL .cb]
        (fun t => t.power.vin = true ∧ t.power.phase = .slotWait ∧ t.power.tS = s.now ∧ t.id = { s.id with role := role, slot := slot })) ∧
    (∀ (role : Fin 4) (slot : Fin 64), s.power.phase = .unpowered → s.power.resetLow = true →
      s.completes (.vinValid role slot) [.power] [] (fun t => t.power.vin = true ∧ t.power.phase = .inReset)) ∧
    (∃ t : State, exec .vinLoss s = .next t ∧ t.power.phase = .unpowered ∧ t.power.vin = false ∧ t.regs = {} ∧ t.mem = {} ∧ t.stack = {} ∧
      t.net.ports = {} ∧ t.net.tx = s.net.tx ∧ t.fuse.cells = s.fuse.cells ∧ t.fuse.locks = s.fuse.locks ∧ t.que.flash = s.que.flash ∧
      t.id.serial = s.id.serial ∧ t.flt = {} ∧ t.pending = s.pending ∧ t.now = s.now ∧ t.tick = s.tick) ∧
    (∀ mv10 : Nat, s.awake = true → s.power.vin = true → s.noteOnly 9 0 →
      s.completes (.vinRange mv10) [.power, .regs, .notices, .counts, .faults, .blaze] (Reg.PWR_STATUS :: eventRegs)
        (fun t => t.fld Reg.PWR_STATUS F.PWR_STATUS_VIN_RANGE = 1 ∧ t.fld Reg.PWR_STATUS F.PWR_STATUS_VIN_OK = 0 ∧
          t.power.measVin = mv10 % 65536 ∧ (AMap.find 0x13 t.flt.notices).isSome = true)) ∧
    (s.powered = true → s.power.vin = true → s.power.vinNever = false →
      s.completes .vinInRange [.power, .regs] [Reg.PWR_STATUS]
        (fun t => t.fld Reg.PWR_STATUS F.PWR_STATUS_VIN_OK = 1 ∧ t.power.vinBack = some s.now)) ∧
    (s.power.resetLow = false → s.powered = true →
      s.completes .resetNLow fatalParts [Reg.SVC_STATUS, Reg.THERM_STATUS]
        (fun t => t.power.phase = .inReset ∧ t.power.resetLow = true ∧ t.power.cause = 1 ∧ t.power.pstate = 0 ∧ t.net.ports = {} ∧ t.own = {} ∧
          t.mgr = {} ∧ t.power.relays = false ∧ t.power.alive = false ∧
          ∀ n < 32, (t.chan n).pstate = if (t.chan n).retired then .retired else .selfRefresh)) ∧
    (∀ (role : Fin 4) (slot : Fin 64), s.power.resetLow = true → s.power.phase = .inReset →
      s.completes (.resetRelease role slot) [.power, .id] [Reg.LINK_CTL .ca, Reg.LINK_CTL .cb]
        (fun t => t.power.resetLow = false ∧ t.power.phase = .slotWait ∧ t.power.tS = s.now ∧ t.id = { s.id with role := role, slot := slot }))

/-- R56, R380, R433, R434, R471, R472: the start slot ends at t0, and RESET_DELAY leads to the warm start. What the always-on domain holds is
not lost with a warm start: memory, the reserve pool, the error logs of the channels. -/
def Obligations.StartBegins : Prop :=
  ∀ s : State,
    (s.power.phase = .slotWait →
      ∃ t : State, exec .startSlotExpiry s = .next t ∧ t.power.phase = .starting ∧ t.power.t0 = s.now ∧ t.power.items = 0 ∧
        t.power.kind = (if s.power.cold then 0 else 1) ∧ t.power.fw = 0 ∧ t.net.ports = {} ∧ t.own = {} ∧ t.mgr = {} ∧ t.mem = s.mem ∧ t.id = s.id ∧
        (s.power.cold = false → t.pool = s.pool ∧ ∀ n : Nat, (t.chan n).elog = (s.chan n).elog ∧ (t.chan n).half = (s.chan n).half) ∧
        (s.power.cold = true → t.pool = {} ∧ t.regs.eff = [] ∧
          ∀ a : Nat, a ∉ [Reg.PWR_STATUS, Reg.CLK_STATUS, Reg.THERM_STATUS, Reg.SVC_STATUS, Reg.BLAZE_STATUS, Reg.NDL_LINE_STATUS] →
            t.reg a = regReset s.id.role a) ∧
        t.pending = s.pending ∧ t.now = s.now ∧ t.tick = s.tick) ∧
    (∀ r : Nat × Nat, s.power.resetAt = some r →
      s.completes .resetDelayExpiry fatalParts [Reg.SVC_STATUS, Reg.THERM_STATUS]
        (fun t => t.power.phase = .slotWait ∧ t.power.cause = r.2 ∧ t.power.tS = s.now ∧ t.power.pstate = 0 ∧ t.power.resetAt = none ∧
          t.net.ports = {} ∧ t.own = {} ∧ t.mgr = {})) ∧
    (s.power.phase = .starting →
      s.completes .pllLock [.power, .regs] [Reg.CLK_STATUS]
        (fun t => t.power.pll = true ∧ t.fld Reg.CLK_STATUS F.CLK_STATUS_PLL_LOCK = 1 ∧ t.fld Reg.CLK_STATUS F.CLK_STATUS_TICK_LOSC = 0)) ∧
    (s.awake = true → s.power.healthy = true →
      s.completes .aliveToggle [.power] [] (fun t => t.power.alive = !s.power.alive)) ∧
    (∀ mv : Nat, s.awake = true →
      s.completes (.vpgmChange mv) [.fuse, .regs] [Reg.FUSE_STATUS]
        (fun t => t.fuse = { s.fuse with vpgm := mv % 4096, mv := mv % 4096 } ∧
          t.fld Reg.FUSE_STATUS F.FUSE_STATUS_VPGM_OK = b2n t.vpgmOk)) ∧
    (∀ mv : Nat, s.awake = false → s.completes (.vpgmChange mv) [.fuse] [] (fun t => t.fuse = { s.fuse with vpgm := mv % 4096 }))

/-- R357, R378, R463, R468, R470: the events of the supply, the clock and the watchdog that are classified FATAL start a firebreak, and the
event's own flag stands. -/
def Obligations.FatalEvents : Prop :=
  ∀ s : State, s.awake = true →
    (∀ rail : Fin 6, (s.faultClass (3 + rail.val) 0).1 = 3 →
      s.completes (.railFault rail) fatalParts (Reg.PWR_STATUS :: eventRegs)
        (fun t => t.halted ∧ t.fld Reg.PWR_STATUS F.PWR_STATUS_RAIL_FAULT = 1 ∧ bit t.power.rails rail.val = true ∧
          t.fld Reg.FAULT_STATUS F.FAULT_STATUS_EVENT = 1)) ∧
    (∀ edges : Nat, s.power.pll = true → (edges < 80 ∨ 120 < edges) → (s.faultClass 0 0).1 = 3 →
      s.completes (.refclkWindow edges) fatalParts (Reg.CLK_STATUS :: eventRegs)
        (fun t => t.halted ∧ t.power.pll = false ∧ t.fld Reg.CLK_STATUS F.CLK_STATUS_REFCLK_FAULT = 1 ∧ t.fld Reg.CLK_STATUS F.CLK_STATUS_PLL_LOCK = 0)) ∧
    (s.power.pll = true → (s.faultClass 1 0).1 = 3 →
      s.completes .pllUnlock fatalParts (Reg.CLK_STATUS :: eventRegs)
        (fun t => t.halted ∧ t.power.pll = false ∧ t.fld Reg.CLK_STATUS F.CLK_STATUS_REFCLK_FAULT = 1 ∧ t.fld Reg.CLK_STATUS F.CLK_STATUS_PLL_LOCK = 0)) ∧
    ((s.faultClass 2 0).1 = 3 →
      s.completes .watchdogExpiry fatalParts eventRegs
        (fun t => t.halted ∧ t.reg Reg.FAULT_LAST = BitVec.ofNat 32 (3 * 2 ^ 30 + b2n (s.faultClass 2 0).2.1 * 2 ^ 29 + 2)))

/-- R425, R438 to R440: the sensing of a die, the self-test items and the memory test. The result of every item is recorded; a failure of an
item up to 5 leads to the dead state (R451). -/
def Obligations.SelfTest : Prop :=
  ∀ s : State, s.power.phase = .starting → s.regs.wait = [] →
    (∀ (die : Die) (drift : List (Nat × Cell)), bit s.power.sensed die.ix = false → s.senseDue die.ix = true →
      ∃ t : State, exec (.fuseSenseDone die drift) s = .next t ∧ bit t.power.sensed die.ix = true ∧ t.mem = s.mem ∧ t.topo = s.topo ∧
        t.pending = s.pending ∧ t.now = s.now ∧ t.tick = s.tick) ∧
    (∀ (item : Fin 12) (r : TestResult), s.itemDue item.val = true →
      ∃ t : State, exec (.selfTestItemDone item r) s = .next t ∧ t.power.items = item.val ∧
        AMap.find item.val t.bist = some (min 65535 r.tested, min 65535 r.failing.length,
          match r.failing.head? with | some f => f % 65536 | none => 65535) ∧
        t.pending = s.pending ∧ t.now = s.now ∧ t.tick = s.tick) ∧
    (∀ (item : Fin 12) (r : TestResult), s.itemDue item.val = true → item.val ≤ 5 → r.failing = [] →
      s.completes (.selfTestItemDone item r) [.power, .bist, .counts] [] (fun t => t.power.phase = .starting)) ∧
    (∀ (item : Fin 12) (r : TestResult), s.itemDue item.val = true → item.val ≤ 5 → r.failing ≠ [] →
      s.completes (.selfTestItemDone item r) (.bist :: fatalParts) [Reg.BLAZE_STATUS]
        (fun t => t.power.phase = .dead ∧ t.power.failCode = 0x11 ∧ t.net.ports = {} ∧ t.power.relays = false)) ∧
    (∀ r : TestResult, s.itemDue 7 = true → r.failing = [] → s.portsFail = false →
      s.completes (.selfTestItemDone 7 r) [.power, .bist, .counts, .ports, .regs, .notices]
        [Reg.LINK_STATUS .ca, Reg.LINK_STATUS .cb, Reg.NDL_STATUS]
        (fun t => t.power.alive = true ∧ t.power.healthy = true ∧ ((s.drives .e = true ∨ s.drives .w = true) → s.power.relays = false → t.power.relays = true ∧ t.power.relayAt = some s.now))) ∧
    (∀ tier : Fin 4, s.still → 10 ≤ s.power.items → s.tierLives tier.val = true → bit s.power.startTiers tier.val = false →
        (∀ u < tier.val, s.tierLives u = true → bit s.power.startTiers u = true) →
      s.completes (.memorySelfTestDone tier []) [.power, .bist, .counts, .chans, .regs, .mem] ((List.range 8).map (fun c => Reg.CH_STATUS (8 * tier.val + c)))
        (fun t => bit t.power.startTiers tier.val = true ∧
          (∀ c < 8, (t.chan (8 * tier.val + c)).pstate = if (s.chan (8 * tier.val + c)).retired then (s.chan (8 * tier.val + c)).pstate else .active) ∧
          t.mem = if s.power.cold ∨ s.isTest = true then (s.fill (.tier tier.val []) 0).mem else s.mem))

/-- R27, R78, R435: the end of the relay wait and of the start. -/
def Obligations.StartEnds : Prop :=
  ∀ s : State, s.regs.wait = [] →
    (s.awake = true → s.power.relayAt.isSome = true → s.power.relays = true →
      s.completes .relayWaitExpiry [.power, .ports, .regs, .notices, .counts] [Reg.LINK_STATUS .e, Reg.LINK_STATUS .w, Reg.NDL_STATUS]
        (fun t => t.power.relayAt = none ∧ t.power.relays = true ∧
          (s.isTest = false → s.fld (Reg.LINK_CTL .e) F.LINK_CTL_ENABLE = 1 → (s.port .e).tstate = .off →
            ones 8 (s.port .e).excluded ≤ 4 →
            (t.port .e).tstate = if s.maxRate .e then .huntFull else .huntHalf) ∧
          (s.isTest = false → s.fld (Reg.LINK_CTL .w) F.LINK_CTL_ENABLE = 1 → (s.port .w).tstate = .off →
            ones 8 (s.port .w).excluded ≤ 4 →
            (t.port .w).tstate = if s.maxRate .w then .huntFull else .huntHalf))) ∧
    (s.power.phase = .starting → 10 ≤ s.power.items → s.tiersTested = true → s.power.fw = 2 → s.pool.jobs = [] → s.own.waits = [] → s.own.parked = [] →
        s.image.epoch ≤ s.arbCount →
      s.completes .startDone [.power, .ports, .regs, .notices, .counts, .chans] [Reg.BOOT_STATUS, Reg.LINK_STATUS .ca, Reg.LINK_STATUS .cb, Reg.NDL_STATUS]
        (fun t => t.power.phase = .running ∧ t.power.lockOpen = false ∧ t.fld Reg.BOOT_STATUS F.BOOT_STATUS_START_DONE = 1))

/-- R443, R445: the manager's boot ROM: a header without SFDP or that fails a check leads to the dead state, after one retry where the check
allows it; a good one is followed by its components, and the last good one by the firmware. -/
def Obligations.ManagerImage : Prop :=
  ∀ s : State, s.imageDue = true →
    (∀ (density : Nat) (header : List Byte), s.image.stage = 0 →
      s.completes (.imageHeaderCheck false density header) fatalParts [Reg.BLAZE_STATUS]
        (fun t => t.power.phase = .dead ∧ t.power.failCode = 1)) ∧
    (∀ (density : Nat) (header : List Byte), s.image.stage = 0 →
      s.completes (.imageHeaderCheck true density header) (.image :: fatalParts) [Reg.BLAZE_STATUS]
        (fun t => t.que.density = density ∧
          (s.headerCheck header density = 0 → t.power.fw = 1 ∧ t.power.phase = .starting ∧ t.image.stage = 1 ∧ t.image.nextComp = 0 ∧
            t.image.header = (header ++ zeros hdrLen).take hdrLen) ∧
          (s.headerCheck header density = 5 → s.image.retried = false → t.power.phase = .starting ∧ t.image = { s.image with retried := true }) ∧
          (s.headerCheck header density ≠ 0 → (s.headerCheck header density ≠ 5 ∨ s.image.retried = true) →
            t.power.phase = .dead ∧ t.power.failCode = s.headerCheck header density))) ∧
    (∀ (k : Fin 16) (data : List Byte), s.image.stage = 1 → s.image.nextComp = k.val →
      s.completes (.componentReadDone k data) (.image :: fatalParts) [Reg.BLAZE_STATUS]
        (fun t =>
          (data.length = cLen (hComp s.image.header k.val) → sha384 data = cHash (hComp s.image.header k.val) →
            t.image.stream = s.image.stream ++ data ∧
            (k.val + 1 < hNcomp s.image.header → t.image.nextComp = k.val + 1 ∧ t.power.fw = s.power.fw) ∧
            (hNcomp s.image.header ≤ k.val + 1 → t.power.fw = 2)) ∧
          ((data.length ≠ cLen (hComp s.image.header k.val) ∨ sha384 data ≠ cHash (hComp s.image.header k.val)) →
            (s.image.retried = false → t.image = { s.image with retried := true }) ∧
            (s.image.retried = true → t.power.phase = .dead ∧ t.power.failCode = 8))))

/-- R446, R448, R449, R504: a load into a device over CFG: START, the words, END, and the end of the ROM's checks; START from another
agent than the manager's warden is refused with RO_WRITE. -/
def Obligations.FirmwareLoad : Prop :=
  ∀ s : State, s.awake = true → s.power.pstate = 0 → s.power.entry = .none → s.still → s.isManager = false →
    (∀ len : Fin 33554432, s.power.fw = 0 →
      s.completes (.loadStart .cfgWarden len) [.power, .image, .regs] [] (fun t => t.power.fw = 1 ∧ t.image = { stage := 1, len := len.val })) ∧
    (∀ (path : Path) (len : Fin 33554432), path ≠ .cfgWarden →
      s.completes (.loadStart path len) [.regs] [Reg.MBX_ACC_STATUS]
        (fun t => t.fld Reg.MBX_ACC_STATUS F.MBX_ACC_STATUS_RO_WRITE = 1 ∧ t.power = s.power ∧ t.image = s.image)) ∧
    (∀ words : List Word, s.power.fw = 1 → s.image.ended = false → words.length ≤ 4 →
      s.completes (.loadWin .cfgWarden words) [.image, .regs] []
        (fun t => t.image.stream = s.image.stream ++ ofWords (words.map (·.toNat)) ∧ t.image.len = s.image.len ∧ t.image.ended = false)) ∧
    (s.power.fw = 1 →
      s.completes (.loadEnd .cfgWarden) [.image, .regs] [] (fun t => t.image = { s.image with ended := true })) ∧
    (∀ (n : Fin 64) (code : Byte), s.power.fw = 1 → s.image.ended = true →
      s.completes (.loadCheckDone n code) [.power, .image] []
        (fun t => (s.loadCode = 0 → t.power.fw = 2 ∧ t.image.epoch = hEpoch s.image.header ∧ t.image.version = BitVec.ofNat 32 (hVersion s.image.header)) ∧
          (s.loadCode ≠ 0 → t.power.fw = 3 ∧ t.power.failCode = s.loadCode ∧ t.image = {})))

/-- R433, R446, R449, R450, R455, R457: the manager's outcome of a load, a firmware restart, the owner lock, and the release of tiers for test. -/
def Obligations.FirmwareControl : Prop :=
  ∀ s : State, s.up → s.still →
    (∀ n : Fin 64, s.isManager = true → n.val ≠ s.num → (s.ent n.val).loading = some checking → (s.ent n.val).state = 3 →
        (s.ent n.val).halted = false → s.mgr.lateC.contains s.mgr.nextC = false →
      s.completes (.loadCheckDone n 0) [.topo, .mgr, .counts, .notices, .ports, .sent, .regs] [Reg.NDL_STATUS, Reg.NDL_PATH_STATUS]
        (fun t => (t.ent n.val).fw = 2 ∧ (t.ent n.val).loading = some 10 ∧ t.mgr.cfg = [(s.mgr.nextC, { dst := n.val, use := .load n.val, time := s.now })])) ∧
    ((∀ k < 4, s.tierBusy k = false) →
      s.completes (.reboot .cfgWarden) [.power, .image, .faults, .regs, .counts, .chans, .pcs, .blaze]
        (Reg.BOOT_STATUS :: Reg.BLAZE_STATUS :: (List.range 32).map Reg.CH_STATUS)
        (fun t => t.power.phase = .starting ∧ t.power.kind = 2 ∧ t.power.fw = 0 ∧ t.power.items = 10 ∧ t.image = {} ∧ t.flt.windows = [] ∧
          t.fld Reg.BOOT_STATUS F.BOOT_STATUS_REBOOTED = 1 ∧ t.fld Reg.BOOT_STATUS F.BOOT_STATUS_START_DONE = 0)) ∧
    (∀ path : Path, path ≠ .cfgWarden →
      s.completes (.reboot path) [.regs] [Reg.MBX_ACC_STATUS] (fun t => t.fld Reg.MBX_ACC_STATUS F.MBX_ACC_STATUS_RO_WRITE = 1)) ∧
    (∀ path : Path, s.isManager = true →
      s.completes (.ownerLock path) [.regs] [Reg.BOOT_STATUS] (fun t => t.fld Reg.BOOT_STATUS F.BOOT_STATUS_OWNER_LOCK = 1)) ∧
    (∀ (path : Path) (mask : Fin 16),
      s.completes (.release path mask) [.regs, .tiers] [Reg.BOOT_CTL]
        (fun t => t.fld Reg.BOOT_CTL F.BOOT_CTL_RELEASE = mask.val ∧
          ∀ k < 4, t.tier k = { s.tier k with released := bit mask.val k && ((s.tier k).released || !s.tierBusy k) }))

/-- R18, R19, R22, R60, R62: the manager's walk and ENUM_SETTLE: before ENUM_SETTLE a walk is kept; after it the devices are numbered in the
order of R19, the manager takes number 0, and ENUM_DONE is set. -/
def Obligations.Enumeration : Prop :=
  ∀ s : State, s.walks = true → s.enumDone = false → s.still →
    (∀ w : WalkRec, s.topo.settled = false →
      s.completes (.enumerationWalk w) [.topo] [] (fun t => t.topo = { s.topo with walk := some w })) ∧
    (s.topo.walk = none →
      s.completes .enumSettleExpiry [.topo] [] (fun t => t.topo = { s.topo with settled := true })) ∧
    (∀ w : WalkRec, s.topo.settled = true → (∀ d ∈ walkDevices w, d.serial.toNat ≠ s.id.serial) →
      s.completes (.enumerationWalk w) [.topo, .mgr, .regs, .ports, .sent, .counts, .notices]
        ([Reg.IDENT_DEVNUM, Reg.IDENT_STATUS, Reg.TOPO_STATUS, Reg.TOPO_COUNT, Reg.TOPO_PLAN_TRUNK, Reg.NDL_STATUS, Reg.NDL_PATH_STATUS] ++
          (List.range 14).map Reg.TOPO_PLAN_SPUR)
        (fun t => t.fld Reg.TOPO_STATUS F.TOPO_STATUS_ENUM_DONE = 1 ∧ t.num = 0 ∧ t.numValid = true ∧ t.topo.walk = some w ∧
          (t.ent 0).serial = s.id.serial ∧
          ∀ (k : Nat) (d : DevRec × Nat × Nat × Nat), (numbering w)[k]? = some d →
            (t.ent (k + 1)).valid = true ∧ (t.ent (k + 1)).serial = d.1.serial.toNat)) ∧
    (∀ w : WalkRec, s.topo.walk = some w → (∀ d ∈ walkDevices w, d.serial.toNat ≠ s.id.serial) →
      s.completes .enumSettleExpiry [.topo, .mgr, .regs, .ports, .sent, .counts, .notices]
        ([Reg.IDENT_DEVNUM, Reg.IDENT_STATUS, Reg.TOPO_STATUS, Reg.TOPO_COUNT, Reg.TOPO_PLAN_TRUNK, Reg.NDL_STATUS, Reg.NDL_PATH_STATUS] ++
          (List.range 14).map Reg.TOPO_PLAN_SPUR)
        (fun t => t.fld Reg.TOPO_STATUS F.TOPO_STATUS_ENUM_DONE = 1 ∧ t.num = 0 ∧ t.numValid = true ∧ t.topo.settled = true ∧
          (t.ent 0).serial = s.id.serial ∧
          ∀ (k : Nat) (d : DevRec × Nat × Nat × Nat), (numbering w)[k]? = some d →
            (t.ent (k + 1)).valid = true ∧ (t.ent (k + 1)).serial = d.1.serial.toNat))

/-- R23, R25, R63, R507: the re-survey, the update of the table, a device that returns, and the plan. -/
def Obligations.Resurvey : Prop :=
  ∀ s : State, s.still → s.up → s.isManager = true → s.num = 0 →
    (s.walks = true → s.enumDone = true →
      s.completes .resurvey [.topo, .regs] [Reg.TOPO_STATUS]
        (fun t => t.fld Reg.TOPO_STATUS F.TOPO_STATUS_UNSETTLED = 1 ∧ t.topo = { s.topo with settling := true })) ∧
    (∀ w : WalkRec, s.walks = true → s.enumDone = true → s.que.descs = [] → s.mgr.reqs = [] → s.mgr.merges = [] → s.mgr.ingress = [] →
        (∀ e ∈ s.topo.ents, e.1 < 64 ∧ e.2.loading = none ∧ e.2.halted = false) →
      s.completes (.topologyTableUpdate w) [.topo, .mgr, .regs, .ports, .sent, .counts, .notices]
        [Reg.TOPO_STATUS, Reg.TOPO_COUNT, Reg.NDL_STATUS, Reg.NDL_PATH_STATUS]
        (fun t => t.fld Reg.TOPO_STATUS F.TOPO_STATUS_UNSETTLED = 0 ∧ t.topo.settling = false ∧ t.topo.walk = some w)) ∧
    (∀ (n : Fin 64) (serial : BitVec 64), s.walks = true → s.enumDone = true → n.val ≠ 0 → (s.ent n.val).valid = true →
        (s.ent n.val).serial ≠ serial.toNat →
      s.completes (.returning n serial) [.regs] [Reg.TOPO_STATUS] (fun t => t.fld Reg.TOPO_STATUS F.TOPO_STATUS_UNNUMBERED = 1)) ∧
    (∀ (n : Fin 64) (serial : BitVec 64), s.walks = true → s.enumDone = true → n.val ≠ 0 → (s.ent n.val).valid = true →
        (s.ent n.val).serial = serial.toNat → (s.ent n.val).halted = false → (s.ent n.val).state ≠ 0 →
        ((s.ent n.val).state = 3 → s.mgr.reqs = [] ∧ s.mgr.merges = [] ∧ s.que.descs = []) → s.mgr.lateC.contains s.mgr.nextC = false →
      s.completes (.returning n serial) [.topo, .mgr, .regs, .ports, .sent, .counts, .notices] [Reg.TOPO_STATUS, Reg.NDL_STATUS, Reg.NDL_PATH_STATUS]
        (fun t => (t.ent n.val).state = 3 ∧ (t.ent n.val).loading = none ∧
          t.mgr.cfg = [(s.mgr.nextC, { dst := n.val, use := .devnum n.val, time := s.now })])) ∧
    (∀ path : Path, ones 16 ((s.reg Reg.TOPO_PLAN_TRUNK).toNat / 2 ^ 16) ≤ 15 →
        (∀ j < 14, ones 12 ((s.reg (Reg.TOPO_PLAN_SPUR j)).toNat / 2 ^ 16) ≤ 6) →
      s.completes (.planCommit path) [.topo, .regs] [Reg.TOPO_PLAN_CTL, Reg.TOPO_STATUS]
        (fun t => t.topo.trunk = s.reg Reg.TOPO_PLAN_TRUNK ∧ t.topo.adopted = true ∧ t.fld Reg.TOPO_PLAN_CTL F.TOPO_PLAN_CTL_AUTO = 0 ∧
          (s.walks = true → s.enumDone = true → t.fld Reg.TOPO_STATUS F.TOPO_STATUS_UNSETTLED = 1))) ∧
    (∀ path : Path, (15 < ones 16 ((s.reg Reg.TOPO_PLAN_TRUNK).toNat / 2 ^ 16) ∨
        ∃ j < 14, 6 < ones 12 ((s.reg (Reg.TOPO_PLAN_SPUR j)).toNat / 2 ^ 16)) →
      s.completes (.planCommit path) [.regs] [Reg.TOPO_STATUS] (fun t => t.fld Reg.TOPO_STATUS F.TOPO_STATUS_LIMIT = 1))

/-- R48, R49, R51 to R54, R60, R504: a write of a register stores its fields at their nearest limit; an alias changes its bit alone; a status
register loses the latched flags written as 1 where SEQ matches and gains STALE where it does not; DEVNUM is taken from the wardens alone. -/
def Obligations.RegisterWrites : Prop :=
  ∀ (s : State) (path : Path), s.up → s.still →
    (∀ (a : Nat) (b : Block) (o : Nat) (r : RegRow) (w : Word), a % 4 = 0 → a < 2 ^ 24 → s.resolve a = .ok (b, o, r) → r.status = false →
        (b = .ndl ∨ b = .therm ∨ ∃ n : Nat, b = .ch n) → rsvBroken (fun _ => true) w (s.reg a) r.fields = false →
        (∀ f ∈ r.fields, (f.ty = .ro ∨ f.ty = .rsq) → f.get w = f.get (s.regView b o a)) →
      s.completes (.registerWrite path a w) [.regs, .effects] [a]
        (fun t => ∀ f ∈ r.fields, f.get (t.reg a) = if f.ty = .rw then max f.least (min f.most (f.get w)) else f.get (s.reg a))) ∧
    (∀ w : Word, s.completes (.registerWrite path Reg.NDL_NTC_EN w) [.regs] [Reg.NDL_NTC_EN] (fun t => t.reg Reg.NDL_NTC_EN = w)) ∧
    (∀ w : Word, w.toNat / 1024 = (s.reg Reg.NDL_CFG_TMO).toNat / 1024 →
      s.completes (.registerWrite path Reg.NDL_CFG_TMO w) [.regs] [Reg.NDL_CFG_TMO]
        (fun t => t.fld Reg.NDL_CFG_TMO F.NDL_CFG_TMO_TMO = max 10 (min 1000 (w.toNat % 1024)))) ∧
    (∀ (k : Fin 32) (w : Word),
      s.completes (.aliasWrite path (2 ^ 24 + Reg.NDL_NTC_EN / 4 * 128 + 4 * k.val) w) [.regs] [Reg.NDL_NTC_EN]
        (fun t => (t.reg Reg.NDL_NTC_EN).getLsbD k.val = w.getLsbD 0 ∧
          ∀ j : Nat, j ≠ k.val → (t.reg Reg.NDL_NTC_EN).getLsbD j = (s.reg Reg.NDL_NTC_EN).getLsbD j)) ∧
    (∀ (a : Nat) (b : Block) (o : Nat) (r : RegRow) (w : Word), a % 4 = 0 → a < 2 ^ 24 → s.resolve a = .ok (b, o, r) → s.rawView a = none →
        r.status = true → seqFld.get w = seqFld.get (s.reg a) →
      s.completes (.statusWrite path a w) [.regs] [a]
        (fun t => ∀ k < 32, (t.reg a).getLsbD k =
          ((s.reg a).getLsbD k && !(r.fields.any (fun f => f.ty == .rsq && decide (f.bits.lo ≤ k) && decide (k ≤ f.bits.hi)) && w.getLsbD k)))) ∧
    (∀ (a : Nat) (b : Block) (o : Nat) (r : RegRow) (w : Word), a % 4 = 0 → a < 2 ^ 24 → s.resolve a = .ok (b, o, r) → s.rawView a = none →
        r.status = true → seqFld.get w ≠ seqFld.get (s.reg a) →
      s.completes (.statusWrite path a w) [.regs] [a]
        (fun t => t.fld a staleFld = 1 ∧ ∀ k < 32, k ≠ 15 → (t.reg a).getLsbD k = (s.reg a).getLsbD k)) ∧
    (∀ w : Word, (path = .ownWarden ∨ path = .cfgWarden) → w.toNat / 128 = (s.reg Reg.IDENT_DEVNUM).toNat / 128 →
      s.completes (.devnumWrite path w) [.regs] [Reg.IDENT_DEVNUM, Reg.IDENT_STATUS]
        (fun t => t.reg Reg.IDENT_DEVNUM = w ∧ t.num = w.toNat % 64 ∧ t.fld Reg.IDENT_STATUS F.IDENT_STATUS_NUM_CHANGED = 1)) ∧
    (∀ w : Word, path ≠ .ownWarden → path ≠ .cfgWarden → w.toNat / 128 = (s.reg Reg.IDENT_DEVNUM).toNat / 128 →
      s.completes (.devnumWrite path w) [.regs] [Reg.MBX_ACC_STATUS] (fun t => t.num = s.num ∧ t.numValid = s.numValid))

/-- The model's choice (notes/assumptions/2.md): a write that gives an RSV bit another value, which R53 gives no effect, ends in the fault
`rsvWritten`; it is the only way in which a command does not complete, and every command but those that write a whole word of the sender's choice
(DEVNUM_WRITE, REGISTER_WRITE, STATUS_WRITE, I3C_PRIVATE_WRITE, CWR, SVC_LIMIT_WRITE, SVC_REACH_WRITE, PIN_WRITE, EYE_SCAN_START, and
ALIAS_WRITE at an address that is no alias) completes in every state. -/
def Obligations.ReservedWrite : Prop :=
  (∀ (s : State) (path : Path) (a : Nat) (b : Block) (o : Nat) (r : RegRow) (w : Word), s.up → a % 4 = 0 → a < 2 ^ 24 →
      s.resolve a = .ok (b, o, r) → s.rawView a = none → r.status = false → (b = .mbx → s.mbxBusy path = false) →
      rsvBroken (fun _ => true) w (s.reg (bankAddr path b o a)) r.fields = true →
    exec (.registerWrite path a w) s = .fault .rsvWritten) ∧
  (∀ (s : State) (c : Instr), writesWord c = false → ∃ t : State, exec c s = .next t ∧ t.pending = s.pending ∧ t.now = s.now ∧ t.tick = s.tick) ∧
  ∀ (s : State) (c : Instr), (∃ t : State, exec c s = .next t ∧ t.pending = s.pending ∧ t.now = s.now ∧ t.tick = s.tick) ∨
    exec c s = .fault .rsvWritten

/-- R54, R323: apply points: the waiting fields of a channel or of a port take effect together at its boundary, and a broadcast sets those of
all eight channels of its tier, whose boundary is that of its channel 0. -/
def Obligations.ApplyPoints : Prop :=
  ∀ s : State, s.awake = true → s.calm →
    (∀ (n : Fin 32) (u : ApplyUnit), Reg.CH_CTL n.val ∈ s.regs.wait → (u = .chan n ∨ ∃ k : Fin 4, n.val = 8 * k.val ∧ u = .tier k) →
        (n.val % 8 = 0 → s.fld (Reg.CMN_STATUS (n.val / 8)) F.CMN_STATUS_BCAST_PEND = 0) →
      s.completes (.applyPoint u) [.effects] []
        (fun t => t.effReg (Reg.CH_CTL n.val) = s.reg (Reg.CH_CTL n.val) ∧ t.regs.wait = s.regs.wait.filter (· != Reg.CH_CTL n.val))) ∧
    (∀ (k : Fin 4) (u : ApplyUnit), s.fld (Reg.CMN_STATUS k.val) F.CMN_STATUS_BCAST_PEND = 1 →
        (u = .tier k ∨ ∃ n : Fin 32, n.val = 8 * k.val ∧ u = .chan n) →
      s.completes (.applyPoint u) [.regs, .effects] (Reg.CMN_STATUS k.val :: (List.range 8).map (fun c => Reg.CH_CTL (8 * k.val + c)))
        (fun t => t.fld (Reg.CMN_STATUS k.val) F.CMN_STATUS_BCAST_PEND = 0 ∧
          ∀ c < 8, t.fld (Reg.CH_CTL (8 * k.val + c)) F.CH_CTL_PASR_KEEP = s.fld (Reg.CMN_BCAST k.val) F.CMN_BCAST_PASR_KEEP ∧
            t.effReg (Reg.CH_CTL (8 * k.val + c)) = t.reg (Reg.CH_CTL (8 * k.val + c)))) ∧
    (∀ p : Port, Reg.LINK_PRBS_CTL p ∈ s.regs.wait → Reg.LINK_CTL p ∉ s.regs.wait → (s.port p).sends = true →
      s.completes (.applyPoint (.port p)) [.effects, .ports, .regs, .draws] ((List.range 8).map (Reg.LINK_PRBS_ERR p))
        (fun t => t.effReg (Reg.LINK_PRBS_CTL p) = s.reg (Reg.LINK_PRBS_CTL p) ∧ (t.port p).tstate = (s.port p).tstate ∧
          t.regs.wait = s.regs.wait.filter (· != Reg.LINK_PRBS_CTL p))) ∧
    (∀ u : ApplyUnit, (u = .census ∨ u = .reset ∨ ∃ q : Nat, u = .queue q) → s.regs.wait = [] → s.completes (.applyPoint u) [] [] (fun _ => True))

/-- R43: I3C: a private write of eight bytes is one register write, other lengths have no effect; a private read sends the register's four
bytes and 0xFF beyond them; a device takes its dynamic address. -/
def Obligations.I3cAccesses : Prop :=
  ∀ s : State, s.up → s.still →
    (∀ w : Word, s.completes (.i3cPrivateWrite (beBytes 4 Reg.NDL_NTC_EN ++ beBytes 4 w.toNat)) [.regs] [Reg.NDL_NTC_EN]
      (fun t => t.reg Reg.NDL_NTC_EN = w)) ∧
    (∀ bytes : List Byte, bytes.length ≠ 8 → s.completes (.i3cPrivateWrite bytes) [] [] (fun _ => True)) ∧
    (∀ count : Nat, 4 ≤ count →
      s.completes (.i3cPrivateRead (beBytes 4 Reg.NDL_NTC_EN) count) [.id] []
        (fun t => t.id = { s.id with i3cOut := beBytes 4 (s.reg Reg.NDL_NTC_EN).toNat ++ List.replicate (count - 4) 0xFF })) ∧
    (∀ static dynamic : BitVec 7, static.toNat = s.i3cStatic →
      s.completes (.setdasa static dynamic) [.id] [] (fun t => t.id = { s.id with i3cDyn := some dynamic })) ∧
    (∀ static dynamic : BitVec 7, static.toNat ≠ s.i3cStatic → s.completes (.setdasa static dynamic) [] [] (fun _ => True)) ∧
    (∀ dynamic : BitVec 7, s.id.i3cDyn = none →
      s.completes (.entdaa dynamic) [.id] [] (fun t => t.id = { s.id with i3cDyn := some dynamic }))

/-- R57, R58, R59, R223: the mailbox of each path: REQ starts a transfer, a write of the doorbell base is kept for the next ENABLE; the transfer ends:
BUSY clears, an error stands in ERR, the words of a good read stand in DATA and LEN. -/
def Obligations.Mailbox : Prop :=
  (
    ∀ (s : State) (path : Path), s.up → s.still → s.mbxBusy path = false →
      (∀ tag : Byte, s.completes (.mbxRead path tag) [.regs, .mbx] [mbxReg path Reg.MBX_CTL]
        (fun t => t.mbxBusy path = true ∧ t.fld (mbxReg path Reg.MBX_CTL) F.MBX_CTL_TAG = tag.toNat ∧
          t.fld (mbxReg path Reg.MBX_CTL) F.MBX_CTL_VALID = 0 ∧ ∃ (e : Nat) (l : List Word), (t.mbx path).result = some (e, 0, l))) ∧
      (∀ tag : Byte, s.isManager = true → mbxBlock (F.MBX_SEL_BLOCK.get (s.reg (mbxReg path Reg.MBX_SEL))) = .qctx →
          F.MBX_SEL_ITEM.get (s.reg (mbxReg path Reg.MBX_SEL)) = 0 → F.MBX_SEL_PAGE.get (s.reg (mbxReg path Reg.MBX_SEL)) = 0 →
          (s.reg (mbxReg path (Reg.MBX_DATA 0))).toNat % 2 ^ 22 = 0 →
        s.completes (.mbxWrite path tag) [.regs, .mbx, .que] [mbxReg path Reg.MBX_CTL]
          (fun t => t.mbxBusy path = true ∧ (t.mbx path).result = some (0, 1, []) ∧
            t.que = { s.que with dbNew := (s.reg (mbxReg path (Reg.MBX_DATA 0))).toNat + (s.reg (mbxReg path (Reg.MBX_DATA 1))).toNat * 2 ^ 32 })) ∧
      (∀ tag : Byte, mbxBlock (F.MBX_SEL_BLOCK.get (s.reg (mbxReg path Reg.MBX_SEL))) = .none →
        s.completes (.mbxWrite path tag) [.regs, .mbx] [mbxReg path Reg.MBX_CTL]
          (fun t => t.mbxBusy path = true ∧ (t.mbx path).result = some (mbxUnlisted, 1, [])))) ∧
  (
    ∀ (s : State) (path : Path),
      (∀ l : List Word, (s.mbx path).result = some (0, 0, l) → (s.mbx path).busyWr = false → l.length ≤ 8 →
        s.completes (.mbxTransferDone path) [.regs, .mbx] (mbxReg path Reg.MBX_CTL :: (List.range 8).map (fun k => mbxReg path (Reg.MBX_DATA k)))
          (fun t => t.mbxBusy path = false ∧ t.fld (mbxReg path Reg.MBX_CTL) F.MBX_CTL_VALID = 1 ∧
            t.fld (mbxReg path Reg.MBX_CTL) F.MBX_CTL_ERR = 0 ∧ t.fld (mbxReg path Reg.MBX_CTL) F.MBX_CTL_LEN = l.length ∧
            (∀ (k : Nat) (w : Word), l[k]? = some w → t.reg (mbxReg path (Reg.MBX_DATA k)) = w) ∧ (t.mbx path).result = none)) ∧
      (∀ (e wr : Nat) (l : List Word), (s.mbx path).result = some (e, wr, l) → e ≠ 0 → e < 8 →
        s.completes (.mbxTransferDone path) [.regs, .mbx] [mbxReg path Reg.MBX_CTL]
          (fun t => t.mbxBusy path = false ∧ t.fld (mbxReg path Reg.MBX_CTL) F.MBX_CTL_VALID = 0 ∧
            t.fld (mbxReg path Reg.MBX_CTL) F.MBX_CTL_ERR = e ∧ (t.mbx path).result = none)))

/-- R270, R285, R286: the end of a map write's initialisation, and the accesses of the test role: a read returns the line as it stands, a write
makes it plain, and a line that R285 protects is refused with 0x5A5AA5A5. -/
def Obligations.MapAndTestAccesses : Prop :=
  ∀ s : State, s.up → s.regs.wait = [] → s.net.inbox = [] → s.que.job = none → s.mgr.cfg = [] → s.mgr.waitC = [] → s.mgr.ingress = [] →
      s.que.descs = [] → s.groupBusy = false → s.engBusy = false → s.copyBusy = false →
    (∀ j : MapJob, s.prot.jobs = [j] → j.sent = true → j.dev = s.num →
      s.completes .mapInitDone [.prot, .mem, .pcs, .chans, .tiers, .regs] [Reg.PROT_STATUS]
        (fun t => t.prot = { s.prot with jobs := [], own := mapPut j.entry j.new s.prot.own, maps := if s.isManager then mapPut (j.dev * 256 + j.entry) j.new s.prot.maps else s.prot.maps } ∧ t.mem = (s.mapFill j.new).mem ∧
          t.fld Reg.PROT_STATUS F.PROT_STATUS_MAP_BUSY = 0)) ∧
    (∀ line : Nat, s.isTest = true → s.power.memTested = true → line < Config.userLines → s.debugRefused line = false →
      s.completes (.jtagMemoryAccess line none) [.prot] [] (fun t => t.prot = { s.prot with jtagOut := (s.lineNow (s.linePlace line)).1 })) ∧
    (∀ line : Nat, s.isTest = true → s.power.memTested = true → line < Config.userLines → s.debugRefused line = true → s.noteOnly 87 0 →
      s.completes (.jtagMemoryAccess line none) [.prot, .blaze, .regs, .counts, .notices, .faults]
        ([Reg.PROT_DBG_ADDR, Reg.PROT_STATUS] ++ eventRegs)
        (fun t => t.prot = { s.prot with jtagOut := refusedBytes } ∧ t.fld Reg.PROT_STATUS F.PROT_STATUS_DEBUG_BLOCK = 1)) ∧
    (∀ (line : Nat) (d : List Byte), s.isTest = true → s.power.memTested = true → line < Config.userLines → s.debugRefused line = false →
      s.completes (.jtagMemoryAccess line (some d)) [.mem, .pcs, .chans, .tiers] []
        (fun t => t.lineNow (s.linePlace line) = ((d ++ zeros 128).take 128, mdWord 1 false 0))) ∧
    (∀ path : Path, s.isTest = true → s.power.memTested = true → s.prot.win = none → s.prot.jobs = [] →
      s.completes (.testwinRead path) [.prot, .regs] [] (fun t => t.prot = { s.prot with win := some false })) ∧
    (∀ path : Path, s.isTest = true → s.power.memTested = true → s.prot.win = none → s.prot.jobs = [] →
      s.completes (.testwinWrite path) [.prot, .regs] [] (fun t => t.prot = { s.prot with win := some true })) ∧
    (s.prot.win = some false → s.fld Reg.TESTWIN_LINE F.TESTWIN_LINE_LINE < Config.userLines →
        s.debugRefused (s.fld Reg.TESTWIN_LINE F.TESTWIN_LINE_LINE) = false →
        mdState (s.lineNow (s.linePlace (s.fld Reg.TESTWIN_LINE F.TESTWIN_LINE_LINE))).2 < 4 →
        mdPoison (s.lineNow (s.linePlace (s.fld Reg.TESTWIN_LINE F.TESTWIN_LINE_LINE))).2 = false →
      s.completes (.testwinAccessDone []) [.prot, .regs] (Reg.TESTWIN_CTL :: (List.range 32).map Reg.TESTWIN_DATA)
        (fun t => t.prot = { s.prot with win := none } ∧ t.fld Reg.TESTWIN_CTL F.TESTWIN_CTL_REFUSED = 0 ∧
          ∀ k < 32, t.reg (Reg.TESTWIN_DATA k) =
            BitVec.ofNat 32 (leAt (s.lineNow (s.linePlace (s.fld Reg.TESTWIN_LINE F.TESTWIN_LINE_LINE))).1 (4 * k) 4))) ∧
    (s.prot.win = some true → s.fld Reg.TESTWIN_LINE F.TESTWIN_LINE_LINE < Config.userLines →
        s.debugRefused (s.fld Reg.TESTWIN_LINE F.TESTWIN_LINE_LINE) = false →
      s.completes (.testwinAccessDone []) [.prot, .regs, .mem, .pcs, .chans, .tiers] [Reg.TESTWIN_CTL]
        (fun t => t.prot = { s.prot with win := none } ∧ t.fld Reg.TESTWIN_CTL F.TESTWIN_CTL_REFUSED = 0 ∧
          t.lineNow (s.linePlace (s.fld Reg.TESTWIN_LINE F.TESTWIN_LINE_LINE)) =
            ((List.range 32).flatMap (fun k => leBytes 4 (s.reg (Reg.TESTWIN_DATA k)).toNat), mdWord 1 false 0))) ∧
    (s.prot.win = some false → s.fld Reg.TESTWIN_LINE F.TESTWIN_LINE_LINE < Config.userLines →
        s.debugRefused (s.fld Reg.TESTWIN_LINE F.TESTWIN_LINE_LINE) = true → s.noteOnly 87 0 →
      s.completes (.testwinAccessDone []) [.prot, .blaze, .regs, .counts, .notices, .faults]
        ([Reg.TESTWIN_CTL, Reg.PROT_DBG_ADDR, Reg.PROT_STATUS] ++ (List.range 32).map Reg.TESTWIN_DATA ++ eventRegs)
        (fun t => t.prot = { s.prot with win := none } ∧ t.fld Reg.TESTWIN_CTL F.TESTWIN_CTL_REFUSED = 1 ∧
          t.fld Reg.PROT_STATUS F.PROT_STATUS_DEBUG_BLOCK = 1 ∧ ∀ k < 32, t.reg (Reg.TESTWIN_DATA k) = 0x5A5AA5A5))

/-- R78, R80, R81, R85, R86, R506: the training state that each event of a port leads to, and that a retraining of an ACTIVE port, or by its partner, is flagged. -/
def Obligations.PortHunting : Prop :=
  ∀ (s : State) (p : Port), s.awake = true → s.regs.wait = [] →
    ((s.port p).tstate = .huntFull → (s.port p).stepping = false →
      s.completes (.huntTimeout p) portParts (portRegs p)
        (fun t => (t.port p).tstate = .huntHalf ∧ (t.port p).full = false)) ∧
    (((s.port p).tstate = .huntFull ∨ (s.port p).tstate = .huntHalf) → (s.port p).stepping = false →
        1 ≤ (s.port p).locked.length → (s.port p).locked.length < 4 →
      s.completes (.downEntry p) portParts (portRegs p)
        (fun t => (t.port p).tstate = .down)) ∧
    ((s.port p).tstate = .down →
      s.completes (.downRetry p) portParts (portRegs p)
        (fun t => (t.port p).tstate = if s.maxRate p then .huntFull else .huntHalf)) ∧
    ((s.port p).tstate = .cap →
      s.completes (.capTimeout p) portParts (portRegs p)
        (fun t => (t.port p).tstate = (if (s.port p).full then .huntFull else .huntHalf) ∧ (t.port p).gotCap = false ∧
          t.fld (Reg.LINK_STATUS p) F.LINK_STATUS_RETRAIN = 1)) ∧
    (((s.port p).tstate = .cap ∨ (s.port p).tstate = .step ∨ (s.port p).tstate = .active) →
      s.completes (.trainBlock p) portParts (portRegs p)
        (fun t => (t.port p).tstate = (if (s.port p).full then .huntFull else .huntHalf) ∧ (t.port p).gotCap = false ∧
          t.fld (Reg.LINK_STATUS p) F.LINK_STATUS_RETRAIN = 1)) ∧
    (((s.port p).tstate = .cap ∨ ((s.port p).tstate = .step ∧ (s.port p).stepping = false) ∨ (s.port p).tstate = .active) →
      s.completes (.lossOfSignal p) portParts (portRegs p)
        (fun t => (t.port p).tstate = (if s.lastRate p then .huntFull else .huntHalf) ∧ (t.port p).locked = [] ∧
          ((s.port p).tstate = .active → t.fld (Reg.LINK_STATUS p) F.LINK_STATUS_RETRAIN = 1))) ∧
    (((s.port p).tstate = .huntFull ∨ (s.port p).tstate = .huntHalf ∨ (s.port p).tstate = .down) →
      s.completes (.lossOfSignal p) [.ports] []
        (fun t => (t.port p).tstate = (s.port p).tstate ∧ (∀ l < 8, (AMap.get l ({} : LaneS) (t.port p).lanes).lock = false) ∧
          ∀ q : Port, q ≠ p → t.port q = s.port q)) ∧
    ((s.port p).tstate = .step → (s.port p).stepping = true →
      s.completes (.stepSilenceEnd p) portParts (portRegs p)
        (fun t => (t.port p).tstate = .huntFull ∧ (t.port p).stepping = true)) ∧
    ((s.port p).tstate = .huntFull → (s.port p).stepping = true →
      s.completes (.stepUpFail p) portParts (portRegs p)
        (fun t => (t.port p).tstate = .huntHalf ∧ capSerial (s.port p).peerCap ∈ (t.port p).noStep))

/-- R79 to R81: a lane that locks or loses lock, and the clock lane falling silent. -/
def Obligations.PortLanes : Prop :=
  ∀ (s : State) (p : Port), s.awake = true → s.regs.wait = [] →
    (∀ (lane peer : Fin 8) (inv : Bool), (s.port p).tstate ∉ [.off, .prbs, .quiet, .step] → bit (s.port p).excluded lane.val = false →
        (s.port p).gap = false →
      s.completes (.laneLock p lane peer inv) [.ports, .draws] []
        (fun t => (AMap.get lane.val ({} : LaneS) (t.port p).lanes).lock = true ∧ (AMap.get lane.val ({} : LaneS) (t.port p).lanes).peer = peer.val ∧
          (AMap.get lane.val ({} : LaneS) (t.port p).lanes).inverted = inv ∧
          (((s.port p).tstate = .huntFull ∨ (s.port p).tstate = .huntHalf) → 4 ≤ (t.port p).locked.length → (t.port p).tstate = .cap) ∧
          ∀ q : Port, q ≠ p → t.port q = s.port q)) ∧
    (∀ lane : Fin 8, (AMap.get lane.val ({} : LaneS) (s.port p).lanes).lock = true →
      (((s.port p).tstate = .huntFull ∨ (s.port p).tstate = .huntHalf) →
        s.completes (.laneLockLoss p lane) [.ports] []
          (fun t => (AMap.get lane.val ({} : LaneS) (t.port p).lanes).lock = false ∧ (t.port p).tstate = (s.port p).tstate ∧
            ∀ q : Port, q ≠ p → t.port q = s.port q)) ∧
      (((s.port p).tstate = .cap ∨ (s.port p).tstate = .step) →
        s.completes (.laneLockLoss p lane) portParts (portRegs p)
          (fun t => (t.port p).tstate = (if (s.port p).full then .huntFull else .huntHalf) ∧
            t.fld (Reg.LINK_STATUS p) F.LINK_STATUS_RETRAIN = 1)) ∧
      ((s.port p).tstate = .active → s.mild (22 + 4 * portNo p) (portNo p) →
        s.completes (.laneLockLoss p lane) (portParts ++ mildParts) (portRegs p ++ eventRegs)
          (fun t => (t.port p).tstate = (if (s.port p).full then .huntFull else .huntHalf) ∧
            t.fld (Reg.LINK_STATUS p) F.LINK_STATUS_RETRAIN = 1 ∧ t.fld (Reg.LINK_STATUS p) F.LINK_STATUS_DOWN_EVT = 1))) ∧
    (s.fwdClk p = true →
      s.completes (.clockLaneSilent p) [.ports] []
        (fun t => (t.port p).clkLive = false ∧ (t.port p).clk = false ∧ (t.port p).tstate = (s.port p).tstate ∧ ∀ q : Port, q ≠ p → t.port q = s.port q))

/-- R13, R81 to R85: a capability block, the end of the exchange, and the step to the higher rate. Where a link that had
a partner begins anew, with another one or without RESUME_VALID, PEER_CHANGED is set. -/
def Obligations.PortCapability : Prop :=
  ∀ (s : State) (p : Port), s.awake = true → s.regs.wait = [] →
    (∀ b : List Byte, (s.port p).tstate = .cap → b.length = 32 → leAt b 0 1 = 0x82 → leAt b 28 4 = crc32c (b.take 28) →
        s.fld Reg.IDENT_NDL_CAP F.IDENT_NDL_CAP_VERSIONS &&& (leAt b 2 1 % 8) ≠ 0 →
      s.completes (.capBlock p b) [.ports, .regs] [Reg.TOPO_STATUS]
        (fun t => (t.port p).peerCap = b ∧ (t.port p).gotCap = true ∧ (t.port p).tstate = .cap ∧
          bit (s.fld Reg.IDENT_NDL_CAP F.IDENT_NDL_CAP_VERSIONS &&& (leAt b 2 1 % 8)) (t.port p).version = true ∧
          (∀ v : Nat, (t.port p).version < v → bit (s.fld Reg.IDENT_NDL_CAP F.IDENT_NDL_CAP_VERSIONS &&& (leAt b 2 1 % 8)) v = false) ∧
          (s.capMiswired p b = true → (s.port p).peerCap ≠ b → t.fld Reg.TOPO_STATUS F.TOPO_STATUS_MISWIRE = 1) ∧
          ∀ q : Port, q ≠ p → t.port q = s.port q)) ∧
    (s.still → (s.port p).tstate = .cap → (s.port p).gotCap = true → (s.port p).gotSeen = true →
        widthOf (s.port p).sentMap (leAt (s.port p).peerCap 4 1) ≠ 0 →
        ((s.port p).full = true ∨ (∃ b ∈ [0, 1], bit (leAt (s.port p).peerCap 3 1) b = false ∨ bit (leAt (s.port p).ownCap 3 1) b = false) ∨
          bit (leAt (s.port p).peerCap 3 1) 7 = true ∨ bit (leAt (s.port p).ownCap 3 1) 7 = true) →
        ((s.upBase p).partner = none ∨ (s.upBase p).samePartner = true ∨ s.devicesBy p = []) →
      s.completes (.capExchangeDone p) (.sent :: portParts) (Reg.NDL_PATH_STATUS :: portRegs p)
        (fun t => (t.port p).tstate = .active ∧ (t.port p).width = widthOf (s.port p).sentMap (leAt (s.port p).peerCap 4 1) ∧
          (t.port p).partner = some (capSerial (s.port p).peerCap) ∧ t.fld (Reg.LINK_STATUS p) F.LINK_STATUS_UP = 1 ∧
          ((s.hostSide p = false ∨ s.portUp (otherHalf p) = false) → (s.upBase p).partner.isSome = true → (s.upBase p).samePartner = false →
            t.fld (Reg.LINK_STATUS p) F.LINK_STATUS_PEER_CHANGED = 1))) ∧
    (s.still → (s.port p).tstate = .cap → (s.port p).gotCap = true → (s.port p).gotSeen = true →
        widthOf (s.port p).sentMap (leAt (s.port p).peerCap 4 1) = 0 →
      s.completes (.capExchangeDone p) portParts (portRegs p) (fun t => (t.port p).tstate = .down)) ∧
    (s.still → (s.port p).tstate = .cap → (s.port p).gotCap = true → (s.port p).gotSeen = true →
        widthOf (s.port p).sentMap (leAt (s.port p).peerCap 4 1) ≠ 0 → (s.port p).full = false →
        (∀ b ∈ [0, 1], bit (leAt (s.port p).peerCap 3 1) b = true ∧ bit (leAt (s.port p).ownCap 3 1) b = true) →
        bit (leAt (s.port p).peerCap 3 1) 7 = false → bit (leAt (s.port p).ownCap 3 1) 7 = false →
      s.completes (.capExchangeDone p) [.ports] []
        (fun t => (t.port p).tstate = .step ∧ (t.port p).stepping = false ∧ ∀ q : Port, q ≠ p → t.port q = s.port q)) ∧
    ((s.port p).tstate = .step →
      s.completes (.stepFramesDone p) [.ports] []
        (fun t => (t.port p).tstate = .step ∧ (t.port p).stepping = true ∧ ∀ q : Port, q ≠ p → t.port q = s.port q))

/-- R66, R72 to R74, R79, R87, R88: rows and replay: what a row without an error, an ACK that is due, a repeated NAK, and the ACK, NAK and
REPLAY markers do. What arrives on a half of the bonded host port arrives on the half that carries it. -/
def Obligations.RowsAndReplay : Prop :=
  ∀ (s : State) (h p : Port), s.awake = true → s.regs.wait = [] → s.inPort h = p → (s.port p).tstate = .active →
    (∀ (frames : List (Nat × List Nat)) (l : List FrameS),
        frames.all (fun f => f.2.length == 685 && f.2.all (fun v => decide (v < 4))) = true →
        (∀ f ∈ frames.filterMap (s.frameRx h), f.got = some 0 ∧ f.blocks.any WBlock.bad = false ∧ ones Config.LOCK_HDRS f.after.hdrs < Config.LOSS_HDRS) →
        (s.rowErrors (frames.filterMap (s.frameRx h))).rowTraffic p (frames.filterMap (s.frameRx h)) = some l →
        (rowBlocks l).any WBlock.refused = false → ((s.port p).nak.isSome = true → (s.port p).gotReplay = true) →
      s.completes (.rowReceived h frames) [.ports] []
        (fun t => (t.port p).rxRows = (s.port p).rxRows + 1 ∧
          (t.port p).rxNext = (if (rowBlocks l).any WBlock.sequenced then ((s.port p).rxNext + 1) % 4096 else (s.port p).rxNext) ∧
          ∀ q : Port, q ≠ p → (frames.filterMap (s.frameRx h)).all (fun f => f.port != q) = true → t.port q = s.port q)) ∧
    ((s.port p).back.none? = true →
      s.completes (.ackDue h) [.ports, .sent] []
        (fun t => (t.port p).rxRows = 0 ∧ t.net.tx = s.net.tx ++ [(p, s.markerMsg p .ack (s.port p).rxNext)])) ∧
    (∀ k : Nat, (s.port p).nak = some k → (s.port p).gotReplay = false →
      s.completes (.nakRepeat h) [.ports, .sent, .counts, .regs] [Reg.NDL_PATH_STATUS]
        (fun t => (t.port p).nak = some (s.port p).rxNext ∧ t.net.tx = s.net.tx ++ [(p, s.markerMsg p .nak (s.port p).rxNext)])) ∧
    (∀ seq : Fin 4096, (seq.val = (s.port p).txSeq ∨ (s.port p).buffer.any (fun m => m.1 == seq.val) = true) → (s.port p).wait = [] →
        s.flt.notices.any (fun n => n.2.due) = false → s.flt.hostNtc = [] →
      s.completes (.ack h seq) [.ports, .regs, .power] [Reg.NDL_STATUS]
        (fun t => (t.port p).buffer = rowsFrom seq.val (s.port p).buffer ∧ ∀ q : Port, q ≠ p → t.port q = s.port q)) ∧
    (∀ seq : Fin 4096, (s.port p).nakSeen ≠ some seq.val → (seq.val = (s.port p).txSeq ∨ (s.port p).buffer.any (fun m => m.1 == seq.val) = true) →
      s.completes (.nak h seq) [.ports, .sent, .counts, .regs] [Reg.NDL_PATH_STATUS]
        (fun t => (t.port p).buffer = (s.port p).buffer ∧
          t.net.tx = s.net.tx ++ (p, s.markerMsg p .replay seq.val) :: (rowsFrom seq.val (s.port p).buffer).map (fun r => (p, r.2)))) ∧
    (∀ seq : Fin 4096, (s.port p).nak = some seq.val →
      s.completes (.replay h seq) [.ports] []
        (fun t => (t.port p).gotReplay = true ∧ (t.port p).nak = (s.port p).nak ∧ ∀ q : Port, q ≠ p → t.port q = s.port q))

/-- R74, R92, R386, R389, R390: a QUIET block, the end of an eye scan, an edge on a quiet port, and the retry of a wake. -/
def Obligations.PortQuiet : Prop :=
  ∀ (s : State) (p : Port), s.awake = true → s.regs.wait = [] →
    ((s.port p).tstate = .active →
      s.completes (.quiet p) portParts (portRegs p)
        (fun t => (t.port p).tstate = .quiet ∧ ∀ q : Port, q ≠ p → t.port q = s.port q)) ∧
    (∀ (sc : EyeScan) (obs : List EyeObs), s.still → (s.port p).scan = some sc → sc.bist = false →
      s.completes (.eyeScanDone p obs) [.ports, .regs]
        [Reg.LINK_STATUS p, Reg.LINK_EYE_RES p 0, Reg.LINK_EYE_RES p 1, Reg.LINK_EYE_RES p 2, Reg.LINK_EYE_RES p 3]
        (fun t => (t.port p).scan = none ∧ t.fld (Reg.LINK_STATUS p) F.LINK_STATUS_EYE_DONE = 1 ∧ ∀ q : Port, q ≠ p → t.port q = s.port q)) ∧
    (s.power.phase = .running → s.power.pstate = 2 → s.power.transit = false → s.power.entry = .none → (s.port p).tstate = .quiet →
      s.completes (.squelchEdge p) (.power :: .chans :: portParts)
        ((List.range 32).map Reg.CH_STATUS ++ allPorts.map Reg.LINK_STATUS ++ [Reg.NDL_STATUS])
        (fun t => t.power.transit = true ∧ t.power.target = 0 ∧ t.power.lastWake = 2 ∧
          (t.port p).tstate = if s.lastRate p then .huntFull else .huntHalf)) ∧
    ((s.port p).waking.isSome = true → ((s.port p).tstate = .huntFull ∨ (s.port p).tstate = .huntHalf) → (s.port p).gap = false →
        (s.port p).locked = [] →
      s.completes (.wakeRetry p) [.ports, .regs, .counts] [Reg.PWR_STATUS]
        (fun t => (t.port p).gap = true ∧ t.fld Reg.PWR_STATUS F.PWR_STATUS_WAKE_RETRY = 1 ∧ ∀ q : Port, q ≠ p → t.port q = s.port q)) ∧
    ((s.port p).gap = true →
      s.completes (.wakeGapEnd p) [.ports] []
        (fun t => (t.port p).gap = false ∧ (t.port p).waking = some s.now ∧ ∀ q : Port, q ≠ p → t.port q = s.port q))

/-- R54, R78, R86, R92, R94, R95: what the writes of a port's registers do: ENABLE, RETRAIN, STEP_UP, MODE, CLR and START; MODE waits for the row
boundary. -/
def Obligations.PortRegisters : Prop :=
  ∀ (s : State) (path : Path) (p : Port), s.up → s.present (.link p) = true → s.calm →
    (s.regs.wait = [] → s.portAllowed p = true → (s.port p).tstate = .off →
      s.completes (.linkEnable path p) portParts (Reg.LINK_CTL p :: portRegs p)
        (fun t => t.fld (Reg.LINK_CTL p) F.LINK_CTL_ENABLE = 1 ∧ (t.port p).tstate = if s.maxRate p then .huntFull else .huntHalf)) ∧
    (s.regs.wait = [] → (p = .e ∨ p = .w) → s.power.relays = false → s.power.alive = true → s.isTest = false → s.portLost p = false →
      s.completes (.linkEnable path p) [.power, .regs, .counts] [Reg.LINK_CTL p]
        (fun t => t.fld (Reg.LINK_CTL p) F.LINK_CTL_ENABLE = 1 ∧ t.power.relays = true ∧ t.power.relayAt = some s.now)) ∧
    (s.regs.wait = [] → (p = .e → (s.port .w).tstate = .off) → (p = .w → (s.port .e).tstate = .off) →
      s.completes (.linkDisable path p) (.power :: prbsParts) (Reg.LINK_CTL p :: prbsRegs p)
        (fun t => t.fld (Reg.LINK_CTL p) F.LINK_CTL_ENABLE = 0 ∧ (t.port p).tstate = .off ∧
          t.power.relays = if p = .e ∨ p = .w then false else s.power.relays)) ∧
    (s.regs.wait = [] → ((p = .e ∧ (s.port .w).tstate ≠ .off) ∨ (p = .w ∧ (s.port .e).tstate ≠ .off)) →
      s.completes (.linkDisable path p) [.regs] [Reg.LINK_CTL p] (fun t => t.fld (Reg.LINK_CTL p) F.LINK_CTL_ENABLE = 0)) ∧
    (s.regs.wait = [] → (s.port p).tstate ∈ [.cap, .step, .active, .huntFull, .huntHalf] →
      s.completes (.retrain path p) portParts (portRegs p)
        (fun t => (t.port p).tstate = (if (s.port p).full then .huntFull else .huntHalf) ∧ t.fld (Reg.LINK_STATUS p) F.LINK_STATUS_RETRAIN = 1)) ∧
    (s.regs.wait = [] → (s.port p).tstate ∈ [.cap, .step, .active, .huntFull, .huntHalf] →
      s.completes (.stepUp path p) portParts (portRegs p)
        (fun t => (t.port p).tstate = (if (s.port p).full then .huntFull else .huntHalf) ∧ (t.port p).noStep = [])) ∧
    (s.completes (.prbsEnter path p) [.regs, .effects] [Reg.LINK_CTL p]
        (fun t => t.fld (Reg.LINK_CTL p) F.LINK_CTL_MODE = 1 ∧ Reg.LINK_CTL p ∈ t.regs.wait ∧ t.regs.eff = s.regs.eff)) ∧
    (s.completes (.prbsExit path p) [.regs, .effects] [Reg.LINK_CTL p]
        (fun t => t.fld (Reg.LINK_CTL p) F.LINK_CTL_MODE = 0 ∧ Reg.LINK_CTL p ∈ t.regs.wait ∧ t.regs.eff = s.regs.eff)) ∧
    (Reg.LINK_CTL p ∈ s.regs.wait → Reg.LINK_PRBS_CTL p ∉ s.regs.wait → (s.port p).sends = true → s.fld (Reg.LINK_CTL p) F.LINK_CTL_MODE = 1 → (s.port p).tstate ≠ .prbs →
      s.completes (.applyPoint (.port p)) (.effects :: portParts) (portRegs p)
        (fun t => (t.port p).tstate = .prbs ∧ t.effReg (Reg.LINK_CTL p) = s.reg (Reg.LINK_CTL p) ∧
          t.regs.wait = s.regs.wait.filter (· != Reg.LINK_CTL p))) ∧
    (Reg.LINK_CTL p ∈ s.regs.wait → Reg.LINK_PRBS_CTL p ∉ s.regs.wait → s.fld (Reg.LINK_CTL p) F.LINK_CTL_MODE = 0 → (s.port p).tstate = .prbs →
      s.completes (.applyPoint (.port p)) (.effects :: prbsParts) (prbsRegs p)
        (fun t => (t.port p).tstate = (if s.lastRate p then .huntFull else .huntHalf) ∧ (t.port p).buffer = (s.port p).buffer ∧
          t.regs.wait = s.regs.wait.filter (· != Reg.LINK_CTL p))) ∧
    (s.regs.wait = [] →
      s.completes (.prbsClear path p) [.regs] ((List.range 8).map (Reg.LINK_PRBS_ERR p)) (fun t => ∀ k < 8, t.reg (Reg.LINK_PRBS_ERR p k) = 0)) ∧
    (∀ w : Word, s.regs.wait = [] → (s.port p).scan = none → bits w.toNat 29 18 = bits (s.reg (Reg.LINK_EYE_CTL p)).toNat 29 18 →
      s.completes (.eyeScanStart path p w) [.ports, .regs] [Reg.LINK_EYE_CTL p, Reg.MBX_ACC_STATUS]
        (fun t => (t.port p).scan = some
            { lane := w.toNat % 8, eyes := bits w.toNat 4 3, map := bit w.toNat 5, bist := false, thr := F.LINK_EYE_CTL_THR.get (t.reg (Reg.LINK_EYE_CTL p)) } ∧
          (t.port p).tstate = (s.port p).tstate))

/-- R117, R168: a request, response, configuration or engine message that is not for this device leaves unchanged by the port its route
takes, from a device that is not the manager. -/
def Obligations.ForwardedMessages : Prop :=
  ∀ (s : State) (p o : Port) (i : Instr) (m : Msg), s.up → s.still → s.isManager = false → messageOf i = some m → dataFits i = true →
    m.h.port = p → s.takes p m.op m.h.ndata → s.mine m.h = false → m.way = none → (m.op.cls = 3 → m.h.dstHost = false) →
    o = (s.learn p m.h).switchPort (some p) (if m.h.dstHost then 0 else m.h.dst.val) (m.h.dstHost || m.h.dst.val == 0) →
    s.sends o m.op m.h.ndata →
    s.completes i [.ports, .sent, .counts] [] (fun t => t.net.tx = s.net.tx ++ [(o, { m with h := { m.h with port := o } })])

/-- R102, R103, R169, R172: a read of an unprotected line at its owner waits for the line, or is answered at once with the data of a write that
still waits for the line. -/
def Obligations.OwnerReads : Prop :=
  ∀ (s : State) (p : Port) (i : Instr) (m : Msg), s.up → s.still → messageOf i = some m → (m.op = .rd64 ∨ m.op = .rd128) → m.h.port = p →
    s.takes p m.op m.h.ndata → s.hostSide p = false → s.mine m.h = true → s.serves m.h (adLocal m.addr) →
    (s.queuedWrite (s.linePlace (lineIx (adLocal m.addr))) = none →
      s.completes i [.ports, .counts, .own, .bursts, .pcs, .chans, .tiers, .regs] (arrivalRegs (s.linePlace (lineIx (adLocal m.addr))).chan)
        (fun t => (∃ r : OReq, AMap.find s.own.next t.own.reqs = some r ∧ r.m = m ∧ r.from? = some p ∧ r.stage = .reading ∧
            r.line = lineIx (adLocal m.addr) ∧ r.kid = adKey m.addr) ∧
          t.accWaits (s.metRefresh { id := s.stack.nextAcc, place := s.linePlace (lineIx (adLocal m.addr)), wr := none, sc := m.h.sc.val,
                                     firm := s.firmAt m.h.sc.val (s.linePlace (lineIx (adLocal m.addr))).chan, origin := .req s.own.next, time := s.now }))) ∧
    (∀ (d : List Byte) (md : Nat), s.queuedWrite (s.linePlace (lineIx (adLocal m.addr))) = some (d, md) →
        (mdState md = 0 ∨ mdKid md = adKey m.addr) → mdPoison md = false → s.sends p .rdata (granule m.op / 32) → d.length = 128 →
      s.completes i [.ports, .sent, .counts, .own, .chans, .regs, .notices] [Reg.SVC_STATUS]
        (fun t => AMap.find s.own.next t.own.reqs = none ∧
          t.net.tx = s.net.tx ++ [(p, { s.rspMsg m .rdata (readPart m.op (adLocal m.addr) d) 0 0 0 with
            h := { (s.rspMsg m .rdata (readPart m.op (adLocal m.addr) d) 0 0 0).h with port := p } })]))

/-- R102, R104, R151, R170: a whole-line write of an unprotected line is accepted into the queues of its place and answered with WDONE; half a
line takes a merge entry; a second half that fills the entry is accepted with the first, and both are answered. -/
def Obligations.OwnerWrites : Prop :=
  ∀ (s : State) (p : Port) (h : Hdr) (addr : BitVec 64), s.up → s.still → h.port = p → s.hostSide p = false → s.mine h = true →
    (∀ (data : List Byte) (tag : BitVec 64) (a : Acc), data.length = 128 → s.takes p .wr128 h.ndata → s.serves h (adLocal addr.toNat) →
        a = s.metRefresh { id := s.stack.nextAcc, place := s.linePlace (lineIx (adLocal addr.toNat)),
                           wr := some (data, mdWord 1 (bit h.flags.toNat 0) 0), sc := h.sc.val,
                           firm := s.firmAt h.sc.val (s.linePlace (lineIx (adLocal addr.toNat))).chan, origin := .wrOf s.own.next, time := s.now } →
        s.bankFree a = true → s.sends p .wdone 0 →
      s.completes (.wr128 h addr data tag) [.ports, .sent, .counts, .own, .bursts, .pcs, .chans, .tiers, .regs, .notices] (arrivalRegs a.place.chan)
        (fun t => a ∈ (t.bank a.place.pc a.place.pos).queue ∧ AMap.find s.own.next t.own.reqs = none ∧
          ∃ m : Msg, t.net.tx = s.net.tx ++ [(p, m)] ∧ m.op = .wdone ∧ m.h.tag = h.tag ∧ m.h.dst = h.src ∧ m.h.dstHost = h.srcHost ∧
            m.addr = addr.toNat)) ∧
    (∀ (data : List Byte) (tag : BitVec 64) (a : Acc), data.length = 128 → s.takes p .wr128 h.ndata → s.serves h (adLocal addr.toNat) →
        a = s.metRefresh { id := s.stack.nextAcc, place := s.linePlace (lineIx (adLocal addr.toNat)),
                           wr := some (data, mdWord 1 (bit h.flags.toNat 0) 0), sc := h.sc.val,
                           firm := s.firmAt h.sc.val (s.linePlace (lineIx (adLocal addr.toNat))).chan, origin := .wrOf s.own.next, time := s.now } →
        s.bankFree a = false → (∀ x ∈ (s.bank a.place.pc a.place.pos).queue, x.id ≠ a.id) →
      s.completes (.wr128 h addr data tag) [.ports, .counts, .own, .bursts, .pcs, .chans, .tiers, .regs] (arrivalRegs a.place.chan)
        (fun t => (a ∈ (t.chan a.place.chan).admission ∨ a ∈ (t.tier a.place.tier).buffer) ∧ t.net.tx = s.net.tx ∧
          ∃ q : OReq, AMap.find s.own.next t.own.reqs = some q ∧ q.stage = .reading ∧ q.accs = 1)) ∧
    (∀ data : List Byte, data.length = 64 → s.takes p .wr64 h.ndata → s.serves h (adLocal addr.toNat) → s.mergeWait ≠ 0 →
        s.own.merges.length < Config.MERGE_ENTRIES →
      s.completes (.wr64 h addr data) [.ports, .counts, .own, .regs] [Reg.SVC_STATUS]
        (fun t => ∃ e : MergeE, t.own.merges = s.own.merges ++ [e] ∧ e.line = lineIx (adLocal addr.toNat) ∧ e.kid = adKey addr.toNat ∧
          e.lo = (if upperHalf (adLocal addr.toNat) then none else some data) ∧ e.hi = (if upperHalf (adLocal addr.toNat) then some data else none) ∧
          e.time = s.now ∧ e.expires = s.now + s.mergeWait ∧ e.busy = false ∧ t.net.tx = s.net.tx))

/-- R137, R167, R171, R271, R170, R266: what the manager does with a memory request of the host as its checks judge it: the error of the check
that fails, with ADDR_ERR for a bad address, one request to the device that owns the line, sealed where the line is protected, a merge entry for half of one, or a wait at the
ingress, with HELD where the class of a firm one is at its limit. -/
def Obligations.HostRequests : Prop :=
  ∀ (s : State) (p : Port) (i : Instr) (m m' : Msg) (d loc kid : Nat), s.up → s.still → messageOf i = some m → dataFits i = true →
    (m.op = .rd64 ∨ m.op = .rd128 ∨ m.op = .wr64 ∨ m.op = .wr128) → m.h.port = p → s.hostSide p = true → s.takes p m.op m.h.ndata →
    m' = { m with h := { m.h with flags := m.h.flags &&& 0xFE } } → d = adDev m.addr → loc = adLocal m.addr → kid = adKey m.addr →
    (∀ c : Nat, s.mgrJudge (waiting s.mgr.ingress) s.mgr.arrivals m' = .err c → s.sends s.hostPort .err 0 →
      s.completes i [.ports, .sent, .counts, .mgr, .regs] [Reg.NDL_LINE_STATUS]
        (fun t => t.mgr = { s.mgr with arrivals := s.mgr.arrivals + 1 } ∧
          (c = Cause.illegalAddr ∨ c = Cause.misaligned ∨ c = Cause.outOfRange → t.fld Reg.NDL_LINE_STATUS F.NDL_LINE_STATUS_ADDR_ERR = 1) ∧
          t.net.tx = s.net.tx ++ [(s.hostPort, { s.rspMsg m' .err [] c 0 0 with h := { (s.rspMsg m' .err [] c 0 0).h with port := s.hostPort } })])) ∧
    (s.mgrJudge (waiting s.mgr.ingress) s.mgr.arrivals m' = .go → d ≠ s.num → s.mapProt d loc = false → s.mgrMerge d (lineIx loc) = none →
        AMap.find s.mgr.nextTag s.mgr.reqs = none → s.mgr.late.contains s.mgr.nextTag = false →
        s.sends (s.trunkPort d) m.op (m.data.length / 32) →
      s.completes i [.ports, .sent, .counts, .mgr] []
        (fun t => AMap.find s.mgr.nextTag t.mgr.reqs = some
            { m := m', dev := d, line := lineIx loc, kid := kid, prot := false, sc := m.h.sc.val, time := s.now, limit := s.reqTimeout,
              purpose := .host } ∧
          ∃ q : Msg, t.net.tx = s.net.tx ++ [(s.trunkPort d, q)] ∧ q.op = m.op ∧ q.h.tag.toNat = s.mgr.nextTag % 65536 ∧ q.addr = m.addr ∧ q.data = m.data)) ∧
    (s.mgrJudge (waiting s.mgr.ingress) s.mgr.arrivals m' = .go → d ≠ s.num → s.mapProt d loc = true → s.mgrMerge d (lineIx loc) = none →
        (m.op = .rd64 ∨ m.op = .rd128) → AMap.find s.mgr.nextTag s.mgr.reqs = none → s.mgr.late.contains s.mgr.nextTag = false →
        s.sends (s.trunkPort d) .rd128 0 →
      s.completes i [.ports, .sent, .counts, .mgr] []
        (fun t => AMap.find s.mgr.nextTag t.mgr.reqs = some
            { m := m', dev := d, line := lineIx loc, kid := kid, prot := true, sc := m.h.sc.val, time := s.now, limit := s.reqTimeout,
              purpose := .host } ∧
          ∃ q : Msg, t.net.tx = s.net.tx ++ [(s.trunkPort d, q)] ∧ q.op = .rd128 ∧ q.addr = mkAddr kid d (lineIx loc * 128) ∧ q.data = [])) ∧
    (s.mgrJudge (waiting s.mgr.ingress) s.mgr.arrivals m' = .go → d ≠ s.num → s.mapProt d loc = true → s.mgrMerge d (lineIx loc) = none →
        m.op = .wr128 → s.sends (s.trunkPort d) .wr128 4 →
      s.completes i [.ports, .sent, .counts, .mgr] []
        (fun t => ∃ q : Msg, t.net.tx = s.net.tx ++ [(s.trunkPort d, q)] ∧ q.op = .wr128 ∧ q.addr = mkAddr kid d (lineIx loc * 128) ∧
          q.data = lineEncrypt (s.key kid).kData (s.key kid).kTweak d (lineIx loc * 128) m.data ∧
          q.tag64 = lineTag (s.key kid).kTag d (lineIx loc * 128) kid q.data)) ∧
    (s.mgrJudge (waiting s.mgr.ingress) s.mgr.arrivals m' = .hold →
      s.completes i [.ports, .counts, .mgr, .regs] [Reg.NDL_PATH_STATUS]
        (fun t => t.mgr = { s.mgr with arrivals := s.mgr.arrivals + 1, ingress := s.mgr.ingress ++ [(s.mgr.arrivals, m')] } ∧ t.net.tx = s.net.tx)) ∧
    (s.mgrJudge (waiting s.mgr.ingress) s.mgr.arrivals m' = .limit →
      s.completes i [.ports, .counts, .mgr, .regs] [Reg.SVC_STATUS]
        (fun t => t.mgr.ingress = s.mgr.ingress ++ [(s.mgr.arrivals, m')] ∧ t.net.tx = s.net.tx ∧
          (m.h.sc.val < 4 → s.mgr.limited.contains s.mgr.arrivals = false → t.fld Reg.SVC_STATUS F.SVC_STATUS_HELD = 1))) ∧
    (s.mgrJudge (waiting s.mgr.ingress) s.mgr.arrivals m' = .go → d ≠ s.num → s.mapProt d loc = true → s.mgrMerge d (lineIx loc) = none →
        m.op = .wr64 → entriesUsed s.mgr.merges < Config.MERGE_ENTRIES → s.mergeWait ≠ 0 →
      s.completes i [.ports, .counts, .mgr] []
        (fun t => ∃ e : MergeE, t.mgr.merges = s.mgr.merges ++ [e] ∧ e.dev = d ∧ e.line = lineIx loc ∧ e.kid = kid ∧ e.busy = false ∧
          e.lo = (if upperHalf loc then none else some m.data) ∧ e.hi = (if upperHalf loc then some m.data else none) ∧ t.net.tx = s.net.tx))

/-- R103, R104, R112, R134, R167: responses of devices reach the manager: matched by internal tag they are passed to the host under the host's tag,
a protected line decrypted and marked speculative; without an outstanding request they raise TAG_ERR and are discarded. -/
def Obligations.DeviceResponses : Prop :=
  ∀ (s : State) (p : Port) (i : Instr) (m : Msg), s.up → s.still → s.isManager = true → messageOf i = some m → dataFits i = true →
    (m.op = .rdata ∨ m.op = .wdone ∨ m.op = .err) → m.h.port = p → s.hostSide p = false → s.takes p m.op m.h.ndata → s.mine m.h = true →
    m.h.agent ≠ .engine → s.mgr.ingress = [] →
    (∀ r : MReq, AMap.find m.h.tag.toNat s.mgr.reqs = some r → m.h.src.val = r.dev → m.h.srcHost = false → r.open_ = none → r.prot = false → r.purpose = .host →
        (m.op = .rdata → (r.m.op = .rd64 ∨ r.m.op = .rd128) ∧ m.data.length = granule r.m.op) →
        (m.op = .wdone → r.m.op ≠ .rd64 ∧ r.m.op ≠ .rd128) → s.sends s.hostPort m.op m.h.ndata →
      s.completes i [.ports, .sent, .counts, .mgr] []
        (fun t => t.mgr = { s.mgr with reqs := AMap.del m.h.tag.toNat s.mgr.reqs } ∧
          ∃ q : Msg, t.net.tx = s.net.tx ++ [(s.hostPort, q)] ∧ q.op = m.op ∧ q.h.tag = r.m.h.tag ∧ q.h.dst = r.m.h.src ∧ q.h.dstHost = r.m.h.srcHost ∧
            q.addr = r.m.addr ∧ (m.op = .rdata → q.data = m.data) ∧ (m.op = .err → q.status = m.status))) ∧
    (∀ r : MReq, m.op = .rdata → AMap.find m.h.tag.toNat s.mgr.reqs = some r → m.h.src.val = r.dev → m.h.srcHost = false → r.open_ = none → r.prot = true → r.purpose = .host →
        (r.m.op = .rd64 ∨ r.m.op = .rd128) → m.data.length = 128 → bit r.m.h.flags.toNat 1 = false →
        clearLine m.data m.tag64 m.h.flags.toNat = false → s.sends s.hostPort .rdata (granule r.m.op / 32) →
      s.completes i [.ports, .sent, .counts, .mgr] []
        (fun t => (∃ q : MReq, AMap.find m.h.tag.toNat t.mgr.reqs = some q ∧ q.m = r.m ∧ q.open_ = some (m.data, m.tag64, bit m.h.flags.toNat 2)) ∧
          ∃ q : Msg, t.net.tx = s.net.tx ++ [(s.hostPort, q)] ∧ q.op = .rdata ∧ q.h.tag = r.m.h.tag ∧ bit q.h.flags.toNat 0 = true ∧
            q.data = readPart r.m.op (adLocal r.m.addr) (lineDecrypt (s.key r.kid).kData (s.key r.kid).kTweak r.dev (r.line * 128) m.data))) ∧
    ((∀ r : MReq, AMap.find m.h.tag.toNat s.mgr.reqs = some r → m.h.src.val ≠ r.dev ∨ m.h.srcHost = true) → s.mgr.late.contains m.h.tag.toNat = false → s.noteOnly 38 0 →
      s.completes i [.ports, .counts, .regs, .notices, .faults, .blaze] (Reg.NDL_STATUS :: eventRegs)
        (fun t => t.fld Reg.NDL_STATUS F.NDL_STATUS_TAG_ERR = 1 ∧ t.net.tx = s.net.tx))

/-- R108, R111, R205: a FENCE of the host is kept until FDONE may be sent, a fence whose earlier requests have been answered draws FDONE, and a
HINT makes the manager read the doorbell lines of the enabled queues of its group. -/
def Obligations.FencesAndHints : Prop :=
  ∀ (s : State) (p : Port), s.up → s.still → s.isManager = true →
    (∀ (h : Hdr) (addr : BitVec 64), h.port = p → s.hostSide p = true → s.takes p .fence h.ndata →
      s.completes (.fence h addr) [.ports, .counts, .mgr] []
        (fun t => t.mgr = { s.mgr with arrivals := s.mgr.arrivals + 1, fences := s.mgr.fences ++
          [{ id := s.mgr.arrivals, m := { op := .fence, h := h, addr := addr.toNat }, all := bit h.flags.toNat 0, dev := adDev addr.toNat }] })) ∧
    (∀ f : FenceS, s.mgr.fences = [f] → s.fenceDone f = true → s.mgr.ingress = [] → s.sends s.hostPort .fdone 0 →
      s.completes (.fdone f.id) [.ports, .sent, .counts, .mgr] []
        (fun t => t.mgr = { s.mgr with fences := [] } ∧
          ∃ q : Msg, t.net.tx = s.net.tx ++ [(s.hostPort, q)] ∧ q.op = .fdone ∧ q.h.tag = f.m.h.tag ∧ q.h.dst = f.m.h.src ∧ q.h.dstHost = f.m.h.srcHost)) ∧
    (∀ (h : Hdr) (group : Fin 1024) (q : Nat), h.port = p → s.hostSide p = true → s.takes p .hint h.ndata →
        s.enabled.filter (fun k => k / 64 == group.val) = [q] → AMap.find group.val s.que.hints = none → s.mgr.fences = [] →
        s.mgr.ingress = [] → AMap.find s.mgr.nextH s.mgr.host = none → s.sends s.hostPort .rd64 0 →
      s.completes (.hint h group) [.ports, .sent, .counts, .mgr, .que] []
        (fun t => t.que = { s.que with hints := AMap.put group.val 1 s.que.hints } ∧ (∃ e : HReq, AMap.find s.mgr.nextH t.mgr.host = some e ∧ e.use = .doorbell q false ∧ e.addr = s.que.dbBase + 64 * q) ∧
          ∃ m : Msg, t.net.tx = s.net.tx ++ [(s.hostPort, m)] ∧ m.op = .rd64 ∧ m.addr = (s.que.dbBase + 64 * q) % 2 ^ 64))

/-- R112 to R114, R173, R280: the check of a tag that has completed decides the SEAL of a speculative read: GOOD where the tag matches, VOID where
the owner could not read it, BAD with a halt of the owner where it fails; a request that has waited REQ_TIMEOUT draws ERR TIMEOUT. -/
def Obligations.TagsAndTimeouts : Prop :=
  ∀ (s : State) (k : Nat) (r : MReq), s.up → s.still → s.isManager = true → AMap.find k s.mgr.reqs = some r → r.purpose = .host → s.mgr.ingress = [] → s.mgr.merges = [] →
    (∀ (ct : List Byte) (tag : Nat), r.open_ = some (ct, tag, false) → bit r.m.h.flags.toNat 1 = false → s.sends s.hostPort .sealGood 0 →
        lineTag (s.key r.kid).kTag r.dev (r.line * 128) r.kid ct = tag →
      s.completes (.tagVerifyDone k) [.ports, .sent, .counts, .mgr] []
        (fun t => t.mgr = { s.mgr with reqs := AMap.del k s.mgr.reqs } ∧
          ∃ q : Msg, t.net.tx = s.net.tx ++ [(s.hostPort, q)] ∧ q.op = .sealGood ∧ q.h.tag = r.m.h.tag)) ∧
    (∀ (ct : List Byte) (tag : Nat), r.open_ = some (ct, tag, true) → bit r.m.h.flags.toNat 1 = false → s.sends s.hostPort .sealVoid 0 →
      s.completes (.tagVerifyDone k) [.ports, .sent, .counts, .mgr] []
        (fun t => t.mgr = { s.mgr with reqs := AMap.del k s.mgr.reqs } ∧
          ∃ q : Msg, t.net.tx = s.net.tx ++ [(s.hostPort, q)] ∧ q.op = .sealVoid ∧ q.h.tag = r.m.h.tag ∧ q.status = Cause.uncorrectable)) ∧
    (∀ (ct : List Byte) (tag : Nat), r.open_ = some (ct, tag, false) → bit r.m.h.flags.toNat 1 = false → s.sends s.hostPort .sealBad 0 →
        lineTag (s.key r.kid).kTag r.dev (r.line * 128) r.kid ct ≠ tag → AMap.del k s.mgr.reqs = [] → r.dev ≠ 0 → r.dev ≠ s.num →
        (s.ent r.dev).valid = true → (s.ent r.dev).halted = false →
      s.completes (.tagVerifyDone k) [.ports, .sent, .counts, .mgr, .topo, .notices, .regs]
        [Reg.PROT_STATUS, Reg.NDL_STATUS, Reg.NDL_PATH_STATUS]
        (fun t => (t.ent r.dev).halted = true ∧ t.mgr.reqs = [] ∧ t.fld Reg.PROT_STATUS F.PROT_STATUS_HALT_ORDERED = 1 ∧
          ∃ (q : Msg) (l : List (Port × Msg)), t.net.tx = s.net.tx ++ (s.hostPort, q) :: l ∧ q.op = .sealBad ∧ q.h.tag = r.m.h.tag)) ∧
    (r.open_ = none → s.noteOnly 40 0 → s.sends s.hostPort .err 0 →
      s.completes (.reqTimeout k) [.ports, .sent, .counts, .mgr, .regs, .notices, .faults, .blaze] (Reg.NDL_PATH_STATUS :: eventRegs)
        (fun t => t.mgr = { s.mgr with reqs := AMap.del k s.mgr.reqs, late := s.mgr.late ++ [k] } ∧
          t.fld Reg.NDL_PATH_STATUS F.NDL_PATH_STATUS_REQ_TIMEOUT = 1 ∧
          ∃ q : Msg, t.net.tx = s.net.tx ++ [(s.hostPort, q)] ∧ q.op = .err ∧ q.status = Cause.timeout ∧ q.h.tag = r.m.h.tag))

/-- R116: a configuration read or write is performed at its target and answered with STATUS 0; the response of another device, or STATUS 0x04
where none came, is passed to the host under the host's tag. -/
def Obligations.ConfigAccesses : Prop :=
  ∀ (s : State) (p : Port) (h : Hdr), s.up → h.port = p →
    (s.still → s.takes p .crd h.ndata → ((s.hostSide p = true ∧ h.dst = 0) ∨ (s.hostSide p = false ∧ s.mine h = true)) → s.sends p .crdRsp 0 →
      s.completes (.crd h (BitVec.ofNat 25 Reg.NDL_NTC_EN) 0 none) [.ports, .sent, .counts] []
        (fun t => ∃ q : Msg, t.net.tx = s.net.tx ++ [(p, q)] ∧ q.op = .crdRsp ∧ q.words = [(s.reg Reg.NDL_NTC_EN).toNat] ∧ q.status = 0 ∧
          q.h.tag = h.tag ∧ q.h.dst = h.src ∧ q.h.dstHost = h.srcHost)) ∧
    (∀ w : Word, s.still → s.takes p .cwr h.ndata → ((s.hostSide p = true ∧ h.dst = 0) ∨ (s.hostSide p = false ∧ s.mine h = true)) →
        s.sends p .cwrRsp 0 →
      s.completes (.cwr h (BitVec.ofNat 25 Reg.NDL_NTC_EN) [w] none) [.ports, .sent, .counts, .regs] [Reg.NDL_NTC_EN]
        (fun t => t.reg Reg.NDL_NTC_EN = w ∧
          ∃ q : Msg, t.net.tx = s.net.tx ++ [(p, q)] ∧ q.op = .cwrRsp ∧ q.status = 0 ∧ q.h.tag = h.tag ∧ q.h.dst = h.src ∧ q.h.dstHost = h.srcHost)) ∧
    (∀ (c : CReq) (m : Msg), s.isManager = true → ({ s with mgr.cfg := [] } : State).still → s.mgr.cfg = [(h.tag.toNat, c)] → c.use = .host m → s.hostSide p = false →
        h.dstHost = true → h.agent = .switch → s.sends s.hostPort (if m.op = .crd then .crdRsp else .cwrRsp) 0 →
      (∀ (reg : BitVec 25) (ws : List Word) (st : Byte), s.takes p .crdRsp h.ndata → h.src.val = c.dst → h.srcHost = false → ws.length ≤ 4 → m.op = .crd →
        s.completes (.crdRsp h reg ws st) [.ports, .sent, .counts, .mgr] []
          (fun t => t.mgr = { s.mgr with cfg := [] } ∧ ∃ q : Msg, t.net.tx = s.net.tx ++ [(s.hostPort, q)] ∧ q.op = .crdRsp ∧ q.h.tag = m.h.tag ∧
            q.words = ws.map (·.toNat) ∧ q.status = st.toNat)) ∧
      (∀ (reg : BitVec 25) (st : Byte), s.takes p .cwrRsp h.ndata → h.src.val = c.dst → h.srcHost = false → m.op = .cwr →
        s.completes (.cwrRsp h reg st) [.ports, .sent, .counts, .mgr] []
          (fun t => t.mgr = { s.mgr with cfg := [] } ∧ ∃ q : Msg, t.net.tx = s.net.tx ++ [(s.hostPort, q)] ∧ q.op = .cwrRsp ∧ q.h.tag = m.h.tag ∧
            q.status = st.toNat)) ∧
      (s.noteOnly 39 0 →
        s.completes (.cfgTimeout h.tag.toNat) [.ports, .sent, .counts, .mgr, .regs, .notices, .faults, .blaze] (Reg.NDL_STATUS :: eventRegs)
          (fun t => t.mgr = { s.mgr with cfg := [], lateC := s.mgr.lateC ++ [h.tag.toNat] } ∧ t.fld Reg.NDL_STATUS F.NDL_STATUS_CFG_TIMEOUT = 1 ∧
            ∃ q : Msg, t.net.tx = s.net.tx ++ [(s.hostPort, q)] ∧ q.h.tag = m.h.tag ∧ q.status = 4)))

/-- R119, R121, R132, R386, R478: credits add to those held; the first marker of a census latches every counter, is echoed and passed on; the ENTER and
AWAKE markers say whether the partner sleeps; a message beyond the credits granted is discarded with its data blocks, so that no port and nothing it is for
changes, CREDIT_ERR is set, and the link stays up. -/
def Obligations.LinkMarkers : Prop :=
  ∀ (s : State) (p : Port), s.up → s.regs.wait = [] →
    (∀ headers datas : List Nat, s.takes p .credit 0 → (s.port p).wait = [] → s.flt.notices.any (fun n => n.2.due) = false → s.flt.hostNtc = [] →
      s.completes (.credit p headers datas) [.ports, .counts, .regs] [Reg.NDL_STATUS]
        (fun t => (t.port p).held = (s.port p).held.addAll headers datas ∧ ∀ q : Port, q ≠ p → t.port q = s.port q)) ∧
    (∀ (number : Word) (tick : BitVec 48), s.isManager = false → s.takes p .census 0 → number.toNat ≠ s.flt.lastCensus →
        (∀ q : Port, (q = p ∨ s.markerPort q = true) → s.sends q .census 0) →
      s.completes (.census p number tick false) [.ports, .sent, .counts, .census, .chans, .regs] [Reg.CENSUS_LAST, Reg.CENSUS_STATUS]
        (fun t => (∀ n : Nat, { t.chan n with satAt := (s.chan n).satAt, srFrom := (s.chan n).srFrom } = s.chan n) ∧ t.flt.lastCensus = number.toNat ∧ t.reg Reg.CENSUS_LAST = number ∧ t.flt.snapHdr = [number.toNat, s.tick, 0] ∧
          t.flt.snap = ((s.take p 6 0).tally.bump (devSlot 144) 1).flt.counts ∧
          t.net.tx = s.net.tx ++ (p, { s.censusMsg number.toNat tick.toNat true with h := { (s.censusMsg number.toNat tick.toNat true).h with port := p } }) ::
            (allPorts.filter (fun o => o != p && s.markerPort o)).map (fun o =>
              (o, { s.censusMsg number.toNat tick.toNat false with h := { (s.censusMsg number.toNat tick.toNat false).h with port := o } })))) ∧
    (∀ code : Fin 8, code.val ≤ 4 → s.takes p .pwr 0 →
      s.completes (.pwrEnter p code) [.ports, .counts] []
        (fun t => (t.port p).sleeping = (code.val == 2) ∧ ∀ q : Port, q ≠ p → t.port q = s.port q)) ∧
    (s.takes p .pwr 0 →
      s.completes (.pwrAwake p 0) [.ports, .counts] []
        (fun t => (t.port p).sleeping = false ∧ ∀ q : Port, q ≠ p → t.port q = s.port q)) ∧
    (∀ (c : Instr) (m : Msg), s.calm → messageOf c = some m → m.h.port = p → s.overrun p m.op m.h.ndata →
      s.completes c [.regs, .notices, .counts, .faults, .blaze] (Reg.NDL_STATUS :: eventRegs)
        (fun t => t.fld Reg.NDL_STATUS F.NDL_STATUS_CREDIT_ERR = 1 ∧ ∀ q : Port, t.port q = s.port q)) ∧
    (∀ n : Notice, s.calm → s.overrun p .ntc 0 →
      s.completes (.notice p n) [.regs, .notices, .counts, .faults, .blaze] (Reg.NDL_STATUS :: eventRegs)
        (fun t => t.fld Reg.NDL_STATUS F.NDL_STATUS_CREDIT_ERR = 1 ∧ ∀ q : Port, t.port q = s.port q))

/-- R129, R130, R134: a notice that arrives leaves by the route to the manager; at the manager it is sent to the host, or counted and discarded
with MASKED where its type is masked, and the manager notes a device's thermal stage and power state; a device's own notice leaves when its hold has passed, and one that waits for credit sets NTC_BACKLOG. -/
def Obligations.Notices : Prop :=
  ∀ (s : State), s.up →
    (∀ (p : Port) (n : Notice), s.still → s.isManager = false → s.takes p .ntc 0 → s.sends (s.switchPort (some p) 0 true) .ntc 0 →
      s.completes (.notice p n) [.ports, .sent, .counts] []
        (fun t => ∃ m : Msg, t.net.tx = s.net.tx ++ [(s.switchPort (some p) 0 true, m)] ∧ m.op = .ntc ∧ m.ntc = some n ∧ m.h.src = n.src)) ∧
    (∀ (p : Port) (n : Notice), s.still → s.isManager = true → s.hostSide p = false → s.takes p .ntc 0 →
      (bit (s.reg Reg.NDL_NTC_EN).toNat n.ntype = true → s.flt.hostNtc = [] → s.sends s.hostPort .ntc 0 →
        s.completes (.notice p n) [.ports, .sent, .counts, .topo] []
          (fun t => (n.ntype = 0x0A → (t.ent n.dev).stage = leAt n.payload 0 1) ∧ (n.ntype = 0x12 → (t.ent n.dev).pwr = leAt n.payload 0 1) ∧
            (n.ntype ≠ 0x0A → n.ntype ≠ 0x12 → t.topo = s.topo) ∧
            ∃ m : Msg, t.net.tx = s.net.tx ++ [(s.hostPort, m)] ∧ m.op = .ntc ∧ m.ntc = some n)) ∧
      (bit (s.reg Reg.NDL_NTC_EN).toNat n.ntype = false → s.flt.hostNtc = [] →
        s.completes (.notice p n) [.ports, .counts, .regs, .topo] [Reg.NDL_STATUS]
          (fun t => t.fld Reg.NDL_STATUS F.NDL_STATUS_MASKED = 1 ∧ t.net.tx = s.net.tx ∧
            t.flt.counts = ((s.take p 4 0).bump (devSlot (32 + n.ntype)) n.count).flt.counts))) ∧
    (∀ (k : Nat) (n : NoticeS), s.regs.wait = [] → s.isManager = false → AMap.find k s.flt.notices = some n → s.sends s.net.mgrPort .ntc 0 →
      s.completes (.ntcHoldExpiry k) [.ports, .sent, .counts, .notices] []
        (fun t => t.flt.notices = AMap.del k s.flt.notices ∧
          ∃ m : Msg, t.net.tx = s.net.tx ++ [(s.net.mgrPort, m)] ∧ m.op = .ntc ∧
            m.ntc = some { src := Fin.ofNat 64 n.src, ntype := n.ntype, sev := n.sev, dev := n.dev, nseq := n.nseq, count := n.count, payload := n.payload })) ∧
    (s.flt.notices.any (fun n => n.2.due) = true →
      s.completes .ntcBacklog [.regs] [Reg.NDL_STATUS] (fun t => t.fld Reg.NDL_STATUS F.NDL_STATUS_NTC_BACKLOG = 1))

/-- R151, R153, R282: MERGE_WAIT passes on a lone half of a line whose channel is not retired: its owner reads the old line, and for a protected
line the manager does, by an RD128 of its own. -/
def Obligations.MergeExpiry : Prop :=
  ∀ (s : State) (e : MergeE), s.up → s.still → e.busy = false →
    (s.own.merges = [e] → s.mustWait e.line = false → (s.chan (s.linePlace e.line).chan).retired = false →
        s.queuedWrite (s.linePlace e.line) = none →
      s.completes (.mergeWaitExpiry (Fin.ofNat 64 s.num) e.line) [.counts, .own, .bursts, .pcs, .chans, .tiers, .regs] (arrivalRegs (s.linePlace e.line).chan)
        (fun t => t.own.merges = [{ e with busy := true }] ∧
          t.accWaits (s.metRefresh { id := s.stack.nextAcc, place := s.linePlace e.line, wr := none, sc := e.sc,
                                     firm := s.firmAt e.sc (s.linePlace e.line).chan, origin := .merge e.line, time := s.now }))) ∧
    (∀ dev : Fin 64, s.isManager = true → dev.val ≠ s.num → e.dev = dev.val → s.mgr.merges = [e] → s.mgr.reqs = [] → s.mgr.late.contains s.mgr.nextTag = false → s.sends (s.trunkPort dev.val) .rd128 0 →
      s.completes (.mergeWaitExpiry dev e.line) [.ports, .sent, .counts, .mgr] []
        (fun t => t.mgr.merges = [{ e with busy := true }] ∧
          (∃ r : MReq, t.mgr.reqs = [(s.mgr.nextTag, r)] ∧ r.dev = dev.val ∧ r.line = e.line ∧ r.kid = e.kid ∧ r.prot = true ∧ r.purpose = .rmwRead) ∧
          ∃ q : Msg, t.net.tx = s.net.tx ++ [(s.trunkPort dev.val, q)] ∧ q.op = .rd128 ∧ q.addr = mkAddr e.kid dev.val (e.line * 128)))

/-- R226, R240, R241: a descriptor of each engine opcode that may start, and that the protection map and the keys still admit, runs, with one
shard for each device and tier that holds lines of its driving range; where that is one tier of another device, the shard leaves at once in a SHARD
message with the descriptor's words; one without lines ends at once. -/
def Obligations.EngineStarts : Prop :=
  ∀ (s : State) (q i : Nat) (d : DescS) (c : Instr) (opc : Nat), s.up → s.still → s.isManager = true → s.que.descs = [d] → d.q = q → d.i = i →
    d.stage = .ready → d.relay = false → d.phaseB = .none → d.shards = [] → dOpc d.words = opc → (operands d.words).any s.rangeHeld = false →
    (operands d.words).any s.rangeRelay = false → s.protStops d = false →
    (c, opc) ∈ [(.copy q i, 1), (.fill q i, 2), (.zero q i, 3), (.compare q i, 4), (.crc q i, 5), (.gather q i, 6), (.scatter q i, 7),
      (.reduce q i, 8), (.atomicBatch q i, 9), (.xorParity q i, 10)] →
    (∀ n k : Nat, s.shardsOf d.words = [(n, k)] → n ≠ s.num → n < 64 → s.sends (s.trunkPort n) .shard ((4 * d.words.length + 31) / 32) →
      s.completes c [.ports, .sent, .counts, .que] []
        (fun t => t.que = { s.que with descs := [{ d with stage := .running, shards := [(0, { dev := n, tier := k, sent := true })] }] } ∧
          ∃ m : Msg, t.net.tx = s.net.tx ++ [(s.trunkPort n, m)] ∧ m.op = .shard ∧ m.h.dst.val = n ∧ m.data = ofWords d.words ∧
            m.words = [k] ∧ m.eng.map (fun g => (g.queue, g.index, g.epoch)) = some (q, 0, 0))) ∧
    (s.shardsOf d.words = [] → resultGranule d.words = none → dQuiet d.words = false → s.ringFree q →
      s.completes c [.counts, .que] [] (fun t => s.recorded d 0 d.outcome.1 t)) ∧
    (s.shardsOf d.words ≠ [] → (∀ x ∈ s.shardsOf d.words, x.1 ≠ s.num) →
      s.completes c [.ports, .sent, .counts, .que, .regs] [Reg.NDL_PATH_STATUS]
        (fun t => ∃ e : DescS, t.que.descs = [e] ∧ e.words = d.words ∧ e.stage = .running ∧
          e.shards.map (fun x => (x.2.dev, x.2.tier)) = s.shardsOf d.words))

/-- R226, R241 to R243, R251, R252: a shard on a device: it takes the idle engine of its tier, or waits under HOLD; a checkpoint keeps what it had
done at the last multiple of CKPT_BYTES; a thermal migration lets it go on elsewhere from its checkpoint; where no engine is left it ends with
ADMISSION; a shard that has done its work reports; an ABORT ends one with code 0x18. -/
def Obligations.Shards : Prop :=
  ∀ (s : State) (p : Port) (k : Fin 4), s.up → s.still →
    (∀ (h : Hdr) (g : EngHdr) (phaseB relay : Bool) (desc : List Word), h.port = p → s.takes p .shard h.ndata → s.mine h = true →
        s.hostSide p = false → desc.length = 16 → s.flt.admitStop = false → (s.tier k.val).released = false →
        (s.tier k.val).excluded = false → (s.tier k.val).run = none → (s.tier k.val).waiting = [] →
      (s.fld Reg.ENG_CTL F.ENG_CTL_HOLD = 0 →
          ((4 ≤ dSc (desc.map (·.toNat)) ∧ 3 ≤ s.throttle k.val) ∨
            ∀ x : ShardS, x.desc = desc.map (·.toNat) → x.home = k.val → x.phaseB = phaseB → s.unitsOf x = []) →
        s.completes (.shard h g k phaseB relay desc) [.ports, .counts, .tiers, .regs, .draws] [Reg.ENG_STATUS]
          (fun t => t.fld Reg.ENG_STATUS F.ENG_STATUS_BUSY = 1 ∧ (∀ j : Nat, j ≠ k.val → t.tier j = s.tier j) ∧
            ∃ sh : ShardS, (t.tier k.val).run = some sh ∧ sh.g = g ∧ sh.home = k.val ∧ sh.desc = desc.map (·.toNat) ∧ sh.phaseB = phaseB ∧
              sh.relay = relay ∧ sh.units = s.unitsOf sh)) ∧
      (s.fld Reg.ENG_CTL F.ENG_CTL_HOLD = 1 →
        s.completes (.shard h g k phaseB relay desc) [.ports, .counts, .tiers, .regs, .draws] [Reg.ENG_STATUS]
          (fun t => t.fld Reg.ENG_STATUS F.ENG_STATUS_BUSY = 1 ∧ (t.tier k.val).run = none ∧ (∀ j : Nat, j ≠ k.val → t.tier j = s.tier j) ∧
            ∃ sh : ShardS, (t.tier k.val).waiting = [sh] ∧ sh.g = g ∧ sh.home = k.val ∧ sh.desc = desc.map (·.toNat) ∧ sh.phaseB = phaseB))) ∧
    (∀ (sh : ShardS) (blocks : Fin 4), (s.tier k.val).run = some sh →
      (sh.saved.unit < sh.mark.unit →
        s.completes (.checkpoint k) [.tiers, .counts] []
          (fun t => (t.tier k.val).run = some { sh with saved := sh.mark } ∧ ∀ j : Nat, j ≠ k.val → t.tier j = s.tier j)) ∧
      (∀ (u : Nat) (piece : Nat × Nat × Nat × Nat), (dOpc sh.desc = 2 ∨ dOpc sh.desc = 3) → s.fld Reg.ENG_CTL F.ENG_CTL_MIGRATE_EN = 1 →
          s.fld Reg.ENG_CTL F.ENG_CTL_MIG_STAGE ≤ s.throttle k.val → Config.MIG_MIN ≤ sh.bytes - sh.at_.bytes → sh.moved = none → sh.stop = 0 →
          s.coolTiers k.val = [u] → (s.tier k.val).waiting = [] → sh.units[sh.saved.unit]? = some piece →
          sh.own (lineAddr (dDst sh.desc) piece.1) = true → s.room sh.sc = false →
        s.completes (.migration k 0) [.tiers, .counts, .regs, .eng] [Reg.ENG_STATUS, Reg.NDL_PATH_STATUS]
          (fun t => (t.tier k.val).run = none ∧ t.fld Reg.ENG_STATUS F.ENG_STATUS_MIGRATED = 1 ∧ (t.tier u).run = some (sh.replaced u s.now))) ∧
      (s.fld Reg.ENG_CTL F.ENG_CTL_MIGRATE_EN = 0 → s.completes (.migration k 0) [] [] (fun _ => True)) ∧
      (s.isManager = false → s.num ≠ 0 → (s.tier k.val).waiting = [] → dOpc sh.desc ∉ [4, 5, 8] → s.sends s.net.mgrPort .shardDone 0 →
        (dOpc sh.desc ≠ 9 → sh.stop = 0 → s.enginesLeft = [] →
          s.completes (.migration k 2) [.ports, .sent, .counts, .tiers, .regs] [Reg.ENG_STATUS]
            (fun t => (t.tier k.val).run = none ∧
              ∃ m : Msg, t.net.tx = s.net.tx ++ [(s.net.mgrPort, m)] ∧ m.op = .shardDone ∧
                m.eng.map (fun g => (g.queue, g.dseq, g.index, g.epoch, g.status)) =
                  some (sh.g.queue, sh.g.dseq, sh.g.index, sh.g.epoch, BitVec.ofNat 8 Cause.admission))) ∧
        (s.engGoes k.val sh = true → sh.units.length ≤ sh.at_.unit →
          s.completes (.shardFinish k blocks) [.ports, .sent, .counts, .tiers, .regs] [Reg.ENG_STATUS]
            (fun t => (t.tier k.val).run = none ∧
              ∃ m : Msg, t.net.tx = s.net.tx ++ [(s.net.mgrPort, m)] ∧ m.op = .shardDone ∧
                m.words = [sh.at_.res.done, sh.at_.res.failRec, sh.at_.res.swaps] ∧
                m.eng.map (fun g => (g.queue, g.dseq, g.index, g.epoch, g.status)) =
                  some (sh.g.queue, sh.g.dseq, sh.g.index, sh.g.epoch, BitVec.ofNat 8 sh.code))) ∧
        (∀ h : Hdr, h.port = p → h.src = 0 → h.dstHost = false → s.takes p .abort h.ndata → s.mine h = true → s.sends p .shardDone 0 →
            (∀ j < 4, (s.tier j).waiting = [] ∧ (j ≠ k.val → (s.tier j).run = none)) →
          s.completes (.abort h sh.g) [.ports, .sent, .counts, .tiers, .regs] [Reg.ENG_STATUS]
            (fun t => (t.tier k.val).run = none ∧ t.fld Reg.ENG_STATUS F.ENG_STATUS_ABORTED = 1 ∧
              ∃ m : Msg, t.net.tx = s.net.tx ++ [(p, m)] ∧ m.op = .shardDone ∧
                m.eng.map (fun g => (g.queue, g.dseq, g.index, g.epoch, g.status)) =
                  some (sh.g.queue, sh.g.dseq, sh.g.index, sh.g.epoch, 0x18)))) ∧
      (s.isManager = false → s.num ≠ 0 → (s.tier k.val).waiting = [] → s.engGoes k.val sh = true → sh.units.length ≤ sh.at_.unit →
        s.completes (.shardFinish k blocks) [.ports, .sent, .counts, .tiers, .regs] [Reg.ENG_STATUS, Reg.NDL_PATH_STATUS]
          (fun t => (t.tier k.val).run = none)))

/-- R243, R248, R249, R252: at the manager the parts of a shard's partial are kept, the report of a descriptor's last shard ends it, messages of an older
placement are discarded with STALE_RESULT; and where the one member of a determinism group has fetched its EPOCH_END fence and no batch waits, the close of
the epoch completes the fence, counts the epoch and opens the next. -/
def Obligations.ShardReports : Prop :=
  (
    ∀ (s : State) (p : Port) (h : Hdr) (g : EngHdr) (d : DescS) (x : ShardM), s.up → s.still → s.isManager = true → h.port = p →
      s.hostSide p = false → s.mine h = true → s.que.descs = [d] → d.stage = .running → d.q = g.queue → dSeq d.words = g.dseq.toNat →
      d.shards = [(g.index, x)] → x.done = false → d.phaseB = .none →
      (∀ (last : Bool) (data : List Byte), s.takes p .part h.ndata → data.length ≤ 32 * h.ndata → g.epoch = x.epoch →
        s.completes (.partialMsg h g last data) [.ports, .counts, .que] []
          (fun t => t.que = { s.que with descs := [{ d with shards := [(g.index, { x with parts := AMap.put g.part data x.parts })] }] })) ∧
      (∀ lines firstFail swaps : Word, s.takes p .shardDone h.ndata → g.epoch = x.epoch → dOpc d.words ≠ 9 → dOpc d.words ≠ 0x45 →
          resultGranule d.words = none → dQuiet d.words = false → s.ringFree d.q →
        s.completes (.shardDone h g lines firstFail swaps) [.ports, .counts, .que] []
          (fun t => s.recorded d g.status.toNat (if g.status = 0 then
            ({ d with shards := [(g.index, { x with done := true, fail := 0, failRec := firstFail.toNat, swaps := swaps.toNat })] } : DescS).outcome.1 else 0) t)) ∧
      (∀ (last : Bool) (data : List Byte), s.takes p .part h.ndata → data.length ≤ 32 * h.ndata → g.epoch < x.epoch →
        s.completes (.partialMsg h g last data) [.ports, .counts, .regs] [Reg.ENG_STATUS]
          (fun t => t.fld Reg.ENG_STATUS F.ENG_STATUS_STALE_RESULT = 1 ∧ t.que = s.que)) ∧
      (∀ lines firstFail swaps : Word, s.takes p .shardDone h.ndata → g.epoch < x.epoch →
        s.completes (.shardDone h g lines firstFail swaps) [.ports, .counts, .regs] [Reg.ENG_STATUS]
          (fun t => t.fld Reg.ENG_STATUS F.ENG_STATUS_STALE_RESULT = 1 ∧ t.que = s.que))) ∧
  (
    ∀ (s : State) (g : Fin 256) (d : DescS), s.up → s.still → s.isManager = true → s.que.descs = [d] → s.members g.val = [d.q] →
      s.isEpochEnd d = true → (AMap.get g.val ({} : GroupS) s.que.groups).closing = false → d.phaseB = .none → dQuiet d.words = false →
      s.ringFree d.q →
      s.completes (.epochClose g) [.que, .regs, .counts] [Reg.ENG_EPOCHS]
        (fun t => s.recorded d 0 0 t ∧ (AMap.get g.val ({} : GroupS) t.que.groups).epoch = (AMap.get g.val ({} : GroupS) s.que.groups).epoch + 1 ∧
          (AMap.get g.val ({} : GroupS) t.que.groups).closing = false ∧
          t.fld Reg.ENG_EPOCHS F.ENG_EPOCHS_VALUE = min (2 ^ 32 - 1) (s.fld Reg.ENG_EPOCHS F.ENG_EPOCHS_VALUE + 1)))

/-- R290, R292, R295 to R298, R302, R311, R313: the command that a channel picks: an owed refresh operation, else a pending neighbour refresh, else
a precharge that closes the row or an activate that opens the candidate's row; a write's column command stores its line, a read's starts its
burst with the line as it stands. -/
def Obligations.ChannelPicks : Prop :=
  ∀ (s : State) (k : Fin 64) (pos : Nat) (a : Acc) (turn : Option (Bool × List Nat × Nat)) (r : State), s.up → s.still →
    s.issues (k.val / 2) = true → r = s.relevel (k.val / 2) →
    (∀ d : List Byte × Nat, r.pick k.val true = some (pos, a, turn) → a.origin ≠ .ranger → a.wr = some d → d.1.length = 128 →
      s.completes (.channelPick k true) [.chans, .pcs, .mem, .counts, .regs, .notices] [Reg.SVC_STATUS]
        (fun t => t.lineData a.place = d.1 ∧ t.lineMd a.place = d.2 ∧ (t.bank k.val pos).queue.all (fun x => x.id != a.id) = true ∧
          ∀ q : Place, q.ix ≠ a.place.ix → t.lineData q = s.lineData q)) ∧
    (r.pick k.val true = some (pos, a, turn) → a.origin ≠ .ranger → a.wr = none →
      s.completes (.channelPick k true) [.chans, .pcs, .bursts, .counts, .regs, .notices] [Reg.SVC_STATUS]
        (fun t => AMap.find a.id t.stack.bursts = some { acc := a, data := s.lineData a.place, md := s.lineMd a.place } ∧
          (t.bank k.val pos).queue.all (fun x => x.id != a.id) = true)) ∧
    ((s.pc k.val).rowAts.contains s.now = false → (fromPtr (s.pc k.val).rowPtr).find? (r.repays k.val) = some pos →
      s.completes (.channelPick k false) [.chans, .pcs, .tiers, .counts, .regs, .notices] [Reg.SVC_STATUS]
        (fun t => (t.bank k.val pos).debt = (s.bank k.val pos).debt - 1 ∧ (t.bank k.val pos).row = none ∧
          s.now + Config.tRFCpb ≤ (t.bank k.val pos).actOk)) ∧
    ((s.pc k.val).rowAts.contains s.now = false → (fromPtr (s.pc k.val).rowPtr).find? (r.repays k.val) = none →
        (fromPtr (s.pc k.val).rowPtr).find? (r.nrefs k.val) = some pos →
      s.completes (.channelPick k false) [.chans, .pcs, .tiers, .counts, .regs, .notices] [Reg.SVC_STATUS, Reg.CH_STATUS (k.val / 2)]
        (fun t => (t.bank k.val pos).nref = (s.bank k.val pos).nref.drop 1 ∧ (t.bank k.val pos).row = none ∧
          s.now + Config.tNR ≤ (t.bank k.val pos).actOk)) ∧
    ((s.pc k.val).rowAts.contains s.now = false → (fromPtr (s.pc k.val).rowPtr).find? (r.repays k.val) = none →
        (fromPtr (s.pc k.val).rowPtr).find? (r.nrefs k.val) = none → r.pick k.val false = some (pos, a, turn) →
      (rowCmd (s.bank k.val pos) a = .pre →
        s.completes (.channelPick k false) [.chans, .pcs, .counts, .regs, .notices] [Reg.SVC_STATUS]
          (fun t => (t.bank k.val pos).row = none ∧ s.now + Config.tRP ≤ (t.bank k.val pos).actOk ∧
            (t.bank k.val pos).queue = (s.bank k.val pos).queue)) ∧
      (rowCmd (s.bank k.val pos) a = .act →
        s.completes (.channelPick k false) [.chans, .pcs, .tiers, .draws, .counts, .regs, .notices]
          [Reg.SVC_STATUS, Reg.CMN_DRBG (k.val / 16), Reg.CMN_STATUS (k.val / 16)]
          (fun t => (t.bank k.val pos).row = some a.place.row ∧ (t.bank k.val pos).colOk = s.now + Config.tRCD ∧
            (t.bank k.val pos).preOk = s.now + Config.tRAS ∧ (t.bank k.val pos).queue = (s.bank k.val pos).queue)))

/-- R103, R144, R172, R333: the burst of a read of an unprotected line returns: a clean line is answered with its data, an uncorrectable one with
ERR UNCORRECTABLE and the flag, the log entry and the event of R333. -/
def Obligations.ReadReturns : Prop :=
  ∀ (s : State) (p : Port) (id rid : Nat) (b : Burst) (r : OReq), s.up → s.still → AMap.find id s.stack.bursts = some b → b.acc.origin = .req rid →
    AMap.find rid s.own.reqs = some r → r.prot = false → r.from? = some p → s.hostSide p = false → (r.m.op = .rd64 ∨ r.m.op = .rd128) →
    (r.admitted = true → r.sc < 4 → s.target r.sc = 0) →
    (b.data.length = 128 → b.md < 65536 → mdState b.md < 4 → (mdState b.md = 0 ∨ mdKid b.md = r.kid) → mdPoison b.md = false →
        s.sends p .rdata (granule r.m.op / 32) →
      s.completes (.lineReadDone id []) [.bursts, .own, .ports, .sent, .counts, .chans, .regs, .notices] [Reg.SVC_STATUS]
        (fun t => AMap.find id t.stack.bursts = none ∧ AMap.find rid t.own.reqs = none ∧
          ∃ m : Msg, t.net.tx = s.net.tx ++ [(p, m)] ∧ m.op = .rdata ∧ m.h.tag = r.m.h.tag ∧ m.data = readPart r.m.op (adLocal r.m.addr) b.data)) ∧
    (∀ errors : List (Nat × Byte), lineDecode errors = none → s.mild (59 + 5 * (b.acc.place.chan / 8)) b.acc.place.chan → s.sends p .err 0 →
      s.completes (.lineReadDone id errors) (mildParts ++ [.bursts, .own, .sent, .chans])
        ([Reg.SVC_STATUS, Reg.CH_ECC_STATUS b.acc.place.chan] ++ eventRegs)
        (fun t => AMap.find rid t.own.reqs = none ∧ t.fld (Reg.CH_ECC_STATUS b.acc.place.chan) F.CH_ECC_STATUS_UNCORR = 1 ∧
          ∃ m : Msg, t.net.tx = s.net.tx ++ [(p, m)] ∧ m.op = .err ∧ m.status = Cause.uncorrectable ∧ m.h.tag = r.m.h.tag))

/-- R183, R184, R192, R294: a read held alone for its class is admitted when the count is below the limit, and waits for its line; the access that
R294 names moves from its admission queue to its bank queue, where a write is accepted and its request answered. -/
def Obligations.Admission : Prop :=
  ∀ s : State, s.up → s.still →
    (∀ (c : Fin 16) (id : Nat) (r : OReq), AMap.get c.val ([] : List Nat) s.own.holds = [id] → AMap.find id s.own.reqs = some r → r.sc = c.val →
        AMap.get c.val 0 s.own.count < s.limit c.val → s.refuses c.val (s.linePlace r.line).chan = false → (r.m.op = .rd64 ∨ r.m.op = .rd128) →
        r.prot = false → r.data = none → r.m.upd = none → s.heldAhead id r = false → s.tagAhead id r = false → s.mustWait r.line = false → s.own.merges = [] → (s.chan (s.linePlace r.line).chan).retired = false →
        s.queuedWrite (s.linePlace r.line) = none →
      s.completes (.holdQueueAdmit c) [.own, .counts, .bursts, .pcs, .chans, .tiers, .regs] (arrivalRegs (s.linePlace r.line).chan)
        (fun t => AMap.get c.val ([] : List Nat) t.own.holds = [] ∧ AMap.get c.val 0 t.own.count = AMap.get c.val 0 s.own.count + 1 ∧
          (∃ q : OReq, AMap.find id t.own.reqs = some q ∧ q.admitted = true ∧ q.stage = .reading ∧ q.time = s.now) ∧
          t.accWaits (s.metRefresh { id := s.stack.nextAcc, place := s.linePlace r.line, wr := none, sc := c.val,
                                     firm := s.firmAt c.val (s.linePlace r.line).chan, origin := .req id, time := s.now }))) ∧
    (∀ (n : Fin 32) (a : Acc), s.nextMove n.val = some a → (s.tier (n.val / 8)).buffer = [] →
      (a.wr = none ∨ a.origin = .done ∨ a.origin = .copyW →
        s.completes (.admissionQueueMove n) [.chans, .pcs] []
          (fun t => a ∈ (t.bank a.place.pc a.place.pos).queue ∧ (t.chan n.val).admission = (s.chan n.val).admission.filter (fun x => x.id != a.id))) ∧
      (∀ (id : Nat) (p : Port) (r : OReq), a.wr.isSome = true → a.origin = .wrOf id → AMap.find id s.own.reqs = some r → r.accs = 1 →
          r.from? = some p → s.hostSide p = false → s.sends p .wdone 0 → (r.admitted = true → r.sc < 4 → s.target r.sc = 0) →
        s.completes (.admissionQueueMove n) [.chans, .pcs, .own, .ports, .sent, .counts, .regs, .notices] [Reg.SVC_STATUS]
          (fun t => a ∈ (t.bank a.place.pc a.place.pos).queue ∧ AMap.find id t.own.reqs = none ∧
            ∃ m : Msg, t.net.tx = s.net.tx ++ [(p, m)] ∧ m.op = .wdone ∧ m.h.tag = r.m.h.tag)))

/-- R299 to R306, R310: a refresh slot refreshes its bank, or is postponed as debt behind an access that has waited or while the channel issues no
command; the multiplier falls one step; entry into self-refresh from idleness closes the rows and is decided, exit issues and ends, a missed
calibration re-measured; the rest of the dropped segments is rewritten CLEAR. -/
def Obligations.RefreshAndSelfRefresh : Prop :=
  ∀ (s : State), s.up → s.still →
    (∀ (k : Fin 64) (pos : Fin 48), (s.chan (k.val / 2)).pstate ≠ .selfRefresh → (s.chan (k.val / 2)).pstate ≠ .retired →
        (s.chan (k.val / 2)).retired = false → (s.tier (k.val / 16)).hbLost = false →
      (s.waitedAt k.val pos.val = false → s.silent (k.val / 2) = false →
        s.completes (.refreshDue k pos) [.pcs, .chans, .tiers, .counts, .regs] [Reg.CH_STATUS (k.val / 2)]
          (fun t => (t.bank k.val pos.val).row = none ∧ (t.bank k.val pos.val).debt = (s.bank k.val pos.val).debt ∧
            s.now + Config.tRFCpb ≤ (t.bank k.val pos.val).actOk ∧ (t.bank k.val pos.val).refTill = (t.bank k.val pos.val).actOk)) ∧
      ((s.waitedAt k.val pos.val || s.silent (k.val / 2)) = true → (s.bank k.val pos.val).debt + 1 < Config.REF_DEBT_MAX →
        s.completes (.refreshDue k pos) [.pcs, .chans, .counts, .regs] [Reg.CH_STATUS (k.val / 2)]
          (fun t => (t.bank k.val pos.val).debt = (s.bank k.val pos.val).debt + 1 ∧ (t.bank k.val pos.val).row = (s.bank k.val pos.val).row))) ∧
    (∀ n : Fin 32, (s.chan n.val).coolAt.isSome = true → 1 < (s.chan n.val).mult →
      s.completes (.refreshRateFall n) [.chans, .regs] [Reg.CH_STATUS n.val]
        (fun t => (t.chan n.val).mult = (s.chan n.val).mult / 2 ∧ ∀ m : Nat, m ≠ n.val → t.chan m = s.chan m)) ∧
    (∀ n : Fin 32, (s.chan n.val).pstate = .active → (s.chan n.val).retired = false → s.srReady n.val = true →
        (s.chan n.val).idleAt + s.idleSr (n.val / 8) ≤ s.now → (s.chan n.val).quietTill ≤ s.now →
      s.completes (.selfRefreshEntry n) [.chans, .pcs, .regs] [Reg.CH_STATUS n.val]
        (fun t => (t.chan n.val).pstate = .entering ∧ (t.chan n.val).srAt = s.srWhen n.val ∧
          (∀ k i : Nat, k / 2 = n.val → (t.bank k i).row = none) ∧ ∀ m : Nat, m ≠ n.val → t.chan m = s.chan m)) ∧
    (∀ n : Fin 32, (s.chan n.val).pstate = .selfRefresh → (s.chan n.val).srAt + Config.tSR_MIN ≤ s.now → (s.tier (n.val / 8)).hbLost = false →
      s.completes (.selfRefreshExit n) [.chans, .counts, .regs] [Reg.CH_STATUS n.val]
        (fun t => (t.chan n.val).pstate = .exiting ∧ (t.chan n.val).exitAt = s.now ∧ ∀ m : Nat, m ≠ n.val → t.chan m = s.chan m)) ∧
    (∀ (n : Fin 32) (obs : TrainObs), (s.chan n.val).pstate = .exiting → (s.chan n.val).exitAt + Config.tXS ≤ s.now →
      ((s.chan n.val).remeasure = false →
        s.completes (.selfRefreshExitDone ⟨n, obs⟩) [.chans, .regs] [Reg.CH_STATUS n.val]
          (fun t => (t.chan n.val).pstate = .active ∧ ∀ m : Nat, m ≠ n.val → t.chan m = s.chan m)) ∧
      ((s.chan n.val).remeasure = true → (s.chan n.val).train.length = 2 → failingOn obs (n.val / 8) = [] →
          s.unnamed [2 * n.val, 2 * n.val + 1] obs = [] →
        s.completes (.selfRefreshExitDone ⟨n, obs⟩) [.chans, .regs, .counts] [Reg.CH_STATUS n.val]
          (fun t => (t.chan n.val).pstate = .active ∧ (t.chan n.val).remeasure = false ∧
            (∀ h < 2, ((t.chan n.val).train.getD h {}).pins = s.remeasured (2 * n.val + h) obs) ∧
            ∀ m : Nat, m ≠ n.val → t.chan m = s.chan m))) ∧
    (∀ (n : Fin 32) (keep : Nat), (s.chan n.val).pasrInit = some keep → s.own.waits = [] → s.own.merges = [] → s.own.parked = [] →
        s.pool.jobs = [] →
      s.completes (.pasrInitDone n) [.mem, .chans, .regs] [Reg.CH_STATUS n.val]
        (fun t => (t.chan n.val).pasrInit = none ∧ t.fld (Reg.CH_STATUS n.val) F.CH_STATUS_PASR_INIT = 0 ∧
          ∀ q : Place, Place.ofIx q.ix = q → (FillSel.segments n.val keep (s.chan n.val).pasrMark 32767).covers q = true →
            t.lineMd q = 0 ∧ t.lineData q = zeros 128))

/-- R314, R315, R322: random bits: a reseed from a passing source clears LASTSEED and counts; a failing health test is flagged, raises its notice and its
event; a source that passes its tests again is taken back. -/
def Obligations.RandomBits : Prop :=
  ∀ (s : State) (k : Fin 4), s.up → s.still → (s.tier k.val).built = true →
    (s.sourceOk k.val = true →
      s.completes (.drbgReseed k) [.tiers, .counts, .regs] [Reg.CMN_DRBG k.val, Reg.CMN_STATUS k.val]
        (fun t => (t.tier k.val).lastSeed = false ∧ t.fld (Reg.CMN_STATUS k.val) F.CMN_STATUS_RNG_BORROW = 0 ∧
          t.fld (Reg.CMN_DRBG k.val) F.CMN_DRBG_RESEEDS = min (2 ^ 31 - 1) (s.fld (Reg.CMN_DRBG k.val) F.CMN_DRBG_RESEEDS + 1))) ∧
    (∀ path : Path, s.sourceOk k.val = true →
      s.completes (.reseed path k) [.tiers, .counts, .regs] [Reg.CMN_DRBG k.val, Reg.CMN_STATUS k.val]
        (fun t => (t.tier k.val).lastSeed = false ∧
          t.fld (Reg.CMN_DRBG k.val) F.CMN_DRBG_RESEEDS = min (2 ^ 31 - 1) (s.fld (Reg.CMN_DRBG k.val) F.CMN_DRBG_RESEEDS + 1))) ∧
    (∀ apt : Bool, s.mild (88 + k.val) k.val →
      s.completes (.entropyHealthFail k apt) mildParts ([Reg.CMN_DRBG k.val, Reg.CMN_STATUS k.val] ++ eventRegs)
        (fun t => t.sourceOk k.val = false ∧ t.fld (Reg.CMN_STATUS k.val) (if apt then F.CMN_STATUS_APT_FAIL else F.CMN_STATUS_RCT_FAIL) = 1)) ∧
    (s.sourceOk k.val = false →
      s.completes (.entropyRetest k true) [.tiers, .counts, .regs] [Reg.CMN_DRBG k.val, Reg.CMN_STATUS k.val]
        (fun t => t.sourceOk k.val = true ∧ (t.tier k.val).lastSeed = false ∧ (t.tier k.val).gens = 0) ∧
      s.completes (.entropyRetest k false) [] [] (fun _ => True))

/-- R187, R189, R191, R196, R317: levels and the saturation flag follow the ages; limits, reach and pins are written, a write beyond FIRM_BUDGET is
ignored with BUDGET_ERR; a channel that a pin reaches leaves self-refresh once tSR_MIN is over; a parity alert closes the rows of its pseudo-channel and, where no position fails its test, logs it and raises its event. -/
def Obligations.ServiceClasses : Prop :=
  ∀ s : State, s.up → s.still →
    (∀ (n : Fin 32) (c : Fin 4), s.reaches c.val n.val = true →
      s.completes (.escalation n c) [.chans, .regs, .notices, .counts] [Reg.SVC_STATUS]
        (fun t => (t.chan n.val).levels = (List.range 4).map (s.levelNow n.val) ∧
          (3 ∈ (List.range 4).map (s.levelNow n.val) → (t.chan n.val).sat = true ∧ t.fld Reg.SVC_STATUS F.SVC_STATUS_SAT_ANY = 1) ∧
          ∀ m : Nat, m ≠ n.val → t.chan m = s.chan m)) ∧
    (∀ n : Fin 32, (s.chan n.val).sat = true → (∀ c < 4, s.levelNow n.val c < 2) →
      s.completes (.saturationClear n) [.chans, .regs, .counts] [Reg.SVC_STATUS]
        (fun t => (t.chan n.val).sat = false ∧ ∀ m : Nat, m ≠ n.val → t.chan m = s.chan m)) ∧
    (∀ (path : Path) (c : Fin 16) (w : Word), w.toNat / 512 = (s.reg (Reg.SVC_LIMIT c.val)).toNat / 512 →
        (4 ≤ c.val ∨ s.budgetOk (0x40 + 4 * c.val) (BitVec.ofNat 32 (max 1 (min 256 (w.toNat % 512)))) = true) →
      s.completes (.svcLimitWrite path c w) [.regs] [Reg.SVC_LIMIT c.val] (fun t => t.limit c.val = max 1 (min 256 (w.toNat % 512)))) ∧
    (∀ (path : Path) (c : Fin 4) (w : Word), s.budgetOk (0xA0 + 4 * c.val) w = true →
      s.completes (.svcReachWrite path c w) [.regs] [Reg.SVC_REACH c.val] (fun t => t.reg (Reg.SVC_REACH c.val) = w)) ∧
    (∀ (path : Path) (c : Fin 4) (w : Word), s.budgetOk (0xA0 + 4 * c.val) w = false →
      s.completes (.svcReachWrite path c w) [.regs] [Reg.SVC_STATUS] (fun t => t.fld Reg.SVC_STATUS F.SVC_STATUS_BUDGET_ERR = 1)) ∧
    (∀ (path : Path) (c : Fin 4) (w : Word), w.toNat / 2 ^ 17 = (s.reg (Reg.SVC_TARGET c.val)).toNat / 2 ^ 17 → (∀ k < 4, (s.tier k).hbLost = false) →
      s.completes (.pinWrite path c w) [.regs, .chans, .counts] (Reg.SVC_TARGET c.val :: (List.range 32).map Reg.CH_STATUS)
        (fun t => t.target c.val = w.toNat % 65536 ∧ ∀ n < 32, w.toNat / 2 ^ 16 % 2 = 1 → s.reaches c.val n = true → (s.chan n).pstate = .selfRefresh →
          if (s.chan n).srAt + Config.tSR_MIN ≤ s.now then (t.chan n).pstate = .exiting else (t.chan n).wantExit = true)) ∧
    (∀ (pc : Fin 64) (group later : Nat), s.mild (58 + 5 * (pc.val / 16)) (pc.val / 2) → (s.pc pc.val).issued = [] →
      s.completes (.parityAlert pc group ⟨later, none⟩) (mildParts ++ [.pcs, .chans])
        ([Reg.CH_STATUS (pc.val / 2), Reg.CH_ECC_STATUS (pc.val / 2)] ++ eventRegs)
        (fun t => t.fld (Reg.CH_STATUS (pc.val / 2)) F.CH_STATUS_PARITY = 1 ∧
          t.fld (Reg.CH_ECC_STATUS (pc.val / 2)) F.CH_ECC_STATUS_PIN_SUSPECT = 1 ∧ ∀ i < 48, (t.bank pc.val i).row = none))

/-- R159, R161: the copy of a page: a line that was read is written at its target, and when the last one is, COPY_DONE gives the entry its full
effect and COPYING falls. -/
def Obligations.Copies : Prop :=
  ∀ (s : State) (job i : Nat) (c : CopyJob) (e : RemapE), s.up → s.pool.jobs = [(job, c)] → c.kind = .page i none →
    AMap.find i s.pool.remaps = some e → s.own.waits = [] → s.own.merges = [] → s.own.parked = [] →
    (s.still → c.total ≤ c.next → s.pool.blocks.all (fun b => (s.chan (b / 2)).half.isNone && !(s.chan (b / 2)).retired) = true → s.pool.steers = [] →
      s.completes (.copyDone job) [.pool, .counts, .regs] [Reg.NDL_LINE_STATUS]
        (fun t => t.pool.jobs = [] ∧ AMap.find i t.pool.remaps = some { e with done := true } ∧
          t.fld Reg.NDL_LINE_STATUS F.NDL_LINE_STATUS_COPYING = 0)) ∧
    (∀ (id : Nat) (b : Burst), ({ s with pool.jobs := [(job, { c with next := c.total })] } : State).still → c.total = c.next + 1 →
        AMap.find id s.stack.bursts = some b → b.acc.origin = .copy job → b.data.length = 128 → b.md < 65536 → mdState b.md < 4 →
        (s.chan (s.copyTarget c c.next).chan).retired = false → s.queuedWrite (s.copyTarget c c.next) = none →
      s.completes (.lineReadDone id []) [.pool, .bursts, .counts, .pcs, .chans, .tiers, .regs, .notices]
        (arrivalRegs (s.copyTarget c c.next).chan)
        (fun t => t.pool = { s.pool with jobs := [(job, { c with next := c.total })] } ∧ AMap.find id t.stack.bursts = none ∧
          t.lineNow (s.copyTarget c c.next) = (b.data, b.md)))

/-- R293, R326, R328 to R332, R340 to R346: the bucket's leak; a visit of Ranger, which waits in its bank's queue, reads its line and where that needs
correction writes it back, and moves the pass on; its late flag; the test of a suspect position: a position that passes is cleared, one that
fails is put down for a free spare, or puts its channel on the way to half width; and the end of that way. -/
def Obligations.RangerAndSuspects : Prop :=
  ∀ s : State, s.up → s.still →
    (s.completes .ceLeak [.chans] [] (fun t => ∀ n : Nat, t.chan n = { s.chan n with level := (s.chan n).level - 1 })) ∧
    (∀ n : Fin 32, s.rangerRuns n.val = true → s.rangerSkips (Place.ofRanger n.val (s.chan n.val).rangerPos) = false →
      ∀ errors verify : List (Nat × Byte),
        s.completes (.rangerVisit n errors verify) [.chans, .pcs, .tiers, .bursts, .counts] []
          (fun t => (t.chan n.val).visit = some (errors, verify) ∧ (t.chan n.val).rangerPos = (s.chan n.val).rangerPos ∧
            t.accWaits (s.metRefresh { id := s.stack.nextAcc, place := Place.ofRanger n.val (s.chan n.val).rangerPos, wr := none, sc := 15,
                                       firm := false, origin := .ranger, time := s.now }))) ∧
    (∀ (k : Fin 64) (pos : Nat) (a : Acc) (turn : Option (Bool × List Nat × Nat)) (errors : List (Nat × Byte)) (syms : Nat),
        s.issues (k.val / 2) = true → (s.relevel (k.val / 2)).pick k.val true = some (pos, a, turn) → a.origin = .ranger → a.place.pc = k.val →
        (s.chan (k.val / 2)).visit = some (errors, []) → lineDecode errors = some ([], syms) → (s.chan (k.val / 2)).level < Config.CE_DEPTH →
        (s.chan (k.val / 2)).rangerPos + 1 < rangerPlaces → s.lineMd a.place < 65536 → mdState (s.lineMd a.place) < 4 →
      s.completes (.channelPick k true) [.chans, .pcs, .mem, .counts, .regs, .notices] [Reg.SVC_STATUS]
        (fun t => (t.chan (k.val / 2)).visit = none ∧ (t.chan (k.val / 2)).rangerPos = (s.chan (k.val / 2)).rangerPos + 1 ∧
          (t.chan (k.val / 2)).level = (if syms = 0 then (s.chan (k.val / 2)).level else (s.chan (k.val / 2)).level + 1) ∧
          t.lineData a.place = s.lineData a.place ∧ t.lineMd a.place = s.lineMd a.place)) ∧
    (∀ n : Fin 32, (s.chan n.val).retired = false → s.fld (Reg.CMN_RANGER_CTL (n.val / 8)) F.CMN_RANGER_CTL_EN = 1 →
        s.fld (Reg.CH_ECC_STATUS n.val) F.CH_ECC_STATUS_RANGER_LATE = 0 →
      s.completes (.rangerLate n) [.regs, .counts] [Reg.CH_ECC_STATUS n.val]
        (fun t => t.fld (Reg.CH_ECC_STATUS n.val) F.CH_ECC_STATUS_RANGER_LATE = 1)) ∧
    (∀ (q : PinTest) (at_ : Place × Nat), groupExists q.tier.val q.group = true → posKind q.tier.val q.group q.position = .data q.pc.val →
        at_ = (s.pc q.pc.val).lastHit.getD (posPlace q.tier.val q.group q.position) →
        (s.pc q.pc.val).suspect ≠ [] → s.flt.blaze.f2 = none →
      (q.pass = true →
        s.completes (.pinTestDone q) [.chans, .pcs, .blaze, .regs, .counts] [Reg.CH_ECC_STATUS (q.pc.val / 2)]
          (fun t => (t.pc q.pc.val).hits = [] ∧ t.fld (Reg.CH_ECC_STATUS (q.pc.val / 2)) F.CH_ECC_STATUS_PIN_SUSPECT = 1)) ∧
      (∀ i : Nat, q.pass = false → (s.tier q.tier.val).spares = [] → (s.tier q.tier.val).toSteer = [] → s.freeSpare q.tier.val q.group = some i →
        s.completes (.pinTestDone q) [.chans, .pcs, .blaze, .regs, .counts, .tiers] [Reg.CH_ECC_STATUS (q.pc.val / 2)]
          (fun t => (t.pc q.pc.val).hits = [] ∧ (t.tier q.tier.val).toSteer = [(q.group, i, q.position, at_)])) ∧
      (q.pass = false → s.freeSpare q.tier.val q.group = none →
          (s.tier q.tier.val).spares.all (fun e => !(e.1 / 64 == q.group && e.2.assigned && !e.2.failed && e.2.position == q.position)) = true →
          (s.tier q.tier.val).toSteer = [] → (s.chan (q.pc.val / 2)).retired = false → (s.chan (q.pc.val / 2)).half = none →
          (s.chan (q.pc.val / 2)).toHalf = none →
        s.completes (.pinTestDone q) [.chans, .pcs, .blaze, .regs, .counts, .tiers] [Reg.CH_ECC_STATUS (q.pc.val / 2)]
          (fun t => (t.chan (q.pc.val / 2)).switchAt = some s.now ∧ (t.chan (q.pc.val / 2)).toHalf = some (q.pc.val % 2 == 0) ∧
            (t.chan (q.pc.val / 2)).halfFrom = some (q.group, q.position, at_)))) ∧
    (∀ (n : Fin 32) (b : Bool), (s.chan n.val).switchAt.isSome = true → (s.chan n.val).toHalf = some b →
        s.pool.blocks = [] → s.pool.steers = [] → s.mild (45 + 4 * (n.val / 8)) n.val →
      s.completes (.halfWidthResume n) (mildParts ++ [.chans]) ([Reg.CH_STATUS n.val, Reg.CH_ECC_STATUS n.val, Reg.NDL_PATH_STATUS, Reg.NDL_LINE_STATUS] ++ eventRegs)
        (fun t => (t.chan n.val).half = some b ∧ (t.chan n.val).toHalf = none ∧ (t.chan n.val).switchAt = none ∧
          t.fld (Reg.CH_STATUS n.val) F.CH_STATUS_HALF = 1 ∧
          ((s.chan n.val).halfFrom.isSome = true → t.fld (Reg.CH_ECC_STATUS n.val) F.CH_ECC_STATUS_WINDTHROW = 1)))

/-- R361 to R366: calibration: the pending run of a tier starts, its measurement of a bit-group becomes the new setting, and the quiet window takes
the new settings over; the sampler's measurement between runs is kept, and a low margin starts a run. -/
def Obligations.Calibration : Prop :=
  ∀ (s : State) (k : Fin 4), s.up → s.still → (s.tier k.val).hbLost = false →
    (∀ c : CalCause, (s.tier k.val).cal.pending = some c → (s.tier k.val).cal.running = none →
      s.completes (.calGapExpiry k) [.tiers, .counts] []
        (fun t => (t.tier k.val).cal.running = some c ∧ (t.tier k.val).cal.pending = none ∧ (t.tier k.val).cal.startAt = some s.now ∧
          (t.tier k.val).cal.measured = false ∧ ∀ j : Nat, j ≠ k.val → t.tier j = s.tier j)) ∧
    (∀ (m : GroupMargin) (obs : TrainObs), (s.tier k.val).cal.running.isSome = true → (s.tier k.val).cal.measured = false →
        groupExists k.val m.group = true → m.failed = false → AMap.find (cellOf m) (s.tier k.val).failCells = none → failingOn obs k.val = [] →
        s.unnamed (((List.range 16).map (16 * k.val + ·)).filter (fun n => (s.chan (n / 2)).pstate == .active)) obs = [] →
      s.completes (.calMeasureDone k ⟨[m], obs⟩) [.tiers, .chans] []
        (fun t => (t.tier k.val).cal.measured = true ∧ (t.tier k.val).cal.running = (s.tier k.val).cal.running ∧
          (t.tier k.val).cal.newMargins = AMap.put (bitGroupOf m) (settingOf m) (s.tier k.val).cal.margins ∧
          (t.tier k.val).cal.newTrain = (((List.range 16).map (16 * k.val + ·)).filter (fun n => (s.chan (n / 2)).pstate == .active)).map
            (fun n => (n, s.remeasured n obs)) ∧
          (∀ n : Nat, n / 8 = k.val → (s.chan n).retired = false → (t.chan n).remeasure = ((s.chan n).pstate != .active)) ∧
          ∀ j : Nat, j ≠ k.val → t.tier j = s.tier j)) ∧
    ((s.tier k.val).cal.running.isSome = true → (s.tier k.val).cal.measured = true → (s.tier k.val).toSteer = [] → s.calAuto = false →
        (∀ c < 8, (s.chan (8 * k.val + c)).switchAt = none) →
      s.completes (.quietWindow k []) [.chans, .tiers, .counts, .regs, .notices]
        (Reg.NDL_PATH_STATUS :: Reg.CLK_STATUS :: (List.range 8).map (fun c => Reg.CH_STATUS (8 * k.val + c)))
        (fun t => (t.tier k.val).cal.running = none ∧ (t.tier k.val).cal.margins = (s.tier k.val).cal.newMargins ∧
          (t.tier k.val).cal.refTemp = (s.tier k.val).cal.newRef ∧ ∀ n : Nat, n / 8 = k.val → (t.chan n).quietTill = s.now + 100)) ∧
    (∀ m : GroupMargin, (s.tier k.val).cal.running = none → groupExists k.val m.group = true → m.failed = false →
      (Config.XMARGIN_MIN ≤ m.margin →
        s.completes (.backgroundMeasurement k m) [.tiers] []
          (fun t => (t.tier k.val).cal.margins = remargin (bitGroupOf m) (settingOf m) (s.tier k.val).cal.margins ∧
            (t.tier k.val).cal.running = none)) ∧
      (m.margin < Config.XMARGIN_MIN → s.calAuto = true → s.calGapOver k.val = true →
        s.completes (.backgroundMeasurement k m) [.tiers, .counts] []
          (fun t => (t.tier k.val).cal.running = some .margin ∧ (t.tier k.val).cal.startAt = some s.now)))

/-- R170, R367 to R371: a tier that loses its heartbeat stops: its accepted writes are held, its channels enter self-refresh and its bursts are
gone; it rejoins with its channels active and its held writes made; JOURNAL.CLR empties the journals. -/
def Obligations.Heartbeat : Prop :=
  ∀ (s : State) (k : Fin 4), s.up → s.still →
    ((s.tier k.val).hbLost = false → s.own.reqs = [] → s.own.merges = [] → s.own.commits = [] → s.mild (42 + 4 * k.val) k.val →
      s.completes (.heartbeatLoss k []) (mildParts ++ [.chans, .pcs, .bursts, .own])
        (Reg.CLK_STATUS :: (List.range 32).map Reg.CH_STATUS ++ eventRegs)
        (fun t => (t.tier k.val).hbLost = true ∧ (t.tier k.val).held = (s.tier k.val).held ++ s.waitingWrites k.val ∧
          (∀ n < 32, n / 8 = k.val → (s.chan n).retired = false → (t.chan n).pstate = .selfRefresh) ∧
          t.stack.bursts = s.stack.bursts.filter (fun b => decide (b.2.acc.place.tier ≠ k.val)) ∧ t.fld Reg.CLK_STATUS F.CLK_STATUS_HB_LOSS = 1)) ∧
    (∀ (w : Acc) (margins : List GroupMargin) (obs : TrainObs), failingOn obs k.val = [] →
        s.unnamed (((List.range 16).map (16 * k.val + ·)).filter (fun n => !(s.chan (n / 2)).retired)) { obs with failing := [] } = [] →
        (s.tier k.val).hbLost = true → (s.tier k.val).held = [w] → (s.tier k.val).poisons = [] → (s.tier k.val).jNew = 0 → s.pool.jobs = [] →
        s.own.waits = [] → s.own.merges = [] → s.own.parked = [] →
      s.completes (.tierRejoin ⟨k, margins, obs⟩) [.tiers, .chans, .mem, .counts, .regs, .notices] (Reg.CLK_STATUS :: (List.range 32).map Reg.CH_STATUS)
        (fun t => (t.tier k.val).hbLost = false ∧ (t.tier k.val).held = [] ∧
          (∀ d : List Byte × Nat, w.wr = some d → d.1.length = 128 → t.lineData w.place = d.1 ∧ t.lineMd w.place = d.2) ∧
          ∀ n < 32, n / 8 = k.val → (s.chan n).retired = false → (t.chan n).pstate = .active)) ∧
    (∀ path : Path, s.completes (.journalClr path) [.tiers, .regs] [] (fun t => ∀ j < 4, (t.tier j).journal = [] ∧ (t.tier j).jOvf = 0))

/-- R199, R200, R220: the commands of QCTX.CMD: each takes its tag and sets BUSY until the command has ended; READ shows the context in the window,
WRITE takes it over but for its read-only parts, ENABLE, DRAIN and DISABLE change the queue's state; one that may not run gives its code. -/
def Obligations.ContextCommands : Prop :=
  ∀ (s : State) (path : Path) (tag : Byte) (q : Nat), s.up → s.still → s.isManager = true → s.fld Reg.QCTX_SEL F.QCTX_SEL_QUEUE = q →
    (s.fld Reg.QCTX_CMD F.QCTX_CMD_BUSY = 0 →
      s.completes (.qctxRead path tag) [.regs] (Reg.QCTX_CMD :: (List.range 16).map Reg.QCTX_WIN)
        (fun t => t.fld Reg.QCTX_CMD F.QCTX_CMD_BUSY = 1 ∧ t.fld Reg.QCTX_CMD F.QCTX_CMD_TAG = tag.toNat ∧ t.fld Reg.QCTX_CMD F.QCTX_CMD_ERR = 0 ∧
          ∀ k < 16, t.reg (Reg.QCTX_WIN k) = BitVec.ofNat 32 (cw (s.ctx q) k)) ∧
      (cState (s.ctx q) = 0 → (s.naming q).all (fun x => cState (s.ctx x) != 1) = true →
        s.completes (.qctxWrite path tag) [.regs, .que] [Reg.QCTX_CMD]
          (fun t => t.fld Reg.QCTX_CMD F.QCTX_CMD_ERR = 0 ∧ t.ctx q = ctxMerge (s.ctx q) s.win ∧ (∀ j : Nat, j ≠ q → t.ctx j = s.ctx j) ∧
            t.que = { s.que with ctx := t.que.ctx })) ∧
      (cState (s.ctx q) = 0 → s.ctxValid q = true → cGrpEn (s.ctx q) = false →
        s.completes (.qctxEnable path tag) [.regs, .que] [Reg.QCTX_CMD, Reg.ENG_STATUS]
          (fun t => t.fld Reg.QCTX_CMD F.QCTX_CMD_ERR = 0 ∧ t.ctx q = cPutState (s.ctx q) 1 ∧ (∀ j : Nat, j ≠ q → t.ctx j = s.ctx j) ∧
            t.que = { s.que with ctx := t.que.ctx })) ∧
      (cState (s.ctx q) = 0 → s.ctxValid q = false →
        s.completes (.qctxEnable path tag) [.regs] [Reg.QCTX_CMD, Reg.QCTX_STATUS]
          (fun t => t.fld Reg.QCTX_CMD F.QCTX_CMD_ERR = 2 ∧ t.fld Reg.QCTX_STATUS F.QCTX_STATUS_CMD_ERR = 1)) ∧
      (cState (s.ctx q) = 1 → cInflight (s.ctx q) ≠ 0 →
        s.completes (.qctxDrain path tag) [.regs, .que] [Reg.QCTX_CMD]
          (fun t => t.ctx q = cPutState (s.ctx q) 2 ∧ (∀ j : Nat, j ≠ q → t.ctx j = s.ctx j) ∧ AMap.find q t.que.tails = none)) ∧
      (cState (s.ctx q) = 1 → cInflight (s.ctx q) = 0 →
        s.completes (.qctxDrain path tag) [.regs, .que] [Reg.QCTX_CMD, Reg.QCTX_STATUS, Reg.ENG_STATUS]
          (fun t => cState (t.ctx q) = 0 ∧ (∀ j : Nat, j ≠ q → t.ctx j = s.ctx j) ∧ t.fld Reg.QCTX_STATUS F.QCTX_STATUS_DRAINED = 1)) ∧
      (cState (s.ctx q) ≠ 0 → cInflight (s.ctx q) = 0 → s.que.descs.filter (fun d => d.q == q) = [] →
        s.completes (.qctxDisable path tag) [.regs, .que] [Reg.QCTX_CMD, Reg.QCTX_STATUS, Reg.ENG_STATUS]
          (fun t => cState (t.ctx q) = 0 ∧ (∀ j : Nat, j ≠ q → t.ctx j = s.ctx j) ∧ t.fld Reg.QCTX_STATUS F.QCTX_STATUS_DRAINED = 1))) ∧
    (∀ c : Instr, s.fld Reg.QCTX_CMD F.QCTX_CMD_BUSY = 1 →
        c ∈ [.qctxRead path tag, .qctxWrite path tag, .qctxEnable path tag, .qctxDrain path tag, .qctxDisable path tag] →
      s.completes c [.regs] [Reg.QCTX_CMD, Reg.QCTX_STATUS]
        (fun t => t.fld Reg.QCTX_CMD F.QCTX_CMD_ERR = 4 ∧ t.fld Reg.QCTX_CMD F.QCTX_CMD_BUSY = 1 ∧ t.fld Reg.QCTX_STATUS F.QCTX_STATUS_CMD_ERR = 1)) ∧
    s.completes .qctxCmdDone [.regs] [Reg.QCTX_CMD] (fun t => t.fld Reg.QCTX_CMD F.QCTX_CMD_BUSY = 0)

/-- R204, R206, R212, R217: a poll reads the summary lines of the enabled queues, one that comes due while the last runs is kept and flagged; a fetch
turn reads the descriptor at a queue's head and counts it in flight; a record that has waited, or a granule of four, is written to the ring. -/
def Obligations.PollsFetchesAndRecords : Prop :=
  ∀ (s : State) (q : Nat), s.up → s.still → s.isManager = true →
    (s.fld Reg.QCTX_POLL F.QCTX_POLL_RUN = 1 → s.que.polling = 0 → s.enabled = [q] → s.ringFull (s.ringOf q) = false →
        AMap.find s.mgr.nextH s.mgr.host = none → s.sends s.hostPort .rd128 0 →
      s.completes .poll [.ports, .sent, .counts, .mgr, .que] []
        (fun t => t.que = { s.que with dbBase := s.que.dbNew, sumBase := s.que.sumNew, pollDue := false, inPoll := [q], polling := 1 } ∧
          s.asked (.summary (q / 1024)) .rd128 (s.que.sumNew + 128 * (q / 1024)) t)) ∧
    (s.fld Reg.QCTX_POLL F.QCTX_POLL_RUN = 1 → s.que.polling ≠ 0 → s.mild 98 0 →
      s.completes .poll (mildParts ++ [.que]) (Reg.QCTX_STATUS :: eventRegs)
        (fun t => t.que = { s.que with pollDue := true } ∧ t.fld Reg.QCTX_STATUS F.QCTX_STATUS_POLL_OVERRUN = 1)) ∧
    (s.fetchable = [q] → cHead (s.ctx q) < 2 ^ 32 → AMap.find q s.que.tails = some ((cHead (s.ctx q) + 1) % 2 ^ 32) → s.ringFull (s.ringOf q) = false →
        AMap.get (cSc (s.ctx q)) 0 s.own.count < s.limit (cSc (s.ctx q)) → AMap.find s.mgr.nextH s.mgr.host = none → s.sends s.hostPort .rd64 0 →
      s.completes .fetchTurn [.ports, .sent, .counts, .mgr, .que] []
        (fun t => t.que.descs = s.que.descs ++ [{ q := q, i := cHead (s.ctx q), order := s.que.nextDesc, seqWant := cNextSeq (s.ctx q) }] ∧
          t.ctx q = cPutInflight (cPut (cPut (s.ctx q) 8 (cHead (s.ctx q) + 1)) 9 (cNextSeq (s.ctx q) + 1)) (cInflight (s.ctx q) + 1) ∧
          s.asked (.desc q (cHead (s.ctx q))) .rd64 (cRing (s.ctx q) + 64 * (cHead (s.ctx q) % 2 ^ cRingLog2 (s.ctx q))) t)) ∧
    (∀ r : RecS, (AMap.get q ({} : CqS) s.que.cqs).recs = [r] → (AMap.get q ({} : CqS) s.que.cqs).read ≠ some (r.n / 4) →
        AMap.find s.mgr.nextH s.mgr.host = none → s.sends s.hostPort .rd64 0 →
      s.completes (.recordHoldExpiry q) [.ports, .sent, .counts, .mgr, .que] []
        (fun t => (AMap.get q ({} : CqS) t.que.cqs).recs = [r] ∧ (AMap.get q ({} : CqS) t.que.cqs).read = some (r.n / 4) ∧
          s.asked (.recRead q (r.n / 4)) .rd64 (cCq (s.ctx q) + r.n % 2 ^ cCqLog2 (s.ctx q) / 4 * 64) t)) ∧
    (∀ a b c d : RecS, (AMap.get q ({} : CqS) s.que.cqs).recs = [a, b, c, d] → a.n % 4 = 0 → b.n = a.n + 1 → c.n = a.n + 2 → d.n = a.n + 3 →
        a.key = none → b.key = none → c.key = none → d.key = none → s.sends s.hostPort .wr64 2 →
      s.completes (.recordHoldExpiry q) [.ports, .sent, .counts, .mgr, .que] []
        (fun t => (AMap.get q ({} : CqS) t.que.cqs).recs = [] ∧ t.ctx q = cPut (s.ctx q) 10 (cCqTail (s.ctx q) + 4) ∧
          ∃ m : Msg, t.net.tx = s.net.tx ++ [(s.hostPort, m)] ∧ m.op = .wr64 ∧
            m.addr = (cCq (s.ctx q) + a.n % 2 ^ cCqLog2 (s.ctx q) / 4 * 64) % 2 ^ 64 ∧
            m.data = leBytes 16 a.word ++ leBytes 16 b.word ++ leBytes 16 c.word ++ leBytes 16 d.word))

/-- R214, R262, R263, R384, R477, R481: FENCE, CENSUS, POWER_STATE, KEY_LOAD and KEY_RETIRE as the warden takes up their descriptor: what each sends or
starts, and the codes with which it ends at once. -/
def Obligations.OrdersAndKeys : Prop :=
  ∀ (s : State) (q i : Nat) (d : DescS), s.up → s.still → s.isManager = true → s.que.descs = [d] → d.q = q → d.i = i → d.stage = .ready →
    dQuiet d.words = false → s.ringFree q →
    (dOpc d.words = 0x40 → s.isEpochEnd d = false →
      s.completes (.fenceDesc q i) [.counts, .que] [] (fun t => s.recorded d 0 0 t ∧ t.que.job = none)) ∧
    (dOpc d.words = 0x41 →
      (s.flt.census.isSome = true → s.completes (.censusDesc q i) [.counts, .que] [] (fun t => s.recorded d Code.busy 0 t ∧ t.que.job = none)) ∧
      (s.flt.census = none → dDst d.words % 128 = 0 → 128 + 18560 * s.numbers.length ≤ dLen d.words → (∀ p : Port, s.markerPort p = false) →
          s.numbers.all (fun n => n == 0 || s.censusState n != 0) = true →
        s.completes (.censusDesc q i) [.ports, .counts, .census, .chans, .que, .regs] [Reg.CENSUS_LAST, Reg.CENSUS_STATUS]
          (fun t => t.que = { s.que with descs := [{ d with stage := .running }], job := some { q := q, i := i } } ∧
            t.flt.snap = (s.tally.bump (devSlot 144) 1).flt.counts ∧ t.flt.censusNo = s.flt.censusNo + 1 ∧ t.flt.lastCensus = s.flt.censusNo + 1 ∧
            t.fld Reg.CENSUS_STATUS F.CENSUS_STATUS_RUNNING = 1 ∧
            ∃ c : CensusS, t.flt.census = some c ∧ c.number = s.flt.censusNo + 1 ∧ c.tick = s.tick ∧ c.dst = some (q, i, dDst d.words)))) ∧
    (∀ n k : Nat, dOpc d.words = 0x42 → pwrArgs d.words = (false, k) → dTgt d.words = n →
      (s.pwrRefusal n k ≠ 0 →
        s.completes (.powerState q i) [.counts, .que, .regs] [Reg.PWR_STATUS]
          (fun t => s.recorded d (s.pwrRefusal n k) 0 t ∧ t.que.job = none ∧
            (s.pwrRefusal n k = Code.condition → t.fld Reg.PWR_STATUS F.PWR_STATUS_REFUSED = 1))) ∧
      (s.pwrRefusal n k = 0 → s.pwrOf n = 0 → k = 0 →
        s.completes (.powerState q i) [.counts, .que] [] (fun t => s.recorded d 0 0 t ∧ t.que.job = none)) ∧
      (s.pwrRefusal n k = 0 → s.pwrOf n = 0 → k ≠ 0 → n ≠ 0 → s.num = 0 → s.sends (s.trunkPort n) .cwr 0 →
        s.completes (.powerState q i) [.ports, .sent, .counts, .mgr, .topo, .que] []
          (fun t => t.que.descs = [{ d with stage := .running }] ∧ (t.ent n).pwrBusy = true ∧ (∀ m : Nat, m ≠ n → t.ent m = s.ent m) ∧
            ∃ m : Msg, t.net.tx = s.net.tx ++ [(s.trunkPort n, m)] ∧ m.op = .cwr ∧ m.h.dst.val = n ∧ m.addr = Reg.PWR_CMD ∧ m.words = [pwrWord k]))) ∧
    (dOpc d.words = 0x43 → dSrc d.words % 64 = 0 → dAuxN d.words 2 2 ≠ 0 →
      (s.duk = false → s.completes (.keyLoad q i) [.counts, .que] [] (fun t => s.recorded d Code.condition 0 t)) ∧
      (s.duk = true → (s.key (dAuxN d.words 2 2)).state ≠ 0 → s.completes (.keyLoad q i) [.counts, .que] [] (fun t => s.recorded d Code.locked 0 t)) ∧
      (s.duk = true → (s.key (dAuxN d.words 2 2)).state = 0 → (s.key (dAuxN d.words 2 2)).pend = false →
          AMap.find s.mgr.nextH s.mgr.host = none → s.sends s.hostPort .rd64 0 →
        s.completes (.keyLoad q i) [.ports, .sent, .counts, .mgr, .que] []
          (fun t => t.que = { s.que with descs := [{ d with stage := .running }], job := some { q := q, i := i } } ∧
            s.asked (.job 0) .rd64 (dSrc d.words) t))) ∧
    (dOpc d.words = 0x44 → dAuxN d.words 2 2 ≠ 0 →
      ((s.key (dAuxN d.words 2 2)).state = 0 → s.completes (.keyRetire q i) [.counts, .que] [] (fun t => s.recorded d 0 0 t)) ∧
      ((s.key (dAuxN d.words 2 2)).state ≠ 0 →
        s.completes (.keyRetire q i) [.prot, .que] []
          (fun t => t.que = { s.que with descs := [{ d with stage := .running }], job := some { q := q, i := i } } ∧
            t.key (dAuxN d.words 2 2) = { s.key (dAuxN d.words 2 2) with state := 2, retire := some (q, i) } ∧
            ∀ k : Nat, k ≠ dAuxN d.words 2 2 → t.key k = s.key k)))

/-- R335, R349, R365, R428, R453, R456, R471, R476: EVACUATE, RETIRE_MAP, BIST_RUN, FW_STAGE, BLAZE_DUMP, DEVICE_RESET, CAL_RUN and FUSE_PROGRAM as the
warden takes up their descriptor. -/
def Obligations.MaintenanceOrders : Prop :=
  ∀ (s : State) (q i : Nat) (d : DescS), s.up → s.still → s.isManager = true → s.que.descs = [d] → d.q = q → d.i = i → d.stage = .ready →
    dQuiet d.words = false → s.ringFree q → s.num = 0 → dTgtAll d.words = false →
    (∀ n k : Nat, dOpc d.words = 0x45 → d.relay = false → d.phaseB = .none → d.shards = [] → dLen d.words ≠ 0 → dLen d.words % 128 = 0 →
        dTgt d.words = n → s.tgtCode n false = 0 → s.noEngines n = false → adDev (dSrc d.words) = n → dSrc d.words % 128 = 0 → dDst d.words % 128 = 0 →
        (s.ent (adDev (dDst d.words))).is232 = false → overlap (dSrc d.words, dLen d.words) (dDst d.words, dLen d.words) = false →
        (∀ r ∈ [(dSrc d.words, dLen d.words), (dDst d.words, dLen d.words)],
          s.rangeCheck r = 0 ∧ s.rangeProt (cDomain (s.ctx q)) r = true ∧ s.rangeRelay r = false) →
        s.shardsOf d.words = [(n, k)] → n ≠ 0 → s.sends (s.trunkPort n) .shard ((4 * d.words.length + 31) / 32) →
      s.completes (.evacuate q i) [.ports, .sent, .counts, .que] []
        (fun t => t.que = { s.que with descs := [{ d with stage := .running, shards := [(0, { dev := n, tier := k, sent := true })] }],
                                       job := some { q := q, i := i } } ∧
          ∃ m : Msg, t.net.tx = s.net.tx ++ [(s.trunkPort n, m)] ∧ m.op = .shard ∧ m.h.dst.val = n)) ∧
    (∀ b : Nat, dOpc d.words = 0x46 → bit (dOflags d.words) 0 = false → dTgt d.words = 0 → s.tgtCode 0 false = 0 → (s.ent 0).is232 = false →
        dSrc d.words < Config.userBytes → s.remapUsed < 12287 → s.pool.blocks[s.remapUsed / 8192]? = some b → s.pool.jobs = [] →
        s.own.waits = [] → s.own.merges = [] →
      s.completes (.retireMap q i) [.pool, .counts, .que, .regs, .pcs, .chans, .tiers, .bursts]
        (Reg.NDL_LINE_STATUS :: (List.range 32).map Reg.CH_STATUS)
        (fun t => t.que = { s.que with descs := [{ d with stage := .running }],
                                       job := some { q := q, i := i, todo := [s.pool.nextJob], value := s.remapUsed } } ∧
          AMap.find s.remapUsed t.pool.remaps = some { page := dSrc d.words / 4096, slot := s.remapUsed % 8192, block := b, valid := true,
                                                        retired := false, done := false } ∧
          (AMap.find s.pool.nextJob t.pool.jobs).isSome = true ∧ t.fld Reg.NDL_LINE_STATUS F.NDL_LINE_STATUS_COPYING = 1)) ∧
    (∀ k : Fin 4, dOpc d.words = 0x47 → dTgt d.words = 0 → s.tgtCode 0 false = 0 → (s.ent 0).is232 = false → bistSel d.words = 2 ^ (8 + k.val) →
        (s.tier k.val).released = true →
      s.completes (.bistRun q i) [.que] []
        (fun t => t.que = { s.que with descs := [{ d with stage := .running }], job := some { q := q, i := i, stage := 2, todo := [k.val] } })) ∧
    (dOpc d.words = 0x48 → dSrc d.words % 4096 = 0 → s.mgr.nextH < 65536 →
        (∀ k < 32, AMap.find ((s.mgr.nextH + k) % 65536) s.mgr.host = none) → (s.port s.hostPort).tstate = .active →
      s.completes (.fwStage q i) [.ports, .sent, .counts, .mgr, .que, .regs] [Reg.NDL_PATH_STATUS]
        (fun t => t.que = { s.que with descs := [{ d with stage := .running }], job := some { q := q, i := i } } ∧
          ∀ k < 32, AMap.find ((s.mgr.nextH + k) % 65536) t.mgr.host =
            some { use := .job (128 * k), len := 128, addr := dSrc d.words + 128 * k, time := s.now })) ∧
    (dOpc d.words = 0x48 → dSrc d.words % 4096 ≠ 0 → s.completes (.fwStage q i) [.counts, .que] [] (fun t => s.recorded d Code.badField 0 t)) ∧
    (dOpc d.words = 0x49 → dTgt d.words = 0 → s.tgtCode 0 true = 0 → (s.ent 0).is232 = false →
      (s.flt.blaze.entries = [] → bit (dOflags d.words) 0 = false →
        s.completes (.blazeDump q i) [.counts, .que] [] (fun t => s.recorded d 0 0 t ∧ t.que.job = none)) ∧
      (∀ (k : Nat) (e : BlazeE), s.flt.blaze.entries = [(k, e)] → e.length = 8 → 32 ≤ dLen d.words → s.sends s.hostPort .wr128 4 →
        s.completes (.blazeDump q i) [.ports, .sent, .counts, .mgr, .que] []
          (fun t => t.que = { s.que with descs := [{ d with stage := .running }], job := some { q := q, i := i, stage := 9, done := 1 } } ∧
            ∃ m : Msg, t.net.tx = s.net.tx ++ [(s.hostPort, m)] ∧ m.op = .wr128 ∧ m.addr = dDst d.words % 2 ^ 64 ∧ m.data = ofWords e ++ zeros 96))) ∧
    (∀ n : Nat, dOpc d.words = 0x4A → dTgt d.words = n → n ≠ 0 → s.tgtCode n true = 0 → (s.ent n).is232 = false → s.sends (s.trunkPort n) .cwr 0 →
      s.completes (.deviceReset q i) [.ports, .sent, .counts, .mgr, .que] []
        (fun t => t.que = { s.que with descs := [{ d with stage := .running }], job := some { q := q, i := i } } ∧
          ∃ m : Msg, t.net.tx = s.net.tx ++ [(s.trunkPort n, m)] ∧ m.op = .cwr ∧ m.h.dst.val = n ∧ m.addr = Reg.FAULT_CTL ∧
            m.words = [(F.FAULT_CTL_WARM_RESET.set 1 0).toNat])) ∧
    (∀ n : Nat, dOpc d.words = 0x4A → dTgt d.words = n → s.tgtCode n true = 0 → (s.ent n).is232 = true →
      s.completes (.deviceReset q i) [.counts, .que] [] (fun t => s.recorded d Code.unsupported 0 t ∧ t.que.job = none)) ∧
    (∀ k : Fin 4, dOpc d.words = 0x4B → dTgt d.words = 0 → s.tgtCode 0 false = 0 → (s.ent 0).is232 = false → calMask d.words = [k.val] →
        s.calAsleep k.val = false → (s.tier k.val).cal.running = none → s.calGapOver k.val = true →
      s.completes (.calRun q i) [.tiers, .counts, .que] []
        (fun t => t.que = { s.que with descs := [{ d with stage := .running }], job := some { q := q, i := i, todo := [k.val], value := 255, stage := 1 } } ∧
          (t.tier k.val).cal.running = some .command ∧ (t.tier k.val).cal.startAt = some s.now ∧ (t.tier k.val).cal.wanted = true)) ∧
    (dOpc d.words = 0x4C → dTgt d.words = 0 → s.tgtCode 0 false = 0 → (s.ent 0).is232 = false → dLen d.words = 16 → dSrc d.words % 64 = 0 →
        AMap.find s.mgr.nextH s.mgr.host = none → s.sends s.hostPort .rd64 0 →
      s.completes (.fuseProgram q i) [.ports, .sent, .counts, .mgr, .que] []
        (fun t => t.que = { s.que with descs := [{ d with stage := .running }], job := some { q := q, i := i } } ∧
          s.asked (.job 0) .rd64 (dSrc d.words) t))

/-- R263, R427 to R429, R453, R454: what ends an order: the drain of a retiring key, the erase and the pages of the flash with their read-back, an
operation that the flash does not end; and the entries and pulses of a fuse program. -/
def Obligations.KeysFlashAndFuses : Prop :=
  ∀ (s : State) (d : DescS), s.up → ({ s with que.job := none } : State).still → s.isManager = true → s.que.descs = [d] →
    d.shards = [] → dQuiet d.words = false → s.ringFree d.q →
    (∀ j : JobS, s.que.job = some j → j.q = d.q → j.i = d.i →
      (∀ kid : Fin 4096, dOpc d.words = 0x44 → (s.key kid.val).state = 2 → (s.key kid.val).retire = some (d.q, d.i) → s.keyUses kid.val = 0 →
          j.stage = 0 →
        s.completes (.keyRetireDrain kid) [.prot, .counts, .que] []
          (fun t => t.key kid.val = {} ∧ (∀ k : Nat, k ≠ kid.val → t.key k = s.key k) ∧ s.recorded d 0 0 t ∧ t.que.job = none)) ∧
      (∀ readback : List Byte, dOpc d.words = 0x48 → j.stage = 1 → 0 < dLen d.words → dLen d.words ≤ 128 →
          AMap.find s.mgr.nextH s.mgr.host = none → s.sends s.hostPort .rd128 0 →
        s.completes (.flashOpDone readback) [.ports, .sent, .counts, .mgr, .que] []
          (fun t => t.que.flash = flashPut 0 (List.replicate 4096 0xFF) s.que.flash ∧ t.que.job = some { j with done := 0, stage := 2, data := [] } ∧
            s.asked (.job 0) .rd128 (dSrc d.words) t)) ∧
      (∀ readback : List Byte, dOpc d.words = 0x48 → j.stage = 3 → j.done < dLen d.words → dLen d.words ≤ j.done + 256 →
          dLen d.words - j.done ≤ j.bytes.length → (dLen d.words - j.done) ≤ readback.length →
        (readback.take (dLen d.words - j.done) = j.bytes.take (dLen d.words - j.done) →
          s.completes (.flashOpDone readback) [.counts, .que, .regs] [Reg.BOOT_STATUS]
            (fun t => s.recorded d 0 (dLen d.words) t ∧ t.que.flash = flashPut j.done (j.bytes.take (dLen d.words - j.done)) s.que.flash ∧
              t.fld Reg.BOOT_STATUS F.BOOT_STATUS_STAGED = 1 ∧ t.que.job = none)) ∧
        (readback.take (dLen d.words - j.done) ≠ j.bytes.take (dLen d.words - j.done) →
          s.completes (.flashOpDone readback) [.counts, .que, .regs] [Reg.BOOT_STATUS]
            (fun t => s.recorded d Code.condition j.done t ∧ t.fld Reg.BOOT_STATUS F.BOOT_STATUS_FLASH_ERR = 1 ∧ t.que.job = none))) ∧
      (dOpc d.words = 0x48 → j.stage = 1 →
        s.completes .flashWipTimeout [.counts, .que] [] (fun t => s.recorded d Code.busy 0 t ∧ t.que.flash = s.que.flash ∧ t.que.job = none))) ∧
    (s.que.job = none →
      (∀ (e : FuseEntry) (c : Instr) (op : Nat), (c, op) ∈ [(.fuseWrite e, 1), (.fuseSeal e, 2), (.fuseLock e, 3), (.fuseRlock e, 4)] → s.fuse.prog = none →
        (∀ l : List Pulse, s.fuseEntry op e = .ok l → l ≠ [] →
          s.completes c [.fuse, .regs] [Reg.FUSE_PROG, Reg.FUSE_STATUS]
            (fun t => t.fuse.prog = some { entries := [(op, e)], owner := false, started := true, todo := l, ext := s.vpgmOk && !e.pump } ∧
              t.fuse = { s.fuse with prog := t.fuse.prog, mv := s.fuse.vpgm } ∧
              t.fld Reg.FUSE_STATUS F.FUSE_STATUS_PROG_BUSY = 1 ∧ t.reg Reg.FUSE_PROG = 0)) ∧
        (∀ k : Nat, s.fuseEntry op e = .error k → s.fuse.blowers = [] →
          s.completes c [.fuse, .regs] [Reg.FUSE_PROG, Reg.FUSE_STATUS]
            (fun t => t.fuse = s.fuse ∧ t.fld Reg.FUSE_STATUS F.FUSE_STATUS_PROG_BUSY = 0))) ∧
      (∀ (die : Die) (p : ProgS) (x y : Pulse) (l : List Pulse), s.fuse.prog = some p → p.started = true → p.todo = x :: y :: l → x.die.ix = die.ix →
          s.fuse.blowers = [] →
        s.completes (.fusePulseDone die true) [.fuse, .regs, .counts] [Reg.FUSE_PROG]
          (fun t => t.fuse.cells = (s.setCell die.ix x.cell .strong).fuse.cells ∧ t.fuse.locks = (s.setCell die.ix x.cell .strong).fuse.locks ∧
            ∃ r : ProgS, t.fuse.prog = some r ∧ r.todo = y :: l ∧ r.tries = 0 ∧ r.cells = p.cells + 1 ∧ r.idx = p.idx ∧ r.entries = p.entries) ∧
        (p.tries + 1 < Config.PULSE_MAX →
          s.completes (.fusePulseDone die false) [.fuse, .counts] []
            (fun t => t.fuse.cells = s.fuse.cells ∧ t.fuse.locks = s.fuse.locks ∧
              ∃ r : ProgS, t.fuse.prog = some r ∧ r.todo = p.todo ∧ r.tries = p.tries + 1 ∧ r.cells = p.cells))))

/-- R305, R383 to R389: power states: an accepted write of PWR.CMD in RUN starts an entry, a write of RUN wakes from IDLE, a path other than the
manager's warden has no effect; the entry waits for an acknowledgement of each link and starts the channels' entry into self-refresh where its
state asks for it, ends in its state, and the way back from IDLE ends in RUN; WAKE_N abandons an entry into IDLE that waits, and wakes from SLEEP
and OFF. -/
def Obligations.PowerTransitions : Prop :=
  ∀ s : State, s.power.phase = .running → s.still →
    (∀ (c : Instr) (k : Nat), (c, k) ∈ [(.pwrCmdIdle .cfgWarden, 1), (.pwrCmdSleep .cfgWarden, 2), (.pwrCmdDeep .cfgWarden, 3),
        (.pwrCmdOff .cfgWarden, 4)] → s.power.pstate = 0 → s.power.transit = false →
      s.completes c [.power] [] (fun t => t.power = { s.power with transit := true, target := k, entry := .waiting })) ∧
    (s.power.pstate = 1 → s.power.transit = false →
      s.completes (.pwrCmdRun .cfgWarden) [.power, .counts, .chans, .regs] ((List.range 32).map Reg.CH_STATUS)
        (fun t => t.power = { s.power with transit := true, target := 0, entry := .none, lastWake := 1 })) ∧
    (∀ (c : Instr) (path : Path), path ≠ .cfgWarden → s.power.pstate = 0 → s.power.entry = .none →
        c ∈ [.pwrCmdRun path, .pwrCmdIdle path, .pwrCmdSleep path, .pwrCmdDeep path, .pwrCmdOff path] →
      s.completes c [.regs] [Reg.MBX_ACC_STATUS] (fun t => t.power = s.power)) ∧
    (s.power.entry = .waiting → s.entryWaits = false → s.workOpen = false →
        (s.power.target = 1 ∨ s.power.target = 2 ∨ s.power.target = 3) →
      s.completes .powerEntryStart [.power, .ports, .sent, .counts, .notices, .regs, .chans, .pcs] ([Reg.NDL_STATUS, Reg.NDL_PATH_STATUS] ++ (List.range 32).map Reg.CH_STATUS)
        (fun t => t.power = { s.power with entry := .marked, acks := s.links } ∧
          ∀ n < 32, (t.chan n).pstate = if s.power.target = 1 ∨ (s.chan n).retired = true ∨ (s.chan n).pstate = .selfRefresh then (s.chan n).pstate else .entering)) ∧
    (s.power.entry = .marked → s.entryHeld = false → s.power.wakeNow = none → s.power.edgeAt = none →
      (s.power.target = 1 →
        s.completes .powerEntryDone [.power, .counts] []
          (fun t => t.power = { s.power with pstate := 1, transit := false, entry := .none, tE := some s.now })) ∧
      (s.power.target = 2 →
        s.completes .powerEntryDone (.power :: .sent :: .tiers :: portParts) (Reg.NDL_STATUS :: allPorts.map Reg.LINK_STATUS)
          (fun t => t.power = { s.power with pstate := 2, transit := false, entry := .none, tE := some s.now } ∧
            ∀ p : Port, s.portUp p = true → (t.port p).tstate = .quiet)) ∧
      (s.power.target = 3 → (∀ p : Port, (s.port p).tstate ≠ .prbs) →
        s.completes .powerEntryDone (.power :: .prot :: .tiers :: portParts) (Reg.NDL_STATUS :: Reg.CLK_STATUS :: allPorts.map Reg.LINK_STATUS)
          (fun t => t.power = { s.power with pstate := 3, transit := false, entry := .none, tE := some s.now, relays := false, relayAt := none,
                                             pll := false } ∧
            (∀ p : Port, (t.port p).tstate = .off) ∧
            (s.isManager = true → t.prot.keys = [] ∧ t.prot.maps = [] ∧ t.prot.own = []))) ∧
      (s.power.target = 4 →
        ∃ t : State, exec .powerEntryDone s = .next t ∧ t.power.phase = .off ∧ t.power.cold = true ∧ t.regs = {} ∧ t.mem = {} ∧ t.own = {} ∧
          t.mgr = {} ∧ t.que = { flash := s.que.flash, density := s.que.density } ∧ t.fuse.cells = s.fuse.cells ∧ t.net.ports = {} ∧
          t.pending = s.pending ∧ t.now = s.now ∧ t.tick = s.tick)) ∧
    (s.power.transit = true → s.power.target = 0 → s.power.pstate = 1 → s.power.held = [] →
      s.completes .powerExitDone [.power, .ports, .sent, .counts, .notices, .regs] [Reg.NDL_STATUS, Reg.NDL_PATH_STATUS]
        (fun t => t.power = { s.power with pstate := 0, transit := false, tE := none })) ∧
    (s.power.entry = .waiting → s.power.target = 1 →
      s.completes .wakeN [.power, .sent, .ports, .counts, .notices, .regs] [Reg.PWR_STATUS, Reg.NDL_STATUS, Reg.NDL_PATH_STATUS]
        (fun t => t.power = { s.power with transit := false, target := 0, entry := .none, acks := [], edgeAt := none } ∧
          t.fld Reg.PWR_STATUS F.PWR_STATUS_ENTRY_ABANDONED = 1)) ∧
    (s.power.entry = .none → s.power.transit = false → s.power.pstate = 2 →
      s.completes .wakeN (.power :: .chans :: portParts)
        ((List.range 32).map Reg.CH_STATUS ++ allPorts.map Reg.LINK_STATUS ++ [Reg.NDL_STATUS])
        (fun t => t.power = { s.power with transit := true, target := 0, entry := .none, lastWake := 3 } ∧
          ∀ p : Port, (s.port p).tstate = .quiet → (t.port p).tstate = (if s.lastRate p then .huntFull else .huntHalf))) ∧
    (∀ u : State, u.power.phase = .off → u.still →
      (u.power.resetLow = false →
        u.completes .wakeN [.power, .id, .draws] [Reg.LINK_CTL .ca, Reg.LINK_CTL .cb]
          (fun t => t.power = { u.power with phase := .slotWait, tS := u.now } ∧
            t.id = { u.id with role := (Config.straps u.draws).1 % 4, slot := (Config.straps u.draws).2 % 64 })) ∧
      (u.power.resetLow = true →
        u.completes .wakeN [.power] [] (fun t => t.power = { u.power with phase := .inReset })))

/-- R392, R396 to R404, R410, R411: the power cap at the end of a window and its relaxation, a reading as its sensor keeps it, the fall of a thermal
stage after its dwell, the end of a hold, and the ledger's sample. -/
def Obligations.CapAndHeat : Prop :=
  ∀ s : State, s.up → s.still →
    (∀ pin vin : Nat, s.power.capEn = false →
      s.completes (.capWindow pin vin) [.power, .regs] [Reg.PWR_STATUS, Reg.SVC_STATUS]
        (fun t => t.power = { s.power with measPin := pin % 65536, measVin := vin % 65536, capEn := s.fld Reg.PWR_CAP F.PWR_CAP_EN == 1,
                                           capW := s.fld Reg.PWR_CAP F.PWR_CAP_WATTS, capStage := 0, capLow := none } ∧
          t.fld Reg.PWR_STATUS F.PWR_STATUS_CAP_ACTIVE = 0)) ∧
    (∀ pin vin : Nat, s.power.capEn = true → s.power.capW * 100 < pin →
      (s.power.capStage < 3 →
        s.completes (.capWindow pin vin) [.power, .regs, .notices, .counts] [Reg.PWR_STATUS, Reg.SVC_STATUS]
          (fun t => t.power.capStage = s.power.capStage + 1 ∧ t.power.capLow = none ∧ t.power.measPin = pin % 65536 ∧
            t.fld Reg.PWR_STATUS F.PWR_STATUS_CAP_ACTIVE = 1 ∧ (s.power.capStage = 0 → (AMap.find 0x13 t.flt.notices).isSome = true))) ∧
      (3 ≤ s.power.capStage → s.mild 10 0 →
        s.completes (.capWindow pin vin) (mildParts ++ [.power]) (Reg.PWR_STATUS :: eventRegs)
          (fun t => t.power.capStage = s.power.capStage ∧ t.fld Reg.PWR_STATUS F.PWR_STATUS_CAP_OVER = 1))) ∧
    (s.power.capLow.isSome = true → 0 < s.power.capStage →
      s.completes .capRelaxExpiry [.power, .regs] [Reg.PWR_STATUS, Reg.SVC_STATUS]
        (fun t => t.power = { s.power with capStage := s.power.capStage - 1, capLow := some s.now } ∧
          t.fld Reg.PWR_STATUS F.PWR_STATUS_CAP_ACTIVE = if s.power.capStage = 1 then 0 else 1)) ∧
    (∀ (i : Fin 72) (v : Int), v < s.tripTemp i.val → ((s.sensor i.val).take v (s.comparison i.val)).verdict (sensorDie i.val == 0) = none →
        (∀ k < 4, ((s.modSensor i.val (SensorS.take v (s.comparison i.val))).inputOf k).stageFor k < 3) →
      s.completes (.sensorReading i (some v)) [.sensors, .tiers, .chans, .power, .notices, .counts, .regs] [Reg.THERM_STATUS, Reg.SVC_STATUS]
        (fun t => t.sensor i.val = { (s.sensor i.val).take v (s.comparison i.val) with tripN := 0 } ∧ ∀ j : Nat, j ≠ i.val → t.sensor j = s.sensor j)) ∧
    (∀ k : Fin 4, (s.tier k.val).dwellAt.isSome = true → (s.tier k.val).holdTill = none → s.stageFor k.val < (s.tier k.val).stage →
        (s.tier k.val).stage ≤ 3 →
      s.completes (.stageDwellExpiry k) [.tiers, .counts, .notices, .power, .regs] [Reg.THERM_STATUS, Reg.SVC_STATUS]
        (fun t => (t.tier k.val).stage = (s.tier k.val).stage - 1 ∧ ∀ j : Nat, j ≠ k.val → t.tier j = s.tier j)) ∧
    (∀ (k : Fin 4) (x : Nat), (s.tier k.val).holdTill = some x → (s.tier k.val).dwellAt = none →
      s.completes (.substHoldExpiry k) [.tiers] []
        (fun t => t.tier k.val = { s.tier k.val with holdTill := none } ∧ ∀ j : Nat, j ≠ k.val → t.tier j = s.tier j)) ∧
    ((∀ k < 4, (s.tier k).turning = []) →
      s.completes .ledgerSample [.tiers] []
        (fun t => ∀ k < 4, t.tier k = match s.ledgerTemp k with | some v => { s.tier k with turning := [v, v], lastT := some v } | none => s.tier k))

/-- R462, R463, R466, R468: a fault event is classified by its source's base, window and ceiling: FAULT.LAST names it, its window counts it, a SEVERE
one stops admission, a FATAL one starts the firebreak; what the events of contexts, of the census and of torn counters do beside. -/
def Obligations.FaultEvents : Prop :=
  ∀ (s : State) (src : Fin 120) (unit cls : Nat) (prom : Bool) (w : WindowS) (payload : List Byte), s.up → s.still →
    s.faultClass src.val unit = (cls, prom, w) →
    (src.val ∉ [94, 95, 111, 112] → cls < 3 → s.flt.blaze.f2 = none →
      s.completes (.faultEvent src unit payload) mildParts eventRegs
        (fun t => t.reg Reg.FAULT_LAST = BitVec.ofNat 32 (cls * 2 ^ 30 + b2n prom * 2 ^ 29 + unit % 256 * 2 ^ 16 + src.val) ∧
          t.fld Reg.FAULT_STATUS F.FAULT_STATUS_EVENT = 1 ∧ t.flt.admitStop = (s.flt.admitStop || decide (cls = 2)) ∧
          (cls = 2 → t.fld Reg.FAULT_STATUS F.FAULT_STATUS_SEVERE = 1) ∧
          ∃ x : WindowS, AMap.find (src.val * 256 + (if src.val = 118 then 0 else unit)) t.flt.windows = some x ∧ x.k = w.k ∧ x.start = w.start)) ∧
    (src.val ∉ [94, 95, 111, 112] → cls = 3 →
      s.completes (.faultEvent src unit payload) fatalParts eventRegs
        (fun t => t.halted ∧ t.reg Reg.FAULT_LAST = BitVec.ofNat 32 (3 * 2 ^ 30 + b2n prom * 2 ^ 29 + unit % 256 * 2 ^ 16 + src.val))) ∧
    (cls < 3 → s.flt.blaze.f2 = none →
      (src.val = 94 → s.isManager = true →
        s.completes (.faultEvent src unit payload) mildParts (Reg.QCTX_STATUS :: eventRegs)
          (fun t => t.fld Reg.QCTX_STATUS F.QCTX_STATUS_CTX_CORR = 1)) ∧
      (src.val = 111 →
        s.completes (.faultEvent src unit payload) (mildParts ++ [.census]) (Reg.CENSUS_STATUS :: eventRegs)
          (fun t => t.fld Reg.CENSUS_STATUS F.CENSUS_STATUS_VOID = 1 ∧ bit t.snapVoid (leAt payload 0 1 % 41) = true ∧ t.flt.snap = s.flt.snap)) ∧
      (∀ k : Nat, src.val = 112 → leAt payload 0 2 = k → k ∉ [devSlot 4, devSlot 140, devSlot 141, devSlot 142, devSlot 146, devSlot 137] →
        s.completes (.faultEvent src unit payload) mildParts (Reg.CENSUS_STATUS :: eventRegs)
          (fun t => t.fld Reg.CENSUS_STATUS F.CENSUS_STATUS_TORN = 1 ∧ k ∈ t.flt.torn ∧
            AMap.get k (0, 0) t.flt.counts = (0, ((AMap.get k (0, 0) s.flt.counts).2 + 1) % 256))))

/-- R466, R471, R472, R475, R483: what software orders: WARM_RESET starts the warm start after RESET_DELAY, KEY_HALT is a FATAL event, both from the
manager's warden and over I3C alone; GO of FAULT.INJECT makes an event of source 119, THAW releases the blaze log. -/
def Obligations.FaultOrders : Prop :=
  ∀ (s : State) (path : Path), s.up → s.still →
    ((path = .cfgWarden ∨ path = .i3c) →
      s.completes (.warmReset path) [.power] []
        (fun t => t.power = { s.power with resetAt := some (s.now + Config.RESET_DELAY, if path = .i3c then 3 else 2) })) ∧
    ((path = .cfgWarden ∨ path = .i3c) → (s.faultClass 86 0).1 = 3 →
      s.completes (.keyHalt path) fatalParts eventRegs (fun t => t.halted ∧ (t.reg Reg.FAULT_LAST).toNat % 2 ^ 16 = 86)) ∧
    (∀ c : Instr, path ≠ .cfgWarden → path ≠ .i3c → c ∈ [.warmReset path, .keyHalt path] →
      s.completes c [.regs] [Reg.MBX_ACC_STATUS] (fun t => t.fld Reg.MBX_ACC_STATUS F.MBX_ACC_STATUS_RO_WRITE = 1)) ∧
    (∀ (unit : Byte) (cls : Nat) (prom : Bool) (w : WindowS), s.faultClass 119 unit.toNat = (cls, prom, w) → cls < 3 → s.flt.blaze.f2 = none →
      s.completes (.inject path unit) mildParts (Reg.FAULT_INJECT :: eventRegs)
        (fun t => t.reg Reg.FAULT_LAST = BitVec.ofNat 32 (cls * 2 ^ 30 + b2n prom * 2 ^ 29 + unit.toNat * 2 ^ 16 + 119) ∧
          t.fld Reg.FAULT_STATUS F.FAULT_STATUS_EVENT = 1)) ∧
    s.completes (.thaw path) [.blaze, .counts, .regs] [Reg.BLAZE_STATUS]
      (fun t => t.flt.blaze.f1 = none ∧ t.flt.blaze.f2 = none ∧ t.fld Reg.BLAZE_STATUS F.BLAZE_STATUS_FROZEN = 0 ∧
        t.fld Reg.BLAZE_STATUS F.BLAZE_STATUS_FULL_FROZEN = 0 ∧ t.flt.blaze.next = (s.flt.blaze.next + 1) % 65536)

/-- R477, R478, R479, R481: the manager's interval starts a census: its counters are latched under the next number; one that is due while a census runs
is skipped; a port whose marker does not come is left unclosed; and CENSUS_WAIT ends a census that no descriptor asked for. -/
def Obligations.CensusSteps : Prop :=
  ∀ s : State, s.up → s.still →
    (s.isManager = true → s.fld Reg.CENSUS_CTL F.CENSUS_CTL_INTERVAL ≠ 0 → s.flt.census = none → (∀ n : Nat, (s.ent n).halted = false) → s.num = 0 →
      s.completes .censusInterval [.ports, .sent, .counts, .census, .chans, .mgr, .regs] [Reg.CENSUS_LAST, Reg.CENSUS_STATUS, Reg.NDL_PATH_STATUS]
        (fun t => t.flt.snap = (s.tally.bump (devSlot 144) 1).flt.counts ∧ t.flt.censusNo = s.flt.censusNo + 1 ∧ t.flt.lastCensus = s.flt.censusNo + 1 ∧
          t.reg Reg.CENSUS_LAST = BitVec.ofNat 32 (s.flt.censusNo + 1) ∧ t.fld Reg.CENSUS_STATUS F.CENSUS_STATUS_RUNNING = 1 ∧
          ∃ c : CensusS, t.flt.census = some c ∧ c.number = s.flt.censusNo + 1 ∧ c.tick = s.tick ∧ c.dst = none)) ∧
    (s.isManager = true → s.fld Reg.CENSUS_CTL F.CENSUS_CTL_INTERVAL ≠ 0 → s.flt.census.isSome = true →
      s.completes .censusInterval [.counts, .regs] [Reg.CENSUS_STATUS] (fun t => t.fld Reg.CENSUS_STATUS F.CENSUS_STATUS_SKIPPED = 1)) ∧
    (∀ p : Port, (s.port p).closed = false →
      s.completes (.censusWaitExpiry p) [.ports, .regs] [Reg.CENSUS_STATUS]
        (fun t => t.port p = { s.port p with unclosed := true, closed := true } ∧ ∀ o : Port, o ≠ p → t.port o = s.port o)) ∧
    (∀ c : CensusS, s.isManager = true → s.flt.census = some c → c.dst = none → c.writing = false → (∀ p : Port, (s.port p).closed = true) →
      s.completes .censusDone [.census, .notices, .counts, .regs, .blaze] [Reg.CENSUS_STATUS, Reg.NDL_STATUS, Reg.BLAZE_STATUS]
        (fun t => t.flt.census = none ∧ t.flt.snap = s.flt.snap ∧ t.fld Reg.CENSUS_STATUS F.CENSUS_STATUS_RUNNING = 0))

/-- The step: the command at the front of the queue has its effect on everything but the queue, whose rest it leaves; on an empty queue one CK_CTL cycle
passes: the model's choice (notes/assumptions/1.md), after R354 and R358; where no channel is on its way into or out of self-refresh or has dropped
segments rewritten, and the warden has no work, it changes counters, the measured power and the channels' idle times alone. -/
def Obligations.StepRunsTheFront : Prop :=
  (∀ (s : State) (c : Instr) (rest : List Instr), s.pending = c :: rest → step s = exec c (s.withPending rest)) ∧
  (∀ (s t : State) (c : Instr) (rest : List Instr), s.pending = c :: rest → step s = .next t → t.pending = rest ∧ t.now = s.now ∧ t.tick = s.tick) ∧
  (∀ s : State, s.pending = [] → ∃ t : State, step s = .next t ∧ t.pending = [] ∧ t.now = s.now + 1 ∧
    t.tick = (if (s.now + 1) % 100 = 0 then s.tick + 1 else s.tick)) ∧
  (∀ s : State, s.pending = [] → s.que.job = none →
      s.stack.chans.all (fun c => c.2.pstate != .entering && !c.2.wantExit && c.2.pasrInit.isNone) = true →
    ∃ t : State, step s = .next t ∧ s.only [.counts, .power, .draws, .chans] [] { t with now := s.now, tick := s.tick })

/-- R354, R358: every step from every state keeps what the clocks and the queue satisfy: CK_TICK has counted every hundredth CK_CTL cycle, and every
waiting command is well formed. -/
def Obligations.StepKeepsClocks : Prop :=
  ∀ s t : State, s.clockInv → s.queueWf → step s = .next t → t.clockInv ∧ t.queueWf

/-- R42, R52, R60, R77, R375, R379, R422: the machine right after reset: in reset, unstarted and cold, its ports OFF, its relays open, every register at the
reset value of its table, nothing waiting, the clocks in step, and memory in its canonical form. -/
def Obligations.ResetState : Prop :=
  State.reset.pending = [] ∧ State.reset.clockInv ∧ State.reset.queueWf ∧ memWf State.reset.mem.dram = true ∧ State.reset.power.phase = .inReset ∧
  State.reset.power.relays = false ∧ State.reset.power.pstate = 0 ∧ State.reset.power.cold = true ∧ (∀ p : Port, (State.reset.port p).tstate = .off) ∧
  (∀ a : Nat, State.reset.reg a = regReset State.reset.id.role a) ∧ State.reset.regs.wait = [] ∧ State.reset.fld Reg.PWR_CAP F.PWR_CAP_WATTS = 64 ∧
  State.reset.reg Reg.NDL_NTC_EN = 4294967295 ∧ State.reset.fld Reg.NDL_CFG_TMO F.NDL_CFG_TMO_TMO = 200

/-- R139, R156: the hash places the user lines one to one: a line's place lies in range and outside the reserve pool, its inverse gives the line
back, its coordinates are those of the table, two lines never share a place, and every place outside the pool holds a user line. -/
def Obligations.PlacementOneToOne : Prop :=
  (∀ l : Nat, l < Config.userLines →
    homeLine (placeOf l) = l ∧ (placeOf l).inPool = false ∧ (placeOf l).pc < 64 ∧ (placeOf l).bg < 12 ∧ (placeOf l).bk < 4 ∧
    (placeOf l).row < 32768 ∧ (placeOf l).col < 8) ∧
  (∀ l : Nat, l < Config.userLines →
    (placeOf l).pc = (l ^^^ l >>> 6 ^^^ l >>> 12 ^^^ l >>> 18 ^^^ l >>> 24) % 64 ∧
    (placeOf l).bg = 4 * (l / 2 ^ 28) + (l >>> 11 ^^^ l >>> 15 ^^^ l >>> 23) % 4 ∧ (placeOf l).bk = (l >>> 9 ^^^ l >>> 13 ^^^ l >>> 21) % 4 ∧
    (placeOf l).row = l / 2 ^ 13 % 2 ^ 15 ∧ (placeOf l).col = l / 2 ^ 6 % 8) ∧
  (∀ a b : Nat, a < Config.userLines → b < Config.userLines → placeOf a = placeOf b → a = b) ∧
  (∀ p : Place, p.pc < 64 → p.bg < 12 → p.bk < 4 → p.row < 32768 → p.col < 8 → p.inPool = false →
    homeLine p < Config.userLines ∧ placeOf (homeLine p) = p)
end

