-- ==== Sys2Proof/Laws/Map.lean ====
section
/-! SUPPORT. Finite maps: reading back what was set, every other key unchanged, and the canonical form kept. -/

set_option Elab.async false

namespace Sys2Proof.Machine.AMap
variable {β : Type}

@[simp] theorem find_nil (k : Nat) : find k ([] : AMap β) = none := rfl

/-- What a key reads as is the default or a listed value. -/
theorem get_mem (k : Nat) (d : β) (m : AMap β) : get k d m = d ∨ (k, get k d m) ∈ m := by
  induction m with
  | nil => exact .inl rfl
  | cons e m ih =>
    obtain ⟨j, v⟩ := e
    by_cases h : k = j
    · subst h; exact .inr (by simp [get, find])
    · have : get k d ((j, v) :: m) = get k d m := by simp [get, find, h]
      rw [this]
      exact ih.imp id (fun x => by simp [x])

/-- A key that was put reads as the value put. -/
@[simp] theorem find_put_self (k : Nat) (v : β) (m : AMap β) : find k (put k v m) = some v := by
  induction m with
  | nil => simp [put, find]
  | cons e r ih =>
    obtain ⟨j, w⟩ := e
    simp only [put]
    split
    · simp [find]
    · split
      · simp [find]
      · rename_i h; simp [find, h, ih]

/-- Every other key reads as before. -/
theorem find_put_ne {k j : Nat} (h : j ≠ k) (v : β) (m : AMap β) : find j (put k v m) = find j m := by
  induction m with
  | nil => simp [put, find, h]
  | cons e r ih =>
    obtain ⟨i, w⟩ := e
    simp only [put]
    split
    · simp [find, h]
    · split
      · rename_i h2; subst h2; simp [find, h]
      · simp [find, ih]

/-- A key that was removed is absent. -/
@[simp] theorem find_del_self (k : Nat) (m : AMap β) : find k (del k m) = none := by
  induction m with
  | nil => rfl
  | cons e r ih =>
    obtain ⟨j, w⟩ := e
    simp only [del]
    split
    · exact ih
    · rename_i h; simp [find, h, ih]

/-- Every other key reads as before. -/
theorem find_del_ne {k j : Nat} (h : j ≠ k) (m : AMap β) : find j (del k m) = find j m := by
  induction m with
  | nil => rfl
  | cons e r ih =>
    obtain ⟨i, w⟩ := e
    simp only [del]
    split
    · rename_i h2; subst h2; simp [find, h, ih]
    · simp [find, ih]

@[simp] theorem get_nil (k : Nat) (d : β) : get k d ([] : AMap β) = d := rfl

@[simp] theorem get_put_self (k : Nat) (d v : β) (m : AMap β) : get k d (put k v m) = v := by simp [get]

theorem get_put_ne {k j : Nat} (h : j ≠ k) (d v : β) (m : AMap β) : get j d (put k v m) = get j d m := by simp [get, find_put_ne h]

@[simp] theorem get_del_self (k : Nat) (d : β) (m : AMap β) : get k d (del k m) = d := by simp [get]

theorem get_del_ne {k j : Nat} (h : j ≠ k) (d : β) (m : AMap β) : get j d (del k m) = get j d m := by simp [get, find_del_ne h]

/-- A key that was set reads as the value set, the default included. -/
@[simp] theorem get_set_self [DecidableEq β] (k : Nat) (d v : β) (m : AMap β) : get k d (set k d v m) = v := by
  unfold set
  split
  · rename_i h; simp [h]
  · simp

/-- Every other key reads as before. -/
theorem get_set_ne [DecidableEq β] {k j : Nat} (h : j ≠ k) (d v : β) (m : AMap β) : get j d (set k d v m) = get j d m := by
  unfold set
  split
  · exact get_del_ne h d m
  · exact get_put_ne h d v m

theorem find_set_ne [DecidableEq β] {k j : Nat} (h : j ≠ k) (d v : β) (m : AMap β) : find j (set k d v m) = find j m := by
  unfold set
  split
  · exact find_del_ne h m
  · exact find_put_ne h v m

/-! ### The canonical form -/

/-- A map whose keys rise from a bound rises from every lower bound. -/
theorem rising_mono {a b : Nat} (h : a ≤ b) : ∀ m : AMap β, rising b m = true → rising a m = true := by
  intro m hm
  cases m with
  | nil => rfl
  | cons e r => obtain ⟨k, v⟩ := e; simp only [rising, Bool.and_eq_true, decide_eq_true_eq] at *; exact ⟨by omega, hm.2⟩

theorem rising_put {lo k : Nat} (v : β) (hk : lo ≤ k) : ∀ m : AMap β, rising lo m = true → rising lo (put k v m) = true := by
  intro m
  induction m generalizing lo with
  | nil => intro _; simp [put, rising, hk]
  | cons e r ih =>
    obtain ⟨j, w⟩ := e
    intro hm
    simp only [rising, Bool.and_eq_true, decide_eq_true_eq] at hm
    simp only [put]
    split
    · simp only [rising, Bool.and_eq_true, decide_eq_true_eq]; exact ⟨hk, by omega, hm.2⟩
    · split
      · rename_i h; subst h; simp [rising, hk, hm.2]
      · simp only [rising, Bool.and_eq_true, decide_eq_true_eq]
        exact ⟨hm.1, ih (by omega) hm.2⟩

theorem rising_del {lo : Nat} (k : Nat) : ∀ m : AMap β, rising lo m = true → rising lo (del k m) = true := by
  intro m
  induction m generalizing lo with
  | nil => intro _; rfl
  | cons e r ih =>
    obtain ⟨j, w⟩ := e
    intro hm
    simp only [rising, Bool.and_eq_true, decide_eq_true_eq] at hm
    simp only [del]
    split
    · exact ih (rising_mono (by omega) r hm.2)
    · simp only [rising, Bool.and_eq_true, decide_eq_true_eq]
      exact ⟨hm.1, ih hm.2⟩

theorem mem_put {k : Nat} {v : β} {e : Nat × β} : ∀ {m : AMap β}, e ∈ put k v m → e = (k, v) ∨ e ∈ m := by
  intro m
  induction m with
  | nil => intro h; left; simpa [put] using h
  | cons f r ih =>
    obtain ⟨j, w⟩ := f
    intro h
    simp only [put] at h
    split at h
    · rcases List.mem_cons.1 h with h | h
      · exact .inl h
      · exact .inr h
    · split at h
      · rcases List.mem_cons.1 h with h | h
        · exact .inl h
        · exact .inr (List.mem_cons_of_mem _ h)
      · rcases List.mem_cons.1 h with h | h
        · exact .inr (h ▸ List.mem_cons_self)
        · rcases ih h with h | h
          · exact .inl h
          · exact .inr (List.mem_cons_of_mem _ h)

theorem mem_del {k : Nat} {e : Nat × β} : ∀ {m : AMap β}, e ∈ del k m → e ∈ m := by
  intro m
  induction m with
  | nil => intro h; exact h
  | cons f r ih =>
    obtain ⟨j, w⟩ := f
    intro h
    simp only [del] at h
    split at h
    · exact List.mem_cons_of_mem _ (ih h)
    · rcases List.mem_cons.1 h with h | h
      · exact h ▸ List.mem_cons_self
      · exact List.mem_cons_of_mem _ (ih h)

end Sys2Proof.Machine.AMap
end

