-- ==== Sys2Proof/Laws/State.lean ====
section
/-! SUPPORT. What each update of the state leaves unchanged: one lemma per update and field. -/

namespace Sys2Proof.Machine

@[simp] theorem State.setReg_pending (a : Nat) (w : Word) (s : State) : (s.setReg a w).pending = s.pending := rfl
@[simp] theorem State.setReg_now (a : Nat) (w : Word) (s : State) : (s.setReg a w).now = s.now := rfl
@[simp] theorem State.setReg_tick (a : Nat) (w : Word) (s : State) : (s.setReg a w).tick = s.tick := rfl
@[simp] theorem State.setReg_draws (a : Nat) (w : Word) (s : State) : (s.setReg a w).draws = s.draws := rfl
@[simp] theorem State.setReg_id (a : Nat) (w : Word) (s : State) : (s.setReg a w).id = s.id := rfl
@[simp] theorem State.setReg_power (a : Nat) (w : Word) (s : State) : (s.setReg a w).power = s.power := rfl
@[simp] theorem State.setReg_image (a : Nat) (w : Word) (s : State) : (s.setReg a w).image = s.image := rfl
@[simp] theorem State.setReg_net (a : Nat) (w : Word) (s : State) : (s.setReg a w).net = s.net := rfl
@[simp] theorem State.setReg_mem (a : Nat) (w : Word) (s : State) : (s.setReg a w).mem = s.mem := rfl
@[simp] theorem State.setReg_stack (a : Nat) (w : Word) (s : State) : (s.setReg a w).stack = s.stack := rfl
@[simp] theorem State.setReg_own (a : Nat) (w : Word) (s : State) : (s.setReg a w).own = s.own := rfl
@[simp] theorem State.setReg_eng (a : Nat) (w : Word) (s : State) : (s.setReg a w).eng = s.eng := rfl
@[simp] theorem State.setReg_pool (a : Nat) (w : Word) (s : State) : (s.setReg a w).pool = s.pool := rfl
@[simp] theorem State.setReg_topo (a : Nat) (w : Word) (s : State) : (s.setReg a w).topo = s.topo := rfl
@[simp] theorem State.setReg_mgr (a : Nat) (w : Word) (s : State) : (s.setReg a w).mgr = s.mgr := rfl
@[simp] theorem State.setReg_que (a : Nat) (w : Word) (s : State) : (s.setReg a w).que = s.que := rfl
@[simp] theorem State.setReg_prot (a : Nat) (w : Word) (s : State) : (s.setReg a w).prot = s.prot := rfl
@[simp] theorem State.setReg_fuse (a : Nat) (w : Word) (s : State) : (s.setReg a w).fuse = s.fuse := rfl
@[simp] theorem State.setReg_flt (a : Nat) (w : Word) (s : State) : (s.setReg a w).flt = s.flt := rfl
@[simp] theorem State.setReg_sensors (a : Nat) (w : Word) (s : State) : (s.setReg a w).sensors = s.sensors := rfl
@[simp] theorem State.setReg_bist (a : Nat) (w : Word) (s : State) : (s.setReg a w).bist = s.bist := rfl
@[simp] theorem State.setReg_regs_eff (a : Nat) (w : Word) (s : State) : (s.setReg a w).regs.eff = s.regs.eff := rfl
@[simp] theorem State.setReg_regs_wait (a : Nat) (w : Word) (s : State) : (s.setReg a w).regs.wait = s.regs.wait := rfl
@[simp] theorem State.setReg_regs_mbxC (a : Nat) (w : Word) (s : State) : (s.setReg a w).regs.mbxC = s.regs.mbxC := rfl
@[simp] theorem State.setReg_regs_mbxI (a : Nat) (w : Word) (s : State) : (s.setReg a w).regs.mbxI = s.regs.mbxI := rfl

@[simp] theorem State.setFld_pending (a : Nat) (f : Fld) (v : Nat) (s : State) : (s.setFld a f v).pending = s.pending := State.setReg_pending ..
@[simp] theorem State.setFld_now (a : Nat) (f : Fld) (v : Nat) (s : State) : (s.setFld a f v).now = s.now := State.setReg_now ..
@[simp] theorem State.setFld_tick (a : Nat) (f : Fld) (v : Nat) (s : State) : (s.setFld a f v).tick = s.tick := State.setReg_tick ..
@[simp] theorem State.setFld_draws (a : Nat) (f : Fld) (v : Nat) (s : State) : (s.setFld a f v).draws = s.draws := State.setReg_draws ..
@[simp] theorem State.setFld_id (a : Nat) (f : Fld) (v : Nat) (s : State) : (s.setFld a f v).id = s.id := State.setReg_id ..
@[simp] theorem State.setFld_power (a : Nat) (f : Fld) (v : Nat) (s : State) : (s.setFld a f v).power = s.power := State.setReg_power ..
@[simp] theorem State.setFld_image (a : Nat) (f : Fld) (v : Nat) (s : State) : (s.setFld a f v).image = s.image := State.setReg_image ..
@[simp] theorem State.setFld_net (a : Nat) (f : Fld) (v : Nat) (s : State) : (s.setFld a f v).net = s.net := State.setReg_net ..
@[simp] theorem State.setFld_mem (a : Nat) (f : Fld) (v : Nat) (s : State) : (s.setFld a f v).mem = s.mem := State.setReg_mem ..
@[simp] theorem State.setFld_stack (a : Nat) (f : Fld) (v : Nat) (s : State) : (s.setFld a f v).stack = s.stack := State.setReg_stack ..
@[simp] theorem State.setFld_own (a : Nat) (f : Fld) (v : Nat) (s : State) : (s.setFld a f v).own = s.own := State.setReg_own ..
@[simp] theorem State.setFld_eng (a : Nat) (f : Fld) (v : Nat) (s : State) : (s.setFld a f v).eng = s.eng := State.setReg_eng ..
@[simp] theorem State.setFld_pool (a : Nat) (f : Fld) (v : Nat) (s : State) : (s.setFld a f v).pool = s.pool := State.setReg_pool ..
@[simp] theorem State.setFld_topo (a : Nat) (f : Fld) (v : Nat) (s : State) : (s.setFld a f v).topo = s.topo := State.setReg_topo ..
@[simp] theorem State.setFld_mgr (a : Nat) (f : Fld) (v : Nat) (s : State) : (s.setFld a f v).mgr = s.mgr := State.setReg_mgr ..
@[simp] theorem State.setFld_que (a : Nat) (f : Fld) (v : Nat) (s : State) : (s.setFld a f v).que = s.que := State.setReg_que ..
@[simp] theorem State.setFld_prot (a : Nat) (f : Fld) (v : Nat) (s : State) : (s.setFld a f v).prot = s.prot := State.setReg_prot ..
@[simp] theorem State.setFld_fuse (a : Nat) (f : Fld) (v : Nat) (s : State) : (s.setFld a f v).fuse = s.fuse := State.setReg_fuse ..
@[simp] theorem State.setFld_flt (a : Nat) (f : Fld) (v : Nat) (s : State) : (s.setFld a f v).flt = s.flt := State.setReg_flt ..
@[simp] theorem State.setFld_sensors (a : Nat) (f : Fld) (v : Nat) (s : State) : (s.setFld a f v).sensors = s.sensors := State.setReg_sensors ..
@[simp] theorem State.setFld_bist (a : Nat) (f : Fld) (v : Nat) (s : State) : (s.setFld a f v).bist = s.bist := State.setReg_bist ..
@[simp] theorem State.setFld_regs_eff (a : Nat) (f : Fld) (v : Nat) (s : State) : (s.setFld a f v).regs.eff = s.regs.eff := State.setReg_regs_eff ..
@[simp] theorem State.setFld_regs_wait (a : Nat) (f : Fld) (v : Nat) (s : State) : (s.setFld a f v).regs.wait = s.regs.wait := State.setReg_regs_wait ..
@[simp] theorem State.setFld_regs_mbxC (a : Nat) (f : Fld) (v : Nat) (s : State) : (s.setFld a f v).regs.mbxC = s.regs.mbxC := State.setReg_regs_mbxC ..
@[simp] theorem State.setFld_regs_mbxI (a : Nat) (f : Fld) (v : Nat) (s : State) : (s.setFld a f v).regs.mbxI = s.regs.mbxI := State.setReg_regs_mbxI ..

@[simp] theorem State.seqUp_pending (a : Nat) (s : State) : (s.seqUp a).pending = s.pending := State.setFld_pending ..
@[simp] theorem State.seqUp_now (a : Nat) (s : State) : (s.seqUp a).now = s.now := State.setFld_now ..
@[simp] theorem State.seqUp_tick (a : Nat) (s : State) : (s.seqUp a).tick = s.tick := State.setFld_tick ..
@[simp] theorem State.seqUp_draws (a : Nat) (s : State) : (s.seqUp a).draws = s.draws := State.setFld_draws ..
@[simp] theorem State.seqUp_id (a : Nat) (s : State) : (s.seqUp a).id = s.id := State.setFld_id ..
@[simp] theorem State.seqUp_power (a : Nat) (s : State) : (s.seqUp a).power = s.power := State.setFld_power ..
@[simp] theorem State.seqUp_image (a : Nat) (s : State) : (s.seqUp a).image = s.image := State.setFld_image ..
@[simp] theorem State.seqUp_net (a : Nat) (s : State) : (s.seqUp a).net = s.net := State.setFld_net ..
@[simp] theorem State.seqUp_mem (a : Nat) (s : State) : (s.seqUp a).mem = s.mem := State.setFld_mem ..
@[simp] theorem State.seqUp_stack (a : Nat) (s : State) : (s.seqUp a).stack = s.stack := State.setFld_stack ..
@[simp] theorem State.seqUp_own (a : Nat) (s : State) : (s.seqUp a).own = s.own := State.setFld_own ..
@[simp] theorem State.seqUp_eng (a : Nat) (s : State) : (s.seqUp a).eng = s.eng := State.setFld_eng ..
@[simp] theorem State.seqUp_pool (a : Nat) (s : State) : (s.seqUp a).pool = s.pool := State.setFld_pool ..
@[simp] theorem State.seqUp_topo (a : Nat) (s : State) : (s.seqUp a).topo = s.topo := State.setFld_topo ..
@[simp] theorem State.seqUp_mgr (a : Nat) (s : State) : (s.seqUp a).mgr = s.mgr := State.setFld_mgr ..
@[simp] theorem State.seqUp_que (a : Nat) (s : State) : (s.seqUp a).que = s.que := State.setFld_que ..
@[simp] theorem State.seqUp_prot (a : Nat) (s : State) : (s.seqUp a).prot = s.prot := State.setFld_prot ..
@[simp] theorem State.seqUp_fuse (a : Nat) (s : State) : (s.seqUp a).fuse = s.fuse := State.setFld_fuse ..
@[simp] theorem State.seqUp_flt (a : Nat) (s : State) : (s.seqUp a).flt = s.flt := State.setFld_flt ..
@[simp] theorem State.seqUp_sensors (a : Nat) (s : State) : (s.seqUp a).sensors = s.sensors := State.setFld_sensors ..
@[simp] theorem State.seqUp_bist (a : Nat) (s : State) : (s.seqUp a).bist = s.bist := State.setFld_bist ..
@[simp] theorem State.seqUp_regs_eff (a : Nat) (s : State) : (s.seqUp a).regs.eff = s.regs.eff := State.setFld_regs_eff ..
@[simp] theorem State.seqUp_regs_wait (a : Nat) (s : State) : (s.seqUp a).regs.wait = s.regs.wait := State.setFld_regs_wait ..
@[simp] theorem State.seqUp_regs_mbxC (a : Nat) (s : State) : (s.seqUp a).regs.mbxC = s.regs.mbxC := State.setFld_regs_mbxC ..
@[simp] theorem State.seqUp_regs_mbxI (a : Nat) (s : State) : (s.seqUp a).regs.mbxI = s.regs.mbxI := State.setFld_regs_mbxI ..

@[simp] theorem State.raise_pending (a : Nat) (f : Fld) (s : State) : (s.raise a f).pending = s.pending := by rw [State.raise, State.seqUp_pending, State.setFld_pending]
@[simp] theorem State.raise_now (a : Nat) (f : Fld) (s : State) : (s.raise a f).now = s.now := by rw [State.raise, State.seqUp_now, State.setFld_now]
@[simp] theorem State.raise_tick (a : Nat) (f : Fld) (s : State) : (s.raise a f).tick = s.tick := by rw [State.raise, State.seqUp_tick, State.setFld_tick]
@[simp] theorem State.raise_draws (a : Nat) (f : Fld) (s : State) : (s.raise a f).draws = s.draws := by rw [State.raise, State.seqUp_draws, State.setFld_draws]
@[simp] theorem State.raise_id (a : Nat) (f : Fld) (s : State) : (s.raise a f).id = s.id := by rw [State.raise, State.seqUp_id, State.setFld_id]
@[simp] theorem State.raise_power (a : Nat) (f : Fld) (s : State) : (s.raise a f).power = s.power := by rw [State.raise, State.seqUp_power, State.setFld_power]
@[simp] theorem State.raise_image (a : Nat) (f : Fld) (s : State) : (s.raise a f).image = s.image := by rw [State.raise, State.seqUp_image, State.setFld_image]
@[simp] theorem State.raise_net (a : Nat) (f : Fld) (s : State) : (s.raise a f).net = s.net := by rw [State.raise, State.seqUp_net, State.setFld_net]
@[simp] theorem State.raise_mem (a : Nat) (f : Fld) (s : State) : (s.raise a f).mem = s.mem := by rw [State.raise, State.seqUp_mem, State.setFld_mem]
@[simp] theorem State.raise_stack (a : Nat) (f : Fld) (s : State) : (s.raise a f).stack = s.stack := by rw [State.raise, State.seqUp_stack, State.setFld_stack]
@[simp] theorem State.raise_own (a : Nat) (f : Fld) (s : State) : (s.raise a f).own = s.own := by rw [State.raise, State.seqUp_own, State.setFld_own]
@[simp] theorem State.raise_eng (a : Nat) (f : Fld) (s : State) : (s.raise a f).eng = s.eng := by rw [State.raise, State.seqUp_eng, State.setFld_eng]
@[simp] theorem State.raise_pool (a : Nat) (f : Fld) (s : State) : (s.raise a f).pool = s.pool := by rw [State.raise, State.seqUp_pool, State.setFld_pool]
@[simp] theorem State.raise_topo (a : Nat) (f : Fld) (s : State) : (s.raise a f).topo = s.topo := by rw [State.raise, State.seqUp_topo, State.setFld_topo]
@[simp] theorem State.raise_mgr (a : Nat) (f : Fld) (s : State) : (s.raise a f).mgr = s.mgr := by rw [State.raise, State.seqUp_mgr, State.setFld_mgr]
@[simp] theorem State.raise_que (a : Nat) (f : Fld) (s : State) : (s.raise a f).que = s.que := by rw [State.raise, State.seqUp_que, State.setFld_que]
@[simp] theorem State.raise_prot (a : Nat) (f : Fld) (s : State) : (s.raise a f).prot = s.prot := by rw [State.raise, State.seqUp_prot, State.setFld_prot]
@[simp] theorem State.raise_fuse (a : Nat) (f : Fld) (s : State) : (s.raise a f).fuse = s.fuse := by rw [State.raise, State.seqUp_fuse, State.setFld_fuse]
@[simp] theorem State.raise_flt (a : Nat) (f : Fld) (s : State) : (s.raise a f).flt = s.flt := by rw [State.raise, State.seqUp_flt, State.setFld_flt]
@[simp] theorem State.raise_sensors (a : Nat) (f : Fld) (s : State) : (s.raise a f).sensors = s.sensors := by rw [State.raise, State.seqUp_sensors, State.setFld_sensors]
@[simp] theorem State.raise_bist (a : Nat) (f : Fld) (s : State) : (s.raise a f).bist = s.bist := by rw [State.raise, State.seqUp_bist, State.setFld_bist]
@[simp] theorem State.raise_regs_eff (a : Nat) (f : Fld) (s : State) : (s.raise a f).regs.eff = s.regs.eff := by rw [State.raise, State.seqUp_regs_eff, State.setFld_regs_eff]
@[simp] theorem State.raise_regs_wait (a : Nat) (f : Fld) (s : State) : (s.raise a f).regs.wait = s.regs.wait := by rw [State.raise, State.seqUp_regs_wait, State.setFld_regs_wait]
@[simp] theorem State.raise_regs_mbxC (a : Nat) (f : Fld) (s : State) : (s.raise a f).regs.mbxC = s.regs.mbxC := by rw [State.raise, State.seqUp_regs_mbxC, State.setFld_regs_mbxC]
@[simp] theorem State.raise_regs_mbxI (a : Nat) (f : Fld) (s : State) : (s.raise a f).regs.mbxI = s.regs.mbxI := by rw [State.raise, State.seqUp_regs_mbxI, State.setFld_regs_mbxI]

@[simp] theorem State.cond_pending (a : Nat) (f : Fld) (b : Bool) (s : State) : (s.cond a f b).pending = s.pending := by unfold State.cond; split <;> simp only [State.seqUp_pending, State.setFld_pending]
@[simp] theorem State.cond_now (a : Nat) (f : Fld) (b : Bool) (s : State) : (s.cond a f b).now = s.now := by unfold State.cond; split <;> simp only [State.seqUp_now, State.setFld_now]
@[simp] theorem State.cond_tick (a : Nat) (f : Fld) (b : Bool) (s : State) : (s.cond a f b).tick = s.tick := by unfold State.cond; split <;> simp only [State.seqUp_tick, State.setFld_tick]
@[simp] theorem State.cond_draws (a : Nat) (f : Fld) (b : Bool) (s : State) : (s.cond a f b).draws = s.draws := by unfold State.cond; split <;> simp only [State.seqUp_draws, State.setFld_draws]
@[simp] theorem State.cond_id (a : Nat) (f : Fld) (b : Bool) (s : State) : (s.cond a f b).id = s.id := by unfold State.cond; split <;> simp only [State.seqUp_id, State.setFld_id]
@[simp] theorem State.cond_power (a : Nat) (f : Fld) (b : Bool) (s : State) : (s.cond a f b).power = s.power := by unfold State.cond; split <;> simp only [State.seqUp_power, State.setFld_power]
@[simp] theorem State.cond_image (a : Nat) (f : Fld) (b : Bool) (s : State) : (s.cond a f b).image = s.image := by unfold State.cond; split <;> simp only [State.seqUp_image, State.setFld_image]
@[simp] theorem State.cond_net (a : Nat) (f : Fld) (b : Bool) (s : State) : (s.cond a f b).net = s.net := by unfold State.cond; split <;> simp only [State.seqUp_net, State.setFld_net]
@[simp] theorem State.cond_mem (a : Nat) (f : Fld) (b : Bool) (s : State) : (s.cond a f b).mem = s.mem := by unfold State.cond; split <;> simp only [State.seqUp_mem, State.setFld_mem]
@[simp] theorem State.cond_stack (a : Nat) (f : Fld) (b : Bool) (s : State) : (s.cond a f b).stack = s.stack := by unfold State.cond; split <;> simp only [State.seqUp_stack, State.setFld_stack]
@[simp] theorem State.cond_own (a : Nat) (f : Fld) (b : Bool) (s : State) : (s.cond a f b).own = s.own := by unfold State.cond; split <;> simp only [State.seqUp_own, State.setFld_own]
@[simp] theorem State.cond_eng (a : Nat) (f : Fld) (b : Bool) (s : State) : (s.cond a f b).eng = s.eng := by unfold State.cond; split <;> simp only [State.seqUp_eng, State.setFld_eng]
@[simp] theorem State.cond_pool (a : Nat) (f : Fld) (b : Bool) (s : State) : (s.cond a f b).pool = s.pool := by unfold State.cond; split <;> simp only [State.seqUp_pool, State.setFld_pool]
@[simp] theorem State.cond_topo (a : Nat) (f : Fld) (b : Bool) (s : State) : (s.cond a f b).topo = s.topo := by unfold State.cond; split <;> simp only [State.seqUp_topo, State.setFld_topo]
@[simp] theorem State.cond_mgr (a : Nat) (f : Fld) (b : Bool) (s : State) : (s.cond a f b).mgr = s.mgr := by unfold State.cond; split <;> simp only [State.seqUp_mgr, State.setFld_mgr]
@[simp] theorem State.cond_que (a : Nat) (f : Fld) (b : Bool) (s : State) : (s.cond a f b).que = s.que := by unfold State.cond; split <;> simp only [State.seqUp_que, State.setFld_que]
@[simp] theorem State.cond_prot (a : Nat) (f : Fld) (b : Bool) (s : State) : (s.cond a f b).prot = s.prot := by unfold State.cond; split <;> simp only [State.seqUp_prot, State.setFld_prot]
@[simp] theorem State.cond_fuse (a : Nat) (f : Fld) (b : Bool) (s : State) : (s.cond a f b).fuse = s.fuse := by unfold State.cond; split <;> simp only [State.seqUp_fuse, State.setFld_fuse]
@[simp] theorem State.cond_flt (a : Nat) (f : Fld) (b : Bool) (s : State) : (s.cond a f b).flt = s.flt := by unfold State.cond; split <;> simp only [State.seqUp_flt, State.setFld_flt]
@[simp] theorem State.cond_sensors (a : Nat) (f : Fld) (b : Bool) (s : State) : (s.cond a f b).sensors = s.sensors := by unfold State.cond; split <;> simp only [State.seqUp_sensors, State.setFld_sensors]
@[simp] theorem State.cond_bist (a : Nat) (f : Fld) (b : Bool) (s : State) : (s.cond a f b).bist = s.bist := by unfold State.cond; split <;> simp only [State.seqUp_bist, State.setFld_bist]
@[simp] theorem State.cond_regs_eff (a : Nat) (f : Fld) (b : Bool) (s : State) : (s.cond a f b).regs.eff = s.regs.eff := by unfold State.cond; split <;> simp only [State.seqUp_regs_eff, State.setFld_regs_eff]
@[simp] theorem State.cond_regs_wait (a : Nat) (f : Fld) (b : Bool) (s : State) : (s.cond a f b).regs.wait = s.regs.wait := by unfold State.cond; split <;> simp only [State.seqUp_regs_wait, State.setFld_regs_wait]
@[simp] theorem State.cond_regs_mbxC (a : Nat) (f : Fld) (b : Bool) (s : State) : (s.cond a f b).regs.mbxC = s.regs.mbxC := by unfold State.cond; split <;> simp only [State.seqUp_regs_mbxC, State.setFld_regs_mbxC]
@[simp] theorem State.cond_regs_mbxI (a : Nat) (f : Fld) (b : Bool) (s : State) : (s.cond a f b).regs.mbxI = s.regs.mbxI := by unfold State.cond; split <;> simp only [State.seqUp_regs_mbxI, State.setFld_regs_mbxI]

@[simp] theorem State.raiseIf_pending (c : Bool) (a : Nat) (f : Fld) (s : State) : (s.raiseIf c a f).pending = s.pending := by cases c <;> simp only [State.raiseIf, State.raise_pending, if_true, if_false, Bool.false_eq_true]
@[simp] theorem State.raiseIf_now (c : Bool) (a : Nat) (f : Fld) (s : State) : (s.raiseIf c a f).now = s.now := by cases c <;> simp only [State.raiseIf, State.raise_now, if_true, if_false, Bool.false_eq_true]
@[simp] theorem State.raiseIf_tick (c : Bool) (a : Nat) (f : Fld) (s : State) : (s.raiseIf c a f).tick = s.tick := by cases c <;> simp only [State.raiseIf, State.raise_tick, if_true, if_false, Bool.false_eq_true]
@[simp] theorem State.raiseIf_draws (c : Bool) (a : Nat) (f : Fld) (s : State) : (s.raiseIf c a f).draws = s.draws := by cases c <;> simp only [State.raiseIf, State.raise_draws, if_true, if_false, Bool.false_eq_true]
@[simp] theorem State.raiseIf_id (c : Bool) (a : Nat) (f : Fld) (s : State) : (s.raiseIf c a f).id = s.id := by cases c <;> simp only [State.raiseIf, State.raise_id, if_true, if_false, Bool.false_eq_true]
@[simp] theorem State.raiseIf_power (c : Bool) (a : Nat) (f : Fld) (s : State) : (s.raiseIf c a f).power = s.power := by cases c <;> simp only [State.raiseIf, State.raise_power, if_true, if_false, Bool.false_eq_true]
@[simp] theorem State.raiseIf_image (c : Bool) (a : Nat) (f : Fld) (s : State) : (s.raiseIf c a f).image = s.image := by cases c <;> simp only [State.raiseIf, State.raise_image, if_true, if_false, Bool.false_eq_true]
@[simp] theorem State.raiseIf_net (c : Bool) (a : Nat) (f : Fld) (s : State) : (s.raiseIf c a f).net = s.net := by cases c <;> simp only [State.raiseIf, State.raise_net, if_true, if_false, Bool.false_eq_true]
@[simp] theorem State.raiseIf_mem (c : Bool) (a : Nat) (f : Fld) (s : State) : (s.raiseIf c a f).mem = s.mem := by cases c <;> simp only [State.raiseIf, State.raise_mem, if_true, if_false, Bool.false_eq_true]
@[simp] theorem State.raiseIf_stack (c : Bool) (a : Nat) (f : Fld) (s : State) : (s.raiseIf c a f).stack = s.stack := by cases c <;> simp only [State.raiseIf, State.raise_stack, if_true, if_false, Bool.false_eq_true]
@[simp] theorem State.raiseIf_own (c : Bool) (a : Nat) (f : Fld) (s : State) : (s.raiseIf c a f).own = s.own := by cases c <;> simp only [State.raiseIf, State.raise_own, if_true, if_false, Bool.false_eq_true]
@[simp] theorem State.raiseIf_eng (c : Bool) (a : Nat) (f : Fld) (s : State) : (s.raiseIf c a f).eng = s.eng := by cases c <;> simp only [State.raiseIf, State.raise_eng, if_true, if_false, Bool.false_eq_true]
@[simp] theorem State.raiseIf_pool (c : Bool) (a : Nat) (f : Fld) (s : State) : (s.raiseIf c a f).pool = s.pool := by cases c <;> simp only [State.raiseIf, State.raise_pool, if_true, if_false, Bool.false_eq_true]
@[simp] theorem State.raiseIf_topo (c : Bool) (a : Nat) (f : Fld) (s : State) : (s.raiseIf c a f).topo = s.topo := by cases c <;> simp only [State.raiseIf, State.raise_topo, if_true, if_false, Bool.false_eq_true]
@[simp] theorem State.raiseIf_mgr (c : Bool) (a : Nat) (f : Fld) (s : State) : (s.raiseIf c a f).mgr = s.mgr := by cases c <;> simp only [State.raiseIf, State.raise_mgr, if_true, if_false, Bool.false_eq_true]
@[simp] theorem State.raiseIf_que (c : Bool) (a : Nat) (f : Fld) (s : State) : (s.raiseIf c a f).que = s.que := by cases c <;> simp only [State.raiseIf, State.raise_que, if_true, if_false, Bool.false_eq_true]
@[simp] theorem State.raiseIf_prot (c : Bool) (a : Nat) (f : Fld) (s : State) : (s.raiseIf c a f).prot = s.prot := by cases c <;> simp only [State.raiseIf, State.raise_prot, if_true, if_false, Bool.false_eq_true]
@[simp] theorem State.raiseIf_fuse (c : Bool) (a : Nat) (f : Fld) (s : State) : (s.raiseIf c a f).fuse = s.fuse := by cases c <;> simp only [State.raiseIf, State.raise_fuse, if_true, if_false, Bool.false_eq_true]
@[simp] theorem State.raiseIf_flt (c : Bool) (a : Nat) (f : Fld) (s : State) : (s.raiseIf c a f).flt = s.flt := by cases c <;> simp only [State.raiseIf, State.raise_flt, if_true, if_false, Bool.false_eq_true]
@[simp] theorem State.raiseIf_sensors (c : Bool) (a : Nat) (f : Fld) (s : State) : (s.raiseIf c a f).sensors = s.sensors := by cases c <;> simp only [State.raiseIf, State.raise_sensors, if_true, if_false, Bool.false_eq_true]
@[simp] theorem State.raiseIf_bist (c : Bool) (a : Nat) (f : Fld) (s : State) : (s.raiseIf c a f).bist = s.bist := by cases c <;> simp only [State.raiseIf, State.raise_bist, if_true, if_false, Bool.false_eq_true]
@[simp] theorem State.raiseIf_regs_eff (c : Bool) (a : Nat) (f : Fld) (s : State) : (s.raiseIf c a f).regs.eff = s.regs.eff := by cases c <;> simp only [State.raiseIf, State.raise_regs_eff, if_true, if_false, Bool.false_eq_true]
@[simp] theorem State.raiseIf_regs_wait (c : Bool) (a : Nat) (f : Fld) (s : State) : (s.raiseIf c a f).regs.wait = s.regs.wait := by cases c <;> simp only [State.raiseIf, State.raise_regs_wait, if_true, if_false, Bool.false_eq_true]
@[simp] theorem State.raiseIf_regs_mbxC (c : Bool) (a : Nat) (f : Fld) (s : State) : (s.raiseIf c a f).regs.mbxC = s.regs.mbxC := by cases c <;> simp only [State.raiseIf, State.raise_regs_mbxC, if_true, if_false, Bool.false_eq_true]
@[simp] theorem State.raiseIf_regs_mbxI (c : Bool) (a : Nat) (f : Fld) (s : State) : (s.raiseIf c a f).regs.mbxI = s.regs.mbxI := by cases c <;> simp only [State.raiseIf, State.raise_regs_mbxI, if_true, if_false, Bool.false_eq_true]

@[simp] theorem State.bump_pending (k n : Nat) (s : State) : (s.bump k n).pending = s.pending := rfl
@[simp] theorem State.bump_now (k n : Nat) (s : State) : (s.bump k n).now = s.now := rfl
@[simp] theorem State.bump_tick (k n : Nat) (s : State) : (s.bump k n).tick = s.tick := rfl
@[simp] theorem State.bump_draws (k n : Nat) (s : State) : (s.bump k n).draws = s.draws := rfl
@[simp] theorem State.bump_id (k n : Nat) (s : State) : (s.bump k n).id = s.id := rfl
@[simp] theorem State.bump_power (k n : Nat) (s : State) : (s.bump k n).power = s.power := rfl
@[simp] theorem State.bump_image (k n : Nat) (s : State) : (s.bump k n).image = s.image := rfl
@[simp] theorem State.bump_regs (k n : Nat) (s : State) : (s.bump k n).regs = s.regs := rfl
@[simp] theorem State.bump_net (k n : Nat) (s : State) : (s.bump k n).net = s.net := rfl
@[simp] theorem State.bump_mem (k n : Nat) (s : State) : (s.bump k n).mem = s.mem := rfl
@[simp] theorem State.bump_stack (k n : Nat) (s : State) : (s.bump k n).stack = s.stack := rfl
@[simp] theorem State.bump_own (k n : Nat) (s : State) : (s.bump k n).own = s.own := rfl
@[simp] theorem State.bump_eng (k n : Nat) (s : State) : (s.bump k n).eng = s.eng := rfl
@[simp] theorem State.bump_pool (k n : Nat) (s : State) : (s.bump k n).pool = s.pool := rfl
@[simp] theorem State.bump_topo (k n : Nat) (s : State) : (s.bump k n).topo = s.topo := rfl
@[simp] theorem State.bump_mgr (k n : Nat) (s : State) : (s.bump k n).mgr = s.mgr := rfl
@[simp] theorem State.bump_que (k n : Nat) (s : State) : (s.bump k n).que = s.que := rfl
@[simp] theorem State.bump_prot (k n : Nat) (s : State) : (s.bump k n).prot = s.prot := rfl
@[simp] theorem State.bump_fuse (k n : Nat) (s : State) : (s.bump k n).fuse = s.fuse := rfl
@[simp] theorem State.bump_sensors (k n : Nat) (s : State) : (s.bump k n).sensors = s.sensors := rfl
@[simp] theorem State.bump_bist (k n : Nat) (s : State) : (s.bump k n).bist = s.bist := rfl
@[simp] theorem State.bump_flt_notices (k n : Nat) (s : State) : (s.bump k n).flt.notices = s.flt.notices := rfl
@[simp] theorem State.bump_flt_nseq (k n : Nat) (s : State) : (s.bump k n).flt.nseq = s.flt.nseq := rfl
@[simp] theorem State.bump_flt_hostNtc (k n : Nat) (s : State) : (s.bump k n).flt.hostNtc = s.flt.hostNtc := rfl
@[simp] theorem State.bump_flt_devNseq (k n : Nat) (s : State) : (s.bump k n).flt.devNseq = s.flt.devNseq := rfl
@[simp] theorem State.bump_flt_windows (k n : Nat) (s : State) : (s.bump k n).flt.windows = s.flt.windows := rfl
@[simp] theorem State.bump_flt_admitStop (k n : Nat) (s : State) : (s.bump k n).flt.admitStop = s.flt.admitStop := rfl
@[simp] theorem State.bump_flt_blaze (k n : Nat) (s : State) : (s.bump k n).flt.blaze = s.flt.blaze := rfl
@[simp] theorem State.bump_flt_torn (k n : Nat) (s : State) : (s.bump k n).flt.torn = s.flt.torn := rfl
@[simp] theorem State.bump_flt_snap (k n : Nat) (s : State) : (s.bump k n).flt.snap = s.flt.snap := rfl
@[simp] theorem State.bump_flt_snapTorn (k n : Nat) (s : State) : (s.bump k n).flt.snapTorn = s.flt.snapTorn := rfl
@[simp] theorem State.bump_flt_snapHdr (k n : Nat) (s : State) : (s.bump k n).flt.snapHdr = s.flt.snapHdr := rfl
@[simp] theorem State.bump_flt_lastCensus (k n : Nat) (s : State) : (s.bump k n).flt.lastCensus = s.flt.lastCensus := rfl
@[simp] theorem State.bump_flt_census (k n : Nat) (s : State) : (s.bump k n).flt.census = s.flt.census := rfl
@[simp] theorem State.bump_flt_censusNo (k n : Nat) (s : State) : (s.bump k n).flt.censusNo = s.flt.censusNo := rfl
@[simp] theorem State.bump_flt_fatals (k n : Nat) (s : State) : (s.bump k n).flt.fatals = s.flt.fatals := rfl
@[simp] theorem State.bump_flt_before (k n : Nat) (s : State) : (s.bump k n).flt.before = s.flt.before := rfl

@[simp] theorem State.setPort_pending (p : Port) (x : PortS) (s : State) : (s.setPort p x).pending = s.pending := by cases p <;> rfl
@[simp] theorem State.setPort_now (p : Port) (x : PortS) (s : State) : (s.setPort p x).now = s.now := by cases p <;> rfl
@[simp] theorem State.setPort_tick (p : Port) (x : PortS) (s : State) : (s.setPort p x).tick = s.tick := by cases p <;> rfl
@[simp] theorem State.setPort_draws (p : Port) (x : PortS) (s : State) : (s.setPort p x).draws = s.draws := by cases p <;> rfl
@[simp] theorem State.setPort_id (p : Port) (x : PortS) (s : State) : (s.setPort p x).id = s.id := by cases p <;> rfl
@[simp] theorem State.setPort_power (p : Port) (x : PortS) (s : State) : (s.setPort p x).power = s.power := by cases p <;> rfl
@[simp] theorem State.setPort_image (p : Port) (x : PortS) (s : State) : (s.setPort p x).image = s.image := by cases p <;> rfl
@[simp] theorem State.setPort_regs (p : Port) (x : PortS) (s : State) : (s.setPort p x).regs = s.regs := by cases p <;> rfl
@[simp] theorem State.setPort_mem (p : Port) (x : PortS) (s : State) : (s.setPort p x).mem = s.mem := by cases p <;> rfl
@[simp] theorem State.setPort_stack (p : Port) (x : PortS) (s : State) : (s.setPort p x).stack = s.stack := by cases p <;> rfl
@[simp] theorem State.setPort_own (p : Port) (x : PortS) (s : State) : (s.setPort p x).own = s.own := by cases p <;> rfl
@[simp] theorem State.setPort_eng (p : Port) (x : PortS) (s : State) : (s.setPort p x).eng = s.eng := by cases p <;> rfl
@[simp] theorem State.setPort_pool (p : Port) (x : PortS) (s : State) : (s.setPort p x).pool = s.pool := by cases p <;> rfl
@[simp] theorem State.setPort_topo (p : Port) (x : PortS) (s : State) : (s.setPort p x).topo = s.topo := by cases p <;> rfl
@[simp] theorem State.setPort_mgr (p : Port) (x : PortS) (s : State) : (s.setPort p x).mgr = s.mgr := by cases p <;> rfl
@[simp] theorem State.setPort_que (p : Port) (x : PortS) (s : State) : (s.setPort p x).que = s.que := by cases p <;> rfl
@[simp] theorem State.setPort_prot (p : Port) (x : PortS) (s : State) : (s.setPort p x).prot = s.prot := by cases p <;> rfl
@[simp] theorem State.setPort_fuse (p : Port) (x : PortS) (s : State) : (s.setPort p x).fuse = s.fuse := by cases p <;> rfl
@[simp] theorem State.setPort_flt (p : Port) (x : PortS) (s : State) : (s.setPort p x).flt = s.flt := by cases p <;> rfl
@[simp] theorem State.setPort_sensors (p : Port) (x : PortS) (s : State) : (s.setPort p x).sensors = s.sensors := by cases p <;> rfl
@[simp] theorem State.setPort_bist (p : Port) (x : PortS) (s : State) : (s.setPort p x).bist = s.bist := by cases p <;> rfl
@[simp] theorem State.setPort_net_mgrPort (p : Port) (x : PortS) (s : State) : (s.setPort p x).net.mgrPort = s.net.mgrPort := by cases p <;> rfl
@[simp] theorem State.setPort_net_inbox (p : Port) (x : PortS) (s : State) : (s.setPort p x).net.inbox = s.net.inbox := by cases p <;> rfl
@[simp] theorem State.setPort_net_tx (p : Port) (x : PortS) (s : State) : (s.setPort p x).net.tx = s.net.tx := by cases p <;> rfl

@[simp] theorem State.modPort_pending (p : Port) (f : PortS → PortS) (s : State) : (s.modPort p f).pending = s.pending := State.setPort_pending ..
@[simp] theorem State.modPort_now (p : Port) (f : PortS → PortS) (s : State) : (s.modPort p f).now = s.now := State.setPort_now ..
@[simp] theorem State.modPort_tick (p : Port) (f : PortS → PortS) (s : State) : (s.modPort p f).tick = s.tick := State.setPort_tick ..
@[simp] theorem State.modPort_draws (p : Port) (f : PortS → PortS) (s : State) : (s.modPort p f).draws = s.draws := State.setPort_draws ..
@[simp] theorem State.modPort_id (p : Port) (f : PortS → PortS) (s : State) : (s.modPort p f).id = s.id := State.setPort_id ..
@[simp] theorem State.modPort_power (p : Port) (f : PortS → PortS) (s : State) : (s.modPort p f).power = s.power := State.setPort_power ..
@[simp] theorem State.modPort_image (p : Port) (f : PortS → PortS) (s : State) : (s.modPort p f).image = s.image := State.setPort_image ..
@[simp] theorem State.modPort_regs (p : Port) (f : PortS → PortS) (s : State) : (s.modPort p f).regs = s.regs := State.setPort_regs ..
@[simp] theorem State.modPort_mem (p : Port) (f : PortS → PortS) (s : State) : (s.modPort p f).mem = s.mem := State.setPort_mem ..
@[simp] theorem State.modPort_stack (p : Port) (f : PortS → PortS) (s : State) : (s.modPort p f).stack = s.stack := State.setPort_stack ..
@[simp] theorem State.modPort_own (p : Port) (f : PortS → PortS) (s : State) : (s.modPort p f).own = s.own := State.setPort_own ..
@[simp] theorem State.modPort_eng (p : Port) (f : PortS → PortS) (s : State) : (s.modPort p f).eng = s.eng := State.setPort_eng ..
@[simp] theorem State.modPort_pool (p : Port) (f : PortS → PortS) (s : State) : (s.modPort p f).pool = s.pool := State.setPort_pool ..
@[simp] theorem State.modPort_topo (p : Port) (f : PortS → PortS) (s : State) : (s.modPort p f).topo = s.topo := State.setPort_topo ..
@[simp] theorem State.modPort_mgr (p : Port) (f : PortS → PortS) (s : State) : (s.modPort p f).mgr = s.mgr := State.setPort_mgr ..
@[simp] theorem State.modPort_que (p : Port) (f : PortS → PortS) (s : State) : (s.modPort p f).que = s.que := State.setPort_que ..
@[simp] theorem State.modPort_prot (p : Port) (f : PortS → PortS) (s : State) : (s.modPort p f).prot = s.prot := State.setPort_prot ..
@[simp] theorem State.modPort_fuse (p : Port) (f : PortS → PortS) (s : State) : (s.modPort p f).fuse = s.fuse := State.setPort_fuse ..
@[simp] theorem State.modPort_flt (p : Port) (f : PortS → PortS) (s : State) : (s.modPort p f).flt = s.flt := State.setPort_flt ..
@[simp] theorem State.modPort_sensors (p : Port) (f : PortS → PortS) (s : State) : (s.modPort p f).sensors = s.sensors := State.setPort_sensors ..
@[simp] theorem State.modPort_bist (p : Port) (f : PortS → PortS) (s : State) : (s.modPort p f).bist = s.bist := State.setPort_bist ..
@[simp] theorem State.modPort_net_mgrPort (p : Port) (f : PortS → PortS) (s : State) : (s.modPort p f).net.mgrPort = s.net.mgrPort := State.setPort_net_mgrPort ..
@[simp] theorem State.modPort_net_inbox (p : Port) (f : PortS → PortS) (s : State) : (s.modPort p f).net.inbox = s.net.inbox := State.setPort_net_inbox ..
@[simp] theorem State.modPort_net_tx (p : Port) (f : PortS → PortS) (s : State) : (s.modPort p f).net.tx = s.net.tx := State.setPort_net_tx ..

@[simp] theorem State.modChan_pending (n : Nat) (f : ChanS → ChanS) (s : State) : (s.modChan n f).pending = s.pending := rfl
@[simp] theorem State.modChan_now (n : Nat) (f : ChanS → ChanS) (s : State) : (s.modChan n f).now = s.now := rfl
@[simp] theorem State.modChan_tick (n : Nat) (f : ChanS → ChanS) (s : State) : (s.modChan n f).tick = s.tick := rfl
@[simp] theorem State.modChan_draws (n : Nat) (f : ChanS → ChanS) (s : State) : (s.modChan n f).draws = s.draws := rfl
@[simp] theorem State.modChan_id (n : Nat) (f : ChanS → ChanS) (s : State) : (s.modChan n f).id = s.id := rfl
@[simp] theorem State.modChan_power (n : Nat) (f : ChanS → ChanS) (s : State) : (s.modChan n f).power = s.power := rfl
@[simp] theorem State.modChan_image (n : Nat) (f : ChanS → ChanS) (s : State) : (s.modChan n f).image = s.image := rfl
@[simp] theorem State.modChan_regs (n : Nat) (f : ChanS → ChanS) (s : State) : (s.modChan n f).regs = s.regs := rfl
@[simp] theorem State.modChan_net (n : Nat) (f : ChanS → ChanS) (s : State) : (s.modChan n f).net = s.net := rfl
@[simp] theorem State.modChan_mem (n : Nat) (f : ChanS → ChanS) (s : State) : (s.modChan n f).mem = s.mem := rfl
@[simp] theorem State.modChan_own (n : Nat) (f : ChanS → ChanS) (s : State) : (s.modChan n f).own = s.own := rfl
@[simp] theorem State.modChan_eng (n : Nat) (f : ChanS → ChanS) (s : State) : (s.modChan n f).eng = s.eng := rfl
@[simp] theorem State.modChan_pool (n : Nat) (f : ChanS → ChanS) (s : State) : (s.modChan n f).pool = s.pool := rfl
@[simp] theorem State.modChan_topo (n : Nat) (f : ChanS → ChanS) (s : State) : (s.modChan n f).topo = s.topo := rfl
@[simp] theorem State.modChan_mgr (n : Nat) (f : ChanS → ChanS) (s : State) : (s.modChan n f).mgr = s.mgr := rfl
@[simp] theorem State.modChan_que (n : Nat) (f : ChanS → ChanS) (s : State) : (s.modChan n f).que = s.que := rfl
@[simp] theorem State.modChan_prot (n : Nat) (f : ChanS → ChanS) (s : State) : (s.modChan n f).prot = s.prot := rfl
@[simp] theorem State.modChan_fuse (n : Nat) (f : ChanS → ChanS) (s : State) : (s.modChan n f).fuse = s.fuse := rfl
@[simp] theorem State.modChan_flt (n : Nat) (f : ChanS → ChanS) (s : State) : (s.modChan n f).flt = s.flt := rfl
@[simp] theorem State.modChan_sensors (n : Nat) (f : ChanS → ChanS) (s : State) : (s.modChan n f).sensors = s.sensors := rfl
@[simp] theorem State.modChan_bist (n : Nat) (f : ChanS → ChanS) (s : State) : (s.modChan n f).bist = s.bist := rfl
@[simp] theorem State.modChan_stack_pcs (n : Nat) (f : ChanS → ChanS) (s : State) : (s.modChan n f).stack.pcs = s.stack.pcs := rfl
@[simp] theorem State.modChan_stack_tiers (n : Nat) (f : ChanS → ChanS) (s : State) : (s.modChan n f).stack.tiers = s.stack.tiers := rfl
@[simp] theorem State.modChan_stack_bursts (n : Nat) (f : ChanS → ChanS) (s : State) : (s.modChan n f).stack.bursts = s.stack.bursts := rfl
@[simp] theorem State.modChan_stack_nextAcc (n : Nat) (f : ChanS → ChanS) (s : State) : (s.modChan n f).stack.nextAcc = s.stack.nextAcc := rfl

@[simp] theorem State.modPc_pending (k : Nat) (f : PcS → PcS) (s : State) : (s.modPc k f).pending = s.pending := rfl
@[simp] theorem State.modPc_now (k : Nat) (f : PcS → PcS) (s : State) : (s.modPc k f).now = s.now := rfl
@[simp] theorem State.modPc_tick (k : Nat) (f : PcS → PcS) (s : State) : (s.modPc k f).tick = s.tick := rfl
@[simp] theorem State.modPc_draws (k : Nat) (f : PcS → PcS) (s : State) : (s.modPc k f).draws = s.draws := rfl
@[simp] theorem State.modPc_id (k : Nat) (f : PcS → PcS) (s : State) : (s.modPc k f).id = s.id := rfl
@[simp] theorem State.modPc_power (k : Nat) (f : PcS → PcS) (s : State) : (s.modPc k f).power = s.power := rfl
@[simp] theorem State.modPc_image (k : Nat) (f : PcS → PcS) (s : State) : (s.modPc k f).image = s.image := rfl
@[simp] theorem State.modPc_regs (k : Nat) (f : PcS → PcS) (s : State) : (s.modPc k f).regs = s.regs := rfl
@[simp] theorem State.modPc_net (k : Nat) (f : PcS → PcS) (s : State) : (s.modPc k f).net = s.net := rfl
@[simp] theorem State.modPc_mem (k : Nat) (f : PcS → PcS) (s : State) : (s.modPc k f).mem = s.mem := rfl
@[simp] theorem State.modPc_own (k : Nat) (f : PcS → PcS) (s : State) : (s.modPc k f).own = s.own := rfl
@[simp] theorem State.modPc_eng (k : Nat) (f : PcS → PcS) (s : State) : (s.modPc k f).eng = s.eng := rfl
@[simp] theorem State.modPc_pool (k : Nat) (f : PcS → PcS) (s : State) : (s.modPc k f).pool = s.pool := rfl
@[simp] theorem State.modPc_topo (k : Nat) (f : PcS → PcS) (s : State) : (s.modPc k f).topo = s.topo := rfl
@[simp] theorem State.modPc_mgr (k : Nat) (f : PcS → PcS) (s : State) : (s.modPc k f).mgr = s.mgr := rfl
@[simp] theorem State.modPc_que (k : Nat) (f : PcS → PcS) (s : State) : (s.modPc k f).que = s.que := rfl
@[simp] theorem State.modPc_prot (k : Nat) (f : PcS → PcS) (s : State) : (s.modPc k f).prot = s.prot := rfl
@[simp] theorem State.modPc_fuse (k : Nat) (f : PcS → PcS) (s : State) : (s.modPc k f).fuse = s.fuse := rfl
@[simp] theorem State.modPc_flt (k : Nat) (f : PcS → PcS) (s : State) : (s.modPc k f).flt = s.flt := rfl
@[simp] theorem State.modPc_sensors (k : Nat) (f : PcS → PcS) (s : State) : (s.modPc k f).sensors = s.sensors := rfl
@[simp] theorem State.modPc_bist (k : Nat) (f : PcS → PcS) (s : State) : (s.modPc k f).bist = s.bist := rfl
@[simp] theorem State.modPc_stack_chans (k : Nat) (f : PcS → PcS) (s : State) : (s.modPc k f).stack.chans = s.stack.chans := rfl
@[simp] theorem State.modPc_stack_tiers (k : Nat) (f : PcS → PcS) (s : State) : (s.modPc k f).stack.tiers = s.stack.tiers := rfl
@[simp] theorem State.modPc_stack_bursts (k : Nat) (f : PcS → PcS) (s : State) : (s.modPc k f).stack.bursts = s.stack.bursts := rfl
@[simp] theorem State.modPc_stack_nextAcc (k : Nat) (f : PcS → PcS) (s : State) : (s.modPc k f).stack.nextAcc = s.stack.nextAcc := rfl

@[simp] theorem State.modBank_pending (k pos : Nat) (f : BankS → BankS) (s : State) : (s.modBank k pos f).pending = s.pending := State.modPc_pending ..
@[simp] theorem State.modBank_now (k pos : Nat) (f : BankS → BankS) (s : State) : (s.modBank k pos f).now = s.now := State.modPc_now ..
@[simp] theorem State.modBank_tick (k pos : Nat) (f : BankS → BankS) (s : State) : (s.modBank k pos f).tick = s.tick := State.modPc_tick ..
@[simp] theorem State.modBank_draws (k pos : Nat) (f : BankS → BankS) (s : State) : (s.modBank k pos f).draws = s.draws := State.modPc_draws ..
@[simp] theorem State.modBank_id (k pos : Nat) (f : BankS → BankS) (s : State) : (s.modBank k pos f).id = s.id := State.modPc_id ..
@[simp] theorem State.modBank_power (k pos : Nat) (f : BankS → BankS) (s : State) : (s.modBank k pos f).power = s.power := State.modPc_power ..
@[simp] theorem State.modBank_image (k pos : Nat) (f : BankS → BankS) (s : State) : (s.modBank k pos f).image = s.image := State.modPc_image ..
@[simp] theorem State.modBank_regs (k pos : Nat) (f : BankS → BankS) (s : State) : (s.modBank k pos f).regs = s.regs := State.modPc_regs ..
@[simp] theorem State.modBank_net (k pos : Nat) (f : BankS → BankS) (s : State) : (s.modBank k pos f).net = s.net := State.modPc_net ..
@[simp] theorem State.modBank_mem (k pos : Nat) (f : BankS → BankS) (s : State) : (s.modBank k pos f).mem = s.mem := State.modPc_mem ..
@[simp] theorem State.modBank_own (k pos : Nat) (f : BankS → BankS) (s : State) : (s.modBank k pos f).own = s.own := State.modPc_own ..
@[simp] theorem State.modBank_eng (k pos : Nat) (f : BankS → BankS) (s : State) : (s.modBank k pos f).eng = s.eng := State.modPc_eng ..
@[simp] theorem State.modBank_pool (k pos : Nat) (f : BankS → BankS) (s : State) : (s.modBank k pos f).pool = s.pool := State.modPc_pool ..
@[simp] theorem State.modBank_topo (k pos : Nat) (f : BankS → BankS) (s : State) : (s.modBank k pos f).topo = s.topo := State.modPc_topo ..
@[simp] theorem State.modBank_mgr (k pos : Nat) (f : BankS → BankS) (s : State) : (s.modBank k pos f).mgr = s.mgr := State.modPc_mgr ..
@[simp] theorem State.modBank_que (k pos : Nat) (f : BankS → BankS) (s : State) : (s.modBank k pos f).que = s.que := State.modPc_que ..
@[simp] theorem State.modBank_prot (k pos : Nat) (f : BankS → BankS) (s : State) : (s.modBank k pos f).prot = s.prot := State.modPc_prot ..
@[simp] theorem State.modBank_fuse (k pos : Nat) (f : BankS → BankS) (s : State) : (s.modBank k pos f).fuse = s.fuse := State.modPc_fuse ..
@[simp] theorem State.modBank_flt (k pos : Nat) (f : BankS → BankS) (s : State) : (s.modBank k pos f).flt = s.flt := State.modPc_flt ..
@[simp] theorem State.modBank_sensors (k pos : Nat) (f : BankS → BankS) (s : State) : (s.modBank k pos f).sensors = s.sensors := State.modPc_sensors ..
@[simp] theorem State.modBank_bist (k pos : Nat) (f : BankS → BankS) (s : State) : (s.modBank k pos f).bist = s.bist := State.modPc_bist ..
@[simp] theorem State.modBank_stack_chans (k pos : Nat) (f : BankS → BankS) (s : State) : (s.modBank k pos f).stack.chans = s.stack.chans := State.modPc_stack_chans ..
@[simp] theorem State.modBank_stack_tiers (k pos : Nat) (f : BankS → BankS) (s : State) : (s.modBank k pos f).stack.tiers = s.stack.tiers := State.modPc_stack_tiers ..
@[simp] theorem State.modBank_stack_bursts (k pos : Nat) (f : BankS → BankS) (s : State) : (s.modBank k pos f).stack.bursts = s.stack.bursts := State.modPc_stack_bursts ..
@[simp] theorem State.modBank_stack_nextAcc (k pos : Nat) (f : BankS → BankS) (s : State) : (s.modBank k pos f).stack.nextAcc = s.stack.nextAcc := State.modPc_stack_nextAcc ..

@[simp] theorem State.modTier_pending (t : Nat) (f : TierS → TierS) (s : State) : (s.modTier t f).pending = s.pending := rfl
@[simp] theorem State.modTier_now (t : Nat) (f : TierS → TierS) (s : State) : (s.modTier t f).now = s.now := rfl
@[simp] theorem State.modTier_tick (t : Nat) (f : TierS → TierS) (s : State) : (s.modTier t f).tick = s.tick := rfl
@[simp] theorem State.modTier_draws (t : Nat) (f : TierS → TierS) (s : State) : (s.modTier t f).draws = s.draws := rfl
@[simp] theorem State.modTier_id (t : Nat) (f : TierS → TierS) (s : State) : (s.modTier t f).id = s.id := rfl
@[simp] theorem State.modTier_power (t : Nat) (f : TierS → TierS) (s : State) : (s.modTier t f).power = s.power := rfl
@[simp] theorem State.modTier_image (t : Nat) (f : TierS → TierS) (s : State) : (s.modTier t f).image = s.image := rfl
@[simp] theorem State.modTier_regs (t : Nat) (f : TierS → TierS) (s : State) : (s.modTier t f).regs = s.regs := rfl
@[simp] theorem State.modTier_net (t : Nat) (f : TierS → TierS) (s : State) : (s.modTier t f).net = s.net := rfl
@[simp] theorem State.modTier_mem (t : Nat) (f : TierS → TierS) (s : State) : (s.modTier t f).mem = s.mem := rfl
@[simp] theorem State.modTier_own (t : Nat) (f : TierS → TierS) (s : State) : (s.modTier t f).own = s.own := rfl
@[simp] theorem State.modTier_eng (t : Nat) (f : TierS → TierS) (s : State) : (s.modTier t f).eng = s.eng := rfl
@[simp] theorem State.modTier_pool (t : Nat) (f : TierS → TierS) (s : State) : (s.modTier t f).pool = s.pool := rfl
@[simp] theorem State.modTier_topo (t : Nat) (f : TierS → TierS) (s : State) : (s.modTier t f).topo = s.topo := rfl
@[simp] theorem State.modTier_mgr (t : Nat) (f : TierS → TierS) (s : State) : (s.modTier t f).mgr = s.mgr := rfl
@[simp] theorem State.modTier_que (t : Nat) (f : TierS → TierS) (s : State) : (s.modTier t f).que = s.que := rfl
@[simp] theorem State.modTier_prot (t : Nat) (f : TierS → TierS) (s : State) : (s.modTier t f).prot = s.prot := rfl
@[simp] theorem State.modTier_fuse (t : Nat) (f : TierS → TierS) (s : State) : (s.modTier t f).fuse = s.fuse := rfl
@[simp] theorem State.modTier_flt (t : Nat) (f : TierS → TierS) (s : State) : (s.modTier t f).flt = s.flt := rfl
@[simp] theorem State.modTier_sensors (t : Nat) (f : TierS → TierS) (s : State) : (s.modTier t f).sensors = s.sensors := rfl
@[simp] theorem State.modTier_bist (t : Nat) (f : TierS → TierS) (s : State) : (s.modTier t f).bist = s.bist := rfl
@[simp] theorem State.modTier_stack_chans (t : Nat) (f : TierS → TierS) (s : State) : (s.modTier t f).stack.chans = s.stack.chans := rfl
@[simp] theorem State.modTier_stack_pcs (t : Nat) (f : TierS → TierS) (s : State) : (s.modTier t f).stack.pcs = s.stack.pcs := rfl
@[simp] theorem State.modTier_stack_bursts (t : Nat) (f : TierS → TierS) (s : State) : (s.modTier t f).stack.bursts = s.stack.bursts := rfl
@[simp] theorem State.modTier_stack_nextAcc (t : Nat) (f : TierS → TierS) (s : State) : (s.modTier t f).stack.nextAcc = s.stack.nextAcc := rfl

@[simp] theorem State.modSensor_pending (i : Nat) (f : SensorS → SensorS) (s : State) : (s.modSensor i f).pending = s.pending := rfl
@[simp] theorem State.modSensor_now (i : Nat) (f : SensorS → SensorS) (s : State) : (s.modSensor i f).now = s.now := rfl
@[simp] theorem State.modSensor_tick (i : Nat) (f : SensorS → SensorS) (s : State) : (s.modSensor i f).tick = s.tick := rfl
@[simp] theorem State.modSensor_draws (i : Nat) (f : SensorS → SensorS) (s : State) : (s.modSensor i f).draws = s.draws := rfl
@[simp] theorem State.modSensor_id (i : Nat) (f : SensorS → SensorS) (s : State) : (s.modSensor i f).id = s.id := rfl
@[simp] theorem State.modSensor_power (i : Nat) (f : SensorS → SensorS) (s : State) : (s.modSensor i f).power = s.power := rfl
@[simp] theorem State.modSensor_image (i : Nat) (f : SensorS → SensorS) (s : State) : (s.modSensor i f).image = s.image := rfl
@[simp] theorem State.modSensor_regs (i : Nat) (f : SensorS → SensorS) (s : State) : (s.modSensor i f).regs = s.regs := rfl
@[simp] theorem State.modSensor_net (i : Nat) (f : SensorS → SensorS) (s : State) : (s.modSensor i f).net = s.net := rfl
@[simp] theorem State.modSensor_mem (i : Nat) (f : SensorS → SensorS) (s : State) : (s.modSensor i f).mem = s.mem := rfl
@[simp] theorem State.modSensor_stack (i : Nat) (f : SensorS → SensorS) (s : State) : (s.modSensor i f).stack = s.stack := rfl
@[simp] theorem State.modSensor_own (i : Nat) (f : SensorS → SensorS) (s : State) : (s.modSensor i f).own = s.own := rfl
@[simp] theorem State.modSensor_eng (i : Nat) (f : SensorS → SensorS) (s : State) : (s.modSensor i f).eng = s.eng := rfl
@[simp] theorem State.modSensor_pool (i : Nat) (f : SensorS → SensorS) (s : State) : (s.modSensor i f).pool = s.pool := rfl
@[simp] theorem State.modSensor_topo (i : Nat) (f : SensorS → SensorS) (s : State) : (s.modSensor i f).topo = s.topo := rfl
@[simp] theorem State.modSensor_mgr (i : Nat) (f : SensorS → SensorS) (s : State) : (s.modSensor i f).mgr = s.mgr := rfl
@[simp] theorem State.modSensor_que (i : Nat) (f : SensorS → SensorS) (s : State) : (s.modSensor i f).que = s.que := rfl
@[simp] theorem State.modSensor_prot (i : Nat) (f : SensorS → SensorS) (s : State) : (s.modSensor i f).prot = s.prot := rfl
@[simp] theorem State.modSensor_fuse (i : Nat) (f : SensorS → SensorS) (s : State) : (s.modSensor i f).fuse = s.fuse := rfl
@[simp] theorem State.modSensor_flt (i : Nat) (f : SensorS → SensorS) (s : State) : (s.modSensor i f).flt = s.flt := rfl
@[simp] theorem State.modSensor_bist (i : Nat) (f : SensorS → SensorS) (s : State) : (s.modSensor i f).bist = s.bist := rfl

@[simp] theorem State.modEnt_pending (n : Nat) (f : TopoE → TopoE) (s : State) : (s.modEnt n f).pending = s.pending := rfl
@[simp] theorem State.modEnt_now (n : Nat) (f : TopoE → TopoE) (s : State) : (s.modEnt n f).now = s.now := rfl
@[simp] theorem State.modEnt_tick (n : Nat) (f : TopoE → TopoE) (s : State) : (s.modEnt n f).tick = s.tick := rfl
@[simp] theorem State.modEnt_draws (n : Nat) (f : TopoE → TopoE) (s : State) : (s.modEnt n f).draws = s.draws := rfl
@[simp] theorem State.modEnt_id (n : Nat) (f : TopoE → TopoE) (s : State) : (s.modEnt n f).id = s.id := rfl
@[simp] theorem State.modEnt_power (n : Nat) (f : TopoE → TopoE) (s : State) : (s.modEnt n f).power = s.power := rfl
@[simp] theorem State.modEnt_image (n : Nat) (f : TopoE → TopoE) (s : State) : (s.modEnt n f).image = s.image := rfl
@[simp] theorem State.modEnt_regs (n : Nat) (f : TopoE → TopoE) (s : State) : (s.modEnt n f).regs = s.regs := rfl
@[simp] theorem State.modEnt_net (n : Nat) (f : TopoE → TopoE) (s : State) : (s.modEnt n f).net = s.net := rfl
@[simp] theorem State.modEnt_mem (n : Nat) (f : TopoE → TopoE) (s : State) : (s.modEnt n f).mem = s.mem := rfl
@[simp] theorem State.modEnt_stack (n : Nat) (f : TopoE → TopoE) (s : State) : (s.modEnt n f).stack = s.stack := rfl
@[simp] theorem State.modEnt_own (n : Nat) (f : TopoE → TopoE) (s : State) : (s.modEnt n f).own = s.own := rfl
@[simp] theorem State.modEnt_eng (n : Nat) (f : TopoE → TopoE) (s : State) : (s.modEnt n f).eng = s.eng := rfl
@[simp] theorem State.modEnt_pool (n : Nat) (f : TopoE → TopoE) (s : State) : (s.modEnt n f).pool = s.pool := rfl
@[simp] theorem State.modEnt_mgr (n : Nat) (f : TopoE → TopoE) (s : State) : (s.modEnt n f).mgr = s.mgr := rfl
@[simp] theorem State.modEnt_que (n : Nat) (f : TopoE → TopoE) (s : State) : (s.modEnt n f).que = s.que := rfl
@[simp] theorem State.modEnt_prot (n : Nat) (f : TopoE → TopoE) (s : State) : (s.modEnt n f).prot = s.prot := rfl
@[simp] theorem State.modEnt_fuse (n : Nat) (f : TopoE → TopoE) (s : State) : (s.modEnt n f).fuse = s.fuse := rfl
@[simp] theorem State.modEnt_flt (n : Nat) (f : TopoE → TopoE) (s : State) : (s.modEnt n f).flt = s.flt := rfl
@[simp] theorem State.modEnt_sensors (n : Nat) (f : TopoE → TopoE) (s : State) : (s.modEnt n f).sensors = s.sensors := rfl
@[simp] theorem State.modEnt_bist (n : Nat) (f : TopoE → TopoE) (s : State) : (s.modEnt n f).bist = s.bist := rfl
@[simp] theorem State.modEnt_topo_walk (n : Nat) (f : TopoE → TopoE) (s : State) : (s.modEnt n f).topo.walk = s.topo.walk := rfl
@[simp] theorem State.modEnt_topo_places (n : Nat) (f : TopoE → TopoE) (s : State) : (s.modEnt n f).topo.places = s.topo.places := rfl
@[simp] theorem State.modEnt_topo_settled (n : Nat) (f : TopoE → TopoE) (s : State) : (s.modEnt n f).topo.settled = s.topo.settled := rfl
@[simp] theorem State.modEnt_topo_trunk (n : Nat) (f : TopoE → TopoE) (s : State) : (s.modEnt n f).topo.trunk = s.topo.trunk := rfl
@[simp] theorem State.modEnt_topo_spurs (n : Nat) (f : TopoE → TopoE) (s : State) : (s.modEnt n f).topo.spurs = s.topo.spurs := rfl
@[simp] theorem State.modEnt_topo_settling (n : Nat) (f : TopoE → TopoE) (s : State) : (s.modEnt n f).topo.settling = s.topo.settling := rfl
@[simp] theorem State.modEnt_topo_adopted (n : Nat) (f : TopoE → TopoE) (s : State) : (s.modEnt n f).topo.adopted = s.topo.adopted := rfl

@[simp] theorem State.setCtx_pending (q : Nat) (c : List Nat) (s : State) : (s.setCtx q c).pending = s.pending := rfl
@[simp] theorem State.setCtx_now (q : Nat) (c : List Nat) (s : State) : (s.setCtx q c).now = s.now := rfl
@[simp] theorem State.setCtx_tick (q : Nat) (c : List Nat) (s : State) : (s.setCtx q c).tick = s.tick := rfl
@[simp] theorem State.setCtx_draws (q : Nat) (c : List Nat) (s : State) : (s.setCtx q c).draws = s.draws := rfl
@[simp] theorem State.setCtx_id (q : Nat) (c : List Nat) (s : State) : (s.setCtx q c).id = s.id := rfl
@[simp] theorem State.setCtx_power (q : Nat) (c : List Nat) (s : State) : (s.setCtx q c).power = s.power := rfl
@[simp] theorem State.setCtx_image (q : Nat) (c : List Nat) (s : State) : (s.setCtx q c).image = s.image := rfl
@[simp] theorem State.setCtx_regs (q : Nat) (c : List Nat) (s : State) : (s.setCtx q c).regs = s.regs := rfl
@[simp] theorem State.setCtx_net (q : Nat) (c : List Nat) (s : State) : (s.setCtx q c).net = s.net := rfl
@[simp] theorem State.setCtx_mem (q : Nat) (c : List Nat) (s : State) : (s.setCtx q c).mem = s.mem := rfl
@[simp] theorem State.setCtx_stack (q : Nat) (c : List Nat) (s : State) : (s.setCtx q c).stack = s.stack := rfl
@[simp] theorem State.setCtx_own (q : Nat) (c : List Nat) (s : State) : (s.setCtx q c).own = s.own := rfl
@[simp] theorem State.setCtx_eng (q : Nat) (c : List Nat) (s : State) : (s.setCtx q c).eng = s.eng := rfl
@[simp] theorem State.setCtx_pool (q : Nat) (c : List Nat) (s : State) : (s.setCtx q c).pool = s.pool := rfl
@[simp] theorem State.setCtx_topo (q : Nat) (c : List Nat) (s : State) : (s.setCtx q c).topo = s.topo := rfl
@[simp] theorem State.setCtx_mgr (q : Nat) (c : List Nat) (s : State) : (s.setCtx q c).mgr = s.mgr := rfl
@[simp] theorem State.setCtx_prot (q : Nat) (c : List Nat) (s : State) : (s.setCtx q c).prot = s.prot := rfl
@[simp] theorem State.setCtx_fuse (q : Nat) (c : List Nat) (s : State) : (s.setCtx q c).fuse = s.fuse := rfl
@[simp] theorem State.setCtx_flt (q : Nat) (c : List Nat) (s : State) : (s.setCtx q c).flt = s.flt := rfl
@[simp] theorem State.setCtx_sensors (q : Nat) (c : List Nat) (s : State) : (s.setCtx q c).sensors = s.sensors := rfl
@[simp] theorem State.setCtx_bist (q : Nat) (c : List Nat) (s : State) : (s.setCtx q c).bist = s.bist := rfl
@[simp] theorem State.setCtx_que_dbBase (q : Nat) (c : List Nat) (s : State) : (s.setCtx q c).que.dbBase = s.que.dbBase := rfl
@[simp] theorem State.setCtx_que_sumBase (q : Nat) (c : List Nat) (s : State) : (s.setCtx q c).que.sumBase = s.que.sumBase := rfl
@[simp] theorem State.setCtx_que_dbNew (q : Nat) (c : List Nat) (s : State) : (s.setCtx q c).que.dbNew = s.que.dbNew := rfl
@[simp] theorem State.setCtx_que_sumNew (q : Nat) (c : List Nat) (s : State) : (s.setCtx q c).que.sumNew = s.que.sumNew := rfl
@[simp] theorem State.setCtx_que_polling (q : Nat) (c : List Nat) (s : State) : (s.setCtx q c).que.polling = s.que.polling := rfl
@[simp] theorem State.setCtx_que_inPoll (q : Nat) (c : List Nat) (s : State) : (s.setCtx q c).que.inPoll = s.que.inPoll := rfl
@[simp] theorem State.setCtx_que_hints (q : Nat) (c : List Nat) (s : State) : (s.setCtx q c).que.hints = s.que.hints := rfl
@[simp] theorem State.setCtx_que_stalled (q : Nat) (c : List Nat) (s : State) : (s.setCtx q c).que.stalled = s.que.stalled := rfl
@[simp] theorem State.setCtx_que_pollDue (q : Nat) (c : List Nat) (s : State) : (s.setCtx q c).que.pollDue = s.que.pollDue := rfl
@[simp] theorem State.setCtx_que_tails (q : Nat) (c : List Nat) (s : State) : (s.setCtx q c).que.tails = s.que.tails := rfl
@[simp] theorem State.setCtx_que_last (q : Nat) (c : List Nat) (s : State) : (s.setCtx q c).que.last = s.que.last := rfl
@[simp] theorem State.setCtx_que_lastOrd (q : Nat) (c : List Nat) (s : State) : (s.setCtx q c).que.lastOrd = s.que.lastOrd := rfl
@[simp] theorem State.setCtx_que_descs (q : Nat) (c : List Nat) (s : State) : (s.setCtx q c).que.descs = s.que.descs := rfl
@[simp] theorem State.setCtx_que_nextDesc (q : Nat) (c : List Nat) (s : State) : (s.setCtx q c).que.nextDesc = s.que.nextDesc := rfl
@[simp] theorem State.setCtx_que_cqs (q : Nat) (c : List Nat) (s : State) : (s.setCtx q c).que.cqs = s.que.cqs := rfl
@[simp] theorem State.setCtx_que_groups (q : Nat) (c : List Nat) (s : State) : (s.setCtx q c).que.groups = s.que.groups := rfl
@[simp] theorem State.setCtx_que_job (q : Nat) (c : List Nat) (s : State) : (s.setCtx q c).que.job = s.que.job := rfl
@[simp] theorem State.setCtx_que_flash (q : Nat) (c : List Nat) (s : State) : (s.setCtx q c).que.flash = s.que.flash := rfl
@[simp] theorem State.setCtx_que_density (q : Nat) (c : List Nat) (s : State) : (s.setCtx q c).que.density = s.que.density := rfl

@[simp] theorem State.setKey_pending (k : Nat) (x : KeyS) (s : State) : (s.setKey k x).pending = s.pending := rfl
@[simp] theorem State.setKey_now (k : Nat) (x : KeyS) (s : State) : (s.setKey k x).now = s.now := rfl
@[simp] theorem State.setKey_tick (k : Nat) (x : KeyS) (s : State) : (s.setKey k x).tick = s.tick := rfl
@[simp] theorem State.setKey_draws (k : Nat) (x : KeyS) (s : State) : (s.setKey k x).draws = s.draws := rfl
@[simp] theorem State.setKey_id (k : Nat) (x : KeyS) (s : State) : (s.setKey k x).id = s.id := rfl
@[simp] theorem State.setKey_power (k : Nat) (x : KeyS) (s : State) : (s.setKey k x).power = s.power := rfl
@[simp] theorem State.setKey_image (k : Nat) (x : KeyS) (s : State) : (s.setKey k x).image = s.image := rfl
@[simp] theorem State.setKey_regs (k : Nat) (x : KeyS) (s : State) : (s.setKey k x).regs = s.regs := rfl
@[simp] theorem State.setKey_net (k : Nat) (x : KeyS) (s : State) : (s.setKey k x).net = s.net := rfl
@[simp] theorem State.setKey_mem (k : Nat) (x : KeyS) (s : State) : (s.setKey k x).mem = s.mem := rfl
@[simp] theorem State.setKey_stack (k : Nat) (x : KeyS) (s : State) : (s.setKey k x).stack = s.stack := rfl
@[simp] theorem State.setKey_own (k : Nat) (x : KeyS) (s : State) : (s.setKey k x).own = s.own := rfl
@[simp] theorem State.setKey_eng (k : Nat) (x : KeyS) (s : State) : (s.setKey k x).eng = s.eng := rfl
@[simp] theorem State.setKey_pool (k : Nat) (x : KeyS) (s : State) : (s.setKey k x).pool = s.pool := rfl
@[simp] theorem State.setKey_topo (k : Nat) (x : KeyS) (s : State) : (s.setKey k x).topo = s.topo := rfl
@[simp] theorem State.setKey_mgr (k : Nat) (x : KeyS) (s : State) : (s.setKey k x).mgr = s.mgr := rfl
@[simp] theorem State.setKey_que (k : Nat) (x : KeyS) (s : State) : (s.setKey k x).que = s.que := rfl
@[simp] theorem State.setKey_fuse (k : Nat) (x : KeyS) (s : State) : (s.setKey k x).fuse = s.fuse := rfl
@[simp] theorem State.setKey_flt (k : Nat) (x : KeyS) (s : State) : (s.setKey k x).flt = s.flt := rfl
@[simp] theorem State.setKey_sensors (k : Nat) (x : KeyS) (s : State) : (s.setKey k x).sensors = s.sensors := rfl
@[simp] theorem State.setKey_bist (k : Nat) (x : KeyS) (s : State) : (s.setKey k x).bist = s.bist := rfl
@[simp] theorem State.setKey_prot_maps (k : Nat) (x : KeyS) (s : State) : (s.setKey k x).prot.maps = s.prot.maps := rfl
@[simp] theorem State.setKey_prot_own (k : Nat) (x : KeyS) (s : State) : (s.setKey k x).prot.own = s.prot.own := rfl
@[simp] theorem State.setKey_prot_jobs (k : Nat) (x : KeyS) (s : State) : (s.setKey k x).prot.jobs = s.prot.jobs := rfl
@[simp] theorem State.setKey_prot_win (k : Nat) (x : KeyS) (s : State) : (s.setKey k x).prot.win = s.prot.win := rfl
@[simp] theorem State.setKey_prot_jtagOut (k : Nat) (x : KeyS) (s : State) : (s.setKey k x).prot.jtagOut = s.prot.jtagOut := rfl

@[simp] theorem State.modPower_pending (f : PowerS → PowerS) (s : State) : (s.modPower f).pending = s.pending := rfl
@[simp] theorem State.modPower_now (f : PowerS → PowerS) (s : State) : (s.modPower f).now = s.now := rfl
@[simp] theorem State.modPower_tick (f : PowerS → PowerS) (s : State) : (s.modPower f).tick = s.tick := rfl
@[simp] theorem State.modPower_draws (f : PowerS → PowerS) (s : State) : (s.modPower f).draws = s.draws := rfl
@[simp] theorem State.modPower_id (f : PowerS → PowerS) (s : State) : (s.modPower f).id = s.id := rfl
@[simp] theorem State.modPower_image (f : PowerS → PowerS) (s : State) : (s.modPower f).image = s.image := rfl
@[simp] theorem State.modPower_regs (f : PowerS → PowerS) (s : State) : (s.modPower f).regs = s.regs := rfl
@[simp] theorem State.modPower_net (f : PowerS → PowerS) (s : State) : (s.modPower f).net = s.net := rfl
@[simp] theorem State.modPower_mem (f : PowerS → PowerS) (s : State) : (s.modPower f).mem = s.mem := rfl
@[simp] theorem State.modPower_stack (f : PowerS → PowerS) (s : State) : (s.modPower f).stack = s.stack := rfl
@[simp] theorem State.modPower_own (f : PowerS → PowerS) (s : State) : (s.modPower f).own = s.own := rfl
@[simp] theorem State.modPower_eng (f : PowerS → PowerS) (s : State) : (s.modPower f).eng = s.eng := rfl
@[simp] theorem State.modPower_pool (f : PowerS → PowerS) (s : State) : (s.modPower f).pool = s.pool := rfl
@[simp] theorem State.modPower_topo (f : PowerS → PowerS) (s : State) : (s.modPower f).topo = s.topo := rfl
@[simp] theorem State.modPower_mgr (f : PowerS → PowerS) (s : State) : (s.modPower f).mgr = s.mgr := rfl
@[simp] theorem State.modPower_que (f : PowerS → PowerS) (s : State) : (s.modPower f).que = s.que := rfl
@[simp] theorem State.modPower_prot (f : PowerS → PowerS) (s : State) : (s.modPower f).prot = s.prot := rfl
@[simp] theorem State.modPower_fuse (f : PowerS → PowerS) (s : State) : (s.modPower f).fuse = s.fuse := rfl
@[simp] theorem State.modPower_flt (f : PowerS → PowerS) (s : State) : (s.modPower f).flt = s.flt := rfl
@[simp] theorem State.modPower_sensors (f : PowerS → PowerS) (s : State) : (s.modPower f).sensors = s.sensors := rfl
@[simp] theorem State.modPower_bist (f : PowerS → PowerS) (s : State) : (s.modPower f).bist = s.bist := rfl

@[simp] theorem State.notice_pending (t sev : Nat) (pl : List Byte) (s : State) : (s.notice t sev pl).pending = s.pending := by simp only [State.notice]; split <;> simp only [State.bump_pending]
@[simp] theorem State.notice_now (t sev : Nat) (pl : List Byte) (s : State) : (s.notice t sev pl).now = s.now := by simp only [State.notice]; split <;> simp only [State.bump_now]
@[simp] theorem State.notice_tick (t sev : Nat) (pl : List Byte) (s : State) : (s.notice t sev pl).tick = s.tick := by simp only [State.notice]; split <;> simp only [State.bump_tick]
@[simp] theorem State.notice_draws (t sev : Nat) (pl : List Byte) (s : State) : (s.notice t sev pl).draws = s.draws := by simp only [State.notice]; split <;> simp only [State.bump_draws]
@[simp] theorem State.notice_id (t sev : Nat) (pl : List Byte) (s : State) : (s.notice t sev pl).id = s.id := by simp only [State.notice]; split <;> simp only [State.bump_id]
@[simp] theorem State.notice_power (t sev : Nat) (pl : List Byte) (s : State) : (s.notice t sev pl).power = s.power := by simp only [State.notice]; split <;> simp only [State.bump_power]
@[simp] theorem State.notice_image (t sev : Nat) (pl : List Byte) (s : State) : (s.notice t sev pl).image = s.image := by simp only [State.notice]; split <;> simp only [State.bump_image]
@[simp] theorem State.notice_regs (t sev : Nat) (pl : List Byte) (s : State) : (s.notice t sev pl).regs = s.regs := by simp only [State.notice]; split <;> simp only [State.bump_regs]
@[simp] theorem State.notice_net (t sev : Nat) (pl : List Byte) (s : State) : (s.notice t sev pl).net = s.net := by simp only [State.notice]; split <;> simp only [State.bump_net]
@[simp] theorem State.notice_mem (t sev : Nat) (pl : List Byte) (s : State) : (s.notice t sev pl).mem = s.mem := by simp only [State.notice]; split <;> simp only [State.bump_mem]
@[simp] theorem State.notice_stack (t sev : Nat) (pl : List Byte) (s : State) : (s.notice t sev pl).stack = s.stack := by simp only [State.notice]; split <;> simp only [State.bump_stack]
@[simp] theorem State.notice_own (t sev : Nat) (pl : List Byte) (s : State) : (s.notice t sev pl).own = s.own := by simp only [State.notice]; split <;> simp only [State.bump_own]
@[simp] theorem State.notice_eng (t sev : Nat) (pl : List Byte) (s : State) : (s.notice t sev pl).eng = s.eng := by simp only [State.notice]; split <;> simp only [State.bump_eng]
@[simp] theorem State.notice_pool (t sev : Nat) (pl : List Byte) (s : State) : (s.notice t sev pl).pool = s.pool := by simp only [State.notice]; split <;> simp only [State.bump_pool]
@[simp] theorem State.notice_topo (t sev : Nat) (pl : List Byte) (s : State) : (s.notice t sev pl).topo = s.topo := by simp only [State.notice]; split <;> simp only [State.bump_topo]
@[simp] theorem State.notice_mgr (t sev : Nat) (pl : List Byte) (s : State) : (s.notice t sev pl).mgr = s.mgr := by simp only [State.notice]; split <;> simp only [State.bump_mgr]
@[simp] theorem State.notice_que (t sev : Nat) (pl : List Byte) (s : State) : (s.notice t sev pl).que = s.que := by simp only [State.notice]; split <;> simp only [State.bump_que]
@[simp] theorem State.notice_prot (t sev : Nat) (pl : List Byte) (s : State) : (s.notice t sev pl).prot = s.prot := by simp only [State.notice]; split <;> simp only [State.bump_prot]
@[simp] theorem State.notice_fuse (t sev : Nat) (pl : List Byte) (s : State) : (s.notice t sev pl).fuse = s.fuse := by simp only [State.notice]; split <;> simp only [State.bump_fuse]
@[simp] theorem State.notice_sensors (t sev : Nat) (pl : List Byte) (s : State) : (s.notice t sev pl).sensors = s.sensors := by simp only [State.notice]; split <;> simp only [State.bump_sensors]
@[simp] theorem State.notice_bist (t sev : Nat) (pl : List Byte) (s : State) : (s.notice t sev pl).bist = s.bist := by simp only [State.notice]; split <;> simp only [State.bump_bist]
@[simp] theorem State.notice_flt_hostNtc (t sev : Nat) (pl : List Byte) (s : State) : (s.notice t sev pl).flt.hostNtc = s.flt.hostNtc := by simp only [State.notice]; split <;> simp only [State.bump_flt_hostNtc]
@[simp] theorem State.notice_flt_devNseq (t sev : Nat) (pl : List Byte) (s : State) : (s.notice t sev pl).flt.devNseq = s.flt.devNseq := by simp only [State.notice]; split <;> simp only [State.bump_flt_devNseq]
@[simp] theorem State.notice_flt_windows (t sev : Nat) (pl : List Byte) (s : State) : (s.notice t sev pl).flt.windows = s.flt.windows := by simp only [State.notice]; split <;> simp only [State.bump_flt_windows]
@[simp] theorem State.notice_flt_admitStop (t sev : Nat) (pl : List Byte) (s : State) : (s.notice t sev pl).flt.admitStop = s.flt.admitStop := by simp only [State.notice]; split <;> simp only [State.bump_flt_admitStop]
@[simp] theorem State.notice_flt_blaze (t sev : Nat) (pl : List Byte) (s : State) : (s.notice t sev pl).flt.blaze = s.flt.blaze := by simp only [State.notice]; split <;> simp only [State.bump_flt_blaze]
@[simp] theorem State.notice_flt_torn (t sev : Nat) (pl : List Byte) (s : State) : (s.notice t sev pl).flt.torn = s.flt.torn := by simp only [State.notice]; split <;> simp only [State.bump_flt_torn]
@[simp] theorem State.notice_flt_snap (t sev : Nat) (pl : List Byte) (s : State) : (s.notice t sev pl).flt.snap = s.flt.snap := by simp only [State.notice]; split <;> simp only [State.bump_flt_snap]
@[simp] theorem State.notice_flt_snapTorn (t sev : Nat) (pl : List Byte) (s : State) : (s.notice t sev pl).flt.snapTorn = s.flt.snapTorn := by simp only [State.notice]; split <;> simp only [State.bump_flt_snapTorn]
@[simp] theorem State.notice_flt_snapHdr (t sev : Nat) (pl : List Byte) (s : State) : (s.notice t sev pl).flt.snapHdr = s.flt.snapHdr := by simp only [State.notice]; split <;> simp only [State.bump_flt_snapHdr]
@[simp] theorem State.notice_flt_lastCensus (t sev : Nat) (pl : List Byte) (s : State) : (s.notice t sev pl).flt.lastCensus = s.flt.lastCensus := by simp only [State.notice]; split <;> simp only [State.bump_flt_lastCensus]
@[simp] theorem State.notice_flt_census (t sev : Nat) (pl : List Byte) (s : State) : (s.notice t sev pl).flt.census = s.flt.census := by simp only [State.notice]; split <;> simp only [State.bump_flt_census]
@[simp] theorem State.notice_flt_censusNo (t sev : Nat) (pl : List Byte) (s : State) : (s.notice t sev pl).flt.censusNo = s.flt.censusNo := by simp only [State.notice]; split <;> simp only [State.bump_flt_censusNo]
@[simp] theorem State.notice_flt_fatals (t sev : Nat) (pl : List Byte) (s : State) : (s.notice t sev pl).flt.fatals = s.flt.fatals := by simp only [State.notice]; split <;> simp only [State.bump_flt_fatals]
@[simp] theorem State.notice_flt_before (t sev : Nat) (pl : List Byte) (s : State) : (s.notice t sev pl).flt.before = s.flt.before := by simp only [State.notice]; split <;> simp only [State.bump_flt_before]

end Sys2Proof.Machine
end

