-- ==== Sys2Proof/Laws/Word.lean ====
section
/-! SUPPORT. Bit fields: a field that was set reads as what it was given, and a field apart from it reads as before. -/

set_option Elab.async false

namespace Sys2Proof

/-- The bits of a number after some of them were replaced. -/
theorem bits_setBits_self (n hi lo v : Nat) : bits (setBits n hi lo v) hi lo = v % 2 ^ (hi + 1 - lo) := by
  unfold bits setBits
  rcases Nat.lt_or_ge hi lo with h | h
  · have : hi + 1 - lo = 0 := by omega
    simp [this, Nat.mod_one]
  · obtain ⟨d, rfl⟩ : ∃ d, hi = lo + d := ⟨hi - lo, by omega⟩
    have e : lo + d + 1 = lo + (d + 1) := by omega
    have e2 : lo + d + 1 - lo = d + 1 := by omega
    rw [e2, e, Nat.pow_add]
    have hp : 0 < 2 ^ lo := Nat.two_pow_pos lo
    have h1 : (n / (2 ^ lo * 2 ^ (d + 1)) * (2 ^ lo * 2 ^ (d + 1)) + v % 2 ^ (d + 1) * 2 ^ lo + n % 2 ^ lo) / 2 ^ lo =
        n / (2 ^ lo * 2 ^ (d + 1)) * 2 ^ (d + 1) + v % 2 ^ (d + 1) := by
      have : n / (2 ^ lo * 2 ^ (d + 1)) * (2 ^ lo * 2 ^ (d + 1)) + v % 2 ^ (d + 1) * 2 ^ lo + n % 2 ^ lo =
          n % 2 ^ lo + 2 ^ lo * (n / (2 ^ lo * 2 ^ (d + 1)) * 2 ^ (d + 1) + v % 2 ^ (d + 1)) := by ring
      rw [this, Nat.add_mul_div_left _ _ hp, Nat.div_eq_of_lt (Nat.mod_lt _ hp), Nat.zero_add]
    rw [h1, Nat.add_comm, Nat.add_mul_mod_self_right, Nat.mod_mod]

/-- Bits of a number above the replaced ones. -/
theorem bits_setBits_above {hi lo h l : Nat} (hl : hi < l) (n v : Nat) (hlo : lo ≤ hi + 1) :
    bits (setBits n hi lo v) h l = bits n h l := by
  unfold bits setBits
  congr 1
  obtain ⟨d, rfl⟩ : ∃ d, l = hi + 1 + d := ⟨l - (hi + 1), by omega⟩
  rw [show 2 ^ (hi + 1 + d) = 2 ^ (hi + 1) * 2 ^ d from Nat.pow_add _ _ _, ← Nat.div_div_eq_div_mul, ← Nat.div_div_eq_div_mul]
  congr 1
  have hp : 0 < 2 ^ (hi + 1) := Nat.two_pow_pos _
  have hlt : v % 2 ^ (hi + 1 - lo) * 2 ^ lo + n % 2 ^ lo < 2 ^ (hi + 1) := by
    have h1 : v % 2 ^ (hi + 1 - lo) < 2 ^ (hi + 1 - lo) := Nat.mod_lt _ (Nat.two_pow_pos _)
    have h2 : n % 2 ^ lo < 2 ^ lo := Nat.mod_lt _ (Nat.two_pow_pos _)
    have h3 : 2 ^ (hi + 1) = 2 ^ (hi + 1 - lo) * 2 ^ lo := by rw [← Nat.pow_add]; congr 1; omega
    rw [h3]
    calc v % 2 ^ (hi + 1 - lo) * 2 ^ lo + n % 2 ^ lo < v % 2 ^ (hi + 1 - lo) * 2 ^ lo + 2 ^ lo := by omega
      _ = (v % 2 ^ (hi + 1 - lo) + 1) * 2 ^ lo := by ring
      _ ≤ 2 ^ (hi + 1 - lo) * 2 ^ lo := Nat.mul_le_mul_right _ h1
  rw [Nat.add_assoc, Nat.add_comm, Nat.add_mul_div_right _ _ hp, Nat.div_eq_of_lt hlt, Nat.zero_add]

/-- Bits of a number below the replaced ones. -/
theorem bits_setBits_below {hi lo h l : Nat} (hh : h < lo) (n v : Nat) (hlo : lo ≤ hi + 1) :
    bits (setBits n hi lo v) h l = bits n h l := by
  unfold bits
  rcases Nat.lt_or_ge h l with hl | hl
  · have : h + 1 - l = 0 := by omega
    simp [this, Nat.mod_one]
  · have key : setBits n hi lo v % 2 ^ lo = n % 2 ^ lo := by
      unfold setBits
      have h3 : 2 ^ (hi + 1) = 2 ^ (hi + 1 - lo) * 2 ^ lo := by rw [← Nat.pow_add]; congr 1; omega
      have e : n / 2 ^ (hi + 1) * 2 ^ (hi + 1) + v % 2 ^ (hi + 1 - lo) * 2 ^ lo + n % 2 ^ lo =
          n % 2 ^ lo + 2 ^ lo * (n / 2 ^ (hi + 1) * 2 ^ (hi + 1 - lo) + v % 2 ^ (hi + 1 - lo)) := by
        rw [h3]; ring
      rw [e, Nat.add_mul_mod_self_left, Nat.mod_mod]
    have part (m : Nat) : m / 2 ^ l % 2 ^ (h + 1 - l) = m % 2 ^ lo / 2 ^ l % 2 ^ (h + 1 - l) := by
      obtain ⟨d, rfl⟩ : ∃ d, lo = l + (h + 1 - l) + d := ⟨lo - (h + 1), by omega⟩
      rw [Nat.pow_add, Nat.pow_add, Nat.mod_mul, Nat.mod_mul]
      have hp : 0 < 2 ^ l := Nat.two_pow_pos l
      have : m % 2 ^ l + 2 ^ l * (m / 2 ^ l % 2 ^ (h + 1 - l)) + 2 ^ l * 2 ^ (h + 1 - l) * (m / (2 ^ l * 2 ^ (h + 1 - l)) % 2 ^ d) =
          m % 2 ^ l + 2 ^ l * (m / 2 ^ l % 2 ^ (h + 1 - l) + 2 ^ (h + 1 - l) * (m / (2 ^ l * 2 ^ (h + 1 - l)) % 2 ^ d)) := by ring
      rw [this, Nat.add_mul_div_left _ _ hp, Nat.div_eq_of_lt (Nat.mod_lt _ hp), Nat.zero_add, Nat.add_mul_mod_self_left, Nat.mod_mod]
    rw [part, key, ← part]

/-- The bits above a 32-bit word are zero before and after a field of it was replaced. -/
theorem setBits_lt {n hi lo v w : Nat} (hn : n < 2 ^ w) (hh : hi < w) (hlo : lo ≤ hi + 1) : setBits n hi lo v < 2 ^ w := by
  unfold setBits
  have h1 : v % 2 ^ (hi + 1 - lo) < 2 ^ (hi + 1 - lo) := Nat.mod_lt _ (Nat.two_pow_pos _)
  have h2 : n % 2 ^ lo < 2 ^ lo := Nat.mod_lt _ (Nat.two_pow_pos _)
  have h3 : 2 ^ (hi + 1) = 2 ^ (hi + 1 - lo) * 2 ^ lo := by rw [← Nat.pow_add]; congr 1; omega
  have h4 : 2 ^ w = 2 ^ (w - (hi + 1)) * 2 ^ (hi + 1) := by rw [← Nat.pow_add]; congr 1; omega
  have h5 : n / 2 ^ (hi + 1) < 2 ^ (w - (hi + 1)) := Nat.div_lt_of_lt_mul (by rw [Nat.mul_comm, ← h4]; exact hn)
  have h6 : v % 2 ^ (hi + 1 - lo) * 2 ^ lo + n % 2 ^ lo < 2 ^ (hi + 1) := by
    rw [h3]
    calc v % 2 ^ (hi + 1 - lo) * 2 ^ lo + n % 2 ^ lo < v % 2 ^ (hi + 1 - lo) * 2 ^ lo + 2 ^ lo := by omega
      _ = (v % 2 ^ (hi + 1 - lo) + 1) * 2 ^ lo := by ring
      _ ≤ 2 ^ (hi + 1 - lo) * 2 ^ lo := Nat.mul_le_mul_right _ h1
  calc n / 2 ^ (hi + 1) * 2 ^ (hi + 1) + v % 2 ^ (hi + 1 - lo) * 2 ^ lo + n % 2 ^ lo
      < n / 2 ^ (hi + 1) * 2 ^ (hi + 1) + 2 ^ (hi + 1) := by omega
    _ = (n / 2 ^ (hi + 1) + 1) * 2 ^ (hi + 1) := by ring
    _ ≤ 2 ^ (w - (hi + 1)) * 2 ^ (hi + 1) := Nat.mul_le_mul_right _ h5
    _ = 2 ^ w := h4.symm

namespace Machine

/-- A field of a register word lies in 32 bits. -/
def Fld.ok (f : Fld) : Bool := decide (f.hi < 32) && decide (f.lo ≤ f.hi)

/-- Two fields share no bit. -/
def Fld.apart (f g : Fld) : Bool := decide (f.hi < g.lo) || decide (g.hi < f.lo)

/-- A field that was set reads as the low bits of what it was given. -/
theorem Fld.get_set (f : Fld) (hf : f.ok = true) (v : Nat) (w : Word) : f.get (f.set v w) = v % 2 ^ (f.hi + 1 - f.lo) := by
  simp only [Fld.ok, Bool.and_eq_true, decide_eq_true_eq] at hf
  have h : setBits w.toNat f.hi f.lo v < 2 ^ 32 := setBits_lt w.isLt hf.1 (by omega)
  simp only [Fld.get, Fld.set, BitVec.toNat_ofNat, Nat.mod_eq_of_lt h, bits_setBits_self]

/-- A field apart from the one that was set reads as before. -/
theorem Fld.get_set_apart (f g : Fld) (hg : g.ok = true) (hfg : f.apart g = true) (v : Nat) (w : Word) :
    f.get (g.set v w) = f.get w := by
  simp only [Fld.ok, Bool.and_eq_true, decide_eq_true_eq] at hg
  have h : setBits w.toNat g.hi g.lo v < 2 ^ 32 := setBits_lt w.isLt hg.1 (by omega)
  simp only [Fld.get, Fld.set, BitVec.toNat_ofNat, Nat.mod_eq_of_lt h]
  simp only [Fld.apart, Bool.or_eq_true, decide_eq_true_eq] at hfg
  rcases hfg with hfg | hfg
  · exact bits_setBits_below hfg _ _ (by omega)
  · exact bits_setBits_above hfg _ _ (by omega)

end Machine
end Sys2Proof
end

