-- ==== Sys2Proof/Laws/Registers.lean ====
section
/-! SUPPORT. Registers, flags and the indexed parts of the state: what was set is what is read, and every other one reads as before. -/

set_option Elab.async false

namespace Sys2Proof.Machine

/-! ### The register file -/

/-- A register that was set reads as the word set. -/
@[simp] theorem State.reg_setReg (a : Nat) (w : Word) (s : State) : (s.setReg a w).reg a = w := by
  have h := AMap.get_set_self a (regReset s.id.role a) w s.regs.file
  simp only [AMap.get] at h
  simpa only [State.reg, State.setReg] using h

/-- Every other register reads as before. -/
theorem State.reg_setReg_ne {a b : Nat} (h : b ≠ a) (w : Word) (s : State) : (s.setReg a w).reg b = s.reg b := by
  simp only [State.reg, State.setReg, AMap.find_set_ne h]

theorem State.reg_setFld_ne {a b : Nat} (h : b ≠ a) (f : Fld) (v : Nat) (s : State) : (s.setFld a f v).reg b = s.reg b :=
  State.reg_setReg_ne h _ s

theorem State.reg_seqUp_ne {a b : Nat} (h : b ≠ a) (s : State) : (s.seqUp a).reg b = s.reg b := State.reg_setFld_ne h _ _ s

/-- R50: an event changes no register but its status register. -/
theorem State.reg_raise_ne {a b : Nat} (h : b ≠ a) (f : Fld) (s : State) : (s.raise a f).reg b = s.reg b := by
  rw [State.raise, State.reg_seqUp_ne h, State.reg_setFld_ne h]

theorem State.reg_cond_ne {a b : Nat} (h : b ≠ a) (f : Fld) (c : Bool) (s : State) : (s.cond a f c).reg b = s.reg b := by
  unfold State.cond
  split
  · rfl
  · rw [State.reg_seqUp_ne h, State.reg_setFld_ne h]

/-- A field that was set reads as the low bits of what it was given. -/
theorem State.fld_setFld (a : Nat) (f : Fld) (hf : f.ok = true) (v : Nat) (s : State) :
    (s.setFld a f v).fld a f = v % 2 ^ (f.hi + 1 - f.lo) := by
  simp only [State.fld, State.setFld, State.reg_setReg, Fld.get_set f hf]

/-- A field apart from it reads as before. -/
theorem State.fld_setFld_apart (a : Nat) (f g : Fld) (hg : g.ok = true) (h : f.apart g = true) (v : Nat) (s : State) :
    (s.setFld a g v).fld a f = s.fld a f := by
  simp only [State.fld, State.setFld, State.reg_setReg, Fld.get_set_apart f g hg h]

theorem State.fld_setFld_ne {a b : Nat} (h : b ≠ a) (f g : Fld) (v : Nat) (s : State) : (s.setFld a g v).fld b f = s.fld b f := by
  simp only [State.fld, State.reg_setFld_ne h]

/-- A flag lies below SEQ. -/
def Fld.flag (f : Fld) : Bool := f.hi == f.lo && decide (f.hi < 16)

theorem Fld.flag_ok {f : Fld} (h : f.flag = true) : f.ok = true := by
  simp only [Fld.flag, Fld.ok, Bool.and_eq_true, beq_iff_eq, decide_eq_true_eq] at *; omega

theorem Fld.flag_apart_seq {f : Fld} (h : f.flag = true) : f.apart seqFld = true := by
  simp only [Fld.flag, Bool.and_eq_true, beq_iff_eq, decide_eq_true_eq] at h
  have e : f.hi < 16 := h.2
  simp [Fld.apart, seqFld, e]

theorem Fld.seq_apart_flag {f : Fld} (h : f.flag = true) : seqFld.apart f = true := by
  simp only [Fld.flag, Bool.and_eq_true, beq_iff_eq, decide_eq_true_eq] at h
  have e : f.hi < 16 := h.2
  simp [Fld.apart, seqFld, e]

/-- R50: an event leaves its flag set. -/
theorem State.fld_raise (a : Nat) (f : Fld) (hf : f.flag = true) (s : State) : (s.raise a f).fld a f = 1 := by
  have hw : f.hi + 1 - f.lo = 1 := by
    simp only [Fld.flag, Bool.and_eq_true, beq_iff_eq, decide_eq_true_eq] at hf; omega
  rw [State.raise, State.seqUp, State.fld_setFld_apart a f seqFld (by decide) (Fld.flag_apart_seq hf), State.fld_setFld a f (Fld.flag_ok hf), hw]
  rfl

/-- R50: SEQ advances by one, modulo 65,536, at each event. -/
theorem State.seq_raise (a : Nat) (f : Fld) (hf : f.flag = true) (s : State) :
    (s.raise a f).fld a seqFld = (s.fld a seqFld + 1) % 65536 := by
  rw [State.raise, State.seqUp, State.fld_setFld a seqFld (by decide), State.fld_setFld_apart a seqFld f (Fld.flag_ok hf) (Fld.seq_apart_flag hf)]
  rfl

/-- A condition flag follows its condition. -/
theorem State.fld_cond (a : Nat) (f : Fld) (hf : f.flag = true) (b : Bool) (s : State) : (s.cond a f b).fld a f = b2n b := by
  unfold State.cond
  split
  · assumption
  · have hw : f.hi + 1 - f.lo = 1 := by
      simp only [Fld.flag, Bool.and_eq_true, beq_iff_eq, decide_eq_true_eq] at hf; omega
    rw [State.seqUp, State.fld_setFld_apart a f seqFld (by decide) (Fld.flag_apart_seq hf), State.fld_setFld a f (Fld.flag_ok hf), hw]
    cases b <;> rfl

/-- A flag of the same register apart from the one an event sets reads as before. -/
theorem State.fld_raise_apart (a : Nat) (f g : Fld) (hg : g.flag = true) (hf : f.flag = true) (h : f.apart g = true) (s : State) :
    (s.raise a g).fld a f = s.fld a f := by
  rw [State.raise, State.seqUp, State.fld_setFld_apart a f seqFld (by decide) (Fld.flag_apart_seq hf), State.fld_setFld_apart a f g (Fld.flag_ok hg) h]

theorem State.fld_cond_apart (a : Nat) (f g : Fld) (hg : g.flag = true) (hf : f.flag = true) (h : f.apart g = true) (c : Bool) (s : State) :
    (s.cond a g c).fld a f = s.fld a f := by
  unfold State.cond
  split
  · rfl
  · rw [State.seqUp, State.fld_setFld_apart a f seqFld (by decide) (Fld.flag_apart_seq hf), State.fld_setFld_apart a f g (Fld.flag_ok hg) h]

theorem State.fld_raise_ne {a b : Nat} (h : b ≠ a) (f g : Fld) (s : State) : (s.raise a g).fld b f = s.fld b f := by
  simp only [State.fld, State.reg_raise_ne h]

theorem State.fld_cond_ne {a b : Nat} (h : b ≠ a) (f g : Fld) (c : Bool) (s : State) : (s.cond a g c).fld b f = s.fld b f := by
  simp only [State.fld, State.reg_cond_ne h]

/-- Registers follow from the register file and the role alone. -/
theorem State.reg_congr {s t : State} (h : t.regs.file = s.regs.file) (hr : t.id.role = s.id.role) (a : Nat) : t.reg a = s.reg a := by
  simp only [State.reg, h, hr]

theorem State.fld_congr {s t : State} (h : t.regs.file = s.regs.file) (hr : t.id.role = s.id.role) (a : Nat) (f : Fld) : t.fld a f = s.fld a f := by
  simp only [State.fld, State.reg_congr h hr]

/-! ### Counters -/

/-- The value of a census counter. -/
theorem State.count_bump (k n : Nat) (s : State) :
    (AMap.get k (0, 0) (s.bump k n).flt.counts).1 = ((AMap.get k (0, 0) s.flt.counts).1 + n) % 2 ^ 48 := by
  simp only [State.bump, AMap.get_set_self]

theorem State.count_bump_ne {k j : Nat} (h : j ≠ k) (n : Nat) (s : State) :
    AMap.get j (0, 0) (s.bump k n).flt.counts = AMap.get j (0, 0) s.flt.counts := by
  simp only [State.bump, AMap.get_set_ne h]

/-! ### Parts by index -/

@[simp] theorem State.port_setPort (p : Port) (x : PortS) (s : State) : (s.setPort p x).port p = x := by cases p <;> rfl
theorem State.port_setPort_ne {p q : Port} (h : q ≠ p) (x : PortS) (s : State) : (s.setPort p x).port q = s.port q := by
  cases p <;> cases q <;> first | rfl | exact absurd rfl h
@[simp] theorem State.port_modPort (p : Port) (f : PortS → PortS) (s : State) : (s.modPort p f).port p = f (s.port p) := State.port_setPort ..
theorem State.port_modPort_ne {p q : Port} (h : q ≠ p) (f : PortS → PortS) (s : State) : (s.modPort p f).port q = s.port q :=
  State.port_setPort_ne h ..
/-- Ports follow from the network part alone. -/
theorem State.port_congr {s t : State} (h : t.net.ports = s.net.ports) (p : Port) : t.port p = s.port p := by cases p <;> simp only [State.port, h]

@[simp] theorem State.chan_modChan (n : Nat) (f : ChanS → ChanS) (s : State) : (s.modChan n f).chan n = f (s.chan n) := AMap.get_set_self ..
theorem State.chan_modChan_ne {n m : Nat} (h : m ≠ n) (f : ChanS → ChanS) (s : State) : (s.modChan n f).chan m = s.chan m := AMap.get_set_ne h ..
@[simp] theorem State.pc_modPc (k : Nat) (f : PcS → PcS) (s : State) : (s.modPc k f).pc k = f (s.pc k) := AMap.get_set_self ..
theorem State.pc_modPc_ne {k j : Nat} (h : j ≠ k) (f : PcS → PcS) (s : State) : (s.modPc k f).pc j = s.pc j := AMap.get_set_ne h ..
@[simp] theorem PcS.bank_modBank (pos : Nat) (f : BankS → BankS) (x : PcS) : (x.modBank pos f).bank pos = f (x.bank pos) := AMap.get_set_self ..
@[simp] theorem State.bank_modBank (k pos : Nat) (f : BankS → BankS) (s : State) : (s.modBank k pos f).bank k pos = f (s.bank k pos) := by
  simp only [State.bank, State.modBank, State.pc_modPc, PcS.bank_modBank]
@[simp] theorem State.tier_modTier (t : Nat) (f : TierS → TierS) (s : State) : (s.modTier t f).tier t = f (s.tier t) := AMap.get_set_self ..
theorem State.tier_modTier_ne {t u : Nat} (h : u ≠ t) (f : TierS → TierS) (s : State) : (s.modTier t f).tier u = s.tier u := AMap.get_set_ne h ..
@[simp] theorem State.sensor_modSensor (i : Nat) (f : SensorS → SensorS) (s : State) : (s.modSensor i f).sensor i = f (s.sensor i) :=
  AMap.get_set_self ..
@[simp] theorem State.ent_modEnt (n : Nat) (f : TopoE → TopoE) (s : State) : (s.modEnt n f).ent n = f (s.ent n) := AMap.get_set_self ..
@[simp] theorem State.ctx_setCtx (q : Nat) (c : List Nat) (s : State) : (s.setCtx q c).ctx q = c := AMap.get_set_self ..
theorem State.ctx_setCtx_ne {q r : Nat} (h : r ≠ q) (c : List Nat) (s : State) : (s.setCtx q c).ctx r = s.ctx r := AMap.get_set_ne h ..
@[simp] theorem State.key_setKey (k : Nat) (x : KeyS) (s : State) : (s.setKey k x).key k = x := AMap.get_set_self ..
theorem State.key_setKey_ne {k j : Nat} (h : j ≠ k) (x : KeyS) (s : State) : (s.setKey k x).key j = s.key j := AMap.get_set_ne h ..

/-- Channels, tiers and pseudo-channels follow from the stack part alone. -/
theorem State.chan_congr {s t : State} (h : t.stack.chans = s.stack.chans) (n : Nat) : t.chan n = s.chan n := by simp only [State.chan, h]
theorem State.tier_congr {s t : State} (h : t.stack.tiers = s.stack.tiers) (n : Nat) : t.tier n = s.tier n := by simp only [State.tier, h]
theorem State.pc_congr {s t : State} (h : t.stack.pcs = s.stack.pcs) (n : Nat) : t.pc n = s.pc n := by simp only [State.pc, h]

/-! ### forEach -/

@[simp] theorem forEach_nil {α : Type} (f : α → State → State) (s : State) : forEach [] f s = s := rfl
@[simp] theorem forEach_cons {α : Type} (a : α) (l : List α) (f : α → State → State) (s : State) :
    forEach (a :: l) f s = forEach l f (f a s) := rfl

/-- What every step of a loop keeps, the loop keeps. -/
theorem forEach_keeps {α : Type} (P : State → Prop) (f : α → State → State) (hf : ∀ a s, P s → P (f a s)) :
    ∀ (l : List α) (s : State), P s → P (forEach l f s)
  | [], _, h => h
  | a :: l, s, h => forEach_keeps P f hf l (f a s) (hf a s h)

/-- A part of the state that no step of a loop changes, the loop does not change. -/
theorem forEach_same {α β : Type} (g : State → β) (f : α → State → State) (hf : ∀ a s, g (f a s) = g s) (l : List α) (s : State) :
    g (forEach l f s) = g s :=
  forEach_keeps (fun t => g t = g s) f (fun a t h => (hf a t).trans h) l s rfl

@[simp] theorem when_true (f : State → State) (s : State) : when true f s = f s := rfl
@[simp] theorem when_false (f : State → State) (s : State) : when false f s = s := rfl

end Sys2Proof.Machine
end

