-- ==== Sys2Proof/Laws/Exec.lean ====
section
/-! SUPPORT. Outcomes: a command keeps the queue and the clocks; where nothing goes on inside the device, what follows a command changes
nothing. -/

set_option Elab.async false

namespace Sys2Proof.Machine
open Sys2Proof

@[simp] theorem State.carry_pending (s t : State) : (s.carry t).pending = s.pending := rfl
@[simp] theorem State.carry_now (s t : State) : (s.carry t).now = s.now := rfl
@[simp] theorem State.carry_tick (s t : State) : (s.carry t).tick = s.tick := rfl
@[simp] theorem State.carry_draws (s t : State) : (s.carry t).draws = t.draws := rfl
@[simp] theorem State.carry_id (s t : State) : (s.carry t).id = t.id := rfl
@[simp] theorem State.carry_power (s t : State) : (s.carry t).power = t.power := rfl
@[simp] theorem State.carry_image (s t : State) : (s.carry t).image = t.image := rfl
@[simp] theorem State.carry_regs (s t : State) : (s.carry t).regs = t.regs := rfl
@[simp] theorem State.carry_net (s t : State) : (s.carry t).net = t.net := rfl
@[simp] theorem State.carry_mem (s t : State) : (s.carry t).mem = t.mem := rfl
@[simp] theorem State.carry_stack (s t : State) : (s.carry t).stack = t.stack := rfl
@[simp] theorem State.carry_own (s t : State) : (s.carry t).own = t.own := rfl
@[simp] theorem State.carry_eng (s t : State) : (s.carry t).eng = t.eng := rfl
@[simp] theorem State.carry_pool (s t : State) : (s.carry t).pool = t.pool := rfl
@[simp] theorem State.carry_topo (s t : State) : (s.carry t).topo = t.topo := rfl
@[simp] theorem State.carry_mgr (s t : State) : (s.carry t).mgr = t.mgr := rfl
@[simp] theorem State.carry_que (s t : State) : (s.carry t).que = t.que := rfl
@[simp] theorem State.carry_prot (s t : State) : (s.carry t).prot = t.prot := rfl
@[simp] theorem State.carry_fuse (s t : State) : (s.carry t).fuse = t.fuse := rfl
@[simp] theorem State.carry_flt (s t : State) : (s.carry t).flt = t.flt := rfl
@[simp] theorem State.carry_sensors (s t : State) : (s.carry t).sensors = t.sensors := rfl
@[simp] theorem State.carry_bist (s t : State) : (s.carry t).bist = t.bist := rfl
@[simp] theorem State.carry_reg (s t : State) (a : Nat) : (s.carry t).reg a = t.reg a := rfl
@[simp] theorem State.carry_fld (s t : State) (a : Nat) (f : Fld) : (s.carry t).fld a f = t.fld a f := rfl
@[simp] theorem State.carry_port (s t : State) (p : Port) : (s.carry t).port p = t.port p := by cases p <;> rfl
@[simp] theorem State.carry_chan (s t : State) (n : Nat) : (s.carry t).chan n = t.chan n := rfl
@[simp] theorem State.carry_pc (s t : State) (n : Nat) : (s.carry t).pc n = t.pc n := rfl
@[simp] theorem State.carry_bank (s t : State) (k n : Nat) : (s.carry t).bank k n = t.bank k n := rfl
@[simp] theorem State.carry_tier (s t : State) (n : Nat) : (s.carry t).tier n = t.tier n := rfl
@[simp] theorem State.carry_sensor (s t : State) (n : Nat) : (s.carry t).sensor n = t.sensor n := rfl
@[simp] theorem State.carry_ent (s t : State) (n : Nat) : (s.carry t).ent n = t.ent n := rfl
@[simp] theorem State.carry_ctx (s t : State) (n : Nat) : (s.carry t).ctx n = t.ctx n := rfl
@[simp] theorem State.carry_key (s t : State) (n : Nat) : (s.carry t).key n = t.key n := rfl

/-! ### What follows a command -/

/-- Without a waiting field no apply point does anything at a port. -/
theorem State.applyPort_none (p : Port) (s : State) (h : s.regs.wait = []) : s.applyPort p = s := by
  simp [State.applyPort, h]

/-- R54: without a waiting field the start of training applies nothing. -/
theorem State.trainApply_none (old s : State) (h : s.regs.wait = []) : State.trainApply old s = s := by
  unfold State.trainApply
  have : ∀ (l : List Port), forEach l (fun p s =>
      if !(old.port p).sends && ((s.port p).tstate == .huntFull || (s.port p).tstate == .huntHalf) then s.applyPort p else s) s = s := by
    intro l
    induction l with
    | nil => rfl
    | cons p l ih =>
      rw [forEach_cons]
      split
      · rw [State.applyPort_none p s h]; exact ih
      · exact ih
  exact this _

/-- The warden's work does not move where it has none. -/
theorem State.jobStep_none (s : State) (h : s.que.job = none) : s.jobStep = s := by simp [State.jobStep, h]

theorem State.jobRun_none (n : Nat) (s : State) (h : s.que.job = none) : s.jobRun n = s := by
  cases n with
  | zero => rfl
  | succ n => rw [State.jobRun]; simp only [State.jobStep_none s h]; simp

theorem State.mapStep_none (s : State) (h : s.prot.jobs = []) : s.mapStep = s := by simp [State.mapStep, State.mapEffect, h]

theorem State.cfgLost_none (s : State) (h : s.mgr.cfg = []) : s.cfgLost = s := by
  unfold State.cfgLost
  rw [h]
  rfl

theorem State.cfgTags_none (s : State) (h : s.mgr.waitC = []) : s.cfgTags = s := by simp [State.cfgTags, h]

/-- A visit of every element that changes nothing. -/
theorem forEach_fixed {α : Type} (f : α → State → State) (s : State) (l : List α) (h : ∀ x ∈ l, f x s = s) : forEach l f s = s := by
  induction l with
  | nil => rfl
  | cons x l ih => rw [forEach_cons, h x (by simp)]; exact ih (fun y hy => h y (by simp [hy]))

theorem State.copyPump_none (s : State) (h : s.copyBusy = false) : s.copyPump = s := by
  unfold State.copyPump
  have : s.pool.jobs.filter (fun j => decide (j.2.next < j.2.total) && s.copyIdle j.1) = [] := by
    rw [List.filter_eq_nil_iff]
    intro j hj
    have := List.any_eq_false.1 h j hj
    simp_all
  rw [this]
  rfl

/-- An engine without a shard that may go on stays as it is. -/
theorem State.engGo_none (n t : Nat) (s : State) (h : s.engTurns t = false) : State.engGo n t s = s := by
  unfold State.engTurns at h
  cases n with
  | zero => rfl
  | succ n =>
    rw [State.engGo]
    split
    · rfl
    · next sh hr =>
      rw [hr] at h
      simp only [Bool.and_eq_false_iff, decide_eq_false_iff_not, Nat.not_lt, Option.isNone_eq_false_iff] at h
      rcases h with h | h
      · simp [h]
      · split
        · rfl
        · rw [List.getElem?_eq_none h]

theorem State.engPump_none (s : State) (h : s.engBusy = false) : s.engPump = s :=
  forEach_fixed _ s _ (fun t ht => State.engGo_none _ t s (by simpa using List.any_eq_false.1 h t ht))

theorem State.hintsGo_none (s : State) (h : s.mgr.ingress.any (fun e => e.2.op == .hint) = false) : s.hintsGo = s := by
  have he : s.mgr.ingress.filter (fun e => e.2.op == .hint && !s.fenced e.1 e.2) = [] := by
    rw [List.filter_eq_nil_iff]
    intro e hm
    have := List.any_eq_false.1 h e hm
    simp_all
  unfold State.hintsGo
  simp only [he, forEach_nil]
  have : s.mgr.ingress.filter (fun e => !List.contains [] e) = s.mgr.ingress := by simp
  rw [this]

/-- A group that neither closes nor is joined stays as it is, and so does a batch whose phase B has not run. -/
theorem State.epochSweep_none (s : State) (hg : s.groupBusy = false) (hd : s.que.descs.any DescS.due = false) : s.epochSweep = s := by
  have hf : ∀ p : DescS → Bool, s.que.descs.filter (fun d => d.phaseB == .done && p d) = [] := by
    intro p
    rw [List.filter_eq_nil_iff]
    intro d hm
    have := List.any_eq_false.1 hd d hm
    simp_all [DescS.due]
  unfold State.epochSweep
  simp only [hf, forEach_nil]
  refine forEach_fixed _ s _ (fun e he => ?_)
  have hk : ∀ k, (AMap.get k ({} : GroupS) s.que.groups).closing = false ∧ (AMap.get k ({} : GroupS) s.que.groups).joining = [] := by
    intro k
    rcases AMap.get_mem k ({} : GroupS) s.que.groups with h | h
    · rw [h]; exact ⟨rfl, rfl⟩
    · have := List.any_eq_false.1 hg _ h
      simpa using this
  simp [hk e.1]

/-- Where nothing goes on, nothing moves on. -/
theorem State.goOn_still (s : State) (h : s.calm) : s.goOn = s := by
  obtain ⟨-, hj, hp, hc, hd, hg, hi, he, ho, hw⟩ := h
  unfold State.goOn
  simp only [State.copyPump_none s ho, State.engPump_none s he]
  split
  · have : s.que.descs.filter DescS.reported = [] := by
      rw [List.filter_eq_nil_iff]
      intro d hm
      have := List.any_eq_false.1 hd d hm
      simp_all [DescS.due]
    simp only [this, forEach_nil, State.epochSweep_none s hg hd, State.hintsGo_none s hi, State.cfgLost_none s hc, State.cfgTags_none s hw, State.mapStep_none s hp,
      State.jobRun_none 64 s hj]
  · rfl

theorem State.settle_still (n : Nat) (s : State) (h : s.calm) : s.settle n = s := by
  cases n with
  | zero => rfl
  | succ n => rw [State.settle, h.1]; simp only [State.goOn_still s h, h.1]; simp

/-- A command after which nothing goes on has its effect and nothing else. -/
theorem State.after_still (f : State → State) (s : State) (h : (f s).still) : State.after f s = f s := by
  unfold State.after
  rw [State.settle_still _ _ h.1, State.trainApply_none _ _ h.2]

theorem always_still (f : State → State) (s : State) (h : (f s).still) : always f s = .next (s.carry (f s)) := by
  rw [always, run, State.after_still f s h]

theorem local_none (f : State → State) (s : State) (h : (f s).regs.wait = []) : local_ f s = .next (s.carry (f s)) := by
  rw [local_, run, State.trainApply_none _ _ h]

theorem access_some {f : State → Option State} {s t : State} (hf : f s = some t) (h : t.still) : access f s = .next (s.carry t) := by
  simp only [access, hf, State.after_still (fun _ => t) s h]

/-- A command that writes registers stops only by the fault of R53. -/
theorem access_cases (f : State → Option State) (s : State) :
    (∃ t, f s = some t ∧ access f s = .next (s.carry (State.after (fun _ => t) s))) ∨ (f s = none ∧ access f s = .fault .rsvWritten) := by
  unfold access
  cases h : f s with
  | none => exact .inr ⟨rfl, rfl⟩
  | some t => exact .inl ⟨t, rfl, rfl⟩

/-- Effects on a device whose clocks run. -/
@[simp] theorem whenAwake_true (f : State → State) (s : State) (h : s.awake = true) : whenAwake f s = f s := by simp [whenAwake, h]

/-- A device in RUN is awake, running and supplied. -/
theorem State.up.awake {s : State} (h : s.up) : s.awake = true := by simp [State.awake, h.1]
theorem State.up.running {s : State} (h : s.up) : s.running = true := by simp [State.running, h.1]
theorem State.up.powered {s : State} (h : s.up) : s.powered = true := by simp [State.powered, h.1]
theorem State.up.stopped {s : State} (h : s.up) : s.stopped = false := by simp [State.stopped, h.awake]

end Sys2Proof.Machine
end

