-- ==== Sys2Proof/Laws/Ops.lean ====
section
/-! SUPPORT. What the shared operations leave unchanged: the blaze log, a fault event with its reaction, the stop of a device. -/

namespace Sys2Proof.Machine

theorem State.when_same {β : Type} (g : State → β) (c : Bool) (f : State → State) (s : State) (h : g (f s) = g s) : g (when c f s) = g s := by
  cases c
  · rfl
  · exact h


@[simp] theorem State.blazeDrop_pending  (s : State) : (s.blazeDrop).pending = s.pending := by
  unfold State.blazeDrop; simp only [State.raise_pending, State.bump_pending]
@[simp] theorem State.blazeWrite_pending (src grp unit sev code count : Nat) (args : List Byte) (s : State) : (s.blazeWrite src grp unit sev code count args).pending = s.pending := by
  rfl
@[simp] theorem State.blazePut_pending (src grp unit sev code count : Nat) (args : List Byte) (s : State) : (s.blazePut src grp unit sev code count args).pending = s.pending := by
  unfold State.blazePut; simp only [State.bump_pending, State.blazeWrite_pending]
@[simp] theorem State.blazeAt_pending (src grp unit sev code count : Nat) (args : List Byte) (s : State) : ((s.blazeAt src grp unit sev code count args).1).pending = s.pending := by
  unfold State.blazeAt; split <;> simp only [State.blazeDrop_pending, State.blazePut_pending]
@[simp] theorem State.blazeDrop_now  (s : State) : (s.blazeDrop).now = s.now := by
  unfold State.blazeDrop; simp only [State.raise_now, State.bump_now]
@[simp] theorem State.blazeWrite_now (src grp unit sev code count : Nat) (args : List Byte) (s : State) : (s.blazeWrite src grp unit sev code count args).now = s.now := by
  rfl
@[simp] theorem State.blazePut_now (src grp unit sev code count : Nat) (args : List Byte) (s : State) : (s.blazePut src grp unit sev code count args).now = s.now := by
  unfold State.blazePut; simp only [State.bump_now, State.blazeWrite_now]
@[simp] theorem State.blazeAt_now (src grp unit sev code count : Nat) (args : List Byte) (s : State) : ((s.blazeAt src grp unit sev code count args).1).now = s.now := by
  unfold State.blazeAt; split <;> simp only [State.blazeDrop_now, State.blazePut_now]
@[simp] theorem State.blazeDrop_tick  (s : State) : (s.blazeDrop).tick = s.tick := by
  unfold State.blazeDrop; simp only [State.raise_tick, State.bump_tick]
@[simp] theorem State.blazeWrite_tick (src grp unit sev code count : Nat) (args : List Byte) (s : State) : (s.blazeWrite src grp unit sev code count args).tick = s.tick := by
  rfl
@[simp] theorem State.blazePut_tick (src grp unit sev code count : Nat) (args : List Byte) (s : State) : (s.blazePut src grp unit sev code count args).tick = s.tick := by
  unfold State.blazePut; simp only [State.bump_tick, State.blazeWrite_tick]
@[simp] theorem State.blazeAt_tick (src grp unit sev code count : Nat) (args : List Byte) (s : State) : ((s.blazeAt src grp unit sev code count args).1).tick = s.tick := by
  unfold State.blazeAt; split <;> simp only [State.blazeDrop_tick, State.blazePut_tick]
@[simp] theorem State.blazeDrop_draws  (s : State) : (s.blazeDrop).draws = s.draws := by
  unfold State.blazeDrop; simp only [State.raise_draws, State.bump_draws]
@[simp] theorem State.blazeWrite_draws (src grp unit sev code count : Nat) (args : List Byte) (s : State) : (s.blazeWrite src grp unit sev code count args).draws = s.draws := by
  rfl
@[simp] theorem State.blazePut_draws (src grp unit sev code count : Nat) (args : List Byte) (s : State) : (s.blazePut src grp unit sev code count args).draws = s.draws := by
  unfold State.blazePut; simp only [State.bump_draws, State.blazeWrite_draws]
@[simp] theorem State.blazeAt_draws (src grp unit sev code count : Nat) (args : List Byte) (s : State) : ((s.blazeAt src grp unit sev code count args).1).draws = s.draws := by
  unfold State.blazeAt; split <;> simp only [State.blazeDrop_draws, State.blazePut_draws]
@[simp] theorem State.blazeDrop_id  (s : State) : (s.blazeDrop).id = s.id := by
  unfold State.blazeDrop; simp only [State.raise_id, State.bump_id]
@[simp] theorem State.blazeWrite_id (src grp unit sev code count : Nat) (args : List Byte) (s : State) : (s.blazeWrite src grp unit sev code count args).id = s.id := by
  rfl
@[simp] theorem State.blazePut_id (src grp unit sev code count : Nat) (args : List Byte) (s : State) : (s.blazePut src grp unit sev code count args).id = s.id := by
  unfold State.blazePut; simp only [State.bump_id, State.blazeWrite_id]
@[simp] theorem State.blazeAt_id (src grp unit sev code count : Nat) (args : List Byte) (s : State) : ((s.blazeAt src grp unit sev code count args).1).id = s.id := by
  unfold State.blazeAt; split <;> simp only [State.blazeDrop_id, State.blazePut_id]
@[simp] theorem State.blazeDrop_power  (s : State) : (s.blazeDrop).power = s.power := by
  unfold State.blazeDrop; simp only [State.raise_power, State.bump_power]
@[simp] theorem State.blazeWrite_power (src grp unit sev code count : Nat) (args : List Byte) (s : State) : (s.blazeWrite src grp unit sev code count args).power = s.power := by
  rfl
@[simp] theorem State.blazePut_power (src grp unit sev code count : Nat) (args : List Byte) (s : State) : (s.blazePut src grp unit sev code count args).power = s.power := by
  unfold State.blazePut; simp only [State.bump_power, State.blazeWrite_power]
@[simp] theorem State.blazeAt_power (src grp unit sev code count : Nat) (args : List Byte) (s : State) : ((s.blazeAt src grp unit sev code count args).1).power = s.power := by
  unfold State.blazeAt; split <;> simp only [State.blazeDrop_power, State.blazePut_power]
@[simp] theorem State.blazeDrop_image  (s : State) : (s.blazeDrop).image = s.image := by
  unfold State.blazeDrop; simp only [State.raise_image, State.bump_image]
@[simp] theorem State.blazeWrite_image (src grp unit sev code count : Nat) (args : List Byte) (s : State) : (s.blazeWrite src grp unit sev code count args).image = s.image := by
  rfl
@[simp] theorem State.blazePut_image (src grp unit sev code count : Nat) (args : List Byte) (s : State) : (s.blazePut src grp unit sev code count args).image = s.image := by
  unfold State.blazePut; simp only [State.bump_image, State.blazeWrite_image]
@[simp] theorem State.blazeAt_image (src grp unit sev code count : Nat) (args : List Byte) (s : State) : ((s.blazeAt src grp unit sev code count args).1).image = s.image := by
  unfold State.blazeAt; split <;> simp only [State.blazeDrop_image, State.blazePut_image]
@[simp] theorem State.blazeDrop_net  (s : State) : (s.blazeDrop).net = s.net := by
  unfold State.blazeDrop; simp only [State.raise_net, State.bump_net]
@[simp] theorem State.blazeWrite_net (src grp unit sev code count : Nat) (args : List Byte) (s : State) : (s.blazeWrite src grp unit sev code count args).net = s.net := by
  rfl
@[simp] theorem State.blazePut_net (src grp unit sev code count : Nat) (args : List Byte) (s : State) : (s.blazePut src grp unit sev code count args).net = s.net := by
  unfold State.blazePut; simp only [State.bump_net, State.blazeWrite_net]
@[simp] theorem State.blazeAt_net (src grp unit sev code count : Nat) (args : List Byte) (s : State) : ((s.blazeAt src grp unit sev code count args).1).net = s.net := by
  unfold State.blazeAt; split <;> simp only [State.blazeDrop_net, State.blazePut_net]
@[simp] theorem State.blazeDrop_mem  (s : State) : (s.blazeDrop).mem = s.mem := by
  unfold State.blazeDrop; simp only [State.raise_mem, State.bump_mem]
@[simp] theorem State.blazeWrite_mem (src grp unit sev code count : Nat) (args : List Byte) (s : State) : (s.blazeWrite src grp unit sev code count args).mem = s.mem := by
  rfl
@[simp] theorem State.blazePut_mem (src grp unit sev code count : Nat) (args : List Byte) (s : State) : (s.blazePut src grp unit sev code count args).mem = s.mem := by
  unfold State.blazePut; simp only [State.bump_mem, State.blazeWrite_mem]
@[simp] theorem State.blazeAt_mem (src grp unit sev code count : Nat) (args : List Byte) (s : State) : ((s.blazeAt src grp unit sev code count args).1).mem = s.mem := by
  unfold State.blazeAt; split <;> simp only [State.blazeDrop_mem, State.blazePut_mem]
@[simp] theorem State.blazeDrop_stack  (s : State) : (s.blazeDrop).stack = s.stack := by
  unfold State.blazeDrop; simp only [State.raise_stack, State.bump_stack]
@[simp] theorem State.blazeWrite_stack (src grp unit sev code count : Nat) (args : List Byte) (s : State) : (s.blazeWrite src grp unit sev code count args).stack = s.stack := by
  rfl
@[simp] theorem State.blazePut_stack (src grp unit sev code count : Nat) (args : List Byte) (s : State) : (s.blazePut src grp unit sev code count args).stack = s.stack := by
  unfold State.blazePut; simp only [State.bump_stack, State.blazeWrite_stack]
@[simp] theorem State.blazeAt_stack (src grp unit sev code count : Nat) (args : List Byte) (s : State) : ((s.blazeAt src grp unit sev code count args).1).stack = s.stack := by
  unfold State.blazeAt; split <;> simp only [State.blazeDrop_stack, State.blazePut_stack]
@[simp] theorem State.blazeDrop_own  (s : State) : (s.blazeDrop).own = s.own := by
  unfold State.blazeDrop; simp only [State.raise_own, State.bump_own]
@[simp] theorem State.blazeWrite_own (src grp unit sev code count : Nat) (args : List Byte) (s : State) : (s.blazeWrite src grp unit sev code count args).own = s.own := by
  rfl
@[simp] theorem State.blazePut_own (src grp unit sev code count : Nat) (args : List Byte) (s : State) : (s.blazePut src grp unit sev code count args).own = s.own := by
  unfold State.blazePut; simp only [State.bump_own, State.blazeWrite_own]
@[simp] theorem State.blazeAt_own (src grp unit sev code count : Nat) (args : List Byte) (s : State) : ((s.blazeAt src grp unit sev code count args).1).own = s.own := by
  unfold State.blazeAt; split <;> simp only [State.blazeDrop_own, State.blazePut_own]
@[simp] theorem State.blazeDrop_eng  (s : State) : (s.blazeDrop).eng = s.eng := by
  unfold State.blazeDrop; simp only [State.raise_eng, State.bump_eng]
@[simp] theorem State.blazeWrite_eng (src grp unit sev code count : Nat) (args : List Byte) (s : State) : (s.blazeWrite src grp unit sev code count args).eng = s.eng := by
  rfl
@[simp] theorem State.blazePut_eng (src grp unit sev code count : Nat) (args : List Byte) (s : State) : (s.blazePut src grp unit sev code count args).eng = s.eng := by
  unfold State.blazePut; simp only [State.bump_eng, State.blazeWrite_eng]
@[simp] theorem State.blazeAt_eng (src grp unit sev code count : Nat) (args : List Byte) (s : State) : ((s.blazeAt src grp unit sev code count args).1).eng = s.eng := by
  unfold State.blazeAt; split <;> simp only [State.blazeDrop_eng, State.blazePut_eng]
@[simp] theorem State.blazeDrop_pool  (s : State) : (s.blazeDrop).pool = s.pool := by
  unfold State.blazeDrop; simp only [State.raise_pool, State.bump_pool]
@[simp] theorem State.blazeWrite_pool (src grp unit sev code count : Nat) (args : List Byte) (s : State) : (s.blazeWrite src grp unit sev code count args).pool = s.pool := by
  rfl
@[simp] theorem State.blazePut_pool (src grp unit sev code count : Nat) (args : List Byte) (s : State) : (s.blazePut src grp unit sev code count args).pool = s.pool := by
  unfold State.blazePut; simp only [State.bump_pool, State.blazeWrite_pool]
@[simp] theorem State.blazeAt_pool (src grp unit sev code count : Nat) (args : List Byte) (s : State) : ((s.blazeAt src grp unit sev code count args).1).pool = s.pool := by
  unfold State.blazeAt; split <;> simp only [State.blazeDrop_pool, State.blazePut_pool]
@[simp] theorem State.blazeDrop_topo  (s : State) : (s.blazeDrop).topo = s.topo := by
  unfold State.blazeDrop; simp only [State.raise_topo, State.bump_topo]
@[simp] theorem State.blazeWrite_topo (src grp unit sev code count : Nat) (args : List Byte) (s : State) : (s.blazeWrite src grp unit sev code count args).topo = s.topo := by
  rfl
@[simp] theorem State.blazePut_topo (src grp unit sev code count : Nat) (args : List Byte) (s : State) : (s.blazePut src grp unit sev code count args).topo = s.topo := by
  unfold State.blazePut; simp only [State.bump_topo, State.blazeWrite_topo]
@[simp] theorem State.blazeAt_topo (src grp unit sev code count : Nat) (args : List Byte) (s : State) : ((s.blazeAt src grp unit sev code count args).1).topo = s.topo := by
  unfold State.blazeAt; split <;> simp only [State.blazeDrop_topo, State.blazePut_topo]
@[simp] theorem State.blazeDrop_mgr  (s : State) : (s.blazeDrop).mgr = s.mgr := by
  unfold State.blazeDrop; simp only [State.raise_mgr, State.bump_mgr]
@[simp] theorem State.blazeWrite_mgr (src grp unit sev code count : Nat) (args : List Byte) (s : State) : (s.blazeWrite src grp unit sev code count args).mgr = s.mgr := by
  rfl
@[simp] theorem State.blazePut_mgr (src grp unit sev code count : Nat) (args : List Byte) (s : State) : (s.blazePut src grp unit sev code count args).mgr = s.mgr := by
  unfold State.blazePut; simp only [State.bump_mgr, State.blazeWrite_mgr]
@[simp] theorem State.blazeAt_mgr (src grp unit sev code count : Nat) (args : List Byte) (s : State) : ((s.blazeAt src grp unit sev code count args).1).mgr = s.mgr := by
  unfold State.blazeAt; split <;> simp only [State.blazeDrop_mgr, State.blazePut_mgr]
@[simp] theorem State.blazeDrop_que  (s : State) : (s.blazeDrop).que = s.que := by
  unfold State.blazeDrop; simp only [State.raise_que, State.bump_que]
@[simp] theorem State.blazeWrite_que (src grp unit sev code count : Nat) (args : List Byte) (s : State) : (s.blazeWrite src grp unit sev code count args).que = s.que := by
  rfl
@[simp] theorem State.blazePut_que (src grp unit sev code count : Nat) (args : List Byte) (s : State) : (s.blazePut src grp unit sev code count args).que = s.que := by
  unfold State.blazePut; simp only [State.bump_que, State.blazeWrite_que]
@[simp] theorem State.blazeAt_que (src grp unit sev code count : Nat) (args : List Byte) (s : State) : ((s.blazeAt src grp unit sev code count args).1).que = s.que := by
  unfold State.blazeAt; split <;> simp only [State.blazeDrop_que, State.blazePut_que]
@[simp] theorem State.blazeDrop_prot  (s : State) : (s.blazeDrop).prot = s.prot := by
  unfold State.blazeDrop; simp only [State.raise_prot, State.bump_prot]
@[simp] theorem State.blazeWrite_prot (src grp unit sev code count : Nat) (args : List Byte) (s : State) : (s.blazeWrite src grp unit sev code count args).prot = s.prot := by
  rfl
@[simp] theorem State.blazePut_prot (src grp unit sev code count : Nat) (args : List Byte) (s : State) : (s.blazePut src grp unit sev code count args).prot = s.prot := by
  unfold State.blazePut; simp only [State.bump_prot, State.blazeWrite_prot]
@[simp] theorem State.blazeAt_prot (src grp unit sev code count : Nat) (args : List Byte) (s : State) : ((s.blazeAt src grp unit sev code count args).1).prot = s.prot := by
  unfold State.blazeAt; split <;> simp only [State.blazeDrop_prot, State.blazePut_prot]
@[simp] theorem State.blazeDrop_fuse  (s : State) : (s.blazeDrop).fuse = s.fuse := by
  unfold State.blazeDrop; simp only [State.raise_fuse, State.bump_fuse]
@[simp] theorem State.blazeWrite_fuse (src grp unit sev code count : Nat) (args : List Byte) (s : State) : (s.blazeWrite src grp unit sev code count args).fuse = s.fuse := by
  rfl
@[simp] theorem State.blazePut_fuse (src grp unit sev code count : Nat) (args : List Byte) (s : State) : (s.blazePut src grp unit sev code count args).fuse = s.fuse := by
  unfold State.blazePut; simp only [State.bump_fuse, State.blazeWrite_fuse]
@[simp] theorem State.blazeAt_fuse (src grp unit sev code count : Nat) (args : List Byte) (s : State) : ((s.blazeAt src grp unit sev code count args).1).fuse = s.fuse := by
  unfold State.blazeAt; split <;> simp only [State.blazeDrop_fuse, State.blazePut_fuse]
@[simp] theorem State.blazeDrop_sensors  (s : State) : (s.blazeDrop).sensors = s.sensors := by
  unfold State.blazeDrop; simp only [State.raise_sensors, State.bump_sensors]
@[simp] theorem State.blazeWrite_sensors (src grp unit sev code count : Nat) (args : List Byte) (s : State) : (s.blazeWrite src grp unit sev code count args).sensors = s.sensors := by
  rfl
@[simp] theorem State.blazePut_sensors (src grp unit sev code count : Nat) (args : List Byte) (s : State) : (s.blazePut src grp unit sev code count args).sensors = s.sensors := by
  unfold State.blazePut; simp only [State.bump_sensors, State.blazeWrite_sensors]
@[simp] theorem State.blazeAt_sensors (src grp unit sev code count : Nat) (args : List Byte) (s : State) : ((s.blazeAt src grp unit sev code count args).1).sensors = s.sensors := by
  unfold State.blazeAt; split <;> simp only [State.blazeDrop_sensors, State.blazePut_sensors]
@[simp] theorem State.blazeDrop_bist  (s : State) : (s.blazeDrop).bist = s.bist := by
  unfold State.blazeDrop; simp only [State.raise_bist, State.bump_bist]
@[simp] theorem State.blazeWrite_bist (src grp unit sev code count : Nat) (args : List Byte) (s : State) : (s.blazeWrite src grp unit sev code count args).bist = s.bist := by
  rfl
@[simp] theorem State.blazePut_bist (src grp unit sev code count : Nat) (args : List Byte) (s : State) : (s.blazePut src grp unit sev code count args).bist = s.bist := by
  unfold State.blazePut; simp only [State.bump_bist, State.blazeWrite_bist]
@[simp] theorem State.blazeAt_bist (src grp unit sev code count : Nat) (args : List Byte) (s : State) : ((s.blazeAt src grp unit sev code count args).1).bist = s.bist := by
  unfold State.blazeAt; split <;> simp only [State.blazeDrop_bist, State.blazePut_bist]
@[simp] theorem State.blazeDrop_regs_eff  (s : State) : (s.blazeDrop).regs.eff = s.regs.eff := by
  unfold State.blazeDrop; simp only [State.raise_regs_eff, State.bump_regs]
@[simp] theorem State.blazeWrite_regs_eff (src grp unit sev code count : Nat) (args : List Byte) (s : State) : (s.blazeWrite src grp unit sev code count args).regs.eff = s.regs.eff := by
  rfl
@[simp] theorem State.blazePut_regs_eff (src grp unit sev code count : Nat) (args : List Byte) (s : State) : (s.blazePut src grp unit sev code count args).regs.eff = s.regs.eff := by
  unfold State.blazePut; simp only [State.bump_regs, State.blazeWrite_regs_eff]
@[simp] theorem State.blazeAt_regs_eff (src grp unit sev code count : Nat) (args : List Byte) (s : State) : ((s.blazeAt src grp unit sev code count args).1).regs.eff = s.regs.eff := by
  unfold State.blazeAt; split <;> simp only [State.blazeDrop_regs_eff, State.blazePut_regs_eff]
@[simp] theorem State.blazeDrop_regs_wait  (s : State) : (s.blazeDrop).regs.wait = s.regs.wait := by
  unfold State.blazeDrop; simp only [State.raise_regs_wait, State.bump_regs]
@[simp] theorem State.blazeWrite_regs_wait (src grp unit sev code count : Nat) (args : List Byte) (s : State) : (s.blazeWrite src grp unit sev code count args).regs.wait = s.regs.wait := by
  rfl
@[simp] theorem State.blazePut_regs_wait (src grp unit sev code count : Nat) (args : List Byte) (s : State) : (s.blazePut src grp unit sev code count args).regs.wait = s.regs.wait := by
  unfold State.blazePut; simp only [State.bump_regs, State.blazeWrite_regs_wait]
@[simp] theorem State.blazeAt_regs_wait (src grp unit sev code count : Nat) (args : List Byte) (s : State) : ((s.blazeAt src grp unit sev code count args).1).regs.wait = s.regs.wait := by
  unfold State.blazeAt; split <;> simp only [State.blazeDrop_regs_wait, State.blazePut_regs_wait]
@[simp] theorem State.blazeDrop_regs_mbxC  (s : State) : (s.blazeDrop).regs.mbxC = s.regs.mbxC := by
  unfold State.blazeDrop; simp only [State.raise_regs_mbxC, State.bump_regs]
@[simp] theorem State.blazeWrite_regs_mbxC (src grp unit sev code count : Nat) (args : List Byte) (s : State) : (s.blazeWrite src grp unit sev code count args).regs.mbxC = s.regs.mbxC := by
  rfl
@[simp] theorem State.blazePut_regs_mbxC (src grp unit sev code count : Nat) (args : List Byte) (s : State) : (s.blazePut src grp unit sev code count args).regs.mbxC = s.regs.mbxC := by
  unfold State.blazePut; simp only [State.bump_regs, State.blazeWrite_regs_mbxC]
@[simp] theorem State.blazeAt_regs_mbxC (src grp unit sev code count : Nat) (args : List Byte) (s : State) : ((s.blazeAt src grp unit sev code count args).1).regs.mbxC = s.regs.mbxC := by
  unfold State.blazeAt; split <;> simp only [State.blazeDrop_regs_mbxC, State.blazePut_regs_mbxC]
@[simp] theorem State.blazeDrop_regs_mbxI  (s : State) : (s.blazeDrop).regs.mbxI = s.regs.mbxI := by
  unfold State.blazeDrop; simp only [State.raise_regs_mbxI, State.bump_regs]
@[simp] theorem State.blazeWrite_regs_mbxI (src grp unit sev code count : Nat) (args : List Byte) (s : State) : (s.blazeWrite src grp unit sev code count args).regs.mbxI = s.regs.mbxI := by
  rfl
@[simp] theorem State.blazePut_regs_mbxI (src grp unit sev code count : Nat) (args : List Byte) (s : State) : (s.blazePut src grp unit sev code count args).regs.mbxI = s.regs.mbxI := by
  unfold State.blazePut; simp only [State.bump_regs, State.blazeWrite_regs_mbxI]
@[simp] theorem State.blazeAt_regs_mbxI (src grp unit sev code count : Nat) (args : List Byte) (s : State) : ((s.blazeAt src grp unit sev code count args).1).regs.mbxI = s.regs.mbxI := by
  unfold State.blazeAt; split <;> simp only [State.blazeDrop_regs_mbxI, State.blazePut_regs_mbxI]
@[simp] theorem State.blazeFlags_pending (s : State) : s.blazeFlags.pending = s.pending := by unfold State.blazeFlags; simp only [State.cond_pending]
@[simp] theorem State.blazeFlags_now (s : State) : s.blazeFlags.now = s.now := by unfold State.blazeFlags; simp only [State.cond_now]
@[simp] theorem State.blazeFlags_tick (s : State) : s.blazeFlags.tick = s.tick := by unfold State.blazeFlags; simp only [State.cond_tick]
@[simp] theorem State.blazeFlags_draws (s : State) : s.blazeFlags.draws = s.draws := by unfold State.blazeFlags; simp only [State.cond_draws]
@[simp] theorem State.blazeFlags_id (s : State) : s.blazeFlags.id = s.id := by unfold State.blazeFlags; simp only [State.cond_id]
@[simp] theorem State.blazeFlags_power (s : State) : s.blazeFlags.power = s.power := by unfold State.blazeFlags; simp only [State.cond_power]
@[simp] theorem State.blazeFlags_image (s : State) : s.blazeFlags.image = s.image := by unfold State.blazeFlags; simp only [State.cond_image]
@[simp] theorem State.blazeFlags_net (s : State) : s.blazeFlags.net = s.net := by unfold State.blazeFlags; simp only [State.cond_net]
@[simp] theorem State.blazeFlags_mem (s : State) : s.blazeFlags.mem = s.mem := by unfold State.blazeFlags; simp only [State.cond_mem]
@[simp] theorem State.blazeFlags_stack (s : State) : s.blazeFlags.stack = s.stack := by unfold State.blazeFlags; simp only [State.cond_stack]
@[simp] theorem State.blazeFlags_own (s : State) : s.blazeFlags.own = s.own := by unfold State.blazeFlags; simp only [State.cond_own]
@[simp] theorem State.blazeFlags_eng (s : State) : s.blazeFlags.eng = s.eng := by unfold State.blazeFlags; simp only [State.cond_eng]
@[simp] theorem State.blazeFlags_pool (s : State) : s.blazeFlags.pool = s.pool := by unfold State.blazeFlags; simp only [State.cond_pool]
@[simp] theorem State.blazeFlags_topo (s : State) : s.blazeFlags.topo = s.topo := by unfold State.blazeFlags; simp only [State.cond_topo]
@[simp] theorem State.blazeFlags_mgr (s : State) : s.blazeFlags.mgr = s.mgr := by unfold State.blazeFlags; simp only [State.cond_mgr]
@[simp] theorem State.blazeFlags_que (s : State) : s.blazeFlags.que = s.que := by unfold State.blazeFlags; simp only [State.cond_que]
@[simp] theorem State.blazeFlags_prot (s : State) : s.blazeFlags.prot = s.prot := by unfold State.blazeFlags; simp only [State.cond_prot]
@[simp] theorem State.blazeFlags_fuse (s : State) : s.blazeFlags.fuse = s.fuse := by unfold State.blazeFlags; simp only [State.cond_fuse]
@[simp] theorem State.blazeFlags_flt (s : State) : s.blazeFlags.flt = s.flt := by unfold State.blazeFlags; simp only [State.cond_flt]
@[simp] theorem State.blazeFlags_sensors (s : State) : s.blazeFlags.sensors = s.sensors := by unfold State.blazeFlags; simp only [State.cond_sensors]
@[simp] theorem State.blazeFlags_bist (s : State) : s.blazeFlags.bist = s.bist := by unfold State.blazeFlags; simp only [State.cond_bist]
@[simp] theorem State.blazeFlags_regs_eff (s : State) : s.blazeFlags.regs.eff = s.regs.eff := by unfold State.blazeFlags; simp only [State.cond_regs_eff]
@[simp] theorem State.blazeFlags_regs_wait (s : State) : s.blazeFlags.regs.wait = s.regs.wait := by unfold State.blazeFlags; simp only [State.cond_regs_wait]
@[simp] theorem State.blazeFlags_regs_mbxC (s : State) : s.blazeFlags.regs.mbxC = s.regs.mbxC := by unfold State.blazeFlags; simp only [State.cond_regs_mbxC]
@[simp] theorem State.blazeFlags_regs_mbxI (s : State) : s.blazeFlags.regs.mbxI = s.regs.mbxI := by unfold State.blazeFlags; simp only [State.cond_regs_mbxI]
@[simp] theorem State.blazeFreeze_pending (s : State) : s.blazeFreeze.pending = s.pending := by
  unfold State.blazeFreeze; split <;> (try split) <;> simp only [State.blazeFlags_pending]
@[simp] theorem State.blazeFreeze_now (s : State) : s.blazeFreeze.now = s.now := by
  unfold State.blazeFreeze; split <;> (try split) <;> simp only [State.blazeFlags_now]
@[simp] theorem State.blazeFreeze_tick (s : State) : s.blazeFreeze.tick = s.tick := by
  unfold State.blazeFreeze; split <;> (try split) <;> simp only [State.blazeFlags_tick]
@[simp] theorem State.blazeFreeze_draws (s : State) : s.blazeFreeze.draws = s.draws := by
  unfold State.blazeFreeze; split <;> (try split) <;> simp only [State.blazeFlags_draws]
@[simp] theorem State.blazeFreeze_id (s : State) : s.blazeFreeze.id = s.id := by
  unfold State.blazeFreeze; split <;> (try split) <;> simp only [State.blazeFlags_id]
@[simp] theorem State.blazeFreeze_power (s : State) : s.blazeFreeze.power = s.power := by
  unfold State.blazeFreeze; split <;> (try split) <;> simp only [State.blazeFlags_power]
@[simp] theorem State.blazeFreeze_image (s : State) : s.blazeFreeze.image = s.image := by
  unfold State.blazeFreeze; split <;> (try split) <;> simp only [State.blazeFlags_image]
@[simp] theorem State.blazeFreeze_net (s : State) : s.blazeFreeze.net = s.net := by
  unfold State.blazeFreeze; split <;> (try split) <;> simp only [State.blazeFlags_net]
@[simp] theorem State.blazeFreeze_mem (s : State) : s.blazeFreeze.mem = s.mem := by
  unfold State.blazeFreeze; split <;> (try split) <;> simp only [State.blazeFlags_mem]
@[simp] theorem State.blazeFreeze_stack (s : State) : s.blazeFreeze.stack = s.stack := by
  unfold State.blazeFreeze; split <;> (try split) <;> simp only [State.blazeFlags_stack]
@[simp] theorem State.blazeFreeze_own (s : State) : s.blazeFreeze.own = s.own := by
  unfold State.blazeFreeze; split <;> (try split) <;> simp only [State.blazeFlags_own]
@[simp] theorem State.blazeFreeze_eng (s : State) : s.blazeFreeze.eng = s.eng := by
  unfold State.blazeFreeze; split <;> (try split) <;> simp only [State.blazeFlags_eng]
@[simp] theorem State.blazeFreeze_pool (s : State) : s.blazeFreeze.pool = s.pool := by
  unfold State.blazeFreeze; split <;> (try split) <;> simp only [State.blazeFlags_pool]
@[simp] theorem State.blazeFreeze_topo (s : State) : s.blazeFreeze.topo = s.topo := by
  unfold State.blazeFreeze; split <;> (try split) <;> simp only [State.blazeFlags_topo]
@[simp] theorem State.blazeFreeze_mgr (s : State) : s.blazeFreeze.mgr = s.mgr := by
  unfold State.blazeFreeze; split <;> (try split) <;> simp only [State.blazeFlags_mgr]
@[simp] theorem State.blazeFreeze_que (s : State) : s.blazeFreeze.que = s.que := by
  unfold State.blazeFreeze; split <;> (try split) <;> simp only [State.blazeFlags_que]
@[simp] theorem State.blazeFreeze_prot (s : State) : s.blazeFreeze.prot = s.prot := by
  unfold State.blazeFreeze; split <;> (try split) <;> simp only [State.blazeFlags_prot]
@[simp] theorem State.blazeFreeze_fuse (s : State) : s.blazeFreeze.fuse = s.fuse := by
  unfold State.blazeFreeze; split <;> (try split) <;> simp only [State.blazeFlags_fuse]
@[simp] theorem State.blazeFreeze_sensors (s : State) : s.blazeFreeze.sensors = s.sensors := by
  unfold State.blazeFreeze; split <;> (try split) <;> simp only [State.blazeFlags_sensors]
@[simp] theorem State.blazeFreeze_bist (s : State) : s.blazeFreeze.bist = s.bist := by
  unfold State.blazeFreeze; split <;> (try split) <;> simp only [State.blazeFlags_bist]
@[simp] theorem State.blazeFreeze_regs_eff (s : State) : s.blazeFreeze.regs.eff = s.regs.eff := by
  unfold State.blazeFreeze; split <;> (try split) <;> simp only [State.blazeFlags_regs_eff]
@[simp] theorem State.blazeFreeze_regs_wait (s : State) : s.blazeFreeze.regs.wait = s.regs.wait := by
  unfold State.blazeFreeze; split <;> (try split) <;> simp only [State.blazeFlags_regs_wait]
@[simp] theorem State.blazeFreeze_regs_mbxC (s : State) : s.blazeFreeze.regs.mbxC = s.regs.mbxC := by
  unfold State.blazeFreeze; split <;> (try split) <;> simp only [State.blazeFlags_regs_mbxC]
@[simp] theorem State.blazeFreeze_regs_mbxI (s : State) : s.blazeFreeze.regs.mbxI = s.regs.mbxI := by
  unfold State.blazeFreeze; split <;> (try split) <;> simp only [State.blazeFlags_regs_mbxI]
@[simp] theorem State.faultMark_pending (src unit cls : Nat) (prom : Bool) (s : State) : (s.faultMark src unit cls prom).pending = s.pending := by
  rw [State.faultMark, State.setReg_pending, State.when_same (·.pending) _ _ _ (by simp only [State.raise_pending, State.bump_pending])]; simp only [State.raise_pending, State.bump_pending]
@[simp] theorem State.keepWindow_pending (key : Nat) (w : WindowS) (s : State) : (s.keepWindow key w).pending = s.pending := by
  rfl
@[simp] theorem State.recount_pending (e : Option Nat) (k : Nat) (s : State) : (s.recount e k).pending = s.pending := by
  unfold State.recount; split
  · rfl
  · split <;> rfl
@[simp] theorem State.faultLog_pending (src unit cls : Nat) (prom : Bool) (key : Nat) (w : WindowS) (pl : List Byte) (s : State) : ((s.faultLog src unit cls prom key w pl).1).pending = s.pending := by
  unfold State.faultLog; split
  · simp only [State.keepWindow_pending, State.blazeAt_pending]
  · simp only [State.keepWindow_pending, State.recount_pending]
@[simp] theorem State.faultCount_pending (src unit : Nat) (pl : List Byte) (s : State) : ((s.faultCount src unit pl).1).pending = s.pending := by
  rw [State.faultCount, State.faultLog_pending, State.faultMark_pending]
@[simp] theorem State.faultNotice_pending (src cls : Nat) (prom : Bool) (k : Nat) (s : State) : (s.faultNotice src cls prom k).pending = s.pending := by
  exact State.when_same (·.pending) _ _ _ (by simp only [State.notice_pending])
@[simp] theorem State.fatalEntries_pending (b : BlazeS) (l : List (Nat × Nat × List Byte)) (s : State) : (s.fatalEntries b l).pending = s.pending := by
  unfold State.fatalEntries; dsimp only; split
  · rfl
  · rw [State.blazeFreeze_pending, State.blazeWrite_pending, forEach_same (·.pending) _ (fun _ _ => State.blazeWrite_pending ..)]
@[simp] theorem State.fatalLate_pending (src unit : Nat) (pl : List Byte) (s : State) : (s.fatalLate src unit pl).pending = s.pending := by
  unfold State.fatalLate; split
  · rfl
  · dsimp only; split
    · exact State.blazeDrop_pending s
    · rw [State.bump_pending, State.fatalEntries_pending]
@[simp] theorem State.fatalFirst_pending (cls src unit : Nat) (pl : List Byte) (s : State) : (s.fatalFirst cls src unit pl).pending = s.pending := by
  exact State.when_same (·.pending) _ _ _ rfl
@[simp] theorem State.faultMark_now (src unit cls : Nat) (prom : Bool) (s : State) : (s.faultMark src unit cls prom).now = s.now := by
  rw [State.faultMark, State.setReg_now, State.when_same (·.now) _ _ _ (by simp only [State.raise_now, State.bump_now])]; simp only [State.raise_now, State.bump_now]
@[simp] theorem State.keepWindow_now (key : Nat) (w : WindowS) (s : State) : (s.keepWindow key w).now = s.now := by
  rfl
@[simp] theorem State.recount_now (e : Option Nat) (k : Nat) (s : State) : (s.recount e k).now = s.now := by
  unfold State.recount; split
  · rfl
  · split <;> rfl
@[simp] theorem State.faultLog_now (src unit cls : Nat) (prom : Bool) (key : Nat) (w : WindowS) (pl : List Byte) (s : State) : ((s.faultLog src unit cls prom key w pl).1).now = s.now := by
  unfold State.faultLog; split
  · simp only [State.keepWindow_now, State.blazeAt_now]
  · simp only [State.keepWindow_now, State.recount_now]
@[simp] theorem State.faultCount_now (src unit : Nat) (pl : List Byte) (s : State) : ((s.faultCount src unit pl).1).now = s.now := by
  rw [State.faultCount, State.faultLog_now, State.faultMark_now]
@[simp] theorem State.faultNotice_now (src cls : Nat) (prom : Bool) (k : Nat) (s : State) : (s.faultNotice src cls prom k).now = s.now := by
  exact State.when_same (·.now) _ _ _ (by simp only [State.notice_now])
@[simp] theorem State.fatalEntries_now (b : BlazeS) (l : List (Nat × Nat × List Byte)) (s : State) : (s.fatalEntries b l).now = s.now := by
  unfold State.fatalEntries; dsimp only; split
  · rfl
  · rw [State.blazeFreeze_now, State.blazeWrite_now, forEach_same (·.now) _ (fun _ _ => State.blazeWrite_now ..)]
@[simp] theorem State.fatalLate_now (src unit : Nat) (pl : List Byte) (s : State) : (s.fatalLate src unit pl).now = s.now := by
  unfold State.fatalLate; split
  · rfl
  · dsimp only; split
    · exact State.blazeDrop_now s
    · rw [State.bump_now, State.fatalEntries_now]
@[simp] theorem State.fatalFirst_now (cls src unit : Nat) (pl : List Byte) (s : State) : (s.fatalFirst cls src unit pl).now = s.now := by
  exact State.when_same (·.now) _ _ _ rfl
@[simp] theorem State.faultMark_tick (src unit cls : Nat) (prom : Bool) (s : State) : (s.faultMark src unit cls prom).tick = s.tick := by
  rw [State.faultMark, State.setReg_tick, State.when_same (·.tick) _ _ _ (by simp only [State.raise_tick, State.bump_tick])]; simp only [State.raise_tick, State.bump_tick]
@[simp] theorem State.keepWindow_tick (key : Nat) (w : WindowS) (s : State) : (s.keepWindow key w).tick = s.tick := by
  rfl
@[simp] theorem State.recount_tick (e : Option Nat) (k : Nat) (s : State) : (s.recount e k).tick = s.tick := by
  unfold State.recount; split
  · rfl
  · split <;> rfl
@[simp] theorem State.faultLog_tick (src unit cls : Nat) (prom : Bool) (key : Nat) (w : WindowS) (pl : List Byte) (s : State) : ((s.faultLog src unit cls prom key w pl).1).tick = s.tick := by
  unfold State.faultLog; split
  · simp only [State.keepWindow_tick, State.blazeAt_tick]
  · simp only [State.keepWindow_tick, State.recount_tick]
@[simp] theorem State.faultCount_tick (src unit : Nat) (pl : List Byte) (s : State) : ((s.faultCount src unit pl).1).tick = s.tick := by
  rw [State.faultCount, State.faultLog_tick, State.faultMark_tick]
@[simp] theorem State.faultNotice_tick (src cls : Nat) (prom : Bool) (k : Nat) (s : State) : (s.faultNotice src cls prom k).tick = s.tick := by
  exact State.when_same (·.tick) _ _ _ (by simp only [State.notice_tick])
@[simp] theorem State.fatalEntries_tick (b : BlazeS) (l : List (Nat × Nat × List Byte)) (s : State) : (s.fatalEntries b l).tick = s.tick := by
  unfold State.fatalEntries; dsimp only; split
  · rfl
  · rw [State.blazeFreeze_tick, State.blazeWrite_tick, forEach_same (·.tick) _ (fun _ _ => State.blazeWrite_tick ..)]
@[simp] theorem State.fatalLate_tick (src unit : Nat) (pl : List Byte) (s : State) : (s.fatalLate src unit pl).tick = s.tick := by
  unfold State.fatalLate; split
  · rfl
  · dsimp only; split
    · exact State.blazeDrop_tick s
    · rw [State.bump_tick, State.fatalEntries_tick]
@[simp] theorem State.fatalFirst_tick (cls src unit : Nat) (pl : List Byte) (s : State) : (s.fatalFirst cls src unit pl).tick = s.tick := by
  exact State.when_same (·.tick) _ _ _ rfl
@[simp] theorem State.faultMark_draws (src unit cls : Nat) (prom : Bool) (s : State) : (s.faultMark src unit cls prom).draws = s.draws := by
  rw [State.faultMark, State.setReg_draws, State.when_same (·.draws) _ _ _ (by simp only [State.raise_draws, State.bump_draws])]; simp only [State.raise_draws, State.bump_draws]
@[simp] theorem State.keepWindow_draws (key : Nat) (w : WindowS) (s : State) : (s.keepWindow key w).draws = s.draws := by
  rfl
@[simp] theorem State.recount_draws (e : Option Nat) (k : Nat) (s : State) : (s.recount e k).draws = s.draws := by
  unfold State.recount; split
  · rfl
  · split <;> rfl
@[simp] theorem State.faultLog_draws (src unit cls : Nat) (prom : Bool) (key : Nat) (w : WindowS) (pl : List Byte) (s : State) : ((s.faultLog src unit cls prom key w pl).1).draws = s.draws := by
  unfold State.faultLog; split
  · simp only [State.keepWindow_draws, State.blazeAt_draws]
  · simp only [State.keepWindow_draws, State.recount_draws]
@[simp] theorem State.faultCount_draws (src unit : Nat) (pl : List Byte) (s : State) : ((s.faultCount src unit pl).1).draws = s.draws := by
  rw [State.faultCount, State.faultLog_draws, State.faultMark_draws]
@[simp] theorem State.faultNotice_draws (src cls : Nat) (prom : Bool) (k : Nat) (s : State) : (s.faultNotice src cls prom k).draws = s.draws := by
  exact State.when_same (·.draws) _ _ _ (by simp only [State.notice_draws])
@[simp] theorem State.fatalEntries_draws (b : BlazeS) (l : List (Nat × Nat × List Byte)) (s : State) : (s.fatalEntries b l).draws = s.draws := by
  unfold State.fatalEntries; dsimp only; split
  · rfl
  · rw [State.blazeFreeze_draws, State.blazeWrite_draws, forEach_same (·.draws) _ (fun _ _ => State.blazeWrite_draws ..)]
@[simp] theorem State.fatalLate_draws (src unit : Nat) (pl : List Byte) (s : State) : (s.fatalLate src unit pl).draws = s.draws := by
  unfold State.fatalLate; split
  · rfl
  · dsimp only; split
    · exact State.blazeDrop_draws s
    · rw [State.bump_draws, State.fatalEntries_draws]
@[simp] theorem State.fatalFirst_draws (cls src unit : Nat) (pl : List Byte) (s : State) : (s.fatalFirst cls src unit pl).draws = s.draws := by
  exact State.when_same (·.draws) _ _ _ rfl
@[simp] theorem State.faultMark_id (src unit cls : Nat) (prom : Bool) (s : State) : (s.faultMark src unit cls prom).id = s.id := by
  rw [State.faultMark, State.setReg_id, State.when_same (·.id) _ _ _ (by simp only [State.raise_id, State.bump_id])]; simp only [State.raise_id, State.bump_id]
@[simp] theorem State.keepWindow_id (key : Nat) (w : WindowS) (s : State) : (s.keepWindow key w).id = s.id := by
  rfl
@[simp] theorem State.recount_id (e : Option Nat) (k : Nat) (s : State) : (s.recount e k).id = s.id := by
  unfold State.recount; split
  · rfl
  · split <;> rfl
@[simp] theorem State.faultLog_id (src unit cls : Nat) (prom : Bool) (key : Nat) (w : WindowS) (pl : List Byte) (s : State) : ((s.faultLog src unit cls prom key w pl).1).id = s.id := by
  unfold State.faultLog; split
  · simp only [State.keepWindow_id, State.blazeAt_id]
  · simp only [State.keepWindow_id, State.recount_id]
@[simp] theorem State.faultCount_id (src unit : Nat) (pl : List Byte) (s : State) : ((s.faultCount src unit pl).1).id = s.id := by
  rw [State.faultCount, State.faultLog_id, State.faultMark_id]
@[simp] theorem State.faultNotice_id (src cls : Nat) (prom : Bool) (k : Nat) (s : State) : (s.faultNotice src cls prom k).id = s.id := by
  exact State.when_same (·.id) _ _ _ (by simp only [State.notice_id])
@[simp] theorem State.fatalEntries_id (b : BlazeS) (l : List (Nat × Nat × List Byte)) (s : State) : (s.fatalEntries b l).id = s.id := by
  unfold State.fatalEntries; dsimp only; split
  · rfl
  · rw [State.blazeFreeze_id, State.blazeWrite_id, forEach_same (·.id) _ (fun _ _ => State.blazeWrite_id ..)]
@[simp] theorem State.fatalLate_id (src unit : Nat) (pl : List Byte) (s : State) : (s.fatalLate src unit pl).id = s.id := by
  unfold State.fatalLate; split
  · rfl
  · dsimp only; split
    · exact State.blazeDrop_id s
    · rw [State.bump_id, State.fatalEntries_id]
@[simp] theorem State.fatalFirst_id (cls src unit : Nat) (pl : List Byte) (s : State) : (s.fatalFirst cls src unit pl).id = s.id := by
  exact State.when_same (·.id) _ _ _ rfl
@[simp] theorem State.faultMark_power (src unit cls : Nat) (prom : Bool) (s : State) : (s.faultMark src unit cls prom).power = s.power := by
  rw [State.faultMark, State.setReg_power, State.when_same (·.power) _ _ _ (by simp only [State.raise_power, State.bump_power])]; simp only [State.raise_power, State.bump_power]
@[simp] theorem State.keepWindow_power (key : Nat) (w : WindowS) (s : State) : (s.keepWindow key w).power = s.power := by
  rfl
@[simp] theorem State.recount_power (e : Option Nat) (k : Nat) (s : State) : (s.recount e k).power = s.power := by
  unfold State.recount; split
  · rfl
  · split <;> rfl
@[simp] theorem State.faultLog_power (src unit cls : Nat) (prom : Bool) (key : Nat) (w : WindowS) (pl : List Byte) (s : State) : ((s.faultLog src unit cls prom key w pl).1).power = s.power := by
  unfold State.faultLog; split
  · simp only [State.keepWindow_power, State.blazeAt_power]
  · simp only [State.keepWindow_power, State.recount_power]
@[simp] theorem State.faultCount_power (src unit : Nat) (pl : List Byte) (s : State) : ((s.faultCount src unit pl).1).power = s.power := by
  rw [State.faultCount, State.faultLog_power, State.faultMark_power]
@[simp] theorem State.faultNotice_power (src cls : Nat) (prom : Bool) (k : Nat) (s : State) : (s.faultNotice src cls prom k).power = s.power := by
  exact State.when_same (·.power) _ _ _ (by simp only [State.notice_power])
@[simp] theorem State.fatalEntries_power (b : BlazeS) (l : List (Nat × Nat × List Byte)) (s : State) : (s.fatalEntries b l).power = s.power := by
  unfold State.fatalEntries; dsimp only; split
  · rfl
  · rw [State.blazeFreeze_power, State.blazeWrite_power, forEach_same (·.power) _ (fun _ _ => State.blazeWrite_power ..)]
@[simp] theorem State.fatalLate_power (src unit : Nat) (pl : List Byte) (s : State) : (s.fatalLate src unit pl).power = s.power := by
  unfold State.fatalLate; split
  · rfl
  · dsimp only; split
    · exact State.blazeDrop_power s
    · rw [State.bump_power, State.fatalEntries_power]
@[simp] theorem State.fatalFirst_power (cls src unit : Nat) (pl : List Byte) (s : State) : (s.fatalFirst cls src unit pl).power = s.power := by
  exact State.when_same (·.power) _ _ _ rfl
@[simp] theorem State.faultMark_image (src unit cls : Nat) (prom : Bool) (s : State) : (s.faultMark src unit cls prom).image = s.image := by
  rw [State.faultMark, State.setReg_image, State.when_same (·.image) _ _ _ (by simp only [State.raise_image, State.bump_image])]; simp only [State.raise_image, State.bump_image]
@[simp] theorem State.keepWindow_image (key : Nat) (w : WindowS) (s : State) : (s.keepWindow key w).image = s.image := by
  rfl
@[simp] theorem State.recount_image (e : Option Nat) (k : Nat) (s : State) : (s.recount e k).image = s.image := by
  unfold State.recount; split
  · rfl
  · split <;> rfl
@[simp] theorem State.faultLog_image (src unit cls : Nat) (prom : Bool) (key : Nat) (w : WindowS) (pl : List Byte) (s : State) : ((s.faultLog src unit cls prom key w pl).1).image = s.image := by
  unfold State.faultLog; split
  · simp only [State.keepWindow_image, State.blazeAt_image]
  · simp only [State.keepWindow_image, State.recount_image]
@[simp] theorem State.faultCount_image (src unit : Nat) (pl : List Byte) (s : State) : ((s.faultCount src unit pl).1).image = s.image := by
  rw [State.faultCount, State.faultLog_image, State.faultMark_image]
@[simp] theorem State.faultNotice_image (src cls : Nat) (prom : Bool) (k : Nat) (s : State) : (s.faultNotice src cls prom k).image = s.image := by
  exact State.when_same (·.image) _ _ _ (by simp only [State.notice_image])
@[simp] theorem State.fatalEntries_image (b : BlazeS) (l : List (Nat × Nat × List Byte)) (s : State) : (s.fatalEntries b l).image = s.image := by
  unfold State.fatalEntries; dsimp only; split
  · rfl
  · rw [State.blazeFreeze_image, State.blazeWrite_image, forEach_same (·.image) _ (fun _ _ => State.blazeWrite_image ..)]
@[simp] theorem State.fatalLate_image (src unit : Nat) (pl : List Byte) (s : State) : (s.fatalLate src unit pl).image = s.image := by
  unfold State.fatalLate; split
  · rfl
  · dsimp only; split
    · exact State.blazeDrop_image s
    · rw [State.bump_image, State.fatalEntries_image]
@[simp] theorem State.fatalFirst_image (cls src unit : Nat) (pl : List Byte) (s : State) : (s.fatalFirst cls src unit pl).image = s.image := by
  exact State.when_same (·.image) _ _ _ rfl
@[simp] theorem State.faultMark_net (src unit cls : Nat) (prom : Bool) (s : State) : (s.faultMark src unit cls prom).net = s.net := by
  rw [State.faultMark, State.setReg_net, State.when_same (·.net) _ _ _ (by simp only [State.raise_net, State.bump_net])]; simp only [State.raise_net, State.bump_net]
@[simp] theorem State.keepWindow_net (key : Nat) (w : WindowS) (s : State) : (s.keepWindow key w).net = s.net := by
  rfl
@[simp] theorem State.recount_net (e : Option Nat) (k : Nat) (s : State) : (s.recount e k).net = s.net := by
  unfold State.recount; split
  · rfl
  · split <;> rfl
@[simp] theorem State.faultLog_net (src unit cls : Nat) (prom : Bool) (key : Nat) (w : WindowS) (pl : List Byte) (s : State) : ((s.faultLog src unit cls prom key w pl).1).net = s.net := by
  unfold State.faultLog; split
  · simp only [State.keepWindow_net, State.blazeAt_net]
  · simp only [State.keepWindow_net, State.recount_net]
@[simp] theorem State.faultCount_net (src unit : Nat) (pl : List Byte) (s : State) : ((s.faultCount src unit pl).1).net = s.net := by
  rw [State.faultCount, State.faultLog_net, State.faultMark_net]
@[simp] theorem State.faultNotice_net (src cls : Nat) (prom : Bool) (k : Nat) (s : State) : (s.faultNotice src cls prom k).net = s.net := by
  exact State.when_same (·.net) _ _ _ (by simp only [State.notice_net])
@[simp] theorem State.fatalEntries_net (b : BlazeS) (l : List (Nat × Nat × List Byte)) (s : State) : (s.fatalEntries b l).net = s.net := by
  unfold State.fatalEntries; dsimp only; split
  · rfl
  · rw [State.blazeFreeze_net, State.blazeWrite_net, forEach_same (·.net) _ (fun _ _ => State.blazeWrite_net ..)]
@[simp] theorem State.fatalLate_net (src unit : Nat) (pl : List Byte) (s : State) : (s.fatalLate src unit pl).net = s.net := by
  unfold State.fatalLate; split
  · rfl
  · dsimp only; split
    · exact State.blazeDrop_net s
    · rw [State.bump_net, State.fatalEntries_net]
@[simp] theorem State.fatalFirst_net (cls src unit : Nat) (pl : List Byte) (s : State) : (s.fatalFirst cls src unit pl).net = s.net := by
  exact State.when_same (·.net) _ _ _ rfl
@[simp] theorem State.faultMark_mem (src unit cls : Nat) (prom : Bool) (s : State) : (s.faultMark src unit cls prom).mem = s.mem := by
  rw [State.faultMark, State.setReg_mem, State.when_same (·.mem) _ _ _ (by simp only [State.raise_mem, State.bump_mem])]; simp only [State.raise_mem, State.bump_mem]
@[simp] theorem State.keepWindow_mem (key : Nat) (w : WindowS) (s : State) : (s.keepWindow key w).mem = s.mem := by
  rfl
@[simp] theorem State.recount_mem (e : Option Nat) (k : Nat) (s : State) : (s.recount e k).mem = s.mem := by
  unfold State.recount; split
  · rfl
  · split <;> rfl
@[simp] theorem State.faultLog_mem (src unit cls : Nat) (prom : Bool) (key : Nat) (w : WindowS) (pl : List Byte) (s : State) : ((s.faultLog src unit cls prom key w pl).1).mem = s.mem := by
  unfold State.faultLog; split
  · simp only [State.keepWindow_mem, State.blazeAt_mem]
  · simp only [State.keepWindow_mem, State.recount_mem]
@[simp] theorem State.faultCount_mem (src unit : Nat) (pl : List Byte) (s : State) : ((s.faultCount src unit pl).1).mem = s.mem := by
  rw [State.faultCount, State.faultLog_mem, State.faultMark_mem]
@[simp] theorem State.faultNotice_mem (src cls : Nat) (prom : Bool) (k : Nat) (s : State) : (s.faultNotice src cls prom k).mem = s.mem := by
  exact State.when_same (·.mem) _ _ _ (by simp only [State.notice_mem])
@[simp] theorem State.fatalEntries_mem (b : BlazeS) (l : List (Nat × Nat × List Byte)) (s : State) : (s.fatalEntries b l).mem = s.mem := by
  unfold State.fatalEntries; dsimp only; split
  · rfl
  · rw [State.blazeFreeze_mem, State.blazeWrite_mem, forEach_same (·.mem) _ (fun _ _ => State.blazeWrite_mem ..)]
@[simp] theorem State.fatalLate_mem (src unit : Nat) (pl : List Byte) (s : State) : (s.fatalLate src unit pl).mem = s.mem := by
  unfold State.fatalLate; split
  · rfl
  · dsimp only; split
    · exact State.blazeDrop_mem s
    · rw [State.bump_mem, State.fatalEntries_mem]
@[simp] theorem State.fatalFirst_mem (cls src unit : Nat) (pl : List Byte) (s : State) : (s.fatalFirst cls src unit pl).mem = s.mem := by
  exact State.when_same (·.mem) _ _ _ rfl
@[simp] theorem State.faultMark_stack (src unit cls : Nat) (prom : Bool) (s : State) : (s.faultMark src unit cls prom).stack = s.stack := by
  rw [State.faultMark, State.setReg_stack, State.when_same (·.stack) _ _ _ (by simp only [State.raise_stack, State.bump_stack])]; simp only [State.raise_stack, State.bump_stack]
@[simp] theorem State.keepWindow_stack (key : Nat) (w : WindowS) (s : State) : (s.keepWindow key w).stack = s.stack := by
  rfl
@[simp] theorem State.recount_stack (e : Option Nat) (k : Nat) (s : State) : (s.recount e k).stack = s.stack := by
  unfold State.recount; split
  · rfl
  · split <;> rfl
@[simp] theorem State.faultLog_stack (src unit cls : Nat) (prom : Bool) (key : Nat) (w : WindowS) (pl : List Byte) (s : State) : ((s.faultLog src unit cls prom key w pl).1).stack = s.stack := by
  unfold State.faultLog; split
  · simp only [State.keepWindow_stack, State.blazeAt_stack]
  · simp only [State.keepWindow_stack, State.recount_stack]
@[simp] theorem State.faultCount_stack (src unit : Nat) (pl : List Byte) (s : State) : ((s.faultCount src unit pl).1).stack = s.stack := by
  rw [State.faultCount, State.faultLog_stack, State.faultMark_stack]
@[simp] theorem State.faultNotice_stack (src cls : Nat) (prom : Bool) (k : Nat) (s : State) : (s.faultNotice src cls prom k).stack = s.stack := by
  exact State.when_same (·.stack) _ _ _ (by simp only [State.notice_stack])
@[simp] theorem State.fatalEntries_stack (b : BlazeS) (l : List (Nat × Nat × List Byte)) (s : State) : (s.fatalEntries b l).stack = s.stack := by
  unfold State.fatalEntries; dsimp only; split
  · rfl
  · rw [State.blazeFreeze_stack, State.blazeWrite_stack, forEach_same (·.stack) _ (fun _ _ => State.blazeWrite_stack ..)]
@[simp] theorem State.fatalLate_stack (src unit : Nat) (pl : List Byte) (s : State) : (s.fatalLate src unit pl).stack = s.stack := by
  unfold State.fatalLate; split
  · rfl
  · dsimp only; split
    · exact State.blazeDrop_stack s
    · rw [State.bump_stack, State.fatalEntries_stack]
@[simp] theorem State.fatalFirst_stack (cls src unit : Nat) (pl : List Byte) (s : State) : (s.fatalFirst cls src unit pl).stack = s.stack := by
  exact State.when_same (·.stack) _ _ _ rfl
@[simp] theorem State.faultMark_own (src unit cls : Nat) (prom : Bool) (s : State) : (s.faultMark src unit cls prom).own = s.own := by
  rw [State.faultMark, State.setReg_own, State.when_same (·.own) _ _ _ (by simp only [State.raise_own, State.bump_own])]; simp only [State.raise_own, State.bump_own]
@[simp] theorem State.keepWindow_own (key : Nat) (w : WindowS) (s : State) : (s.keepWindow key w).own = s.own := by
  rfl
@[simp] theorem State.recount_own (e : Option Nat) (k : Nat) (s : State) : (s.recount e k).own = s.own := by
  unfold State.recount; split
  · rfl
  · split <;> rfl
@[simp] theorem State.faultLog_own (src unit cls : Nat) (prom : Bool) (key : Nat) (w : WindowS) (pl : List Byte) (s : State) : ((s.faultLog src unit cls prom key w pl).1).own = s.own := by
  unfold State.faultLog; split
  · simp only [State.keepWindow_own, State.blazeAt_own]
  · simp only [State.keepWindow_own, State.recount_own]
@[simp] theorem State.faultCount_own (src unit : Nat) (pl : List Byte) (s : State) : ((s.faultCount src unit pl).1).own = s.own := by
  rw [State.faultCount, State.faultLog_own, State.faultMark_own]
@[simp] theorem State.faultNotice_own (src cls : Nat) (prom : Bool) (k : Nat) (s : State) : (s.faultNotice src cls prom k).own = s.own := by
  exact State.when_same (·.own) _ _ _ (by simp only [State.notice_own])
@[simp] theorem State.fatalEntries_own (b : BlazeS) (l : List (Nat × Nat × List Byte)) (s : State) : (s.fatalEntries b l).own = s.own := by
  unfold State.fatalEntries; dsimp only; split
  · rfl
  · rw [State.blazeFreeze_own, State.blazeWrite_own, forEach_same (·.own) _ (fun _ _ => State.blazeWrite_own ..)]
@[simp] theorem State.fatalLate_own (src unit : Nat) (pl : List Byte) (s : State) : (s.fatalLate src unit pl).own = s.own := by
  unfold State.fatalLate; split
  · rfl
  · dsimp only; split
    · exact State.blazeDrop_own s
    · rw [State.bump_own, State.fatalEntries_own]
@[simp] theorem State.fatalFirst_own (cls src unit : Nat) (pl : List Byte) (s : State) : (s.fatalFirst cls src unit pl).own = s.own := by
  exact State.when_same (·.own) _ _ _ rfl
@[simp] theorem State.faultMark_eng (src unit cls : Nat) (prom : Bool) (s : State) : (s.faultMark src unit cls prom).eng = s.eng := by
  rw [State.faultMark, State.setReg_eng, State.when_same (·.eng) _ _ _ (by simp only [State.raise_eng, State.bump_eng])]; simp only [State.raise_eng, State.bump_eng]
@[simp] theorem State.keepWindow_eng (key : Nat) (w : WindowS) (s : State) : (s.keepWindow key w).eng = s.eng := by
  rfl
@[simp] theorem State.recount_eng (e : Option Nat) (k : Nat) (s : State) : (s.recount e k).eng = s.eng := by
  unfold State.recount; split
  · rfl
  · split <;> rfl
@[simp] theorem State.faultLog_eng (src unit cls : Nat) (prom : Bool) (key : Nat) (w : WindowS) (pl : List Byte) (s : State) : ((s.faultLog src unit cls prom key w pl).1).eng = s.eng := by
  unfold State.faultLog; split
  · simp only [State.keepWindow_eng, State.blazeAt_eng]
  · simp only [State.keepWindow_eng, State.recount_eng]
@[simp] theorem State.faultCount_eng (src unit : Nat) (pl : List Byte) (s : State) : ((s.faultCount src unit pl).1).eng = s.eng := by
  rw [State.faultCount, State.faultLog_eng, State.faultMark_eng]
@[simp] theorem State.faultNotice_eng (src cls : Nat) (prom : Bool) (k : Nat) (s : State) : (s.faultNotice src cls prom k).eng = s.eng := by
  exact State.when_same (·.eng) _ _ _ (by simp only [State.notice_eng])
@[simp] theorem State.fatalEntries_eng (b : BlazeS) (l : List (Nat × Nat × List Byte)) (s : State) : (s.fatalEntries b l).eng = s.eng := by
  unfold State.fatalEntries; dsimp only; split
  · rfl
  · rw [State.blazeFreeze_eng, State.blazeWrite_eng, forEach_same (·.eng) _ (fun _ _ => State.blazeWrite_eng ..)]
@[simp] theorem State.fatalLate_eng (src unit : Nat) (pl : List Byte) (s : State) : (s.fatalLate src unit pl).eng = s.eng := by
  unfold State.fatalLate; split
  · rfl
  · dsimp only; split
    · exact State.blazeDrop_eng s
    · rw [State.bump_eng, State.fatalEntries_eng]
@[simp] theorem State.fatalFirst_eng (cls src unit : Nat) (pl : List Byte) (s : State) : (s.fatalFirst cls src unit pl).eng = s.eng := by
  exact State.when_same (·.eng) _ _ _ rfl
@[simp] theorem State.faultMark_pool (src unit cls : Nat) (prom : Bool) (s : State) : (s.faultMark src unit cls prom).pool = s.pool := by
  rw [State.faultMark, State.setReg_pool, State.when_same (·.pool) _ _ _ (by simp only [State.raise_pool, State.bump_pool])]; simp only [State.raise_pool, State.bump_pool]
@[simp] theorem State.keepWindow_pool (key : Nat) (w : WindowS) (s : State) : (s.keepWindow key w).pool = s.pool := by
  rfl
@[simp] theorem State.recount_pool (e : Option Nat) (k : Nat) (s : State) : (s.recount e k).pool = s.pool := by
  unfold State.recount; split
  · rfl
  · split <;> rfl
@[simp] theorem State.faultLog_pool (src unit cls : Nat) (prom : Bool) (key : Nat) (w : WindowS) (pl : List Byte) (s : State) : ((s.faultLog src unit cls prom key w pl).1).pool = s.pool := by
  unfold State.faultLog; split
  · simp only [State.keepWindow_pool, State.blazeAt_pool]
  · simp only [State.keepWindow_pool, State.recount_pool]
@[simp] theorem State.faultCount_pool (src unit : Nat) (pl : List Byte) (s : State) : ((s.faultCount src unit pl).1).pool = s.pool := by
  rw [State.faultCount, State.faultLog_pool, State.faultMark_pool]
@[simp] theorem State.faultNotice_pool (src cls : Nat) (prom : Bool) (k : Nat) (s : State) : (s.faultNotice src cls prom k).pool = s.pool := by
  exact State.when_same (·.pool) _ _ _ (by simp only [State.notice_pool])
@[simp] theorem State.fatalEntries_pool (b : BlazeS) (l : List (Nat × Nat × List Byte)) (s : State) : (s.fatalEntries b l).pool = s.pool := by
  unfold State.fatalEntries; dsimp only; split
  · rfl
  · rw [State.blazeFreeze_pool, State.blazeWrite_pool, forEach_same (·.pool) _ (fun _ _ => State.blazeWrite_pool ..)]
@[simp] theorem State.fatalLate_pool (src unit : Nat) (pl : List Byte) (s : State) : (s.fatalLate src unit pl).pool = s.pool := by
  unfold State.fatalLate; split
  · rfl
  · dsimp only; split
    · exact State.blazeDrop_pool s
    · rw [State.bump_pool, State.fatalEntries_pool]
@[simp] theorem State.fatalFirst_pool (cls src unit : Nat) (pl : List Byte) (s : State) : (s.fatalFirst cls src unit pl).pool = s.pool := by
  exact State.when_same (·.pool) _ _ _ rfl
@[simp] theorem State.faultMark_topo (src unit cls : Nat) (prom : Bool) (s : State) : (s.faultMark src unit cls prom).topo = s.topo := by
  rw [State.faultMark, State.setReg_topo, State.when_same (·.topo) _ _ _ (by simp only [State.raise_topo, State.bump_topo])]; simp only [State.raise_topo, State.bump_topo]
@[simp] theorem State.keepWindow_topo (key : Nat) (w : WindowS) (s : State) : (s.keepWindow key w).topo = s.topo := by
  rfl
@[simp] theorem State.recount_topo (e : Option Nat) (k : Nat) (s : State) : (s.recount e k).topo = s.topo := by
  unfold State.recount; split
  · rfl
  · split <;> rfl
@[simp] theorem State.faultLog_topo (src unit cls : Nat) (prom : Bool) (key : Nat) (w : WindowS) (pl : List Byte) (s : State) : ((s.faultLog src unit cls prom key w pl).1).topo = s.topo := by
  unfold State.faultLog; split
  · simp only [State.keepWindow_topo, State.blazeAt_topo]
  · simp only [State.keepWindow_topo, State.recount_topo]
@[simp] theorem State.faultCount_topo (src unit : Nat) (pl : List Byte) (s : State) : ((s.faultCount src unit pl).1).topo = s.topo := by
  rw [State.faultCount, State.faultLog_topo, State.faultMark_topo]
@[simp] theorem State.faultNotice_topo (src cls : Nat) (prom : Bool) (k : Nat) (s : State) : (s.faultNotice src cls prom k).topo = s.topo := by
  exact State.when_same (·.topo) _ _ _ (by simp only [State.notice_topo])
@[simp] theorem State.fatalEntries_topo (b : BlazeS) (l : List (Nat × Nat × List Byte)) (s : State) : (s.fatalEntries b l).topo = s.topo := by
  unfold State.fatalEntries; dsimp only; split
  · rfl
  · rw [State.blazeFreeze_topo, State.blazeWrite_topo, forEach_same (·.topo) _ (fun _ _ => State.blazeWrite_topo ..)]
@[simp] theorem State.fatalLate_topo (src unit : Nat) (pl : List Byte) (s : State) : (s.fatalLate src unit pl).topo = s.topo := by
  unfold State.fatalLate; split
  · rfl
  · dsimp only; split
    · exact State.blazeDrop_topo s
    · rw [State.bump_topo, State.fatalEntries_topo]
@[simp] theorem State.fatalFirst_topo (cls src unit : Nat) (pl : List Byte) (s : State) : (s.fatalFirst cls src unit pl).topo = s.topo := by
  exact State.when_same (·.topo) _ _ _ rfl
@[simp] theorem State.faultMark_mgr (src unit cls : Nat) (prom : Bool) (s : State) : (s.faultMark src unit cls prom).mgr = s.mgr := by
  rw [State.faultMark, State.setReg_mgr, State.when_same (·.mgr) _ _ _ (by simp only [State.raise_mgr, State.bump_mgr])]; simp only [State.raise_mgr, State.bump_mgr]
@[simp] theorem State.keepWindow_mgr (key : Nat) (w : WindowS) (s : State) : (s.keepWindow key w).mgr = s.mgr := by
  rfl
@[simp] theorem State.recount_mgr (e : Option Nat) (k : Nat) (s : State) : (s.recount e k).mgr = s.mgr := by
  unfold State.recount; split
  · rfl
  · split <;> rfl
@[simp] theorem State.faultLog_mgr (src unit cls : Nat) (prom : Bool) (key : Nat) (w : WindowS) (pl : List Byte) (s : State) : ((s.faultLog src unit cls prom key w pl).1).mgr = s.mgr := by
  unfold State.faultLog; split
  · simp only [State.keepWindow_mgr, State.blazeAt_mgr]
  · simp only [State.keepWindow_mgr, State.recount_mgr]
@[simp] theorem State.faultCount_mgr (src unit : Nat) (pl : List Byte) (s : State) : ((s.faultCount src unit pl).1).mgr = s.mgr := by
  rw [State.faultCount, State.faultLog_mgr, State.faultMark_mgr]
@[simp] theorem State.faultNotice_mgr (src cls : Nat) (prom : Bool) (k : Nat) (s : State) : (s.faultNotice src cls prom k).mgr = s.mgr := by
  exact State.when_same (·.mgr) _ _ _ (by simp only [State.notice_mgr])
@[simp] theorem State.fatalEntries_mgr (b : BlazeS) (l : List (Nat × Nat × List Byte)) (s : State) : (s.fatalEntries b l).mgr = s.mgr := by
  unfold State.fatalEntries; dsimp only; split
  · rfl
  · rw [State.blazeFreeze_mgr, State.blazeWrite_mgr, forEach_same (·.mgr) _ (fun _ _ => State.blazeWrite_mgr ..)]
@[simp] theorem State.fatalLate_mgr (src unit : Nat) (pl : List Byte) (s : State) : (s.fatalLate src unit pl).mgr = s.mgr := by
  unfold State.fatalLate; split
  · rfl
  · dsimp only; split
    · exact State.blazeDrop_mgr s
    · rw [State.bump_mgr, State.fatalEntries_mgr]
@[simp] theorem State.fatalFirst_mgr (cls src unit : Nat) (pl : List Byte) (s : State) : (s.fatalFirst cls src unit pl).mgr = s.mgr := by
  exact State.when_same (·.mgr) _ _ _ rfl
@[simp] theorem State.faultMark_que (src unit cls : Nat) (prom : Bool) (s : State) : (s.faultMark src unit cls prom).que = s.que := by
  rw [State.faultMark, State.setReg_que, State.when_same (·.que) _ _ _ (by simp only [State.raise_que, State.bump_que])]; simp only [State.raise_que, State.bump_que]
@[simp] theorem State.keepWindow_que (key : Nat) (w : WindowS) (s : State) : (s.keepWindow key w).que = s.que := by
  rfl
@[simp] theorem State.recount_que (e : Option Nat) (k : Nat) (s : State) : (s.recount e k).que = s.que := by
  unfold State.recount; split
  · rfl
  · split <;> rfl
@[simp] theorem State.faultLog_que (src unit cls : Nat) (prom : Bool) (key : Nat) (w : WindowS) (pl : List Byte) (s : State) : ((s.faultLog src unit cls prom key w pl).1).que = s.que := by
  unfold State.faultLog; split
  · simp only [State.keepWindow_que, State.blazeAt_que]
  · simp only [State.keepWindow_que, State.recount_que]
@[simp] theorem State.faultCount_que (src unit : Nat) (pl : List Byte) (s : State) : ((s.faultCount src unit pl).1).que = s.que := by
  rw [State.faultCount, State.faultLog_que, State.faultMark_que]
@[simp] theorem State.faultNotice_que (src cls : Nat) (prom : Bool) (k : Nat) (s : State) : (s.faultNotice src cls prom k).que = s.que := by
  exact State.when_same (·.que) _ _ _ (by simp only [State.notice_que])
@[simp] theorem State.fatalEntries_que (b : BlazeS) (l : List (Nat × Nat × List Byte)) (s : State) : (s.fatalEntries b l).que = s.que := by
  unfold State.fatalEntries; dsimp only; split
  · rfl
  · rw [State.blazeFreeze_que, State.blazeWrite_que, forEach_same (·.que) _ (fun _ _ => State.blazeWrite_que ..)]
@[simp] theorem State.fatalLate_que (src unit : Nat) (pl : List Byte) (s : State) : (s.fatalLate src unit pl).que = s.que := by
  unfold State.fatalLate; split
  · rfl
  · dsimp only; split
    · exact State.blazeDrop_que s
    · rw [State.bump_que, State.fatalEntries_que]
@[simp] theorem State.fatalFirst_que (cls src unit : Nat) (pl : List Byte) (s : State) : (s.fatalFirst cls src unit pl).que = s.que := by
  exact State.when_same (·.que) _ _ _ rfl
@[simp] theorem State.faultMark_prot (src unit cls : Nat) (prom : Bool) (s : State) : (s.faultMark src unit cls prom).prot = s.prot := by
  rw [State.faultMark, State.setReg_prot, State.when_same (·.prot) _ _ _ (by simp only [State.raise_prot, State.bump_prot])]; simp only [State.raise_prot, State.bump_prot]
@[simp] theorem State.keepWindow_prot (key : Nat) (w : WindowS) (s : State) : (s.keepWindow key w).prot = s.prot := by
  rfl
@[simp] theorem State.recount_prot (e : Option Nat) (k : Nat) (s : State) : (s.recount e k).prot = s.prot := by
  unfold State.recount; split
  · rfl
  · split <;> rfl
@[simp] theorem State.faultLog_prot (src unit cls : Nat) (prom : Bool) (key : Nat) (w : WindowS) (pl : List Byte) (s : State) : ((s.faultLog src unit cls prom key w pl).1).prot = s.prot := by
  unfold State.faultLog; split
  · simp only [State.keepWindow_prot, State.blazeAt_prot]
  · simp only [State.keepWindow_prot, State.recount_prot]
@[simp] theorem State.faultCount_prot (src unit : Nat) (pl : List Byte) (s : State) : ((s.faultCount src unit pl).1).prot = s.prot := by
  rw [State.faultCount, State.faultLog_prot, State.faultMark_prot]
@[simp] theorem State.faultNotice_prot (src cls : Nat) (prom : Bool) (k : Nat) (s : State) : (s.faultNotice src cls prom k).prot = s.prot := by
  exact State.when_same (·.prot) _ _ _ (by simp only [State.notice_prot])
@[simp] theorem State.fatalEntries_prot (b : BlazeS) (l : List (Nat × Nat × List Byte)) (s : State) : (s.fatalEntries b l).prot = s.prot := by
  unfold State.fatalEntries; dsimp only; split
  · rfl
  · rw [State.blazeFreeze_prot, State.blazeWrite_prot, forEach_same (·.prot) _ (fun _ _ => State.blazeWrite_prot ..)]
@[simp] theorem State.fatalLate_prot (src unit : Nat) (pl : List Byte) (s : State) : (s.fatalLate src unit pl).prot = s.prot := by
  unfold State.fatalLate; split
  · rfl
  · dsimp only; split
    · exact State.blazeDrop_prot s
    · rw [State.bump_prot, State.fatalEntries_prot]
@[simp] theorem State.fatalFirst_prot (cls src unit : Nat) (pl : List Byte) (s : State) : (s.fatalFirst cls src unit pl).prot = s.prot := by
  exact State.when_same (·.prot) _ _ _ rfl
@[simp] theorem State.faultMark_fuse (src unit cls : Nat) (prom : Bool) (s : State) : (s.faultMark src unit cls prom).fuse = s.fuse := by
  rw [State.faultMark, State.setReg_fuse, State.when_same (·.fuse) _ _ _ (by simp only [State.raise_fuse, State.bump_fuse])]; simp only [State.raise_fuse, State.bump_fuse]
@[simp] theorem State.keepWindow_fuse (key : Nat) (w : WindowS) (s : State) : (s.keepWindow key w).fuse = s.fuse := by
  rfl
@[simp] theorem State.recount_fuse (e : Option Nat) (k : Nat) (s : State) : (s.recount e k).fuse = s.fuse := by
  unfold State.recount; split
  · rfl
  · split <;> rfl
@[simp] theorem State.faultLog_fuse (src unit cls : Nat) (prom : Bool) (key : Nat) (w : WindowS) (pl : List Byte) (s : State) : ((s.faultLog src unit cls prom key w pl).1).fuse = s.fuse := by
  unfold State.faultLog; split
  · simp only [State.keepWindow_fuse, State.blazeAt_fuse]
  · simp only [State.keepWindow_fuse, State.recount_fuse]
@[simp] theorem State.faultCount_fuse (src unit : Nat) (pl : List Byte) (s : State) : ((s.faultCount src unit pl).1).fuse = s.fuse := by
  rw [State.faultCount, State.faultLog_fuse, State.faultMark_fuse]
@[simp] theorem State.faultNotice_fuse (src cls : Nat) (prom : Bool) (k : Nat) (s : State) : (s.faultNotice src cls prom k).fuse = s.fuse := by
  exact State.when_same (·.fuse) _ _ _ (by simp only [State.notice_fuse])
@[simp] theorem State.fatalEntries_fuse (b : BlazeS) (l : List (Nat × Nat × List Byte)) (s : State) : (s.fatalEntries b l).fuse = s.fuse := by
  unfold State.fatalEntries; dsimp only; split
  · rfl
  · rw [State.blazeFreeze_fuse, State.blazeWrite_fuse, forEach_same (·.fuse) _ (fun _ _ => State.blazeWrite_fuse ..)]
@[simp] theorem State.fatalLate_fuse (src unit : Nat) (pl : List Byte) (s : State) : (s.fatalLate src unit pl).fuse = s.fuse := by
  unfold State.fatalLate; split
  · rfl
  · dsimp only; split
    · exact State.blazeDrop_fuse s
    · rw [State.bump_fuse, State.fatalEntries_fuse]
@[simp] theorem State.fatalFirst_fuse (cls src unit : Nat) (pl : List Byte) (s : State) : (s.fatalFirst cls src unit pl).fuse = s.fuse := by
  exact State.when_same (·.fuse) _ _ _ rfl
@[simp] theorem State.faultMark_sensors (src unit cls : Nat) (prom : Bool) (s : State) : (s.faultMark src unit cls prom).sensors = s.sensors := by
  rw [State.faultMark, State.setReg_sensors, State.when_same (·.sensors) _ _ _ (by simp only [State.raise_sensors, State.bump_sensors])]; simp only [State.raise_sensors, State.bump_sensors]
@[simp] theorem State.keepWindow_sensors (key : Nat) (w : WindowS) (s : State) : (s.keepWindow key w).sensors = s.sensors := by
  rfl
@[simp] theorem State.recount_sensors (e : Option Nat) (k : Nat) (s : State) : (s.recount e k).sensors = s.sensors := by
  unfold State.recount; split
  · rfl
  · split <;> rfl
@[simp] theorem State.faultLog_sensors (src unit cls : Nat) (prom : Bool) (key : Nat) (w : WindowS) (pl : List Byte) (s : State) : ((s.faultLog src unit cls prom key w pl).1).sensors = s.sensors := by
  unfold State.faultLog; split
  · simp only [State.keepWindow_sensors, State.blazeAt_sensors]
  · simp only [State.keepWindow_sensors, State.recount_sensors]
@[simp] theorem State.faultCount_sensors (src unit : Nat) (pl : List Byte) (s : State) : ((s.faultCount src unit pl).1).sensors = s.sensors := by
  rw [State.faultCount, State.faultLog_sensors, State.faultMark_sensors]
@[simp] theorem State.faultNotice_sensors (src cls : Nat) (prom : Bool) (k : Nat) (s : State) : (s.faultNotice src cls prom k).sensors = s.sensors := by
  exact State.when_same (·.sensors) _ _ _ (by simp only [State.notice_sensors])
@[simp] theorem State.fatalEntries_sensors (b : BlazeS) (l : List (Nat × Nat × List Byte)) (s : State) : (s.fatalEntries b l).sensors = s.sensors := by
  unfold State.fatalEntries; dsimp only; split
  · rfl
  · rw [State.blazeFreeze_sensors, State.blazeWrite_sensors, forEach_same (·.sensors) _ (fun _ _ => State.blazeWrite_sensors ..)]
@[simp] theorem State.fatalLate_sensors (src unit : Nat) (pl : List Byte) (s : State) : (s.fatalLate src unit pl).sensors = s.sensors := by
  unfold State.fatalLate; split
  · rfl
  · dsimp only; split
    · exact State.blazeDrop_sensors s
    · rw [State.bump_sensors, State.fatalEntries_sensors]
@[simp] theorem State.fatalFirst_sensors (cls src unit : Nat) (pl : List Byte) (s : State) : (s.fatalFirst cls src unit pl).sensors = s.sensors := by
  exact State.when_same (·.sensors) _ _ _ rfl
@[simp] theorem State.faultMark_bist (src unit cls : Nat) (prom : Bool) (s : State) : (s.faultMark src unit cls prom).bist = s.bist := by
  rw [State.faultMark, State.setReg_bist, State.when_same (·.bist) _ _ _ (by simp only [State.raise_bist, State.bump_bist])]; simp only [State.raise_bist, State.bump_bist]
@[simp] theorem State.keepWindow_bist (key : Nat) (w : WindowS) (s : State) : (s.keepWindow key w).bist = s.bist := by
  rfl
@[simp] theorem State.recount_bist (e : Option Nat) (k : Nat) (s : State) : (s.recount e k).bist = s.bist := by
  unfold State.recount; split
  · rfl
  · split <;> rfl
@[simp] theorem State.faultLog_bist (src unit cls : Nat) (prom : Bool) (key : Nat) (w : WindowS) (pl : List Byte) (s : State) : ((s.faultLog src unit cls prom key w pl).1).bist = s.bist := by
  unfold State.faultLog; split
  · simp only [State.keepWindow_bist, State.blazeAt_bist]
  · simp only [State.keepWindow_bist, State.recount_bist]
@[simp] theorem State.faultCount_bist (src unit : Nat) (pl : List Byte) (s : State) : ((s.faultCount src unit pl).1).bist = s.bist := by
  rw [State.faultCount, State.faultLog_bist, State.faultMark_bist]
@[simp] theorem State.faultNotice_bist (src cls : Nat) (prom : Bool) (k : Nat) (s : State) : (s.faultNotice src cls prom k).bist = s.bist := by
  exact State.when_same (·.bist) _ _ _ (by simp only [State.notice_bist])
@[simp] theorem State.fatalEntries_bist (b : BlazeS) (l : List (Nat × Nat × List Byte)) (s : State) : (s.fatalEntries b l).bist = s.bist := by
  unfold State.fatalEntries; dsimp only; split
  · rfl
  · rw [State.blazeFreeze_bist, State.blazeWrite_bist, forEach_same (·.bist) _ (fun _ _ => State.blazeWrite_bist ..)]
@[simp] theorem State.fatalLate_bist (src unit : Nat) (pl : List Byte) (s : State) : (s.fatalLate src unit pl).bist = s.bist := by
  unfold State.fatalLate; split
  · rfl
  · dsimp only; split
    · exact State.blazeDrop_bist s
    · rw [State.bump_bist, State.fatalEntries_bist]
@[simp] theorem State.fatalFirst_bist (cls src unit : Nat) (pl : List Byte) (s : State) : (s.fatalFirst cls src unit pl).bist = s.bist := by
  exact State.when_same (·.bist) _ _ _ rfl
@[simp] theorem State.faultMark_regs_eff (src unit cls : Nat) (prom : Bool) (s : State) : (s.faultMark src unit cls prom).regs.eff = s.regs.eff := by
  rw [State.faultMark, State.setReg_regs_eff, State.when_same (·.regs.eff) _ _ _ (by simp only [State.raise_regs_eff, State.bump_regs])]; simp only [State.raise_regs_eff, State.bump_regs]
@[simp] theorem State.keepWindow_regs_eff (key : Nat) (w : WindowS) (s : State) : (s.keepWindow key w).regs.eff = s.regs.eff := by
  rfl
@[simp] theorem State.recount_regs_eff (e : Option Nat) (k : Nat) (s : State) : (s.recount e k).regs.eff = s.regs.eff := by
  unfold State.recount; split
  · rfl
  · split <;> rfl
@[simp] theorem State.faultLog_regs_eff (src unit cls : Nat) (prom : Bool) (key : Nat) (w : WindowS) (pl : List Byte) (s : State) : ((s.faultLog src unit cls prom key w pl).1).regs.eff = s.regs.eff := by
  unfold State.faultLog; split
  · simp only [State.keepWindow_regs_eff, State.blazeAt_regs_eff]
  · simp only [State.keepWindow_regs_eff, State.recount_regs_eff]
@[simp] theorem State.faultCount_regs_eff (src unit : Nat) (pl : List Byte) (s : State) : ((s.faultCount src unit pl).1).regs.eff = s.regs.eff := by
  rw [State.faultCount, State.faultLog_regs_eff, State.faultMark_regs_eff]
@[simp] theorem State.faultNotice_regs_eff (src cls : Nat) (prom : Bool) (k : Nat) (s : State) : (s.faultNotice src cls prom k).regs.eff = s.regs.eff := by
  exact State.when_same (·.regs.eff) _ _ _ (by simp only [State.notice_regs])
@[simp] theorem State.fatalEntries_regs_eff (b : BlazeS) (l : List (Nat × Nat × List Byte)) (s : State) : (s.fatalEntries b l).regs.eff = s.regs.eff := by
  unfold State.fatalEntries; dsimp only; split
  · rfl
  · rw [State.blazeFreeze_regs_eff, State.blazeWrite_regs_eff, forEach_same (·.regs.eff) _ (fun _ _ => State.blazeWrite_regs_eff ..)]
@[simp] theorem State.fatalLate_regs_eff (src unit : Nat) (pl : List Byte) (s : State) : (s.fatalLate src unit pl).regs.eff = s.regs.eff := by
  unfold State.fatalLate; split
  · rfl
  · dsimp only; split
    · exact State.blazeDrop_regs_eff s
    · rw [State.bump_regs, State.fatalEntries_regs_eff]
@[simp] theorem State.fatalFirst_regs_eff (cls src unit : Nat) (pl : List Byte) (s : State) : (s.fatalFirst cls src unit pl).regs.eff = s.regs.eff := by
  exact State.when_same (·.regs.eff) _ _ _ rfl
@[simp] theorem State.faultMark_regs_wait (src unit cls : Nat) (prom : Bool) (s : State) : (s.faultMark src unit cls prom).regs.wait = s.regs.wait := by
  rw [State.faultMark, State.setReg_regs_wait, State.when_same (·.regs.wait) _ _ _ (by simp only [State.raise_regs_wait, State.bump_regs])]; simp only [State.raise_regs_wait, State.bump_regs]
@[simp] theorem State.keepWindow_regs_wait (key : Nat) (w : WindowS) (s : State) : (s.keepWindow key w).regs.wait = s.regs.wait := by
  rfl
@[simp] theorem State.recount_regs_wait (e : Option Nat) (k : Nat) (s : State) : (s.recount e k).regs.wait = s.regs.wait := by
  unfold State.recount; split
  · rfl
  · split <;> rfl
@[simp] theorem State.faultLog_regs_wait (src unit cls : Nat) (prom : Bool) (key : Nat) (w : WindowS) (pl : List Byte) (s : State) : ((s.faultLog src unit cls prom key w pl).1).regs.wait = s.regs.wait := by
  unfold State.faultLog; split
  · simp only [State.keepWindow_regs_wait, State.blazeAt_regs_wait]
  · simp only [State.keepWindow_regs_wait, State.recount_regs_wait]
@[simp] theorem State.faultCount_regs_wait (src unit : Nat) (pl : List Byte) (s : State) : ((s.faultCount src unit pl).1).regs.wait = s.regs.wait := by
  rw [State.faultCount, State.faultLog_regs_wait, State.faultMark_regs_wait]
@[simp] theorem State.faultNotice_regs_wait (src cls : Nat) (prom : Bool) (k : Nat) (s : State) : (s.faultNotice src cls prom k).regs.wait = s.regs.wait := by
  exact State.when_same (·.regs.wait) _ _ _ (by simp only [State.notice_regs])
@[simp] theorem State.fatalEntries_regs_wait (b : BlazeS) (l : List (Nat × Nat × List Byte)) (s : State) : (s.fatalEntries b l).regs.wait = s.regs.wait := by
  unfold State.fatalEntries; dsimp only; split
  · rfl
  · rw [State.blazeFreeze_regs_wait, State.blazeWrite_regs_wait, forEach_same (·.regs.wait) _ (fun _ _ => State.blazeWrite_regs_wait ..)]
@[simp] theorem State.fatalLate_regs_wait (src unit : Nat) (pl : List Byte) (s : State) : (s.fatalLate src unit pl).regs.wait = s.regs.wait := by
  unfold State.fatalLate; split
  · rfl
  · dsimp only; split
    · exact State.blazeDrop_regs_wait s
    · rw [State.bump_regs, State.fatalEntries_regs_wait]
@[simp] theorem State.fatalFirst_regs_wait (cls src unit : Nat) (pl : List Byte) (s : State) : (s.fatalFirst cls src unit pl).regs.wait = s.regs.wait := by
  exact State.when_same (·.regs.wait) _ _ _ rfl
@[simp] theorem State.faultMark_regs_mbxC (src unit cls : Nat) (prom : Bool) (s : State) : (s.faultMark src unit cls prom).regs.mbxC = s.regs.mbxC := by
  rw [State.faultMark, State.setReg_regs_mbxC, State.when_same (·.regs.mbxC) _ _ _ (by simp only [State.raise_regs_mbxC, State.bump_regs])]; simp only [State.raise_regs_mbxC, State.bump_regs]
@[simp] theorem State.keepWindow_regs_mbxC (key : Nat) (w : WindowS) (s : State) : (s.keepWindow key w).regs.mbxC = s.regs.mbxC := by
  rfl
@[simp] theorem State.recount_regs_mbxC (e : Option Nat) (k : Nat) (s : State) : (s.recount e k).regs.mbxC = s.regs.mbxC := by
  unfold State.recount; split
  · rfl
  · split <;> rfl
@[simp] theorem State.faultLog_regs_mbxC (src unit cls : Nat) (prom : Bool) (key : Nat) (w : WindowS) (pl : List Byte) (s : State) : ((s.faultLog src unit cls prom key w pl).1).regs.mbxC = s.regs.mbxC := by
  unfold State.faultLog; split
  · simp only [State.keepWindow_regs_mbxC, State.blazeAt_regs_mbxC]
  · simp only [State.keepWindow_regs_mbxC, State.recount_regs_mbxC]
@[simp] theorem State.faultCount_regs_mbxC (src unit : Nat) (pl : List Byte) (s : State) : ((s.faultCount src unit pl).1).regs.mbxC = s.regs.mbxC := by
  rw [State.faultCount, State.faultLog_regs_mbxC, State.faultMark_regs_mbxC]
@[simp] theorem State.faultNotice_regs_mbxC (src cls : Nat) (prom : Bool) (k : Nat) (s : State) : (s.faultNotice src cls prom k).regs.mbxC = s.regs.mbxC := by
  exact State.when_same (·.regs.mbxC) _ _ _ (by simp only [State.notice_regs])
@[simp] theorem State.fatalEntries_regs_mbxC (b : BlazeS) (l : List (Nat × Nat × List Byte)) (s : State) : (s.fatalEntries b l).regs.mbxC = s.regs.mbxC := by
  unfold State.fatalEntries; dsimp only; split
  · rfl
  · rw [State.blazeFreeze_regs_mbxC, State.blazeWrite_regs_mbxC, forEach_same (·.regs.mbxC) _ (fun _ _ => State.blazeWrite_regs_mbxC ..)]
@[simp] theorem State.fatalLate_regs_mbxC (src unit : Nat) (pl : List Byte) (s : State) : (s.fatalLate src unit pl).regs.mbxC = s.regs.mbxC := by
  unfold State.fatalLate; split
  · rfl
  · dsimp only; split
    · exact State.blazeDrop_regs_mbxC s
    · rw [State.bump_regs, State.fatalEntries_regs_mbxC]
@[simp] theorem State.fatalFirst_regs_mbxC (cls src unit : Nat) (pl : List Byte) (s : State) : (s.fatalFirst cls src unit pl).regs.mbxC = s.regs.mbxC := by
  exact State.when_same (·.regs.mbxC) _ _ _ rfl
@[simp] theorem State.faultMark_regs_mbxI (src unit cls : Nat) (prom : Bool) (s : State) : (s.faultMark src unit cls prom).regs.mbxI = s.regs.mbxI := by
  rw [State.faultMark, State.setReg_regs_mbxI, State.when_same (·.regs.mbxI) _ _ _ (by simp only [State.raise_regs_mbxI, State.bump_regs])]; simp only [State.raise_regs_mbxI, State.bump_regs]
@[simp] theorem State.keepWindow_regs_mbxI (key : Nat) (w : WindowS) (s : State) : (s.keepWindow key w).regs.mbxI = s.regs.mbxI := by
  rfl
@[simp] theorem State.recount_regs_mbxI (e : Option Nat) (k : Nat) (s : State) : (s.recount e k).regs.mbxI = s.regs.mbxI := by
  unfold State.recount; split
  · rfl
  · split <;> rfl
@[simp] theorem State.faultLog_regs_mbxI (src unit cls : Nat) (prom : Bool) (key : Nat) (w : WindowS) (pl : List Byte) (s : State) : ((s.faultLog src unit cls prom key w pl).1).regs.mbxI = s.regs.mbxI := by
  unfold State.faultLog; split
  · simp only [State.keepWindow_regs_mbxI, State.blazeAt_regs_mbxI]
  · simp only [State.keepWindow_regs_mbxI, State.recount_regs_mbxI]
@[simp] theorem State.faultCount_regs_mbxI (src unit : Nat) (pl : List Byte) (s : State) : ((s.faultCount src unit pl).1).regs.mbxI = s.regs.mbxI := by
  rw [State.faultCount, State.faultLog_regs_mbxI, State.faultMark_regs_mbxI]
@[simp] theorem State.faultNotice_regs_mbxI (src cls : Nat) (prom : Bool) (k : Nat) (s : State) : (s.faultNotice src cls prom k).regs.mbxI = s.regs.mbxI := by
  exact State.when_same (·.regs.mbxI) _ _ _ (by simp only [State.notice_regs])
@[simp] theorem State.fatalEntries_regs_mbxI (b : BlazeS) (l : List (Nat × Nat × List Byte)) (s : State) : (s.fatalEntries b l).regs.mbxI = s.regs.mbxI := by
  unfold State.fatalEntries; dsimp only; split
  · rfl
  · rw [State.blazeFreeze_regs_mbxI, State.blazeWrite_regs_mbxI, forEach_same (·.regs.mbxI) _ (fun _ _ => State.blazeWrite_regs_mbxI ..)]
@[simp] theorem State.fatalLate_regs_mbxI (src unit : Nat) (pl : List Byte) (s : State) : (s.fatalLate src unit pl).regs.mbxI = s.regs.mbxI := by
  unfold State.fatalLate; split
  · rfl
  · dsimp only; split
    · exact State.blazeDrop_regs_mbxI s
    · rw [State.bump_regs, State.fatalEntries_regs_mbxI]
@[simp] theorem State.fatalFirst_regs_mbxI (cls src unit : Nat) (pl : List Byte) (s : State) : (s.fatalFirst cls src unit pl).regs.mbxI = s.regs.mbxI := by
  exact State.when_same (·.regs.mbxI) _ _ _ rfl
@[simp] theorem State.blazeWrite_regs (src grp unit sev code count : Nat) (args : List Byte) (s : State) : (s.blazeWrite src grp unit sev code count args).regs = s.regs := by
  rfl
@[simp] theorem State.fatalFirst_regs (cls src unit : Nat) (pl : List Byte) (s : State) : (s.fatalFirst cls src unit pl).regs = s.regs := by
  exact State.when_same (·.regs) _ _ _ rfl
@[simp] theorem State.blazePut_regs (src grp unit sev code count : Nat) (args : List Byte) (s : State) : (s.blazePut src grp unit sev code count args).regs = s.regs := by
  unfold State.blazePut; simp only [State.bump_regs, State.blazeWrite_regs]
theorem State.faultMark_blaze (src unit cls : Nat) (prom : Bool) (s : State) : (s.faultMark src unit cls prom).flt.blaze = s.flt.blaze := by
  unfold State.faultMark
  have h (a : Nat) (w : Word) (t : State) : (t.setReg a w).flt.blaze = t.flt.blaze := rfl
  have h2 (a : Nat) (f : Fld) (t : State) : (t.raise a f).flt.blaze = t.flt.blaze := congrArg FltS.blaze (State.raise_flt a f t)
  have h3 (k n : Nat) (t : State) : (t.bump k n).flt.blaze = t.flt.blaze := rfl
  have hw (t : State) : (when prom (fun s => (s.bump (devSlot 141) 1).raise Reg.FAULT_STATUS F.FAULT_STATUS_PROMOTED) t).flt.blaze = t.flt.blaze := by
    cases prom
    · rfl
    · exact (h2 ..).trans (h3 ..)
  exact (h ..).trans ((hw _).trans ((h2 ..).trans (h3 ..)))
@[simp] theorem State.toFirebreak_regs  (s : State) : (s.toFirebreak).regs = s.regs := by
  rfl
@[simp] theorem State.keepWindow_regs (key : Nat) (w : WindowS) (s : State) : (s.keepWindow key w).regs = s.regs := by
  rfl
@[simp] theorem State.recount_regs (e : Option Nat) (k : Nat) (s : State) : (s.recount e k).regs = s.regs := by
  unfold State.recount; split
  · rfl
  · split <;> rfl
@[simp] theorem State.tallyChan_pending (n : Nat) (s : State) : (s.tallyChan n).pending = s.pending := by
  unfold State.tallyChan; dsimp only; rw [State.bump_pending, State.bump_pending, State.modChan_pending]
@[simp] theorem State.stopCore_pending  (s : State) : (s.stopCore).pending = s.pending := by
  unfold State.stopCore; dsimp only
  rw [State.when_same (·.pending) _ _ _ (by rw [State.bump_pending, State.bump_pending]),
    forEach_same (·.pending) _ (fun _ _ => by rw [State.modChan_pending, State.tallyChan_pending]), forEach_same (·.pending) _ (fun _ _ => State.modTier_pending ..)]
@[simp] theorem State.tallyChan_now (n : Nat) (s : State) : (s.tallyChan n).now = s.now := by
  unfold State.tallyChan; dsimp only; rw [State.bump_now, State.bump_now, State.modChan_now]
@[simp] theorem State.stopCore_now  (s : State) : (s.stopCore).now = s.now := by
  unfold State.stopCore; dsimp only
  rw [State.when_same (·.now) _ _ _ (by rw [State.bump_now, State.bump_now]),
    forEach_same (·.now) _ (fun _ _ => by rw [State.modChan_now, State.tallyChan_now]), forEach_same (·.now) _ (fun _ _ => State.modTier_now ..)]
@[simp] theorem State.tallyChan_tick (n : Nat) (s : State) : (s.tallyChan n).tick = s.tick := by
  unfold State.tallyChan; dsimp only; rw [State.bump_tick, State.bump_tick, State.modChan_tick]
@[simp] theorem State.stopCore_tick  (s : State) : (s.stopCore).tick = s.tick := by
  unfold State.stopCore; dsimp only
  rw [State.when_same (·.tick) _ _ _ (by rw [State.bump_tick, State.bump_tick]),
    forEach_same (·.tick) _ (fun _ _ => by rw [State.modChan_tick, State.tallyChan_tick]), forEach_same (·.tick) _ (fun _ _ => State.modTier_tick ..)]
@[simp] theorem State.tallyChan_draws (n : Nat) (s : State) : (s.tallyChan n).draws = s.draws := by
  unfold State.tallyChan; dsimp only; rw [State.bump_draws, State.bump_draws, State.modChan_draws]
@[simp] theorem State.stopCore_draws  (s : State) : (s.stopCore).draws = s.draws := by
  unfold State.stopCore; dsimp only
  rw [State.when_same (·.draws) _ _ _ (by rw [State.bump_draws, State.bump_draws]),
    forEach_same (·.draws) _ (fun _ _ => by rw [State.modChan_draws, State.tallyChan_draws]), forEach_same (·.draws) _ (fun _ _ => State.modTier_draws ..)]
@[simp] theorem State.tallyChan_id (n : Nat) (s : State) : (s.tallyChan n).id = s.id := by
  unfold State.tallyChan; dsimp only; rw [State.bump_id, State.bump_id, State.modChan_id]
@[simp] theorem State.stopCore_id  (s : State) : (s.stopCore).id = s.id := by
  unfold State.stopCore; dsimp only
  rw [State.when_same (·.id) _ _ _ (by rw [State.bump_id, State.bump_id]),
    forEach_same (·.id) _ (fun _ _ => by rw [State.modChan_id, State.tallyChan_id]), forEach_same (·.id) _ (fun _ _ => State.modTier_id ..)]
@[simp] theorem State.tallyChan_image (n : Nat) (s : State) : (s.tallyChan n).image = s.image := by
  unfold State.tallyChan; dsimp only; rw [State.bump_image, State.bump_image, State.modChan_image]
@[simp] theorem State.stopCore_image  (s : State) : (s.stopCore).image = s.image := by
  unfold State.stopCore; dsimp only
  rw [State.when_same (·.image) _ _ _ (by rw [State.bump_image, State.bump_image]),
    forEach_same (·.image) _ (fun _ _ => by rw [State.modChan_image, State.tallyChan_image]), forEach_same (·.image) _ (fun _ _ => State.modTier_image ..)]
@[simp] theorem State.tallyChan_mem (n : Nat) (s : State) : (s.tallyChan n).mem = s.mem := by
  unfold State.tallyChan; dsimp only; rw [State.bump_mem, State.bump_mem, State.modChan_mem]
@[simp] theorem State.stopCore_mem  (s : State) : (s.stopCore).mem = s.mem := by
  unfold State.stopCore; dsimp only
  rw [State.when_same (·.mem) _ _ _ (by rw [State.bump_mem, State.bump_mem]),
    forEach_same (·.mem) _ (fun _ _ => by rw [State.modChan_mem, State.tallyChan_mem]), forEach_same (·.mem) _ (fun _ _ => State.modTier_mem ..)]
@[simp] theorem State.tallyChan_topo (n : Nat) (s : State) : (s.tallyChan n).topo = s.topo := by
  unfold State.tallyChan; dsimp only; rw [State.bump_topo, State.bump_topo, State.modChan_topo]
@[simp] theorem State.stopCore_topo  (s : State) : (s.stopCore).topo = s.topo := by
  unfold State.stopCore; dsimp only
  rw [State.when_same (·.topo) _ _ _ (by rw [State.bump_topo, State.bump_topo]),
    forEach_same (·.topo) _ (fun _ _ => by rw [State.modChan_topo, State.tallyChan_topo]), forEach_same (·.topo) _ (fun _ _ => State.modTier_topo ..)]
@[simp] theorem State.tallyChan_sensors (n : Nat) (s : State) : (s.tallyChan n).sensors = s.sensors := by
  unfold State.tallyChan; dsimp only; rw [State.bump_sensors, State.bump_sensors, State.modChan_sensors]
@[simp] theorem State.stopCore_sensors  (s : State) : (s.stopCore).sensors = s.sensors := by
  unfold State.stopCore; dsimp only
  rw [State.when_same (·.sensors) _ _ _ (by rw [State.bump_sensors, State.bump_sensors]),
    forEach_same (·.sensors) _ (fun _ _ => by rw [State.modChan_sensors, State.tallyChan_sensors]), forEach_same (·.sensors) _ (fun _ _ => State.modTier_sensors ..)]
@[simp] theorem State.tallyChan_bist (n : Nat) (s : State) : (s.tallyChan n).bist = s.bist := by
  unfold State.tallyChan; dsimp only; rw [State.bump_bist, State.bump_bist, State.modChan_bist]
@[simp] theorem State.stopCore_bist  (s : State) : (s.stopCore).bist = s.bist := by
  unfold State.stopCore; dsimp only
  rw [State.when_same (·.bist) _ _ _ (by rw [State.bump_bist, State.bump_bist]),
    forEach_same (·.bist) _ (fun _ _ => by rw [State.modChan_bist, State.tallyChan_bist]), forEach_same (·.bist) _ (fun _ _ => State.modTier_bist ..)]
@[simp] theorem State.tallyChan_regs (n : Nat) (s : State) : (s.tallyChan n).regs = s.regs := by
  unfold State.tallyChan; dsimp only; rw [State.bump_regs, State.bump_regs, State.modChan_regs]
@[simp] theorem State.stopCore_regs  (s : State) : (s.stopCore).regs = s.regs := by
  unfold State.stopCore; dsimp only
  rw [State.when_same (·.regs) _ _ _ (by rw [State.bump_regs, State.bump_regs]),
    forEach_same (·.regs) _ (fun _ _ => by rw [State.modChan_regs, State.tallyChan_regs]), forEach_same (·.regs) _ (fun _ _ => State.modTier_regs ..)]
@[simp] theorem State.toFirebreak_pending  (s : State) : (s.toFirebreak).pending = s.pending := by
  rfl
@[simp] theorem State.firebreak_pending (src unit : Nat) (s : State) : (s.firebreak src unit).pending = s.pending := by
  rw [State.firebreak, State.toFirebreak_pending, State.stopCore_pending, State.blazeFreeze_pending, State.blazeAt_pending]
@[simp] theorem State.excludeElem_pending (src unit elem : Nat) (s : State) : (s.excludeElem src unit elem).pending = s.pending := by
  unfold State.excludeElem; split
  · simp only [State.modPort_pending]
  · split
    · simp only [State.modTier_pending]
    · split
      · simp only [State.modTier_pending]
      · rfl
@[simp] theorem State.degrade_pending (src unit elem : Nat) (s : State) : (s.degrade src unit elem).pending = s.pending := by
  rw [State.degrade, State.when_same (·.pending) _ _ _ (by simp only [State.raise_pending, State.bump_pending]), State.excludeElem_pending]
@[simp] theorem State.severe_pending  (s : State) : (s.severe).pending = s.pending := by
  rw [State.severe, State.cond_pending, State.raise_pending]
@[simp] theorem State.reactTo_pending (src unit elem cls : Nat) (s : State) : (s.reactTo src unit elem cls).pending = s.pending := by
  unfold State.reactTo; split
  · exact State.degrade_pending ..
  · split
    · exact State.severe_pending ..
    · split
      · exact State.firebreak_pending ..
      · rfl
@[simp] theorem State.react_pending (src unit elem cls : Nat) (prom : Bool) (k : Nat) (s : State) : (s.react src unit elem cls prom k).pending = s.pending := by
  rw [State.react, State.reactTo_pending, State.faultNotice_pending]
@[simp] theorem State.faultN_pending (fuel src unit : Nat) (pl : List Byte) (elem : Nat) (s : State) : (s.faultN fuel src unit pl elem).pending = s.pending := by
  induction fuel generalizing src unit pl elem s with
  | zero => rfl
  | succ n ih =>
    unfold State.faultN; dsimp only; split
    · rw [State.react_pending]; split
      · rw [ih, State.faultCount_pending, State.fatalFirst_pending]
      · rw [State.faultCount_pending, State.fatalFirst_pending]
    · split
      · exact State.fatalLate_pending ..
      · rfl
@[simp] theorem State.fault_pending (src unit : Nat) (pl : List Byte) (s : State) : (s.fault src unit pl).pending = s.pending := by
  exact State.faultN_pending ..
@[simp] theorem State.faultE_pending (src unit : Nat) (pl : List Byte) (elem : Nat) (s : State) : (s.faultE src unit pl elem).pending = s.pending := by
  exact State.faultN_pending ..
@[simp] theorem State.toFirebreak_now  (s : State) : (s.toFirebreak).now = s.now := by
  rfl
@[simp] theorem State.firebreak_now (src unit : Nat) (s : State) : (s.firebreak src unit).now = s.now := by
  rw [State.firebreak, State.toFirebreak_now, State.stopCore_now, State.blazeFreeze_now, State.blazeAt_now]
@[simp] theorem State.excludeElem_now (src unit elem : Nat) (s : State) : (s.excludeElem src unit elem).now = s.now := by
  unfold State.excludeElem; split
  · simp only [State.modPort_now]
  · split
    · simp only [State.modTier_now]
    · split
      · simp only [State.modTier_now]
      · rfl
@[simp] theorem State.degrade_now (src unit elem : Nat) (s : State) : (s.degrade src unit elem).now = s.now := by
  rw [State.degrade, State.when_same (·.now) _ _ _ (by simp only [State.raise_now, State.bump_now]), State.excludeElem_now]
@[simp] theorem State.severe_now  (s : State) : (s.severe).now = s.now := by
  rw [State.severe, State.cond_now, State.raise_now]
@[simp] theorem State.reactTo_now (src unit elem cls : Nat) (s : State) : (s.reactTo src unit elem cls).now = s.now := by
  unfold State.reactTo; split
  · exact State.degrade_now ..
  · split
    · exact State.severe_now ..
    · split
      · exact State.firebreak_now ..
      · rfl
@[simp] theorem State.react_now (src unit elem cls : Nat) (prom : Bool) (k : Nat) (s : State) : (s.react src unit elem cls prom k).now = s.now := by
  rw [State.react, State.reactTo_now, State.faultNotice_now]
@[simp] theorem State.faultN_now (fuel src unit : Nat) (pl : List Byte) (elem : Nat) (s : State) : (s.faultN fuel src unit pl elem).now = s.now := by
  induction fuel generalizing src unit pl elem s with
  | zero => rfl
  | succ n ih =>
    unfold State.faultN; dsimp only; split
    · rw [State.react_now]; split
      · rw [ih, State.faultCount_now, State.fatalFirst_now]
      · rw [State.faultCount_now, State.fatalFirst_now]
    · split
      · exact State.fatalLate_now ..
      · rfl
@[simp] theorem State.fault_now (src unit : Nat) (pl : List Byte) (s : State) : (s.fault src unit pl).now = s.now := by
  exact State.faultN_now ..
@[simp] theorem State.faultE_now (src unit : Nat) (pl : List Byte) (elem : Nat) (s : State) : (s.faultE src unit pl elem).now = s.now := by
  exact State.faultN_now ..
@[simp] theorem State.toFirebreak_tick  (s : State) : (s.toFirebreak).tick = s.tick := by
  rfl
@[simp] theorem State.firebreak_tick (src unit : Nat) (s : State) : (s.firebreak src unit).tick = s.tick := by
  rw [State.firebreak, State.toFirebreak_tick, State.stopCore_tick, State.blazeFreeze_tick, State.blazeAt_tick]
@[simp] theorem State.excludeElem_tick (src unit elem : Nat) (s : State) : (s.excludeElem src unit elem).tick = s.tick := by
  unfold State.excludeElem; split
  · simp only [State.modPort_tick]
  · split
    · simp only [State.modTier_tick]
    · split
      · simp only [State.modTier_tick]
      · rfl
@[simp] theorem State.degrade_tick (src unit elem : Nat) (s : State) : (s.degrade src unit elem).tick = s.tick := by
  rw [State.degrade, State.when_same (·.tick) _ _ _ (by simp only [State.raise_tick, State.bump_tick]), State.excludeElem_tick]
@[simp] theorem State.severe_tick  (s : State) : (s.severe).tick = s.tick := by
  rw [State.severe, State.cond_tick, State.raise_tick]
@[simp] theorem State.reactTo_tick (src unit elem cls : Nat) (s : State) : (s.reactTo src unit elem cls).tick = s.tick := by
  unfold State.reactTo; split
  · exact State.degrade_tick ..
  · split
    · exact State.severe_tick ..
    · split
      · exact State.firebreak_tick ..
      · rfl
@[simp] theorem State.react_tick (src unit elem cls : Nat) (prom : Bool) (k : Nat) (s : State) : (s.react src unit elem cls prom k).tick = s.tick := by
  rw [State.react, State.reactTo_tick, State.faultNotice_tick]
@[simp] theorem State.faultN_tick (fuel src unit : Nat) (pl : List Byte) (elem : Nat) (s : State) : (s.faultN fuel src unit pl elem).tick = s.tick := by
  induction fuel generalizing src unit pl elem s with
  | zero => rfl
  | succ n ih =>
    unfold State.faultN; dsimp only; split
    · rw [State.react_tick]; split
      · rw [ih, State.faultCount_tick, State.fatalFirst_tick]
      · rw [State.faultCount_tick, State.fatalFirst_tick]
    · split
      · exact State.fatalLate_tick ..
      · rfl
@[simp] theorem State.fault_tick (src unit : Nat) (pl : List Byte) (s : State) : (s.fault src unit pl).tick = s.tick := by
  exact State.faultN_tick ..
@[simp] theorem State.faultE_tick (src unit : Nat) (pl : List Byte) (elem : Nat) (s : State) : (s.faultE src unit pl elem).tick = s.tick := by
  exact State.faultN_tick ..
@[simp] theorem State.toFirebreak_draws  (s : State) : (s.toFirebreak).draws = s.draws := by
  rfl
@[simp] theorem State.firebreak_draws (src unit : Nat) (s : State) : (s.firebreak src unit).draws = s.draws := by
  rw [State.firebreak, State.toFirebreak_draws, State.stopCore_draws, State.blazeFreeze_draws, State.blazeAt_draws]
@[simp] theorem State.excludeElem_draws (src unit elem : Nat) (s : State) : (s.excludeElem src unit elem).draws = s.draws := by
  unfold State.excludeElem; split
  · simp only [State.modPort_draws]
  · split
    · simp only [State.modTier_draws]
    · split
      · simp only [State.modTier_draws]
      · rfl
@[simp] theorem State.degrade_draws (src unit elem : Nat) (s : State) : (s.degrade src unit elem).draws = s.draws := by
  rw [State.degrade, State.when_same (·.draws) _ _ _ (by simp only [State.raise_draws, State.bump_draws]), State.excludeElem_draws]
@[simp] theorem State.severe_draws  (s : State) : (s.severe).draws = s.draws := by
  rw [State.severe, State.cond_draws, State.raise_draws]
@[simp] theorem State.reactTo_draws (src unit elem cls : Nat) (s : State) : (s.reactTo src unit elem cls).draws = s.draws := by
  unfold State.reactTo; split
  · exact State.degrade_draws ..
  · split
    · exact State.severe_draws ..
    · split
      · exact State.firebreak_draws ..
      · rfl
@[simp] theorem State.react_draws (src unit elem cls : Nat) (prom : Bool) (k : Nat) (s : State) : (s.react src unit elem cls prom k).draws = s.draws := by
  rw [State.react, State.reactTo_draws, State.faultNotice_draws]
@[simp] theorem State.faultN_draws (fuel src unit : Nat) (pl : List Byte) (elem : Nat) (s : State) : (s.faultN fuel src unit pl elem).draws = s.draws := by
  induction fuel generalizing src unit pl elem s with
  | zero => rfl
  | succ n ih =>
    unfold State.faultN; dsimp only; split
    · rw [State.react_draws]; split
      · rw [ih, State.faultCount_draws, State.fatalFirst_draws]
      · rw [State.faultCount_draws, State.fatalFirst_draws]
    · split
      · exact State.fatalLate_draws ..
      · rfl
@[simp] theorem State.fault_draws (src unit : Nat) (pl : List Byte) (s : State) : (s.fault src unit pl).draws = s.draws := by
  exact State.faultN_draws ..
@[simp] theorem State.faultE_draws (src unit : Nat) (pl : List Byte) (elem : Nat) (s : State) : (s.faultE src unit pl elem).draws = s.draws := by
  exact State.faultN_draws ..
@[simp] theorem State.toFirebreak_id  (s : State) : (s.toFirebreak).id = s.id := by
  rfl
@[simp] theorem State.firebreak_id (src unit : Nat) (s : State) : (s.firebreak src unit).id = s.id := by
  rw [State.firebreak, State.toFirebreak_id, State.stopCore_id, State.blazeFreeze_id, State.blazeAt_id]
@[simp] theorem State.excludeElem_id (src unit elem : Nat) (s : State) : (s.excludeElem src unit elem).id = s.id := by
  unfold State.excludeElem; split
  · simp only [State.modPort_id]
  · split
    · simp only [State.modTier_id]
    · split
      · simp only [State.modTier_id]
      · rfl
@[simp] theorem State.degrade_id (src unit elem : Nat) (s : State) : (s.degrade src unit elem).id = s.id := by
  rw [State.degrade, State.when_same (·.id) _ _ _ (by simp only [State.raise_id, State.bump_id]), State.excludeElem_id]
@[simp] theorem State.severe_id  (s : State) : (s.severe).id = s.id := by
  rw [State.severe, State.cond_id, State.raise_id]
@[simp] theorem State.reactTo_id (src unit elem cls : Nat) (s : State) : (s.reactTo src unit elem cls).id = s.id := by
  unfold State.reactTo; split
  · exact State.degrade_id ..
  · split
    · exact State.severe_id ..
    · split
      · exact State.firebreak_id ..
      · rfl
@[simp] theorem State.react_id (src unit elem cls : Nat) (prom : Bool) (k : Nat) (s : State) : (s.react src unit elem cls prom k).id = s.id := by
  rw [State.react, State.reactTo_id, State.faultNotice_id]
@[simp] theorem State.faultN_id (fuel src unit : Nat) (pl : List Byte) (elem : Nat) (s : State) : (s.faultN fuel src unit pl elem).id = s.id := by
  induction fuel generalizing src unit pl elem s with
  | zero => rfl
  | succ n ih =>
    unfold State.faultN; dsimp only; split
    · rw [State.react_id]; split
      · rw [ih, State.faultCount_id, State.fatalFirst_id]
      · rw [State.faultCount_id, State.fatalFirst_id]
    · split
      · exact State.fatalLate_id ..
      · rfl
@[simp] theorem State.fault_id (src unit : Nat) (pl : List Byte) (s : State) : (s.fault src unit pl).id = s.id := by
  exact State.faultN_id ..
@[simp] theorem State.faultE_id (src unit : Nat) (pl : List Byte) (elem : Nat) (s : State) : (s.faultE src unit pl elem).id = s.id := by
  exact State.faultN_id ..
@[simp] theorem State.toFirebreak_image  (s : State) : (s.toFirebreak).image = s.image := by
  rfl
@[simp] theorem State.firebreak_image (src unit : Nat) (s : State) : (s.firebreak src unit).image = s.image := by
  rw [State.firebreak, State.toFirebreak_image, State.stopCore_image, State.blazeFreeze_image, State.blazeAt_image]
@[simp] theorem State.excludeElem_image (src unit elem : Nat) (s : State) : (s.excludeElem src unit elem).image = s.image := by
  unfold State.excludeElem; split
  · simp only [State.modPort_image]
  · split
    · simp only [State.modTier_image]
    · split
      · simp only [State.modTier_image]
      · rfl
@[simp] theorem State.degrade_image (src unit elem : Nat) (s : State) : (s.degrade src unit elem).image = s.image := by
  rw [State.degrade, State.when_same (·.image) _ _ _ (by simp only [State.raise_image, State.bump_image]), State.excludeElem_image]
@[simp] theorem State.severe_image  (s : State) : (s.severe).image = s.image := by
  rw [State.severe, State.cond_image, State.raise_image]
@[simp] theorem State.reactTo_image (src unit elem cls : Nat) (s : State) : (s.reactTo src unit elem cls).image = s.image := by
  unfold State.reactTo; split
  · exact State.degrade_image ..
  · split
    · exact State.severe_image ..
    · split
      · exact State.firebreak_image ..
      · rfl
@[simp] theorem State.react_image (src unit elem cls : Nat) (prom : Bool) (k : Nat) (s : State) : (s.react src unit elem cls prom k).image = s.image := by
  rw [State.react, State.reactTo_image, State.faultNotice_image]
@[simp] theorem State.faultN_image (fuel src unit : Nat) (pl : List Byte) (elem : Nat) (s : State) : (s.faultN fuel src unit pl elem).image = s.image := by
  induction fuel generalizing src unit pl elem s with
  | zero => rfl
  | succ n ih =>
    unfold State.faultN; dsimp only; split
    · rw [State.react_image]; split
      · rw [ih, State.faultCount_image, State.fatalFirst_image]
      · rw [State.faultCount_image, State.fatalFirst_image]
    · split
      · exact State.fatalLate_image ..
      · rfl
@[simp] theorem State.fault_image (src unit : Nat) (pl : List Byte) (s : State) : (s.fault src unit pl).image = s.image := by
  exact State.faultN_image ..
@[simp] theorem State.faultE_image (src unit : Nat) (pl : List Byte) (elem : Nat) (s : State) : (s.faultE src unit pl elem).image = s.image := by
  exact State.faultN_image ..
@[simp] theorem State.toFirebreak_mem  (s : State) : (s.toFirebreak).mem = s.mem := by
  rfl
@[simp] theorem State.firebreak_mem (src unit : Nat) (s : State) : (s.firebreak src unit).mem = s.mem := by
  rw [State.firebreak, State.toFirebreak_mem, State.stopCore_mem, State.blazeFreeze_mem, State.blazeAt_mem]
@[simp] theorem State.excludeElem_mem (src unit elem : Nat) (s : State) : (s.excludeElem src unit elem).mem = s.mem := by
  unfold State.excludeElem; split
  · simp only [State.modPort_mem]
  · split
    · simp only [State.modTier_mem]
    · split
      · simp only [State.modTier_mem]
      · rfl
@[simp] theorem State.degrade_mem (src unit elem : Nat) (s : State) : (s.degrade src unit elem).mem = s.mem := by
  rw [State.degrade, State.when_same (·.mem) _ _ _ (by simp only [State.raise_mem, State.bump_mem]), State.excludeElem_mem]
@[simp] theorem State.severe_mem  (s : State) : (s.severe).mem = s.mem := by
  rw [State.severe, State.cond_mem, State.raise_mem]
@[simp] theorem State.reactTo_mem (src unit elem cls : Nat) (s : State) : (s.reactTo src unit elem cls).mem = s.mem := by
  unfold State.reactTo; split
  · exact State.degrade_mem ..
  · split
    · exact State.severe_mem ..
    · split
      · exact State.firebreak_mem ..
      · rfl
@[simp] theorem State.react_mem (src unit elem cls : Nat) (prom : Bool) (k : Nat) (s : State) : (s.react src unit elem cls prom k).mem = s.mem := by
  rw [State.react, State.reactTo_mem, State.faultNotice_mem]
@[simp] theorem State.faultN_mem (fuel src unit : Nat) (pl : List Byte) (elem : Nat) (s : State) : (s.faultN fuel src unit pl elem).mem = s.mem := by
  induction fuel generalizing src unit pl elem s with
  | zero => rfl
  | succ n ih =>
    unfold State.faultN; dsimp only; split
    · rw [State.react_mem]; split
      · rw [ih, State.faultCount_mem, State.fatalFirst_mem]
      · rw [State.faultCount_mem, State.fatalFirst_mem]
    · split
      · exact State.fatalLate_mem ..
      · rfl
@[simp] theorem State.fault_mem (src unit : Nat) (pl : List Byte) (s : State) : (s.fault src unit pl).mem = s.mem := by
  exact State.faultN_mem ..
@[simp] theorem State.faultE_mem (src unit : Nat) (pl : List Byte) (elem : Nat) (s : State) : (s.faultE src unit pl elem).mem = s.mem := by
  exact State.faultN_mem ..
@[simp] theorem State.toFirebreak_topo  (s : State) : (s.toFirebreak).topo = s.topo := by
  rfl
@[simp] theorem State.firebreak_topo (src unit : Nat) (s : State) : (s.firebreak src unit).topo = s.topo := by
  rw [State.firebreak, State.toFirebreak_topo, State.stopCore_topo, State.blazeFreeze_topo, State.blazeAt_topo]
@[simp] theorem State.excludeElem_topo (src unit elem : Nat) (s : State) : (s.excludeElem src unit elem).topo = s.topo := by
  unfold State.excludeElem; split
  · simp only [State.modPort_topo]
  · split
    · simp only [State.modTier_topo]
    · split
      · simp only [State.modTier_topo]
      · rfl
@[simp] theorem State.degrade_topo (src unit elem : Nat) (s : State) : (s.degrade src unit elem).topo = s.topo := by
  rw [State.degrade, State.when_same (·.topo) _ _ _ (by simp only [State.raise_topo, State.bump_topo]), State.excludeElem_topo]
@[simp] theorem State.severe_topo  (s : State) : (s.severe).topo = s.topo := by
  rw [State.severe, State.cond_topo, State.raise_topo]
@[simp] theorem State.reactTo_topo (src unit elem cls : Nat) (s : State) : (s.reactTo src unit elem cls).topo = s.topo := by
  unfold State.reactTo; split
  · exact State.degrade_topo ..
  · split
    · exact State.severe_topo ..
    · split
      · exact State.firebreak_topo ..
      · rfl
@[simp] theorem State.react_topo (src unit elem cls : Nat) (prom : Bool) (k : Nat) (s : State) : (s.react src unit elem cls prom k).topo = s.topo := by
  rw [State.react, State.reactTo_topo, State.faultNotice_topo]
@[simp] theorem State.faultN_topo (fuel src unit : Nat) (pl : List Byte) (elem : Nat) (s : State) : (s.faultN fuel src unit pl elem).topo = s.topo := by
  induction fuel generalizing src unit pl elem s with
  | zero => rfl
  | succ n ih =>
    unfold State.faultN; dsimp only; split
    · rw [State.react_topo]; split
      · rw [ih, State.faultCount_topo, State.fatalFirst_topo]
      · rw [State.faultCount_topo, State.fatalFirst_topo]
    · split
      · exact State.fatalLate_topo ..
      · rfl
@[simp] theorem State.fault_topo (src unit : Nat) (pl : List Byte) (s : State) : (s.fault src unit pl).topo = s.topo := by
  exact State.faultN_topo ..
@[simp] theorem State.faultE_topo (src unit : Nat) (pl : List Byte) (elem : Nat) (s : State) : (s.faultE src unit pl elem).topo = s.topo := by
  exact State.faultN_topo ..
@[simp] theorem State.toFirebreak_sensors  (s : State) : (s.toFirebreak).sensors = s.sensors := by
  rfl
@[simp] theorem State.firebreak_sensors (src unit : Nat) (s : State) : (s.firebreak src unit).sensors = s.sensors := by
  rw [State.firebreak, State.toFirebreak_sensors, State.stopCore_sensors, State.blazeFreeze_sensors, State.blazeAt_sensors]
@[simp] theorem State.excludeElem_sensors (src unit elem : Nat) (s : State) : (s.excludeElem src unit elem).sensors = s.sensors := by
  unfold State.excludeElem; split
  · simp only [State.modPort_sensors]
  · split
    · simp only [State.modTier_sensors]
    · split
      · simp only [State.modTier_sensors]
      · rfl
@[simp] theorem State.degrade_sensors (src unit elem : Nat) (s : State) : (s.degrade src unit elem).sensors = s.sensors := by
  rw [State.degrade, State.when_same (·.sensors) _ _ _ (by simp only [State.raise_sensors, State.bump_sensors]), State.excludeElem_sensors]
@[simp] theorem State.severe_sensors  (s : State) : (s.severe).sensors = s.sensors := by
  rw [State.severe, State.cond_sensors, State.raise_sensors]
@[simp] theorem State.reactTo_sensors (src unit elem cls : Nat) (s : State) : (s.reactTo src unit elem cls).sensors = s.sensors := by
  unfold State.reactTo; split
  · exact State.degrade_sensors ..
  · split
    · exact State.severe_sensors ..
    · split
      · exact State.firebreak_sensors ..
      · rfl
@[simp] theorem State.react_sensors (src unit elem cls : Nat) (prom : Bool) (k : Nat) (s : State) : (s.react src unit elem cls prom k).sensors = s.sensors := by
  rw [State.react, State.reactTo_sensors, State.faultNotice_sensors]
@[simp] theorem State.faultN_sensors (fuel src unit : Nat) (pl : List Byte) (elem : Nat) (s : State) : (s.faultN fuel src unit pl elem).sensors = s.sensors := by
  induction fuel generalizing src unit pl elem s with
  | zero => rfl
  | succ n ih =>
    unfold State.faultN; dsimp only; split
    · rw [State.react_sensors]; split
      · rw [ih, State.faultCount_sensors, State.fatalFirst_sensors]
      · rw [State.faultCount_sensors, State.fatalFirst_sensors]
    · split
      · exact State.fatalLate_sensors ..
      · rfl
@[simp] theorem State.fault_sensors (src unit : Nat) (pl : List Byte) (s : State) : (s.fault src unit pl).sensors = s.sensors := by
  exact State.faultN_sensors ..
@[simp] theorem State.faultE_sensors (src unit : Nat) (pl : List Byte) (elem : Nat) (s : State) : (s.faultE src unit pl elem).sensors = s.sensors := by
  exact State.faultN_sensors ..
@[simp] theorem State.toFirebreak_bist  (s : State) : (s.toFirebreak).bist = s.bist := by
  rfl
@[simp] theorem State.firebreak_bist (src unit : Nat) (s : State) : (s.firebreak src unit).bist = s.bist := by
  rw [State.firebreak, State.toFirebreak_bist, State.stopCore_bist, State.blazeFreeze_bist, State.blazeAt_bist]
@[simp] theorem State.excludeElem_bist (src unit elem : Nat) (s : State) : (s.excludeElem src unit elem).bist = s.bist := by
  unfold State.excludeElem; split
  · simp only [State.modPort_bist]
  · split
    · simp only [State.modTier_bist]
    · split
      · simp only [State.modTier_bist]
      · rfl
@[simp] theorem State.degrade_bist (src unit elem : Nat) (s : State) : (s.degrade src unit elem).bist = s.bist := by
  rw [State.degrade, State.when_same (·.bist) _ _ _ (by simp only [State.raise_bist, State.bump_bist]), State.excludeElem_bist]
@[simp] theorem State.severe_bist  (s : State) : (s.severe).bist = s.bist := by
  rw [State.severe, State.cond_bist, State.raise_bist]
@[simp] theorem State.reactTo_bist (src unit elem cls : Nat) (s : State) : (s.reactTo src unit elem cls).bist = s.bist := by
  unfold State.reactTo; split
  · exact State.degrade_bist ..
  · split
    · exact State.severe_bist ..
    · split
      · exact State.firebreak_bist ..
      · rfl
@[simp] theorem State.react_bist (src unit elem cls : Nat) (prom : Bool) (k : Nat) (s : State) : (s.react src unit elem cls prom k).bist = s.bist := by
  rw [State.react, State.reactTo_bist, State.faultNotice_bist]
@[simp] theorem State.faultN_bist (fuel src unit : Nat) (pl : List Byte) (elem : Nat) (s : State) : (s.faultN fuel src unit pl elem).bist = s.bist := by
  induction fuel generalizing src unit pl elem s with
  | zero => rfl
  | succ n ih =>
    unfold State.faultN; dsimp only; split
    · rw [State.react_bist]; split
      · rw [ih, State.faultCount_bist, State.fatalFirst_bist]
      · rw [State.faultCount_bist, State.fatalFirst_bist]
    · split
      · exact State.fatalLate_bist ..
      · rfl
@[simp] theorem State.fault_bist (src unit : Nat) (pl : List Byte) (s : State) : (s.fault src unit pl).bist = s.bist := by
  exact State.faultN_bist ..
@[simp] theorem State.faultE_bist (src unit : Nat) (pl : List Byte) (elem : Nat) (s : State) : (s.faultE src unit pl elem).bist = s.bist := by
  exact State.faultN_bist ..
@[simp] theorem State.toFirebreak_regs_eff  (s : State) : (s.toFirebreak).regs.eff = s.regs.eff := by
  rfl
@[simp] theorem State.firebreak_regs_eff (src unit : Nat) (s : State) : (s.firebreak src unit).regs.eff = s.regs.eff := by
  rw [State.firebreak, State.toFirebreak_regs_eff, State.stopCore_regs, State.blazeFreeze_regs_eff, State.blazeAt_regs_eff]
@[simp] theorem State.excludeElem_regs_eff (src unit elem : Nat) (s : State) : (s.excludeElem src unit elem).regs.eff = s.regs.eff := by
  unfold State.excludeElem; split
  · simp only [State.modPort_regs]
  · split
    · simp only [State.modTier_regs]
    · split
      · simp only [State.modTier_regs]
      · rfl
@[simp] theorem State.degrade_regs_eff (src unit elem : Nat) (s : State) : (s.degrade src unit elem).regs.eff = s.regs.eff := by
  rw [State.degrade, State.when_same (·.regs.eff) _ _ _ (by simp only [State.raise_regs_eff, State.bump_regs]), State.excludeElem_regs_eff]
@[simp] theorem State.severe_regs_eff  (s : State) : (s.severe).regs.eff = s.regs.eff := by
  rw [State.severe, State.cond_regs_eff, State.raise_regs_eff]
@[simp] theorem State.reactTo_regs_eff (src unit elem cls : Nat) (s : State) : (s.reactTo src unit elem cls).regs.eff = s.regs.eff := by
  unfold State.reactTo; split
  · exact State.degrade_regs_eff ..
  · split
    · exact State.severe_regs_eff ..
    · split
      · exact State.firebreak_regs_eff ..
      · rfl
@[simp] theorem State.react_regs_eff (src unit elem cls : Nat) (prom : Bool) (k : Nat) (s : State) : (s.react src unit elem cls prom k).regs.eff = s.regs.eff := by
  rw [State.react, State.reactTo_regs_eff, State.faultNotice_regs_eff]
@[simp] theorem State.faultN_regs_eff (fuel src unit : Nat) (pl : List Byte) (elem : Nat) (s : State) : (s.faultN fuel src unit pl elem).regs.eff = s.regs.eff := by
  induction fuel generalizing src unit pl elem s with
  | zero => rfl
  | succ n ih =>
    unfold State.faultN; dsimp only; split
    · rw [State.react_regs_eff]; split
      · rw [ih, State.faultCount_regs_eff, State.fatalFirst_regs_eff]
      · rw [State.faultCount_regs_eff, State.fatalFirst_regs_eff]
    · split
      · exact State.fatalLate_regs_eff ..
      · rfl
@[simp] theorem State.fault_regs_eff (src unit : Nat) (pl : List Byte) (s : State) : (s.fault src unit pl).regs.eff = s.regs.eff := by
  exact State.faultN_regs_eff ..
@[simp] theorem State.faultE_regs_eff (src unit : Nat) (pl : List Byte) (elem : Nat) (s : State) : (s.faultE src unit pl elem).regs.eff = s.regs.eff := by
  exact State.faultN_regs_eff ..
@[simp] theorem State.toFirebreak_regs_wait  (s : State) : (s.toFirebreak).regs.wait = s.regs.wait := by
  rfl
@[simp] theorem State.firebreak_regs_wait (src unit : Nat) (s : State) : (s.firebreak src unit).regs.wait = s.regs.wait := by
  rw [State.firebreak, State.toFirebreak_regs_wait, State.stopCore_regs, State.blazeFreeze_regs_wait, State.blazeAt_regs_wait]
@[simp] theorem State.excludeElem_regs_wait (src unit elem : Nat) (s : State) : (s.excludeElem src unit elem).regs.wait = s.regs.wait := by
  unfold State.excludeElem; split
  · simp only [State.modPort_regs]
  · split
    · simp only [State.modTier_regs]
    · split
      · simp only [State.modTier_regs]
      · rfl
@[simp] theorem State.degrade_regs_wait (src unit elem : Nat) (s : State) : (s.degrade src unit elem).regs.wait = s.regs.wait := by
  rw [State.degrade, State.when_same (·.regs.wait) _ _ _ (by simp only [State.raise_regs_wait, State.bump_regs]), State.excludeElem_regs_wait]
@[simp] theorem State.severe_regs_wait  (s : State) : (s.severe).regs.wait = s.regs.wait := by
  rw [State.severe, State.cond_regs_wait, State.raise_regs_wait]
@[simp] theorem State.reactTo_regs_wait (src unit elem cls : Nat) (s : State) : (s.reactTo src unit elem cls).regs.wait = s.regs.wait := by
  unfold State.reactTo; split
  · exact State.degrade_regs_wait ..
  · split
    · exact State.severe_regs_wait ..
    · split
      · exact State.firebreak_regs_wait ..
      · rfl
@[simp] theorem State.react_regs_wait (src unit elem cls : Nat) (prom : Bool) (k : Nat) (s : State) : (s.react src unit elem cls prom k).regs.wait = s.regs.wait := by
  rw [State.react, State.reactTo_regs_wait, State.faultNotice_regs_wait]
@[simp] theorem State.faultN_regs_wait (fuel src unit : Nat) (pl : List Byte) (elem : Nat) (s : State) : (s.faultN fuel src unit pl elem).regs.wait = s.regs.wait := by
  induction fuel generalizing src unit pl elem s with
  | zero => rfl
  | succ n ih =>
    unfold State.faultN; dsimp only; split
    · rw [State.react_regs_wait]; split
      · rw [ih, State.faultCount_regs_wait, State.fatalFirst_regs_wait]
      · rw [State.faultCount_regs_wait, State.fatalFirst_regs_wait]
    · split
      · exact State.fatalLate_regs_wait ..
      · rfl
@[simp] theorem State.fault_regs_wait (src unit : Nat) (pl : List Byte) (s : State) : (s.fault src unit pl).regs.wait = s.regs.wait := by
  exact State.faultN_regs_wait ..
@[simp] theorem State.faultE_regs_wait (src unit : Nat) (pl : List Byte) (elem : Nat) (s : State) : (s.faultE src unit pl elem).regs.wait = s.regs.wait := by
  exact State.faultN_regs_wait ..
@[simp] theorem State.toFirebreak_regs_mbxC  (s : State) : (s.toFirebreak).regs.mbxC = s.regs.mbxC := by
  rfl
@[simp] theorem State.firebreak_regs_mbxC (src unit : Nat) (s : State) : (s.firebreak src unit).regs.mbxC = s.regs.mbxC := by
  rw [State.firebreak, State.toFirebreak_regs_mbxC, State.stopCore_regs, State.blazeFreeze_regs_mbxC, State.blazeAt_regs_mbxC]
@[simp] theorem State.excludeElem_regs_mbxC (src unit elem : Nat) (s : State) : (s.excludeElem src unit elem).regs.mbxC = s.regs.mbxC := by
  unfold State.excludeElem; split
  · simp only [State.modPort_regs]
  · split
    · simp only [State.modTier_regs]
    · split
      · simp only [State.modTier_regs]
      · rfl
@[simp] theorem State.degrade_regs_mbxC (src unit elem : Nat) (s : State) : (s.degrade src unit elem).regs.mbxC = s.regs.mbxC := by
  rw [State.degrade, State.when_same (·.regs.mbxC) _ _ _ (by simp only [State.raise_regs_mbxC, State.bump_regs]), State.excludeElem_regs_mbxC]
@[simp] theorem State.severe_regs_mbxC  (s : State) : (s.severe).regs.mbxC = s.regs.mbxC := by
  rw [State.severe, State.cond_regs_mbxC, State.raise_regs_mbxC]
@[simp] theorem State.reactTo_regs_mbxC (src unit elem cls : Nat) (s : State) : (s.reactTo src unit elem cls).regs.mbxC = s.regs.mbxC := by
  unfold State.reactTo; split
  · exact State.degrade_regs_mbxC ..
  · split
    · exact State.severe_regs_mbxC ..
    · split
      · exact State.firebreak_regs_mbxC ..
      · rfl
@[simp] theorem State.react_regs_mbxC (src unit elem cls : Nat) (prom : Bool) (k : Nat) (s : State) : (s.react src unit elem cls prom k).regs.mbxC = s.regs.mbxC := by
  rw [State.react, State.reactTo_regs_mbxC, State.faultNotice_regs_mbxC]
@[simp] theorem State.faultN_regs_mbxC (fuel src unit : Nat) (pl : List Byte) (elem : Nat) (s : State) : (s.faultN fuel src unit pl elem).regs.mbxC = s.regs.mbxC := by
  induction fuel generalizing src unit pl elem s with
  | zero => rfl
  | succ n ih =>
    unfold State.faultN; dsimp only; split
    · rw [State.react_regs_mbxC]; split
      · rw [ih, State.faultCount_regs_mbxC, State.fatalFirst_regs_mbxC]
      · rw [State.faultCount_regs_mbxC, State.fatalFirst_regs_mbxC]
    · split
      · exact State.fatalLate_regs_mbxC ..
      · rfl
@[simp] theorem State.fault_regs_mbxC (src unit : Nat) (pl : List Byte) (s : State) : (s.fault src unit pl).regs.mbxC = s.regs.mbxC := by
  exact State.faultN_regs_mbxC ..
@[simp] theorem State.faultE_regs_mbxC (src unit : Nat) (pl : List Byte) (elem : Nat) (s : State) : (s.faultE src unit pl elem).regs.mbxC = s.regs.mbxC := by
  exact State.faultN_regs_mbxC ..
@[simp] theorem State.toFirebreak_regs_mbxI  (s : State) : (s.toFirebreak).regs.mbxI = s.regs.mbxI := by
  rfl
@[simp] theorem State.firebreak_regs_mbxI (src unit : Nat) (s : State) : (s.firebreak src unit).regs.mbxI = s.regs.mbxI := by
  rw [State.firebreak, State.toFirebreak_regs_mbxI, State.stopCore_regs, State.blazeFreeze_regs_mbxI, State.blazeAt_regs_mbxI]
@[simp] theorem State.excludeElem_regs_mbxI (src unit elem : Nat) (s : State) : (s.excludeElem src unit elem).regs.mbxI = s.regs.mbxI := by
  unfold State.excludeElem; split
  · simp only [State.modPort_regs]
  · split
    · simp only [State.modTier_regs]
    · split
      · simp only [State.modTier_regs]
      · rfl
@[simp] theorem State.degrade_regs_mbxI (src unit elem : Nat) (s : State) : (s.degrade src unit elem).regs.mbxI = s.regs.mbxI := by
  rw [State.degrade, State.when_same (·.regs.mbxI) _ _ _ (by simp only [State.raise_regs_mbxI, State.bump_regs]), State.excludeElem_regs_mbxI]
@[simp] theorem State.severe_regs_mbxI  (s : State) : (s.severe).regs.mbxI = s.regs.mbxI := by
  rw [State.severe, State.cond_regs_mbxI, State.raise_regs_mbxI]
@[simp] theorem State.reactTo_regs_mbxI (src unit elem cls : Nat) (s : State) : (s.reactTo src unit elem cls).regs.mbxI = s.regs.mbxI := by
  unfold State.reactTo; split
  · exact State.degrade_regs_mbxI ..
  · split
    · exact State.severe_regs_mbxI ..
    · split
      · exact State.firebreak_regs_mbxI ..
      · rfl
@[simp] theorem State.react_regs_mbxI (src unit elem cls : Nat) (prom : Bool) (k : Nat) (s : State) : (s.react src unit elem cls prom k).regs.mbxI = s.regs.mbxI := by
  rw [State.react, State.reactTo_regs_mbxI, State.faultNotice_regs_mbxI]
@[simp] theorem State.faultN_regs_mbxI (fuel src unit : Nat) (pl : List Byte) (elem : Nat) (s : State) : (s.faultN fuel src unit pl elem).regs.mbxI = s.regs.mbxI := by
  induction fuel generalizing src unit pl elem s with
  | zero => rfl
  | succ n ih =>
    unfold State.faultN; dsimp only; split
    · rw [State.react_regs_mbxI]; split
      · rw [ih, State.faultCount_regs_mbxI, State.fatalFirst_regs_mbxI]
      · rw [State.faultCount_regs_mbxI, State.fatalFirst_regs_mbxI]
    · split
      · exact State.fatalLate_regs_mbxI ..
      · rfl
@[simp] theorem State.fault_regs_mbxI (src unit : Nat) (pl : List Byte) (s : State) : (s.fault src unit pl).regs.mbxI = s.regs.mbxI := by
  exact State.faultN_regs_mbxI ..
@[simp] theorem State.faultE_regs_mbxI (src unit : Nat) (pl : List Byte) (elem : Nat) (s : State) : (s.faultE src unit pl elem).regs.mbxI = s.regs.mbxI := by
  exact State.faultN_regs_mbxI ..

/-! ### Registers under a fault event: only FAULT.STATUS, FAULT.LAST and BLAZE.STATUS change -/

/-- A register beside those of R463 and R484 that a fault event may change. -/
def faultQuiet (a : Nat) : Bool := a != Reg.FAULT_STATUS && a != Reg.FAULT_LAST && a != Reg.BLAZE_STATUS

theorem faultQuiet.ne {a : Nat} (h : faultQuiet a = true) : a ≠ Reg.FAULT_STATUS ∧ a ≠ Reg.FAULT_LAST ∧ a ≠ Reg.BLAZE_STATUS := by
  simp only [faultQuiet, Bool.and_eq_true, bne_iff_ne] at h
  exact ⟨h.1.1, h.1.2, h.2⟩

theorem State.reg_bump (a k n : Nat) (s : State) : (s.bump k n).reg a = s.reg a := rfl

theorem State.reg_blazeAt {a : Nat} (h : faultQuiet a = true) (src grp unit sev code count : Nat) (args : List Byte) (s : State) :
    (s.blazeAt src grp unit sev code count args).1.reg a = s.reg a := by
  unfold State.blazeAt; split
  · rw [State.blazeDrop, State.reg_raise_ne (faultQuiet.ne h).2.2]; rfl
  · exact State.reg_congr (congrArg RegsS.file (State.blazePut_regs ..)) (congrArg IdS.role (State.blazePut_id ..)) a

theorem State.reg_blazeFreeze {a : Nat} (h : faultQuiet a = true) (s : State) : s.blazeFreeze.reg a = s.reg a := by
  have hf (t : State) : t.blazeFlags.reg a = t.reg a := by
    rw [State.blazeFlags, State.reg_cond_ne (faultQuiet.ne h).2.2, State.reg_cond_ne (faultQuiet.ne h).2.2]
  unfold State.blazeFreeze
  rw [hf]
  split
  · rfl
  · split <;> rfl

theorem State.reg_notice (a t sev : Nat) (pl : List Byte) (s : State) : (s.notice t sev pl).reg a = s.reg a :=
  State.reg_congr (by rw [State.notice_regs]) (by rw [State.notice_id]) a

theorem State.reg_faultMark {a : Nat} (h : faultQuiet a = true) (src unit cls : Nat) (prom : Bool) (s : State) :
    (s.faultMark src unit cls prom).reg a = s.reg a := by
  rw [State.faultMark, State.reg_setReg_ne (faultQuiet.ne h).2.1,
    State.when_same (·.reg a) _ _ _ (by rw [State.reg_raise_ne (faultQuiet.ne h).1, State.reg_bump]), State.reg_raise_ne (faultQuiet.ne h).1, State.reg_bump]

theorem State.reg_faultLog {a : Nat} (h : faultQuiet a = true) (src unit cls : Nat) (prom : Bool) (key : Nat) (w : WindowS) (pl : List Byte)
    (s : State) : (s.faultLog src unit cls prom key w pl).1.reg a = s.reg a := by
  have hk (k : Nat) (w : WindowS) (t : State) : (t.keepWindow k w).reg a = t.reg a :=
    State.reg_congr (congrArg RegsS.file (State.keepWindow_regs ..)) (congrArg IdS.role (State.keepWindow_id ..)) a
  unfold State.faultLog; split
  · exact (hk ..).trans (State.reg_blazeAt h ..)
  · exact (hk ..).trans (State.reg_congr (congrArg RegsS.file (State.recount_regs ..)) (congrArg IdS.role (State.recount_id ..)) a)

theorem State.reg_stopCore (a : Nat) (s : State) : s.stopCore.reg a = s.reg a :=
  State.reg_congr (by rw [State.stopCore_regs]) (by rw [State.stopCore_id]) a

theorem State.reg_firebreak {a : Nat} (h : faultQuiet a = true) (src unit : Nat) (s : State) : (s.firebreak src unit).reg a = s.reg a := by
  have hf (t : State) : t.toFirebreak.reg a = t.reg a := State.reg_congr (congrArg RegsS.file (State.toFirebreak_regs _)) (congrArg IdS.role (State.toFirebreak_id _)) a
  exact (hf _).trans <| (State.reg_stopCore a _).trans ((State.reg_blazeFreeze h _).trans (State.reg_blazeAt h ..))

theorem State.reg_excludeElem (a src unit elem : Nat) (s : State) : (s.excludeElem src unit elem).reg a = s.reg a := by
  unfold State.excludeElem
  split
  · exact State.reg_congr (by rw [State.modPort_regs]) (by rw [State.modPort_id]) a
  · split
    · rfl
    · split <;> rfl

theorem State.reg_faultNotice (a src cls : Nat) (prom : Bool) (k : Nat) (s : State) : (s.faultNotice src cls prom k).reg a = s.reg a :=
  State.when_same (·.reg a) _ _ _ (State.reg_notice ..)

theorem State.reg_react {a : Nat} (h : faultQuiet a = true) (src unit elem cls : Nat) (prom : Bool) (k : Nat) (s : State) :
    (s.react src unit elem cls prom k).reg a = s.reg a := by
  rw [State.react]
  refine Eq.trans ?_ (State.reg_faultNotice a src cls prom k s)
  unfold State.reactTo
  split
  · rw [State.degrade, State.when_same (·.reg a) _ _ _ (by rw [State.reg_raise_ne (faultQuiet.ne h).1, State.reg_bump]), State.reg_excludeElem]
  · split
    · rw [State.severe, State.reg_cond_ne (faultQuiet.ne h).1, State.reg_raise_ne (faultQuiet.ne h).1]
      rfl
    · split
      · exact State.reg_firebreak h ..
      · rfl

theorem State.reg_blazeWrite (a src grp unit sev code count : Nat) (args : List Byte) (s : State) :
    (s.blazeWrite src grp unit sev code count args).reg a = s.reg a := rfl

theorem State.reg_fatalFirst (a cls src unit : Nat) (pl : List Byte) (s : State) : (s.fatalFirst cls src unit pl).reg a = s.reg a :=
  State.when_same (·.reg a) _ _ _ rfl

theorem State.reg_fatalEntries {a : Nat} (h : faultQuiet a = true) (b : BlazeS) (l : List (Nat × Nat × List Byte)) (s : State) :
    (s.fatalEntries b l).reg a = s.reg a := by
  unfold State.fatalEntries; dsimp only
  split
  · rfl
  · rw [State.reg_blazeFreeze h, State.reg_blazeWrite, forEach_same (·.reg a) _ (fun _ _ => State.reg_blazeWrite ..)]
    rfl

theorem State.reg_fatalLate {a : Nat} (h : faultQuiet a = true) (src unit : Nat) (pl : List Byte) (s : State) :
    (s.fatalLate src unit pl).reg a = s.reg a := by
  unfold State.fatalLate
  split
  · rfl
  · dsimp only
    split
    · rw [State.blazeDrop, State.reg_raise_ne (faultQuiet.ne h).2.2]; rfl
    · rw [State.reg_bump, State.reg_fatalEntries h]; rfl

/-- A fault event changes no register beside FAULT.STATUS, FAULT.LAST and BLAZE.STATUS. -/
theorem State.reg_faultN {a : Nat} (h : faultQuiet a = true) (fuel src unit : Nat) (pl : List Byte) (elem : Nat) (s : State) :
    (s.faultN fuel src unit pl elem).reg a = s.reg a := by
  induction fuel generalizing src unit pl elem s with
  | zero => rfl
  | succ n ih =>
    have hc (s : State) : (s.faultCount src unit pl).1.reg a = s.reg a := by
      rw [State.faultCount, State.reg_faultLog h, State.reg_faultMark h]
    unfold State.faultN; dsimp only; split
    · rw [State.reg_react h]; split
      · rw [ih, hc, State.reg_fatalFirst]
      · rw [hc, State.reg_fatalFirst]
    · split
      · exact State.reg_fatalLate h ..
      · rfl

theorem State.reg_fault {a : Nat} (h : faultQuiet a = true) (src unit : Nat) (pl : List Byte) (s : State) :
    (s.fault src unit pl).reg a = s.reg a := State.reg_faultN h ..

theorem State.fld_fault {a : Nat} (h : faultQuiet a = true) (f : Fld) (src unit : Nat) (pl : List Byte) (s : State) :
    (s.fault src unit pl).fld a f = s.fld a f := by simp only [State.fld, State.reg_fault h]

theorem State.fld_faultE {a : Nat} (h : faultQuiet a = true) (f : Fld) (src unit : Nat) (pl : List Byte) (elem : Nat) (s : State) :
    (s.faultE src unit pl elem).fld a f = s.fld a f := by
  simp only [State.fld]; rw [State.faultE, State.reg_faultN h]

theorem State.fld_notice (a : Nat) (f : Fld) (t sev : Nat) (pl : List Byte) (s : State) : (s.notice t sev pl).fld a f = s.fld a f := by
  simp only [State.fld, State.reg_notice]

theorem State.fld_bump (a : Nat) (f : Fld) (k n : Nat) (s : State) : (s.bump k n).fld a f = s.fld a f := rfl

end Sys2Proof.Machine
end

