-- ==== Sys2Proof/Laws/Frame.lean ====
section
/-! SUPPORT. Frames: what each shared update may change, in a form that composes along a chain of updates. -/

namespace Sys2Proof.Machine
open Sys2Proof

namespace State.only

variable {s t u : State} {ps qs : List Part} {as bs : List Nat}

/-- Nothing has changed. -/
theorem here : s.only ps as s :=
  ⟨⟨rfl, rfl, rfl⟩, fun p _ => by cases p <;> first | rfl | exact ⟨rfl, rfl⟩ | exact ⟨rfl, rfl, rfl⟩ | exact ⟨rfl, rfl, rfl, rfl⟩ | exact ⟨rfl, rfl, rfl, rfl, rfl, rfl⟩, fun _ _ => rfl⟩

/-- Changes compose. -/
theorem trans (h : s.only ps as t) (k : t.only ps as u) : s.only ps as u := by
  refine ⟨⟨k.1.1.trans h.1.1, k.1.2.1.trans h.1.2.1, k.1.2.2.trans h.1.2.2⟩, fun p hp => ?_, fun a ha => (k.2.2 a ha).trans (h.2.2 a ha)⟩
  have h1 := h.2.1 p hp
  have h2 := k.2.1 p hp
  cases p <;> simp only [Part.same] at h1 h2 ⊢ <;> simp only [h2, h1, and_self]

/-- Wider lists hold all the more. -/
theorem mono (h : s.only ps as t) (hp : ∀ p ∈ ps, p ∈ qs := by decide) (ha : ∀ a ∈ as, a ∈ bs := by simp) : s.only qs bs t :=
  ⟨h.1, fun p k => h.2.1 p (fun k' => k (hp p k')), fun a k => h.2.2 a (fun k' => k (ha a k'))⟩

/-- A change after another one, in narrower lists. -/
theorem step (h : s.only ps as t) (k : t.only qs bs u) (hp : ∀ p ∈ qs, p ∈ ps := by decide) (ha : ∀ a ∈ bs, a ∈ as := by simp) : s.only ps as u :=
  h.trans (k.mono hp ha)

/-- The queue and the clocks, put back, are what they were. -/
theorem carry (h : s.only ps as t) : s.only ps as (s.carry t) := by
  refine ⟨⟨rfl, rfl, rfl⟩, fun p hp => ?_, h.2.2⟩
  have := h.2.1 p hp
  cases p <;> exact this

/-- A loop changes what its steps change. -/
theorem loop {α : Type} (f : α → State → State) (hf : ∀ (a : α) (t : State), t.only ps as (f a t)) (l : List α) (h : s.only ps as t) :
    s.only ps as (forEach l f t) := by
  induction l generalizing t with
  | nil => exact h
  | cons a l ih => exact ih (h.trans (hf a t))

/-- A loop over a list changes what its steps on the elements of the list change. -/
theorem each {α : Type} {l : List α} {f : α → State → State} (hf : ∀ a ∈ l, ∀ t : State, t.only ps as (f a t)) (h : s.only ps as t) :
    s.only ps as (forEach l f t) := by
  induction l generalizing t with
  | nil => exact h
  | cons a l ih => exact ih (fun b hb => hf b (List.mem_cons_of_mem _ hb)) (h.trans (hf a List.mem_cons_self t))

theorem cond_ {c : Bool} {f : State → State} (h : s.only ps as t) (hf : t.only ps as (f t)) : s.only ps as (when c f t) := by
  cases c
  · exact h
  · exact h.trans hf

theorem setReg (a : Nat) (w : Word) (h : s.only ps as t) (hp : Part.regs ∈ ps := by decide) (ha : a ∈ as := by simp) : s.only ps as (t.setReg a w) :=
  h.trans ⟨by simp, fun q hq => by cases q <;> first | exact absurd hp hq | simp [Part.same], fun b hb => State.reg_setReg_ne (a := a) (b := b) (fun e => hb (by rw [e]; exact ha)) w t⟩

theorem setFld (a : Nat) (f : Fld) (v : Nat) (h : s.only ps as t) (hp : Part.regs ∈ ps := by decide) (ha : a ∈ as := by simp) : s.only ps as (t.setFld a f v) :=
  h.trans ⟨by simp, fun q hq => by cases q <;> first | exact absurd hp hq | simp [Part.same], fun b hb => State.reg_setFld_ne (a := a) (b := b) (fun e => hb (by rw [e]; exact ha)) f v t⟩

theorem seqUp (a : Nat) (h : s.only ps as t) (hp : Part.regs ∈ ps := by decide) (ha : a ∈ as := by simp) : s.only ps as (t.seqUp a) :=
  h.trans ⟨by simp, fun q hq => by cases q <;> first | exact absurd hp hq | simp [Part.same], fun b hb => State.reg_seqUp_ne (a := a) (b := b) (fun e => hb (by rw [e]; exact ha)) t⟩

theorem raise (a : Nat) (f : Fld) (h : s.only ps as t) (hp : Part.regs ∈ ps := by decide) (ha : a ∈ as := by simp) : s.only ps as (t.raise a f) :=
  h.trans ⟨by simp, fun q hq => by cases q <;> first | exact absurd hp hq | simp [Part.same], fun b hb => State.reg_raise_ne (a := a) (b := b) (fun e => hb (by rw [e]; exact ha)) f t⟩

theorem cond (a : Nat) (f : Fld) (c : Bool) (h : s.only ps as t) (hp : Part.regs ∈ ps := by decide) (ha : a ∈ as := by simp) : s.only ps as (t.cond a f c) :=
  h.trans ⟨by simp, fun q hq => by cases q <;> first | exact absurd hp hq | simp [Part.same], fun b hb => State.reg_cond_ne (a := a) (b := b) (fun e => hb (by rw [e]; exact ha)) f c t⟩

theorem raiseIf (c : Bool) (a : Nat) (f : Fld) (h : s.only ps as t) (hp : Part.regs ∈ ps := by decide) (ha : a ∈ as := by simp) :
    s.only ps as (t.raiseIf c a f) := by
  cases c
  · exact h
  · exact h.raise a f hp ha

theorem bump (k n : Nat) (h : s.only ps as t) (hp : Part.counts ∈ ps := by decide) : s.only ps as (t.bump k n) :=
  h.trans ⟨by simp, fun q hq => by cases q <;> first | exact absurd hp hq | simp [Part.same], fun b _ => State.reg_congr (by rw [State.bump_regs]) (by rw [State.bump_id]) b⟩

theorem setPort (p : Port) (x : PortS) (h : s.only ps as t) (hp : Part.ports ∈ ps := by decide) : s.only ps as (t.setPort p x) :=
  h.trans ⟨by simp, fun q hq => by cases q <;> first | exact absurd hp hq | simp [Part.same], fun b _ => State.reg_congr (by rw [State.setPort_regs]) (by rw [State.setPort_id]) b⟩

theorem modPort (p : Port) (f : PortS → PortS) (h : s.only ps as t) (hp : Part.ports ∈ ps := by decide) : s.only ps as (t.modPort p f) :=
  h.trans ⟨by simp, fun q hq => by cases q <;> first | exact absurd hp hq | simp [Part.same], fun b _ => State.reg_congr (by rw [State.modPort_regs]) (by rw [State.modPort_id]) b⟩

theorem modChan (n : Nat) (f : ChanS → ChanS) (h : s.only ps as t) (hp : Part.chans ∈ ps := by decide) : s.only ps as (t.modChan n f) :=
  h.trans ⟨by simp, fun q hq => by cases q <;> first | exact absurd hp hq | simp [Part.same], fun b _ => State.reg_congr (by rw [State.modChan_regs]) (by rw [State.modChan_id]) b⟩

theorem modPc (n : Nat) (f : PcS → PcS) (h : s.only ps as t) (hp : Part.pcs ∈ ps := by decide) : s.only ps as (t.modPc n f) :=
  h.trans ⟨by simp, fun q hq => by cases q <;> first | exact absurd hp hq | simp [Part.same], fun b _ => State.reg_congr (by rw [State.modPc_regs]) (by rw [State.modPc_id]) b⟩

theorem modBank (n k : Nat) (f : BankS → BankS) (h : s.only ps as t) (hp : Part.pcs ∈ ps := by decide) : s.only ps as (t.modBank n k f) :=
  h.trans ⟨by simp, fun q hq => by cases q <;> first | exact absurd hp hq | simp [Part.same], fun b _ => State.reg_congr (by rw [State.modBank_regs]) (by rw [State.modBank_id]) b⟩

theorem modTier (n : Nat) (f : TierS → TierS) (h : s.only ps as t) (hp : Part.tiers ∈ ps := by decide) : s.only ps as (t.modTier n f) :=
  h.trans ⟨by simp, fun q hq => by cases q <;> first | exact absurd hp hq | simp [Part.same], fun b _ => State.reg_congr (by rw [State.modTier_regs]) (by rw [State.modTier_id]) b⟩

theorem modSensor (n : Nat) (f : SensorS → SensorS) (h : s.only ps as t) (hp : Part.sensors ∈ ps := by decide) : s.only ps as (t.modSensor n f) :=
  h.trans ⟨by simp, fun q hq => by cases q <;> first | exact absurd hp hq | simp [Part.same], fun b _ => State.reg_congr (by rw [State.modSensor_regs]) (by rw [State.modSensor_id]) b⟩

theorem modEnt (n : Nat) (f : TopoE → TopoE) (h : s.only ps as t) (hp : Part.topo ∈ ps := by decide) : s.only ps as (t.modEnt n f) :=
  h.trans ⟨by simp, fun q hq => by cases q <;> first | exact absurd hp hq | simp [Part.same], fun b _ => State.reg_congr (by rw [State.modEnt_regs]) (by rw [State.modEnt_id]) b⟩

theorem setCtx (q : Nat) (c : List Nat) (h : s.only ps as t) (hp : Part.que ∈ ps := by decide) : s.only ps as (t.setCtx q c) :=
  h.trans ⟨by simp, fun q hq => by cases q <;> first | exact absurd hp hq | simp [Part.same], fun b _ => State.reg_congr (by rw [State.setCtx_regs]) (by rw [State.setCtx_id]) b⟩

theorem setKey (k : Nat) (x : KeyS) (h : s.only ps as t) (hp : Part.prot ∈ ps := by decide) : s.only ps as (t.setKey k x) :=
  h.trans ⟨by simp, fun q hq => by cases q <;> first | exact absurd hp hq | simp [Part.same], fun b _ => State.reg_congr (by rw [State.setKey_regs]) (by rw [State.setKey_id]) b⟩

theorem modPower (f : PowerS → PowerS) (h : s.only ps as t) (hp : Part.power ∈ ps := by decide) : s.only ps as (t.modPower f) :=
  h.trans ⟨by simp, fun q hq => by cases q <;> first | exact absurd hp hq | simp [Part.same], fun b _ => State.reg_congr (by rw [State.modPower_regs]) (by rw [State.modPower_id]) b⟩

theorem power (x : PowerS) (h : s.only ps as t) (hp : Part.power ∈ ps := by decide) : s.only ps as { t with power := x } :=
  h.trans ⟨by simp, fun q hq => by cases q <;> first | exact absurd hp hq | simp [Part.same], fun _ _ => rfl⟩

theorem image (x : ImageS) (h : s.only ps as t) (hp : Part.image ∈ ps := by decide) : s.only ps as { t with image := x } :=
  h.trans ⟨by simp, fun q hq => by cases q <;> first | exact absurd hp hq | simp [Part.same], fun _ _ => rfl⟩

theorem own (x : OwnS) (h : s.only ps as t) (hp : Part.own ∈ ps := by decide) : s.only ps as { t with own := x } :=
  h.trans ⟨by simp, fun q hq => by cases q <;> first | exact absurd hp hq | simp [Part.same], fun _ _ => rfl⟩

theorem eng (x : EngS) (h : s.only ps as t) (hp : Part.eng ∈ ps := by decide) : s.only ps as { t with eng := x } :=
  h.trans ⟨by simp, fun q hq => by cases q <;> first | exact absurd hp hq | simp [Part.same], fun _ _ => rfl⟩

theorem pool (x : PoolS) (h : s.only ps as t) (hp : Part.pool ∈ ps := by decide) : s.only ps as { t with pool := x } :=
  h.trans ⟨by simp, fun q hq => by cases q <;> first | exact absurd hp hq | simp [Part.same], fun _ _ => rfl⟩

theorem topo (x : TopoS) (h : s.only ps as t) (hp : Part.topo ∈ ps := by decide) : s.only ps as { t with topo := x } :=
  h.trans ⟨by simp, fun q hq => by cases q <;> first | exact absurd hp hq | simp [Part.same], fun _ _ => rfl⟩

theorem mgr (x : MgrS) (h : s.only ps as t) (hp : Part.mgr ∈ ps := by decide) : s.only ps as { t with mgr := x } :=
  h.trans ⟨by simp, fun q hq => by cases q <;> first | exact absurd hp hq | simp [Part.same], fun _ _ => rfl⟩

theorem que (x : QueS) (h : s.only ps as t) (hp : Part.que ∈ ps := by decide) : s.only ps as { t with que := x } :=
  h.trans ⟨by simp, fun q hq => by cases q <;> first | exact absurd hp hq | simp [Part.same], fun _ _ => rfl⟩

theorem prot (x : ProtS) (h : s.only ps as t) (hp : Part.prot ∈ ps := by decide) : s.only ps as { t with prot := x } :=
  h.trans ⟨by simp, fun q hq => by cases q <;> first | exact absurd hp hq | simp [Part.same], fun _ _ => rfl⟩

theorem fuse (x : FuseS) (h : s.only ps as t) (hp : Part.fuse ∈ ps := by decide) : s.only ps as { t with fuse := x } :=
  h.trans ⟨by simp, fun q hq => by cases q <;> first | exact absurd hp hq | simp [Part.same], fun _ _ => rfl⟩

theorem mem (x : MemS) (h : s.only ps as t) (hp : Part.mem ∈ ps := by decide) : s.only ps as { t with mem := x } :=
  h.trans ⟨by simp, fun q hq => by cases q <;> first | exact absurd hp hq | simp [Part.same], fun _ _ => rfl⟩

theorem draws (x : Nat) (h : s.only ps as t) (hp : Part.draws ∈ ps := by decide) : s.only ps as { t with draws := x } :=
  h.trans ⟨by simp, fun q hq => by cases q <;> first | exact absurd hp hq | simp [Part.same], fun _ _ => rfl⟩

theorem sensors (x : AMap SensorS) (h : s.only ps as t) (hp : Part.sensors ∈ ps := by decide) : s.only ps as { t with sensors := x } :=
  h.trans ⟨by simp, fun q hq => by cases q <;> first | exact absurd hp hq | simp [Part.same], fun _ _ => rfl⟩

theorem bist (x : AMap (Nat × Nat × Nat)) (h : s.only ps as t) (hp : Part.bist ∈ ps := by decide) : s.only ps as { t with bist := x } :=
  h.trans ⟨by simp, fun q hq => by cases q <;> first | exact absurd hp hq | simp [Part.same], fun _ _ => rfl⟩

theorem tx (x : List (Port × Msg)) (h : s.only ps as t) (hp : Part.sent ∈ ps := by decide) : s.only ps as { t with net.tx := x } :=
  h.trans ⟨by simp, fun q hq => by cases q <;> first | exact absurd hp hq | simp [Part.same], fun _ _ => rfl⟩

theorem inbox (x : List Msg) (h : s.only ps as t) (hp : Part.sent ∈ ps := by decide) : s.only ps as { t with net.inbox := x } :=
  h.trans ⟨by simp, fun q hq => by cases q <;> first | exact absurd hp hq | simp [Part.same], fun _ _ => rfl⟩

theorem mgrPort (x : Port) (h : s.only ps as t) (hp : Part.ports ∈ ps := by decide) : s.only ps as { t with net.mgrPort := x } :=
  h.trans ⟨by simp, fun q hq => by cases q <;> first | exact absurd hp hq | simp [Part.same], fun _ _ => rfl⟩

theorem air (x : AirS) (h : s.only ps as t) (hp : Part.ports ∈ ps := by decide) : s.only ps as { t with net.air := x } :=
  h.trans ⟨by simp, fun q hq => by cases q <;> first | exact absurd hp hq | simp [Part.same], fun _ _ => rfl⟩

theorem bursts (x : AMap Burst) (h : s.only ps as t) (hp : Part.bursts ∈ ps := by decide) : s.only ps as { t with stack.bursts := x } :=
  h.trans ⟨by simp, fun q hq => by cases q <;> first | exact absurd hp hq | simp [Part.same], fun _ _ => rfl⟩

theorem nextAcc (x : Nat) (h : s.only ps as t) (hp : Part.bursts ∈ ps := by decide) : s.only ps as { t with stack.nextAcc := x } :=
  h.trans ⟨by simp, fun q hq => by cases q <;> first | exact absurd hp hq | simp [Part.same], fun _ _ => rfl⟩

theorem eff (x : AMap Word) (h : s.only ps as t) (hp : Part.effects ∈ ps := by decide) : s.only ps as { t with regs.eff := x } :=
  h.trans ⟨by simp, fun q hq => by cases q <;> first | exact absurd hp hq | simp [Part.same], fun _ _ => rfl⟩

theorem wait (x : List Nat) (h : s.only ps as t) (hp : Part.effects ∈ ps := by decide) : s.only ps as { t with regs.wait := x } :=
  h.trans ⟨by simp, fun q hq => by cases q <;> first | exact absurd hp hq | simp [Part.same], fun _ _ => rfl⟩

theorem mbxC (x : MbxS) (h : s.only ps as t) (hp : Part.mbx ∈ ps := by decide) : s.only ps as { t with regs.mbxC := x } :=
  h.trans ⟨by simp, fun q hq => by cases q <;> first | exact absurd hp hq | simp [Part.same], fun _ _ => rfl⟩

theorem mbxI (x : MbxS) (h : s.only ps as t) (hp : Part.mbx ∈ ps := by decide) : s.only ps as { t with regs.mbxI := x } :=
  h.trans ⟨by simp, fun q hq => by cases q <;> first | exact absurd hp hq | simp [Part.same], fun _ _ => rfl⟩

theorem windows (x : AMap WindowS) (h : s.only ps as t) (hp : Part.faults ∈ ps := by decide) : s.only ps as { t with flt.windows := x } :=
  h.trans ⟨by simp, fun q hq => by cases q <;> first | exact absurd hp hq | simp [Part.same], fun _ _ => rfl⟩

theorem admitStop (x : Bool) (h : s.only ps as t) (hp : Part.faults ∈ ps := by decide) : s.only ps as { t with flt.admitStop := x } :=
  h.trans ⟨by simp, fun q hq => by cases q <;> first | exact absurd hp hq | simp [Part.same], fun _ _ => rfl⟩

theorem blaze (x : BlazeS) (h : s.only ps as t) (hp : Part.blaze ∈ ps := by decide) : s.only ps as { t with flt.blaze := x } :=
  h.trans ⟨by simp, fun q hq => by cases q <;> first | exact absurd hp hq | simp [Part.same], fun _ _ => rfl⟩

theorem torn (x : List Nat) (h : s.only ps as t) (hp : Part.counts ∈ ps := by decide) : s.only ps as { t with flt.torn := x } :=
  h.trans ⟨by simp, fun q hq => by cases q <;> first | exact absurd hp hq | simp [Part.same], fun _ _ => rfl⟩

theorem hostNtc (x : List NoticeS) (h : s.only ps as t) (hp : Part.notices ∈ ps := by decide) : s.only ps as { t with flt.hostNtc := x } :=
  h.trans ⟨by simp, fun q hq => by cases q <;> first | exact absurd hp hq | simp [Part.same], fun _ _ => rfl⟩

theorem notices (x : AMap NoticeS) (h : s.only ps as t) (hp : Part.notices ∈ ps := by decide) : s.only ps as { t with flt.notices := x } :=
  h.trans ⟨by simp, fun q hq => by cases q <;> first | exact absurd hp hq | simp [Part.same], fun _ _ => rfl⟩

theorem devNseq (x : AMap Nat) (h : s.only ps as t) (hp : Part.notices ∈ ps := by decide) : s.only ps as { t with flt.devNseq := x } :=
  h.trans ⟨by simp, fun q hq => by cases q <;> first | exact absurd hp hq | simp [Part.same], fun _ _ => rfl⟩

theorem censusR (x : Option CensusS) (h : s.only ps as t) (hp : Part.census ∈ ps := by decide) : s.only ps as { t with flt.census := x } :=
  h.trans ⟨by simp, fun q hq => by cases q <;> first | exact absurd hp hq | simp [Part.same], fun _ _ => rfl⟩

theorem i3cDyn (x : Option (BitVec 7)) (h : s.only ps as t) (hp : Part.id ∈ ps := by decide) : s.only ps as { t with id.i3cDyn := x } :=
  h.trans ⟨by simp, fun q hq => by cases q <;> first | exact absurd hp hq | simp [Part.same], fun _ _ => rfl⟩

theorem i3cOut (x : List Byte) (h : s.only ps as t) (hp : Part.id ∈ ps := by decide) : s.only ps as { t with id.i3cOut := x } :=
  h.trans ⟨by simp, fun q hq => by cases q <;> first | exact absurd hp hq | simp [Part.same], fun _ _ => rfl⟩

/-! ### Notices, the blaze log and fault events -/

theorem notice (n sev : Nat) (pl : List Byte) (h : s.only ps as t) (hp : Part.notices ∈ ps := by decide) (hc : Part.counts ∈ ps := by decide) :
    s.only ps as (t.notice n sev pl) :=
  h.trans ⟨by simp, fun q hq => by cases q <;> first | exact absurd hp hq | exact absurd hc hq | simp [Part.same], fun b _ => State.reg_notice ..⟩

theorem blazeAt (src grp unit sev code count : Nat) (args : List Byte) (h : s.only ps as t)
    (hp : ∀ p ∈ [Part.blaze, .counts, .regs], p ∈ ps := by decide) (ha : Reg.BLAZE_STATUS ∈ as := by simp) :
    s.only ps as (t.blazeAt src grp unit sev code count args).1 := by
  unfold State.blazeAt
  split
  · exact ((h.blaze _ (hp _ (by decide))).bump _ _ (hp _ (by decide))).raise _ _ (hp _ (by decide)) ha
  · exact (h.blaze _ (hp _ (by decide))).bump _ _ (hp _ (by decide))

theorem faultMark (src unit cls : Nat) (prom : Bool) (h : s.only ps as t) (hp : ∀ p ∈ [Part.counts, .regs], p ∈ ps := by decide)
    (ha : ∀ a ∈ [Reg.FAULT_STATUS, Reg.FAULT_LAST], a ∈ as := by simp) : s.only ps as (t.faultMark src unit cls prom) := by
  unfold State.faultMark
  have h0 := (h.bump (devSlot 140) 1 (hp _ (by decide))).raise Reg.FAULT_STATUS F.FAULT_STATUS_EVENT (hp _ (by decide)) (ha _ (by simp))
  refine setReg _ _ (cond_ h0 ?_) (hp _ (by decide)) (ha _ (by simp))
  exact (here.bump _ _ (hp _ (by decide))).raise _ _ (hp _ (by decide)) (ha _ (by simp))

theorem keepWindow (key : Nat) (w : WindowS) (h : s.only ps as t) (hp : Part.faults ∈ ps := by decide) : s.only ps as (t.keepWindow key w) :=
  h.windows _ hp

theorem recount (e : Option Nat) (k : Nat) (h : s.only ps as t) (hp : Part.blaze ∈ ps := by decide) : s.only ps as (t.recount e k) := by
  unfold State.recount
  split
  · exact h
  · split
    · exact h
    · exact h.blaze _ hp

theorem faultLog (src unit cls : Nat) (prom : Bool) (key : Nat) (w : WindowS) (pl : List Byte) (h : s.only ps as t)
    (hp : ∀ p ∈ [Part.blaze, .counts, .regs, .faults], p ∈ ps := by decide) (ha : Reg.BLAZE_STATUS ∈ as := by simp) :
    s.only ps as (t.faultLog src unit cls prom key w pl).1 := by
  unfold State.faultLog
  split
  · exact (h.blazeAt _ _ _ _ _ _ _ (fun p hq => hp p (by simp at hq ⊢; tauto)) ha).keepWindow _ _ (hp _ (by decide))
  · exact (h.recount _ _ (hp _ (by decide))).keepWindow _ _ (hp _ (by decide))

end State.only

theorem State.faultLog_kept (src unit cls : Nat) (prom : Bool) (key : Nat) (w : WindowS) (pl : List Byte) (s : State)
    (h : s.flt.blaze.f2 = none) : (s.faultLog src unit cls prom key w pl).2 = false := by
  unfold State.faultLog
  split
  · rw [State.blazeAt, h]; rfl
  · rfl

/-- R462, R465: a NOTE leaves its record, and nothing else happens. -/
theorem State.fault_note (src unit : Nat) (pl : List Byte) (elem : Nat) (s : State) (hw : s.awake = true) (hn : s.noteOnly src unit) :
    s.faultN 3 src unit pl elem = (s.faultCount src unit pl).1 := by
  have hl : (s.faultCount src unit pl).2 = false := by
    rw [State.faultCount]
    exact State.faultLog_kept _ _ _ _ _ _ _ _ (by rw [State.faultMark_blaze]; exact hn.2)
  have hc : (s.faultClass src unit).2.1 = false := by
    have := hn.1
    simp only [State.faultClass] at this ⊢
    rw [this]; simp
  have hr (k : Nat) (t : State) : t.react src unit elem 0 false k = t := by
    rw [State.react, State.reactTo, if_neg (by decide), if_neg (by decide), if_neg (by decide), State.faultNotice]; rfl
  have hf : s.fatalFirst 0 src unit pl = s := rfl
  rw [State.faultN, if_pos hw]
  simp only [hn.1, hf]
  simp only [hl, Bool.false_eq_true, false_and, if_false, hc, hr]

namespace State.only

variable {s t u : State} {ps qs : List Part} {as bs : List Nat}

/-- R462, R465: what a NOTE may change. -/
theorem fault (src unit : Nat) (pl : List Byte) (elem : Nat) (h : s.only ps as t) (hw : t.awake = true) (hn : t.noteOnly src unit)
    (hp : ∀ p ∈ [Part.blaze, .counts, .regs, .faults], p ∈ ps := by decide)
    (ha : ∀ a ∈ [Reg.FAULT_STATUS, Reg.FAULT_LAST, Reg.BLAZE_STATUS], a ∈ as := by simp) : s.only ps as (t.faultN 3 src unit pl elem) := by
  rw [State.fault_note src unit pl elem t hw hn, State.faultCount]
  exact (h.faultMark _ _ _ _ (fun p hq => hp p (by simp at hq ⊢; tauto)) (fun a hq => ha a (by simp at hq ⊢; tauto))).faultLog _ _ _ _ _ _ _ hp
    (ha _ (by simp))

end State.only
end Sys2Proof.Machine
end

