-- ==== Sys2Proof/Laws/Read.lean ====
section
/-! SUPPORT. Reading the state after a change: what lies in a part that has not changed reads as before. -/

set_option Elab.async false

namespace Sys2Proof.Machine
open Sys2Proof

namespace State.only

variable {s t : State} {ps : List Part} {as : List Nat}

theorem reg (h : s.only ps as t) (a : Nat) (ha : a ∉ as := by simp) : t.reg a = s.reg a := h.2.2 a ha
theorem fld (h : s.only ps as t) (a : Nat) (f : Fld) (ha : a ∉ as := by simp) : t.fld a f = s.fld a f := by
  simp only [State.fld, h.2.2 a ha]
theorem now' (h : s.only ps as t) : t.now = s.now := h.1.2.1
theorem tick' (h : s.only ps as t) : t.tick = s.tick := h.1.2.2
theorem port (h : s.only ps as t) (p : Port) (hp : Part.ports ∉ ps := by decide) : t.port p = s.port p := State.port_congr (h.2.1 _ hp).1 p
theorem mgrPort' (h : s.only ps as t) (hp : Part.ports ∉ ps := by decide) : t.net.mgrPort = s.net.mgrPort := (h.2.1 _ hp).2.1
theorem inbox' (h : s.only ps as t) (hp : Part.sent ∉ ps := by decide) : t.net.inbox = s.net.inbox := (h.2.1 _ hp).2
theorem tx' (h : s.only ps as t) (hp : Part.sent ∉ ps := by decide) : t.net.tx = s.net.tx := (h.2.1 _ hp).1
theorem chan (h : s.only ps as t) (n : Nat) (hp : Part.chans ∉ ps := by decide) : t.chan n = s.chan n := State.chan_congr (h.2.1 _ hp) n
theorem pc (h : s.only ps as t) (n : Nat) (hp : Part.pcs ∉ ps := by decide) : t.pc n = s.pc n := State.pc_congr (h.2.1 _ hp) n
theorem tier (h : s.only ps as t) (n : Nat) (hp : Part.tiers ∉ ps := by decide) : t.tier n = s.tier n := State.tier_congr (h.2.1 _ hp) n
theorem power' (h : s.only ps as t) (hp : Part.power ∉ ps := by decide) : t.power = s.power := h.2.1 _ hp
theorem id' (h : s.only ps as t) (hp : Part.id ∉ ps := by decide) : t.id = s.id := h.2.1 _ hp
theorem image' (h : s.only ps as t) (hp : Part.image ∉ ps := by decide) : t.image = s.image := h.2.1 _ hp
theorem mem' (h : s.only ps as t) (hp : Part.mem ∉ ps := by decide) : t.mem = s.mem := h.2.1 _ hp
theorem own' (h : s.only ps as t) (hp : Part.own ∉ ps := by decide) : t.own = s.own := h.2.1 _ hp
theorem eng' (h : s.only ps as t) (hp : Part.eng ∉ ps := by decide) : t.eng = s.eng := h.2.1 _ hp
theorem pool' (h : s.only ps as t) (hp : Part.pool ∉ ps := by decide) : t.pool = s.pool := h.2.1 _ hp
theorem topo' (h : s.only ps as t) (hp : Part.topo ∉ ps := by decide) : t.topo = s.topo := h.2.1 _ hp
theorem mgr' (h : s.only ps as t) (hp : Part.mgr ∉ ps := by decide) : t.mgr = s.mgr := h.2.1 _ hp
theorem que' (h : s.only ps as t) (hp : Part.que ∉ ps := by decide) : t.que = s.que := h.2.1 _ hp
theorem prot' (h : s.only ps as t) (hp : Part.prot ∉ ps := by decide) : t.prot = s.prot := h.2.1 _ hp
theorem fuse' (h : s.only ps as t) (hp : Part.fuse ∉ ps := by decide) : t.fuse = s.fuse := h.2.1 _ hp
theorem blaze' (h : s.only ps as t) (hp : Part.blaze ∉ ps := by decide) : t.flt.blaze = s.flt.blaze := h.2.1 _ hp
theorem notices' (h : s.only ps as t) (hp : Part.notices ∉ ps := by decide) : t.flt.notices = s.flt.notices := (h.2.1 _ hp).1
theorem bist' (h : s.only ps as t) (hp : Part.bist ∉ ps := by decide) : t.bist = s.bist := h.2.1 _ hp
theorem sensors' (h : s.only ps as t) (hp : Part.sensors ∉ ps := by decide) : t.sensors = s.sensors := h.2.1 _ hp
theorem draws' (h : s.only ps as t) (hp : Part.draws ∉ ps := by decide) : t.draws = s.draws := h.2.1 _ hp
theorem wait' (h : s.only ps as t) (hp : Part.effects ∉ ps := by decide) : t.regs.wait = s.regs.wait := (h.2.1 _ hp).2

theorem awake (h : s.only ps as t) (hp : Part.power ∉ ps := by decide) : t.awake = s.awake := by simp only [State.awake, h.power' hp]
theorem running (h : s.only ps as t) (hp : Part.power ∉ ps := by decide) : t.running = s.running := by simp only [State.running, h.power' hp]
theorem powered (h : s.only ps as t) (hp : Part.power ∉ ps := by decide) : t.powered = s.powered := by simp only [State.powered, h.power' hp]
theorem isManager (h : s.only ps as t) (hp : Part.id ∉ ps := by decide) : t.isManager = s.isManager := by simp only [State.isManager, h.id' hp]
theorem hostSide (h : s.only ps as t) (p : Port) (hp : Part.id ∉ ps := by decide) : t.hostSide p = s.hostSide p := by
  simp only [State.hostSide, h.isManager hp]

/-- Where nothing goes on, nothing does after a change of other parts. -/
theorem calm (h : s.only ps as t) (hs : s.calm) (h1 : Part.sent ∉ ps := by decide) (h3 : Part.que ∉ ps := by decide)
    (h4 : Part.prot ∉ ps := by decide) (h5 : Part.mgr ∉ ps := by decide) (h6 : Part.tiers ∉ ps := by decide)
    (h7 : Part.pool ∉ ps := by decide) : t.calm := by
  have he : t.engBusy = s.engBusy := by
    have : t.engTurns = s.engTurns := funext (fun k => by simp only [State.engTurns, h.tier k h6])
    rw [State.engBusy, State.engBusy, this]
  simp only [State.calm, State.groupBusy, State.copyBusy, h.inbox' h1, h.que' h3, h.prot' h4, h.mgr' h5, he, h.pool' h7]
  exact hs

/-- What stands still stays still. -/
theorem still (h : s.only ps as t) (hs : s.still) (h1 : Part.sent ∉ ps := by decide) (h2 : Part.effects ∉ ps := by decide)
    (h3 : Part.que ∉ ps := by decide) (h4 : Part.prot ∉ ps := by decide) (h5 : Part.mgr ∉ ps := by decide)
    (h6 : Part.tiers ∉ ps := by decide) (h7 : Part.pool ∉ ps := by decide) : t.still :=
  ⟨h.calm hs.1 h1 h3 h4 h5 h6 h7, by rw [h.wait' h2]; exact hs.2⟩

/-- What an event would be judged as depends on the fault windows, the tick and the configuration of its source alone. -/
theorem note (h : s.only ps as t) {src unit : Nat} (hn : s.noteOnly src unit) (ha : Reg.FAULT_SRC src ∉ as := by simp)
    (h1 : Part.faults ∉ ps := by decide) (h2 : Part.blaze ∉ ps := by decide) : t.noteOnly src unit := by
  have hc : t.faultClass src unit = s.faultClass src unit := by
    have hw (k : Nat) : t.faultWin src k = s.faultWin src k := by
      unfold State.faultWin
      rw [h.reg _ ha, h.tick', (h.2.1 _ h1).1]
    simp only [State.faultClass, hw]
  exact ⟨by rw [hc]; exact hn.1, by rw [h.blaze' h2]; exact hn.2⟩

end State.only

/-- A command that always completes: the frame of its effect is its own. -/
theorem State.completes_run {s : State} {c : Instr} {f : State → State} {ps : List Part} {as : List Nat} {P : State → Prop}
    (hc : exec c s = run f s) (ho : s.only ps as (f s)) (hP : P (s.carry (f s))) : s.completes c ps as P :=
  ⟨_, hc, hP, ho.carry⟩

theorem State.completes_local {s : State} {c : Instr} {f : State → State} {ps : List Part} {as : List Nat} {P : State → Prop}
    (hc : exec c s = local_ f s) (hw : (f s).regs.wait = []) (ho : s.only ps as (f s)) (hP : P (s.carry (f s))) : s.completes c ps as P :=
  ⟨_, hc.trans (local_none f s hw), hP, ho.carry⟩

theorem State.completes_always {s : State} {c : Instr} {f : State → State} {ps : List Part} {as : List Nat} {P : State → Prop}
    (hc : exec c s = always f s) (hs : (f s).still) (ho : s.only ps as (f s)) (hP : P (s.carry (f s))) : s.completes c ps as P :=
  ⟨_, hc.trans (always_still f s hs), hP, ho.carry⟩

theorem State.completes_access {s u : State} {c : Instr} {f : State → Option State} {ps : List Part} {as : List Nat} {P : State → Prop}
    (hc : exec c s = access f s) (hf : f s = some u) (hs : u.still) (ho : s.only ps as u) (hP : P (s.carry u)) : s.completes c ps as P :=
  ⟨_, hc.trans (access_some hf hs), hP, ho.carry⟩

end Sys2Proof.Machine
end

