-- ==== Sys2Proof/Laws/Net.lean ====
section
/-! SUPPORT. What sending and accepting messages, and the states of a port, may change. -/

set_option Elab.async false

namespace Sys2Proof.Machine
open Sys2Proof
open State.only (here)

/-! ### Messages -/

theorem State.take_only (p : Port) (cls nd : Nat) (s : State) : s.only [.ports, .counts] [] (s.take p cls nd) :=
  (here.modPort ..).bump ..

theorem State.airPass_only (h : Port) (s : State) : s.only [.ports] [] (s.airPass h) := by
  unfold State.airPass
  split
  · exact here
  · exact here.air _

theorem State.airTo_only (h : Port) (f : Option TxFill) (s : State) : s.only [.ports] [] (s.airTo h f) := by
  unfold State.airTo
  split
  · exact (State.airPass_only h s).air _
  · exact (State.airPass_only h s).air _

theorem State.airRow_only (p : Port) (hs : List Port) (out : List (Port × Nat × List WBlock)) (s : State) : s.only [.ports] [] (s.airRow p hs out) :=
  (here.air _).modPort ..

theorem State.layRow_only (p : Port) (bs : List WBlock) (s : State) : s.only [.ports] [] (s.layRow p bs) := by
  unfold State.layRow
  exact (here.loop _ (fun _ _ => State.airPass_only ..) _).step (State.airRow_only ..)

theorem State.sendState_only (p : Port) (s : State) : s.only [.ports] [] (s.sendState p) := by
  unfold State.sendState
  dsimp only
  split
  · exact State.airTo_only ..
  · split
    · exact (State.airTo_only ..).step (State.airRow_only ..)
    · exact ((State.airTo_only ..).air _).modPort ..

/-- Laying out frames changes nothing of a port but the row that it sends. -/
theorem State.airPass_port (h : Port) (s : State) (q : Port) : (s.airPass h).port q = s.port q := by
  unfold State.airPass
  split <;> rfl

theorem State.airTo_port (h : Port) (f : Option TxFill) (s : State) (q : Port) : (s.airTo h f).port q = s.port q := by
  unfold State.airTo
  split <;> exact State.airPass_port h s q

theorem State.airRow_port (p : Port) (hs : List Port) (out : List (Port × Nat × List WBlock)) (s : State) (q : Port) :
    { (s.airRow p hs out).port q with row := [] } = { s.port q with row := [] } := by
  unfold State.airRow
  by_cases e : q = p
  · subst e; rw [State.port_modPort]; rfl
  · rw [State.port_modPort_ne e]; rfl

theorem State.layRow_port (p : Port) (bs : List WBlock) (s : State) (q : Port) :
    { (s.layRow p bs).port q with row := [] } = { s.port q with row := [] } := by
  unfold State.layRow
  refine (State.airRow_port ..).trans ?_
  rw [forEach_same (·.port q) _ (fun _ _ => State.airPass_port ..)]

theorem State.sendState_ports (p : Port) (s : State) (q : Port) : { (s.sendState p).port q with row := [] } = { s.port q with row := [] } := by
  unfold State.sendState
  dsimp only
  split
  · rw [State.airTo_port]
  · split
    · rw [State.airRow_port, State.airTo_port]
    · by_cases e : q = p
      · subst e; rw [State.port_modPort]; exact congrArg (fun x : PortS => { x with row := [] }) (State.airTo_port ..)
      · rw [State.port_modPort_ne e]; exact congrArg (fun x : PortS => { x with row := [] }) (State.airTo_port ..)

/-- The frames of its state change nothing else of a port. -/
theorem State.sendState_port (p : Port) (s : State) : { (s.sendState p).port p with row := [] } = { s.port p with row := [] } :=
  State.sendState_ports p s p

theorem State.newTraining_only (p : Port) (s : State) : s.only [.ports] [] (s.newTraining p) := here.modPort ..

theorem State.emit_only (p : Port) (m : Msg) (s : State) : s.only [.ports, .sent, .counts] [] (s.emit p m) := by
  unfold State.emit State.sequence
  exact ((((here.modPort ..).modPort ..).step (State.layRow_only ..)).tx _).bump ..

theorem State.drain_only (p : Port) : ∀ (l : List Msg) (b : List Nat) (k : List Msg) (s : State), s.only [.ports, .sent, .counts] [] (s.drain p l b k)
  | [], _, _, _ => here.modPort ..
  | m :: r, b, k, s => by
    unfold State.drain
    dsimp only
    split
    · exact State.drain_only p r b k s
    · split
      · exact (State.emit_only p m s).trans (State.drain_only p r b k _)
      · exact State.drain_only p r _ _ s

theorem State.flush_only (p : Port) (s : State) : s.only [.ports, .sent, .counts] [] (s.flush p) := by
  unfold State.flush
  split
  · exact here
  · exact State.drain_only ..

theorem State.wakeHalf_only (p : Port) (s : State) : s.only [.ports] [] (s.wakeHalf p) := by
  unfold State.wakeHalf
  split
  · exact ((State.newTraining_only p s).modPort ..).step (State.sendState_only ..)
  · exact here

theorem State.wakePort_only (p : Port) (s : State) : s.only [.ports] [] (s.wakePort p) := here.loop _ (fun _ _ => State.wakeHalf_only ..) _

theorem State.exclude_only (c : Nat) (s : State) : s.only [.regs] [Reg.NDL_PATH_STATUS] (s.exclude c) := by
  unfold State.exclude
  split
  · exact here.raise ..
  · exact here

theorem State.hand_only (p : Port) (m : Msg) (s : State) : s.only [.ports, .sent, .counts, .regs] [Reg.NDL_PATH_STATUS] (s.hand p m) := by
  unfold State.hand
  have hc (t : State) : t.only [.ports, .sent, .counts, .regs] [Reg.NDL_PATH_STATUS]
      (if m.op.cls = 0 then (t.bump (portSlot p 38) 1).exclude m.h.sc.val else t.bump (portSlot p 38) 1) := by
    split
    · exact (here.bump ..).step (State.exclude_only ..)
    · exact here.bump ..
  have h0 := (here (s := s) (ps := [.ports, .sent, .counts, .regs]) (as := [Reg.NDL_PATH_STATUS])).cond_ (c := (s.port p).sleeping)
    (f := fun s => if m.op.cls = 0 then (s.bump (portSlot p 38) 1).exclude m.h.sc.val else s.bump (portSlot p 38) 1) (hc s)
  exact ((h0.step (State.wakePort_only p _)).modPort p (fun x => { x with wait := x.wait ++ [m] })).step (State.flush_only ..)

theorem State.hostWait_only (p : Port) (m : Msg) (s : State) : s.only [.counts, .regs] [Reg.NDL_PATH_STATUS] (s.hostWait p m) := by
  unfold State.hostWait
  split
  · split
    · exact (here.bump ..).step (State.exclude_only ..)
    · exact here.bump ..
  · exact here

theorem State.sendOn_only (p : Port) (m : Msg) (s : State) :
    s.only [.ports, .sent, .counts, .regs] [Reg.NDL_PATH_STATUS] (s.sendOn p m) := by
  unfold State.sendOn
  split
  · exact here
  · exact (State.hand_only p m s).step (State.hostWait_only ..)

theorem State.route_only (o : Option Port) (m : Msg) (s : State) :
    s.only [.ports, .sent, .counts, .regs] [Reg.NDL_PATH_STATUS] (s.route o m) := by
  unfold State.route
  split
  · split
    · exact State.sendOn_only ..
    · exact State.sendOn_only ..
  · split
    · exact here.inbox _
    · split
      · exact State.sendOn_only ..
      · exact State.sendOn_only ..

theorem State.reply_only (o : Option Port) (m : Msg) (s : State) :
    s.only [.ports, .sent, .counts, .regs] [Reg.NDL_PATH_STATUS] (s.reply o m) := by
  unfold State.reply
  split
  · exact State.sendOn_only ..
  · exact State.route_only ..

/-! ### Notices that leave -/

theorem State.hostNotice_only (n : NoticeS) (s : State) : s.only [.notices, .counts, .regs] [Reg.NDL_STATUS] (s.hostNotice n) := by
  unfold State.hostNotice
  split
  · exact (here.bump ..).raise ..
  · split
    · exact (here.hostNtc _).bump ..
    · exact here.hostNtc _

theorem State.noticeFor_only (d n sev : Nat) (pl : List Byte) (s : State) : s.only [.notices, .counts, .regs] [Reg.NDL_STATUS] (s.noticeFor d n sev pl) := by
  unfold State.noticeFor
  dsimp only
  exact (here.devNseq _).step (State.hostNotice_only ..)

theorem State.ntcFlush_only : ∀ (n : Nat) (s : State), s.only [.ports, .sent, .counts, .regs, .notices] [Reg.NDL_PATH_STATUS] (s.ntcFlush n)
  | 0, _ => here
  | n + 1, s => by
    unfold State.ntcFlush
    split
    · split
      · exact here
      · exact ((here.hostNtc _).step (State.sendOn_only ..)).trans (State.ntcFlush_only n _)
    · exact here

theorem State.ntcLeave_only (n : Nat) (s : State) :
    s.only [.ports, .sent, .counts, .regs, .notices] [Reg.NDL_PATH_STATUS, Reg.NDL_STATUS] (s.ntcLeave n) := by
  unfold State.ntcLeave
  split
  · exact here
  · split
    · exact ((here.notices _).step (State.hostNotice_only ..)).step (State.ntcFlush_only ..)
    · split
      · exact (here.notices _).step (State.sendOn_only ..)
      · exact here.notices _

theorem State.ntcRetry_only (s : State) :
    s.only [.ports, .sent, .counts, .regs, .notices] [Reg.NDL_PATH_STATUS, Reg.NDL_STATUS] s.ntcRetry := by
  unfold State.ntcRetry
  dsimp only
  have h := (State.only.loop (ps := [.ports, .sent, .counts, .regs, .notices]) (as := [Reg.NDL_PATH_STATUS, Reg.NDL_STATUS])
    (fun n => State.ntcLeave n.1) (fun n t => State.ntcLeave_only n.1 t) (s.flt.notices.filter (fun n => n.2.due)) (here (s := s))).step
    (State.ntcFlush_only 2048 _)
  split
  · exact h
  · exact h.cond ..

@[simp] theorem sortBy_nil {α : Type} (le : α → α → Bool) : sortBy le [] = [] := rfl

/-- R130: nothing leaves where no notice waits. -/
theorem State.ntcFlush_empty (n : Nat) (s : State) (h : s.flt.hostNtc = []) : s.ntcFlush n = s := by
  cases n with
  | zero => rfl
  | succ n =>
    unfold State.ntcFlush
    split
    · simp [h]
    · rfl

theorem State.ntcRetry_quiet (s : State) (h : s.flt.notices.any (fun n => n.2.due) = false) (hh : s.flt.hostNtc = []) :
    s.ntcRetry = s.cond Reg.NDL_STATUS F.NDL_STATUS_NTC_BACKLOG false := by
  have hf : s.flt.notices.filter (fun n => n.2.due) = [] := by
    rw [List.filter_eq_nil_iff]
    exact fun a ha => by simpa using List.any_eq_false.1 h a ha
  unfold State.ntcRetry
  dsimp only
  rw [hf, forEach_nil, State.ntcFlush_empty _ _ hh, h, hh]
  simp

/-- A port that nothing waits at sends nothing. -/
theorem State.flush_empty (p : Port) (s : State) (h : (s.port p).wait = []) (ho : (s.port p).owes = false) :
    s.flush p = s.modPort p (fun x => { x with wait := [] }) := by
  rw [State.flush, State.muted, ho, h]; rfl

/-! ### Acceptance (R99 to R101, R121) -/

/-- A message that its port takes is accepted. -/
theorem State.accept_takes {s : State} {p : Port} {op : MOp} {nd : Nat} (h : s.takes p op nd) : s.accept p op nd true = (s.take p op.cls nd, true) := by
  obtain ⟨h1, h2, h3, h4, h5, h6, -⟩ := h
  unfold State.accept
  simp [h1, h2, h3, h4, h5]
  intro a b
  have := h6 a
  omega

/-! ### States of a port -/

theorem State.linkFlags_only (p : Port) (s : State) : s.only [.regs, .notices, .counts] [Reg.LINK_STATUS p] (s.linkFlags p) := by
  unfold State.linkFlags
  dsimp only
  split
  · exact here
  · exact (((here.cond ..).cond ..).cond ..).notice ..

theorem State.portFlags_only (p : Port) (s : State) :
    s.only [.regs, .notices, .counts] [Reg.LINK_STATUS p, Reg.LINK_STATUS (otherHalf p), Reg.NDL_STATUS] (s.portFlags p) := by
  unfold State.portFlags
  dsimp only
  have h := (here (s := s) (ps := [.regs, .notices, .counts])
    (as := [Reg.LINK_STATUS p, Reg.LINK_STATUS (otherHalf p), Reg.NDL_STATUS])).step (State.linkFlags_only p s)
  split
  · exact (h.step (State.linkFlags_only (otherHalf p) _)).cond ..
  · exact h

theorem State.leaveBond_only (p : Port) (s : State) : s.only [.ports] [] (s.leaveBond p) := by
  unfold State.leaveBond
  split
  · exact here
  · split
    · exact here.modPort ..
    · dsimp only
      split
      · exact ((here.modPort ..).modPort ..).modPort ..
      · exact here.modPort ..

theorem State.prbsCount_none (p : Port) (s : State) (h : (s.port p).tstate ≠ .prbs) : s.prbsCount p = s := by
  simp [State.prbsCount, State.prbsChecks, h]

theorem State.leaveActive_only (p : Port) (e : Bool) (s : State) (hx : (s.port p).tstate ≠ .prbs) :
    s.only [.regs, .ports] [Reg.LINK_STATUS p] (s.leaveActive p e) := by
  unfold State.leaveActive
  rw [State.prbsCount_none p s hx]
  dsimp only
  split
  · exact here
  · exact (here.raiseIf ..).step (State.leaveBond_only ..)

theorem State.hunt_only (p : Port) (full : Bool) (s : State) (hx : (s.port p).tstate ≠ .prbs) : s.only portParts (portRegs p) (s.hunt p full) := by
  unfold State.hunt
  exact (((here.step (State.leaveActive_only p true s hx)).modPort ..).step (State.sendState_only ..)).step (State.portFlags_only ..)

theorem State.train_only (p : Port) (full : Bool) (s : State) (hx : (s.port p).tstate ≠ .prbs) : s.only portParts (portRegs p) (s.train p full) := by
  unfold State.train
  exact (here.step (State.newTraining_only p s)).trans (State.hunt_only _ _ _ (by rw [State.newTraining, State.port_modPort]; exact hx))

theorem State.freshHunt_only (p : Port) (s : State) (hx : (s.port p).tstate ≠ .prbs) : s.only portParts (portRegs p) (s.freshHunt p) := by
  unfold State.freshHunt
  exact (here.modPort ..).trans (State.train_only _ _ _ (by rw [State.port_modPort]; exact hx))

theorem State.goDown_only (p : Port) (s : State) (hx : (s.port p).tstate ≠ .prbs) : s.only portParts (portRegs p) (s.goDown p) := by
  unfold State.goDown
  exact (((here.step (State.leaveActive_only p true s hx)).modPort ..).step (State.sendState_only ..)).step (State.portFlags_only ..)

theorem State.goOff_only (p : Port) (s : State) (hx : (s.port p).tstate ≠ .prbs) : s.only portParts (portRegs p) (s.goOff p) := by
  unfold State.goOff
  exact (((here.step (State.leaveActive_only p true s hx)).modPort ..).step (State.sendState_only ..)).step (State.portFlags_only ..)

theorem State.relock_only (p : Port) (s : State) (hx : (s.port p).tstate ≠ .prbs) : s.only portParts (portRegs p) (s.relock p) := by
  unfold State.relock
  exact ((State.train_only p _ s hx).raise ..).bump ..

theorem State.startPort_only (p : Port) (s : State) : s.only portParts (portRegs p) (s.startPort p) := by
  unfold State.startPort
  split
  · rename_i h
    simp only [Bool.and_eq_true, beq_iff_eq] at h
    exact State.freshHunt_only p s (by rw [h.2]; decide)
  · exact here

theorem State.capSent_only (p : Port) (s : State) : s.only [.ports] [] (s.capSent p) :=
  (here.modPort ..).trans (State.sendState_only ..)

theorem State.enterCap_only (p : Port) (s : State) : s.only [.ports] [] (s.enterCap p) := by
  unfold State.enterCap
  exact (here.modPort ..).trans (State.capSent_only ..)

theorem State.leave_only (p : Port) (m : Msg) (s : State) : s.only [.sent, .ports] [] (s.leave p m) := by
  unfold State.leave
  refine State.only.step ?_ (State.layRow_only ..)
  split
  · exact here
  · exact here.tx _

theorem State.leaveAll_only (p : Port) (rows : List (Nat × Msg)) (s : State) : s.only [.sent, .ports] [] (s.leaveAll p rows) :=
  here.loop _ (fun _ _ => State.leave_only ..) rows

theorem State.marker_only (p : Port) (op : MOp) (q : Nat) (s : State) : s.only [.sent, .ports] [] (s.marker p op q) := State.leave_only ..

/-- R67: where the port keeps no host traffic for its other half, leaving ACTIVE changes no port. -/
theorem State.leaveActive_port (p : Port) (e : Bool) (s : State) (h : s.hostSide p = false) (hx : (s.port p).tstate ≠ .prbs) (q : Port) :
    (s.leaveActive p e).port q = s.port q := by
  unfold State.leaveActive
  rw [State.prbsCount_none p s hx]
  dsimp only
  have hr := (here (s := s) (ps := [.regs]) (as := [Reg.LINK_STATUS p])).raiseIf e (Reg.LINK_STATUS p) F.LINK_STATUS_DOWN_EVT
  split
  · rfl
  · rw [State.leaveBond, hr.hostSide p, h]
    exact hr.port q

/-- An event of a port of a device whose clocks run. -/
theorem State.completes_port {s : State} {c : Instr} {f : State → State} {ps : List Part} {as : List Nat} {P : State → Prop}
    (ha : s.awake = true) (hw : s.regs.wait = [])
    (hc : exec c s = onPort f s) (ho : s.only ps as (f s)) (he : Part.effects ∉ ps) (hP : P (s.carry (f s))) : s.completes c ps as P := by
  refine State.completes_local (f := whenAwake f) hc ?_ ?_ ?_
  · rw [whenAwake_true f s ha, ho.wait' he, hw]
  · rw [whenAwake_true f s ha]; exact ho
  · rw [whenAwake_true f s ha]; exact hP

/-- A port that hunts. -/
theorem State.hunt_port (s : State) (p : Port) (full : Bool) : ((s.hunt p full).port p).tstate = (if full then .huntFull else .huntHalf) ∧
    ((s.hunt p full).port p).full = full ∧ ((s.hunt p full).port p).gotCap = false ∧ ((s.hunt p full).port p).stepping = false ∧
    ((s.hunt p full).port p).locked = [] := by
  unfold State.hunt
  rw [(State.portFlags_only p _).port p]
  have h := State.sendState_port p ((s.leaveActive p true).modPort p (PortS.hunting full))
  rw [State.port_modPort] at h
  refine ⟨congrArg PortS.tstate h, congrArg PortS.full h, congrArg PortS.gotCap h, congrArg PortS.stepping h, (congrArg PortS.locked h).trans ?_⟩
  simp only [PortS.locked, PortS.hunting, List.filter_eq_nil_iff, AMap.mapVal, List.mem_map]
  rintro _ ⟨a, -, rfl⟩
  simp

/-- A port that begins a new training hunts. -/
theorem State.train_port (s : State) (p : Port) (full : Bool) : ((s.train p full).port p).tstate = (if full then .huntFull else .huntHalf) ∧
    ((s.train p full).port p).full = full ∧ ((s.train p full).port p).gotCap = false ∧ ((s.train p full).port p).stepping = false ∧
    ((s.train p full).port p).locked = [] := State.hunt_port ..

theorem State.relock_port (s : State) (p : Port) : (s.relock p).port p = (s.train p (s.port p).full).port p := by
  unfold State.relock
  have h : (s.train p (s.port p).full).only [.regs, .counts] [Reg.LINK_STATUS p] (((s.train p (s.port p).full).raise (Reg.LINK_STATUS p) F.LINK_STATUS_RETRAIN).bump (portSlot p 34) 1) :=
    (here.raise ..).bump ..
  exact h.port p

theorem State.relock_flag (s : State) (p : Port) : (s.relock p).fld (Reg.LINK_STATUS p) F.LINK_STATUS_RETRAIN = 1 := by
  unfold State.relock
  rw [State.fld_bump]
  exact State.fld_raise _ _ (by decide) _

/-! ### A link that comes up -/

theorem State.resumeRows_only (p : Port) (x : PortS) (s : State) :
    s.only [.ports, .sent, .regs, .counts] [Reg.NDL_PATH_STATUS] (s.resumeRows p x) := by
  unfold State.resumeRows
  exact (((here.setPort _ _).step (State.leaveAll_only ..)).cond_ (here.bump ..)).cond_ (here.step (State.exclude_only ..))

/-- R90, R120: a link toward a partner that was never met begins anew. -/
theorem State.freshLink_only (p : Port) (x : PortS) (s : State) (h : (s.upBase p).partner = none) :
    s.only [.ports, .regs] [Reg.LINK_STATUS p] (s.freshLink p x) := by
  unfold State.freshLink
  dsimp only
  rw [h]
  exact here.setPort _ _

/-- What sending leaves of a port: everything but its sequence, buffers, credits and count. -/
def PortS.unsent (x : PortS) : PortS := { x with txSeq := 0, buffer := [], held := {}, sent := 0, wait := [], row := [] }

theorem PortS.unsent_row {x y : PortS} (h : { x with row := [] } = { y with row := [] }) : x.unsent = y.unsent := by
  have e := congrArg PortS.unsent h
  exact e

theorem State.sequence_port (p : Port) (m : Msg) (s : State) (q : Port) : ((s.sequence p m).port q).unsent = (s.port q).unsent := by
  unfold State.sequence
  rw [PortS.unsent_row (State.layRow_port ..)]
  by_cases e : q = p
  · subst e; rw [State.port_modPort]; rfl
  · rw [State.port_modPort_ne e]

theorem State.emit_port (p : Port) (m : Msg) (s : State) (q : Port) : ((s.emit p m).port q).unsent = (s.port q).unsent := by
  unfold State.emit
  refine (State.sequence_port p m _ q).trans ?_
  by_cases e : q = p
  · subst e; rw [State.port_modPort]; rfl
  · rw [State.port_modPort_ne e]

theorem State.drain_port (p : Port) (q : Port) : ∀ (l : List Msg) (b : List Nat) (k : List Msg) (s : State),
    ((s.drain p l b k).port q).unsent = (s.port q).unsent
  | [], _, k, s => by
    unfold State.drain
    by_cases e : q = p
    · subst e; rw [State.port_modPort]; rfl
    · rw [State.port_modPort_ne e]
  | m :: r, b, k, s => by
    unfold State.drain
    dsimp only
    split
    · exact State.drain_port p q r b k s
    · split
      · exact (State.drain_port p q r b k _).trans (State.emit_port p m s q)
      · exact State.drain_port p q r _ _ s

theorem State.flush_port (p : Port) (s : State) (q : Port) : ((s.flush p).port q).unsent = (s.port q).unsent := by
  unfold State.flush
  split
  · rfl
  · exact State.drain_port ..

theorem State.linkFlags_up (p : Port) (s : State) : (s.linkFlags p).fld (Reg.LINK_STATUS p) F.LINK_STATUS_UP = b2n (s.portUp p) := by
  unfold State.linkFlags
  dsimp only
  split
  · rename_i h; exact h.1
  · rw [State.fld_notice]
    have h1 (a : Nat) (c : Bool) (t : State) : (t.cond a F.LINK_STATUS_RESCUE c).fld a F.LINK_STATUS_UP = t.fld a F.LINK_STATUS_UP :=
      State.fld_cond_apart a _ _ (by decide) (by decide) (by decide) c t
    have h2 (a : Nat) (c : Bool) (t : State) : (t.cond a F.LINK_STATUS_DEGRADED c).fld a F.LINK_STATUS_UP = t.fld a F.LINK_STATUS_UP :=
      State.fld_cond_apart a _ _ (by decide) (by decide) (by decide) c t
    rw [h1, h2, State.fld_cond _ _ (by decide)]

theorem State.portFlags_up (p : Port) (s : State) : (s.portFlags p).fld (Reg.LINK_STATUS p) F.LINK_STATUS_UP = b2n (s.portUp p) := by
  unfold State.portFlags
  dsimp only
  split
  · rename_i h
    rw [((here (s := (s.linkFlags p).linkFlags (otherHalf p)) (ps := [.regs]) (as := [Reg.NDL_STATUS])).cond ..).fld (Reg.LINK_STATUS p) _
        (by cases p <;> decide),
      (State.linkFlags_only (otherHalf p) _).fld (Reg.LINK_STATUS p) _ ?_, State.linkFlags_up]
    have h' : s.hostSide p = true := by rwa [(State.linkFlags_only p s).hostSide p] at h
    simp only [State.hostSide, Bool.and_eq_true, Bool.or_eq_true, beq_iff_eq] at h'
    rcases h'.2 with e | e <;> subst e <;> decide
  · exact State.linkFlags_up p s

end Sys2Proof.Machine
end

