-- ==== Sys2Proof/Laws/Chan.lean ====
section
/-! SUPPORT. What channels, tiers and the stages of heat and power may change. -/

set_option Elab.async false

namespace Sys2Proof.Machine
open Sys2Proof
open State.only (here)

theorem State.chFlags_only (n : Nat) (s : State) : s.only [.regs] [Reg.CH_STATUS n] (s.chFlags n) := by
  unfold State.chFlags
  exact ((((here.cond ..).cond ..).cond ..).cond ..).cond ..

theorem State.tallyChan_only (n : Nat) (s : State) : s.only [.chans, .counts] [] (s.tallyChan n) := by
  unfold State.tallyChan
  exact ((here.modChan ..).bump ..).bump ..

theorem State.startSrExit_only (n : Nat) (s : State) : s.only [.chans, .counts, .regs] [Reg.CH_STATUS n] (s.startSrExit n) := by
  unfold State.startSrExit
  split
  · exact ((here.step (State.tallyChan_only n s)).modChan _ _).step (State.chFlags_only ..)
  · exact here

theorem State.closeRows_only (n : Nat) (s : State) : s.only [.pcs] [] (s.closeRows n) := by
  unfold State.closeRows
  exact (here.modPc ..).modPc ..

theorem State.srIssue_only (n : Nat) (s : State) : s.only [.chans, .counts, .regs] [Reg.CH_STATUS n] (s.srIssue n) := by
  unfold State.srIssue
  exact ((here.modChan ..).bump ..).step (State.chFlags_only ..)

theorem State.enterSr_only (n : Nat) (s : State) : s.only [.chans, .pcs, .regs] [Reg.CH_STATUS n] (s.enterSr n) := by
  unfold State.enterSr
  dsimp only
  split
  · exact here
  · exact ((here.step (State.closeRows_only n s)).modChan ..).step (State.chFlags_only ..)

theorem State.stage3Flag_only (s : State) : s.only [.regs] [Reg.SVC_STATUS] s.stage3Flag := by
  unfold State.stage3Flag
  exact here.cond ..

theorem State.thermFlags_only (s : State) : s.only [.power, .regs] [Reg.SVC_STATUS, Reg.THERM_STATUS] s.thermFlags := by
  unfold State.thermFlags
  dsimp only
  exact ((((here.power _).step (State.stage3Flag_only _)).cond ..).cond ..).cond ..

theorem State.poolFlags_only (s : State) : s.only [.regs] [Reg.NDL_LINE_STATUS] s.poolFlags := by
  unfold State.poolFlags
  exact ((here.cond ..).cond ..).cond ..

theorem State.pllFlags_only (s : State) : s.only [.regs] [Reg.CLK_STATUS] s.pllFlags := by
  unfold State.pllFlags
  exact (here.cond ..).cond ..

theorem State.blazeFlags_only (s : State) : s.only [.regs] [Reg.BLAZE_STATUS] s.blazeFlags := by
  unfold State.blazeFlags
  exact (here.cond ..).cond ..

theorem State.blazeFreeze_only (s : State) : s.only [.blaze, .regs] [Reg.BLAZE_STATUS] s.blazeFreeze := by
  unfold State.blazeFreeze
  split
  · exact (here.blaze _).step (State.blazeFlags_only _)
  · split
    · exact (here.blaze _).step (State.blazeFlags_only _)
    · exact here.step (State.blazeFlags_only _)

end Sys2Proof.Machine
end

