-- ==== Sys2Proof/Laws/Mem.lean ====
section
/-! SUPPORT. The array: every operation that writes it (a line's bytes, an initialisation) keeps its canonical form `memWf`. -/

set_option Elab.async false

namespace Sys2Proof.Machine
open Sys2Proof

/-- A byte set keeps the canonical form: zero, which an unlisted byte reads as, is not listed. -/
theorem memWf_set {m : List Host.Cell} (k : Nat) (b : Byte) (h : memWf m = true) : memWf (AMap.set k 0 b m) = true := by
  simp only [memWf, Bool.and_eq_true, List.all_eq_true] at h ⊢
  obtain ⟨hr, ha⟩ := h
  unfold AMap.set
  split
  · exact ⟨AMap.rising_del k m hr, fun e he => ha e (AMap.mem_del he)⟩
  · rename_i hb
    refine ⟨AMap.rising_put b (Nat.zero_le k) m hr, fun e he => ?_⟩
    rcases AMap.mem_put he with rfl | he
    · simpa using hb
    · exact ha e he

/-- A run of bytes keeps it. -/
theorem memWf_storeBytes (l : List Byte) : ∀ (k : Nat) (m : List Host.Cell), memWf m = true → memWf (storeBytes k l m) = true := by
  induction l with
  | nil => exact fun _ _ h => h
  | cons b r ih => exact fun k m h => ih (k + 1) _ (memWf_set k b h)

/-- Rising keys stay so when entries are left out. -/
theorem rising_filter (q : Host.Cell → Bool) : ∀ (m : List Host.Cell) (lo : Nat), AMap.rising lo m = true → AMap.rising lo (m.filter q) = true := by
  intro m
  induction m with
  | nil => exact fun _ h => h
  | cons e r ih =>
    obtain ⟨k, v⟩ := e
    intro lo h
    simp only [AMap.rising, Bool.and_eq_true, decide_eq_true_eq] at h
    simp only [List.filter_cons]
    split
    · simp only [AMap.rising, Bool.and_eq_true, decide_eq_true_eq]
      exact ⟨h.1, ih _ h.2⟩
    · exact AMap.rising_mono (Nat.le_succ_of_le h.1) _ (ih _ h.2)

/-- R141: a line's write keeps it. -/
theorem memWf_setLine (p : Place) (d : List Byte) (md : Nat) (s : State) (h : memWf s.mem.dram = true) :
    memWf (s.setLine p d md).mem.dram = true :=
  memWf_storeBytes _ _ _ h

/-- R148: an initialisation keeps it. -/
theorem memWf_fill (f : FillSel) (w : Nat) (s : State) (h : memWf s.mem.dram = true) : memWf (s.fill f w).mem.dram = true := by
  simp only [memWf, Bool.and_eq_true, List.all_eq_true] at h ⊢
  exact ⟨rising_filter _ _ _ h.1, fun e he => h.2 e (List.mem_of_mem_filter he)⟩

end Sys2Proof.Machine
end

