-- ==== Sys2Proof/Tests/Slice0.lean ====
section
/-! SUPPORT. Tests: ill-formed commands are refused by `Instr.wf`; single steps against values worked out from the manual; and for every
statement with hypotheses a state and operands that meet them together, clause by clause. -/

set_option Elab.async false
set_option linter.unusedVariables false

namespace Sys2Proof.Tests
open Sys2Proof Sys2Proof.Machine

/-! ### States -/

def chansUp : AMap ChanS := (List.range 32).map (fun n => (n, { pstate := .active }))
/-- A running device of a role. -/
def upR (role : Fin 4) : State :=
  { State.reset with id.role := role.val, power.phase := .running, power.resetLow := false, power.cold := false, power.memTested := true,
                     power.lockOpen := false, power.pll := true, power.fw := 2, power.healthy := true, stack.chans := chansUp, now := 5000, tick := 50 }
def cr : Credits := { hdr := [50, 50, 50, 50, 50, 50, 50], dat := [100, 100, 100] }
def pa : PortS := { tstate := .active, version := 2, held := cr, granted := cr, width := 8, full := true }
/-- A worker of number 5, and one that serves class 5. -/
def dev : State := (((upR 0).setPort .e pa).setPort .w pa).setReg Reg.IDENT_DEVNUM 0x45
def own : State := dev.setReg (Reg.SVC_LIMIT 5) 8
/-- A manager, without and with devices 5 and 6. -/
def mgr : State := ((((upR 2).setPort .e pa).setPort .w pa).setPort .ca pa).setReg (Reg.SVC_LIMIT 5) 8
def ents (l : List Nat) : AMap TopoE :=
  l.map (fun n => (n, { w0 := F.TOPO_ENT_W0_VALID.mask ||| (if n % 2 == 1 then F.TOPO_ENT_W0_ROUTE.mask else 0) }))
def m0 : State := { mgr with topo.ents := ents [0, 5, 6] }
def H (p : Port) (nd : Nat) (src dst : Fin 64) (sh : Bool) : Hdr :=
  { port := p, ndata := nd, sc := 5, tag := 0, src := src, srcHost := sh, dst := dst, dstHost := false, agent := .switch, flags := 0 }
def ad (k d l : Nat) : BitVec 64 := BitVec.ofNat 64 (mkAddr k d l)
def kk : KeyS := { state := 1, kData := List.replicate 32 7, kTweak := List.replicate 32 8, kTag := List.replicate 32 9 }
/-- The manager with a key and a protected range of device 5. -/
def m1 : State := { m0 with prot.maps := [(5 * 256, [2 ^ 31 + 2 ^ 28, 2 ^ 16 * 3, 1 + 2 ^ 12 * 9, 7])], prot.keys := [(1, kk)] }
def hostMsg (op : Nat) (a : BitVec 64) : Instr :=
  match op with
  | 0 => .rd64 (H .ca 0 0 0 true) a
  | 1 => .rd128 (H .ca 0 0 0 true) a
  | 2 => .wr64 (H .ca 2 0 0 true) a (List.replicate 64 5)
  | _ => .wr128 (H .ca 4 0 0 true) a (List.replicate 128 6) 0
def msgOf (i : Instr) : Msg := (messageOf i).getD { op := .pwr, h := H .ca 0 0 0 true }
def reqOf (i : Instr) (d kid : Nat) (prot : Bool) : MReq :=
  { m := msgOf i, dev := d, line := 0x80, kid := kid, prot := prot, sc := 5, time := 5000, limit := 50, purpose := .host }
/-- The manager with a class at its limit to device 5. -/
def limS : State :=
  { m1.setReg (Reg.SVC_LIMIT 5) 1 with mgr.reqs := (List.range 65).map (fun k => (k + 1, reqOf (hostMsg 1 (ad 0 5 0x8000)) 5 0 false)) }
/-- A device that starts. -/
def st (role : Fin 4) : State :=
  { upR role with power := { (upR role).power with phase := .starting, sensed := 2 ^ 21 - 1, fw := 0, items := 6, cold := true, lockOpen := true,
                                                   memTested := false, healthy := false }, stack.chans := [] }
def good : TestResult := { tested := 5, failing := [], train := [], pins := [] }
def port (x : PortS) : State := (upR 2).setPort .e x
def lanes4 : AMap LaneS := (List.range 4).map (fun k => (k, { lock := true, peer := k }))
/-- A good frame: five data blocks of zero payload; its check symbols come from a division by hand of R72's generator. -/
def frame : List Nat :=
  (List.range 129).map (fun i => if i = 0 then 512 else if i = 25 then 2 else if i = 51 then 8 else if i = 77 then 32 else if i = 103 then 128 else 0) ++
  [917, 200, 45, 499, 415, 142, 787, 555]
def levels : List Nat := grayLevels (symBits frame)
def rowF : List (Nat × List Nat) := (List.range 4).map (fun k => (k, levels))
def capL : List Byte := [0x82, 0, 7, 0, 0xF] ++ zeros 27
def capR : List Byte := let x : List Byte := [0x82, 0, 7, 3, 0xFF] ++ zeros 23; x ++ leBytes 4 (crc32c x)
/-- What the frames of `rowF` are, in order of the lanes. -/
def rowL : List FrameS :=
  let s := (upR 2).setPort .e { pa with lanes := lanes4, ownCap := capL, width := 4 }
  ((s.rowErrors (rowF.filterMap (s.frameRx .e))).rowTraffic .e (rowF.filterMap (s.frameRx .e))).getD []
def capB : List Byte := let x : List Byte := [0x82, 0, 7, 0, 0xFF] ++ zeros 23; x ++ leBytes 4 (crc32c x)
def branch (n : Nat) : DevRec := { role := 1, gen232 := false, serial := BitVec.ofNat 64 n, userGib := 94, links := 0, into := .w }
def ring : WalkRec := { closed := true, east := [⟨branch 10, [], []⟩, ⟨branch 11, [], []⟩], west := [] }
def e0 : State := { (mgr.setFld Reg.TOPO_STATUS F.TOPO_STATUS_ENUM_DONE 1) with topo.ents := [(2, { (({ w0 := 1, serial := 11 } : TopoE).place 1 0 1 0) with fw := 2 })] }
/-- The register row of an address. -/
def rowOf (s : State) (a : Nat) : Block × Nat × RegRow :=
  match s.resolve a with
  | .ok x => x
  | .error _ => (.none, 0, ⟨"", 0, 0, 0, false, []⟩)
def mbxS (w : Word) : State := (upR 2).setReg (mbxReg .i3c Reg.MBX_SEL) w
def tst : State := (upR 3).setReg Reg.TESTWIN_LINE 77
def mapJ : MapJob := { dev := 0, entry := 3, old := [0, 0, 0, 0], new := [1, 0x30003, 0, 0], init := true, sent := true }
def qd : List Byte := List.replicate 64 1 ++ List.replicate 64 2
/-- A number that differs from another. -/
def other : Nat → Nat
  | 0 => 1
  | _ + 1 => 0
theorem other_ne (n : Nat) : n ≠ other n := by
  cases n <;> simp [other]
/-- A device whose tiers have run. -/
def bu : State := { own with stack.tiers := (List.range 4).map (fun k => (k, { built := true, drbg := true })) }
def pl : Place := own.linePlace 0x80
def k0 : Fin 64 := Fin.ofNat 64 pl.pc
def acc (wr : Option (List Byte × Nat)) : Acc :=
  { id := 1, place := pl, wr := wr, sc := 5, firm := false, origin := .done, time := 5000 }
/-- The owner with a bank queue that takes no more. -/
def fullBank : State :=
  own.modBank (own.linePlace (lineIx 0x12380)).pc (own.linePlace (lineIx 0x12380)).pos (fun b => { b with debt := Config.REF_DEBT_MAX, paying := true })
def bankS (a : Acc) (row : Option Nat) : State :=
  { bu.modBank pl.pc pl.pos (fun b => { b with queue := [a], row := row }) with now := 9000, tick := 90 }
def picked (s : State) (col : Bool) : Nat × Acc × Option (Bool × List Nat × Nat) :=
  ((s.relevel (k0.val / 2)).pick k0.val col).getD (0, acc none, none)
theorem picked_eq (s : State) (col : Bool) (h : ((s.relevel (k0.val / 2)).pick k0.val col).isSome = true) :
    (s.relevel (k0.val / 2)).pick k0.val col = some ((picked s col).1, (picked s col).2.1, (picked s col).2.2) := by
  unfold picked
  generalize (s.relevel (k0.val / 2)).pick k0.val col = o at h ⊢
  cases o with
  | none => simp at h
  | some x => rfl
def rdReq : OReq :=
  { m := msgOf (.rd128 (H .e 0 0 5 true) (ad 0 5 0x4000)), from? := some .e, line := 0x80, kid := 0, prot := false, sc := 5, time := 5000, stage := .reading }
def burst : Burst := { acc := { acc none with origin := .req 1 }, data := qd, md := mdWord 1 false 0 }
def burstS : State := { bu with stack.bursts := [(1, burst)], own.reqs := [(1, rdReq)] }
def bad20 : List (Nat × Byte) := (List.range 20).map (fun k => (k * 7, 3))
/-- Descriptors: opcode and flags, source, destination, length, auxiliary words. -/
def dW (opc fl src dst len a0 a1 : Nat) : List Nat :=
  [opc + 2 ^ 8 + fl * 2 ^ 16, 5, src % 2 ^ 32, src / 2 ^ 32, dst % 2 ^ 32, dst / 2 ^ 32, len, 9, a0, a1, 0, 0, 0, 0, 0, 0]
def dA (l : Nat) : Nat := mkAddr 0 5 l
def mkD (w : List Nat) : DescS := { q := 3, i := 2, order := 1, words := w, stage := .ready }
def ctxOf (st infl : Nat) : List Nat := [2 ^ 12, 0, 6 + 2 ^ 8 + 2 ^ 25, 3 * 2 ^ 16, 2 ^ 14, 0, 8, 1 + 4096 * 9, 70, 71, 37, 0, st + 2 ^ 8 * infl, 0, 0, 0]
def Q (w : List Nat) : State := { m0 with que.descs := [mkD w], que.ctx := [(3, ctxOf 1 1)] }
def run (w : List Nat) (j : JobS) : State := { Q w with que.descs := [{ mkD w with stage := .running }], que.job := some j }
def qs (st infl : Nat) : State := { m0.setReg Reg.QCTX_SEL 3 with que.ctx := [(3, ctxOf st infl)] }
def ge : EngHdr := { queue := 3, dseq := 5, index := 0, epoch := 0, part := 2, status := 0 }
def wF : List Nat := dW 2 0 0 (dA 0x4000) 128 0 0
def kF : Nat := engTier 0x80
def shard (w : List Nat) (home : Nat) : ShardS := { g := ge, dev := 5, home := home, phaseB := false, relay := false, desc := w, sc := 5, firm := false }
def runs (k : Nat) (sh : ShardS) : State := dev.modTier k (fun t => { t with run := some sh })
def slU : Nat × Nat × Nat × Nat := (0x80, 0, 128, 0)
/-- No engine of this device is left. -/
def noEng (k : Nat) (sh : ShardS) : State := (List.range 4).foldl (fun s t => s.modTier t (fun x => { x with excluded := true })) (runs k sh)
def sm : ShardM := { dev := 5, tier := kF, sent := true }
def dR (x : ShardM) : DescS := { mkD wF with stage := .running, shards := [(0, x)] }
def rep (x : ShardM) : State := { Q wF with que.descs := [dR x] }
def sE : State := { m0 with que.descs := [mkD (dW 0x40 1 0 0 0 0 0)], que.ctx := [(3, (ctxOf 1 1).set 2 (6 + 2 ^ 8 + 7 * 2 ^ 16 + 2 ^ 24))] }
def job1 : CopyJob := { kind := .page 3 none, next := 31, total := 32, target := 5, value := 0, wanted := false }
def remap1 : RemapE := { page := 7, slot := 2, block := 5, valid := true, retired := false, done := false }
def cS (next : Nat) : State := { bu with pool.remaps := [(3, remap1)], pool.blocks := [5], pool.jobs := [(1, { job1 with next := next })] }
def pin (p : Bool) : PinTest := { tier := 1, group := 3, position := 200, pc := 17, pass := p }
def noSpares : State := bu.modTier 1 (fun t => { t with spares := (List.range Config.GROUP_SPARES).map (fun i => (3 * 64 + i, { assigned := true })) })
def gm (m : Nat) : GroupMargin := { group := 3, margin := m, bitGroup := 4, cell := 5, step := 6, failed := false }
def calS (c : CalS) : State := bu.modTier 2 (fun t => { t with cal := c })
def recN (n : Nat) : RecS := { n := n, q := 3, word := n }
def cqOf (l : List RecS) : State := { qs 1 2 with que.cqs := [(3, { recs := l })] }
def dukS (s : State) : State := { s with fuse.regions := AMap.put 2 { s.region 2 with state := 1, rlock := true, wlock := true } s.fuse.regions }
def fuseE : FuseEntry := { region := 6, word := 3, data := 5, pump := true, zero := true }
def fuseS : State := { m0.setFld Reg.PWR_STATUS F.PWR_STATUS_VIN_OK 1 with que.descs := [mkD wF], que.ctx := [(3, ctxOf 1 1)] }
def pulses : List Pulse := match fuseS.fuseEntry 1 fuseE with | .ok l => l | .error _ => []
def progS : ProgS := { entries := [(1, fuseE)], started := true, todo := [⟨.base, 5, 1⟩, ⟨.base, 5, 2⟩] }
def pws (s e t : Nat) (f : PowerS → PowerS) : State := { m0 with power := f { m0.power with pstate := s, transit := e != 0, target := t, entry := if e = 1 then .waiting else if e = 2 then .marked else .none } }
def srAll (s : State) : State := { s with stack.chans := (List.range 32).map (fun n => (n, { pstate := .selfRefresh })) }
def nt : Notice := { src := 9, ntype := 5, sev := 1, dev := 9, nseq := 3, count := 2, payload := zeros 16 }
def nts : NoticeS := { sev := 1, nseq := 3, count := 2, payload := zeros 16, first := 0, dev := 5, src := 5, ntype := 5 }
def mergeOf (d k : Nat) : MergeE :=
  { dev := d, line := 0x80, kid := k, lo := some (zeros 64), hi := none, who := [], time := 5000, expires := 5200, sc := 5 }
def cen (w : Option (Nat × Nat × Nat)) : CensusS := { number := 1, tick := 50, topoSeq := 0, dst := w, asked := [] }

/-! ### A long shard -/

/-- A FILL with more than MIG_MIN left, in units of one line each, while its engine waits for an answer. -/
def sl : ShardS := { shard wF kF with units := List.replicate (2 ^ 20) slU, tag := some 1 }
theorem bytes_replicate (w : List Nat) (p : Nat × Nat × Nat × Nat) :
    ∀ n a : Nat, (List.replicate n p).foldl (fun n p => n + unitBytes w p) a = a + n * unitBytes w p
  | 0, a => by simp
  | n + 1, a => by
    rw [List.replicate_succ, List.foldl_cons, bytes_replicate w p n, Nat.succ_mul]
    omega
theorem sl_mig : Config.MIG_MIN ≤ sl.bytes - sl.at_.bytes := by
  have h : sl.bytes = 0 + 2 ^ 20 * unitBytes wF slU := bytes_replicate wF slU _ _
  rw [h]
  decide
/-! ### Witnesses -/

/-- No device of this table is halted. -/
theorem entsOpen (n : Nat) : ((m0.setFld Reg.CENSUS_CTL F.CENSUS_CTL_INTERVAL 1000).ent n).halted = false := by
  by_cases h0 : n = 0
  · subst h0; decide +kernel
  · by_cases h5 : n = 5
    · subst h5; decide +kernel
    · by_cases h6 : n = 6
      · subst h6; decide +kernel
      · simp [State.ent, State.setFld, State.setReg, m0, ents, AMap.get, AMap.find, h0, h5, h6]

theorem test_witness_SupplyAndReset :
    (∃ (s : State) (role : Fin 4) (slot : Fin 64), (s.power.phase = .unpowered) ∧ (s.power.resetLow = false)) ∧
    (∃ (s : State) (role : Fin 4) (slot : Fin 64), (s.power.phase = .unpowered) ∧ (s.power.resetLow = true)) ∧
    (∃ (s : State) (mv10 : Nat), (s.awake = true) ∧ (s.power.vin = true) ∧ (s.noteOnly 9 0)) ∧
    (∃ (s : State), (s.powered = true) ∧ (s.power.vin = true) ∧ (s.power.vinNever = false)) ∧
    (∃ (s : State), (s.power.resetLow = false) ∧ (s.powered = true)) ∧
    (∃ (s : State) (role : Fin 4) (slot : Fin 64), (s.power.resetLow = true) ∧ (s.power.phase = .inReset)) :=
  ⟨⟨{ upR 2 with power.phase := .unpowered }, 0, 5, by decide +kernel⟩,
   ⟨{ upR 2 with power.phase := .unpowered, power.resetLow := true }, 0, 5, by decide +kernel⟩,
   ⟨upR 2, 500, by decide +kernel⟩,
   ⟨{ upR 2 with power.vinNever := false }, by decide +kernel⟩,
   ⟨upR 2, by decide +kernel⟩,
   ⟨State.reset, 0, 3, by decide +kernel⟩⟩

theorem test_witness_StartBegins :
    (∃ (s : State), (s.power.phase = .slotWait)) ∧
    (∃ (s : State) (r : Nat × Nat), (s.power.resetAt = some r)) ∧
    (∃ (s : State), (s.power.phase = .starting)) ∧
    (∃ (s : State), (s.awake = true) ∧ (s.power.healthy = true)) ∧
    (∃ (s : State) (mv : Nat), (s.awake = true)) ∧
    (∃ (s : State) (mv : Nat), (s.awake = false)) :=
  ⟨⟨{ upR 2 with power.phase := .slotWait }, by decide +kernel⟩,
   ⟨{ upR 2 with power.resetAt := some (3, 2) }, (3, 2), by decide +kernel⟩,
   ⟨st 2, by decide +kernel⟩,
   ⟨upR 2, by decide +kernel⟩,
   ⟨upR 2, 1800, by decide +kernel⟩,
   ⟨{ upR 2 with power.phase := .slotWait }, 1800, by decide +kernel⟩⟩

theorem test_witness_FatalEvents :
    (∃ (s : State) (rail : Fin 6), (s.awake = true) ∧ ((s.faultClass (3 + rail.val) 0).1 = 3)) ∧
    (∃ (s : State) (edges : Nat), (s.awake = true) ∧ (s.power.pll = true) ∧ (edges < 80 ∨ 120 < edges) ∧ ((s.faultClass 0 0).1 = 3)) ∧
    (∃ (s : State), (s.awake = true) ∧ (s.power.pll = true) ∧ ((s.faultClass 1 0).1 = 3)) ∧
    (∃ (s : State), (s.awake = true) ∧ ((s.faultClass 2 0).1 = 3)) :=
  ⟨⟨upR 2, 3, by decide +kernel⟩,
   ⟨upR 2, 79, by decide +kernel⟩,
   ⟨upR 2, by decide +kernel⟩,
   ⟨upR 2, by decide +kernel⟩⟩

theorem test_witness_SelfTest :
    (∃ (s : State) (die : Die) (drift : List (Nat × Cell)), (s.power.phase = .starting) ∧ (s.regs.wait = []) ∧ (bit s.power.sensed die.ix = false) ∧ (s.senseDue die.ix = true)) ∧
    (∃ (s : State) (item : Fin 12) (r : TestResult), (s.power.phase = .starting) ∧ (s.regs.wait = []) ∧ (s.itemDue item.val = true)) ∧
    (∃ (s : State) (item : Fin 12) (r : TestResult), (s.power.phase = .starting) ∧ (s.regs.wait = []) ∧ (s.itemDue item.val = true) ∧ (item.val ≤ 5) ∧ (r.failing = [])) ∧
    (∃ (s : State) (item : Fin 12) (r : TestResult), (s.power.phase = .starting) ∧ (s.regs.wait = []) ∧ (s.itemDue item.val = true) ∧ (item.val ≤ 5) ∧ (r.failing ≠ [])) ∧
    (∃ (s : State) (r : TestResult), (s.power.phase = .starting) ∧ (s.regs.wait = []) ∧ (s.itemDue 7 = true) ∧ (r.failing = []) ∧ (s.portsFail = false)) ∧
    (∃ (s : State) (tier : Fin 4), (s.power.phase = .starting) ∧ (s.regs.wait = []) ∧ (s.still) ∧ (10 ≤ s.power.items) ∧ (s.tierLives tier.val = true) ∧ (bit s.power.startTiers tier.val = false) ∧ (∀ u < tier.val, s.tierLives u = true → bit s.power.startTiers u = true)) :=
  ⟨⟨{ st 2 with power.sensed := 0 }, .base, [(3, .strong)], by decide +kernel⟩,
   ⟨{ st 2 with power.items := 2 }, 3, good, by decide +kernel⟩,
   ⟨{ st 2 with power.items := 2 }, 3, good, by decide +kernel⟩,
   ⟨{ st 2 with power.items := 2 }, 3, { good with failing := [7] }, by decide +kernel⟩,
   ⟨st 1, good, by decide +kernel⟩,
   ⟨{ st 1 with power.items := 10 }, 0, by decide +kernel⟩⟩

theorem test_witness_StartEnds :
    (∃ (s : State), (s.regs.wait = []) ∧ (s.awake = true) ∧ (s.power.relayAt.isSome = true) ∧ (s.power.relays = true)) ∧
    (∃ (s : State), (s.regs.wait = []) ∧ (s.power.phase = .starting) ∧ (10 ≤ s.power.items) ∧ (s.tiersTested = true) ∧ (s.power.fw = 2) ∧ (s.pool.jobs = []) ∧ (s.own.waits = []) ∧ (s.own.parked = []) ∧ (s.image.epoch ≤ s.arbCount)) :=
  ⟨⟨{ st 1 with power.relays := true, power.relayAt := some 7 }, by decide +kernel⟩,
   ⟨{ st 2 with power.items := 10, power.startTiers := 15, power.fw := 2 }, by decide +kernel⟩⟩

theorem test_witness_ManagerImage :
    (∃ (s : State) (density : Nat) (header : List Byte), (s.imageDue = true) ∧ (s.image.stage = 0)) ∧
    (∃ (s : State) (k : Fin 16) (data : List Byte), (s.imageDue = true) ∧ (s.image.stage = 1) ∧ (s.image.nextComp = k.val)) :=
  ⟨⟨{ st 2 with power.items := 7 }, 5, [], by decide +kernel⟩,
   ⟨{ st 2 with power.items := 7, image.stage := 1 }, 0, [1], by decide +kernel⟩⟩

theorem test_witness_FirmwareLoad :
    (∃ (s : State) (len : Fin 33554432), (s.awake = true) ∧ (s.power.pstate = 0) ∧ (s.power.entry = .none) ∧ (s.still) ∧ (s.isManager = false) ∧ (s.power.fw = 0)) ∧
    (∃ (s : State) (path : Path) (len : Fin 33554432), (s.awake = true) ∧ (s.power.pstate = 0) ∧ (s.power.entry = .none) ∧ (s.still) ∧ (s.isManager = false) ∧ (path ≠ .cfgWarden)) ∧
    (∃ (s : State) (words : List Word), (s.awake = true) ∧ (s.power.pstate = 0) ∧ (s.power.entry = .none) ∧ (s.still) ∧ (s.isManager = false) ∧ (s.power.fw = 1) ∧ (s.image.ended = false) ∧ (words.length ≤ 4)) ∧
    (∃ (s : State), (s.awake = true) ∧ (s.power.pstate = 0) ∧ (s.power.entry = .none) ∧ (s.still) ∧ (s.isManager = false) ∧ (s.power.fw = 1)) ∧
    (∃ (s : State) (n : Fin 64) (code : Byte), (s.awake = true) ∧ (s.power.pstate = 0) ∧ (s.power.entry = .none) ∧ (s.still) ∧ (s.isManager = false) ∧ (s.power.fw = 1) ∧ (s.image.ended = true)) :=
  ⟨⟨st 1, 77, by decide +kernel⟩,
   ⟨st 1, .i3c, 77, by decide +kernel⟩,
   ⟨{ st 1 with power.fw := 1, image.stage := 1, image.len := 77 }, [1, 2, 3], by decide +kernel⟩,
   ⟨{ st 1 with power.fw := 1, image.stage := 1, image.len := 77 }, by decide +kernel⟩,
   ⟨{ st 1 with power.fw := 1, image.stage := 1, image.len := 77, image.ended := true }, 0, 0, by decide +kernel⟩⟩

theorem test_witness_FirmwareControl :
    (∃ (s : State) (n : Fin 64), (s.up) ∧ (s.still) ∧ (s.isManager = true) ∧ (n.val ≠ s.num) ∧ ((s.ent n.val).loading = some checking) ∧ ((s.ent n.val).state = 3) ∧ ((s.ent n.val).halted = false) ∧ (s.mgr.lateC.contains s.mgr.nextC = false)) ∧
    (∃ (s : State), (s.up) ∧ (s.still) ∧ (∀ k < 4, s.tierBusy k = false)) ∧
    (∃ (s : State) (path : Path), (s.up) ∧ (s.still) ∧ (path ≠ .cfgWarden)) ∧
    (∃ (s : State) (path : Path), (s.up) ∧ (s.still) ∧ (s.isManager = true)) ∧
    (∃ (s : State) (path : Path) (mask : Fin 16), (s.up) ∧ (s.still)) :=
  ⟨⟨(upR 2).modEnt 5 (fun e => { e.place 3 0 1 0 with loading := some checking }), 5, by decide +kernel⟩,
   ⟨upR 2, by decide +kernel⟩,
   ⟨upR 2, .i3c, by decide +kernel⟩,
   ⟨upR 2, .i3c, by decide +kernel⟩,
   ⟨upR 2, .cfgHost, 5, by decide +kernel⟩⟩

theorem test_witness_Enumeration :
    (∃ (s : State) (w : WalkRec), (s.walks = true) ∧ (s.enumDone = false) ∧ (s.still) ∧ (s.topo.settled = false)) ∧
    (∃ (s : State), (s.walks = true) ∧ (s.enumDone = false) ∧ (s.still) ∧ (s.topo.walk = none)) ∧
    (∃ (s : State) (w : WalkRec), (s.walks = true) ∧ (s.enumDone = false) ∧ (s.still) ∧ (s.topo.settled = true) ∧ (∀ d ∈ walkDevices w, d.serial.toNat ≠ s.id.serial)) ∧
    (∃ (s : State) (w : WalkRec), (s.walks = true) ∧ (s.enumDone = false) ∧ (s.still) ∧ (s.topo.walk = some w) ∧ (∀ d ∈ walkDevices w, d.serial.toNat ≠ s.id.serial)) :=
  ⟨⟨mgr, ring, by decide +kernel⟩,
   ⟨mgr, by decide +kernel⟩,
   ⟨{ mgr with topo.settled := true }, ring, by decide +kernel⟩,
   ⟨{ mgr with topo.walk := some ring }, ring, by decide +kernel⟩⟩

theorem test_witness_Resurvey :
    (∃ (s : State), (s.still) ∧ (s.up) ∧ (s.isManager = true) ∧ (s.num = 0) ∧ (s.walks = true) ∧ (s.enumDone = true)) ∧
    (∃ (s : State) (w : WalkRec), (s.still) ∧ (s.up) ∧ (s.isManager = true) ∧ (s.num = 0) ∧ (s.walks = true) ∧ (s.enumDone = true) ∧ (s.que.descs = []) ∧ (s.mgr.reqs = []) ∧ (s.mgr.merges = []) ∧ (s.mgr.ingress = []) ∧ (∀ e ∈ s.topo.ents, e.1 < 64 ∧ e.2.loading = none ∧ e.2.halted = false)) ∧
    (∃ (s : State) (n : Fin 64) (serial : BitVec 64), (s.still) ∧ (s.up) ∧ (s.isManager = true) ∧ (s.num = 0) ∧ (s.walks = true) ∧ (s.enumDone = true) ∧ (n.val ≠ 0) ∧ ((s.ent n.val).valid = true) ∧ ((s.ent n.val).serial ≠ serial.toNat)) ∧
    (∃ (s : State) (n : Fin 64) (serial : BitVec 64), (s.still) ∧ (s.up) ∧ (s.isManager = true) ∧ (s.num = 0) ∧ (s.walks = true) ∧ (s.enumDone = true) ∧ (n.val ≠ 0) ∧ ((s.ent n.val).valid = true) ∧ ((s.ent n.val).serial = serial.toNat) ∧ ((s.ent n.val).halted = false) ∧ ((s.ent n.val).state ≠ 0) ∧ ((s.ent n.val).state = 3 → s.mgr.reqs = [] ∧ s.mgr.merges = [] ∧ s.que.descs = []) ∧ (s.mgr.lateC.contains s.mgr.nextC = false)) ∧
    (∃ (s : State) (path : Path), (s.still) ∧ (s.up) ∧ (s.isManager = true) ∧ (s.num = 0) ∧ (ones 16 ((s.reg Reg.TOPO_PLAN_TRUNK).toNat / 2 ^ 16) ≤ 15) ∧ (∀ j < 14, ones 12 ((s.reg (Reg.TOPO_PLAN_SPUR j)).toNat / 2 ^ 16) ≤ 6)) ∧
    (∃ (s : State) (path : Path), (s.still) ∧ (s.up) ∧ (s.isManager = true) ∧ (s.num = 0) ∧ (15 < ones 16 ((s.reg Reg.TOPO_PLAN_TRUNK).toNat / 2 ^ 16) ∨ ∃ j < 14, 6 < ones 12 ((s.reg (Reg.TOPO_PLAN_SPUR j)).toNat / 2 ^ 16))) :=
  ⟨⟨e0, by decide +kernel⟩,
   ⟨e0, ring, by decide +kernel⟩,
   ⟨e0, 2, 99, by decide +kernel⟩,
   ⟨e0, 2, 11, by decide +kernel⟩,
   ⟨e0, .i3c, by decide +kernel⟩,
   ⟨e0.setReg Reg.TOPO_PLAN_TRUNK 0xffff0010, .i3c, by decide +kernel⟩⟩

theorem test_witness_RegisterWrites :
    (∃ (s : State) (path : Path) (a : Nat) (b : Block) (o : Nat) (r : RegRow) (w : Word), (b = .ndl ∨ b = .therm ∨ ∃ n : Nat, b = .ch n) ∧ (s.up) ∧ (s.still) ∧ (a % 4 = 0) ∧ (a < 2 ^ 24) ∧ (s.resolve a = .ok (b, o, r)) ∧ (r.status = false) ∧ (rsvBroken (fun _ => true) w (s.reg a) r.fields = false) ∧ (∀ f ∈ r.fields, (f.ty = .ro ∨ f.ty = .rsq) → f.get w = f.get (s.regView b o a))) ∧
    (∃ (s : State) (path : Path) (w : Word), (s.up) ∧ (s.still)) ∧
    (∃ (s : State) (path : Path) (w : Word), (s.up) ∧ (s.still) ∧ (w.toNat / 1024 = (s.reg Reg.NDL_CFG_TMO).toNat / 1024)) ∧
    (∃ (s : State) (path : Path) (k : Fin 32) (w : Word), (s.up) ∧ (s.still)) ∧
    (∃ (s : State) (path : Path) (a : Nat) (b : Block) (o : Nat) (r : RegRow) (w : Word), (s.up) ∧ (s.still) ∧ (a % 4 = 0) ∧ (a < 2 ^ 24) ∧ (s.resolve a = .ok (b, o, r)) ∧ (s.rawView a = none) ∧ (r.status = true) ∧ (seqFld.get w = seqFld.get (s.reg a))) ∧
    (∃ (s : State) (path : Path) (a : Nat) (b : Block) (o : Nat) (r : RegRow) (w : Word), (s.up) ∧ (s.still) ∧ (a % 4 = 0) ∧ (a < 2 ^ 24) ∧ (s.resolve a = .ok (b, o, r)) ∧ (s.rawView a = none) ∧ (r.status = true) ∧ (seqFld.get w ≠ seqFld.get (s.reg a))) ∧
    (∃ (s : State) (path : Path) (w : Word), (s.up) ∧ (s.still) ∧ (path = .ownWarden ∨ path = .cfgWarden) ∧ (w.toNat / 128 = (s.reg Reg.IDENT_DEVNUM).toNat / 128)) ∧
    (∃ (s : State) (path : Path) (w : Word), (s.up) ∧ (s.still) ∧ (path ≠ .ownWarden) ∧ (path ≠ .cfgWarden) ∧ (w.toNat / 128 = (s.reg Reg.IDENT_DEVNUM).toNat / 128)) :=
  ⟨⟨upR 0, .i3c, Reg.NDL_CFG_TMO, (rowOf (upR 0) Reg.NDL_CFG_TMO).1, (rowOf (upR 0) Reg.NDL_CFG_TMO).2.1, (rowOf (upR 0) Reg.NDL_CFG_TMO).2.2, 5, Or.inl (by decide +kernel), by decide +kernel⟩,
   ⟨upR 0, .i3c, 5, by decide +kernel⟩,
   ⟨upR 0, .i3c, 1023, by decide +kernel⟩,
   ⟨upR 0, .i3c, 31, 0, by decide +kernel⟩,
   ⟨(upR 0).setReg Reg.NDL_STATUS 0x3001F, .i3c, Reg.NDL_STATUS, (rowOf ((upR 0).setReg Reg.NDL_STATUS 0x3001F) Reg.NDL_STATUS).1, (rowOf ((upR 0).setReg Reg.NDL_STATUS 0x3001F) Reg.NDL_STATUS).2.1, (rowOf ((upR 0).setReg Reg.NDL_STATUS 0x3001F) Reg.NDL_STATUS).2.2, 0x30003, by decide +kernel⟩,
   ⟨(upR 0).setReg Reg.NDL_STATUS 0x3001F, .i3c, Reg.NDL_STATUS, (rowOf ((upR 0).setReg Reg.NDL_STATUS 0x3001F) Reg.NDL_STATUS).1, (rowOf ((upR 0).setReg Reg.NDL_STATUS 0x3001F) Reg.NDL_STATUS).2.1, (rowOf ((upR 0).setReg Reg.NDL_STATUS 0x3001F) Reg.NDL_STATUS).2.2, 0x20003, by decide +kernel⟩,
   ⟨upR 0, .cfgWarden, 0x45, by decide +kernel⟩,
   ⟨upR 0, .i3c, 0x45, by decide +kernel⟩⟩

theorem test_witness_ReservedWrite :
    (∃ (s : State) (path : Path) (a : Nat) (b : Block) (o : Nat) (r : RegRow) (w : Word), (s.up) ∧ (a % 4 = 0) ∧ (a < 2 ^ 24) ∧ (s.resolve a = .ok (b, o, r)) ∧ (s.rawView a = none) ∧ (r.status = false) ∧ (b = .mbx → s.mbxBusy path = false) ∧ (rsvBroken (fun _ => true) w (s.reg (bankAddr path b o a)) r.fields = true)) ∧
    (∃ (s : State) (c : Instr), (writesWord c = false)) :=
  ⟨⟨upR 0, .i3c, Reg.NDL_CFG_TMO, (rowOf (upR 0) Reg.NDL_CFG_TMO).1, (rowOf (upR 0) Reg.NDL_CFG_TMO).2.1, (rowOf (upR 0) Reg.NDL_CFG_TMO).2.2, 0xFFFFFFFF, by decide +kernel⟩,
   ⟨upR 0, .poll, by decide +kernel⟩⟩

theorem test_witness_ApplyPoints :
    (∃ (s : State) (n : Fin 32) (u : ApplyUnit), (u = .chan n ∨ ∃ k : Fin 4, n.val = 8 * k.val ∧ u = .tier k) ∧ (s.awake = true) ∧ (s.calm) ∧ (Reg.CH_CTL n.val ∈ s.regs.wait) ∧ (n.val % 8 = 0 → s.fld (Reg.CMN_STATUS (n.val / 8)) F.CMN_STATUS_BCAST_PEND = 0)) ∧
    (∃ (s : State) (k : Fin 4) (u : ApplyUnit), (u = .tier k ∨ ∃ n : Fin 32, n.val = 8 * k.val ∧ u = .chan n) ∧ (s.awake = true) ∧ (s.calm) ∧ (s.fld (Reg.CMN_STATUS k.val) F.CMN_STATUS_BCAST_PEND = 1)) ∧
    (∃ (s : State) (p : Port), (s.awake = true) ∧ (s.calm) ∧ (Reg.LINK_PRBS_CTL p ∈ s.regs.wait) ∧ (Reg.LINK_CTL p ∉ s.regs.wait) ∧ ((s.port p).sends = true)) ∧
    (∃ (s : State) (u : ApplyUnit), (u = .census ∨ u = .reset ∨ ∃ q : Nat, u = .queue q) ∧ (s.awake = true) ∧ (s.calm) ∧ (s.regs.wait = [])) :=
  ⟨⟨{ upR 0 with regs.wait := [Reg.CH_CTL 3] }, 3, .chan 3, Or.inl rfl, by decide +kernel⟩,
   ⟨(upR 0).setFld (Reg.CMN_STATUS 1) F.CMN_STATUS_BCAST_PEND 1, 1, .tier 1, Or.inl rfl, by decide +kernel⟩,
   ⟨{ dev with regs.wait := [Reg.LINK_PRBS_CTL .e] }, .e, by decide +kernel⟩,
   ⟨upR 0, .census, Or.inl rfl, by decide +kernel⟩⟩

theorem test_witness_I3cAccesses :
    (∃ (s : State) (w : Word), (s.up) ∧ (s.still)) ∧
    (∃ (s : State) (bytes : List Byte), (s.up) ∧ (s.still) ∧ (bytes.length ≠ 8)) ∧
    (∃ (s : State) (count : Nat), (s.up) ∧ (s.still) ∧ (4 ≤ count)) ∧
    (∃ (s : State) (static dynamic : BitVec 7), (s.up) ∧ (s.still) ∧ (static.toNat = s.i3cStatic)) ∧
    (∃ (s : State) (static dynamic : BitVec 7), (s.up) ∧ (s.still) ∧ (static.toNat ≠ s.i3cStatic)) ∧
    (∃ (s : State) (dynamic : BitVec 7), (s.up) ∧ (s.still) ∧ (s.id.i3cDyn = none)) :=
  ⟨⟨upR 0, 5, by decide +kernel⟩,
   ⟨upR 0, [1, 2], by decide +kernel⟩,
   ⟨upR 0, 4, by decide +kernel⟩,
   ⟨upR 0, 0x20, 9, by decide +kernel⟩,
   ⟨upR 0, 0x21, 9, by decide +kernel⟩,
   ⟨upR 0, 9, by decide +kernel⟩⟩

theorem test_witness_Mailbox :
    (∃ (s : State) (path : Path) (tag : Byte), (s.up) ∧ (s.still) ∧ (s.mbxBusy path = false)) ∧
    (∃ (s : State) (path : Path) (tag : Byte), (s.up) ∧ (s.still) ∧ (s.mbxBusy path = false) ∧ (s.isManager = true) ∧ (mbxBlock (F.MBX_SEL_BLOCK.get (s.reg (mbxReg path Reg.MBX_SEL))) = .qctx) ∧ (F.MBX_SEL_ITEM.get (s.reg (mbxReg path Reg.MBX_SEL)) = 0) ∧ (F.MBX_SEL_PAGE.get (s.reg (mbxReg path Reg.MBX_SEL)) = 0) ∧ ((s.reg (mbxReg path (Reg.MBX_DATA 0))).toNat % 2 ^ 22 = 0)) ∧
    (∃ (s : State) (path : Path) (tag : Byte), (s.up) ∧ (s.still) ∧ (s.mbxBusy path = false) ∧ (mbxBlock (F.MBX_SEL_BLOCK.get (s.reg (mbxReg path Reg.MBX_SEL))) = .none)) ∧
    (∃ (s : State) (path : Path) (l : List Word), ((s.mbx path).result = some (0, 0, l)) ∧ ((s.mbx path).busyWr = false) ∧ (l.length ≤ 8)) ∧
    (∃ (s : State) (path : Path) (e wr : Nat) (l : List Word), ((s.mbx path).result = some (e, wr, l)) ∧ (e ≠ 0) ∧ (e < 8)) :=
  ⟨⟨upR 2, .i3c, 9, by decide +kernel⟩,
   ⟨mbxS (0xF * 2 ^ 16), .i3c, 9, by decide +kernel⟩,
   ⟨mbxS (0x19 * 2 ^ 16), .i3c, 9, by decide +kernel⟩,
   ⟨{ upR 2 with regs.mbxC := { result := some (0, 0, [1]) } }, .cfgHost, [1], by decide +kernel⟩,
   ⟨{ upR 2 with regs.mbxC := { result := some (1, 1, []) } }, .cfgHost, 1, 1, [], by decide +kernel⟩⟩

theorem test_witness_MapAndTestAccesses :
    (∃ (s : State) (j : MapJob), (s.up) ∧ (s.regs.wait = []) ∧ (s.net.inbox = []) ∧ (s.que.job = none) ∧ (s.mgr.cfg = []) ∧ (s.mgr.waitC = []) ∧ (s.mgr.ingress = []) ∧ (s.que.descs = []) ∧ (s.groupBusy = false) ∧ (s.engBusy = false) ∧ (s.copyBusy = false) ∧ (s.prot.jobs = [j]) ∧ (j.sent = true) ∧ (j.dev = s.num)) ∧
    (∃ (s : State) (line : Nat), (s.up) ∧ (s.regs.wait = []) ∧ (s.net.inbox = []) ∧ (s.que.job = none) ∧ (s.mgr.cfg = []) ∧ (s.mgr.waitC = []) ∧ (s.mgr.ingress = []) ∧ (s.que.descs = []) ∧ (s.groupBusy = false) ∧ (s.engBusy = false) ∧ (s.copyBusy = false) ∧ (s.isTest = true) ∧ (s.power.memTested = true) ∧ (line < Config.userLines) ∧ (s.debugRefused line = false)) ∧
    (∃ (s : State) (line : Nat), (s.up) ∧ (s.regs.wait = []) ∧ (s.net.inbox = []) ∧ (s.que.job = none) ∧ (s.mgr.cfg = []) ∧ (s.mgr.waitC = []) ∧ (s.mgr.ingress = []) ∧ (s.que.descs = []) ∧ (s.groupBusy = false) ∧ (s.engBusy = false) ∧ (s.copyBusy = false) ∧ (s.isTest = true) ∧ (s.power.memTested = true) ∧ (line < Config.userLines) ∧ (s.debugRefused line = true) ∧ (s.noteOnly 87 0)) ∧
    (∃ (s : State) (line : Nat) (d : List Byte), (s.up) ∧ (s.regs.wait = []) ∧ (s.net.inbox = []) ∧ (s.que.job = none) ∧ (s.mgr.cfg = []) ∧ (s.mgr.waitC = []) ∧ (s.mgr.ingress = []) ∧ (s.que.descs = []) ∧ (s.groupBusy = false) ∧ (s.engBusy = false) ∧ (s.copyBusy = false) ∧ (s.isTest = true) ∧ (s.power.memTested = true) ∧ (line < Config.userLines) ∧ (s.debugRefused line = false)) ∧
    (∃ (s : State) (path : Path), (s.up) ∧ (s.regs.wait = []) ∧ (s.net.inbox = []) ∧ (s.que.job = none) ∧ (s.mgr.cfg = []) ∧ (s.mgr.waitC = []) ∧ (s.mgr.ingress = []) ∧ (s.que.descs = []) ∧ (s.groupBusy = false) ∧ (s.engBusy = false) ∧ (s.copyBusy = false) ∧ (s.isTest = true) ∧ (s.power.memTested = true) ∧ (s.prot.win = none) ∧ (s.prot.jobs = [])) ∧
    (∃ (s : State), (s.up) ∧ (s.regs.wait = []) ∧ (s.net.inbox = []) ∧ (s.que.job = none) ∧ (s.mgr.cfg = []) ∧ (s.mgr.waitC = []) ∧ (s.mgr.ingress = []) ∧ (s.que.descs = []) ∧ (s.groupBusy = false) ∧ (s.engBusy = false) ∧ (s.copyBusy = false) ∧ (s.prot.win = some false) ∧ (s.fld Reg.TESTWIN_LINE F.TESTWIN_LINE_LINE < Config.userLines) ∧ (s.debugRefused (s.fld Reg.TESTWIN_LINE F.TESTWIN_LINE_LINE) = false) ∧ (mdState (s.lineNow (s.linePlace (s.fld Reg.TESTWIN_LINE F.TESTWIN_LINE_LINE))).2 < 4) ∧ (mdPoison (s.lineNow (s.linePlace (s.fld Reg.TESTWIN_LINE F.TESTWIN_LINE_LINE))).2 = false)) ∧
    (∃ (s : State), (s.up) ∧ (s.regs.wait = []) ∧ (s.net.inbox = []) ∧ (s.que.job = none) ∧ (s.mgr.cfg = []) ∧ (s.mgr.waitC = []) ∧ (s.mgr.ingress = []) ∧ (s.que.descs = []) ∧ (s.groupBusy = false) ∧ (s.engBusy = false) ∧ (s.copyBusy = false) ∧ (s.prot.win = some true) ∧ (s.fld Reg.TESTWIN_LINE F.TESTWIN_LINE_LINE < Config.userLines) ∧ (s.debugRefused (s.fld Reg.TESTWIN_LINE F.TESTWIN_LINE_LINE) = false)) ∧
    (∃ (s : State), (s.up) ∧ (s.regs.wait = []) ∧ (s.net.inbox = []) ∧ (s.que.job = none) ∧ (s.mgr.cfg = []) ∧ (s.mgr.waitC = []) ∧ (s.mgr.ingress = []) ∧ (s.que.descs = []) ∧ (s.groupBusy = false) ∧ (s.engBusy = false) ∧ (s.copyBusy = false) ∧ (s.prot.win = some false) ∧ (s.fld Reg.TESTWIN_LINE F.TESTWIN_LINE_LINE < Config.userLines) ∧ (s.debugRefused (s.fld Reg.TESTWIN_LINE F.TESTWIN_LINE_LINE) = true) ∧ (s.noteOnly 87 0)) :=
  ⟨⟨{ upR 0 with prot.jobs := [mapJ] }, mapJ, by decide +kernel⟩,
   ⟨tst, 0, by decide +kernel⟩,
   ⟨tst.setLine (tst.linePlace 5) [] (mdWord 2 false 0), 5, by decide +kernel⟩,
   ⟨tst, Config.userLines - 1, [1, 2], by decide +kernel⟩,
   ⟨tst, .i3c, by decide +kernel⟩,
   ⟨{ tst with prot.win := some false }, by decide +kernel⟩,
   ⟨{ tst with prot.win := some true }, by decide +kernel⟩,
   ⟨{ tst.setLine (tst.linePlace 77) [] (mdWord 2 false 0) with prot.win := some false }, by decide +kernel⟩⟩

theorem test_witness_PortHunting :
    (∃ (s : State) (p : Port), (s.awake = true) ∧ (s.regs.wait = []) ∧ ((s.port p).tstate = .huntFull) ∧ ((s.port p).stepping = false)) ∧
    (∃ (s : State) (p : Port), (s.awake = true) ∧ (s.regs.wait = []) ∧ ((s.port p).tstate = .huntFull ∨ (s.port p).tstate = .huntHalf) ∧ ((s.port p).stepping = false) ∧ (1 ≤ (s.port p).locked.length) ∧ ((s.port p).locked.length < 4)) ∧
    (∃ (s : State) (p : Port), (s.awake = true) ∧ (s.regs.wait = []) ∧ ((s.port p).tstate = .down)) ∧
    (∃ (s : State) (p : Port), (s.awake = true) ∧ (s.regs.wait = []) ∧ ((s.port p).tstate = .cap)) ∧
    (∃ (s : State) (p : Port), (s.awake = true) ∧ (s.regs.wait = []) ∧ ((s.port p).tstate = .cap ∨ (s.port p).tstate = .step ∨ (s.port p).tstate = .active)) ∧
    (∃ (s : State) (p : Port), (s.awake = true) ∧ (s.regs.wait = []) ∧ ((s.port p).tstate = .cap ∨ ((s.port p).tstate = .step ∧ (s.port p).stepping = false) ∨ (s.port p).tstate = .active)) ∧
    (∃ (s : State) (p : Port), (s.awake = true) ∧ (s.regs.wait = []) ∧ ((s.port p).tstate = .huntFull ∨ (s.port p).tstate = .huntHalf ∨ (s.port p).tstate = .down)) ∧
    (∃ (s : State) (p : Port), (s.awake = true) ∧ (s.regs.wait = []) ∧ ((s.port p).tstate = .step) ∧ ((s.port p).stepping = true)) ∧
    (∃ (s : State) (p : Port), (s.awake = true) ∧ (s.regs.wait = []) ∧ ((s.port p).tstate = .huntFull) ∧ ((s.port p).stepping = true)) :=
  ⟨⟨port { tstate := .huntFull }, .e, by decide +kernel⟩,
   ⟨port { tstate := .huntHalf, lanes := [(0, { lock := true })] }, .e, by decide +kernel⟩,
   ⟨port { tstate := .down }, .e, by decide +kernel⟩,
   ⟨port { tstate := .cap }, .e, by decide +kernel⟩,
   ⟨port { tstate := .active }, .e, by decide +kernel⟩,
   ⟨port { tstate := .active }, .e, by decide +kernel⟩,
   ⟨port { tstate := .huntHalf, lanes := lanes4 }, .e, by decide +kernel⟩,
   ⟨port { tstate := .step, stepping := true }, .e, by decide +kernel⟩,
   ⟨port { tstate := .huntFull, stepping := true }, .e, by decide +kernel⟩⟩

theorem test_witness_PortLanes :
    (∃ (s : State) (p : Port) (lane peer : Fin 8) (inv : Bool), (s.awake = true) ∧ (s.regs.wait = []) ∧ ((s.port p).tstate ∉ [.off, .prbs, .quiet, .step]) ∧ (bit (s.port p).excluded lane.val = false) ∧ ((s.port p).gap = false)) ∧
    (∃ (s : State) (p : Port) (lane : Fin 8), (s.awake = true) ∧ (s.regs.wait = []) ∧ ((AMap.get lane.val ({} : LaneS) (s.port p).lanes).lock = true) ∧ ((s.port p).tstate = .huntFull ∨ (s.port p).tstate = .huntHalf)) ∧
    (∃ (s : State) (p : Port) (lane : Fin 8), (s.awake = true) ∧ (s.regs.wait = []) ∧ ((AMap.get lane.val ({} : LaneS) (s.port p).lanes).lock = true) ∧ ((s.port p).tstate = .cap ∨ (s.port p).tstate = .step)) ∧
    (∃ (s : State) (p : Port) (lane : Fin 8), (s.awake = true) ∧ (s.regs.wait = []) ∧ ((AMap.get lane.val ({} : LaneS) (s.port p).lanes).lock = true) ∧ ((s.port p).tstate = .active) ∧ (s.mild (22 + 4 * portNo p) (portNo p))) ∧
    (∃ (s : State) (p : Port), (s.awake = true) ∧ (s.regs.wait = []) ∧ (s.fwdClk p = true)) :=
  ⟨⟨port { tstate := .huntFull }, .e, 0, 7, true, by decide +kernel⟩,
   ⟨port { tstate := .huntFull, lanes := lanes4 }, .e, 3, by decide +kernel⟩,
   ⟨port { tstate := .cap, lanes := lanes4 }, .e, 0, by decide +kernel⟩,
   ⟨port { pa with lanes := lanes4 }, .e, 1, by decide +kernel⟩,
   ⟨port { tstate := .active }, .e, by decide +kernel⟩⟩

theorem test_witness_PortCapability :
    (∃ (s : State) (p : Port) (b : List Byte), (s.awake = true) ∧ (s.regs.wait = []) ∧ ((s.port p).tstate = .cap) ∧ (b.length = 32) ∧ (leAt b 0 1 = 0x82) ∧ (leAt b 28 4 = crc32c (b.take 28)) ∧ (s.fld Reg.IDENT_NDL_CAP F.IDENT_NDL_CAP_VERSIONS &&& (leAt b 2 1 % 8) ≠ 0)) ∧
    (∃ (s : State) (p : Port), ((s.port p).full = true ∨ (∃ b ∈ [0, 1], bit (leAt (s.port p).peerCap 3 1) b = false ∨ bit (leAt (s.port p).ownCap 3 1) b = false) ∨ bit (leAt (s.port p).peerCap 3 1) 7 = true ∨ bit (leAt (s.port p).ownCap 3 1) 7 = true) ∧ (s.awake = true) ∧ (s.regs.wait = []) ∧ (s.still) ∧ ((s.port p).tstate = .cap) ∧ ((s.port p).gotCap = true) ∧ ((s.port p).gotSeen = true) ∧ (widthOf (s.port p).sentMap (leAt (s.port p).peerCap 4 1) ≠ 0) ∧ ((s.upBase p).partner = none ∨ (s.upBase p).samePartner = true ∨ s.devicesBy p = [])) ∧
    (∃ (s : State) (p : Port), (s.awake = true) ∧ (s.regs.wait = []) ∧ (s.still) ∧ ((s.port p).tstate = .cap) ∧ ((s.port p).gotCap = true) ∧ ((s.port p).gotSeen = true) ∧ (widthOf (s.port p).sentMap (leAt (s.port p).peerCap 4 1) = 0)) ∧
    (∃ (s : State) (p : Port), (s.awake = true) ∧ (s.regs.wait = []) ∧ (s.still) ∧ ((s.port p).tstate = .cap) ∧ ((s.port p).gotCap = true) ∧ ((s.port p).gotSeen = true) ∧ (widthOf (s.port p).sentMap (leAt (s.port p).peerCap 4 1) ≠ 0) ∧ ((s.port p).full = false) ∧ (∀ b ∈ [0, 1], bit (leAt (s.port p).peerCap 3 1) b = true ∧ bit (leAt (s.port p).ownCap 3 1) b = true) ∧ (bit (leAt (s.port p).peerCap 3 1) 7 = false) ∧ (bit (leAt (s.port p).ownCap 3 1) 7 = false)) ∧
    (∃ (s : State) (p : Port), (s.awake = true) ∧ (s.regs.wait = []) ∧ ((s.port p).tstate = .step)) :=
  ⟨⟨port { tstate := .cap }, .e, capB, by decide +kernel⟩,
   ⟨port { tstate := .cap, gotCap := true, gotSeen := true, peerCap := capB, ownCap := capB, lanes := lanes4, full := true }, .e, Or.inl (by decide +kernel), by decide +kernel⟩,
   ⟨port { tstate := .cap, gotCap := true, gotSeen := true, peerCap := capB }, .e, by decide +kernel⟩,
   ⟨port { tstate := .cap, gotCap := true, gotSeen := true, peerCap := capR, ownCap := capR, lanes := lanes4, full := false }, .e, by decide +kernel⟩,
   ⟨port { tstate := .step }, .e, by decide +kernel⟩⟩

theorem test_witness_RowsAndReplay :
    (∃ (s : State) (h p : Port) (frames : List (Nat × List Nat)) (l : List FrameS), (∀ f ∈ frames.filterMap (s.frameRx h), f.got = some 0 ∧ f.blocks.any WBlock.bad = false ∧ ones Config.LOCK_HDRS f.after.hdrs < Config.LOSS_HDRS) ∧ (s.awake = true) ∧ (s.regs.wait = []) ∧ (s.inPort h = p) ∧ ((s.port p).tstate = .active) ∧ (frames.all (fun f => f.2.length == 685 && f.2.all (fun v => decide (v < 4))) = true) ∧ ((s.rowErrors (frames.filterMap (s.frameRx h))).rowTraffic p (frames.filterMap (s.frameRx h)) = some l) ∧ ((rowBlocks l).any WBlock.refused = false) ∧ ((s.port p).nak.isSome = true → (s.port p).gotReplay = true)) ∧
    (∃ (s : State) (h p : Port), (s.awake = true) ∧ (s.regs.wait = []) ∧ (s.inPort h = p) ∧ ((s.port p).tstate = .active) ∧ ((s.port p).back.none? = true)) ∧
    (∃ (s : State) (h p : Port) (k : Nat), (s.awake = true) ∧ (s.regs.wait = []) ∧ (s.inPort h = p) ∧ ((s.port p).tstate = .active) ∧ ((s.port p).nak = some k) ∧ ((s.port p).gotReplay = false)) ∧
    (∃ (s : State) (h p : Port) (seq : Fin 4096), (s.awake = true) ∧ (s.regs.wait = []) ∧ (s.inPort h = p) ∧ ((s.port p).tstate = .active) ∧ (seq.val = (s.port p).txSeq ∨ (s.port p).buffer.any (fun m => m.1 == seq.val) = true) ∧ ((s.port p).wait = []) ∧ (s.flt.notices.any (fun n => n.2.due) = false) ∧ (s.flt.hostNtc = [])) ∧
    (∃ (s : State) (h p : Port) (seq : Fin 4096), (s.awake = true) ∧ (s.regs.wait = []) ∧ (s.inPort h = p) ∧ ((s.port p).tstate = .active) ∧ ((s.port p).nakSeen ≠ some seq.val) ∧ (seq.val = (s.port p).txSeq ∨ (s.port p).buffer.any (fun m => m.1 == seq.val) = true)) ∧
    (∃ (s : State) (h p : Port) (seq : Fin 4096), (s.awake = true) ∧ (s.regs.wait = []) ∧ (s.inPort h = p) ∧ ((s.port p).tstate = .active) ∧ ((s.port p).nak = some seq.val)) :=
  ⟨⟨port { pa with lanes := lanes4, ownCap := capL, width := 4 }, .e, .e, rowF, rowL, by decide +kernel, by decide +kernel⟩,
   ⟨port pa, .e, .e, by decide +kernel⟩,
   ⟨port { pa with nak := some 3 }, .e, .e, 3, by decide +kernel⟩,
   ⟨port pa, .e, .e, 0, by decide +kernel⟩,
   ⟨port pa, .e, .e, 0, by decide +kernel⟩,
   ⟨port { pa with nak := some 4095 }, .e, .e, 4095, by decide +kernel⟩⟩

theorem test_witness_PortQuiet :
    (∃ (s : State) (p : Port), (s.awake = true) ∧ (s.regs.wait = []) ∧ ((s.port p).tstate = .active)) ∧
    (∃ (s : State) (p : Port) (sc : EyeScan) (obs : List EyeObs), (s.awake = true) ∧ (s.regs.wait = []) ∧ (s.still) ∧ ((s.port p).scan = some sc) ∧ (sc.bist = false)) ∧
    (∃ (s : State) (p : Port), (s.awake = true) ∧ (s.regs.wait = []) ∧ (s.power.phase = .running) ∧ (s.power.pstate = 2) ∧ (s.power.transit = false) ∧ (s.power.entry = .none) ∧ ((s.port p).tstate = .quiet)) ∧
    (∃ (s : State) (p : Port), (s.awake = true) ∧ (s.regs.wait = []) ∧ ((s.port p).waking.isSome = true) ∧ ((s.port p).tstate = .huntFull ∨ (s.port p).tstate = .huntHalf) ∧ ((s.port p).gap = false) ∧ ((s.port p).locked = [])) ∧
    (∃ (s : State) (p : Port), (s.awake = true) ∧ (s.regs.wait = []) ∧ ((s.port p).gap = true)) :=
  ⟨⟨port pa, .e, by decide +kernel⟩,
   ⟨port { pa with scan := some ⟨3, 1, false, false, 5⟩ }, .e, ⟨3, 1, false, false, 5⟩, [], by decide +kernel⟩,
   ⟨{ port { tstate := .quiet } with power.pstate := 2 }, .e, by decide +kernel⟩,
   ⟨port { tstate := .huntFull, waking := some 3 }, .e, by decide +kernel⟩,
   ⟨port { tstate := .huntFull, gap := true }, .e, by decide +kernel⟩⟩

theorem test_witness_PortRegisters :
    (∃ (s : State) (path : Path) (p : Port), (s.up) ∧ (s.present (.link p) = true) ∧ (s.calm) ∧ (s.regs.wait = []) ∧ (s.portAllowed p = true) ∧ ((s.port p).tstate = .off)) ∧
    (∃ (s : State) (path : Path) (p : Port), (s.up) ∧ (s.present (.link p) = true) ∧ (s.calm) ∧ (s.regs.wait = []) ∧ (p = .e ∨ p = .w) ∧ (s.power.relays = false) ∧ (s.power.alive = true) ∧ (s.isTest = false) ∧ (s.portLost p = false)) ∧
    (∃ (s : State) (path : Path) (p : Port), (s.up) ∧ (s.present (.link p) = true) ∧ (s.calm) ∧ (s.regs.wait = []) ∧ (p = .e → (s.port .w).tstate = .off) ∧ (p = .w → (s.port .e).tstate = .off)) ∧
    (∃ (s : State) (path : Path) (p : Port), (s.up) ∧ (s.present (.link p) = true) ∧ (s.calm) ∧ (s.regs.wait = []) ∧ ((p = .e ∧ (s.port .w).tstate ≠ .off) ∨ (p = .w ∧ (s.port .e).tstate ≠ .off))) ∧
    (∃ (s : State) (path : Path) (p : Port), (s.up) ∧ (s.present (.link p) = true) ∧ (s.calm) ∧ (s.regs.wait = []) ∧ ((s.port p).tstate ∈ [.cap, .step, .active, .huntFull, .huntHalf])) ∧
    (∃ (s : State) (path : Path) (p : Port), (s.up) ∧ (s.present (.link p) = true) ∧ (s.calm)) ∧
    (∃ (s : State) (path : Path) (p : Port), (s.up) ∧ (s.present (.link p) = true) ∧ (s.calm) ∧ (Reg.LINK_CTL p ∈ s.regs.wait) ∧ (Reg.LINK_PRBS_CTL p ∉ s.regs.wait) ∧ ((s.port p).sends = true) ∧ (s.fld (Reg.LINK_CTL p) F.LINK_CTL_MODE = 1) ∧ ((s.port p).tstate ≠ .prbs)) ∧
    (∃ (s : State) (path : Path) (p : Port), (s.up) ∧ (s.present (.link p) = true) ∧ (s.calm) ∧ (Reg.LINK_CTL p ∈ s.regs.wait) ∧ (Reg.LINK_PRBS_CTL p ∉ s.regs.wait) ∧ (s.fld (Reg.LINK_CTL p) F.LINK_CTL_MODE = 0) ∧ ((s.port p).tstate = .prbs)) ∧
    (∃ (s : State) (path : Path) (p : Port), (s.up) ∧ (s.present (.link p) = true) ∧ (s.calm) ∧ (s.regs.wait = [])) ∧
    (∃ (s : State) (path : Path) (p : Port) (w : Word), (s.up) ∧ (s.present (.link p) = true) ∧ (s.calm) ∧ (s.regs.wait = []) ∧ ((s.port p).scan = none) ∧ (bits w.toNat 29 18 = bits (s.reg (Reg.LINK_EYE_CTL p)).toNat 29 18)) :=
  ⟨⟨{ upR 2 with power.relays := true }, .i3c, .e, by decide +kernel⟩,
   ⟨{ upR 2 with power.alive := true }, .i3c, .w, by decide +kernel⟩,
   ⟨port pa, .i3c, .ca, by decide +kernel⟩,
   ⟨dev, .i3c, .e, by decide +kernel⟩,
   ⟨port pa, .i3c, .e, by decide +kernel⟩,
   ⟨port pa, .i3c, .e, by decide +kernel⟩,
   ⟨{ (port pa).setFld (Reg.LINK_CTL .e) F.LINK_CTL_MODE 1 with regs.wait := [Reg.LINK_CTL .e] }, .i3c, .e, by decide +kernel⟩,
   ⟨{ port { tstate := .prbs } with regs.wait := [Reg.LINK_CTL .e] }, .i3c, .e, by decide +kernel⟩,
   ⟨port pa, .i3c, .e, by decide +kernel⟩,
   ⟨port pa, .i3c, .e, 0x2D, by decide +kernel⟩⟩

theorem test_witness_ForwardedMessages :
    (∃ (s : State) (p o : Port) (i : Instr) (m : Msg), (s.up) ∧ (s.still) ∧ (s.isManager = false) ∧ (messageOf i = some m) ∧ (dataFits i = true) ∧ (m.h.port = p) ∧ (s.takes p m.op m.h.ndata) ∧ (s.mine m.h = false) ∧ (m.way = none) ∧ (m.op.cls = 3 → m.h.dstHost = false) ∧ (o = (s.learn p m.h).switchPort (some p) (if m.h.dstHost then 0 else m.h.dst.val) (m.h.dstHost || m.h.dst.val == 0)) ∧ (s.sends o m.op m.h.ndata)) :=
  ⟨dev, .e, .w, .rdata (H .e 4 6 0 false) 0 qd 0, msgOf (.rdata (H .e 4 6 0 false) 0 qd 0), by decide +kernel⟩

theorem test_witness_OwnerReads :
    (∃ (s : State) (p : Port) (i : Instr) (m : Msg), (s.up) ∧ (s.still) ∧ (messageOf i = some m) ∧ (m.op = .rd64 ∨ m.op = .rd128) ∧ (m.h.port = p) ∧ (s.takes p m.op m.h.ndata) ∧ (s.hostSide p = false) ∧ (s.mine m.h = true) ∧ (s.serves m.h (adLocal m.addr)) ∧ (s.queuedWrite (s.linePlace (lineIx (adLocal m.addr))) = none)) ∧
    (∃ (s : State) (p : Port) (i : Instr) (m : Msg) (d : List Byte) (md : Nat), (s.up) ∧ (s.still) ∧ (messageOf i = some m) ∧ (m.op = .rd64 ∨ m.op = .rd128) ∧ (m.h.port = p) ∧ (s.takes p m.op m.h.ndata) ∧ (s.hostSide p = false) ∧ (s.mine m.h = true) ∧ (s.serves m.h (adLocal m.addr)) ∧ (s.queuedWrite (s.linePlace (lineIx (adLocal m.addr))) = some (d, md)) ∧ (mdState md = 0 ∨ mdKid md = adKey m.addr) ∧ (mdPoison md = false) ∧ (s.sends p .rdata (granule m.op / 32)) ∧ (d.length = 128)) :=
  ⟨⟨own, .e, .rd64 (H .e 0 0 5 true) (ad 0 5 0x12340), msgOf (.rd64 (H .e 0 0 5 true) (ad 0 5 0x12340)), by decide +kernel⟩,
   ⟨bankS (acc (some (qd, mdWord 1 false 0))) none, .e, .rd128 (H .e 0 0 5 true) (ad 0 5 0x4000), msgOf (.rd128 (H .e 0 0 5 true) (ad 0 5 0x4000)), qd, mdWord 1 false 0, by decide +kernel⟩⟩

theorem test_witness_OwnerWrites :
    (∃ (s : State) (p : Port) (h : Hdr) (addr : BitVec 64) (data : List Byte) (tag : BitVec 64) (a : Acc), (s.up) ∧ (s.still) ∧ (h.port = p) ∧ (s.hostSide p = false) ∧ (s.mine h = true) ∧ (data.length = 128) ∧ (s.takes p .wr128 h.ndata) ∧ (s.serves h (adLocal addr.toNat)) ∧ (a = s.metRefresh { id := s.stack.nextAcc, place := s.linePlace (lineIx (adLocal addr.toNat)), wr := some (data, mdWord 1 (bit h.flags.toNat 0) 0), sc := h.sc.val, firm := s.firmAt h.sc.val (s.linePlace (lineIx (adLocal addr.toNat))).chan, origin := .wrOf s.own.next, time := s.now }) ∧ (s.bankFree a = true) ∧ (s.sends p .wdone 0)) ∧
    (∃ (s : State) (p : Port) (h : Hdr) (addr : BitVec 64) (data : List Byte) (tag : BitVec 64) (a : Acc), (s.up) ∧ (s.still) ∧ (h.port = p) ∧ (s.hostSide p = false) ∧ (s.mine h = true) ∧ (data.length = 128) ∧ (s.takes p .wr128 h.ndata) ∧ (s.serves h (adLocal addr.toNat)) ∧ (a = s.metRefresh { id := s.stack.nextAcc, place := s.linePlace (lineIx (adLocal addr.toNat)), wr := some (data, mdWord 1 (bit h.flags.toNat 0) 0), sc := h.sc.val, firm := s.firmAt h.sc.val (s.linePlace (lineIx (adLocal addr.toNat))).chan, origin := .wrOf s.own.next, time := s.now }) ∧ (s.bankFree a = false) ∧ (∀ x ∈ (s.bank a.place.pc a.place.pos).queue, x.id ≠ a.id)) ∧
    (∃ (s : State) (p : Port) (h : Hdr) (addr : BitVec 64) (data : List Byte), (s.up) ∧ (s.still) ∧ (h.port = p) ∧ (s.hostSide p = false) ∧ (s.mine h = true) ∧ (data.length = 64) ∧ (s.takes p .wr64 h.ndata) ∧ (s.serves h (adLocal addr.toNat)) ∧ (s.mergeWait ≠ 0) ∧ (s.own.merges.length < Config.MERGE_ENTRIES)) :=
  ⟨⟨own, .e, H .e 4 0 5 true, ad 0 5 0x12380, qd, 0, { id := 1, place := own.linePlace (lineIx 0x12380), wr := some (qd, mdWord 1 false 0), sc := 5, firm := own.firmAt 5 (own.linePlace (lineIx 0x12380)).chan, origin := .wrOf 1, time := 5000 }, by decide +kernel⟩,
   ⟨fullBank, .e, H .e 4 0 5 true, ad 0 5 0x12380, qd, 0, { id := 1, place := own.linePlace (lineIx 0x12380), wr := some (qd, mdWord 1 false 0), sc := 5, firm := own.firmAt 5 (own.linePlace (lineIx 0x12380)).chan, origin := .wrOf 1, time := 5000 }, by decide +kernel⟩,
   ⟨own, .e, H .e 2 0 5 true, ad 0 5 0x123C0, List.replicate 64 3, by decide +kernel⟩⟩

theorem test_witness_HostRequests :
    (∃ (s : State) (p : Port) (i : Instr) (m m' : Msg) (d loc kid : Nat) (c : Nat), (s.up) ∧ (s.still) ∧ (messageOf i = some m) ∧ (dataFits i = true) ∧ (m.op = .rd64 ∨ m.op = .rd128 ∨ m.op = .wr64 ∨ m.op = .wr128) ∧ (m.h.port = p) ∧ (s.hostSide p = true) ∧ (s.takes p m.op m.h.ndata) ∧ (m' = { m with h := { m.h with flags := m.h.flags &&& 0xFE } }) ∧ (d = adDev m.addr) ∧ (loc = adLocal m.addr) ∧ (kid = adKey m.addr) ∧ (s.mgrJudge (waiting s.mgr.ingress) s.mgr.arrivals m' = .err c) ∧ (s.sends s.hostPort .err 0)) ∧
    (∃ (s : State) (p : Port) (i : Instr) (m m' : Msg) (d loc kid : Nat), (s.up) ∧ (s.still) ∧ (messageOf i = some m) ∧ (dataFits i = true) ∧ (m.op = .rd64 ∨ m.op = .rd128 ∨ m.op = .wr64 ∨ m.op = .wr128) ∧ (m.h.port = p) ∧ (s.hostSide p = true) ∧ (s.takes p m.op m.h.ndata) ∧ (m' = { m with h := { m.h with flags := m.h.flags &&& 0xFE } }) ∧ (d = adDev m.addr) ∧ (loc = adLocal m.addr) ∧ (kid = adKey m.addr) ∧ (s.mgrJudge (waiting s.mgr.ingress) s.mgr.arrivals m' = .go) ∧ (d ≠ s.num) ∧ (s.mapProt d loc = false) ∧ (s.mgrMerge d (lineIx loc) = none) ∧ (AMap.find s.mgr.nextTag s.mgr.reqs = none) ∧ (s.mgr.late.contains s.mgr.nextTag = false) ∧ (s.sends (s.trunkPort d) m.op (m.data.length / 32))) ∧
    (∃ (s : State) (p : Port) (i : Instr) (m m' : Msg) (d loc kid : Nat), (s.up) ∧ (s.still) ∧ (messageOf i = some m) ∧ (dataFits i = true) ∧ (m.op = .rd64 ∨ m.op = .rd128 ∨ m.op = .wr64 ∨ m.op = .wr128) ∧ (m.h.port = p) ∧ (s.hostSide p = true) ∧ (s.takes p m.op m.h.ndata) ∧ (m' = { m with h := { m.h with flags := m.h.flags &&& 0xFE } }) ∧ (d = adDev m.addr) ∧ (loc = adLocal m.addr) ∧ (kid = adKey m.addr) ∧ (s.mgrJudge (waiting s.mgr.ingress) s.mgr.arrivals m' = .go) ∧ (d ≠ s.num) ∧ (s.mapProt d loc = true) ∧ (s.mgrMerge d (lineIx loc) = none) ∧ (m.op = .rd64 ∨ m.op = .rd128) ∧ (AMap.find s.mgr.nextTag s.mgr.reqs = none) ∧ (s.mgr.late.contains s.mgr.nextTag = false) ∧ (s.sends (s.trunkPort d) .rd128 0)) ∧
    (∃ (s : State) (p : Port) (i : Instr) (m m' : Msg) (d loc kid : Nat), (s.up) ∧ (s.still) ∧ (messageOf i = some m) ∧ (dataFits i = true) ∧ (m.op = .rd64 ∨ m.op = .rd128 ∨ m.op = .wr64 ∨ m.op = .wr128) ∧ (m.h.port = p) ∧ (s.hostSide p = true) ∧ (s.takes p m.op m.h.ndata) ∧ (m' = { m with h := { m.h with flags := m.h.flags &&& 0xFE } }) ∧ (d = adDev m.addr) ∧ (loc = adLocal m.addr) ∧ (kid = adKey m.addr) ∧ (s.mgrJudge (waiting s.mgr.ingress) s.mgr.arrivals m' = .go) ∧ (d ≠ s.num) ∧ (s.mapProt d loc = true) ∧ (s.mgrMerge d (lineIx loc) = none) ∧ (m.op = .wr128) ∧ (s.sends (s.trunkPort d) .wr128 4)) ∧
    (∃ (s : State) (p : Port) (i : Instr) (m m' : Msg) (d loc kid : Nat), (s.up) ∧ (s.still) ∧ (messageOf i = some m) ∧ (dataFits i = true) ∧ (m.op = .rd64 ∨ m.op = .rd128 ∨ m.op = .wr64 ∨ m.op = .wr128) ∧ (m.h.port = p) ∧ (s.hostSide p = true) ∧ (s.takes p m.op m.h.ndata) ∧ (m' = { m with h := { m.h with flags := m.h.flags &&& 0xFE } }) ∧ (d = adDev m.addr) ∧ (loc = adLocal m.addr) ∧ (kid = adKey m.addr) ∧ (s.mgrJudge (waiting s.mgr.ingress) s.mgr.arrivals m' = .hold)) ∧
    (∃ (s : State) (p : Port) (i : Instr) (m m' : Msg) (d loc kid : Nat), (s.up) ∧ (s.still) ∧ (messageOf i = some m) ∧ (dataFits i = true) ∧ (m.op = .rd64 ∨ m.op = .rd128 ∨ m.op = .wr64 ∨ m.op = .wr128) ∧ (m.h.port = p) ∧ (s.hostSide p = true) ∧ (s.takes p m.op m.h.ndata) ∧ (m' = { m with h := { m.h with flags := m.h.flags &&& 0xFE } }) ∧ (d = adDev m.addr) ∧ (loc = adLocal m.addr) ∧ (kid = adKey m.addr) ∧ (s.mgrJudge (waiting s.mgr.ingress) s.mgr.arrivals m' = .limit)) ∧
    (∃ (s : State) (p : Port) (i : Instr) (m m' : Msg) (d loc kid : Nat), (s.up) ∧ (s.still) ∧ (messageOf i = some m) ∧ (dataFits i = true) ∧ (m.op = .rd64 ∨ m.op = .rd128 ∨ m.op = .wr64 ∨ m.op = .wr128) ∧ (m.h.port = p) ∧ (s.hostSide p = true) ∧ (s.takes p m.op m.h.ndata) ∧ (m' = { m with h := { m.h with flags := m.h.flags &&& 0xFE } }) ∧ (d = adDev m.addr) ∧ (loc = adLocal m.addr) ∧ (kid = adKey m.addr) ∧ (s.mgrJudge (waiting s.mgr.ingress) s.mgr.arrivals m' = .go) ∧ (d ≠ s.num) ∧ (s.mapProt d loc = true) ∧ (s.mgrMerge d (lineIx loc) = none) ∧ (m.op = .wr64) ∧ (entriesUsed s.mgr.merges < Config.MERGE_ENTRIES) ∧ (s.mergeWait ≠ 0)) :=
  ⟨⟨m0, .ca, hostMsg 1 (ad 0 9 0x4000), msgOf (hostMsg 1 (ad 0 9 0x4000)), msgOf (hostMsg 1 (ad 0 9 0x4000)), adDev (msgOf (hostMsg 1 (ad 0 9 0x4000))).addr, adLocal (msgOf (hostMsg 1 (ad 0 9 0x4000))).addr, adKey (msgOf (hostMsg 1 (ad 0 9 0x4000))).addr, 0x03, by decide +kernel⟩,
   ⟨m0, .ca, hostMsg 2 (ad 0 5 0x4000), msgOf (hostMsg 2 (ad 0 5 0x4000)), msgOf (hostMsg 2 (ad 0 5 0x4000)), adDev (msgOf (hostMsg 2 (ad 0 5 0x4000))).addr, adLocal (msgOf (hostMsg 2 (ad 0 5 0x4000))).addr, adKey (msgOf (hostMsg 2 (ad 0 5 0x4000))).addr, by decide +kernel⟩,
   ⟨m1, .ca, hostMsg 0 (ad 1 5 0x4000), msgOf (hostMsg 0 (ad 1 5 0x4000)), msgOf (hostMsg 0 (ad 1 5 0x4000)), adDev (msgOf (hostMsg 0 (ad 1 5 0x4000))).addr, adLocal (msgOf (hostMsg 0 (ad 1 5 0x4000))).addr, adKey (msgOf (hostMsg 0 (ad 1 5 0x4000))).addr, by decide +kernel⟩,
   ⟨m1, .ca, hostMsg 3 (ad 1 5 0x4000), msgOf (hostMsg 3 (ad 1 5 0x4000)), msgOf (hostMsg 3 (ad 1 5 0x4000)), adDev (msgOf (hostMsg 3 (ad 1 5 0x4000))).addr, adLocal (msgOf (hostMsg 3 (ad 1 5 0x4000))).addr, adKey (msgOf (hostMsg 3 (ad 1 5 0x4000))).addr, by decide +kernel⟩,
   ⟨{ m1 with topo.settling := true }, .ca, hostMsg 0 (ad 1 5 0x4000), msgOf (hostMsg 0 (ad 1 5 0x4000)), msgOf (hostMsg 0 (ad 1 5 0x4000)), adDev (msgOf (hostMsg 0 (ad 1 5 0x4000))).addr, adLocal (msgOf (hostMsg 0 (ad 1 5 0x4000))).addr, adKey (msgOf (hostMsg 0 (ad 1 5 0x4000))).addr, by decide +kernel⟩,
   ⟨limS, .ca, hostMsg 0 (ad 1 5 0x4000), msgOf (hostMsg 0 (ad 1 5 0x4000)), msgOf (hostMsg 0 (ad 1 5 0x4000)), adDev (msgOf (hostMsg 0 (ad 1 5 0x4000))).addr, adLocal (msgOf (hostMsg 0 (ad 1 5 0x4000))).addr, adKey (msgOf (hostMsg 0 (ad 1 5 0x4000))).addr, by decide +kernel⟩,
   ⟨m1, .ca, hostMsg 2 (ad 1 5 0x4000), msgOf (hostMsg 2 (ad 1 5 0x4000)), msgOf (hostMsg 2 (ad 1 5 0x4000)), adDev (msgOf (hostMsg 2 (ad 1 5 0x4000))).addr, adLocal (msgOf (hostMsg 2 (ad 1 5 0x4000))).addr, adKey (msgOf (hostMsg 2 (ad 1 5 0x4000))).addr, by decide +kernel⟩⟩

theorem test_witness_DeviceResponses :
    (∃ (s : State) (p : Port) (i : Instr) (m : Msg) (r : MReq), (s.up) ∧ (s.still) ∧ (s.isManager = true) ∧ (messageOf i = some m) ∧ (dataFits i = true) ∧ (m.op = .rdata ∨ m.op = .wdone ∨ m.op = .err) ∧ (m.h.port = p) ∧ (s.hostSide p = false) ∧ (s.takes p m.op m.h.ndata) ∧ (s.mine m.h = true) ∧ (m.h.agent ≠ .engine) ∧ (s.mgr.ingress = []) ∧ (AMap.find m.h.tag.toNat s.mgr.reqs = some r) ∧ (m.h.src.val = r.dev) ∧ (m.h.srcHost = false) ∧ (r.open_ = none) ∧ (r.prot = false) ∧ (r.purpose = .host) ∧ (m.op = .rdata → (r.m.op = .rd64 ∨ r.m.op = .rd128) ∧ m.data.length = granule r.m.op) ∧ (m.op = .wdone → r.m.op ≠ .rd64 ∧ r.m.op ≠ .rd128) ∧ (s.sends s.hostPort m.op m.h.ndata)) ∧
    (∃ (s : State) (p : Port) (i : Instr) (m : Msg) (r : MReq), (s.up) ∧ (s.still) ∧ (s.isManager = true) ∧ (messageOf i = some m) ∧ (dataFits i = true) ∧ (m.op = .rdata ∨ m.op = .wdone ∨ m.op = .err) ∧ (m.h.port = p) ∧ (s.hostSide p = false) ∧ (s.takes p m.op m.h.ndata) ∧ (s.mine m.h = true) ∧ (m.h.agent ≠ .engine) ∧ (s.mgr.ingress = []) ∧ (m.op = .rdata) ∧ (AMap.find m.h.tag.toNat s.mgr.reqs = some r) ∧ (m.h.src.val = r.dev) ∧ (m.h.srcHost = false) ∧ (r.open_ = none) ∧ (r.prot = true) ∧ (r.purpose = .host) ∧ (r.m.op = .rd64 ∨ r.m.op = .rd128) ∧ (m.data.length = 128) ∧ (bit r.m.h.flags.toNat 1 = false) ∧ (clearLine m.data m.tag64 m.h.flags.toNat = false) ∧ (s.sends s.hostPort .rdata (granule r.m.op / 32))) ∧
    (∃ (s : State) (p : Port) (i : Instr) (m : Msg), (s.up) ∧ (s.still) ∧ (s.isManager = true) ∧ (messageOf i = some m) ∧ (dataFits i = true) ∧ (m.op = .rdata ∨ m.op = .wdone ∨ m.op = .err) ∧ (m.h.port = p) ∧ (s.hostSide p = false) ∧ (s.takes p m.op m.h.ndata) ∧ (s.mine m.h = true) ∧ (m.h.agent ≠ .engine) ∧ (s.mgr.ingress = []) ∧ (∀ r : MReq, AMap.find m.h.tag.toNat s.mgr.reqs = some r → m.h.src.val ≠ r.dev ∨ m.h.srcHost = true) ∧ (s.mgr.late.contains m.h.tag.toNat = false) ∧ (s.noteOnly 38 0)) :=
  ⟨⟨{ m0 with mgr.reqs := [(0, reqOf (hostMsg 1 (ad 0 5 0x4000)) 5 0 false)] }, .w, .rdata (H .w 4 5 0 false) 0x4000 (List.replicate 128 9) 77, msgOf (.rdata (H .w 4 5 0 false) 0x4000 (List.replicate 128 9) 77), reqOf (hostMsg 1 (ad 0 5 0x4000)) 5 0 false, by decide +kernel⟩,
   ⟨{ m1 with mgr.reqs := [(0, reqOf (hostMsg 1 (ad 1 5 0x4000)) 5 1 true)] }, .w, .rdata (H .w 4 5 0 false) 0x4000 (List.replicate 128 9) 77, msgOf (.rdata (H .w 4 5 0 false) 0x4000 (List.replicate 128 9) 77), reqOf (hostMsg 1 (ad 1 5 0x4000)) 5 1 true, by decide +kernel⟩,
   ⟨m0, .w, .rdata (H .w 4 5 0 false) 0x4000 (List.replicate 128 9) 77, msgOf (.rdata (H .w 4 5 0 false) 0x4000 (List.replicate 128 9) 77), by decide +kernel⟩⟩

theorem test_witness_FencesAndHints :
    (∃ (s : State) (p : Port) (h : Hdr) (addr : BitVec 64), (s.up) ∧ (s.still) ∧ (s.isManager = true) ∧ (h.port = p) ∧ (s.hostSide p = true) ∧ (s.takes p .fence h.ndata)) ∧
    (∃ (s : State) (p : Port) (f : FenceS), (s.up) ∧ (s.still) ∧ (s.isManager = true) ∧ (s.mgr.fences = [f]) ∧ (s.fenceDone f = true) ∧ (s.mgr.ingress = []) ∧ (s.sends s.hostPort .fdone 0)) ∧
    (∃ (s : State) (p : Port) (h : Hdr) (group : Fin 1024) (q : Nat), (s.up) ∧ (s.still) ∧ (s.isManager = true) ∧ (h.port = p) ∧ (s.hostSide p = true) ∧ (s.takes p .hint h.ndata) ∧ (s.enabled.filter (fun k => k / 64 == group.val) = [q]) ∧ (AMap.find group.val s.que.hints = none) ∧ (s.mgr.fences = []) ∧ (s.mgr.ingress = []) ∧ (AMap.find s.mgr.nextH s.mgr.host = none) ∧ (s.sends s.hostPort .rd64 0)) :=
  ⟨⟨m0, .ca, H .ca 0 0 0 true, ad 0 5 0, by decide +kernel⟩,
   ⟨{ m0 with mgr.fences := [⟨0, msgOf (.fence (H .ca 0 0 0 true) 0), true, 0⟩] }, .ca, ⟨0, msgOf (.fence (H .ca 0 0 0 true) 0), true, 0⟩, by decide +kernel⟩,
   ⟨{ m0 with que.ctx := [(65, ctxOf 1 0)], que.dbBase := 0x1000 }, .ca, H .ca 0 0 0 true, 1, 65, by decide +kernel⟩⟩

theorem test_witness_TagsAndTimeouts :
    (∃ (s : State) (k : Nat) (r : MReq) (ct : List Byte) (tag : Nat), (AMap.find k s.mgr.reqs = some r) ∧ (r.open_ = some (ct, tag, false)) ∧ (lineTag (s.key r.kid).kTag r.dev (r.line * 128) r.kid ct = tag) ∧ (s.up) ∧ (s.still) ∧ (s.isManager = true) ∧ (r.purpose = .host) ∧ (s.mgr.ingress = []) ∧ (s.mgr.merges = []) ∧ (bit r.m.h.flags.toNat 1 = false) ∧ (s.sends s.hostPort .sealGood 0)) ∧
    (∃ (s : State) (k : Nat) (r : MReq) (ct : List Byte) (tag : Nat), (s.up) ∧ (s.still) ∧ (s.isManager = true) ∧ (AMap.find k s.mgr.reqs = some r) ∧ (r.purpose = .host) ∧ (s.mgr.ingress = []) ∧ (s.mgr.merges = []) ∧ (r.open_ = some (ct, tag, true)) ∧ (bit r.m.h.flags.toNat 1 = false) ∧ (s.sends s.hostPort .sealVoid 0)) ∧
    (∃ (s : State) (k : Nat) (r : MReq) (ct : List Byte) (tag : Nat), (AMap.find k s.mgr.reqs = some r) ∧ (r.open_ = some (ct, tag, false)) ∧ (lineTag (s.key r.kid).kTag r.dev (r.line * 128) r.kid ct ≠ tag) ∧ (AMap.del k s.mgr.reqs = []) ∧ (s.up) ∧ (s.still) ∧ (s.isManager = true) ∧ (r.purpose = .host) ∧ (s.mgr.ingress = []) ∧ (s.mgr.merges = []) ∧ (bit r.m.h.flags.toNat 1 = false) ∧ (s.sends s.hostPort .sealBad 0) ∧ (r.dev ≠ 0) ∧ (r.dev ≠ s.num) ∧ ((s.ent r.dev).valid = true) ∧ ((s.ent r.dev).halted = false)) ∧
    (∃ (s : State) (k : Nat) (r : MReq), (s.up) ∧ (s.still) ∧ (s.isManager = true) ∧ (AMap.find k s.mgr.reqs = some r) ∧ (r.purpose = .host) ∧ (s.mgr.ingress = []) ∧ (s.mgr.merges = []) ∧ (r.open_ = none) ∧ (s.noteOnly 40 0) ∧ (s.sends s.hostPort .err 0)) :=
  ⟨⟨{ m1 with mgr.reqs := [(0, { reqOf (hostMsg 1 (ad 1 5 0x4000)) 5 1 true with open_ := some (qd, lineTag kk.kTag 5 0x4000 1 qd, false) })] }, 0, { reqOf (hostMsg 1 (ad 1 5 0x4000)) 5 1 true with open_ := some (qd, lineTag kk.kTag 5 0x4000 1 qd, false) }, qd, lineTag kk.kTag 5 0x4000 1 qd, rfl, rfl, rfl, by decide +kernel⟩,
   ⟨{ m1 with mgr.reqs := [(0, { reqOf (hostMsg 1 (ad 1 5 0x4000)) 5 1 true with open_ := some (qd, 7, true) })] }, 0, { reqOf (hostMsg 1 (ad 1 5 0x4000)) 5 1 true with open_ := some (qd, 7, true) }, qd, 7, by decide +kernel⟩,
   ⟨{ m1 with mgr.reqs := [(0, { reqOf (hostMsg 1 (ad 1 5 0x4000)) 5 1 true with open_ := some (qd, (other (lineTag kk.kTag 5 0x4000 1 qd)), false) })] }, 0, { reqOf (hostMsg 1 (ad 1 5 0x4000)) 5 1 true with open_ := some (qd, (other (lineTag kk.kTag 5 0x4000 1 qd)), false) }, qd, (other (lineTag kk.kTag 5 0x4000 1 qd)), rfl, rfl, other_ne _, rfl, by decide +kernel⟩,
   ⟨{ m0 with mgr.reqs := [(0, reqOf (hostMsg 1 (ad 0 5 0x4000)) 5 0 false)] }, 0, reqOf (hostMsg 1 (ad 0 5 0x4000)) 5 0 false, by decide +kernel⟩⟩

theorem test_witness_ConfigAccesses :
    (∃ (s : State) (p : Port) (h : Hdr), (s.up) ∧ (h.port = p) ∧ (s.still) ∧ (s.takes p .crd h.ndata) ∧ ((s.hostSide p = true ∧ h.dst = 0) ∨ (s.hostSide p = false ∧ s.mine h = true)) ∧ (s.sends p .crdRsp 0)) ∧
    (∃ (s : State) (p : Port) (h : Hdr) (w : Word), (s.up) ∧ (h.port = p) ∧ (s.still) ∧ (s.takes p .cwr h.ndata) ∧ ((s.hostSide p = true ∧ h.dst = 0) ∨ (s.hostSide p = false ∧ s.mine h = true)) ∧ (s.sends p .cwrRsp 0)) ∧
    (∃ (s : State) (p : Port) (h : Hdr) (c : CReq) (m : Msg) (reg : BitVec 25) (ws : List Word) (st : Byte), (s.up) ∧ (h.port = p) ∧ (s.isManager = true) ∧ (({ s with mgr.cfg := [] } : State).still) ∧ (s.mgr.cfg = [(h.tag.toNat, c)]) ∧ (c.use = .host m) ∧ (s.hostSide p = false) ∧ (h.dstHost = true) ∧ (h.agent = .switch) ∧ (s.sends s.hostPort (if m.op = .crd then .crdRsp else .cwrRsp) 0) ∧ (s.takes p .crdRsp h.ndata) ∧ (h.src.val = c.dst) ∧ (h.srcHost = false) ∧ (ws.length ≤ 4) ∧ (m.op = .crd)) ∧
    (∃ (s : State) (p : Port) (h : Hdr) (c : CReq) (m : Msg) (reg : BitVec 25) (st : Byte), (s.up) ∧ (h.port = p) ∧ (s.isManager = true) ∧ (({ s with mgr.cfg := [] } : State).still) ∧ (s.mgr.cfg = [(h.tag.toNat, c)]) ∧ (c.use = .host m) ∧ (s.hostSide p = false) ∧ (h.dstHost = true) ∧ (h.agent = .switch) ∧ (s.sends s.hostPort (if m.op = .crd then .crdRsp else .cwrRsp) 0) ∧ (s.takes p .cwrRsp h.ndata) ∧ (h.src.val = c.dst) ∧ (h.srcHost = false) ∧ (m.op = .cwr)) ∧
    (∃ (s : State) (p : Port) (h : Hdr) (c : CReq) (m : Msg), (s.up) ∧ (h.port = p) ∧ (s.isManager = true) ∧ (({ s with mgr.cfg := [] } : State).still) ∧ (s.mgr.cfg = [(h.tag.toNat, c)]) ∧ (c.use = .host m) ∧ (s.hostSide p = false) ∧ (h.dstHost = true) ∧ (h.agent = .switch) ∧ (s.sends s.hostPort (if m.op = .crd then .crdRsp else .cwrRsp) 0) ∧ (s.noteOnly 39 0)) :=
  ⟨⟨dev, .e, H .e 0 0 5 false, by decide +kernel⟩,
   ⟨m0, .ca, H .ca 0 0 0 true, 5, by decide +kernel⟩,
   ⟨{ m0 with mgr.cfg := [(0, ⟨5, .host (msgOf (.crd (H .ca 0 0 5 true) 0 0 none)), 0, false⟩)] }, .w, { H .w 0 5 0 false with dstHost := true }, ⟨5, .host (msgOf (.crd (H .ca 0 0 5 true) 0 0 none)), 0, false⟩, msgOf (.crd (H .ca 0 0 5 true) 0 0 none), 0, [4], 0, by decide +kernel⟩,
   ⟨{ m0 with mgr.cfg := [(0, ⟨5, .host (msgOf (.cwr (H .ca 0 0 5 true) 0 [3] none)), 0, false⟩)] }, .w, { H .w 0 5 0 false with dstHost := true }, ⟨5, .host (msgOf (.cwr (H .ca 0 0 5 true) 0 [3] none)), 0, false⟩, msgOf (.cwr (H .ca 0 0 5 true) 0 [3] none), 0, 0, by decide +kernel⟩,
   ⟨{ m0 with mgr.cfg := [(0, ⟨5, .host (msgOf (.cwr (H .ca 0 0 5 true) 0 [3] none)), 0, false⟩)] }, .w, { H .w 0 5 0 false with dstHost := true }, ⟨5, .host (msgOf (.cwr (H .ca 0 0 5 true) 0 [3] none)), 0, false⟩, msgOf (.cwr (H .ca 0 0 5 true) 0 [3] none), by decide +kernel⟩⟩

theorem test_witness_LinkMarkers :
    (∃ (s : State) (p : Port) (headers datas : List Nat), (s.up) ∧ (s.regs.wait = []) ∧ (s.takes p .credit 0) ∧ ((s.port p).wait = []) ∧ (s.flt.notices.any (fun n => n.2.due) = false) ∧ (s.flt.hostNtc = [])) ∧
    (∃ (s : State) (p : Port) (number : Word) (tick : BitVec 48), (∀ q : Port, (q = p ∨ s.markerPort q = true) → s.sends q .census 0) ∧ (s.up) ∧ (s.regs.wait = []) ∧ (s.isManager = false) ∧ (s.takes p .census 0) ∧ (number.toNat ≠ s.flt.lastCensus)) ∧
    (∃ (s : State) (p : Port) (code : Fin 8), (s.up) ∧ (s.regs.wait = []) ∧ (code.val ≤ 4) ∧ (s.takes p .pwr 0)) ∧
    (∃ (s : State) (p : Port), (s.up) ∧ (s.regs.wait = []) ∧ (s.takes p .pwr 0)) ∧
    (∃ (s : State) (p : Port) (c : Instr) (m : Msg), (s.up) ∧ (s.regs.wait = []) ∧ (s.calm) ∧ (messageOf c = some m) ∧ (m.h.port = p) ∧ (s.overrun p m.op m.h.ndata)) ∧
    (∃ (s : State) (p : Port) (n : Notice), (s.up) ∧ (s.regs.wait = []) ∧ (s.calm) ∧ (s.overrun p .ntc 0)) :=
  ⟨⟨dev, .e, [1, 2], [5], by decide +kernel⟩,
   ⟨dev, .e, 7, 9, fun q => by cases q <;> decide +kernel, by decide +kernel⟩,
   ⟨dev, .e, 4, by decide +kernel⟩,
   ⟨dev, .e, by decide +kernel⟩,
   ⟨dev.modPort .e (fun x => { x with granted := { hdr := [0, 0, 0, 0, 0, 0, 0], dat := [0, 0, 0] } }), .e, .rdata (H .e 4 6 0 false) 0 qd 0, msgOf (.rdata (H .e 4 6 0 false) 0 qd 0), by decide +kernel⟩,
   ⟨dev.modPort .e (fun x => { x with granted := { hdr := [0, 0, 0, 0, 0, 0, 0], dat := [0, 0, 0] } }), .e, nt, by decide +kernel⟩⟩

theorem test_witness_Notices :
    (∃ (s : State) (p : Port) (n : Notice), (s.up) ∧ (s.still) ∧ (s.isManager = false) ∧ (s.takes p .ntc 0) ∧ (s.sends (s.switchPort (some p) 0 true) .ntc 0)) ∧
    (∃ (s : State) (p : Port) (n : Notice), (s.up) ∧ (s.still) ∧ (s.isManager = true) ∧ (s.hostSide p = false) ∧ (s.takes p .ntc 0) ∧ (bit (s.reg Reg.NDL_NTC_EN).toNat n.ntype = true) ∧ (s.flt.hostNtc = []) ∧ (s.sends s.hostPort .ntc 0)) ∧
    (∃ (s : State) (p : Port) (n : Notice), (s.up) ∧ (s.still) ∧ (s.isManager = true) ∧ (s.hostSide p = false) ∧ (s.takes p .ntc 0) ∧ (bit (s.reg Reg.NDL_NTC_EN).toNat n.ntype = false) ∧ (s.flt.hostNtc = [])) ∧
    (∃ (s : State) (k : Nat) (n : NoticeS), (s.up) ∧ (s.regs.wait = []) ∧ (s.isManager = false) ∧ (AMap.find k s.flt.notices = some n) ∧ (s.sends s.net.mgrPort .ntc 0)) ∧
    (∃ (s : State), (s.up) ∧ (s.flt.notices.any (fun n => n.2.due) = true)) :=
  ⟨⟨dev, .e, nt, by decide +kernel⟩,
   ⟨m0, .e, nt, by decide +kernel⟩,
   ⟨m0.setReg Reg.NDL_NTC_EN 0, .e, nt, by decide +kernel⟩,
   ⟨{ dev with flt.notices := [(5, nts)] }, 5, nts, by decide +kernel⟩,
   ⟨{ dev with flt.notices := [(5, { nts with due := true })] }, by decide +kernel⟩⟩

theorem test_witness_MergeExpiry :
    (∃ (s : State) (e : MergeE), (s.up) ∧ (s.still) ∧ (e.busy = false) ∧ (s.own.merges = [e]) ∧ (s.mustWait e.line = false) ∧ ((s.chan (s.linePlace e.line).chan).retired = false) ∧ (s.queuedWrite (s.linePlace e.line) = none)) ∧
    (∃ (s : State) (e : MergeE) (dev : Fin 64), (s.up) ∧ (s.still) ∧ (e.busy = false) ∧ (s.isManager = true) ∧ (dev.val ≠ s.num) ∧ (e.dev = dev.val) ∧ (s.mgr.merges = [e]) ∧ (s.mgr.reqs = []) ∧ (s.mgr.late.contains s.mgr.nextTag = false) ∧ (s.sends (s.trunkPort dev.val) .rd128 0)) :=
  ⟨⟨{ own with own.merges := [mergeOf 5 0] }, mergeOf 5 0, by decide +kernel⟩,
   ⟨{ m1 with mgr.merges := [mergeOf 5 1] }, mergeOf 5 1, 5, by decide +kernel⟩⟩

theorem test_witness_EngineStarts :
    (∃ (s : State) (q i : Nat) (d : DescS) (c : Instr) (opc : Nat) (n k : Nat), (s.up) ∧ (s.still) ∧ (s.isManager = true) ∧ (s.que.descs = [d]) ∧ (d.q = q) ∧ (d.i = i) ∧ (d.stage = .ready) ∧ (d.relay = false) ∧ (d.phaseB = .none) ∧ (d.shards = []) ∧ (dOpc d.words = opc) ∧ ((operands d.words).any s.rangeHeld = false) ∧ ((operands d.words).any s.rangeRelay = false) ∧ (s.protStops d = false) ∧ ((c, opc) ∈ [(.copy q i, 1), (.fill q i, 2), (.zero q i, 3), (.compare q i, 4), (.crc q i, 5), (.gather q i, 6), (.scatter q i, 7), (.reduce q i, 8), (.atomicBatch q i, 9), (.xorParity q i, 10)]) ∧ (s.shardsOf d.words = [(n, k)]) ∧ (n ≠ s.num) ∧ (n < 64) ∧ (s.sends (s.trunkPort n) .shard ((4 * d.words.length + 31) / 32))) ∧
    (∃ (s : State) (q i : Nat) (d : DescS) (c : Instr) (opc : Nat), (s.up) ∧ (s.still) ∧ (s.isManager = true) ∧ (s.que.descs = [d]) ∧ (d.q = q) ∧ (d.i = i) ∧ (d.stage = .ready) ∧ (d.relay = false) ∧ (d.phaseB = .none) ∧ (d.shards = []) ∧ (dOpc d.words = opc) ∧ ((operands d.words).any s.rangeHeld = false) ∧ ((operands d.words).any s.rangeRelay = false) ∧ (s.protStops d = false) ∧ ((c, opc) ∈ [(.copy q i, 1), (.fill q i, 2), (.zero q i, 3), (.compare q i, 4), (.crc q i, 5), (.gather q i, 6), (.scatter q i, 7), (.reduce q i, 8), (.atomicBatch q i, 9), (.xorParity q i, 10)]) ∧ (s.shardsOf d.words = []) ∧ (resultGranule d.words = none) ∧ (dQuiet d.words = false) ∧ (s.ringFree q)) ∧
    (∃ (s : State) (q i : Nat) (d : DescS) (c : Instr) (opc : Nat), (s.up) ∧ (s.still) ∧ (s.isManager = true) ∧ (s.que.descs = [d]) ∧ (d.q = q) ∧ (d.i = i) ∧ (d.stage = .ready) ∧ (d.relay = false) ∧ (d.phaseB = .none) ∧ (d.shards = []) ∧ (dOpc d.words = opc) ∧ ((operands d.words).any s.rangeHeld = false) ∧ ((operands d.words).any s.rangeRelay = false) ∧ (s.protStops d = false) ∧ ((c, opc) ∈ [(.copy q i, 1), (.fill q i, 2), (.zero q i, 3), (.compare q i, 4), (.crc q i, 5), (.gather q i, 6), (.scatter q i, 7), (.reduce q i, 8), (.atomicBatch q i, 9), (.xorParity q i, 10)]) ∧ (s.shardsOf d.words ≠ []) ∧ (∀ x ∈ s.shardsOf d.words, x.1 ≠ s.num)) :=
  ⟨⟨{ Q (dW 1 0 (dA 0) (dA 0x100000) 128 0 0) with prot.maps := [(5 * 256, [2 ^ 31, 0, 0, 0])] }, 3, 2, mkD (dW 1 0 (dA 0) (dA 0x100000) 128 0 0), .copy 3 2, 1, 5, ((({ Q (dW 1 0 (dA 0) (dA 0x100000) 128 0 0) with prot.maps := [(5 * 256, [2 ^ 31, 0, 0, 0])] }).shardsOf (dW 1 0 (dA 0) (dA 0x100000) 128 0 0)).getD 0 (0, 0)).2, by decide +kernel⟩,
   ⟨Q (dW 1 0 (dA 0) (dA 0x100000) 0 0 0), 3, 2, mkD (dW 1 0 (dA 0) (dA 0x100000) 0 0 0), .copy 3 2, 1, by decide +kernel⟩,
   ⟨{ Q (dW 1 0 (dA 0) (dA 0x100000) 0x40000 0 0) with prot.maps := [(5 * 256, [2 ^ 31, 0, 0, 0])] }, 3, 2, mkD (dW 1 0 (dA 0) (dA 0x100000) 0x40000 0 0), .copy 3 2, 1, by decide +kernel⟩⟩

theorem test_witness_Shards :
    (∃ (s : State) (p : Port) (k : Fin 4) (h : Hdr) (g : EngHdr) (phaseB relay : Bool) (desc : List Word), ((4 ≤ dSc (desc.map (·.toNat)) ∧ 3 ≤ s.throttle k.val) ∨ ∀ x : ShardS, x.desc = desc.map (·.toNat) → x.home = k.val → x.phaseB = phaseB → s.unitsOf x = []) ∧ (s.up) ∧ (s.still) ∧ (h.port = p) ∧ (s.takes p .shard h.ndata) ∧ (s.mine h = true) ∧ (s.hostSide p = false) ∧ (desc.length = 16) ∧ (s.flt.admitStop = false) ∧ ((s.tier k.val).released = false) ∧ ((s.tier k.val).excluded = false) ∧ ((s.tier k.val).run = none) ∧ ((s.tier k.val).waiting = []) ∧ (s.fld Reg.ENG_CTL F.ENG_CTL_HOLD = 0)) ∧
    (∃ (s : State) (p : Port) (k : Fin 4) (h : Hdr) (g : EngHdr) (phaseB relay : Bool) (desc : List Word), (s.up) ∧ (s.still) ∧ (h.port = p) ∧ (s.takes p .shard h.ndata) ∧ (s.mine h = true) ∧ (s.hostSide p = false) ∧ (desc.length = 16) ∧ (s.flt.admitStop = false) ∧ ((s.tier k.val).released = false) ∧ ((s.tier k.val).excluded = false) ∧ ((s.tier k.val).run = none) ∧ ((s.tier k.val).waiting = []) ∧ (s.fld Reg.ENG_CTL F.ENG_CTL_HOLD = 1)) ∧
    (∃ (s : State) (p : Port) (k : Fin 4) (sh : ShardS) (blocks : Fin 4), (s.up) ∧ (s.still) ∧ ((s.tier k.val).run = some sh) ∧ (sh.saved.unit < sh.mark.unit)) ∧
    (∃ (s : State) (p : Port) (k : Fin 4) (sh : ShardS) (blocks : Fin 4) (u : Nat) (piece : Nat × Nat × Nat × Nat), ((s.tier k.val).run = some sh) ∧ (Config.MIG_MIN ≤ sh.bytes - sh.at_.bytes) ∧ (s.up) ∧ (s.still) ∧ (dOpc sh.desc = 2 ∨ dOpc sh.desc = 3) ∧ (s.fld Reg.ENG_CTL F.ENG_CTL_MIGRATE_EN = 1) ∧ (s.fld Reg.ENG_CTL F.ENG_CTL_MIG_STAGE ≤ s.throttle k.val) ∧ (sh.moved = none) ∧ (sh.stop = 0) ∧ (s.coolTiers k.val = [u]) ∧ ((s.tier k.val).waiting = []) ∧ (sh.units[sh.saved.unit]? = some piece) ∧ (sh.own (lineAddr (dDst sh.desc) piece.1) = true) ∧ (s.room sh.sc = false)) ∧
    (∃ (s : State) (p : Port) (k : Fin 4) (sh : ShardS) (blocks : Fin 4), (s.up) ∧ (s.still) ∧ ((s.tier k.val).run = some sh) ∧ (s.fld Reg.ENG_CTL F.ENG_CTL_MIGRATE_EN = 0)) ∧
    (∃ (s : State) (p : Port) (k : Fin 4) (sh : ShardS) (blocks : Fin 4), (s.up) ∧ (s.still) ∧ ((s.tier k.val).run = some sh) ∧ (s.isManager = false) ∧ (s.num ≠ 0) ∧ ((s.tier k.val).waiting = []) ∧ (dOpc sh.desc ∉ [4, 5, 8]) ∧ (s.sends s.net.mgrPort .shardDone 0) ∧ (dOpc sh.desc ≠ 9) ∧ (sh.stop = 0) ∧ (s.enginesLeft = [])) ∧
    (∃ (s : State) (p : Port) (k : Fin 4) (sh : ShardS) (blocks : Fin 4), (s.up) ∧ (s.still) ∧ ((s.tier k.val).run = some sh) ∧ (s.isManager = false) ∧ (s.num ≠ 0) ∧ ((s.tier k.val).waiting = []) ∧ (dOpc sh.desc ∉ [4, 5, 8]) ∧ (s.sends s.net.mgrPort .shardDone 0) ∧ (s.engGoes k.val sh = true) ∧ (sh.units.length ≤ sh.at_.unit)) ∧
    (∃ (s : State) (p : Port) (k : Fin 4) (sh : ShardS) (blocks : Fin 4) (h : Hdr), (s.up) ∧ (s.still) ∧ ((s.tier k.val).run = some sh) ∧ (s.isManager = false) ∧ (s.num ≠ 0) ∧ ((s.tier k.val).waiting = []) ∧ (dOpc sh.desc ∉ [4, 5, 8]) ∧ (s.sends s.net.mgrPort .shardDone 0) ∧ (h.port = p) ∧ (h.src = 0) ∧ (h.dstHost = false) ∧ (s.takes p .abort h.ndata) ∧ (s.mine h = true) ∧ (s.sends p .shardDone 0) ∧ (∀ j < 4, (s.tier j).waiting = [] ∧ (j ≠ k.val → (s.tier j).run = none))) ∧
    (∃ (s : State) (p : Port) (k : Fin 4) (sh : ShardS) (blocks : Fin 4), (s.up) ∧ (s.still) ∧ ((s.tier k.val).run = some sh) ∧ (s.isManager = false) ∧ (s.num ≠ 0) ∧ ((s.tier k.val).waiting = []) ∧ (s.engGoes k.val sh = true) ∧ (sh.units.length ≤ sh.at_.unit)) :=
  ⟨⟨{ dev.modTier 1 (fun t => { t with stage := 3 }) with net.mgrPort := .e }, .e, 1, H .e 2 0 5 false, ge, false, false, List.replicate 16 0x5000000, Or.inl (by decide +kernel), by decide +kernel⟩,
   ⟨dev.setFld Reg.ENG_CTL F.ENG_CTL_HOLD 1, .e, 3, H .e 2 0 5 false, ge, false, false, List.replicate 16 0, by decide +kernel⟩,
   ⟨{ runs kF ({ shard wF kF with units := [slU], tag := some 1, mark := { unit := 1 } }) with net.mgrPort := .e }, .e, Fin.ofNat 4 kF, { shard wF kF with units := [slU], tag := some 1, mark := { unit := 1 } }, 3, by decide +kernel⟩,
   ⟨{ ((((runs kF sl).modTier kF (fun x => { x with stage := 2 })).modTier 2 (fun x => { x with stage := 1 })).modTier 3 (fun x => { x with stage := 1 }) |>.setFld Reg.ENG_CTL F.ENG_CTL_MIGRATE_EN 1).setFld Reg.ENG_CTL F.ENG_CTL_MIG_STAGE 1 with own.count := [(5, 300)] }, .e, Fin.ofNat 4 kF, sl, 3, (if kF = 0 then 1 else 0), slU, rfl, sl_mig, by decide +kernel⟩,
   ⟨(runs kF ({ shard wF kF with units := [slU], tag := some 1, mark := { unit := 1 } })).setFld Reg.ENG_CTL F.ENG_CTL_MIGRATE_EN 0, .e, Fin.ofNat 4 kF, { shard wF kF with units := [slU], tag := some 1, mark := { unit := 1 } }, 3, by decide +kernel⟩,
   ⟨{ noEng kF ({ shard wF kF with units := [slU], at_ := { unit := 1, bytes := 128 } }) with net.mgrPort := .e }, .e, Fin.ofNat 4 kF, { shard wF kF with units := [slU], at_ := { unit := 1, bytes := 128 } }, 3, by decide +kernel⟩,
   ⟨{ runs kF ({ shard wF kF with units := [slU], at_ := { unit := 1, bytes := 128 } }) with net.mgrPort := .e }, .e, Fin.ofNat 4 kF, { shard wF kF with units := [slU], at_ := { unit := 1, bytes := 128 } }, 3, by decide +kernel⟩,
   ⟨{ runs kF ({ shard wF kF with units := [slU], tag := some 1, mark := { unit := 1 } }) with net.mgrPort := .e }, .e, Fin.ofNat 4 kF, { shard wF kF with units := [slU], tag := some 1, mark := { unit := 1 } }, 3, H .e 0 0 5 false, by decide +kernel⟩,
   ⟨{ runs kF ({ shard wF kF with units := [slU], at_ := { unit := 1, bytes := 128 } }) with net.mgrPort := .e }, .e, Fin.ofNat 4 kF, { shard wF kF with units := [slU], at_ := { unit := 1, bytes := 128 } }, 3, by decide +kernel⟩⟩

theorem test_witness_ShardReports :
    (∃ (s : State) (p : Port) (h : Hdr) (g : EngHdr) (d : DescS) (x : ShardM) (last : Bool) (data : List Byte), (s.up) ∧ (s.still) ∧ (s.isManager = true) ∧ (h.port = p) ∧ (s.hostSide p = false) ∧ (s.mine h = true) ∧ (s.que.descs = [d]) ∧ (d.stage = .running) ∧ (d.q = g.queue) ∧ (dSeq d.words = g.dseq.toNat) ∧ (d.shards = [(g.index, x)]) ∧ (x.done = false) ∧ (d.phaseB = .none) ∧ (s.takes p .part h.ndata) ∧ (data.length ≤ 32 * h.ndata) ∧ (g.epoch = x.epoch)) ∧
    (∃ (s : State) (p : Port) (h : Hdr) (g : EngHdr) (d : DescS) (x : ShardM) (lines firstFail swaps : Word), (s.up) ∧ (s.still) ∧ (s.isManager = true) ∧ (h.port = p) ∧ (s.hostSide p = false) ∧ (s.mine h = true) ∧ (s.que.descs = [d]) ∧ (d.stage = .running) ∧ (d.q = g.queue) ∧ (dSeq d.words = g.dseq.toNat) ∧ (d.shards = [(g.index, x)]) ∧ (x.done = false) ∧ (d.phaseB = .none) ∧ (s.takes p .shardDone h.ndata) ∧ (g.epoch = x.epoch) ∧ (dOpc d.words ≠ 9) ∧ (dOpc d.words ≠ 0x45) ∧ (resultGranule d.words = none) ∧ (dQuiet d.words = false) ∧ (s.ringFree d.q)) ∧
    (∃ (s : State) (p : Port) (h : Hdr) (g : EngHdr) (d : DescS) (x : ShardM) (last : Bool) (data : List Byte), (s.up) ∧ (s.still) ∧ (s.isManager = true) ∧ (h.port = p) ∧ (s.hostSide p = false) ∧ (s.mine h = true) ∧ (s.que.descs = [d]) ∧ (d.stage = .running) ∧ (d.q = g.queue) ∧ (dSeq d.words = g.dseq.toNat) ∧ (d.shards = [(g.index, x)]) ∧ (x.done = false) ∧ (d.phaseB = .none) ∧ (s.takes p .part h.ndata) ∧ (data.length ≤ 32 * h.ndata) ∧ (g.epoch < x.epoch)) ∧
    (∃ (s : State) (p : Port) (h : Hdr) (g : EngHdr) (d : DescS) (x : ShardM) (lines firstFail swaps : Word), (s.up) ∧ (s.still) ∧ (s.isManager = true) ∧ (h.port = p) ∧ (s.hostSide p = false) ∧ (s.mine h = true) ∧ (s.que.descs = [d]) ∧ (d.stage = .running) ∧ (d.q = g.queue) ∧ (dSeq d.words = g.dseq.toNat) ∧ (d.shards = [(g.index, x)]) ∧ (x.done = false) ∧ (d.phaseB = .none) ∧ (s.takes p .shardDone h.ndata) ∧ (g.epoch < x.epoch)) ∧
    (∃ (s : State) (g : Fin 256) (d : DescS), (s.up) ∧ (s.still) ∧ (s.isManager = true) ∧ (s.que.descs = [d]) ∧ (s.members g.val = [d.q]) ∧ (s.isEpochEnd d = true) ∧ ((AMap.get g.val ({} : GroupS) s.que.groups).closing = false) ∧ (d.phaseB = .none) ∧ (dQuiet d.words = false) ∧ (s.ringFree d.q)) :=
  ⟨⟨rep sm, .w, H .w 1 5 0 false, ge, dR sm, sm, true, [1, 2, 3], by decide +kernel⟩,
   ⟨rep sm, .w, H .w 0 5 0 false, ge, dR sm, sm, 3, 4, 5, by decide +kernel⟩,
   ⟨rep { sm with epoch := 2 }, .w, H .w 1 5 0 false, ge, dR { sm with epoch := 2 }, { sm with epoch := 2 }, true, [1, 2], by decide +kernel⟩,
   ⟨rep { sm with epoch := 2 }, .w, H .w 0 5 0 false, ge, dR { sm with epoch := 2 }, { sm with epoch := 2 }, 3, 4, 5, by decide +kernel⟩,
   ⟨sE, 7, mkD (dW 0x40 1 0 0 0 0 0), by decide +kernel⟩⟩

theorem test_witness_ChannelPicks :
    (∃ (s : State) (k : Fin 64) (pos : Nat) (a : Acc) (turn : Option (Bool × List Nat × Nat)) (r : State) (d : List Byte × Nat), (r = s.relevel (k.val / 2)) ∧ (r.pick k.val true = some (pos, a, turn)) ∧ (s.up) ∧ (s.still) ∧ (s.issues (k.val / 2) = true) ∧ (a.origin ≠ .ranger) ∧ (a.wr = some d) ∧ (d.1.length = 128)) ∧
    (∃ (s : State) (k : Fin 64) (pos : Nat) (a : Acc) (turn : Option (Bool × List Nat × Nat)) (r : State), (r = s.relevel (k.val / 2)) ∧ (r.pick k.val true = some (pos, a, turn)) ∧ (s.up) ∧ (s.still) ∧ (s.issues (k.val / 2) = true) ∧ (a.origin ≠ .ranger) ∧ (a.wr = none)) ∧
    (∃ (s : State) (k : Fin 64) (pos : Nat) (a : Acc) (turn : Option (Bool × List Nat × Nat)) (r : State), (r = s.relevel (k.val / 2)) ∧ (s.up) ∧ (s.still) ∧ (s.issues (k.val / 2) = true) ∧ ((s.pc k.val).rowAts.contains s.now = false) ∧ ((fromPtr (s.pc k.val).rowPtr).find? (r.repays k.val) = some pos)) ∧
    (∃ (s : State) (k : Fin 64) (pos : Nat) (a : Acc) (turn : Option (Bool × List Nat × Nat)) (r : State), (r = s.relevel (k.val / 2)) ∧ (s.up) ∧ (s.still) ∧ (s.issues (k.val / 2) = true) ∧ ((s.pc k.val).rowAts.contains s.now = false) ∧ ((fromPtr (s.pc k.val).rowPtr).find? (r.repays k.val) = none) ∧ ((fromPtr (s.pc k.val).rowPtr).find? (r.nrefs k.val) = some pos)) ∧
    (∃ (s : State) (k : Fin 64) (pos : Nat) (a : Acc) (turn : Option (Bool × List Nat × Nat)) (r : State), (r = s.relevel (k.val / 2)) ∧ (r.pick k.val false = some (pos, a, turn)) ∧ (s.up) ∧ (s.still) ∧ (s.issues (k.val / 2) = true) ∧ ((s.pc k.val).rowAts.contains s.now = false) ∧ ((fromPtr (s.pc k.val).rowPtr).find? (r.repays k.val) = none) ∧ ((fromPtr (s.pc k.val).rowPtr).find? (r.nrefs k.val) = none) ∧ (rowCmd (s.bank k.val pos) a = .pre)) ∧
    (∃ (s : State) (k : Fin 64) (pos : Nat) (a : Acc) (turn : Option (Bool × List Nat × Nat)) (r : State), (r = s.relevel (k.val / 2)) ∧ (r.pick k.val false = some (pos, a, turn)) ∧ (s.up) ∧ (s.still) ∧ (s.issues (k.val / 2) = true) ∧ ((s.pc k.val).rowAts.contains s.now = false) ∧ ((fromPtr (s.pc k.val).rowPtr).find? (r.repays k.val) = none) ∧ ((fromPtr (s.pc k.val).rowPtr).find? (r.nrefs k.val) = none) ∧ (rowCmd (s.bank k.val pos) a = .act)) :=
  ⟨⟨bankS (acc (some (qd, mdWord 1 false 0))) (some pl.row), k0, (picked (bankS (acc (some (qd, mdWord 1 false 0))) (some pl.row)) true).1, (picked (bankS (acc (some (qd, mdWord 1 false 0))) (some pl.row)) true).2.1, (picked (bankS (acc (some (qd, mdWord 1 false 0))) (some pl.row)) true).2.2, (bankS (acc (some (qd, mdWord 1 false 0))) (some pl.row)).relevel (k0.val / 2), (qd, mdWord 1 false 0), rfl, picked_eq _ _ (by decide +kernel), by decide +kernel⟩,
   ⟨bankS (acc none) (some pl.row), k0, (picked (bankS (acc none) (some pl.row)) true).1, (picked (bankS (acc none) (some pl.row)) true).2.1, (picked (bankS (acc none) (some pl.row)) true).2.2, (bankS (acc none) (some pl.row)).relevel (k0.val / 2), rfl, picked_eq _ _ (by decide +kernel), by decide +kernel⟩,
   ⟨(bankS (acc none) none).modBank pl.pc pl.pos (fun b => { b with queue := [], debt := 3, row := none }), k0, pl.pos, acc none, none, ((bankS (acc none) none).modBank pl.pc pl.pos (fun b => { b with queue := [], debt := 3, row := none })).relevel (k0.val / 2), rfl, by decide +kernel⟩,
   ⟨(bankS (acc none) none).modBank pl.pc pl.pos (fun b => { b with nref := [(4, 1)] }), k0, pl.pos, acc none, none, ((bankS (acc none) none).modBank pl.pc pl.pos (fun b => { b with nref := [(4, 1)] })).relevel (k0.val / 2), rfl, by decide +kernel⟩,
   ⟨bankS (acc none) (some 77), k0, (picked (bankS (acc none) (some 77)) false).1, (picked (bankS (acc none) (some 77)) false).2.1, (picked (bankS (acc none) (some 77)) false).2.2, (bankS (acc none) (some 77)).relevel (k0.val / 2), rfl, picked_eq _ _ (by decide +kernel), by decide +kernel⟩,
   ⟨bankS (acc none) none, k0, (picked (bankS (acc none) none) false).1, (picked (bankS (acc none) none) false).2.1, (picked (bankS (acc none) none) false).2.2, (bankS (acc none) none).relevel (k0.val / 2), rfl, picked_eq _ _ (by decide +kernel), by decide +kernel⟩⟩

theorem test_witness_ReadReturns :
    (∃ (s : State) (p : Port) (id rid : Nat) (b : Burst) (r : OReq), (s.up) ∧ (s.still) ∧ (AMap.find id s.stack.bursts = some b) ∧ (b.acc.origin = .req rid) ∧ (AMap.find rid s.own.reqs = some r) ∧ (r.prot = false) ∧ (r.from? = some p) ∧ (s.hostSide p = false) ∧ (r.m.op = .rd64 ∨ r.m.op = .rd128) ∧ (r.admitted = true → r.sc < 4 → s.target r.sc = 0) ∧ (b.data.length = 128) ∧ (b.md < 65536) ∧ (mdState b.md < 4) ∧ (mdState b.md = 0 ∨ mdKid b.md = r.kid) ∧ (mdPoison b.md = false) ∧ (s.sends p .rdata (granule r.m.op / 32))) ∧
    (∃ (s : State) (p : Port) (id rid : Nat) (b : Burst) (r : OReq) (errors : List (Nat × Byte)), (s.up) ∧ (s.still) ∧ (AMap.find id s.stack.bursts = some b) ∧ (b.acc.origin = .req rid) ∧ (AMap.find rid s.own.reqs = some r) ∧ (r.prot = false) ∧ (r.from? = some p) ∧ (s.hostSide p = false) ∧ (r.m.op = .rd64 ∨ r.m.op = .rd128) ∧ (r.admitted = true → r.sc < 4 → s.target r.sc = 0) ∧ (lineDecode errors = none) ∧ (s.mild (59 + 5 * (b.acc.place.chan / 8)) b.acc.place.chan) ∧ (s.sends p .err 0)) :=
  ⟨⟨burstS, .e, 1, 1, burst, rdReq, by decide +kernel⟩,
   ⟨burstS, .e, 1, 1, burst, rdReq, bad20, by decide +kernel⟩⟩

theorem test_witness_Admission :
    (∃ (s : State) (c : Fin 16) (id : Nat) (r : OReq), (s.up) ∧ (s.still) ∧ (AMap.get c.val ([] : List Nat) s.own.holds = [id]) ∧ (AMap.find id s.own.reqs = some r) ∧ (r.sc = c.val) ∧ (AMap.get c.val 0 s.own.count < s.limit c.val) ∧ (s.refuses c.val (s.linePlace r.line).chan = false) ∧ (r.m.op = .rd64 ∨ r.m.op = .rd128) ∧ (r.prot = false) ∧ (r.data = none) ∧ (r.m.upd = none) ∧ (s.heldAhead id r = false) ∧ (s.tagAhead id r = false) ∧ (s.mustWait r.line = false) ∧ (s.own.merges = []) ∧ ((s.chan (s.linePlace r.line).chan).retired = false) ∧ (s.queuedWrite (s.linePlace r.line) = none)) ∧
    (∃ (s : State) (n : Fin 32) (a : Acc), (s.up) ∧ (s.still) ∧ (s.nextMove n.val = some a) ∧ ((s.tier (n.val / 8)).buffer = []) ∧ (a.wr = none ∨ a.origin = .done ∨ a.origin = .copyW)) ∧
    (∃ (s : State) (n : Fin 32) (a : Acc) (id : Nat) (p : Port) (r : OReq), (s.up) ∧ (s.still) ∧ (s.nextMove n.val = some a) ∧ ((s.tier (n.val / 8)).buffer = []) ∧ (a.wr.isSome = true) ∧ (a.origin = .wrOf id) ∧ (AMap.find id s.own.reqs = some r) ∧ (r.accs = 1) ∧ (r.from? = some p) ∧ (s.hostSide p = false) ∧ (s.sends p .wdone 0) ∧ (r.admitted = true → r.sc < 4 → s.target r.sc = 0)) :=
  ⟨⟨{ bu with own.holds := [(5, [1])], own.reqs := [(1, { rdReq with stage := .held })] }, 5, 1, { rdReq with stage := .held }, by decide +kernel⟩,
   ⟨bu.modChan pl.chan (fun c => { c with admission := [acc none] }), Fin.ofNat 32 pl.chan, acc none, by decide +kernel⟩,
   ⟨{ bu.modChan pl.chan (fun c => { c with admission := c.admission ++ [{ acc (some (qd, mdWord 1 false 0)) with origin := .wrOf 1 }] }) with own.reqs := [(1, { rdReq with m := msgOf (.wr128 (H .e 4 0 5 true) (ad 0 5 0x4000) qd 0), accs := 1 })] }, Fin.ofNat 32 pl.chan, { acc (some (qd, mdWord 1 false 0)) with origin := .wrOf 1 }, 1, .e, { rdReq with m := msgOf (.wr128 (H .e 4 0 5 true) (ad 0 5 0x4000) qd 0), accs := 1 }, by decide +kernel⟩⟩

theorem test_witness_RefreshAndSelfRefresh :
    (∃ (s : State) (k : Fin 64) (pos : Fin 48), (s.up) ∧ (s.still) ∧ ((s.chan (k.val / 2)).pstate ≠ .selfRefresh) ∧ ((s.chan (k.val / 2)).pstate ≠ .retired) ∧ ((s.chan (k.val / 2)).retired = false) ∧ ((s.tier (k.val / 16)).hbLost = false) ∧ (s.waitedAt k.val pos.val = false) ∧ (s.silent (k.val / 2) = false)) ∧
    (∃ (s : State) (k : Fin 64) (pos : Fin 48), (s.up) ∧ (s.still) ∧ ((s.chan (k.val / 2)).pstate ≠ .selfRefresh) ∧ ((s.chan (k.val / 2)).pstate ≠ .retired) ∧ ((s.chan (k.val / 2)).retired = false) ∧ ((s.tier (k.val / 16)).hbLost = false) ∧ ((s.waitedAt k.val pos.val || s.silent (k.val / 2)) = true) ∧ ((s.bank k.val pos.val).debt + 1 < Config.REF_DEBT_MAX)) ∧
    (∃ (s : State) (n : Fin 32), (s.up) ∧ (s.still) ∧ ((s.chan n.val).coolAt.isSome = true) ∧ (1 < (s.chan n.val).mult)) ∧
    (∃ (s : State) (n : Fin 32), (s.up) ∧ (s.still) ∧ ((s.chan n.val).pstate = .active) ∧ ((s.chan n.val).retired = false) ∧ (s.srReady n.val = true) ∧ ((s.chan n.val).idleAt + s.idleSr (n.val / 8) ≤ s.now) ∧ ((s.chan n.val).quietTill ≤ s.now)) ∧
    (∃ (s : State) (n : Fin 32), (s.up) ∧ (s.still) ∧ ((s.chan n.val).pstate = .selfRefresh) ∧ ((s.chan n.val).srAt + Config.tSR_MIN ≤ s.now) ∧ ((s.tier (n.val / 8)).hbLost = false)) ∧
    (∃ (s : State) (n : Fin 32) (obs : TrainObs), (s.up) ∧ (s.still) ∧ ((s.chan n.val).pstate = .exiting) ∧ ((s.chan n.val).exitAt + Config.tXS ≤ s.now) ∧ ((s.chan n.val).remeasure = false)) ∧
    (∃ (s : State) (n : Fin 32) (obs : TrainObs), (s.up) ∧ (s.still) ∧ ((s.chan n.val).pstate = .exiting) ∧ ((s.chan n.val).exitAt + Config.tXS ≤ s.now) ∧ ((s.chan n.val).remeasure = true) ∧ ((s.chan n.val).train.length = 2) ∧ (failingOn obs (n.val / 8) = []) ∧ (s.unnamed [2 * n.val, 2 * n.val + 1] obs = [])) ∧
    (∃ (s : State) (n : Fin 32) (keep : Nat), (s.up) ∧ (s.still) ∧ ((s.chan n.val).pasrInit = some keep) ∧ (s.own.waits = []) ∧ (s.own.merges = []) ∧ (s.own.parked = []) ∧ (s.pool.jobs = [])) :=
  ⟨⟨bu, 63, 47, by decide +kernel⟩,
   ⟨bankS { acc none with firm := true, refs := 1 } (some 77), k0, Fin.ofNat 48 pl.pos, by decide +kernel⟩,
   ⟨bu.modChan 5 (fun c => { c with mult := 4, coolAt := some 3 }), 5, by decide +kernel⟩,
   ⟨bu.setFld (Reg.CH_CTL 5) F.CH_CTL_SR_EN 1, 5, by decide +kernel⟩,
   ⟨bu.modChan 5 (fun c => { c with pstate := .selfRefresh }), 5, by decide +kernel⟩,
   ⟨bu.modChan 5 (fun c => { c with pstate := .exiting }), 5, { ca := [], pins := [(512 + 10 * 64, 5, 6)], failing := [] }, by decide +kernel⟩,
   ⟨bu.modChan 5 (fun c => { c with pstate := .exiting, remeasure := true, train := [{}, {}] }), 5, { ca := [], pins := [(512 + 10 * 64, 5, 6)], failing := [] }, by decide +kernel⟩,
   ⟨bu.modChan 5 (fun c => { c with pasrInit := some 3 }), 5, 3, by decide +kernel⟩⟩

theorem test_witness_RandomBits :
    (∃ (s : State) (k : Fin 4), (s.up) ∧ (s.still) ∧ ((s.tier k.val).built = true) ∧ (s.sourceOk k.val = true)) ∧
    (∃ (s : State) (k : Fin 4) (path : Path), (s.up) ∧ (s.still) ∧ ((s.tier k.val).built = true) ∧ (s.sourceOk k.val = true)) ∧
    (∃ (s : State) (k : Fin 4) (apt : Bool), (s.up) ∧ (s.still) ∧ ((s.tier k.val).built = true) ∧ (s.mild (88 + k.val) k.val)) ∧
    (∃ (s : State) (k : Fin 4), (s.up) ∧ (s.still) ∧ ((s.tier k.val).built = true) ∧ (s.sourceOk k.val = false)) :=
  ⟨⟨bu, 0, by decide +kernel⟩,
   ⟨bu, 0, .i3c, by decide +kernel⟩,
   ⟨bu, 3, true, by decide +kernel⟩,
   ⟨bu.modTier 1 (fun t => { t with rct := true }), 1, by decide +kernel⟩⟩

theorem test_witness_ServiceClasses :
    (∃ (s : State) (n : Fin 32) (c : Fin 4), (s.up) ∧ (s.still) ∧ (s.reaches c.val n.val = true)) ∧
    (∃ (s : State) (n : Fin 32), (s.up) ∧ (s.still) ∧ ((s.chan n.val).sat = true) ∧ (∀ c < 4, s.levelNow n.val c < 2)) ∧
    (∃ (s : State) (path : Path) (c : Fin 16) (w : Word), (s.up) ∧ (s.still) ∧ (w.toNat / 512 = (s.reg (Reg.SVC_LIMIT c.val)).toNat / 512) ∧ (4 ≤ c.val ∨ s.budgetOk (0x40 + 4 * c.val) (BitVec.ofNat 32 (max 1 (min 256 (w.toNat % 512)))) = true)) ∧
    (∃ (s : State) (path : Path) (c : Fin 4) (w : Word), (s.up) ∧ (s.still) ∧ (s.budgetOk (0xA0 + 4 * c.val) w = true)) ∧
    (∃ (s : State) (path : Path) (c : Fin 4) (w : Word), (s.up) ∧ (s.still) ∧ (s.budgetOk (0xA0 + 4 * c.val) w = false)) ∧
    (∃ (s : State) (path : Path) (c : Fin 4) (w : Word), (s.up) ∧ (s.still) ∧ (w.toNat / 2 ^ 17 = (s.reg (Reg.SVC_TARGET c.val)).toNat / 2 ^ 17) ∧ (∀ k < 4, (s.tier k).hbLost = false)) ∧
    (∃ (s : State) (pc : Fin 64) (group later : Nat), (s.up) ∧ (s.still) ∧ (s.mild (58 + 5 * (pc.val / 16)) (pc.val / 2)) ∧ ((s.pc pc.val).issued = [])) :=
  ⟨⟨bu, 5, 1, by decide +kernel⟩,
   ⟨bu.modChan 5 (fun c => { c with sat := true }), 5, by decide +kernel⟩,
   ⟨bu, .i3c, 5, 511, by decide +kernel⟩,
   ⟨bu, .i3c, 0, 0, by decide +kernel⟩,
   ⟨((bu.setReg (Reg.SVC_LIMIT 1) 256).setReg (Reg.SVC_REACH 0) 0), .i3c, 0, 0xFFFFFFFF, by decide +kernel⟩,
   ⟨bu, .i3c, 2, 0x10033, by decide +kernel⟩,
   ⟨bu, 0, 33, 2, by decide +kernel⟩⟩

theorem test_witness_Copies :
    (∃ (s : State) (job i : Nat) (c : CopyJob) (e : RemapE), (s.up) ∧ (s.pool.jobs = [(job, c)]) ∧ (c.kind = .page i none) ∧ (AMap.find i s.pool.remaps = some e) ∧ (s.own.waits = []) ∧ (s.own.merges = []) ∧ (s.own.parked = []) ∧ (s.still) ∧ (c.total ≤ c.next) ∧ (s.pool.blocks.all (fun b => (s.chan (b / 2)).half.isNone && !(s.chan (b / 2)).retired) = true) ∧ (s.pool.steers = [])) ∧
    (∃ (s : State) (job i : Nat) (c : CopyJob) (e : RemapE) (id : Nat) (b : Burst), (s.up) ∧ (s.pool.jobs = [(job, c)]) ∧ (c.kind = .page i none) ∧ (AMap.find i s.pool.remaps = some e) ∧ (s.own.waits = []) ∧ (s.own.merges = []) ∧ (s.own.parked = []) ∧ (({ s with pool.jobs := [(job, { c with next := c.total })] } : State).still) ∧ (c.total = c.next + 1) ∧ (AMap.find id s.stack.bursts = some b) ∧ (b.acc.origin = .copy job) ∧ (b.data.length = 128) ∧ (b.md < 65536) ∧ (mdState b.md < 4) ∧ ((s.chan (s.copyTarget c c.next).chan).retired = false) ∧ (s.queuedWrite (s.copyTarget c c.next) = none)) :=
  ⟨⟨cS 32, 1, 3, { job1 with next := 32 }, remap1, by decide +kernel⟩,
   ⟨{ cS 31 with stack.bursts := [(1, { burst with acc := { burst.acc with origin := .copy 1 } })] }, 1, 3, job1, remap1, 1, { burst with acc := { burst.acc with origin := .copy 1 } }, by decide +kernel⟩⟩

theorem test_witness_RangerAndSuspects :
    (∃ (s : State), (s.up) ∧ (s.still)) ∧
    (∃ (s : State) (n : Fin 32) (errors verify : List (Nat × Byte)), (s.up) ∧ (s.still) ∧ (s.rangerRuns n.val = true) ∧ (s.rangerSkips (Place.ofRanger n.val (s.chan n.val).rangerPos) = false)) ∧
    (∃ (s : State) (k : Fin 64) (pos : Nat) (a : Acc) (turn : Option (Bool × List Nat × Nat)) (errors : List (Nat × Byte)) (syms : Nat), ((s.relevel (k.val / 2)).pick k.val true = some (pos, a, turn)) ∧ (s.up) ∧ (s.still) ∧ (s.issues (k.val / 2) = true) ∧ (a.origin = .ranger) ∧ (a.place.pc = k.val) ∧ ((s.chan (k.val / 2)).visit = some (errors, [])) ∧ (lineDecode errors = some ([], syms)) ∧ ((s.chan (k.val / 2)).level < Config.CE_DEPTH) ∧ ((s.chan (k.val / 2)).rangerPos + 1 < rangerPlaces) ∧ (s.lineMd a.place < 65536) ∧ (mdState (s.lineMd a.place) < 4)) ∧
    (∃ (s : State) (n : Fin 32), (s.up) ∧ (s.still) ∧ ((s.chan n.val).retired = false) ∧ (s.fld (Reg.CMN_RANGER_CTL (n.val / 8)) F.CMN_RANGER_CTL_EN = 1) ∧ (s.fld (Reg.CH_ECC_STATUS n.val) F.CH_ECC_STATUS_RANGER_LATE = 0)) ∧
    (∃ (s : State) (q : PinTest) (at_ : Place × Nat), (s.up) ∧ (s.still) ∧ (groupExists q.tier.val q.group = true) ∧ (posKind q.tier.val q.group q.position = .data q.pc.val) ∧ (at_ = (s.pc q.pc.val).lastHit.getD (posPlace q.tier.val q.group q.position)) ∧ ((s.pc q.pc.val).suspect ≠ []) ∧ (s.flt.blaze.f2 = none) ∧ (q.pass = true)) ∧
    (∃ (s : State) (q : PinTest) (at_ : Place × Nat) (i : Nat), (s.up) ∧ (s.still) ∧ (groupExists q.tier.val q.group = true) ∧ (posKind q.tier.val q.group q.position = .data q.pc.val) ∧ (at_ = (s.pc q.pc.val).lastHit.getD (posPlace q.tier.val q.group q.position)) ∧ ((s.pc q.pc.val).suspect ≠ []) ∧ (s.flt.blaze.f2 = none) ∧ (q.pass = false) ∧ ((s.tier q.tier.val).spares = []) ∧ ((s.tier q.tier.val).toSteer = []) ∧ (s.freeSpare q.tier.val q.group = some i)) ∧
    (∃ (s : State) (q : PinTest) (at_ : Place × Nat), (s.up) ∧ (s.still) ∧ (groupExists q.tier.val q.group = true) ∧ (posKind q.tier.val q.group q.position = .data q.pc.val) ∧ (at_ = (s.pc q.pc.val).lastHit.getD (posPlace q.tier.val q.group q.position)) ∧ ((s.pc q.pc.val).suspect ≠ []) ∧ (s.flt.blaze.f2 = none) ∧ (q.pass = false) ∧ (s.freeSpare q.tier.val q.group = none) ∧ ((s.tier q.tier.val).spares.all (fun e => !(e.1 / 64 == q.group && e.2.assigned && !e.2.failed && e.2.position == q.position)) = true) ∧ ((s.tier q.tier.val).toSteer = []) ∧ ((s.chan (q.pc.val / 2)).retired = false) ∧ ((s.chan (q.pc.val / 2)).half = none) ∧ ((s.chan (q.pc.val / 2)).toHalf = none)) ∧
    (∃ (s : State) (n : Fin 32) (b : Bool), (s.up) ∧ (s.still) ∧ ((s.chan n.val).switchAt.isSome = true) ∧ ((s.chan n.val).toHalf = some b) ∧ (s.pool.blocks = []) ∧ (s.pool.steers = []) ∧ (s.mild (45 + 4 * (n.val / 8)) n.val)) :=
  ⟨⟨bu, by decide +kernel⟩,
   ⟨bu, 3, [(3, 7)], [], by decide +kernel⟩,
   ⟨(bankS { acc none with origin := .ranger, sc := 15 } (some pl.row)).modChan (pl.pc / 2) (fun c => { c with visit := some ([(3, 7)], []) }), k0, (picked ((bankS { acc none with origin := .ranger, sc := 15 } (some pl.row)).modChan (pl.pc / 2) (fun c => { c with visit := some ([(3, 7)], []) })) true).1, (picked ((bankS { acc none with origin := .ranger, sc := 15 } (some pl.row)).modChan (pl.pc / 2) (fun c => { c with visit := some ([(3, 7)], []) })) true).2.1, (picked ((bankS { acc none with origin := .ranger, sc := 15 } (some pl.row)).modChan (pl.pc / 2) (fun c => { c with visit := some ([(3, 7)], []) })) true).2.2, [(3, 7)], 1, picked_eq _ _ (by decide +kernel), by decide +kernel⟩,
   ⟨bu, 3, by decide +kernel⟩,
   ⟨bu.modPc 17 (fun k => { k with suspect := [20] }), pin true, posPlace 1 3 200, by decide +kernel⟩,
   ⟨bu.modPc 17 (fun k => { k with suspect := [20] }), pin false, posPlace 1 3 200, 0, by decide +kernel⟩,
   ⟨noSpares.modPc 17 (fun k => { k with suspect := [20] }), pin false, posPlace 1 3 200, by decide +kernel⟩,
   ⟨bu.modChan 8 (fun c => { c with switchAt := some 4, toHalf := some true, halfFrom := some (3, 200, posPlace 1 3 200) }), 8, true, by decide +kernel⟩⟩

theorem test_witness_Calibration :
    (∃ (s : State) (k : Fin 4) (c : CalCause), (s.up) ∧ (s.still) ∧ ((s.tier k.val).hbLost = false) ∧ ((s.tier k.val).cal.pending = some c) ∧ ((s.tier k.val).cal.running = none)) ∧
    (∃ (s : State) (k : Fin 4) (m : GroupMargin) (obs : TrainObs), (s.up) ∧ (s.still) ∧ ((s.tier k.val).hbLost = false) ∧ ((s.tier k.val).cal.running.isSome = true) ∧ ((s.tier k.val).cal.measured = false) ∧ (groupExists k.val m.group = true) ∧ (m.failed = false) ∧ (AMap.find (cellOf m) (s.tier k.val).failCells = none) ∧ (failingOn obs k.val = []) ∧ (s.unnamed (((List.range 16).map (16 * k.val + ·)).filter (fun n => (s.chan (n / 2)).pstate == .active)) obs = [])) ∧
    (∃ (s : State) (k : Fin 4), (s.up) ∧ (s.still) ∧ ((s.tier k.val).hbLost = false) ∧ ((s.tier k.val).cal.running.isSome = true) ∧ ((s.tier k.val).cal.measured = true) ∧ ((s.tier k.val).toSteer = []) ∧ (s.calAuto = false) ∧ (∀ c < 8, (s.chan (8 * k.val + c)).switchAt = none)) ∧
    (∃ (s : State) (k : Fin 4) (m : GroupMargin), (s.up) ∧ (s.still) ∧ ((s.tier k.val).hbLost = false) ∧ ((s.tier k.val).cal.running = none) ∧ (groupExists k.val m.group = true) ∧ (m.failed = false) ∧ (Config.XMARGIN_MIN ≤ m.margin)) ∧
    (∃ (s : State) (k : Fin 4) (m : GroupMargin), (s.up) ∧ (s.still) ∧ ((s.tier k.val).hbLost = false) ∧ ((s.tier k.val).cal.running = none) ∧ (groupExists k.val m.group = true) ∧ (m.failed = false) ∧ (m.margin < Config.XMARGIN_MIN) ∧ (s.calAuto = true) ∧ (s.calGapOver k.val = true)) :=
  ⟨⟨calS { pending := some .command }, 2, .command, by decide +kernel⟩,
   ⟨calS { running := some .command }, 2, gm 50, { ca := [], pins := [(512 + 10 * 64, 5, 6)], failing := [] }, by decide +kernel⟩,
   ⟨(calS { running := some .command, measured := true }).setFld Reg.CLK_CAL_CTL F.CLK_CAL_CTL_AUTO 0, 2, by decide +kernel⟩,
   ⟨bu, 2, gm 20, by decide +kernel⟩,
   ⟨bu, 2, gm 19, by decide +kernel⟩⟩

theorem test_witness_Heartbeat :
    (∃ (s : State) (k : Fin 4), (s.up) ∧ (s.still) ∧ ((s.tier k.val).hbLost = false) ∧ (s.own.reqs = []) ∧ (s.own.merges = []) ∧ (s.own.commits = []) ∧ (s.mild (42 + 4 * k.val) k.val)) ∧
    (∃ (s : State) (k : Fin 4) (w : Acc) (margins : List GroupMargin) (obs : TrainObs), (s.up) ∧ (s.still) ∧ (failingOn obs k.val = []) ∧ (s.unnamed (((List.range 16).map (16 * k.val + ·)).filter (fun n => !(s.chan (n / 2)).retired)) { obs with failing := [] } = []) ∧ ((s.tier k.val).hbLost = true) ∧ ((s.tier k.val).held = [w]) ∧ ((s.tier k.val).poisons = []) ∧ ((s.tier k.val).jNew = 0) ∧ (s.pool.jobs = []) ∧ (s.own.waits = []) ∧ (s.own.merges = []) ∧ (s.own.parked = [])) ∧
    (∃ (s : State) (k : Fin 4) (path : Path), (s.up) ∧ (s.still)) :=
  ⟨⟨bu, 0, by decide +kernel⟩,
   ⟨bu.modTier 0 (fun t => { t with hbLost := true, held := [acc (some (qd, mdWord 1 false 0))] }), 0, acc (some (qd, mdWord 1 false 0)), [gm 50], { ca := [], pins := [(512 + 10 * 64, 5, 6)], failing := [] }, by decide +kernel⟩,
   ⟨bu, 0, .i3c, by decide +kernel⟩⟩

theorem test_witness_ContextCommands :
    (∃ (s : State) (path : Path) (tag : Byte) (q : Nat), (s.up) ∧ (s.still) ∧ (s.isManager = true) ∧ (s.fld Reg.QCTX_SEL F.QCTX_SEL_QUEUE = q) ∧ (s.fld Reg.QCTX_CMD F.QCTX_CMD_BUSY = 0)) ∧
    (∃ (s : State) (path : Path) (tag : Byte) (q : Nat), (s.up) ∧ (s.still) ∧ (s.isManager = true) ∧ (s.fld Reg.QCTX_SEL F.QCTX_SEL_QUEUE = q) ∧ (s.fld Reg.QCTX_CMD F.QCTX_CMD_BUSY = 0) ∧ (cState (s.ctx q) = 0) ∧ ((s.naming q).all (fun x => cState (s.ctx x) != 1) = true)) ∧
    (∃ (s : State) (path : Path) (tag : Byte) (q : Nat), (s.up) ∧ (s.still) ∧ (s.isManager = true) ∧ (s.fld Reg.QCTX_SEL F.QCTX_SEL_QUEUE = q) ∧ (s.fld Reg.QCTX_CMD F.QCTX_CMD_BUSY = 0) ∧ (cState (s.ctx q) = 0) ∧ (s.ctxValid q = true) ∧ (cGrpEn (s.ctx q) = false)) ∧
    (∃ (s : State) (path : Path) (tag : Byte) (q : Nat), (s.up) ∧ (s.still) ∧ (s.isManager = true) ∧ (s.fld Reg.QCTX_SEL F.QCTX_SEL_QUEUE = q) ∧ (s.fld Reg.QCTX_CMD F.QCTX_CMD_BUSY = 0) ∧ (cState (s.ctx q) = 0) ∧ (s.ctxValid q = false)) ∧
    (∃ (s : State) (path : Path) (tag : Byte) (q : Nat), (s.up) ∧ (s.still) ∧ (s.isManager = true) ∧ (s.fld Reg.QCTX_SEL F.QCTX_SEL_QUEUE = q) ∧ (s.fld Reg.QCTX_CMD F.QCTX_CMD_BUSY = 0) ∧ (cState (s.ctx q) = 1) ∧ (cInflight (s.ctx q) ≠ 0)) ∧
    (∃ (s : State) (path : Path) (tag : Byte) (q : Nat), (s.up) ∧ (s.still) ∧ (s.isManager = true) ∧ (s.fld Reg.QCTX_SEL F.QCTX_SEL_QUEUE = q) ∧ (s.fld Reg.QCTX_CMD F.QCTX_CMD_BUSY = 0) ∧ (cState (s.ctx q) = 1) ∧ (cInflight (s.ctx q) = 0)) ∧
    (∃ (s : State) (path : Path) (tag : Byte) (q : Nat), (s.up) ∧ (s.still) ∧ (s.isManager = true) ∧ (s.fld Reg.QCTX_SEL F.QCTX_SEL_QUEUE = q) ∧ (s.fld Reg.QCTX_CMD F.QCTX_CMD_BUSY = 0) ∧ (cState (s.ctx q) ≠ 0) ∧ (cInflight (s.ctx q) = 0) ∧ (s.que.descs.filter (fun d => d.q == q) = [])) ∧
    (∃ (s : State) (path : Path) (tag : Byte) (q : Nat) (c : Instr), (s.up) ∧ (s.still) ∧ (s.isManager = true) ∧ (s.fld Reg.QCTX_SEL F.QCTX_SEL_QUEUE = q) ∧ (s.fld Reg.QCTX_CMD F.QCTX_CMD_BUSY = 1) ∧ (c ∈ [.qctxRead path tag, .qctxWrite path tag, .qctxEnable path tag, .qctxDrain path tag, .qctxDisable path tag])) ∧
    (∃ (s : State) (path : Path) (tag : Byte) (q : Nat), (s.up) ∧ (s.still) ∧ (s.isManager = true) ∧ (s.fld Reg.QCTX_SEL F.QCTX_SEL_QUEUE = q)) :=
  ⟨⟨qs 1 2, .i3c, 0x5A, 3, by decide +kernel⟩,
   ⟨qs 0 0, .i3c, 0x5A, 3, by decide +kernel⟩,
   ⟨qs 0 0, .i3c, 0x5A, 3, by decide +kernel⟩,
   ⟨{ qs 0 0 with que.ctx := [] }, .i3c, 0x5A, 3, by decide +kernel⟩,
   ⟨qs 1 2, .i3c, 0x5A, 3, by decide +kernel⟩,
   ⟨qs 1 0, .i3c, 0x5A, 3, by decide +kernel⟩,
   ⟨qs 3 0, .i3c, 0x5A, 3, by decide +kernel⟩,
   ⟨(qs 1 0).setFld Reg.QCTX_CMD F.QCTX_CMD_BUSY 1, .i3c, 0x5A, 3, .qctxRead .i3c 0x5A, by decide +kernel⟩,
   ⟨qs 1 0, .i3c, 0x5A, 3, by decide +kernel⟩⟩

theorem test_witness_PollsFetchesAndRecords :
    (∃ (s : State) (q : Nat), (s.up) ∧ (s.still) ∧ (s.isManager = true) ∧ (s.fld Reg.QCTX_POLL F.QCTX_POLL_RUN = 1) ∧ (s.que.polling = 0) ∧ (s.enabled = [q]) ∧ (s.ringFull (s.ringOf q) = false) ∧ (AMap.find s.mgr.nextH s.mgr.host = none) ∧ (s.sends s.hostPort .rd128 0)) ∧
    (∃ (s : State) (q : Nat), (s.up) ∧ (s.still) ∧ (s.isManager = true) ∧ (s.fld Reg.QCTX_POLL F.QCTX_POLL_RUN = 1) ∧ (s.que.polling ≠ 0) ∧ (s.mild 98 0)) ∧
    (∃ (s : State) (q : Nat), (s.up) ∧ (s.still) ∧ (s.isManager = true) ∧ (s.fetchable = [q]) ∧ (cHead (s.ctx q) < 2 ^ 32) ∧ (AMap.find q s.que.tails = some ((cHead (s.ctx q) + 1) % 2 ^ 32)) ∧ (s.ringFull (s.ringOf q) = false) ∧ (AMap.get (cSc (s.ctx q)) 0 s.own.count < s.limit (cSc (s.ctx q))) ∧ (AMap.find s.mgr.nextH s.mgr.host = none) ∧ (s.sends s.hostPort .rd64 0)) ∧
    (∃ (s : State) (q : Nat) (r : RecS), (s.up) ∧ (s.still) ∧ (s.isManager = true) ∧ ((AMap.get q ({} : CqS) s.que.cqs).recs = [r]) ∧ ((AMap.get q ({} : CqS) s.que.cqs).read ≠ some (r.n / 4)) ∧ (AMap.find s.mgr.nextH s.mgr.host = none) ∧ (s.sends s.hostPort .rd64 0)) ∧
    (∃ (s : State) (q : Nat) (a b c d : RecS), (s.up) ∧ (s.still) ∧ (s.isManager = true) ∧ ((AMap.get q ({} : CqS) s.que.cqs).recs = [a, b, c, d]) ∧ (a.n % 4 = 0) ∧ (b.n = a.n + 1) ∧ (c.n = a.n + 2) ∧ (d.n = a.n + 3) ∧ (a.key = none) ∧ (b.key = none) ∧ (c.key = none) ∧ (d.key = none) ∧ (s.sends s.hostPort .wr64 2)) :=
  ⟨⟨(qs 1 0).setFld Reg.QCTX_POLL F.QCTX_POLL_RUN 1, 3, by decide +kernel⟩,
   ⟨{ (qs 1 0).setFld Reg.QCTX_POLL F.QCTX_POLL_RUN 1 with que.polling := 2 }, 3, by decide +kernel⟩,
   ⟨{ qs 1 2 with que.tails := [(3, 71)] }, 3, by decide +kernel⟩,
   ⟨cqOf [recN 37], 3, recN 37, by decide +kernel⟩,
   ⟨cqOf [recN 40, recN 41, recN 42, recN 43], 3, recN 40, recN 41, recN 42, recN 43, by decide +kernel⟩⟩

theorem test_witness_OrdersAndKeys :
    (∃ (s : State) (q i : Nat) (d : DescS), (s.up) ∧ (s.still) ∧ (s.isManager = true) ∧ (s.que.descs = [d]) ∧ (d.q = q) ∧ (d.i = i) ∧ (d.stage = .ready) ∧ (dQuiet d.words = false) ∧ (s.ringFree q) ∧ (dOpc d.words = 0x40) ∧ (s.isEpochEnd d = false)) ∧
    (∃ (s : State) (q i : Nat) (d : DescS), (s.up) ∧ (s.still) ∧ (s.isManager = true) ∧ (s.que.descs = [d]) ∧ (d.q = q) ∧ (d.i = i) ∧ (d.stage = .ready) ∧ (dQuiet d.words = false) ∧ (s.ringFree q) ∧ (dOpc d.words = 0x41) ∧ (s.flt.census.isSome = true)) ∧
    (∃ (s : State) (q i : Nat) (d : DescS), (∀ p : Port, s.markerPort p = false) ∧ (s.up) ∧ (s.still) ∧ (s.isManager = true) ∧ (s.que.descs = [d]) ∧ (d.q = q) ∧ (d.i = i) ∧ (d.stage = .ready) ∧ (dQuiet d.words = false) ∧ (s.ringFree q) ∧ (dOpc d.words = 0x41) ∧ (s.flt.census = none) ∧ (dDst d.words % 128 = 0) ∧ (128 + 18560 * s.numbers.length ≤ dLen d.words) ∧ (s.numbers.all (fun n => n == 0 || s.censusState n != 0) = true)) ∧
    (∃ (s : State) (q i : Nat) (d : DescS) (n k : Nat), (s.up) ∧ (s.still) ∧ (s.isManager = true) ∧ (s.que.descs = [d]) ∧ (d.q = q) ∧ (d.i = i) ∧ (d.stage = .ready) ∧ (dQuiet d.words = false) ∧ (s.ringFree q) ∧ (dOpc d.words = 0x42) ∧ (pwrArgs d.words = (false, k)) ∧ (dTgt d.words = n) ∧ (s.pwrRefusal n k ≠ 0)) ∧
    (∃ (s : State) (q i : Nat) (d : DescS) (n k : Nat), (s.up) ∧ (s.still) ∧ (s.isManager = true) ∧ (s.que.descs = [d]) ∧ (d.q = q) ∧ (d.i = i) ∧ (d.stage = .ready) ∧ (dQuiet d.words = false) ∧ (s.ringFree q) ∧ (dOpc d.words = 0x42) ∧ (pwrArgs d.words = (false, k)) ∧ (dTgt d.words = n) ∧ (s.pwrRefusal n k = 0) ∧ (s.pwrOf n = 0) ∧ (k = 0)) ∧
    (∃ (s : State) (q i : Nat) (d : DescS) (n k : Nat), (s.up) ∧ (s.still) ∧ (s.isManager = true) ∧ (s.que.descs = [d]) ∧ (d.q = q) ∧ (d.i = i) ∧ (d.stage = .ready) ∧ (dQuiet d.words = false) ∧ (s.ringFree q) ∧ (dOpc d.words = 0x42) ∧ (pwrArgs d.words = (false, k)) ∧ (dTgt d.words = n) ∧ (s.pwrRefusal n k = 0) ∧ (s.pwrOf n = 0) ∧ (k ≠ 0) ∧ (n ≠ 0) ∧ (s.num = 0) ∧ (s.sends (s.trunkPort n) .cwr 0)) ∧
    (∃ (s : State) (q i : Nat) (d : DescS), (s.up) ∧ (s.still) ∧ (s.isManager = true) ∧ (s.que.descs = [d]) ∧ (d.q = q) ∧ (d.i = i) ∧ (d.stage = .ready) ∧ (dQuiet d.words = false) ∧ (s.ringFree q) ∧ (dOpc d.words = 0x43) ∧ (dSrc d.words % 64 = 0) ∧ (dAuxN d.words 2 2 ≠ 0) ∧ (s.duk = false)) ∧
    (∃ (s : State) (q i : Nat) (d : DescS), (s.up) ∧ (s.still) ∧ (s.isManager = true) ∧ (s.que.descs = [d]) ∧ (d.q = q) ∧ (d.i = i) ∧ (d.stage = .ready) ∧ (dQuiet d.words = false) ∧ (s.ringFree q) ∧ (dOpc d.words = 0x43) ∧ (dSrc d.words % 64 = 0) ∧ (dAuxN d.words 2 2 ≠ 0) ∧ (s.duk = true) ∧ ((s.key (dAuxN d.words 2 2)).state ≠ 0)) ∧
    (∃ (s : State) (q i : Nat) (d : DescS), (s.up) ∧ (s.still) ∧ (s.isManager = true) ∧ (s.que.descs = [d]) ∧ (d.q = q) ∧ (d.i = i) ∧ (d.stage = .ready) ∧ (dQuiet d.words = false) ∧ (s.ringFree q) ∧ (dOpc d.words = 0x43) ∧ (dSrc d.words % 64 = 0) ∧ (dAuxN d.words 2 2 ≠ 0) ∧ (s.duk = true) ∧ ((s.key (dAuxN d.words 2 2)).state = 0) ∧ ((s.key (dAuxN d.words 2 2)).pend = false) ∧ (AMap.find s.mgr.nextH s.mgr.host = none) ∧ (s.sends s.hostPort .rd64 0)) ∧
    (∃ (s : State) (q i : Nat) (d : DescS), (s.up) ∧ (s.still) ∧ (s.isManager = true) ∧ (s.que.descs = [d]) ∧ (d.q = q) ∧ (d.i = i) ∧ (d.stage = .ready) ∧ (dQuiet d.words = false) ∧ (s.ringFree q) ∧ (dOpc d.words = 0x44) ∧ (dAuxN d.words 2 2 ≠ 0) ∧ ((s.key (dAuxN d.words 2 2)).state = 0)) ∧
    (∃ (s : State) (q i : Nat) (d : DescS), (s.up) ∧ (s.still) ∧ (s.isManager = true) ∧ (s.que.descs = [d]) ∧ (d.q = q) ∧ (d.i = i) ∧ (d.stage = .ready) ∧ (dQuiet d.words = false) ∧ (s.ringFree q) ∧ (dOpc d.words = 0x44) ∧ (dAuxN d.words 2 2 ≠ 0) ∧ ((s.key (dAuxN d.words 2 2)).state ≠ 0)) :=
  ⟨⟨Q (dW 0x40 0 0 0 0 0 0), 3, 2, mkD (dW 0x40 0 0 0 0 0 0), by decide +kernel⟩,
   ⟨{ Q (dW 0x41 0 0 0x1000 200000 0 0) with flt.census := some (cen none) }, 3, 2, mkD (dW 0x41 0 0 0x1000 200000 0 0), by decide +kernel⟩,
   ⟨{ (((Q (dW 0x41 0 0 0x1000 200000 0 0)).modPort .e (fun x => { x with tstate := .huntFull })).modPort .w (fun x => { x with tstate := .huntFull })) with topo.ents := (ents [0, 5, 6]).map (fun e => (e.1, { e.2 with pwr := 2 })) }, 3, 2, mkD (dW 0x41 0 0 0x1000 200000 0 0), fun q => by cases q <;> decide +kernel, by decide +kernel⟩,
   ⟨Q (dW 0x42 0 0 0 0 (9 + 256 * 1) 0), 3, 2, mkD (dW 0x42 0 0 0 0 (9 + 256 * 1) 0), 9, 1, by decide +kernel⟩,
   ⟨Q (dW 0x42 0 0 0 0 (5 + 256 * 0) 0), 3, 2, mkD (dW 0x42 0 0 0 0 (5 + 256 * 0) 0), 5, 0, by decide +kernel⟩,
   ⟨Q (dW 0x42 0 0 0 0 (5 + 256 * 1) 0), 3, 2, mkD (dW 0x42 0 0 0 0 (5 + 256 * 1) 0), 5, 1, by decide +kernel⟩,
   ⟨Q (dW 0x43 0 0x4000 0 0 (7 * 2 ^ 16) 0), 3, 2, mkD (dW 0x43 0 0x4000 0 0 (7 * 2 ^ 16) 0), by decide +kernel⟩,
   ⟨(dukS (Q (dW 0x43 0 0x4000 0 0 (7 * 2 ^ 16) 0))).setKey 7 kk, 3, 2, mkD (dW 0x43 0 0x4000 0 0 (7 * 2 ^ 16) 0), by decide +kernel⟩,
   ⟨dukS (Q (dW 0x43 0 0x4000 0 0 (7 * 2 ^ 16) 0)), 3, 2, mkD (dW 0x43 0 0x4000 0 0 (7 * 2 ^ 16) 0), by decide +kernel⟩,
   ⟨Q (dW 0x44 0 0 0 0 (7 * 2 ^ 16) 0), 3, 2, mkD (dW 0x44 0 0 0 0 (7 * 2 ^ 16) 0), by decide +kernel⟩,
   ⟨(Q (dW 0x44 0 0 0 0 (7 * 2 ^ 16) 0)).setKey 7 kk, 3, 2, mkD (dW 0x44 0 0 0 0 (7 * 2 ^ 16) 0), by decide +kernel⟩⟩

theorem test_witness_MaintenanceOrders :
    (∃ (s : State) (q i : Nat) (d : DescS) (n k : Nat), (s.up) ∧ (s.still) ∧ (s.isManager = true) ∧ (s.que.descs = [d]) ∧ (d.q = q) ∧ (d.i = i) ∧ (d.stage = .ready) ∧ (dQuiet d.words = false) ∧ (s.ringFree q) ∧ (s.num = 0) ∧ (dTgtAll d.words = false) ∧ (dOpc d.words = 0x45) ∧ (d.relay = false) ∧ (d.phaseB = .none) ∧ (d.shards = []) ∧ (dLen d.words ≠ 0) ∧ (dLen d.words % 128 = 0) ∧ (dTgt d.words = n) ∧ (s.tgtCode n false = 0) ∧ (s.noEngines n = false) ∧ (adDev (dSrc d.words) = n) ∧ (dSrc d.words % 128 = 0) ∧ (dDst d.words % 128 = 0) ∧ ((s.ent (adDev (dDst d.words))).is232 = false) ∧ (overlap (dSrc d.words, dLen d.words) (dDst d.words, dLen d.words) = false) ∧ (∀ r ∈ [(dSrc d.words, dLen d.words), (dDst d.words, dLen d.words)], s.rangeCheck r = 0 ∧ s.rangeProt (cDomain (s.ctx q)) r = true ∧ s.rangeRelay r = false) ∧ (s.shardsOf d.words = [(n, k)]) ∧ (n ≠ 0) ∧ (s.sends (s.trunkPort n) .shard ((4 * d.words.length + 31) / 32))) ∧
    (∃ (s : State) (q i : Nat) (d : DescS) (b : Nat), (s.up) ∧ (s.still) ∧ (s.isManager = true) ∧ (s.que.descs = [d]) ∧ (d.q = q) ∧ (d.i = i) ∧ (d.stage = .ready) ∧ (dQuiet d.words = false) ∧ (s.ringFree q) ∧ (s.num = 0) ∧ (dTgtAll d.words = false) ∧ (dOpc d.words = 0x46) ∧ (bit (dOflags d.words) 0 = false) ∧ (dTgt d.words = 0) ∧ (s.tgtCode 0 false = 0) ∧ ((s.ent 0).is232 = false) ∧ (dSrc d.words < Config.userBytes) ∧ (s.remapUsed < 12287) ∧ (s.pool.blocks[s.remapUsed / 8192]? = some b) ∧ (s.pool.jobs = []) ∧ (s.own.waits = []) ∧ (s.own.merges = [])) ∧
    (∃ (s : State) (q i : Nat) (d : DescS) (k : Fin 4), (s.up) ∧ (s.still) ∧ (s.isManager = true) ∧ (s.que.descs = [d]) ∧ (d.q = q) ∧ (d.i = i) ∧ (d.stage = .ready) ∧ (dQuiet d.words = false) ∧ (s.ringFree q) ∧ (s.num = 0) ∧ (dTgtAll d.words = false) ∧ (dOpc d.words = 0x47) ∧ (dTgt d.words = 0) ∧ (s.tgtCode 0 false = 0) ∧ ((s.ent 0).is232 = false) ∧ (bistSel d.words = 2 ^ (8 + k.val)) ∧ ((s.tier k.val).released = true)) ∧
    (∃ (s : State) (q i : Nat) (d : DescS), (s.up) ∧ (s.still) ∧ (s.isManager = true) ∧ (s.que.descs = [d]) ∧ (d.q = q) ∧ (d.i = i) ∧ (d.stage = .ready) ∧ (dQuiet d.words = false) ∧ (s.ringFree q) ∧ (s.num = 0) ∧ (dTgtAll d.words = false) ∧ (dOpc d.words = 0x48) ∧ (dSrc d.words % 4096 = 0) ∧ (s.mgr.nextH < 65536) ∧ (∀ k < 32, AMap.find ((s.mgr.nextH + k) % 65536) s.mgr.host = none) ∧ ((s.port s.hostPort).tstate = .active)) ∧
    (∃ (s : State) (q i : Nat) (d : DescS), (s.up) ∧ (s.still) ∧ (s.isManager = true) ∧ (s.que.descs = [d]) ∧ (d.q = q) ∧ (d.i = i) ∧ (d.stage = .ready) ∧ (dQuiet d.words = false) ∧ (s.ringFree q) ∧ (s.num = 0) ∧ (dTgtAll d.words = false) ∧ (dOpc d.words = 0x48) ∧ (dSrc d.words % 4096 ≠ 0)) ∧
    (∃ (s : State) (q i : Nat) (d : DescS), (s.up) ∧ (s.still) ∧ (s.isManager = true) ∧ (s.que.descs = [d]) ∧ (d.q = q) ∧ (d.i = i) ∧ (d.stage = .ready) ∧ (dQuiet d.words = false) ∧ (s.ringFree q) ∧ (s.num = 0) ∧ (dTgtAll d.words = false) ∧ (dOpc d.words = 0x49) ∧ (dTgt d.words = 0) ∧ (s.tgtCode 0 true = 0) ∧ ((s.ent 0).is232 = false) ∧ (s.flt.blaze.entries = []) ∧ (bit (dOflags d.words) 0 = false)) ∧
    (∃ (s : State) (q i : Nat) (d : DescS) (k : Nat) (e : BlazeE), (s.up) ∧ (s.still) ∧ (s.isManager = true) ∧ (s.que.descs = [d]) ∧ (d.q = q) ∧ (d.i = i) ∧ (d.stage = .ready) ∧ (dQuiet d.words = false) ∧ (s.ringFree q) ∧ (s.num = 0) ∧ (dTgtAll d.words = false) ∧ (dOpc d.words = 0x49) ∧ (dTgt d.words = 0) ∧ (s.tgtCode 0 true = 0) ∧ ((s.ent 0).is232 = false) ∧ (s.flt.blaze.entries = [(k, e)]) ∧ (e.length = 8) ∧ (32 ≤ dLen d.words) ∧ (s.sends s.hostPort .wr128 4)) ∧
    (∃ (s : State) (q i : Nat) (d : DescS) (n : Nat), (s.up) ∧ (s.still) ∧ (s.isManager = true) ∧ (s.que.descs = [d]) ∧ (d.q = q) ∧ (d.i = i) ∧ (d.stage = .ready) ∧ (dQuiet d.words = false) ∧ (s.ringFree q) ∧ (s.num = 0) ∧ (dTgtAll d.words = false) ∧ (dOpc d.words = 0x4A) ∧ (dTgt d.words = n) ∧ (n ≠ 0) ∧ (s.tgtCode n true = 0) ∧ ((s.ent n).is232 = false) ∧ (s.sends (s.trunkPort n) .cwr 0)) ∧
    (∃ (s : State) (q i : Nat) (d : DescS) (n : Nat), (s.up) ∧ (s.still) ∧ (s.isManager = true) ∧ (s.que.descs = [d]) ∧ (d.q = q) ∧ (d.i = i) ∧ (d.stage = .ready) ∧ (dQuiet d.words = false) ∧ (s.ringFree q) ∧ (s.num = 0) ∧ (dTgtAll d.words = false) ∧ (dOpc d.words = 0x4A) ∧ (dTgt d.words = n) ∧ (s.tgtCode n true = 0) ∧ ((s.ent n).is232 = true)) ∧
    (∃ (s : State) (q i : Nat) (d : DescS) (k : Fin 4), (s.up) ∧ (s.still) ∧ (s.isManager = true) ∧ (s.que.descs = [d]) ∧ (d.q = q) ∧ (d.i = i) ∧ (d.stage = .ready) ∧ (dQuiet d.words = false) ∧ (s.ringFree q) ∧ (s.num = 0) ∧ (dTgtAll d.words = false) ∧ (dOpc d.words = 0x4B) ∧ (dTgt d.words = 0) ∧ (s.tgtCode 0 false = 0) ∧ ((s.ent 0).is232 = false) ∧ (calMask d.words = [k.val]) ∧ (s.calAsleep k.val = false) ∧ ((s.tier k.val).cal.running = none) ∧ (s.calGapOver k.val = true)) ∧
    (∃ (s : State) (q i : Nat) (d : DescS), (s.up) ∧ (s.still) ∧ (s.isManager = true) ∧ (s.que.descs = [d]) ∧ (d.q = q) ∧ (d.i = i) ∧ (d.stage = .ready) ∧ (dQuiet d.words = false) ∧ (s.ringFree q) ∧ (s.num = 0) ∧ (dTgtAll d.words = false) ∧ (dOpc d.words = 0x4C) ∧ (dTgt d.words = 0) ∧ (s.tgtCode 0 false = 0) ∧ ((s.ent 0).is232 = false) ∧ (dLen d.words = 16) ∧ (dSrc d.words % 64 = 0) ∧ (AMap.find s.mgr.nextH s.mgr.host = none) ∧ (s.sends s.hostPort .rd64 0)) :=
  ⟨⟨{ Q (dW 0x45 0 (mkAddr 0 5 0) (mkAddr 0 5 0x100000) 128 5 0) with prot.maps := [(5 * 256, [2 ^ 31, 0, 0, 0])] }, 3, 2, mkD (dW 0x45 0 (mkAddr 0 5 0) (mkAddr 0 5 0x100000) 128 5 0), 5, (((Q (dW 0x45 0 (mkAddr 0 5 0) (mkAddr 0 5 0x100000) 128 5 0)).shardsOf (dW 0x45 0 (mkAddr 0 5 0) (mkAddr 0 5 0x100000) 128 5 0)).getD 0 (0, 0)).2, by decide +kernel⟩,
   ⟨{ Q (dW 0x46 0 0x7123 0 0 0 0) with pool.blocks := [5], pool.remaps := [(0, { remap1 with slot := 0, done := true })] }, 3, 2, mkD (dW 0x46 0 0x7123 0 0 0 0), 5, by decide +kernel⟩,
   ⟨(Q (dW 0x47 0 0 0 0 0 (2 ^ 10))).modTier 2 (fun t => { t with released := true }), 3, 2, mkD (dW 0x47 0 0 0 0 0 (2 ^ 10)), 2, by decide +kernel⟩,
   ⟨Q (dW 0x48 0 0x4000 0 1000 0 0), 3, 2, mkD (dW 0x48 0 0x4000 0 1000 0 0), by decide +kernel⟩,
   ⟨Q (dW 0x48 0 0x4040 0 1000 0 0), 3, 2, mkD (dW 0x48 0 0x4040 0 1000 0 0), by decide +kernel⟩,
   ⟨Q (dW 0x49 0 0 0x4000 320 0 0), 3, 2, mkD (dW 0x49 0 0 0x4000 320 0 0), by decide +kernel⟩,
   ⟨{ Q (dW 0x49 0 0 0x4000 320 0 0) with flt.blaze.entries := [(4, [1, 2, 3, 4, 5, 6, 7, 8])] }, 3, 2, mkD (dW 0x49 0 0 0x4000 320 0 0), 4, [1, 2, 3, 4, 5, 6, 7, 8], by decide +kernel⟩,
   ⟨Q (dW 0x4A 0 0 0 0 5 0), 3, 2, mkD (dW 0x4A 0 0 0 0 5 0), 5, by decide +kernel⟩,
   ⟨(Q (dW 0x4A 0 0 0 0 5 0)).modEnt 5 (fun e => { e with w0 := e.w0 ||| F.TOPO_ENT_W0_GEN.mask }), 3, 2, mkD (dW 0x4A 0 0 0 0 5 0), 5, by decide +kernel⟩,
   ⟨Q (dW 0x4B 0 0 0 0 (2 ^ 10) 0), 3, 2, mkD (dW 0x4B 0 0 0 0 (2 ^ 10) 0), 2, by decide +kernel⟩,
   ⟨Q (dW 0x4C 0 0x4000 0 16 0 0), 3, 2, mkD (dW 0x4C 0 0x4000 0 16 0 0), by decide +kernel⟩⟩

theorem test_witness_KeysFlashAndFuses :
    (∃ (s : State) (d : DescS) (j : JobS) (kid : Fin 4096), (s.up) ∧ (({ s with que.job := none } : State).still) ∧ (s.isManager = true) ∧ (s.que.descs = [d]) ∧ (d.shards = []) ∧ (dQuiet d.words = false) ∧ (s.ringFree d.q) ∧ (s.que.job = some j) ∧ (j.q = d.q) ∧ (j.i = d.i) ∧ (dOpc d.words = 0x44) ∧ ((s.key kid.val).state = 2) ∧ ((s.key kid.val).retire = some (d.q, d.i)) ∧ (s.keyUses kid.val = 0) ∧ (j.stage = 0)) ∧
    (∃ (s : State) (d : DescS) (j : JobS) (readback : List Byte), (s.up) ∧ (({ s with que.job := none } : State).still) ∧ (s.isManager = true) ∧ (s.que.descs = [d]) ∧ (d.shards = []) ∧ (dQuiet d.words = false) ∧ (s.ringFree d.q) ∧ (s.que.job = some j) ∧ (j.q = d.q) ∧ (j.i = d.i) ∧ (dOpc d.words = 0x48) ∧ (j.stage = 1) ∧ (0 < dLen d.words) ∧ (dLen d.words ≤ 128) ∧ (AMap.find s.mgr.nextH s.mgr.host = none) ∧ (s.sends s.hostPort .rd128 0)) ∧
    (∃ (s : State) (d : DescS) (j : JobS) (readback : List Byte), (s.up) ∧ (({ s with que.job := none } : State).still) ∧ (s.isManager = true) ∧ (s.que.descs = [d]) ∧ (d.shards = []) ∧ (dQuiet d.words = false) ∧ (s.ringFree d.q) ∧ (s.que.job = some j) ∧ (j.q = d.q) ∧ (j.i = d.i) ∧ (dOpc d.words = 0x48) ∧ (j.stage = 3) ∧ (j.done < dLen d.words) ∧ (dLen d.words ≤ j.done + 256) ∧ (dLen d.words - j.done ≤ j.bytes.length) ∧ ((dLen d.words - j.done) ≤ readback.length) ∧ (readback.take (dLen d.words - j.done) = j.bytes.take (dLen d.words - j.done))) ∧
    (∃ (s : State) (d : DescS) (j : JobS) (readback : List Byte), (s.up) ∧ (({ s with que.job := none } : State).still) ∧ (s.isManager = true) ∧ (s.que.descs = [d]) ∧ (d.shards = []) ∧ (dQuiet d.words = false) ∧ (s.ringFree d.q) ∧ (s.que.job = some j) ∧ (j.q = d.q) ∧ (j.i = d.i) ∧ (dOpc d.words = 0x48) ∧ (j.stage = 3) ∧ (j.done < dLen d.words) ∧ (dLen d.words ≤ j.done + 256) ∧ (dLen d.words - j.done ≤ j.bytes.length) ∧ ((dLen d.words - j.done) ≤ readback.length) ∧ (readback.take (dLen d.words - j.done) ≠ j.bytes.take (dLen d.words - j.done))) ∧
    (∃ (s : State) (d : DescS) (j : JobS), (s.up) ∧ (({ s with que.job := none } : State).still) ∧ (s.isManager = true) ∧ (s.que.descs = [d]) ∧ (d.shards = []) ∧ (dQuiet d.words = false) ∧ (s.ringFree d.q) ∧ (s.que.job = some j) ∧ (j.q = d.q) ∧ (j.i = d.i) ∧ (dOpc d.words = 0x48) ∧ (j.stage = 1)) ∧
    (∃ (s : State) (d : DescS) (e : FuseEntry) (c : Instr) (op : Nat) (l : List Pulse), (s.up) ∧ (({ s with que.job := none } : State).still) ∧ (s.isManager = true) ∧ (s.que.descs = [d]) ∧ (d.shards = []) ∧ (dQuiet d.words = false) ∧ (s.ringFree d.q) ∧ (s.que.job = none) ∧ ((c, op) ∈ [(.fuseWrite e, 1), (.fuseSeal e, 2), (.fuseLock e, 3), (.fuseRlock e, 4)]) ∧ (s.fuse.prog = none) ∧ (s.fuseEntry op e = .ok l) ∧ (l ≠ [])) ∧
    (∃ (s : State) (d : DescS) (e : FuseEntry) (c : Instr) (op : Nat) (k : Nat), (s.up) ∧ (({ s with que.job := none } : State).still) ∧ (s.isManager = true) ∧ (s.que.descs = [d]) ∧ (d.shards = []) ∧ (dQuiet d.words = false) ∧ (s.ringFree d.q) ∧ (s.que.job = none) ∧ ((c, op) ∈ [(.fuseWrite e, 1), (.fuseSeal e, 2), (.fuseLock e, 3), (.fuseRlock e, 4)]) ∧ (s.fuse.prog = none) ∧ (s.fuseEntry op e = .error k) ∧ (s.fuse.blowers = [])) ∧
    (∃ (s : State) (d : DescS) (die : Die) (p : ProgS) (x y : Pulse) (l : List Pulse), (s.up) ∧ (({ s with que.job := none } : State).still) ∧ (s.isManager = true) ∧ (s.que.descs = [d]) ∧ (d.shards = []) ∧ (dQuiet d.words = false) ∧ (s.ringFree d.q) ∧ (s.que.job = none) ∧ (s.fuse.prog = some p) ∧ (p.started = true) ∧ (p.todo = x :: y :: l) ∧ (x.die.ix = die.ix) ∧ (s.fuse.blowers = [])) ∧
    (∃ (s : State) (d : DescS) (die : Die) (p : ProgS) (x y : Pulse) (l : List Pulse), (s.up) ∧ (({ s with que.job := none } : State).still) ∧ (s.isManager = true) ∧ (s.que.descs = [d]) ∧ (d.shards = []) ∧ (dQuiet d.words = false) ∧ (s.ringFree d.q) ∧ (s.que.job = none) ∧ (s.fuse.prog = some p) ∧ (p.started = true) ∧ (p.todo = x :: y :: l) ∧ (x.die.ix = die.ix) ∧ (s.fuse.blowers = []) ∧ (p.tries + 1 < Config.PULSE_MAX)) :=
  ⟨⟨(run (dW 0x44 0 0 0 0 (7 * 2 ^ 16) 0) { q := 3, i := 2 }).setKey 7 { kk with state := 2, retire := some (3, 2) }, { mkD (dW 0x44 0 0 0 0 (7 * 2 ^ 16) 0) with stage := .running }, { q := 3, i := 2 }, 7, by decide +kernel⟩,
   ⟨run (dW 0x48 0 0x4000 0 100 0 0) { q := 3, i := 2, stage := 1 }, { mkD (dW 0x48 0 0x4000 0 100 0 0) with stage := .running }, { q := 3, i := 2, stage := 1 }, [], by decide +kernel⟩,
   ⟨run (dW 0x48 0 0x4000 0 100 0 0) { q := 3, i := 2, stage := 3, data := [(0, List.replicate 128 5)] }, { mkD (dW 0x48 0 0x4000 0 100 0 0) with stage := .running }, { q := 3, i := 2, stage := 3, data := [(0, List.replicate 128 5)] }, List.replicate 100 5, by decide +kernel⟩,
   ⟨run (dW 0x48 0 0x4000 0 100 0 0) { q := 3, i := 2, stage := 3, data := [(0, List.replicate 128 5)] }, { mkD (dW 0x48 0 0x4000 0 100 0 0) with stage := .running }, { q := 3, i := 2, stage := 3, data := [(0, List.replicate 128 5)] }, List.replicate 100 6, by decide +kernel⟩,
   ⟨run (dW 0x48 0 0x4000 0 100 0 0) { q := 3, i := 2, stage := 1 }, { mkD (dW 0x48 0 0x4000 0 100 0 0) with stage := .running }, { q := 3, i := 2, stage := 1 }, by decide +kernel⟩,
   ⟨fuseS, mkD wF, fuseE, .fuseWrite fuseE, 1, pulses, by decide +kernel⟩,
   ⟨{ m0 with que.descs := [mkD wF], que.ctx := [(3, ctxOf 1 1)] }, mkD wF, { fuseE with region := 99 }, .fuseSeal { fuseE with region := 99 }, 2, 19, by decide +kernel⟩,
   ⟨{ fuseS with fuse.prog := some progS }, mkD wF, .base, progS, ⟨.base, 5, 1⟩, ⟨.base, 5, 2⟩, [], by decide +kernel⟩,
   ⟨{ fuseS with fuse.prog := some progS }, mkD wF, .base, progS, ⟨.base, 5, 1⟩, ⟨.base, 5, 2⟩, [], by decide +kernel⟩⟩

theorem test_witness_PowerTransitions :
    (∃ (s : State) (c : Instr) (k : Nat), (s.power.phase = .running) ∧ (s.still) ∧ ((c, k) ∈ [(.pwrCmdIdle .cfgWarden, 1), (.pwrCmdSleep .cfgWarden, 2), (.pwrCmdDeep .cfgWarden, 3), (.pwrCmdOff .cfgWarden, 4)]) ∧ (s.power.pstate = 0) ∧ (s.power.transit = false)) ∧
    (∃ (s : State), (s.power.phase = .running) ∧ (s.still) ∧ (s.power.pstate = 1) ∧ (s.power.transit = false)) ∧
    (∃ (s : State) (c : Instr) (path : Path), (s.power.phase = .running) ∧ (s.still) ∧ (path ≠ .cfgWarden) ∧ (s.power.pstate = 0) ∧ (s.power.entry = .none) ∧ (c ∈ [.pwrCmdRun path, .pwrCmdIdle path, .pwrCmdSleep path, .pwrCmdDeep path, .pwrCmdOff path])) ∧
    (∃ (s : State), (s.power.phase = .running) ∧ (s.still) ∧ (s.power.entry = .waiting) ∧ (s.entryWaits = false) ∧ (s.workOpen = false) ∧ (s.power.target = 1 ∨ s.power.target = 2 ∨ s.power.target = 3)) ∧
    (∃ (s : State), (s.power.phase = .running) ∧ (s.still) ∧ (s.power.entry = .marked) ∧ (s.entryHeld = false) ∧ (s.power.wakeNow = none) ∧ (s.power.edgeAt = none) ∧ (s.power.target = 1)) ∧
    (∃ (s : State), (s.power.phase = .running) ∧ (s.still) ∧ (s.power.entry = .marked) ∧ (s.entryHeld = false) ∧ (s.power.wakeNow = none) ∧ (s.power.edgeAt = none) ∧ (s.power.target = 2)) ∧
    (∃ (s : State), (∀ p : Port, (s.port p).tstate ≠ .prbs) ∧ (s.power.phase = .running) ∧ (s.still) ∧ (s.power.entry = .marked) ∧ (s.entryHeld = false) ∧ (s.power.wakeNow = none) ∧ (s.power.edgeAt = none) ∧ (s.power.target = 3)) ∧
    (∃ (s : State), (s.power.phase = .running) ∧ (s.still) ∧ (s.power.entry = .marked) ∧ (s.entryHeld = false) ∧ (s.power.wakeNow = none) ∧ (s.power.edgeAt = none) ∧ (s.power.target = 4)) ∧
    (∃ (s : State), (s.power.phase = .running) ∧ (s.still) ∧ (s.power.transit = true) ∧ (s.power.target = 0) ∧ (s.power.pstate = 1) ∧ (s.power.held = [])) ∧
    (∃ (s : State), (s.power.phase = .running) ∧ (s.still) ∧ (s.power.entry = .waiting) ∧ (s.power.target = 1)) ∧
    (∃ (s : State), (s.power.phase = .running) ∧ (s.still) ∧ (s.power.entry = .none) ∧ (s.power.transit = false) ∧ (s.power.pstate = 2)) ∧
    (∃ (s : State) (u : State), (s.power.phase = .running) ∧ (s.still) ∧ (u.power.phase = .off) ∧ (u.still) ∧ (u.power.resetLow = false)) ∧
    (∃ (s : State) (u : State), (s.power.phase = .running) ∧ (s.still) ∧ (u.power.phase = .off) ∧ (u.still) ∧ (u.power.resetLow = true)) :=
  ⟨⟨m0, .pwrCmdIdle .cfgWarden, 1, by decide +kernel⟩,
   ⟨pws 1 0 0 id, by decide +kernel⟩,
   ⟨m0, .pwrCmdRun .i3c, .i3c, by decide +kernel⟩,
   ⟨pws 0 1 3 id, by decide +kernel⟩,
   ⟨pws 0 2 1 id, by decide +kernel⟩,
   ⟨srAll (pws 0 2 2 id), by decide +kernel⟩,
   ⟨srAll (pws 0 2 3 id), fun q => by cases q <;> decide +kernel, by decide +kernel⟩,
   ⟨pws 0 2 4 id, by decide +kernel⟩,
   ⟨pws 1 3 0 id, by decide +kernel⟩,
   ⟨pws 0 1 1 id, by decide +kernel⟩,
   ⟨pws 2 0 0 id, by decide +kernel⟩,
   ⟨m0, { upR 2 with power.phase := .off }, by decide +kernel⟩,
   ⟨m0, { upR 2 with power.phase := .off, power.resetLow := true }, by decide +kernel⟩⟩

theorem test_witness_CapAndHeat :
    (∃ (s : State) (pin vin : Nat), (s.up) ∧ (s.still) ∧ (s.power.capEn = false)) ∧
    (∃ (s : State) (pin vin : Nat), (s.up) ∧ (s.still) ∧ (s.power.capEn = true) ∧ (s.power.capW * 100 < pin) ∧ (s.power.capStage < 3)) ∧
    (∃ (s : State) (pin vin : Nat), (s.up) ∧ (s.still) ∧ (s.power.capEn = true) ∧ (s.power.capW * 100 < pin) ∧ (3 ≤ s.power.capStage) ∧ (s.mild 10 0)) ∧
    (∃ (s : State), (s.up) ∧ (s.still) ∧ (s.power.capLow.isSome = true) ∧ (0 < s.power.capStage)) ∧
    (∃ (s : State) (i : Fin 72) (v : Int), (s.up) ∧ (s.still) ∧ (v < s.tripTemp i.val) ∧ (((s.sensor i.val).take v (s.comparison i.val)).verdict (sensorDie i.val == 0) = none) ∧ (∀ k < 4, ((s.modSensor i.val (SensorS.take v (s.comparison i.val))).inputOf k).stageFor k < 3)) ∧
    (∃ (s : State) (k : Fin 4), (s.up) ∧ (s.still) ∧ ((s.tier k.val).dwellAt.isSome = true) ∧ ((s.tier k.val).holdTill = none) ∧ (s.stageFor k.val < (s.tier k.val).stage) ∧ ((s.tier k.val).stage ≤ 3)) ∧
    (∃ (s : State) (k : Fin 4) (x : Nat), (s.up) ∧ (s.still) ∧ ((s.tier k.val).holdTill = some x) ∧ ((s.tier k.val).dwellAt = none)) ∧
    (∃ (s : State), (s.up) ∧ (s.still) ∧ (∀ k < 4, (s.tier k).turning = [])) :=
  ⟨⟨{ dev with power.capEn := false }, 5000, 800, by decide +kernel⟩,
   ⟨{ dev with power.capStage := 2 }, 6401, 800, by decide +kernel⟩,
   ⟨{ dev with power.capStage := 3 }, 6401, 800, by decide +kernel⟩,
   ⟨{ dev with power.capStage := 1, power.capLow := some 4 }, by decide +kernel⟩,
   ⟨dev, 40, 300, by decide +kernel⟩,
   ⟨dev.modTier 0 (fun t => { t with stage := 1, dwellAt := some 3 }), 0, by decide +kernel⟩,
   ⟨dev.modTier 1 (fun t => { t with holdTill := some 7 }), 1, 7, by decide +kernel⟩,
   ⟨dev, by decide +kernel⟩⟩

theorem test_witness_FaultEvents :
    (∃ (s : State) (src : Fin 120) (unit cls : Nat) (prom : Bool) (w : WindowS) (payload : List Byte), (s.up) ∧ (s.still) ∧ (s.faultClass src.val unit = (cls, prom, w)) ∧ (src.val ∉ [94, 95, 111, 112]) ∧ (cls < 3) ∧ (s.flt.blaze.f2 = none)) ∧
    (∃ (s : State) (src : Fin 120) (unit cls : Nat) (prom : Bool) (w : WindowS) (payload : List Byte), (s.up) ∧ (s.still) ∧ (s.faultClass src.val unit = (cls, prom, w)) ∧ (src.val ∉ [94, 95, 111, 112]) ∧ (cls = 3)) ∧
    (∃ (s : State) (src : Fin 120) (unit cls : Nat) (prom : Bool) (w : WindowS) (payload : List Byte), (s.up) ∧ (s.still) ∧ (s.faultClass src.val unit = (cls, prom, w)) ∧ (cls < 3) ∧ (s.flt.blaze.f2 = none) ∧ (src.val = 94) ∧ (s.isManager = true)) ∧
    (∃ (s : State) (src : Fin 120) (unit cls : Nat) (prom : Bool) (w : WindowS) (payload : List Byte), (s.up) ∧ (s.still) ∧ (s.faultClass src.val unit = (cls, prom, w)) ∧ (cls < 3) ∧ (s.flt.blaze.f2 = none) ∧ (src.val = 111)) ∧
    (∃ (s : State) (src : Fin 120) (unit cls : Nat) (prom : Bool) (w : WindowS) (payload : List Byte) (k : Nat), (s.up) ∧ (s.still) ∧ (s.faultClass src.val unit = (cls, prom, w)) ∧ (cls < 3) ∧ (s.flt.blaze.f2 = none) ∧ (src.val = 112) ∧ (leAt payload 0 2 = k) ∧ (k ∉ [devSlot 4, devSlot 140, devSlot 141, devSlot 142, devSlot 146, devSlot 137])) :=
  ⟨⟨dev, 9, 0, ((dev).faultClass 9 0).1, ((dev).faultClass 9 0).2.1, ((dev).faultClass 9 0).2.2, [], by decide +kernel⟩,
   ⟨dev, 2, 0, ((dev).faultClass 2 0).1, ((dev).faultClass 2 0).2.1, ((dev).faultClass 2 0).2.2, [], by decide +kernel⟩,
   ⟨m0, 94, 0, ((m0).faultClass 94 0).1, ((m0).faultClass 94 0).2.1, ((m0).faultClass 94 0).2.2, [], by decide +kernel⟩,
   ⟨dev, 111, 0, ((dev).faultClass 111 0).1, ((dev).faultClass 111 0).2.1, ((dev).faultClass 111 0).2.2, [9, 4], by decide +kernel⟩,
   ⟨dev, 112, 0, ((dev).faultClass 112 0).1, ((dev).faultClass 112 0).2.1, ((dev).faultClass 112 0).2.2, [9, 4], 1033, by decide +kernel⟩⟩

theorem test_witness_FaultOrders :
    (∃ (s : State) (path : Path), (s.up) ∧ (s.still) ∧ (path = .cfgWarden ∨ path = .i3c)) ∧
    (∃ (s : State) (path : Path), (s.up) ∧ (s.still) ∧ (path = .cfgWarden ∨ path = .i3c) ∧ ((s.faultClass 86 0).1 = 3)) ∧
    (∃ (s : State) (path : Path) (c : Instr), (s.up) ∧ (s.still) ∧ (path ≠ .cfgWarden) ∧ (path ≠ .i3c) ∧ (c ∈ [.warmReset path, .keyHalt path])) ∧
    (∃ (s : State) (path : Path) (unit : Byte) (cls : Nat) (prom : Bool) (w : WindowS), (s.up) ∧ (s.still) ∧ (s.faultClass 119 unit.toNat = (cls, prom, w)) ∧ (cls < 3) ∧ (s.flt.blaze.f2 = none)) ∧
    (∃ (s : State) (path : Path), (s.up) ∧ (s.still)) :=
  ⟨⟨dev, .cfgWarden, by decide +kernel⟩,
   ⟨dev, .i3c, by decide +kernel⟩,
   ⟨dev, .cfgHost, .keyHalt .cfgHost, by decide +kernel⟩,
   ⟨dev, .i3c, 7, (dev.faultClass 119 7).1, (dev.faultClass 119 7).2.1, (dev.faultClass 119 7).2.2, by decide +kernel⟩,
   ⟨dev, .i3c, by decide +kernel⟩⟩

theorem test_witness_CensusSteps :
    (∃ (s : State), (∀ n : Nat, (s.ent n).halted = false) ∧ (s.up) ∧ (s.still) ∧ (s.isManager = true) ∧ (s.fld Reg.CENSUS_CTL F.CENSUS_CTL_INTERVAL ≠ 0) ∧ (s.flt.census = none) ∧ (s.num = 0)) ∧
    (∃ (s : State), (s.up) ∧ (s.still) ∧ (s.isManager = true) ∧ (s.fld Reg.CENSUS_CTL F.CENSUS_CTL_INTERVAL ≠ 0) ∧ (s.flt.census.isSome = true)) ∧
    (∃ (s : State) (p : Port), (s.up) ∧ (s.still) ∧ ((s.port p).closed = false)) ∧
    (∃ (s : State) (c : CensusS), (∀ p : Port, (s.port p).closed = true) ∧ (s.up) ∧ (s.still) ∧ (s.isManager = true) ∧ (s.flt.census = some c) ∧ (c.dst = none) ∧ (c.writing = false)) :=
  ⟨⟨m0.setFld Reg.CENSUS_CTL F.CENSUS_CTL_INTERVAL 1000, entsOpen, by decide +kernel⟩,
   ⟨{ m0.setFld Reg.CENSUS_CTL F.CENSUS_CTL_INTERVAL 1000 with flt.census := some (cen none) }, by decide +kernel⟩,
   ⟨dev.modPort .e (fun x => { x with closed := false }), .e, by decide +kernel⟩,
   ⟨{ m0 with flt.census := some (cen none) }, cen none, fun q => by cases q <;> decide +kernel, by decide +kernel⟩⟩

theorem test_witness_StepRunsTheFront :
    (∃ (s : State) (c : Instr) (rest : List Instr), (s.pending = c :: rest)) ∧
    (∃ (s t : State) (c : Instr) (rest : List Instr), (s.pending = c :: rest)) ∧
    (∃ (s : State), (s.pending = [])) ∧
    (∃ (s : State), (s.pending = []) ∧ (s.que.job = none) ∧ (s.stack.chans.all (fun c => c.2.pstate != .entering && !c.2.wantExit && c.2.pasrInit.isNone) = true)) :=
  ⟨⟨{ dev with pending := [.poll] }, .poll, [], by decide +kernel⟩,
   ⟨{ dev with pending := [.poll] }, dev, .poll, [], by decide +kernel⟩,
   ⟨dev, by decide +kernel⟩,
   ⟨dev, by decide +kernel⟩⟩

theorem test_witness_StepKeepsClocks :
    (∃ (s t : State), (s.clockInv) ∧ (s.queueWf)) :=
  ⟨dev, dev, by decide +kernel⟩

theorem test_witness_PlacementOneToOne :
    (∃ (l : Nat), (l < Config.userLines)) ∧
    (∃ (a b : Nat), (a < Config.userLines) ∧ (b < Config.userLines) ∧ (placeOf a = placeOf b)) ∧
    (∃ (p : Place), (p.pc < 64) ∧ (p.bg < 12) ∧ (p.bk < 4) ∧ (p.row < 32768) ∧ (p.col < 8) ∧ (p.inPool = false)) :=
  ⟨⟨Config.userLines - 1, by decide +kernel⟩,
   ⟨5, 5, by decide +kernel⟩,
   ⟨placeOf 5, by decide +kernel⟩⟩

/-! ### Ill-formed commands -/

/-- An eye's observations of the right lengths. -/
def eyeO : EyeObs := { eye := 0, volts := List.replicate 64 0, phase := List.replicate 64 0, map := [] }
/-- Ill-formed commands, one for each check of `Instr.wf`. -/
def illA : List Instr :=
  [.memorySelfTestDone 0 [.uncorr { pc := 64, bg := 0, bk := 0, row := 0, col := 0 }],
   .memorySelfTestDone 0 [.sticky { pc := 0, bg := 12, bk := 0, row := 0, col := 0 }],
   .registerWrite .i3c 2 0,
   .registerWrite .i3c (2 ^ 25) 0,
   .aliasWrite .i3c (2 ^ 25) 0,
   .statusWrite .i3c 1 0,
   .i3cPrivateWrite [0, 0, 0],
   .i3cPrivateRead [0] 4,
   .capBlock .e [],
   .rowReceived .e [(0, [0])]]
def illB : List Instr :=
  [.rowReceived .e [(0, List.replicate 685 4)],
   .rowReceived .e [(16, List.replicate 685 0)],
   .eyeScanDone .e [{ eyeO with volts := [0] }],
   .eyeScanDone .e [{ eyeO with phase := [] }],
   .eyeScanDone .e [{ eyeO with map := [[0]] }],
   .wr64 (H .e 2 0 5 true) 0 [],
   .wr128 (H .e 4 0 5 true) 0 (zeros 64) 0,
   .rdata (H .e 2 5 0 false) 0 (zeros 65) 0,
   .cwr (H .e 0 0 5 true) 0 [] none,
   .cwr (H .e 0 0 5 true) 0 [1, 2, 3, 4, 5] none,
   .crdRsp (H .e 0 5 0 false) 0 [1, 2, 3, 4, 5] 0,
   .credit .e [0] [0, 0, 0],
   .credit .e [0, 0, 0, 0, 0, 0, 0] [0],
   .shard (H .e 2 0 5 false) ge 0 false false [0]]
def illC : List Instr :=
  [.shard (H .e 2 0 5 false) { ge with queue := 65536 } 0 false false (List.replicate 16 0),
   .partialMsg (H .e 4 5 0 false) ge true (zeros 129),
   .notice .e { nt with ntype := 256 },
   .notice .e { nt with sev := 4 },
   .notice .e { nt with dev := 64 },
   .notice .e { nt with nseq := 65536 },
   .notice .e { nt with count := 65536 },
   .notice .e { nt with payload := [] },
   .mergeWaitExpiry 0 Config.userLines,
   .lineReadDone 0 [(144, 1)]]
def illD : List Instr :=
  [.testwinAccessDone [(144, 1)],
   .rangerVisit 0 [(144, 1)] [],
   .rangerVisit 0 [] [(144, 1)],
   .fenceDesc 65536 0,
   .censusDesc 0 (2 ^ 32),
   .powerState 65536 0,
   .keyLoad 0 (2 ^ 32),
   .keyRetire 65536 0,
   .evacuate 0 (2 ^ 32),
   .retireMap 65536 0]
def illE : List Instr :=
  [.bistRun 65536 0,
   .fwStage 65536 0,
   .blazeDump 65536 0,
   .deviceReset 65536 0,
   .calRun 65536 0,
   .fuseProgram 65536 0,
   .copy 65536 0,
   .fill 65536 0,
   .zero 65536 0,
   .compare 65536 0]
def illF : List Instr :=
  [.crc 65536 0,
   .gather 65536 0,
   .scatter 65536 0,
   .reduce 65536 0,
   .atomicBatch 65536 0,
   .xorParity 65536 0,
   .jtagMemoryAccess Config.userLines none,
   .jtagMemoryAccess 0 (some []),
   .loadWin .cfgWarden [],
   .loadWin .cfgWarden [1, 2, 3, 4, 5]]
def illG : List Instr :=
  [.faultEvent 0 256 (zeros 16),
   .faultEvent 0 0 [],
   .vpgmChange 4096,
   .vinRange 65536,
   .capWindow 65536 0,
   .capWindow 0 65536]

/-- Each check refuses its command. -/
theorem test_wf_refuses : [illA, illB, illC, illD, illE, illF, illG].all (fun l => l.all (fun c => !c.wf)) = true := by decide +kernel

theorem test_wf_takes : Instr.wf (.wr128 (H .e 4 0 5 true) 0 qd 0) = true ∧ Instr.wf (.notice .e nt) = true ∧ Instr.wf (.fenceDesc 65535 0) = true := by
  decide +kernel

/-! ### Single steps -/

/-- The register that a command leaves, where it completes. -/
def regAfter (s : State) (c : Instr) (a : Nat) : Option Word :=
  match exec c s with
  | .next t => some (t.reg a)
  | _ => none

/-- The worked example of R51 on `TOPO.STATUS`: a write with an old SEQ sets STALE and clears nothing. -/
theorem test_status_stale : regAfter (e0.setReg Reg.TOPO_STATUS 0x00080043) (.statusWrite .i3c Reg.TOPO_STATUS 0x00070041) Reg.TOPO_STATUS =
    some 0x00088043 := by decide +kernel

/-- The worked example of R51, its last step: MISWIRE, LIMIT and STALE clear, ENUM_DONE stays. -/
theorem test_status_clear : regAfter (e0.setReg Reg.TOPO_STATUS 0x00088043) (.statusWrite .i3c Reg.TOPO_STATUS 0x00088043) Reg.TOPO_STATUS =
    some 0x00080040 := by decide +kernel

/-- The table of `NDL.CFG_TMO`: 10 to 1,000 ms, the nearest limit stored. -/
theorem test_write_limit : regAfter (upR 0) (.registerWrite .i3c Reg.NDL_CFG_TMO 1023) Reg.NDL_CFG_TMO = some 1000 := by decide +kernel

/-- R53: NDL.CFG_TMO [31:10] are reserved. -/
theorem test_write_reserved : (match exec (.registerWrite .i3c Reg.NDL_CFG_TMO 0x400) (upR 0) with
    | .fault e => some e | _ => none) = some .rsvWritten := by decide +kernel

/-- R48: the alias of bit 9 of a word changes that bit alone. -/
theorem test_alias : regAfter (upR 0) (.aliasWrite .i3c (2 ^ 24 + Reg.NDL_NTC_EN / 4 * 128 + 36) 0) Reg.NDL_NTC_EN = some 0xFFFFFDFF := by
  decide +kernel

/-- R139 by hand: line 2^28 + 2^11 lies in band 1, bank group 4 + 1, pseudo-channel 2^4 (bit 28) ⊕ 2^5 (bit 11), row 2^15 mod 2^15. -/
theorem test_place : placeOf (2 ^ 28 + 2 ^ 11) = { pc := 0x30, bg := 5, bk := 0, row := 0, col := 0 } := by decide +kernel

/-- R492, R380: the release from State.reset, put in front of the queue, begins the start-slot wait. -/
theorem test_release : (match step { State.reset with pending := [.resetRelease 2 3] } with
    | .next t => some (t.power.phase, t.id.role, t.id.slot, t.pending) | _ => none) = some (.slotWait, 2, 3, []) := by decide +kernel

/-- R354, R358: the hundredth cycle on an empty queue advances CK_TICK. -/
theorem test_tick : (match step { State.reset with now := 99 } with | .next t => some (t.now, t.tick) | _ => none) = some (100, 1) := by
  decide +kernel

/-- The table gives no row any bits. -/
theorem test_no_word : decodeTableWord 8 0 = none ∧ (State.reset.withFetchWord 8 0) = State.reset := by decide +kernel

end Sys2Proof.Tests
end

section
/-! PROOFS. Messages beyond the credits granted, and the markers of a link (R119, R121, R132, R386, R478). -/

namespace Sys2Proof.Machine
open Sys2Proof
open State.only (here)

/-! ### Fault events that exclude nothing -/

theorem State.excludeElem_none {src : Nat} (h : excludes src = false) (unit elem : Nat) (s : State) : s.excludeElem src unit elem = s := by
  simp only [excludes, Bool.or_eq_false_iff, Bool.and_eq_false_iff, decide_eq_false_iff_not, beq_eq_false_iff_ne] at h
  unfold State.excludeElem
  rw [if_neg (by omega), if_neg (by omega), if_neg (by omega)]

namespace State.only

variable {s t : State} {ps : List Part} {as : List Nat}

/-- What an event would be judged as depends on the fault windows, the tick and the configuration of its source alone. -/
theorem faultClass (h : s.only ps as t) (src unit : Nat) (ha : Reg.FAULT_SRC src ∉ as) (hf : Part.faults ∉ ps := by decide) :
    t.faultClass src unit = s.faultClass src unit := by
  have hw (k : Nat) : t.faultWin src k = s.faultWin src k := by
    unfold State.faultWin
    rw [h.reg _ ha, h.tick', (h.2.1 _ hf).1]
  simp only [State.faultClass, hw]

/-- R465, R466: what the reaction to an event may change that is not FATAL, of a source that excludes nothing. -/
theorem react (src unit elem cls : Nat) (prom : Bool) (k : Nat) (h : s.only ps as t) (he : excludes src = false) (hc : cls < 3)
    (hp : ∀ p ∈ [Part.regs, .notices, .counts, .faults], p ∈ ps := by decide) (ha : Reg.FAULT_STATUS ∈ as := by simp) :
    s.only ps as (t.react src unit elem cls prom k) := by
  have hn : s.only ps as (t.faultNotice src cls prom k) :=
    h.cond_ (here.notice _ _ _ (hp _ (by decide)) (hp _ (by decide)))
  unfold State.react State.reactTo
  split
  · rw [State.degrade, State.excludeElem_none he, he]; exact hn
  · split
    · exact ((hn.admitStop _ (hp _ (by decide))).raise _ _ (hp _ (by decide)) ha).cond _ _ _ (hp _ (by decide)) ha
    · rw [if_neg (by omega)]; exact hn

/-- R462 to R466: what an event may change that is not FATAL and finds room in the blaze log, of a source that excludes nothing. -/
theorem faultMild (src unit : Nat) (pl : List Byte) (elem : Nat) (h : s.only ps as t) (hw : t.awake = true) (he : excludes src = false)
    (hm : t.mild src unit) (hp : ∀ p ∈ [Part.regs, .notices, .counts, .faults, .blaze], p ∈ ps := by decide)
    (ha : ∀ a ∈ eventRegs, a ∈ as := by simp) : s.only ps as (t.faultN 3 src unit pl elem) := by
  obtain ⟨hc, hb⟩ := hm
  have hf : t.fatalFirst (t.faultClass src unit).1 src unit pl = t := by
    rw [State.fatalFirst, beq_eq_false_iff_ne.2 (by omega)]; rfl
  have hl : (t.faultCount src unit pl).2 = false := State.faultLog_kept _ _ _ _ _ _ _ _ (by rw [State.faultMark_blaze]; exact hb)
  have hk : s.only ps as (t.faultCount src unit pl).1 := by
    refine (h.faultMark _ _ _ _ ?_ ?_).faultLog _ _ _ _ _ _ _ ?_ (ha _ (by simp [eventRegs]))
    · exact fun p hq => hp p (by simp at hq ⊢; tauto)
    · exact fun a hq => ha a (by simp [eventRegs] at hq ⊢; tauto)
    · exact fun p hq => hp p (by simp at hq ⊢; tauto)
  rw [State.faultN, if_pos hw]
  simp only [hf, hl, Bool.false_eq_true, false_and, if_false]
  exact hk.react _ _ _ _ _ _ he hc (fun p hq => hp p (by simp at hq ⊢; tauto)) (ha _ (by simp [eventRegs]))

end State.only

/-! ### A message beyond the credits granted (R121) -/

/-- R121: a port discards a message beyond the credits it granted. -/
def State.creditErr (p : Port) (s : State) : State :=
  ((s.bump (portSlot p 31) 1).raise Reg.NDL_STATUS F.NDL_STATUS_CREDIT_ERR).fault 37 0 []

theorem State.accept_overrun {s : State} {p : Port} {op : MOp} {nd : Nat} (h : s.overrun p op nd) (ok : Bool) :
    s.accept p op nd ok = (s.creditErr p, false) := by
  obtain ⟨hact, hnak, -, hver, hcls, hcred, -, -⟩ := h
  have hv : (s.hostSide p && decide ((s.port p).version < 2)) = false := by
    cases hh : s.hostSide p with
    | false => rfl
    | true => exact decide_eq_false (Nat.not_lt.2 (hver hh))
  rw [State.accept, hv]
  simp [State.creditErr, hact, hnak, hcls, hcred]

theorem State.creditErr_only {s : State} (p : Port) (ha : s.awake = true) (hm : s.mild 37 0) :
    s.only [.regs, .notices, .counts, .faults, .blaze] (Reg.NDL_STATUS :: eventRegs) (s.creditErr p) := by
  have h : s.only [.counts, .regs] [Reg.NDL_STATUS]
      ((s.bump (portSlot p 31) 1).raise Reg.NDL_STATUS F.NDL_STATUS_CREDIT_ERR) := (here.bump ..).raise ..
  have hm' : State.mild ((s.bump (portSlot p 31) 1).raise Reg.NDL_STATUS F.NDL_STATUS_CREDIT_ERR) 37 0 :=
    ⟨by rw [h.faultClass 37 0 (by decide)]; exact hm.1, by rw [h.blaze']; exact hm.2⟩
  exact h.mono.faultMild _ _ _ _ (by rw [h.awake]; exact ha) (by decide) hm' (ha := fun _ hq => List.mem_cons_of_mem _ hq)

theorem State.creditErr_flag (p : Port) (s : State) : (s.creditErr p).fld Reg.NDL_STATUS F.NDL_STATUS_CREDIT_ERR = 1 := by
  rw [State.creditErr, State.fld_fault (by decide)]
  exact State.fld_raise _ _ (by decide) _

theorem State.arrive_overrun {s : State} {m : Msg} (h : s.overrun m.h.port m.op m.h.ndata) (ok : Bool) (f : Port → Msg → State → State) :
    s.arrive m ok f = s.creditErr m.h.port := by
  have ⟨_, _, hin, _⟩ := h
  simp only [State.arrive, hin, State.accept_overrun h]

theorem State.cfgIn_overrun {s : State} {m : Msg} (h : s.overrun m.h.port m.op m.h.ndata) (ok : Bool) :
    s.cfgIn m ok = some (s.creditErr m.h.port) := by
  have ⟨_, _, hin, _⟩ := h
  simp only [State.cfgIn, hin, State.accept_overrun h]

/-- A command that stands for a message is its arrival: a configuration request by R116, any other by R98 to R101. -/
theorem exec_messageOf {c : Instr} {m : Msg} (h : messageOf c = some m) :
    (∃ ok f, ∀ s, exec c s = always (State.arrive m ok f) s) ∨ ∃ ok, ∀ s, exec c s = access (State.cfgIn m ok) s := by
  unfold messageOf at h
  split at h
  case h_18 => cases h
  -- CRD and CWR, which arrive by `State.cfgIn`
  case h_10 | h_11 => cases h; exact .inr ⟨_, fun _ => rfl⟩
  all_goals cases h; exact .inl ⟨_, _, fun _ => rfl⟩

theorem State.creditErr_still {s : State} (p : Port) (hup : s.up) (hst : s.still) (hm : s.mild 37 0) : (s.creditErr p).still :=
  (State.creditErr_only p hup.awake hm).still hst

theorem exec_overrun {s : State} {c : Instr} {m : Msg} (hup : s.up) (hst : s.still) (hc : messageOf c = some m)
    (h : s.overrun m.h.port m.op m.h.ndata) : exec c s = .next (s.carry (s.creditErr m.h.port)) := by
  have ⟨_, _, _, _, _, _, hm⟩ := h
  have hs := State.creditErr_still m.h.port hup hst hm
  rcases exec_messageOf hc with ⟨ok, f, he⟩ | ⟨ok, he⟩
  · have ha := State.arrive_overrun h ok f
    rw [he, always_still _ _ (by rw [ha]; exact hs), ha]
  · rw [he, access_some (State.cfgIn_overrun h ok) hs]

theorem exec_notice_overrun {s : State} {p : Port} (n : Notice) (hup : s.up) (hst : s.still) (h : s.overrun p .ntc 0) :
    exec (.notice p n) s = .next (s.carry (s.creditErr p)) := by
  have ⟨_, _, _, _, _, _, hm⟩ := h
  have ha := State.arrive_overrun
    (m := { op := .ntc, h := { s.hdrTo 0 true .switch 0 0 0 0 with port := p, src := n.src }, ntc := some n }) h true State.noticeIn
  refine (always_still _ s ?_).trans ?_
  · rw [ha]; exact State.creditErr_still p hup hst hm
  · rw [ha]

theorem State.completes_creditErr {s : State} {c : Instr} {p : Port} (hup : s.up) (hm : s.mild 37 0)
    (hc : exec c s = .next (s.carry (s.creditErr p))) :
    s.completes c [.regs, .notices, .counts, .faults, .blaze] (Reg.NDL_STATUS :: eventRegs)
      (fun t => t.fld Reg.NDL_STATUS F.NDL_STATUS_CREDIT_ERR = 1 ∧ ∀ q : Port, t.port q = s.port q) :=
  have ho := State.creditErr_only p hup.awake hm
  ⟨_, hc, ⟨State.creditErr_flag p s, fun q => (State.carry_port ..).trans (ho.port q)⟩, ho.carry⟩

/-! ### Credits and power markers (R119, R386) -/

theorem State.take_port (p : Port) (cls nd : Nat) (s : State) : (s.take p cls nd).port p = (s.port p).took cls nd :=
  State.port_modPort ..

theorem State.take_port_ne {p q : Port} (h : q ≠ p) (cls nd : Nat) (s : State) : (s.take p cls nd).port q = s.port q :=
  State.port_modPort_ne h ..

theorem State.modPort_fixed (p : Port) (f : PortS → PortS) (s : State) (h : f (s.port p) = s.port p) : s.modPort p f = s := by
  rw [State.modPort, h]
  cases p <;> rfl

theorem State.flush_idle (p : Port) (s : State) (h : (s.port p).wait = []) : s.flush p = s := by
  unfold State.flush
  split
  · rfl
  · rw [h]
    exact State.modPort_fixed _ _ _ (by rw [← h])

/-- R119: a port whose partner has granted further credits. -/
def PortS.credited (hs ds : List Nat) (x : PortS) : PortS := { x with held := x.held.addAll hs ds }

/-- R386: a port whose partner has said whether it sleeps. -/
def PortS.told (asleep : Bool) (x : PortS) : PortS := { x with sleeping := asleep }

/-- R119: at a port that nothing waits at, CREDIT adds to the credits held and sends nothing. -/
theorem State.creditIn_takes {s : State} {p : Port} (h : s.takes p .credit 0) (hw : (s.port p).wait = [])
    (hd : s.flt.notices.any (fun n => n.2.due) = false) (hh : s.flt.hostNtc = []) (hs ds : List Nat) :
    s.creditIn p hs ds = ((s.take p 6 0).modPort p (PortS.credited hs ds)).cond Reg.NDL_STATUS F.NDL_STATUS_NTC_BACKLOG false := by
  have ho := (State.take_only p 6 0 s).modPort p (PortS.credited hs ds)
  have hi : ((s.take p 6 0).modPort p (PortS.credited hs ds)).flush p = (s.take p 6 0).modPort p (PortS.credited hs ds) :=
    State.flush_idle _ _ (by rw [State.port_modPort, State.take_port]; exact hw)
  obtain ⟨hn, -, hq, -⟩ := ho.2.1 .notices (by decide)
  rw [State.creditIn, State.accept_takes h]
  change State.ntcRetry (((s.take p 6 0).modPort p (PortS.credited hs ds)).flush p) = _
  rw [hi, State.ntcRetry_quiet _ (by rw [hn, hd]) (by rw [hq, hh])]

theorem State.completes_credit {s : State} {p : Port} (hr : s.regs.wait = []) (h : s.takes p .credit 0) (hw : (s.port p).wait = [])
    (hd : s.flt.notices.any (fun n => n.2.due) = false) (hh : s.flt.hostNtc = []) (hs ds : List Nat) :
    s.completes (.credit p hs ds) [.ports, .counts, .regs] [Reg.NDL_STATUS]
      (fun t => (t.port p).held = (s.port p).held.addAll hs ds ∧ ∀ q : Port, q ≠ p → t.port q = s.port q) := by
  have ⟨_, _, _, _, _, _, hin⟩ := h
  have hf : s.creditIn (s.inPort p) hs ds = _ := (congrArg (s.creditIn · hs ds) hin).trans (State.creditIn_takes h hw hd hh hs ds)
  have hu := (State.take_only p 6 0 s).modPort p (PortS.credited hs ds)
  have hc := (here (s := (s.take p 6 0).modPort p (PortS.credited hs ds)) (ps := [.regs]) (as := [Reg.NDL_STATUS])).cond
    Reg.NDL_STATUS F.NDL_STATUS_NTC_BACKLOG false
  have ho : s.only [.ports, .counts, .regs] [Reg.NDL_STATUS] _ := hu.mono.step hc
  rw [← hf] at ho
  refine State.completes_local rfl (by rw [ho.wait', hr]) ho ?_
  simp only [State.carry_port, hf, hc.port]
  refine ⟨?_, fun q hq => ?_⟩
  · rw [State.port_modPort, State.take_port]; rfl
  · rw [State.port_modPort_ne hq, State.take_port_ne hq]

/-- R386: a well-formed PWR marker says whether the partner sleeps. -/
theorem State.pwrIn_takes {s : State} {p : Port} (h : s.takes p .pwr 0) (sub code : Nat)
    (hok : (decide (code ≤ 4) && (sub == 1 || code == 0)) = true) :
    s.pwrIn p sub code = (s.take p 6 0).modPort p (PortS.told (sub == 1 && code == 2)) := by
  rw [State.pwrIn, hok, State.accept_takes h]
  rfl

theorem State.completes_pwr {s : State} {p : Port} {c : Instr} (hr : s.regs.wait = []) (h : s.takes p .pwr 0) (sub code : Nat)
    (hok : (decide (code ≤ 4) && (sub == 1 || code == 0)) = true) (hc : exec c s = local_ (State.pwrIn p sub code) s) :
    s.completes c [.ports, .counts] []
      (fun t => (t.port p).sleeping = (sub == 1 && code == 2) ∧ ∀ q : Port, q ≠ p → t.port q = s.port q) := by
  have hf := State.pwrIn_takes h sub code hok
  have ho := (State.take_only p 6 0 s).modPort p (PortS.told (sub == 1 && code == 2))
  rw [← hf] at ho
  refine State.completes_local hc (by rw [ho.wait', hr]) ho ?_
  simp only [State.carry_port, hf]
  refine ⟨?_, fun q hq => ?_⟩
  · rw [State.port_modPort]; rfl
  · rw [State.port_modPort_ne hq, State.take_port_ne hq]

/-! ### Sending a marker at once (R132) -/

/-- What of a port decides whether it sends a marker at once. -/
def PortS.sender (x : PortS) : PortS :=
  { tstate := x.tstate, wait := x.wait, version := x.version, buffer := x.buffer, held := x.held, sleeping := x.sleeping, owes := x.owes }

theorem PortS.sender_tstate {x y : PortS} (h : x.sender = y.sender) : x.tstate = y.tstate := by
  have e := congrArg PortS.tstate h
  exact e

theorem State.sends_congr {s t : State} {p : Port} {op : MOp} {nd : Nat} (h : (t.port p).sender = (s.port p).sender)
    (hs : s.sends p op nd) : t.sends p op nd := by
  simp only [PortS.sender, PortS.mk.injEq] at h
  simp only [State.sends] at hs ⊢
  simpa only [h] using hs

theorem State.layRow_port_ne {p q : Port} (h : q ≠ p) (bs : List WBlock) (s : State) : (s.layRow p bs).port q = s.port q := by
  unfold State.layRow State.airRow
  rw [State.port_modPort_ne h]
  exact forEach_same (·.port q) _ (fun _ _ => State.airPass_port ..) _ _

theorem State.emit_port_ne {p q : Port} (h : q ≠ p) (m : Msg) (s : State) : (s.emit p m).port q = s.port q := by
  unfold State.emit State.sequence
  exact (State.layRow_port_ne h ..).trans ((State.port_modPort_ne h ..).trans (State.port_modPort_ne h ..))

theorem State.drain_port_ne {p q : Port} (h : q ≠ p) : ∀ (l : List Msg) (b : List Nat) (k : List Msg) (s : State),
    (s.drain p l b k).port q = s.port q
  | [], _, _, s => State.port_modPort_ne h ..
  | m :: r, b, k, s => by
    unfold State.drain
    dsimp only
    split
    · exact State.drain_port_ne h r b k s
    · split
      · exact (State.drain_port_ne h r b k _).trans (State.emit_port_ne h m s)
      · exact State.drain_port_ne h r _ _ s

theorem State.flush_port_ne {p q : Port} (h : q ≠ p) (s : State) : (s.flush p).port q = s.port q := by
  unfold State.flush
  split
  · rfl
  · exact State.drain_port_ne h ..

theorem State.sendMarker_port_ne {p q : Port} (h : q ≠ p) (number tick : Nat) (echo : Bool) (s : State) :
    (s.sendMarker p number tick echo).port q = s.port q := by
  unfold State.sendMarker
  rw [State.flush_port_ne h, State.port_modPort_ne h]

theorem State.sendMarker_only (p : Port) (number tick : Nat) (echo : Bool) (s : State) :
    s.only [.ports, .sent, .counts] [] (s.sendMarker p number tick echo) := by
  unfold State.sendMarker
  exact (here.modPort ..).trans (State.flush_only ..)

/-- A message as it stands in the list of what has left a port. -/
def Msg.on (p : Port) (m : Msg) : Port × Msg := (p, { m with h := { m.h with port := p } })

theorem State.emit_tx (p : Port) (m : Msg) (s : State) : (s.emit p m).net.tx = s.net.tx ++ [m.on p] := by
  unfold State.emit State.sequence
  dsimp only [State.bump]
  rw [(State.layRow_only ..).tx', State.modPort_net_tx, State.modPort_net_tx]
  rfl

/-- A port with a message in front of those that wait at it. -/
def PortS.queued (m : Msg) (x : PortS) : PortS := { x with wait := m :: x.wait }

theorem State.drain_one {s : State} {p : Port} {m : Msg} (hact : (s.port p).tstate = .active)
    (hver : versionCarries (s.port p).version m.op = true) (hroom : (s.port p).buffer.length < Config.REPLAY_DEPTH)
    (hcred : (s.port p).held.has m.op.cls m.h.ndata = true) : (s.drain p [m] [] []).net.tx = s.net.tx ++ [m.on p] := by
  rw [State.drain]
  simp [hact, hver, hroom, hcred, Msg.behindData, State.drain, State.emit_tx]

/-- A port that may send at once sends the one message that waits at it. -/
theorem State.flush_sends {s : State} {p : Port} {m : Msg} (h : s.sends p m.op m.h.ndata) :
    ((s.modPort p (PortS.queued m)).flush p).net.tx = s.net.tx ++ [m.on p] := by
  obtain ⟨hact, hwait, hver, hroom, hcred, -, howes⟩ := h
  have hp : (s.modPort p (PortS.queued m)).port p = (s.port p).queued m := State.port_modPort ..
  have hf : (s.modPort p (PortS.queued m)).flush p = (s.modPort p (PortS.queued m)).drain p [m] [] [] := by
    simp only [State.flush, State.muted, hp, PortS.queued, howes, hwait, Bool.false_eq_true, if_false]
  rw [hf, State.drain_one (by rw [hp]; exact hact) (by rw [hp]; exact hver) (by rw [hp]; exact hroom) (by rw [hp]; exact hcred),
    State.modPort_net_tx]

/-- R132: a marker of this device, as it leaves a port. -/
def State.markerOn (s : State) (number tick : Nat) (echo : Bool) (o : Port) : Port × Msg := (s.censusMsg number tick echo).on o

theorem State.markerOn_congr {s t : State} (h : t.num = s.num) (number tick : Nat) (echo : Bool) :
    t.markerOn number tick echo = s.markerOn number tick echo := by
  unfold State.markerOn State.censusMsg State.hdrTo
  rw [h]

theorem State.sendMarker_tx {s : State} {p : Port} (h : s.sends p .census 0) (number tick : Nat) (echo : Bool) :
    (s.sendMarker p number tick echo).net.tx = s.net.tx ++ [s.markerOn number tick echo p] :=
  State.flush_sends (m := s.censusMsg number tick echo) h

/-- A marker goes out of each of the ports that may send it, in order. -/
theorem State.sendMarkers_tx (number tick : Nat) (echo : Bool) (l : List Port) (hd : l.Nodup) : ∀ (s : State),
    (∀ o ∈ l, s.sends o .census 0) →
    (forEach l (fun o s => s.sendMarker o number tick echo) s).net.tx = s.net.tx ++ l.map (s.markerOn number tick echo) := by
  induction l with
  | nil => exact fun s _ => (List.append_nil _).symm
  | cons p l ih =>
    intro s h
    obtain ⟨hp, hl⟩ := List.nodup_cons.1 hd
    have hn : (s.sendMarker p number tick echo).num = s.num := (State.sendMarker_only p number tick echo s).fld _ _
    have hr (o : Port) (ho : o ∈ l) : (s.sendMarker p number tick echo).sends o .census 0 := by
      have hne : o ≠ p := fun e => hp (e ▸ ho)
      exact State.sends_congr (by rw [State.sendMarker_port_ne hne]) (h o (List.mem_cons_of_mem _ ho))
    rw [forEach_cons, ih hl _ hr, State.sendMarker_tx (h p List.mem_cons_self), State.markerOn_congr hn, List.map_cons, List.append_assoc]
    rfl

/-! ### The latch of a census (R478) -/

/-- What of a channel the counters of time leave: all but the marks from which they count on. -/
def ChanS.untimed (c : ChanS) : ChanS := { c with satAt := 0, srFrom := 0 }

theorem ChanS.untimed_eq {c d : ChanS} (h : c.untimed = d.untimed) : { c with satAt := d.satAt, srFrom := d.srFrom } = d :=
  congrArg (fun x : ChanS => { x with satAt := d.satAt, srFrom := d.srFrom }) h

theorem State.tallyChan_chan (m n : Nat) (s : State) : ((s.tallyChan m).chan n).untimed = (s.chan n).untimed := by
  unfold State.tallyChan
  dsimp only
  refine (congrArg ChanS.untimed (((here (ps := [.counts]) (as := [])).bump _ _).bump _ _ |>.chan n)).trans ?_
  by_cases e : n = m
  · subst e; rw [State.chan_modChan]; rfl
  · rw [State.chan_modChan_ne e]

theorem State.tally_chan (n : Nat) (s : State) : (s.tally.chan n).untimed = (s.chan n).untimed :=
  forEach_same (fun t => (t.chan n).untimed) _ (fun m t => State.tallyChan_chan m n t) _ s

theorem State.tally_only (s : State) : s.only [.chans, .counts] [] s.tally := here.loop _ (fun _ _ => State.tallyChan_only ..) _

/-- R478: every counter latched, before the ports are marked. -/
def State.latched (number : Nat) (s : State) : State :=
  let u := s.tally.bump (devSlot 144) 1
  ({ u with flt.snap := u.flt.counts, flt.snapTorn := u.flt.torn, flt.torn := [], flt.snapHdr := [number, u.tick, 0],
            flt.lastCensus := number }).setReg Reg.CENSUS_LAST (BitVec.ofNat 32 number)

theorem State.latched_tally (number : Nat) (s : State) : s.tally.only [.counts, .census, .regs] [Reg.CENSUS_LAST] (s.latched number) := by
  refine State.only.setReg _ _ (t := _) ((here.bump (devSlot 144) 1).trans ?_)
  refine ⟨⟨rfl, rfl, rfl⟩, fun q hq => ?_, fun _ _ => rfl⟩
  cases q with
  | counts | census => exact absurd (by decide) hq
  | _ => simp [Part.same]

theorem State.latched_only (number : Nat) (s : State) : s.only [.chans, .counts, .census, .regs] [Reg.CENSUS_LAST] (s.latched number) :=
  (here.step (State.tally_only s)).step (State.latched_tally number s)

/-- A port as a latch leaves it: nothing counted since, and closed or not. -/
def PortS.marked (closed : Bool) (x : PortS) : PortS :=
  { x with sinceAct := [0, 0, 0, 0, 0, 0, 0], closed := closed, unclosed := false }

/-- A latch marks every port once the counters are latched. -/
def State.markPort (o : Option Port) (p : Port) (s : State) : State := s.modPort p (PortS.marked (!s.markerPort p || o == some p))

theorem State.latch_eq (number : Nat) (o : Option Port) (s : State) :
    s.latch number o = forEach allPorts (State.markPort o) (s.latched number) := rfl

theorem State.markPort_only (o : Option Port) (p : Port) (s : State) : s.only [.ports] [] (s.markPort o p) := here.modPort ..

theorem State.latch_latched (number : Nat) (o : Option Port) (s : State) : (s.latched number).only [.ports] [] (s.latch number o) := by
  rw [State.latch_eq]
  exact here.loop _ (fun _ _ => State.markPort_only ..) _

theorem State.latch_only (number : Nat) (o : Option Port) (s : State) :
    s.only [.ports, .chans, .counts, .census, .regs] [Reg.CENSUS_LAST] (s.latch number o) :=
  (here.step (State.latched_only number s)).step (State.latch_latched number o s)

theorem State.latch_snap (number : Nat) (o : Option Port) (s : State) :
    (s.latch number o).flt.snap = (s.tally.bump (devSlot 144) 1).flt.counts ∧ (s.latch number o).flt.snapHdr = [number, s.tick, 0] ∧
    (s.latch number o).flt.lastCensus = number := by
  obtain ⟨hsnap, -, hhdr, hlast, -⟩ := (State.latch_latched number o s).2.1 .census (by decide)
  exact ⟨hsnap, by rw [hhdr, ← (State.tally_only s).tick']; rfl, hlast⟩

theorem State.latch_last (number : Nat) (o : Option Port) (s : State) :
    (s.latch number o).reg Reg.CENSUS_LAST = BitVec.ofNat 32 number := by
  rw [(State.latch_latched number o s).reg, State.latched, State.reg_setReg]

theorem State.latch_chan (number : Nat) (o : Option Port) (n : Nat) (s : State) :
    ((s.latch number o).chan n).untimed = (s.chan n).untimed := by
  rw [(State.latch_latched number o s).chan, (State.latched_tally number s).chan, State.tally_chan]

theorem State.modPort_sender (p : Port) {f : PortS → PortS} (hf : ∀ x, (f x).sender = x.sender) (s : State) (q : Port) :
    ((s.modPort p f).port q).sender = (s.port q).sender := by
  by_cases e : q = p
  · subst e; rw [State.port_modPort, hf]
  · rw [State.port_modPort_ne e]

/-- R478: a latch takes from no port what it needs to send a marker. -/
theorem State.latch_sender (number : Nat) (o : Option Port) (s : State) (q : Port) :
    ((s.latch number o).port q).sender = (s.port q).sender := by
  rw [State.latch_eq, forEach_same (fun t => (t.port q).sender) (State.markPort o)
      (fun p t => State.modPort_sender p (f := PortS.marked (!t.markerPort p || o == some p)) (fun _ => rfl) t q),
    (State.latched_only number s).port]

/-! ### The first marker of a census (R132, R478) -/

/-- R132: the marker is echoed on the port by which it came, then passed on by every other port that carries markers. -/
def State.spread (p : Port) (number tick : Nat) (s : State) : State :=
  let t := s.sendMarker p number tick true
  forEach (allPorts.filter (fun o => o != p && t.markerPort o)) (fun o s => s.sendMarker o number tick false) t

theorem State.spread_only (p : Port) (number tick : Nat) (s : State) : s.only [.ports, .sent, .counts] [] (s.spread p number tick) :=
  State.only.loop _ (fun _ _ => State.sendMarker_only ..) _ (State.sendMarker_only ..)

theorem State.markerPort_congr {s t : State} {o : Port} (h : (t.port o).tstate = (s.port o).tstate) (hr : t.isManager = s.isManager) :
    t.markerPort o = s.markerPort o := by
  simp only [State.markerPort, State.portUp, State.hostSide, h, hr]

theorem State.spread_tx {s : State} {p : Port} (h : ∀ q : Port, (q = p ∨ s.markerPort q = true) → s.sends q .census 0) (number tick : Nat) :
    (s.spread p number tick).net.tx = s.net.tx ++ s.markerOn number tick true p ::
      (allPorts.filter (fun o => o != p && s.markerPort o)).map (s.markerOn number tick false) := by
  have ho := State.sendMarker_only p number tick true s
  have hl : allPorts.filter (fun o => o != p && (s.sendMarker p number tick true).markerPort o) =
      allPorts.filter (fun o => o != p && s.markerPort o) := by
    refine List.filter_congr fun o _ => ?_
    by_cases e : o = p
    · simp [e]
    · rw [State.markerPort_congr (by rw [State.sendMarker_port_ne e]) ho.isManager]
  have hs : ∀ o ∈ allPorts.filter (fun o => o != p && s.markerPort o), (s.sendMarker p number tick true).sends o .census 0 := by
    intro o hm
    simp only [List.mem_filter, Bool.and_eq_true, bne_iff_ne] at hm
    obtain ⟨-, hne, hmp⟩ := hm
    exact State.sends_congr (by rw [State.sendMarker_port_ne hne]) (h o (.inr hmp))
  have hn : (s.sendMarker p number tick true).num = s.num := ho.fld _ _
  unfold State.spread
  dsimp only
  rw [hl, State.sendMarkers_tx _ _ _ _ ((by decide : allPorts.Nodup).filter _) _ hs, State.sendMarker_tx (h p (.inl rfl)), List.append_assoc,
    State.markerOn_congr hn]
  rfl

/-- Markers that go out from a state whose ports send as those of `s` do are markers of `s`. -/
theorem State.spread_tx_of {s u : State} {p : Port} {ps : List Part} {as : List Nat} (hu : s.only ps as u) (hi : Part.id ∉ ps)
    (hsent : Part.sent ∉ ps) (hn : Reg.IDENT_DEVNUM ∉ as) (hport : ∀ q : Port, (u.port q).sender = (s.port q).sender)
    (h : ∀ q : Port, (q = p ∨ s.markerPort q = true) → s.sends q .census 0) (number tick : Nat) :
    (u.spread p number tick).net.tx = s.net.tx ++ s.markerOn number tick true p ::
      (allPorts.filter (fun o => o != p && s.markerPort o)).map (s.markerOn number tick false) := by
  have hmark : u.markerPort = s.markerPort :=
    funext fun q => State.markerPort_congr (PortS.sender_tstate (hport q)) (hu.isManager hi)
  have hsend (q : Port) (hq : q = p ∨ u.markerPort q = true) : u.sends q .census 0 := State.sends_congr (hport q) (h q (hmark ▸ hq))
  rw [State.spread_tx hsend, hu.tx' hsent, hmark, State.markerOn_congr (hu.fld _ _ hn), State.markerOn_congr (hu.fld _ _ hn)]

theorem State.censusIn_first {s : State} {p : Port} {number : Nat} (hm : s.isManager = false) (h : s.takes p .census 0)
    (hn : number ≠ s.flt.lastCensus) (tick : Nat) :
    s.censusIn p number tick false = (((s.take p 6 0).latch number (some p)).spread p number tick).censusFlag := by
  have ho := State.take_only p MOp.census.cls 0 s
  obtain ⟨-, -, -, hl, -⟩ := ho.2.1 .census (by decide)
  rw [State.censusIn, State.accept_takes h]
  dsimp only
  rw [if_neg (by simp [hl, hn, ho.isManager, hm])]
  rfl

theorem State.censusFlag_only (s : State) : s.only [.regs] [Reg.CENSUS_STATUS] s.censusFlag := here.cond ..

theorem State.completes_census {s : State} {p : Port} {number : Word} (hr : s.regs.wait = []) (hm : s.isManager = false)
    (h : s.takes p .census 0) (hn : number.toNat ≠ s.flt.lastCensus)
    (hs : ∀ q : Port, (q = p ∨ s.markerPort q = true) → s.sends q .census 0) (tick : BitVec 48) :
    s.completes (.census p number tick false) [.ports, .sent, .counts, .census, .chans, .regs] [Reg.CENSUS_LAST, Reg.CENSUS_STATUS]
      (fun t => (∀ n : Nat, { t.chan n with satAt := (s.chan n).satAt, srFrom := (s.chan n).srFrom } = s.chan n) ∧
        t.flt.lastCensus = number.toNat ∧ t.reg Reg.CENSUS_LAST = number ∧ t.flt.snapHdr = [number.toNat, s.tick, 0] ∧
        t.flt.snap = ((s.take p 6 0).tally.bump (devSlot 144) 1).flt.counts ∧
        t.net.tx = s.net.tx ++ s.markerOn number.toNat tick.toNat true p ::
          (allPorts.filter (fun o => o != p && s.markerPort o)).map (s.markerOn number.toNat tick.toNat false)) := by
  have hf := State.censusIn_first hm h hn tick.toNat
  have ht := State.take_only p 6 0 s
  have hu := ht.mono.trans (State.latch_only number.toNat (some p) (s.take p 6 0))
  obtain ⟨hsnap, hhdr, hlast⟩ := State.latch_snap number.toNat (some p) (s.take p 6 0)
  have hreg := State.latch_last number.toNat (some p) (s.take p 6 0)
  have hchan (n : Nat) := State.latch_chan number.toNat (some p) n (s.take p 6 0)
  have hport (q : Port) : (((s.take p 6 0).latch number.toNat (some p)).port q).sender = (s.port q).sender :=
    (State.latch_sender ..).trans (State.modPort_sender p (f := PortS.took 6 0) (fun _ => rfl) s q)
  generalize (s.take p 6 0).latch number.toNat (some p) = u at hf hu hsnap hhdr hlast hreg hchan hport
  have htx := State.spread_tx_of hu (by decide) (by decide) (by decide) hport hs number.toNat tick.toNat
  have hw := State.spread_only p number.toNat tick.toNat u
  have hx := State.censusFlag_only (u.spread p number.toNat tick.toNat)
  have huw : u.only [.ports, .sent, .counts, .regs] [Reg.CENSUS_STATUS] (u.spread p number.toNat tick.toNat).censusFlag := hw.mono.step hx
  obtain ⟨wsnap, -, whdr, wlast, -⟩ := huw.2.1 .census (by decide)
  have ho : s.only [.ports, .sent, .counts, .census, .chans, .regs] [Reg.CENSUS_LAST, Reg.CENSUS_STATUS]
      (u.spread p number.toNat tick.toNat).censusFlag := hu.mono.step huw
  refine State.completes_local (f := State.censusIn p number.toNat tick.toNat false) rfl (by rw [hf, ho.wait', hr]) (by rw [hf]; exact ho) ?_
  rw [hf]
  refine ⟨fun n => ChanS.untimed_eq ?_, wlast.trans hlast, ?_, whdr.trans (hhdr.trans (by rw [ht.tick'])), wsnap.trans hsnap, hx.tx'.trans htx⟩
  · rw [State.carry_chan, huw.chan, hchan, ht.chan]
  · rw [State.carry_reg, huw.reg _ (by decide), hreg, BitVec.ofNat_toNat, BitVec.setWidth_eq]

/-- Settles O31: each command of a link completes, by the lemmas on credits, the census, power markers and overruns above. -/
theorem linkMarkers : Obligations.LinkMarkers := by
  intro s p hup hr
  refine ⟨fun hs ds h hw hd hh => State.completes_credit hr h hw hd hh hs ds,
    fun number tick hm h hn hs => State.completes_census hr hm h hn hs tick,
    fun code hc h => State.completes_pwr hr h 1 code (by simpa using hc) rfl,
    fun h => State.completes_pwr hr h 2 0 rfl rfl, fun c m hcalm hc hp h => ?_, fun n hcalm h => ?_⟩
  · subst hp
    have ⟨_, _, _, _, _, _, hmild⟩ := h
    exact State.completes_creditErr hup hmild (exec_overrun hup ⟨hcalm, hr⟩ hc h)
  · have ⟨_, _, _, _, _, _, hmild⟩ := h
    exact State.completes_creditErr hup hmild (exec_notice_overrun n hup ⟨hcalm, hr⟩ h)

end Sys2Proof.Machine
end

section
/-! PROOFS. The hash that places a line and its inverse (R139, R156): each field is folded with bits above it alone, so the fields are
recovered from the top down. -/

namespace Sys2Proof

/-- R156: a place lies outside the pool by its bank group or by its row. -/
theorem Place.inPool_eq_false_iff (p : Place) : p.inPool = false ↔ p.bg < 8 ∨ p.row < Config.poolFirstRow := by
  simp only [Place.inPool, Bool.and_eq_false_iff, decide_eq_false_iff_not, Nat.not_le]

end Sys2Proof

namespace Sys2Proof.Machine
open Sys2Proof

/-! ### Bits at and above a position -/

theorem bits_lt (n hi lo : Nat) : bits n hi lo < 2 ^ (hi + 1 - lo) := Nat.mod_lt _ (Nat.two_pow_pos _)

/-- The bits from `lo` up depend on the number without the bits below `k`, where `k` is at most `lo`. -/
theorem bits_congr_above {a b k lo : Nat} (h : a / 2 ^ k = b / 2 ^ k) (hk : k ≤ lo) (hi : Nat) : bits a hi lo = bits b hi lo := by
  obtain ⟨d, rfl⟩ := Nat.exists_eq_add_of_le hk
  simp only [bits, Nat.pow_add, ← Nat.div_div_eq_div_mul, h]

/-! ### What the hash folds into each field -/

/-- R139: the bits folded into the low bits of the bank group. -/
def foldBg (l : Nat) : Nat := bits l 16 15 ^^^ bits l 24 23

/-- R139: the bits folded into the bank. -/
def foldBk (l : Nat) : Nat := bits l 14 13 ^^^ bits l 22 21

/-- R139: the bits folded into the pseudo-channel. -/
def foldPc (l : Nat) : Nat := bits l 11 6 ^^^ bits l 17 12 ^^^ bits l 23 18 ^^^ bits l 29 24

theorem foldBg_lt (l : Nat) : foldBg l < 2 ^ 2 := Nat.xor_lt_two_pow (bits_lt ..) (bits_lt ..)

theorem foldBk_lt (l : Nat) : foldBk l < 2 ^ 2 := Nat.xor_lt_two_pow (bits_lt ..) (bits_lt ..)

theorem foldPc_lt (l : Nat) : foldPc l < 2 ^ 6 :=
  Nat.xor_lt_two_pow (Nat.xor_lt_two_pow (Nat.xor_lt_two_pow (bits_lt ..) (bits_lt ..)) (bits_lt ..)) (bits_lt ..)

/-- The bank group is folded with bits of the row alone. -/
theorem foldBg_congr {a b : Nat} (h : a / 2 ^ 13 = b / 2 ^ 13) : foldBg a = foldBg b := by
  rw [foldBg, bits_congr_above h (by decide), bits_congr_above h (by decide), foldBg]

/-- The bank is folded with bits of the row alone. -/
theorem foldBk_congr {a b : Nat} (h : a / 2 ^ 13 = b / 2 ^ 13) : foldBk a = foldBk b := by
  rw [foldBk, bits_congr_above h (by decide), bits_congr_above h (by decide), foldBk]

/-- The pseudo-channel is folded with bits above its own alone. -/
theorem foldPc_congr {a b : Nat} (h : a / 2 ^ 6 = b / 2 ^ 6) : foldPc a = foldPc b := by
  rw [foldPc, bits_congr_above h (by decide), bits_congr_above h (by decide), bits_congr_above h (by decide),
    bits_congr_above h (by decide), foldPc]

/-! ### The placement and its inverse, by their fields -/

theorem placeOf_eq (l : Nat) :
    placeOf l =
      { pc := bits l 5 0 ^^^ foldPc l, bg := 4 * bits l 29 28 + (bits l 12 11 ^^^ foldBg l), bk := bits l 10 9 ^^^ foldBk l
        row := bits l 27 13, col := bits l 8 6 } := by
  have hpc : bits l 5 0 ^^^ foldPc l < 64 := Nat.xor_lt_two_pow (bits_lt l 5 0) (foldPc_lt l)
  have hbg : bits l 12 11 ^^^ foldBg l < 4 := Nat.xor_lt_two_pow (bits_lt l 12 11) (foldBg_lt l)
  have hbk : bits l 10 9 ^^^ foldBk l < 4 := Nat.xor_lt_two_pow (bits_lt l 10 9) (foldBk_lt l)
  rw [← Nat.mod_eq_of_lt hpc, ← Nat.mod_eq_of_lt hbg, ← Nat.mod_eq_of_lt hbk]
  simp only [placeOf, foldPc, foldBg, foldBk, Nat.xor_assoc]

/-- The band and the row of a place, as bits 13 and up of its line. -/
def rowPart (p : Place) : Nat := p.bg / 4 * 2 ^ 28 + p.row * 2 ^ 13

/-- The line of a place without the six bits that the pseudo-channel gives. -/
def upperPart (p : Place) : Nat :=
  rowPart p + (p.bg % 4 ^^^ foldBg (rowPart p)) * 2 ^ 11 + (p.bk ^^^ foldBk (rowPart p)) * 2 ^ 9 + p.col * 2 ^ 6

theorem homeLine_eq {p : Place} (hpc : p.pc < 64) (hbk : p.bk < 4) :
    homeLine p = upperPart p + (p.pc ^^^ foldPc (upperPart p)) := by
  have hg : p.bg % 4 ^^^ foldBg (rowPart p) < 4 := Nat.xor_lt_two_pow (n := 2) (Nat.mod_lt _ (by decide)) (foldBg_lt _)
  have hk : p.bk ^^^ foldBk (rowPart p) < 4 := Nat.xor_lt_two_pow (n := 2) hbk (foldBk_lt _)
  have hup : upperPart p =
      rowPart p + (p.bg % 4 ^^^ foldBg (rowPart p)) % 4 * 2 ^ 11 + (p.bk ^^^ foldBk (rowPart p)) % 4 * 2 ^ 9 + p.col * 2 ^ 6 := by
    rw [Nat.mod_eq_of_lt hg, Nat.mod_eq_of_lt hk, upperPart]
  have hc : p.pc ^^^ foldPc (upperPart p) < 64 := Nat.xor_lt_two_pow (n := 6) hpc (foldPc_lt _)
  rw [← Nat.mod_eq_of_lt hc, hup]
  simp only [homeLine, rowPart, foldPc, foldBg, foldBk, Nat.xor_assoc]

/-! ### From a line to its place and back -/

theorem placeOf_pc_lt (l : Nat) : (placeOf l).pc < 64 := Nat.mod_lt _ (by decide)

theorem placeOf_bk_lt (l : Nat) : (placeOf l).bk < 4 := Nat.mod_lt _ (by decide)

/-- The bank group holds the band above its two folded bits. -/
theorem placeOf_bg_div (l : Nat) : (placeOf l).bg / 4 = bits l 29 28 := by
  have hg : bits l 12 11 ^^^ foldBg l < 4 := Nat.xor_lt_two_pow (bits_lt l 12 11) (foldBg_lt l)
  rw [placeOf_eq, Nat.mul_add_div (by decide), Nat.div_eq_of_lt hg, Nat.add_zero]

theorem placeOf_bg_mod (l : Nat) : (placeOf l).bg % 4 = bits l 12 11 ^^^ foldBg l := by
  have hg : bits l 12 11 ^^^ foldBg l < 4 := Nat.xor_lt_two_pow (bits_lt l 12 11) (foldBg_lt l)
  rw [placeOf_eq, Nat.mul_add_mod, Nat.mod_eq_of_lt hg]

theorem rowPart_placeOf {l : Nat} (hl : l < 2 ^ 30) : rowPart (placeOf l) = l / 2 ^ 13 * 2 ^ 13 := by
  rw [rowPart, placeOf_bg_div]
  simp only [placeOf, bits]
  omega

theorem upperPart_placeOf {l : Nat} (hl : l < 2 ^ 30) : upperPart (placeOf l) = l / 2 ^ 6 * 2 ^ 6 := by
  have hrow : l / 2 ^ 13 * 2 ^ 13 / 2 ^ 13 = l / 2 ^ 13 := Nat.mul_div_cancel _ (by decide)
  have hbk : (placeOf l).bk = bits l 10 9 ^^^ foldBk l := by rw [placeOf_eq]
  rw [upperPart, rowPart_placeOf hl, foldBg_congr hrow, foldBk_congr hrow, placeOf_bg_mod, hbk, Nat.xor_xor_cancel_right,
    Nat.xor_xor_cancel_right]
  simp only [placeOf, bits]
  omega

/-- R139: the inverse gives a line back. -/
theorem homeLine_placeOf {l : Nat} (hl : l < 2 ^ 30) : homeLine (placeOf l) = l := by
  have hup : l / 2 ^ 6 * 2 ^ 6 / 2 ^ 6 = l / 2 ^ 6 := Nat.mul_div_cancel _ (by decide)
  have hpc : (placeOf l).pc = bits l 5 0 ^^^ foldPc l := by rw [placeOf_eq]
  rw [homeLine_eq (placeOf_pc_lt l) (placeOf_bk_lt l), upperPart_placeOf hl, foldPc_congr hup, hpc, Nat.xor_xor_cancel_right]
  simp only [bits]
  omega

/-! ### From a place to its line and back -/

section
variable {p : Place} (hpc : p.pc < 64) (hbg : p.bg < 12) (hbk : p.bk < 4) (hrow : p.row < 32768) (hcol : p.col < 8)
include hpc hbg hbk hrow hcol

/-- The fields of the line of a place, each still folded. -/
theorem homeLine_fields :
    homeLine p / 2 ^ 13 = rowPart p / 2 ^ 13 ∧ homeLine p / 2 ^ 6 = upperPart p / 2 ^ 6 ∧
    bits (homeLine p) 29 28 = p.bg / 4 ∧ bits (homeLine p) 27 13 = p.row ∧
    bits (homeLine p) 12 11 = p.bg % 4 ^^^ foldBg (rowPart p) ∧ bits (homeLine p) 10 9 = p.bk ^^^ foldBk (rowPart p) ∧
    bits (homeLine p) 8 6 = p.col ∧ bits (homeLine p) 5 0 = p.pc ^^^ foldPc (upperPart p) := by
  have hg : p.bg % 4 ^^^ foldBg (rowPart p) < 4 := Nat.xor_lt_two_pow (n := 2) (Nat.mod_lt _ (by decide)) (foldBg_lt _)
  have hk : p.bk ^^^ foldBk (rowPart p) < 4 := Nat.xor_lt_two_pow (n := 2) hbk (foldBk_lt _)
  have hc : p.pc ^^^ foldPc (upperPart p) < 64 := Nat.xor_lt_two_pow (n := 6) hpc (foldPc_lt _)
  rw [homeLine_eq hpc hbk]
  generalize p.pc ^^^ foldPc (upperPart p) = c at hc ⊢
  rw [upperPart]
  generalize p.bg % 4 ^^^ foldBg (rowPart p) = g at hg ⊢
  generalize p.bk ^^^ foldBk (rowPart p) = k at hk ⊢
  simp only [rowPart, bits]
  omega

/-- R139: the hash gives a place back. -/
theorem placeOf_homeLine : placeOf (homeLine p) = p := by
  obtain ⟨hr, hu, hband, hrw, hg, hk, hc, hlow⟩ := homeLine_fields hpc hbg hbk hrow hcol
  rw [placeOf_eq, foldPc_congr hu, foldBg_congr hr, foldBk_congr hr, hband, hrw, hg, hk, hc, hlow, Nat.xor_xor_cancel_right,
    Nat.xor_xor_cancel_right, Nat.xor_xor_cancel_right, Nat.div_add_mod]

/-- R156: a place outside the pool is that of a user line. -/
theorem homeLine_lt_userLines (hp : p.inPool = false) : homeLine p < Config.userLines := by
  obtain ⟨hr, -⟩ := homeLine_fields hpc hbg hbk hrow hcol
  rw [Place.inPool_eq_false_iff] at hp
  simp only [Config.userLines, Config.poolFirstRow, rowPart] at hp hr ⊢
  omega

end

/-! ### The place of a user line -/

theorem lt_two_pow_of_user {l : Nat} (hl : l < Config.userLines) : l < 2 ^ 30 := hl.trans (by decide)

/-- R156: no user line lies in the pool. -/
theorem placeOf_not_inPool {l : Nat} (hl : l < Config.userLines) : (placeOf l).inPool = false := by
  have hband := placeOf_bg_div l
  have hrow : (placeOf l).row = bits l 27 13 := rfl
  rw [Place.inPool_eq_false_iff]
  simp only [bits, Config.userLines, Config.poolFirstRow] at hl hband hrow ⊢
  omega

theorem placeOf_bg_lt {l : Nat} (hl : l < Config.userLines) : (placeOf l).bg < 12 := by
  have hband := placeOf_bg_div l
  simp only [bits, Config.userLines] at hl hband
  omega

/-- R139: the coordinates of a line, by the formulas of the table. -/
theorem placeOf_coordinates {l : Nat} (hl : l < 2 ^ 30) :
    (placeOf l).pc = (l ^^^ l >>> 6 ^^^ l >>> 12 ^^^ l >>> 18 ^^^ l >>> 24) % 64 ∧
    (placeOf l).bg = 4 * (l / 2 ^ 28) + (l >>> 11 ^^^ l >>> 15 ^^^ l >>> 23) % 4 ∧
    (placeOf l).bk = (l >>> 9 ^^^ l >>> 13 ^^^ l >>> 21) % 4 ∧
    (placeOf l).row = l / 2 ^ 13 % 2 ^ 15 ∧ (placeOf l).col = l / 2 ^ 6 % 8 := by
  have hband : bits l 29 28 = l / 2 ^ 28 := Nat.mod_eq_of_lt (Nat.div_lt_of_lt_mul hl)
  have mod4 (a b : Nat) : (a ^^^ b) % 4 = a % 4 ^^^ b % 4 := Nat.xor_mod_two_pow (n := 2)
  have mod64 (a b : Nat) : (a ^^^ b) % 64 = a % 64 ^^^ b % 64 := Nat.xor_mod_two_pow (n := 6)
  refine ⟨?_, ?_, ?_, rfl, rfl⟩
  · simp [placeOf, bits, mod64, Nat.shiftRight_eq_div_pow]
  · simp only [placeOf, hband]
    simp [bits, mod4, Nat.shiftRight_eq_div_pow]
  · simp [placeOf, bits, mod4, Nat.shiftRight_eq_div_pow]

/-- Settles O60: the hash and its inverse undo each other, field by field from the row down. -/
theorem placementOneToOne : Obligations.PlacementOneToOne := by
  refine ⟨fun l hl => ?_, fun l hl => placeOf_coordinates (lt_two_pow_of_user hl), fun a b ha hb h => ?_,
    fun p hpc hbg hbk hrow hcol hp => ?_⟩
  · exact ⟨homeLine_placeOf (lt_two_pow_of_user hl), placeOf_not_inPool hl, placeOf_pc_lt l, placeOf_bg_lt hl, placeOf_bk_lt l,
      bits_lt l 27 13, bits_lt l 8 6⟩
  · calc a = homeLine (placeOf a) := (homeLine_placeOf (lt_two_pow_of_user ha)).symm
      _ = homeLine (placeOf b) := by rw [h]
      _ = b := homeLine_placeOf (lt_two_pow_of_user hb)
  · exact ⟨homeLine_lt_userLines hpc hbg hbk hrow hcol hp, placeOf_homeLine hpc hbg hbk hrow hcol⟩

end Sys2Proof.Machine
end

section
/-! PROOFS. The queue, the clocks and how far a start has come: no operation inside the device changes them. One lemma per operation, in the order
of the definitions, for what a CK_CTL cycle and a fault event can set going: self-refresh, the rewriting of dropped segments, a POWER_STATE that
waits, a firebreak. -/

set_option Elab.async false

namespace Sys2Proof.Machine
open Sys2Proof

/-- The queue of the commands that wait, and the clocks. -/
def State.clk (s : State) : List Instr × Nat × Nat := (s.pending, s.now, s.tick)

/-- What no operation below changes: the queue, the clocks, and how far a start has come. -/
def State.core (s : State) : (List Instr × Nat × Nat) × Nat × Nat × AMap (Nat × Nat × Nat) := (s.clk, s.power.items, s.power.sensed, s.bist)

@[simp] theorem State.core_eta (s : State) : ((s.pending, s.now, s.tick), s.power.items, s.power.sensed, s.bist) = s.core := rfl

theorem State.core_same {s t : State} (hp : t.pending = s.pending) (hn : t.now = s.now) (ht : t.tick = s.tick) (hw : t.power = s.power)
    (hb : t.bist = s.bist) : t.core = s.core := by
  rw [State.core, State.clk, hp, hn, ht, hw, hb]; rfl

theorem State.core_start {s t : State} (h : t.core = s.core) : t.power.items = s.power.items ∧ t.power.sensed = s.power.sensed ∧ t.bist = s.bist :=
  ⟨congrArg (·.2.1) h, congrArg (·.2.2.1) h, congrArg (·.2.2.2) h⟩

@[simp] theorem State.core_mk (p : List Instr) (n t d : Nat) (a b c e f g h i j k l m o q r u v w) :
    (State.mk p n t d a b c e f g h i j k l m o q r u v w).core = ((p, n, t), b.items, b.sensed, w) := rfl

theorem State.only.core {s t : State} {ps : List Part} {as : List Nat} (h : s.only ps as t) (hw : Part.power ∉ ps := by decide)
    (hb : Part.bist ∉ ps := by decide) : t.core = s.core :=
  State.core_same h.1.1 h.1.2.1 h.1.2.2 (h.2.1 .power hw) (h.2.1 .bist hb)

@[simp] theorem State.core_ite (c : Prop) [Decidable c] (s t : State) : (if c then s else t).core = if c then s.core else t.core := apply_ite ..

@[simp] theorem forEach_core {α : Type} (f : α → State → State) (l : List α) (s : State) (h : ∀ a s, (f a s).core = s.core) :
    (forEach l f s).core = s.core := forEach_same State.core f h l s

@[simp] theorem when_core (c : Bool) (f : State → State) (s : State) (h : (f s).core = s.core) : (when c f s).core = s.core :=
  State.when_same State.core c f s h

@[simp] theorem State.bump_core (k n : Nat) (s : State) : (s.bump k n).core = s.core := State.core_same (by simp) (by simp) (by simp) (by simp) (by simp)

@[simp] theorem State.msCount_core (s : State) : s.msCount.core = s.core := by simp [State.msCount]

@[simp] theorem State.draw_core (s : State) : s.draw.2.core = s.core := rfl

@[simp] theorem State.measure_core (s : State) : s.measure.core = s.core := by simp [State.measure]

@[simp] theorem State.countEnd_core (op code : Nat) (s : State) : (s.countEnd op code).core = s.core := by
  unfold State.countEnd
  (repeat' split) <;> simp

@[simp] theorem State.dropDesc_core (q i : Nat) (s : State) : (s.dropDesc q i).core = s.core := by simp [State.dropDesc]

@[simp] theorem State.setKey_core (k : Nat) (x : KeyS) (s : State) : (s.setKey k x).core = s.core := State.core_same (by simp) (by simp) (by simp) (by simp) (by simp)

@[simp] theorem State.keyActive_core (k : Nat) (s : State) : (s.keyActive k).core = s.core := by simp [State.keyActive]

@[simp] theorem State.setReg_core (a : Nat) (w : Word) (s : State) : (s.setReg a w).core = s.core := State.core_same (by simp) (by simp) (by simp) (by simp) (by simp)

@[simp] theorem State.setFld_core (a : Nat) (f : Fld) (v : Nat) (s : State) : (s.setFld a f v).core = s.core := State.core_same (by simp) (by simp) (by simp) (by simp) (by simp)

@[simp] theorem State.seqUp_core (a : Nat) (s : State) : (s.seqUp a).core = s.core := State.core_same (by simp) (by simp) (by simp) (by simp) (by simp)

@[simp] theorem State.cond_core (a : Nat) (f : Fld) (b : Bool) (s : State) : (s.cond a f b).core = s.core := State.core_same (by simp) (by simp) (by simp) (by simp) (by simp)

@[simp] theorem State.epochFlag_core (s : State) : s.epochFlag.core = s.core := by simp [State.epochFlag]

@[simp] theorem State.raise_core (a : Nat) (f : Fld) (s : State) : (s.raise a f).core = s.core := State.core_same (by simp) (by simp) (by simp) (by simp) (by simp)

@[simp] theorem State.setCtx_core (q : Nat) (c : List Nat) (s : State) : (s.setCtx q c).core = s.core := State.core_same (by simp) (by simp) (by simp) (by simp) (by simp)

@[simp] theorem State.drained_core (q : Nat) (s : State) : (s.drained q).core = s.core := by simp [State.drained]

@[simp] theorem State.inflightDown_core (q : Nat) (s : State) : (s.inflightDown q).core = s.core := by simp [State.inflightDown]

@[simp] theorem State.resetSoon_core (cause : Nat) (s : State) : (s.resetSoon cause).core = s.core := by simp [State.resetSoon]

@[simp] theorem State.exclude_core (sc : Nat) (s : State) : (s.exclude sc).core = s.core := (State.exclude_only ..).core

@[simp] theorem State.setPort_core (p : Port) (x : PortS) (s : State) : (s.setPort p x).core = s.core := State.core_same (by simp) (by simp) (by simp) (by simp) (by simp)

@[simp] theorem State.modPort_core (p : Port) (f : PortS → PortS) (s : State) : (s.modPort p f).core = s.core := State.core_same (by simp) (by simp) (by simp) (by simp) (by simp)

@[simp] theorem State.flush_core (p : Port) (s : State) : (s.flush p).core = s.core := (State.flush_only ..).core

@[simp] theorem State.wakePort_core (p : Port) (s : State) : (s.wakePort p).core = s.core := (State.wakePort_only ..).core

@[simp] theorem State.sendOn_core (p : Port) (m : Msg) (s : State) : (s.sendOn p m).core = s.core := (State.sendOn_only ..).core

@[simp] theorem State.hostReq_core (use : HostUse) (op : MOp) (addr : Nat) (data : List Byte) (s : State) : (s.hostReq use op addr data).core = s.core := by simp [State.hostReq]

@[simp] theorem State.recSend_core (cq : Nat) (old : List Byte) (s : State) : (s.recSend cq old).core = s.core := by
  have hk (l : List RecS) (s : State) : (forEach l (fun r s => match r.key with | some k => s.keyActive k | none => s) s).core = s.core :=
    forEach_core _ l s (fun r s => by split <;> simp)
  unfold State.recSend
  dsimp only
  split
  · rfl
  · simp only [State.hostReq_core, State.core_mk, State.core_eta, State.setCtx_core]
    exact hk _ s

@[simp] theorem State.recWrite_core (cq : Nat) (s : State) : (s.recWrite cq).core = s.core := by
  unfold State.recWrite
  dsimp only
  (repeat' split) <;> simp

@[simp] theorem State.record_core (d : DescS) (code value : Nat) (key : Option Nat) (reset : Bool) (s : State) : (s.record d code value key reset).core = s.core := by
  unfold State.record
  dsimp only
  (repeat' split) <;> simp

@[simp] theorem State.jobEnd_core (code value : Nat) (key : Option Nat) (reset : Bool) (s : State) : (s.jobEnd code value key reset).core = s.core := by
  unfold State.jobEnd
  dsimp only
  (repeat' split) <;> simp

@[simp] theorem State.jobDone_core (code value : Nat) (s : State) : (s.jobDone code value).core = s.core := by simp [State.jobDone]

@[simp] theorem State.raiseIf_core (c : Bool) (a : Nat) (f : Fld) (s : State) : (s.raiseIf c a f).core = s.core := State.core_same (by simp) (by simp) (by simp) (by simp) (by simp)

@[simp] theorem State.putJob_core (j : JobS) (s : State) : (s.putJob j).core = s.core := by simp [State.putJob]

@[simp] theorem State.chFlags_core (n : Nat) (s : State) : (s.chFlags n).core = s.core := (State.chFlags_only ..).core

@[simp] theorem State.modChan_core (n : Nat) (f : ChanS → ChanS) (s : State) : (s.modChan n f).core = s.core := State.core_same (by simp) (by simp) (by simp) (by simp) (by simp)

@[simp] theorem State.startSrExit_core (n : Nat) (s : State) : (s.startSrExit n).core = s.core := (State.startSrExit_only ..).core

@[simp] theorem State.wantSrExit_core (n : Nat) (s : State) : (s.wantSrExit n).core = s.core := by
  unfold State.wantSrExit
  dsimp only
  (repeat' split) <;> simp

@[simp] theorem State.oweAwake_core (s : State) : s.oweAwake.core = s.core := by simp [State.oweAwake]

@[simp] theorem State.wakeFrom_core (src : Nat) (s : State) : (s.wakeFrom src).core = s.core := by
  have hw (s : State) : (forEach allPorts State.wakeHalf s).core = s.core := forEach_core _ _ s fun p s => (State.wakeHalf_only p s).core
  unfold State.wakeFrom
  dsimp only
  (repeat' split) <;> simp [hw]

@[simp] theorem State.pwrCmd_core (k : Nat) (s : State) : (s.pwrCmd k).core = s.core := by simp [State.pwrCmd]

@[simp] theorem State.route_core (from? : Option Port) (m : Msg) (s : State) : (s.route from? m).core = s.core := (State.route_only ..).core

@[simp] theorem State.tagCfg_core (use : WardenUse) (m : Msg) (s : State) : (s.tagCfg use m).core = s.core := by
  unfold State.tagCfg
  (repeat' split) <;> simp

@[simp] theorem State.sendCfg_core (dst : Nat) (op : MOp) (reg : Nat) (words : List Nat) (count : Nat) (use : WardenUse) (s : State) : (s.sendCfg dst op reg words count use).core = s.core := by simp [State.sendCfg]

@[simp] theorem State.wardenWrite_core (dst reg : Nat) (words : List Nat) (use : WardenUse) (s : State) : (s.wardenWrite dst reg words use).core = s.core := by simp [State.wardenWrite]

@[simp] theorem State.modEnt_core (n : Nat) (f : TopoE → TopoE) (s : State) : (s.modEnt n f).core = s.core := State.core_same (by simp) (by simp) (by simp) (by simp) (by simp)

@[simp] theorem State.pwrSend_core (n k stage : Nat) (j : JobS) (s : State) : (s.pwrSend n k stage j).core = s.core := by simp [State.pwrSend]

@[simp] theorem State.pwrWork_core (all : Bool) (k : Nat) : ∀ (n : Nat) (s : State), (s.pwrWork all k n).core = s.core
  | 0, _ => rfl
  | n + 1, s => by
    have ih := State.pwrWork_core all k n
    unfold State.pwrWork
    dsimp only
    (repeat' split) <;> simp [ih]

@[simp] theorem State.pwrGo_core (j : JobS) (s : State) : (s.pwrGo j).core = s.core := by
  unfold State.pwrGo
  (repeat' split) <;> simp

@[simp] theorem State.jobLeave_core (s : State) : s.jobLeave.core = s.core := by simp [State.jobLeave]

@[simp] theorem State.pwrDue_core (s : State) : s.pwrDue.core = s.core := by
  unfold State.pwrDue
  (repeat' split) <;> simp

@[simp] theorem State.notice_core (t sev : Nat) (pl : List Byte) (s : State) : (s.notice t sev pl).core = s.core := State.core_same (by simp) (by simp) (by simp) (by simp) (by simp)

theorem State.miss_only (c n : Nat) (s : State) :
    s.only [.regs, .counts, .own, .notices] [Reg.SVC_MISS c, Reg.SVC_STATUS] (s.miss c n) := by
  unfold State.miss
  dsimp only
  generalize (min _ _ : Nat) = v
  have h : s.only [.regs, .counts, .own, .notices] [Reg.SVC_MISS c, Reg.SVC_STATUS] _ :=
    (((State.only.here.setFld (Reg.SVC_MISS c) F.SVC_MISS_VALUE v).raise Reg.SVC_STATUS F.SVC_STATUS_MISS).bump (classSlot c 4) 1).bump
      (chSlot n (24 + c)) 1
  exact iteInduction (fun _ => (h.own _).notice _ _ _) (fun _ => h.own _)

@[simp] theorem State.miss_core (c n : Nat) (s : State) : (s.miss c n).core = s.core := (State.miss_only c n s).core

@[simp] theorem State.judge_core (m : Msg) (time n : Nat) (s : State) : (s.judge m time n).core = s.core := by simp [State.judge]

@[simp] theorem State.satAny_core (s : State) : s.satAny.core = s.core := by simp [State.satAny]

@[simp] theorem State.relevel_core (n : Nat) (s : State) : (s.relevel n).core = s.core := by simp [State.relevel]

@[simp] theorem State.reply_core (from? : Option Port) (m : Msg) (s : State) : (s.reply from? m).core = s.core := (State.reply_only ..).core

@[simp] theorem State.answer_core (m : Msg) (from? : Option Port) (op : MOp) (data : List Byte) (status flags tag64 : Nat) (s : State) : (s.answer m from? op data status flags tag64).core = s.core := by simp [State.answer]

@[simp] theorem State.ownEnd_core (id : Nat) (r : OReq) (op : MOp) (data : List Byte) (status flags tag64 : Nat) (s : State) : (s.ownEnd id r op data status flags tag64).core = s.core := by simp [State.ownEnd]

@[simp] theorem State.ownErr_core (id : Nat) (r : OReq) (cause : Nat) (s : State) : (s.ownErr id r cause).core = s.core := by simp [State.ownErr]

@[simp] theorem State.mergeAnswer_core (e : MergeE) (cause : Option Nat) (s : State) : (s.mergeAnswer e cause).core = s.core := by
  unfold State.mergeAnswer
  (repeat' split) <;> simp

@[simp] theorem State.commitErr_core (k cause : Nat) (s : State) : (s.commitErr k cause).core = s.core := by
  unfold State.commitErr
  (repeat' split) <;> simp

@[simp] theorem State.retiredWrite_core (o : Origin) (s : State) : (s.retiredWrite o).core = s.core := by
  unfold State.retiredWrite
  (repeat' split) <;> simp

@[simp] theorem State.stall_core (a : Acc) (s : State) : (s.stall a).core = s.core := by simp [State.stall]

@[simp] theorem State.arriveAt_core (a : Acc) (s : State) : (s.arriveAt a).core = s.core := by simp [State.arriveAt]

@[simp] theorem State.modTier_core (t : Nat) (f : TierS → TierS) (s : State) : (s.modTier t f).core = s.core := State.core_same (by simp) (by simp) (by simp) (by simp) (by simp)

@[simp] theorem State.modPc_core (k : Nat) (f : PcS → PcS) (s : State) : (s.modPc k f).core = s.core := State.core_same (by simp) (by simp) (by simp) (by simp) (by simp)

@[simp] theorem State.modBank_core (k pos : Nat) (f : BankS → BankS) (s : State) : (s.modBank k pos f).core = s.core := State.core_same (by simp) (by simp) (by simp) (by simp) (by simp)

@[simp] theorem State.enqueue_core (a : Acc) (s : State) : (s.enqueue a).core = s.core := by simp [State.enqueue]

@[simp] theorem State.newAcc_core (p : Place) (wr : Option (List Byte × Nat)) (sc : Nat) (firm : Bool) (o : Origin) (time : Nat) (s : State) : (s.newAcc p wr sc firm o time).core = s.core := by simp [State.newAcc]

@[simp] theorem State.outOfReach_core (c n : Nat) (s : State) : (s.outOfReach c n).core = s.core := by simp [State.outOfReach]

@[simp] theorem State.accepted_core (o : Origin) (s : State) : (s.accepted o).core = s.core := by
  unfold State.accepted
  (repeat' split) <;> simp

@[simp] theorem State.acceptWrite_core (l : Nat) (data : List Byte) (md sc : Nat) (o : Origin) (s : State) : (s.acceptWrite l data md sc o).core = s.core := by
  unfold State.acceptWrite
  (repeat' split) <;> simp

@[simp] theorem State.unpark_core (s : State) : s.unpark.core = s.core := by
  unfold State.unpark
  dsimp only
  rw [forEach_core]
  · rfl
  · intro w s
    (repeat' split) <;> simp

@[simp] theorem State.mergeDrop_core (l : Nat) (s : State) : (s.mergeDrop l).core = s.core := by simp [State.mergeDrop]

@[simp] theorem State.readLine_core (l sc : Nat) (o : Origin) (s : State) : (s.readLine l sc o).1.core = s.core := by
  unfold State.readLine
  dsimp only
  (repeat' split) <;> simp

@[simp] theorem State.tallyChan_core (n : Nat) (s : State) : (s.tallyChan n).core = s.core := by simp [State.tallyChan]

@[simp] theorem State.blazeAt_core (src grp unit sev code count : Nat) (args : List Byte) (s : State) :
    (s.blazeAt src grp unit sev code count args).1.core = s.core := State.core_same (by simp) (by simp) (by simp) (by simp) (by simp)

@[simp] theorem State.blazeFreeze_core (s : State) : s.blazeFreeze.core = s.core := State.core_same (by simp) (by simp) (by simp) (by simp) (by simp)

/-- A stop changes the power supply's part, but not how far the start has come. -/
@[simp] theorem State.stopCore_core (s : State) : s.stopCore.core = s.core := by simp [State.stopCore]

@[simp] theorem State.firebreak_core (src unit : Nat) (s : State) : (s.firebreak src unit).core = s.core := by
  have h (u : State) : u.toFirebreak.core = u.core := rfl
  simp [State.firebreak, h]

@[simp] theorem State.degrade_core (src unit elem : Nat) (s : State) : (s.degrade src unit elem).core = s.core := by
  simp [State.degrade, State.excludeElem]

@[simp] theorem State.severe_core (s : State) : s.severe.core = s.core := by simp [State.severe]

@[simp] theorem State.react_core (src unit elem cls : Nat) (prom : Bool) (k : Nat) (s : State) : (s.react src unit elem cls prom k).core = s.core := by
  have h : (s.faultNotice src cls prom k).core = s.core := State.core_same (by simp) (by simp) (by simp) (by simp) (by simp)
  simp [State.react, State.reactTo, h]

@[simp] theorem State.faultN_core (src unit : Nat) (pl : List Byte) (elem : Nat) : ∀ (fuel : Nat) (s : State), (s.faultN fuel src unit pl elem).core = s.core := by
  intro fuel
  induction fuel generalizing src unit pl elem with
  | zero => exact fun _ => rfl
  | succ n ih =>
    intro s
    have hc (u : State) : (u.faultCount src unit pl).1.core = u.core := State.core_same (by simp) (by simp) (by simp) (by simp) (by simp)
    have hf (c : Nat) : (s.fatalFirst c src unit pl).core = s.core := State.core_same (by simp) (by simp) (by simp) (by simp) (by simp)
    have hl : (s.fatalLate src unit pl).core = s.core := State.core_same (by simp) (by simp) (by simp) (by simp) (by simp)
    simp [State.faultN, ih, hc, hf, hl]

@[simp] theorem State.fault_core (src unit : Nat) (pl : List Byte) (s : State) : (s.fault src unit pl).core = s.core := State.faultN_core ..

@[simp] theorem State.keyMismatch_core (kid loc : Nat) (s : State) : (s.keyMismatch kid loc).core = s.core := by simp [State.keyMismatch]

@[simp] theorem State.poisonRead_core (p : Place) (s : State) : (s.poisonRead p).core = s.core := by simp [State.poisonRead]

@[simp] theorem State.commit_core (e : MergeE) (data : List Byte) (md : Nat) (s : State) : (s.commit e data md).core = s.core := by simp [State.commit]

@[simp] theorem State.mergeFinish_core (e : MergeE) (old : Option (List Byte × Nat)) (s : State) : (s.mergeFinish e old).core = s.core := by
  unfold State.mergeFinish
  (repeat' split) <;> simp

@[simp] theorem State.mergeRmw_core (e : MergeE) (s : State) : (s.mergeRmw e).core = s.core := by
  unfold State.mergeRmw
  split
  · simp
  · dsimp only
    split <;> next hr =>
      have h := congrArg (fun x => x.1.core) hr
      simpa using h.symm

@[simp] theorem State.mergeUpd_core (w : Held) (u : Upd) (s : State) : (s.mergeUpd w u).core = s.core := by simp [State.mergeUpd]

@[simp] theorem State.mergeWhole_core (e : MergeE) (data : List Byte) (s : State) : (s.mergeWhole e data).core = s.core := by simp [State.mergeWhole]

@[simp] theorem State.merge64_core (w : Held) (s : State) : (s.merge64 w).core = s.core := by
  unfold State.merge64
  dsimp only
  (repeat' split) <;> simp

@[simp] theorem State.ownTagRead_core (id : Nat) (r : OReq) (s : State) : (s.ownTagRead id r).1.core = s.core := by
  unfold State.ownTagRead
  split
  · rfl
  · next e _ =>
    have hl := State.readLine_core (lineIx (tagAddr e (adLocal r.m.addr))) r.sc (.tagOf id) s
    dsimp only
    split
    · rfl
    · split <;> next hr => rw [hr] at hl; exact hl

@[simp] theorem State.ownTagWrite_core (id : Nat) (r : OReq) (s : State) : (s.ownTagWrite id r).core = s.core := by
  unfold State.ownTagWrite
  dsimp only
  (repeat' split) <;> simp

@[simp] theorem State.ownReadDone_core (id : Nat) (r : OReq) (s : State) : (s.ownReadDone id r).core = s.core := by
  unfold State.ownReadDone
  (repeat' split) <;> simp

@[simp] theorem State.ownServeLine_core (id : Nat) (r : OReq) (s : State) : (s.ownServeLine id r).core = s.core := by
  unfold State.ownServeLine
  dsimp only
  (repeat' split) <;> simp

@[simp] theorem State.putBehind_core (id : Nat) (r : OReq) (s : State) : (s.putBehind id r).core = s.core := by simp [State.putBehind]

@[simp] theorem State.behindMerge_core (r : OReq) (s : State) : (s.behindMerge r).core = s.core := by simp [State.behindMerge]

@[simp] theorem State.ownServe_core (id : Nat) (s : State) : (s.ownServe id).core = s.core := by
  unfold State.ownServe
  (repeat' split) <;> simp

@[simp] theorem State.retryWaits_core (s : State) : s.retryWaits.core = s.core := by simp [State.retryWaits]

@[simp] theorem State.copyPut_core (p : Place) (d : List Byte) (md : Nat) (s : State) : (s.copyPut p d md).core = s.core := by simp [State.copyPut]

@[simp] theorem State.elog_core (n : Nat) (p : Place) (kind syms pin : Nat) (line : Option Nat) (s : State) : (s.elog n p kind syms pin line).core = s.core := by
  unfold State.elog
  dsimp only
  (repeat' split) <;> simp

@[simp] theorem State.copyLine_core (job : Nat) (old : Option (List Byte × Nat)) (s : State) : (s.copyLine job old).core = s.core := by
  unfold State.copyLine
  dsimp only
  (repeat' split) <;> simp

@[simp] theorem State.copyIssue_core : ∀ (n job : Nat) (s : State), (s.copyIssue n job).core = s.core
  | 0, _, _ => rfl
  | n + 1, job, s => by
    have ih := State.copyIssue_core n
    unfold State.copyIssue
    (repeat' split) <;> simp [ih]

@[simp] theorem State.copyGo_core (s : State) : s.copyGo.core = s.core := by simp [State.copyGo]

@[simp] theorem State.fill_core (f : FillSel) (w : Nat) (s : State) : (s.fill f w).core = s.core := by simp [State.fill]

@[simp] theorem State.pasrReach_core (n r : Nat) (s : State) : (s.pasrReach n r).core = s.core := by
  unfold State.pasrReach
  (repeat' split) <;> simp

@[simp] theorem State.pasrTick_core (s : State) : s.pasrTick.core = s.core := by simp [State.pasrTick]

@[simp] theorem State.srIssue_core (n : Nat) (s : State) : (s.srIssue n).core = s.core := (State.srIssue_only ..).core

@[simp] theorem State.srTick_core (n : Nat) (s : State) : (s.srTick n).core = s.core := by simp [State.srTick]

@[simp] theorem State.chanTick_core (s : State) : s.chanTick.core = s.core := by simp [State.chanTick]

end Sys2Proof.Machine
end

section
/-! PROOFS. The step: what a command and a CK_CTL cycle do to the queue and the clocks (R354, R358), and the state after reset. -/

set_option Elab.async false

namespace Sys2Proof.Machine
open Sys2Proof
open State.only (here)

/-- A command answers a state that carries the queue and the clocks on, or stops by the fault of R53. -/
def carries (c : Instr) (s : State) : Prop := (∃ t, exec c s = .next (s.carry t)) ∨ exec c s = .fault .rsvWritten

theorem access_carries (f : State → Option State) (s : State) :
    (∃ t, access f s = .next (s.carry t)) ∨ access f s = .fault .rsvWritten := by
  rcases access_cases f s with ⟨t, -, h⟩ | ⟨-, h⟩
  · exact .inl ⟨_, h⟩
  · exact .inr h

theorem exec_carries (c : Instr) (s : State) : carries c s := by
  cases c
  case keyHalt | warmReset | inject | thaw | reseed | svcLimitWrite | svcReachWrite | pinWrite | crd | cwr | linkEnable | linkDisable
      | retrain | stepUp | prbsEnter | prbsExit | prbsClear | eyeScanStart | pwrCmdRun | pwrCmdIdle | pwrCmdSleep | pwrCmdDeep | pwrCmdOff
      | powerExitDone | qctxRead | qctxWrite | qctxEnable | qctxDrain | qctxDisable | devnumWrite | registerWrite | aliasWrite | statusWrite
      | i3cPrivateWrite | mbxRead | mbxWrite | testwinRead | testwinWrite | journalClr | loadStart | loadWin | loadEnd | reboot | ownerLock
      | release | planCommit => exact access_carries _ s
  all_goals exact .inl ⟨_, rfl⟩

theorem exec_clk {c : Instr} {s t : State} (h : exec c s = .next t) : t.clk = s.clk := by
  rcases exec_carries c s with ⟨u, hu⟩ | hf
  · rw [h] at hu
    cases hu
    rfl
  · rw [h] at hf
    cases hf

/-! ### One CK_CTL cycle -/

theorem State.msCount_only (s : State) : s.only [.counts] [] s.msCount := by
  unfold State.msCount
  dsimp only
  have h1 : s.only [.counts] [] (if s.awake then forEach (List.range 4) (fun t s => s.bump (tierSlot t (21 + (s.tier t).stage)) 1) s else s) :=
    iteInduction (fun _ => State.only.here.loop _ (fun _ _ => State.only.here.bump ..) _) (fun _ => State.only.here)
  refine iteInduction (fun _ => ?_) (fun _ => h1)
  refine ((h1.bump ..).bump ..).loop _ (fun p t => ?_) _
  exact iteInduction (fun _ => State.only.here.bump ..) (fun _ => State.only.here)

theorem State.measure_only (s : State) : s.only [.draws, .power] [] s.measure := by
  unfold State.measure
  exact iteInduction (fun _ => (State.only.here.draws _).power _) (fun _ => State.only.here)


/-- R393, R482: what a CK_CTL cycle counts and measures. -/
def State.counted (s : State) : State :=
  let t := if (s.now + 1) % 1000000 = 0 then s.msCount else s
  if (s.now + 1) % 100000 = 0 then t.measure else t

theorem State.counted_only (s : State) : s.only [.counts, .power, .draws] [] s.counted := by
  have h : s.only [.counts, .power, .draws] [] (if (s.now + 1) % 1000000 = 0 then s.msCount else s) :=
    iteInduction (fun _ => s.msCount_only.mono) (fun _ => here)
  exact iteInduction (fun _ => h.step (State.measure_only _)) (fun _ => h)

/-- R354, R358: the clocks after one more cycle. -/
def State.ticked (s : State) : State :=
  { s.counted with now := s.now + 1, tick := if (s.now + 1) % 100 = 0 then s.counted.tick + 1 else s.counted.tick }

theorem idle_eq (s : State) : idle s = s.ticked.chanTick.pasrTick.pwrDue := rfl

theorem idle_clk (s : State) : (idle s).clk = (s.pending, s.now + 1, if (s.now + 1) % 100 = 0 then s.tick + 1 else s.tick) := by
  have hp : s.counted.pending = s.pending := s.counted_only.1.1
  have hc : (idle s).core = s.ticked.core := by rw [idle_eq, State.pwrDue_core, State.pasrTick_core, State.chanTick_core]
  calc (idle s).clk = s.ticked.clk := congrArg (·.1) hc
    _ = (s.counted.pending, s.now + 1, if (s.now + 1) % 100 = 0 then s.counted.tick + 1 else s.counted.tick) := rfl
    _ = _ := by rw [hp, s.counted_only.tick']

/-- What a step on an empty queue does to the queue and the clocks. -/
theorem step_idle {s t : State} (hp : s.pending = []) (h : step s = .next t) :
    t.pending = [] ∧ t.now = s.now + 1 ∧ t.tick = if (s.now + 1) % 100 = 0 then s.tick + 1 else s.tick := by
  have he : step s = .next (idle s) := by rw [step, hp]
  rw [he] at h
  cases h
  have hc := idle_clk s
  rw [hp] at hc
  exact ⟨congrArg (·.1) hc, congrArg (·.2.1) hc, congrArg (·.2.2) hc⟩

/-- What a step on a command does to the queue and the clocks. -/
theorem step_front {s t : State} {c : Instr} {rest : List Instr} (hp : s.pending = c :: rest) (h : step s = .next t) :
    t.pending = rest ∧ t.now = s.now ∧ t.tick = s.tick := by
  have he : step s = exec c (s.withPending rest) := by rw [step, hp]
  have hc : t.clk = (s.withPending rest).clk := exec_clk (he ▸ h)
  exact ⟨congrArg (·.1) hc, congrArg (·.2.1) hc, congrArg (·.2.2) hc⟩

/-- Settles O58: a command moves neither clock and leaves the rest of the queue; a cycle moves both together. -/
theorem stepKeepsClocks : Obligations.StepKeepsClocks := by
  intro s t hclock hqueue h
  cases hp : s.pending with
  | nil =>
    obtain ⟨htp, htn, htt⟩ := step_idle hp h
    refine ⟨?_, fun c hc => by rw [htp] at hc; cases hc⟩
    rw [State.clockInv, htn, htt, hclock]
    split <;> omega
  | cons c rest =>
    obtain ⟨htp, htn, htt⟩ := step_front hp h
    refine ⟨by rw [State.clockInv, htn, htt, hclock], fun d hd => hqueue d ?_⟩
    rw [hp]
    exact .tail _ (htp ▸ hd)

/-! ### A cycle in which no channel changes its state of power -/

/-- A channel that is not on its way into or out of self-refresh and has no dropped segments rewritten. -/
def ChanS.rests (c : ChanS) : Bool := c.pstate != .entering && !c.wantExit && c.pasrInit.isNone

theorem State.chan_rests {s : State} (h : s.stack.chans.all (fun c => c.2.rests) = true) (n : Nat) : (s.chan n).rests = true := by
  rcases AMap.get_mem n ({} : ChanS) s.stack.chans with hd | hm
  · rw [State.chan, hd]; rfl
  · exact List.all_eq_true.1 h _ hm

theorem AMap.mem_set {β : Type} [DecidableEq β] {k : Nat} {d v : β} {m : AMap β} {e : Nat × β} (h : e ∈ AMap.set k d v m) : e = (k, v) ∨ e ∈ m := by
  unfold AMap.set at h
  split at h
  · exact .inr (AMap.mem_del h)
  · exact AMap.mem_put h

theorem State.srTick_rests {s : State} {n : Nat} (h : (s.chan n).rests = true) : s.srTick n = s := by
  simp only [ChanS.rests, Bool.and_eq_true, bne_iff_ne, ne_eq, Bool.not_eq_true'] at h
  simp [State.srTick, h]

/-- A cycle restarts the idle times of channels alone, where every channel rests. -/
theorem State.chanTick_rests {s : State} (h : s.stack.chans.all (fun c => c.2.rests) = true) :
    s.only [.chans] [] s.chanTick ∧ s.chanTick.stack.chans.all (fun c => c.2.rests) = true := by
  unfold State.chanTick
  split
  · refine forEach_keeps (fun t => s.only [.chans] [] t ∧ t.stack.chans.all (fun c => c.2.rests) = true) _ ?_ _ s ⟨here, h⟩
    intro n t ⟨ho, hr⟩
    have hn := State.chan_rests hr n
    rw [State.srTick_rests hn]
    dsimp only
    split
    case isFalse => exact ⟨ho, hr⟩
    refine ⟨ho.modChan .., ?_⟩
    refine List.all_eq_true.2 fun e he => ?_
    rcases AMap.mem_set he with rfl | hm
    · exact hn
    · exact List.all_eq_true.1 hr e hm
  · exact ⟨here, h⟩

theorem State.pasrTick_rests {s : State} (h : s.stack.chans.all (fun c => c.2.rests) = true) : s.pasrTick = s := by
  have : s.stack.chans.filter (fun c => c.2.pasrInit.isSome) = [] := by
    refine List.filter_eq_nil_iff.2 fun c hc => ?_
    have hr := List.all_eq_true.1 h c hc
    simp only [ChanS.rests, Bool.and_eq_true] at hr
    simp [Option.isNone_iff_eq_none.1 hr.2]
  rw [State.pasrTick, this]
  rfl

theorem State.pwrDue_none {s : State} (h : s.que.job = none) : s.pwrDue = s := by rw [State.pwrDue, h]

/-- No part of the state but the clocks sees them. -/
theorem State.only.retime {s t : State} {ps : List Part} {as : List Nat} {n k : Nat} (h : ({ s with now := n, tick := k } : State).only ps as t) :
    s.only ps as { t with now := s.now, tick := s.tick } :=
  ⟨⟨h.1.1, rfl, rfl⟩, fun p hp => by have := h.2.1 p hp; cases p <;> exact this, h.2.2⟩

theorem idle_rests {s : State} (hj : s.que.job = none) (hr : s.stack.chans.all (fun c => c.2.rests) = true) :
    s.only [.counts, .power, .draws, .chans] [] { idle s with now := s.now, tick := s.tick } := by
  have hc := s.counted_only
  have hcc : s.counted.stack.chans = s.stack.chans := hc.2.1 .chans (by decide)
  have ⟨ht, hrt⟩ := State.chanTick_rests (s := s.ticked) (by rw [State.ticked, hcc]; exact hr)
  have hjt : s.ticked.chanTick.que.job = none := by
    rw [ht.que']
    exact (congrArg QueS.job hc.que').trans hj
  rw [idle_eq, State.pasrTick_rests hrt, State.pwrDue_none hjt, ← hc.now', ← hc.tick']
  exact hc.mono.step ht.retime

/-- Settles O57: the front of the queue is run on the rest of it; an empty queue lets one cycle pass. -/
theorem stepRunsTheFront : Obligations.StepRunsTheFront := by
  refine ⟨fun s c rest hp => by rw [step, hp], fun s t c rest hp h => step_front hp h, fun s hp => ?_, fun s hp hj hr => ?_⟩
  · have h : step s = .next (idle s) := by rw [step, hp]
    exact ⟨_, h, step_idle hp h⟩
  · exact ⟨_, by rw [step, hp], idle_rests hj hr⟩

/-- Settles O59: the state after reset lists no register, no port that is not OFF, and no memory. -/
theorem resetState : Obligations.ResetState := by
  refine ⟨rfl, rfl, fun c hc => ?_, rfl, rfl, rfl, rfl, rfl, fun p => ?_, fun a => rfl, rfl, ?_, ?_, ?_⟩
  · cases hc
  · cases p <;> rfl
  all_goals decide +kernel

end Sys2Proof.Machine
end

section
/-! PROOFS. Supply, reset and start (R375, R376, R433, R434, R492, R493). -/

set_option Elab.async false

namespace Sys2Proof.Machine
open Sys2Proof
open State.only (here)

/-! ### RESET_N in DEEP -/

/-- What a property says of the state that a command answers. -/
def answers (c : Instr) (s : State) (P : State → Bool) : Bool :=
  match exec c s with
  | .next t => P t
  | _ => false

theorem answers_next {c : Instr} {s t : State} (h : exec c s = .next t) (P : State → Bool) : answers c s P = P t := by
  rw [answers, h]

/-- A running device in DEEP whose channels drop segments (R307, R310). -/
def deepDropping : State :=
  { power := { phase := .running, pstate := 3, resetLow := false }, regs := { eff := [(Reg.CH_CTL 0, 0)] } }

/-- R310: RESET_N in DEEP begins the rewriting of the dropped segments, and the flag PASR_INIT of the channel stands. -/
theorem resetNLow_deep_flag :
    answers .resetNLow deepDropping (fun t => t.fld (Reg.CH_STATUS 0) F.CH_STATUS_PASR_INIT == deepDropping.fld (Reg.CH_STATUS 0) F.CH_STATUS_PASR_INIT)
      = false := by
  decide +kernel

/-- Refutes O1: RESET_N held low in DEEP also changes the status registers of the channels that drop segments. -/
theorem not_supplyAndReset : ¬ Obligations.SupplyAndReset := by
  intro h
  obtain ⟨-, -, -, -, -, hreset, -⟩ := h deepDropping
  obtain ⟨t, ht, -, ho⟩ := hreset rfl rfl
  have hf := resetNLow_deep_flag
  rw [answers_next ht, ho.fld (Reg.CH_STATUS 0) _ (by decide)] at hf
  simp at hf


/-! ### A cold start of a state that lists a channel beyond the 32 -/

/-- A device at its start slot whose map of channels has an entry for channel 4080, whose registers the address arithmetic puts a whole register
space above the first one. -/
def strayChannel : State := { power := { phase := .slotWait, cold := true }, stack := { chans := [(4080, {})] } }

/-- The flags of a channel that no device has fall on a register whose reset value is not zero. -/
theorem startSlotExpiry_stray :
    answers .startSlotExpiry strayChannel (fun t => t.reg (Reg.CH_STATUS 4080) == regReset strayChannel.id.role (Reg.CH_STATUS 4080)) = false := by
  decide +kernel

/-- Refutes O2: the statement ranges over states that list a channel beyond the 32, and there a cold start does not leave every register at its
reset value. -/
theorem not_startBegins : ¬ Obligations.StartBegins := by
  intro h
  obtain ⟨hslot, -⟩ := h strayChannel
  obtain ⟨t, ht, hstart⟩ := hslot rfl
  obtain ⟨-, -, -, -, -, -, -, -, -, -, -, hcold, -⟩ := hstart
  have hf := startSlotExpiry_stray
  rw [answers_next ht, (hcold rfl).2.2 _ (by decide)] at hf
  simp at hf

end Sys2Proof.Machine
end

section
/-! PROOFS. The stop of a device and the firebreak (R468, R493): what a stop leaves, and what a FATAL event may change. -/

set_option Elab.async false

namespace Sys2Proof.Machine
open Sys2Proof
open State.only (here)

/-! ### Loops that reach every element -/

/-- A loop establishes for each element of its list what the step on it establishes and every step keeps. -/
theorem forEach_reaches {α : Type} (Q : α → State → Prop) (f : α → State → State) (hf : ∀ a s, Q a (f a s)) (hk : ∀ a b s, Q b s → Q b (f a s))
    {b : α} (l : List α) (s : State) (h : b ∈ l) : Q b (forEach l f s) := by
  induction l generalizing s with
  | nil => cases h
  | cons a l ih =>
    rw [forEach_cons]
    rcases List.mem_cons.1 h with rfl | hm
    · exact forEach_keeps (Q b) f (fun a s => hk a b s) l _ (hf b s)
    · exact ih _ hm

/-! ### The stop -/

/-- A channel stands as a stop leaves it. -/
def ChanS.stopped (c : ChanS) : Prop := c.pstate = if c.retired then .retired else .selfRefresh

/-- A step of the stop on one channel. -/
def State.haltChan (n : Nat) (s : State) : State := (s.tallyChan n).modChan n (ChanS.halt s.now)

theorem State.tallyChan_chan_ne {n m : Nat} (h : m ≠ n) (s : State) : (s.tallyChan n).chan m = s.chan m := by
  unfold State.tallyChan
  exact (((here (ps := [.counts]) (as := [])).bump _ _).bump _ _ |>.chan m).trans (State.chan_modChan_ne h _ s)

theorem State.haltChan_stopped (n : Nat) (s : State) : ((s.haltChan n).chan n).stopped := by
  rw [State.haltChan, State.chan_modChan]
  rfl

theorem State.haltChan_keeps (n m : Nat) (s : State) (h : (s.chan m).stopped) : ((s.haltChan n).chan m).stopped := by
  by_cases e : m = n
  · subst e; exact State.haltChan_stopped m s
  · rw [State.haltChan, State.chan_modChan_ne e, State.tallyChan_chan_ne e]; exact h

/-- The parts that the stop of a device changes. -/
def stopParts : List Part :=
  [.power, .ports, .sent, .chans, .pcs, .tiers, .bursts, .own, .eng, .mgr, .que, .prot, .fuse, .notices, .counts, .census]

theorem State.haltChan_only (n : Nat) (s : State) : s.only [.chans, .counts] [] (s.haltChan n) :=
  (State.tallyChan_only n s).modChan ..

/-- The loops of a stop: over the tiers and the channels. -/
def State.stopLoops (s : State) : State :=
  forEach (List.range 32) State.haltChan (forEach (List.range 4) (fun t s => s.modTier t (fun x =>
    { x with held := x.held ++ s.waitingWrites t, buffer := [], run := none, waiting := [] })) s)

theorem State.stopLoops_only (s : State) : s.only [.tiers, .chans, .counts] [] s.stopLoops :=
  State.only.step (State.only.loop _ (fun _ _ => here.modTier ..) _ here) (here.loop _ (fun n t => State.haltChan_only n t) _)

theorem State.stopLoops_chan (s : State) {n : Nat} (h : n < 32) : (s.stopLoops.chan n).stopped :=
  forEach_reaches (fun n s => (s.chan n).stopped) State.haltChan State.haltChan_stopped (fun n m s => State.haltChan_keeps n m s) _ _
    (List.mem_range.2 h)

/-- R468, R493: what a stop may change. -/
theorem State.stopCore_only (s : State) : s.only stopParts [] s.stopCore := by
  have h : s.only stopParts [] (when s.stopLoops.power.relays (fun s => (s.bump (portSlot .e 36) 1).bump (portSlot .w 36) 1) s.stopLoops) :=
    (State.stopLoops_only s).mono.cond_ ((here.bump ..).bump ..)
  refine h.trans ⟨⟨rfl, rfl, rfl⟩, fun p hp => ?_, fun _ _ => rfl⟩
  cases p <;> first | exact absurd (by decide) hp | rfl | exact ⟨rfl, rfl⟩ | exact ⟨rfl, rfl, rfl, rfl⟩

theorem State.stopCore_chan (s : State) {n : Nat} (h : n < 32) : (s.stopCore.chan n).stopped := by
  have hc : s.stopCore.chan n = s.stopLoops.chan n :=
    (State.only.cond_ (f := fun s => (s.bump (portSlot .e 36) 1).bump (portSlot .w 36) 1) (c := s.stopLoops.power.relays) here
      ((here.bump ..).bump ..) : s.stopLoops.only [.counts] [] _).chan n
  rw [hc]
  exact State.stopLoops_chan s h


/-- R468, R493: what a stop leaves of the power and start state. -/
theorem State.stopCore_power (s : State) :
    s.stopCore.power = { s.power with
      thermN := s.power.thermN && s.power.tripHold, relays := false, relayAt := none, alive := false, entry := .none, acks := [], held := [],
      transit := false, tE := none, wakeNow := none, resetAt := none } := by
  have h : s.only [.tiers, .chans, .counts] [] (when s.stopLoops.power.relays (fun s => (s.bump (portSlot .e 36) 1).bump (portSlot .w 36) 1) s.stopLoops) :=
    (State.stopLoops_only s).cond_ ((here.bump ..).bump ..)
  rw [← h.power']
  rfl

/-! ### The firebreak -/

theorem State.toFirebreak_only (s : State) : s.only [.power] [] s.toFirebreak := here.power _

/-- R468: what a firebreak may change. -/
theorem State.firebreak_only (src unit : Nat) (s : State) : s.only (.blaze :: .regs :: stopParts) [Reg.BLAZE_STATUS] (s.firebreak src unit) :=
  (((here.blazeAt ..).step (State.blazeFreeze_only _)).step (State.stopCore_only _)).step (State.toFirebreak_only _)

/-- R468: a device that has supply stands in the firebreak once it has begun. -/
theorem State.firebreak_halted (src unit : Nat) {s : State} (h : s.power.phase ≠ .unpowered) : (s.firebreak src unit).halted := by
  unfold State.firebreak
  have hb : s.only [.blaze, .counts, .regs] [Reg.BLAZE_STATUS]
      (s.blazeAt 255 255 0 3 2 0 (leBytes 6 s.tick ++ leBytes 1 src ++ leBytes 1 unit)).1.blazeFreeze :=
    (here.blazeAt ..).step (State.blazeFreeze_only _)
  generalize (s.blazeAt 255 255 0 3 2 0 (leBytes 6 s.tick ++ leBytes 1 src ++ leBytes 1 unit)).1.blazeFreeze = u at hb ⊢
  have hph : u.stopCore.power.phase = s.power.phase := by rw [State.stopCore_power, hb.power']
  refine ⟨?_, rfl, rfl, rfl, rfl, rfl, rfl, rfl, fun n hn => State.stopCore_chan u hn⟩
  show (if u.stopCore.power.phase = .unpowered then u.stopCore.power.phase else .firebreak) = _
  rw [hph, if_neg h]

/-- R463, R468: a FATAL event is counted and logged, and the firebreak begins. -/
theorem State.faultN_fatal {s : State} (src unit : Nat) (pl : List Byte) (elem : Nat) (hw : s.awake = true)
    (hc : (s.faultClass src unit).1 = 3) :
    s.faultN 3 src unit pl elem = ((s.fatalFirst 3 src unit pl).faultCount src unit pl).1.firebreak src unit := by
  have hr (prom : Bool) (k : Nat) (t : State) : t.react src unit elem 3 prom k = t.firebreak src unit := by
    rw [State.react, State.faultNotice, Bool.and_comm]
    rfl
  rw [State.faultN, if_pos hw]
  simp only [hc, ne_eq, not_true_eq_false, and_false, if_false, hr]

theorem State.only.fatals {s t : State} {ps : List Part} {as : List Nat} (l : List (Nat × Nat × List Byte)) (b : Option BlazeS)
    (h : s.only ps as t) (hp : Part.faults ∈ ps := by decide) : s.only ps as { t with flt.fatals := l, flt.before := b } :=
  h.trans ⟨by simp, fun q hq => by cases q <;> first | exact absurd hp hq | simp [Part.same], fun _ _ => rfl⟩

theorem State.fatalFirst_only (cls src unit : Nat) (pl : List Byte) (s : State) : s.only [.faults] [] (s.fatalFirst cls src unit pl) := by
  exact here.cond_ (here.fatals _ _)

theorem State.faultCount_only (src unit : Nat) (pl : List Byte) (s : State) :
    s.only [.blaze, .counts, .regs, .faults] eventRegs (s.faultCount src unit pl).1 :=
  (here.faultMark _ _ _ _ (ha := by simp [eventRegs])).faultLog _ _ _ _ _ _ _ (ha := by simp [eventRegs])

/-- R463: FAULT.LAST names the event last classified. -/
theorem State.faultCount_last (src unit : Nat) (pl : List Byte) (s : State) :
    (s.faultCount src unit pl).1.reg Reg.FAULT_LAST =
      BitVec.ofNat 32 ((s.faultClass src unit).1 * 2 ^ 30 + b2n (s.faultClass src unit).2.1 * 2 ^ 29 + unit % 256 * 2 ^ 16 + src) := by
  unfold State.faultCount
  rw [((here (ps := [.blaze, .counts, .regs, .faults]) (as := [Reg.BLAZE_STATUS])).faultLog ..).reg _ (by decide), State.faultMark, State.reg_setReg]

/-- R463: the event flag stands once an event is counted. -/
theorem State.faultCount_event (src unit : Nat) (pl : List Byte) (s : State) :
    (s.faultCount src unit pl).1.fld Reg.FAULT_STATUS F.FAULT_STATUS_EVENT = 1 := by
  have hm (cls : Nat) (prom : Bool) : (s.faultMark src unit cls prom).fld Reg.FAULT_STATUS F.FAULT_STATUS_EVENT = 1 := by
    refine (congrArg F.FAULT_STATUS_EVENT.get (State.reg_setReg_ne (by decide) _ _)).trans ?_
    cases prom
    · rw [when_false]
      exact State.fld_raise Reg.FAULT_STATUS F.FAULT_STATUS_EVENT (by decide) _
    · rw [when_true]
      exact (State.fld_raise_apart _ F.FAULT_STATUS_EVENT F.FAULT_STATUS_PROMOTED (by decide) (by decide) (by decide) _).trans
        ((State.fld_bump ..).trans (State.fld_raise Reg.FAULT_STATUS F.FAULT_STATUS_EVENT (by decide) _))
  unfold State.faultCount
  rw [((here (ps := [.blaze, .counts, .regs, .faults]) (as := [Reg.BLAZE_STATUS])).faultLog ..).fld _ _ (by decide)]
  exact hm _ _

theorem State.faultClass_fatalFirst (cls src unit : Nat) (pl : List Byte) (s : State) :
    (s.fatalFirst cls src unit pl).faultClass src unit = s.faultClass src unit := by
  unfold State.fatalFirst when
  split <;> rfl

section
variable {s : State} {src unit : Nat} (pl : List Byte) (elem : Nat) (hw : s.awake = true) (hc : (s.faultClass src unit).1 = 3)
include hw hc

/-- R463, R468: what a FATAL event may change. -/
theorem State.faultN_fatal_only : s.only fatalParts eventRegs (s.faultN 3 src unit pl elem) := by
  rw [State.faultN_fatal src unit pl elem hw hc]
  exact (((State.fatalFirst_only ..).mono).step (State.faultCount_only ..) (ha := fun _ h => h)).step (State.firebreak_only ..)
    (ha := by simp [eventRegs])

/-- R468: a FATAL event brings the device into the firebreak. -/
theorem State.faultN_fatal_halted : (s.faultN 3 src unit pl elem).halted := by
  rw [State.faultN_fatal src unit pl elem hw hc]
  refine State.firebreak_halted _ _ fun h => ?_
  have ho : s.only [.blaze, .counts, .regs, .faults] eventRegs ((s.fatalFirst 3 src unit pl).faultCount src unit pl).1 :=
    ((State.fatalFirst_only ..).mono).trans (State.faultCount_only ..)
  rw [ho.power'] at h
  simp [State.awake, h] at hw

theorem State.faultN_fatal_last :
    (s.faultN 3 src unit pl elem).reg Reg.FAULT_LAST =
      BitVec.ofNat 32 (3 * 2 ^ 30 + b2n (s.faultClass src unit).2.1 * 2 ^ 29 + unit % 256 * 2 ^ 16 + src) := by
  rw [State.faultN_fatal src unit pl elem hw hc, (State.firebreak_only ..).reg _ (by decide), State.faultCount_last,
    State.faultClass_fatalFirst, hc]

theorem State.faultN_fatal_event : (s.faultN 3 src unit pl elem).fld Reg.FAULT_STATUS F.FAULT_STATUS_EVENT = 1 := by
  rw [State.faultN_fatal src unit pl elem hw hc, (State.firebreak_only ..).fld _ _ (by decide), State.faultCount_event]

/-- R468: what a firebreak leaves of the power and start state, the phase and the tick of the firebreak apart. -/
theorem State.faultN_fatal_power :
    (s.faultN 3 src unit pl elem).power.pll = s.power.pll ∧ (s.faultN 3 src unit pl elem).power.rails = s.power.rails := by
  rw [State.faultN_fatal src unit pl elem hw hc, State.firebreak, State.toFirebreak, State.stopCore_power]
  have ho : s.only [.blaze, .counts, .regs, .faults] eventRegs ((s.fatalFirst 3 src unit pl).faultCount src unit pl).1 :=
    ((State.fatalFirst_only ..).mono).trans (State.faultCount_only ..)
  have hb (t : State) (a b c d e f : Nat) (g : List Byte) : t.only [.blaze, .counts, .regs] [Reg.BLAZE_STATUS] (t.blazeAt a b c d e f g).1.blazeFreeze :=
    (here.blazeAt ..).step (State.blazeFreeze_only _)
  dsimp only
  rw [(hb ..).power', ho.power']
  exact ⟨rfl, rfl⟩

end

end Sys2Proof.Machine
end

section
/-! PROOFS. FATAL events of the supply, the clock and the watchdog (R357, R378, R470). -/

set_option Elab.async false

namespace Sys2Proof.Machine
open Sys2Proof
open State.only (here)

theorem bit_setBits (n k : Nat) : bit (setBits n k k 1) k = true := by
  have h := bits_setBits_self n k k 1
  have e : k + 1 - k = 1 := by omega
  rw [bits, e] at h
  simpa [bit] using h

/-- R378: the state in which a rail's event is judged. -/
def State.railMarked (r : Nat) (s : State) : State :=
  (({ s with power.rails := setBits s.power.rails r r 1 }).raise Reg.PWR_STATUS F.PWR_STATUS_RAIL_FAULT).bump (devSlot (107 + r)) 1

theorem State.railMarked_only (r : Nat) (s : State) : s.only [.power, .regs, .counts] [Reg.PWR_STATUS] (s.railMarked r) :=
  ((here.power _).raise ..).bump ..

/-- R357: the state in which a clock's event is judged. -/
def State.clockMarked (s : State) : State :=
  ({ s with power.pll := false }.pllFlags).raise Reg.CLK_STATUS F.CLK_STATUS_REFCLK_FAULT

theorem State.clockMarked_only (s : State) : s.only [.power, .regs] [Reg.CLK_STATUS] s.clockMarked :=
  ((here.power _).step (State.pllFlags_only _)).raise ..

theorem State.clockMarked_flags (s : State) :
    s.clockMarked.fld Reg.CLK_STATUS F.CLK_STATUS_REFCLK_FAULT = 1 ∧ s.clockMarked.fld Reg.CLK_STATUS F.CLK_STATUS_PLL_LOCK = 0 := by
  refine ⟨State.fld_raise _ _ (by decide) _, ?_⟩
  exact (State.fld_raise_apart _ _ _ (by decide) (by decide) (by decide) _).trans
    ((State.fld_cond_apart _ _ _ (by decide) (by decide) (by decide) _ _).trans (State.fld_cond _ _ (by decide) _ _))

/-- A command whose effect is a FATAL event after a change of flags and the power state completes in the firebreak. -/
theorem State.completes_fatal {s u : State} {c : Instr} {a src unit : Nat} {pl : List Byte} {P : State → Prop}
    (hx : exec c s = .next (s.carry (u.fault src unit pl))) (hu : s.only [.power, .regs, .counts] [a] u) (hw : u.awake = true)
    (ha : Reg.FAULT_SRC src ≠ a) (hc : (s.faultClass src unit).1 = 3) (hP : P (s.carry (u.fault src unit pl))) :
    s.completes c fatalParts (a :: eventRegs) (fun t => t.halted ∧ P t) := by
  have hcu : (u.faultClass src unit).1 = 3 := by rw [hu.faultClass src unit (by simpa using ha)]; exact hc
  have ho : s.only fatalParts (a :: eventRegs) (u.fault src unit pl) :=
    hu.mono.step (State.faultN_fatal_only pl 0 hw hcu) (ha := fun _ h => List.mem_cons_of_mem _ h)
  have hh := State.faultN_fatal_halted pl 0 hw hcu
  refine ⟨_, hx, ⟨?_, hP⟩, ho.carry⟩
  obtain ⟨h1, h2, h3, h4, h5, h6, h7, h8, h9⟩ := hh
  refine ⟨h1, ?_, h3, h4, h5, h6, h7, h8, h9⟩
  rw [State.carry_tick, ← ho.tick']
  exact h2

/-- `FAULT.LAST` of an event of the device itself, whose unit is 0. -/
theorem last_unit_zero (a b c : Nat) : a + b + 0 % 256 * 2 ^ 16 + c = a + b + c := by
  rw [Nat.zero_mod, Nat.zero_mul, Nat.add_zero (a + b)]

section
variable {s : State} (hw : s.awake = true)
include hw

/-- R378: a rail's FATAL fault. -/
theorem State.completes_railFault (rail : Fin 6) (hc : (s.faultClass (3 + rail.val) 0).1 = 3) :
    s.completes (.railFault rail) fatalParts (Reg.PWR_STATUS :: eventRegs)
      (fun t => t.halted ∧ t.fld Reg.PWR_STATUS F.PWR_STATUS_RAIL_FAULT = 1 ∧ bit t.power.rails rail.val = true ∧
        t.fld Reg.FAULT_STATUS F.FAULT_STATUS_EVENT = 1) := by
  have hu := State.railMarked_only rail.val s
  have hwu : (s.railMarked rail.val).awake = true := hw
  have hcu : ((s.railMarked rail.val).faultClass (3 + rail.val) 0).1 = 3 := by
    rw [hu.faultClass _ 0 (by fin_cases rail <;> decide)]; exact hc
  have hp : s.powered = true := by
    unfold State.awake at hw
    unfold State.powered
    cases h : s.power.phase <;> simp_all
  refine State.completes_fatal (u := s.railMarked rail.val) (by
    show Host.Outcome.next (s.carry (s.railFault rail.val)) = _
    rw [State.railFault, hp]; rfl) hu hwu (by fin_cases rail <;> decide) hc ⟨?_, ?_, ?_⟩
  · rw [State.carry_fld, State.fld_fault (by decide)]
    exact (State.fld_bump ..).trans (State.fld_raise _ _ (by decide) _)
  · exact (congrArg (bit · rail.val) (State.faultN_fatal_power _ 0 hwu hcu).2).trans (bit_setBits _ _)
  · exact State.faultN_fatal_event _ 0 hwu hcu

/-- R357: a FATAL event of the clock, of the reference (0) or of the lock (1). -/
theorem State.completes_clockFault {c : Instr} {src : Nat} (hs : src < 2) (hx : exec c s = run (State.clockFault src) s)
    (hc : (s.faultClass src 0).1 = 3) :
    s.completes c fatalParts (Reg.CLK_STATUS :: eventRegs)
      (fun t => t.halted ∧ t.power.pll = false ∧ t.fld Reg.CLK_STATUS F.CLK_STATUS_REFCLK_FAULT = 1 ∧
        t.fld Reg.CLK_STATUS F.CLK_STATUS_PLL_LOCK = 0) := by
  have hu := State.clockMarked_only s
  have hwu : s.clockMarked.awake = true := by
    have : s.clockMarked.power = { s.power with pll := false } := by simp [State.clockMarked, State.pllFlags]
    rw [State.awake, this]; exact hw
  have hsrc : Reg.FAULT_SRC src ≠ Reg.CLK_STATUS := by
    rcases Nat.lt_succ_iff_lt_or_eq.1 hs with h | rfl
    · rw [Nat.lt_one_iff.1 h]; decide
    · decide
  have hcu : (s.clockMarked.faultClass src 0).1 = 3 := by rw [hu.faultClass src 0 (by simpa using hsrc)]; exact hc
  refine State.completes_fatal (u := s.clockMarked) (hx.trans rfl) hu.mono hwu hsrc hc ⟨?_, ?_, ?_⟩
  · refine (State.faultN_fatal_power _ 0 hwu hcu).1.trans ?_
    simp [State.clockMarked, State.pllFlags]
  · rw [State.carry_fld, State.fld_fault (by decide)]
    exact (State.clockMarked_flags s).1
  · rw [State.carry_fld, State.fld_fault (by decide)]
    exact (State.clockMarked_flags s).2

/-- R470: a FATAL expiry of the watchdog. -/
theorem State.completes_watchdog (hc : (s.faultClass 2 0).1 = 3) :
    s.completes .watchdogExpiry fatalParts eventRegs
      (fun t => t.halted ∧ t.reg Reg.FAULT_LAST = BitVec.ofNat 32 (3 * 2 ^ 30 + b2n (s.faultClass 2 0).2.1 * 2 ^ 29 + 2)) := by
  have hx : exec .watchdogExpiry s = run (fun s => s.fault 2 0 []) s := by
    show Host.Outcome.next (s.carry (whenAwake State.watchdog s)) = _
    rw [whenAwake_true _ _ hw]
    rfl
  have ho : s.only fatalParts eventRegs (s.fault 2 0 []) := State.faultN_fatal_only [] 0 hw hc
  obtain ⟨h1, h2, h3⟩ := State.faultN_fatal_halted [] 0 hw hc
  refine State.completes_run hx ho ⟨⟨h1, ?_, h3⟩, ?_⟩
  · rw [State.carry_tick, ← ho.tick']; exact h2
  · have hl := State.faultN_fatal_last [] 0 hw hc
    rw [last_unit_zero] at hl
    exact hl

end

/-- Settles O3: each event is marked, then judged FATAL, and the firebreak keeps its mark. -/
theorem fatalEvents : Obligations.FatalEvents := by
  intro s hw
  refine ⟨fun rail hc => State.completes_railFault hw rail hc, fun edges hpll he hc => ?_, fun hpll hc => ?_, State.completes_watchdog hw⟩
  · refine State.completes_clockFault hw (by decide) ?_ hc
    have hb : badWindow edges = true := by simpa [badWindow] using he
    show Host.Outcome.next (s.carry (if s.awake && s.power.pll && badWindow edges then s.clockFault 0 else s)) = _
    rw [hw, hpll, hb]
    rfl
  · refine State.completes_clockFault hw (by decide) ?_ hc
    show Host.Outcome.next (s.carry (if s.awake && s.power.pll then s.clockFault 1 else s)) = _
    rw [hw, hpll]
    rfl

end Sys2Proof.Machine
end

section
/-! PROOFS. Writes of reserved bits (R53). -/

set_option Elab.async false

namespace Sys2Proof.Machine
open Sys2Proof

/-- A configuration write that gives reserved bits of `NDL.CFG_TMO` another value, as it waits for a device's return to RUN. -/
def heldWrite : Msg :=
  { op := .cwr, h := { port := .e, ndata := 0, sc := 0, tag := 0, src := 0, srcHost := false, dst := 0, dstHost := false, agent := .warden, flags := 0 },
    addr := Reg.NDL_CFG_TMO, words := [2 ^ 32 - 1], way := some 0 }

/-- A device on its way from IDLE to RUN, at which that write waits (R383). -/
def wakingWithWrite : State :=
  { power := { phase := .running, pstate := 1, transit := true, target := 0, held := [heldWrite] } }

/-- Whether a command stops. -/
def stops (c : Instr) (s : State) : Bool :=
  match exec c s with
  | .next _ => false
  | _ => true

/-- The write is served as the device returns to RUN, and meets R53 there. -/
theorem powerExitDone_heldWrite : stops .powerExitDone wakingWithWrite = true := by decide +kernel

/-- Refutes O12: the return to RUN serves a configuration write that has waited, so a command that writes no word of its sender's stops too. -/
theorem not_reservedWrite : ¬ Obligations.ReservedWrite := by
  intro h
  obtain ⟨-, hcompletes, -⟩ := h
  obtain ⟨t, ht, -⟩ := hcompletes wakingWithWrite .powerExitDone rfl
  have hs := powerExitDone_heldWrite
  rw [stops, ht] at hs
  simp at hs

end Sys2Proof.Machine
end

section
/-! PROOFS. The end of a start (R435). -/

set_option Elab.async false

namespace Sys2Proof.Machine
open Sys2Proof

/-- Half of a line whose time to merge is over. -/
def overdueHalf : MergeE := { dev := 0, line := 0, kid := 0, lo := none, hi := none, who := [], time := 0, expires := 0, sc := 0 }

/-- A device at the end of its start whose owner holds half of a line that waited for a copy (R153, R161). -/
def startWithHalf : State :=
  { power := { phase := .starting, items := 10, startTiers := 15, fw := 2 }, own := { merges := [overdueHalf] } }

/-- What waited for the start goes on: the old line is read. -/
theorem startDone_overdueHalf : answers .startDone startWithHalf (fun t => decide (t.own = startWithHalf.own)) = false := by
  decide +kernel

/-- Refutes O5: START_DONE lets a merge entry go on whose time is over, which changes the owner's part; the statement asks for an owner without
waiting or parked requests alone. -/
theorem not_startEnds : ¬ Obligations.StartEnds := by
  intro h
  obtain ⟨-, hdone⟩ := h startWithHalf rfl
  obtain ⟨t, ht, -, ho⟩ := hdone rfl (by decide) (by decide) rfl rfl rfl rfl (Nat.zero_le _)
  have hf := startDone_overdueHalf
  rw [answers_next ht, ho.own'] at hf
  simp at hf

end Sys2Proof.Machine
end

section
/-! PROOFS. The dead state, and the manager's boot ROM (R443, R445, R451). -/

set_option Elab.async false

namespace Sys2Proof.Machine
open Sys2Proof
open State.only (here)

/-! ### The dead state -/

/-- R451: what the entry into the dead state may change. -/
theorem State.die_only (code item : Nat) (s : State) : s.only fatalParts [Reg.BLAZE_STATUS] (s.die code item) :=
  ((here.blazeAt ..).step (State.stopCore_only _)).power _

/-- R451: a device in the dead state has stopped, and shows why. -/
theorem State.die_dead (code item : Nat) (s : State) :
    (s.die code item).power.phase = .dead ∧ (s.die code item).power.failCode = code ∧ (s.die code item).net.ports = {} ∧
      (s.die code item).power.relays = false :=
  ⟨rfl, rfl, rfl, rfl⟩

theorem State.stopCore_density (s : State) : s.stopCore.que.density = s.que.density := by
  have h : s.only [.tiers, .chans, .counts] [] (when s.stopLoops.power.relays (fun s => (s.bump (portSlot .e 36) 1).bump (portSlot .w 36) 1) s.stopLoops) :=
    (State.stopLoops_only s).cond_ ((here.bump ..).bump ..)
  rw [← h.que']
  rfl

theorem State.die_density (code item : Nat) (s : State) : (s.die code item).que.density = s.que.density := by
  refine (State.stopCore_density _).trans (congrArg QueS.density ?_)
  exact (State.only.blazeAt (ps := [.blaze, .counts, .regs]) (as := [Reg.BLAZE_STATUS]) _ _ _ _ _ _ _ here).que'

/-! ### Checks of the manager's image -/

theorem State.only.powerImage {s t : State} {ps : List Part} {as : List Nat} (x : PowerS) (y : ImageS) (h : s.only ps as t)
    (hp : Part.power ∈ ps := by decide) (hi : Part.image ∈ ps := by decide) : s.only ps as { t with power := x, image := y } :=
  State.only.image y (t := { t with power := x }) (h.power x hp) hi

/-- The codes of R443 after which the manager reads its image again. -/
abbrev retryCode (code : Nat) : Prop := code = 5 ∨ code = 8

theorem State.imageFail_retry {code : Nat} {s : State} (hc : retryCode code) (hr : s.image.retried = false) :
    s.imageFail code = { s with image.retried := true } :=
  if_pos ⟨hc, hr⟩

theorem State.imageFail_dies {code : Nat} {s : State} (h : ¬ retryCode code ∨ s.image.retried = true) : s.imageFail code = s.die code 0 :=
  if_neg fun ⟨hc, hr⟩ => h.elim (· hc) (by simp [hr])

theorem State.imageFail_only (code : Nat) (s : State) : s.only (.image :: fatalParts) [Reg.BLAZE_STATUS] (s.imageFail code) :=
  iteInduction (fun _ => here.image _) (fun _ => (State.die_only ..).mono)

theorem State.fwRun_only (h st : List Byte) (s : State) : s.only [.power, .image] [] (s.fwRun h st) := here.powerImage _ _

theorem State.imageFail_density (code : Nat) (s : State) : (s.imageFail code).que.density = s.que.density :=
  iteInduction (motive := fun t : State => t.que.density = s.que.density) (fun _ => rfl) (fun _ => State.die_density ..)

section
variable {s : State} (hd : s.imageDue = true)
include hd

theorem State.imageDue_starting : s.power.phase = .starting := by
  simp only [State.imageDue, Bool.and_eq_true, beq_iff_eq] at hd
  exact hd.1.1.2

/-- R443: no flash answers. -/
theorem State.imageHeader_noSfdp (density : Nat) (header : List Byte) (h0 : s.image.stage = 0) :
    s.imageHeader false density header = s.die 1 0 := by
  rw [State.imageHeader, hd]
  simp [h0]

/-- R443: a header has been read from a flash of known density. -/
theorem State.imageHeader_eq (density : Nat) (header : List Byte) (h0 : s.image.stage = 0) :
    s.imageHeader true density header =
      if s.headerCheck header density ≠ 0 then ({ s with que.density := density } : State).imageFail (s.headerCheck header density)
      else { s with que.density := density, power.fw := 1,
                    image := { s.image with stage := 1, header := (header ++ zeros hdrLen).take hdrLen, nextComp := 0 } } := by
  rw [State.imageHeader, hd]
  simp only [h0, Bool.not_true, Bool.false_eq_true, ne_eq, not_true_eq_false, or_self, if_false]
  rfl

/-- R443: a component has been read. -/
theorem State.componentRead_eq (k : Nat) (data : List Byte) (h1 : s.image.stage = 1) (hk : s.image.nextComp = k) :
    s.componentRead k data =
      if data.length ≠ cLen (hComp s.image.header k) ∨ sha384 data ≠ cHash (hComp s.image.header k) then s.imageFail 8
      else if k + 1 < hNcomp s.image.header then { s with image.nextComp := k + 1, image.stream := s.image.stream ++ data }
      else s.fwRun s.image.header (s.image.stream ++ data) := by
  rw [State.componentRead, hd]
  simp only [h1, hk, Bool.not_true, Bool.false_eq_true, ne_eq, not_true_eq_false, or_self, if_false]

theorem State.completes_noSfdp (density : Nat) (header : List Byte) (h0 : s.image.stage = 0) :
    s.completes (.imageHeaderCheck false density header) fatalParts [Reg.BLAZE_STATUS]
      (fun t => t.power.phase = .dead ∧ t.power.failCode = 1) := by
  refine State.completes_run (f := State.imageHeader false density header) rfl ?_ ?_ <;> rw [State.imageHeader_noSfdp hd density header h0]
  · exact State.die_only ..
  · exact ⟨rfl, rfl⟩

theorem State.completes_header (density : Nat) (header : List Byte) (h0 : s.image.stage = 0) :
    s.completes (.imageHeaderCheck true density header) (.image :: fatalParts) [Reg.BLAZE_STATUS]
      (fun t => t.que.density = density ∧
        (s.headerCheck header density = 0 → t.power.fw = 1 ∧ t.power.phase = .starting ∧ t.image.stage = 1 ∧ t.image.nextComp = 0 ∧
          t.image.header = (header ++ zeros hdrLen).take hdrLen) ∧
        (s.headerCheck header density = 5 → s.image.retried = false → t.power.phase = .starting ∧ t.image = { s.image with retried := true }) ∧
        (s.headerCheck header density ≠ 0 → (s.headerCheck header density ≠ 5 ∨ s.image.retried = true) →
          t.power.phase = .dead ∧ t.power.failCode = s.headerCheck header density)) := by
  have hst := State.imageDue_starting hd
  have h8 : s.headerCheck header density ≠ 8 := by
    unfold State.headerCheck
    dsimp only
    repeat' split
    all_goals decide
  refine State.completes_run (f := State.imageHeader true density header) rfl ?_ ?_ <;> rw [State.imageHeader_eq hd density header h0]
  · exact iteInduction (fun _ => (here.que _).step (State.imageFail_only ..)) 
      (fun _ => (State.only.que (ps := .image :: fatalParts) { s.que with density := density } here).powerImage _ _)
  generalize s.headerCheck header density = k at h8 ⊢
  by_cases hk : k = 0
  · rw [if_neg (by simpa using hk)]
    exact ⟨rfl, fun _ => ⟨rfl, hst, rfl, rfl, rfl⟩, fun h => by omega, fun h => absurd hk h⟩
  rw [if_pos hk]
  refine ⟨State.imageFail_density .., fun h => absurd h hk, fun h5 hr => ?_, fun _ h => ?_⟩
  · rw [State.imageFail_retry (s := { s with que.density := density }) (.inl h5) hr]
    exact ⟨hst, rfl⟩
  · rw [State.imageFail_dies (s := { s with que.density := density }) (h.imp_left fun h5 hc => hc.elim h5 h8)]
    exact ⟨rfl, rfl⟩

theorem State.completes_component (k : Fin 16) (data : List Byte) (h1 : s.image.stage = 1) (hk : s.image.nextComp = k.val) :
    s.completes (.componentReadDone k data) (.image :: fatalParts) [Reg.BLAZE_STATUS]
      (fun t =>
        (data.length = cLen (hComp s.image.header k.val) → sha384 data = cHash (hComp s.image.header k.val) →
          t.image.stream = s.image.stream ++ data ∧
          (k.val + 1 < hNcomp s.image.header → t.image.nextComp = k.val + 1 ∧ t.power.fw = s.power.fw) ∧
          (hNcomp s.image.header ≤ k.val + 1 → t.power.fw = 2)) ∧
        ((data.length ≠ cLen (hComp s.image.header k.val) ∨ sha384 data ≠ cHash (hComp s.image.header k.val)) →
          (s.image.retried = false → t.image = { s.image with retried := true }) ∧
          (s.image.retried = true → t.power.phase = .dead ∧ t.power.failCode = 8))) := by
  refine State.completes_run (f := State.componentRead k.val data) rfl ?_ ?_ <;> rw [State.componentRead_eq hd k.val data h1 hk]
  · exact iteInduction (fun _ => State.imageFail_only ..)
      (fun _ => iteInduction (fun _ => here.image _) (fun _ => (State.fwRun_only ..).mono))
  constructor
  · intro hl hs
    rw [if_neg (by simp [hl, hs])]
    by_cases hn : k.val + 1 < hNcomp s.image.header
    · rw [if_pos hn]
      exact ⟨rfl, fun _ => ⟨rfl, rfl⟩, fun h => by omega⟩
    · rw [if_neg hn]
      exact ⟨rfl, fun h => absurd h hn, fun _ => rfl⟩
  · intro hbad
    rw [if_pos hbad]
    refine ⟨fun hr => ?_, fun hr => ?_⟩
    · rw [State.imageFail_retry (.inr rfl) hr]
      rfl
    · rw [State.imageFail_dies (.inr hr)]
      exact ⟨rfl, rfl⟩

end

/-- Settles O6: each read of the image ends in the dead state, in one more try, in the next component, or with the firmware running. -/
theorem managerImage : Obligations.ManagerImage := fun _ hd =>
  ⟨fun density header h0 => State.completes_noSfdp hd density header h0, fun density header h0 => State.completes_header hd density header h0,
    fun k data h1 hk => State.completes_component hd k data h1 hk⟩

end Sys2Proof.Machine
end

section
/-! PROOFS. Register writes (R40 to R54, R504): where a write lands, and what it does beside the value it stores. -/

set_option Elab.async false

namespace Sys2Proof.Machine
open Sys2Proof
open State.only (here)

/-! ### The way to the registers -/

/-- An access reaches the registers of a device in RUN, whose start runs or is done (R383, R389). -/
theorem State.onPath_open {s : State} (ha : s.awake = true) (hp : s.power.pstate = 0) (he : s.power.entry = .none) (path : Path)
    (f : State → Option State) : s.onPath path f = f s := by
  have hpow : s.powered = true := by
    simp only [State.awake, Bool.or_eq_true, beq_iff_eq] at ha
    rcases ha with h | h <;> simp [State.powered, h]
  simp [State.onPath, State.pathOpen, State.wakeMsg, ha, hpow, hp, he]

theorem State.onPath_up {s : State} (hu : s.up) (path : Path) (f : State → Option State) : s.onPath path f = f s :=
  State.onPath_open hu.awake hu.2.1 hu.2.2 path f

/-- A register of a block that the device has, outside the raw windows. -/
theorem State.resolve_ok {s : State} {a o : Nat} {b : Block} {r : RegRow} (hs : s.stopped = false) (hb : blockOf a = (b, o)) (hn : b ≠ .none)
    (ht : b = .testWin → s.isTest = true) (hp : s.present b = true)
    (hk : a ≠ Reg.PROT_KEYS ∧ a ≠ Reg.PROT_RELAY ∧ a ≠ Reg.PROT_MAP_ERR) (hr : b.rows.find? (fun r => r.holds o) = some r) :
    s.resolve a = .ok (b, o, r) := by
  simp only [State.resolve, hb]
  rw [if_neg (by simpa [hn] using ht), if_neg (by simp [hs, hp, hk]), hr]

theorem State.rawView_none {s : State} {a o : Nat} {b : Block} (hb : blockOf a = (b, o)) (hf : b ≠ .fuseWin) (hw : b ≠ .sensorWin) :
    s.rawView a = none := by
  simp [State.rawView, hb, hf, hw]

/-- A write to a register that is no status register reaches its fields; while the start runs those that R436 names. -/
theorem State.writeReg_ok {s : State} {a o : Nat} {b : Block} {r : RegRow} (path : Path) (w : Word) (touch : Fld → Bool)
    (hv : s.rawView a = none) (hr : s.resolve a = .ok (b, o, r)) (hst : r.status = false)
    (hph : s.power.phase = .starting → startWrite path b o w = some (fun _ => true)) :
    s.writeReg path a w touch = s.writeFields path b o a r w touch := by
  simp only [State.writeReg, hv, hr, hst]
  split
  · rename_i h
    simp [hph h]
  · rfl

theorem State.up.notStarting {s : State} (h : s.up) {α : Prop} (hs : s.power.phase = .starting) : α := by
  rw [h.1] at hs
  cases hs

theorem isAlias_low {a : Nat} (h : a < 2 ^ 24) : isAlias a = false := by
  rw [isAlias, decide_eq_false (by omega)]
  rfl

/-! ### Writes that store nothing -/

/-- A write whose fields are all WO stores nothing. -/
def commands (touch : Fld → Bool) (fs : List FieldRow) : Bool := fs.all (fun r => !touch r.bits || r.ty == .wo)

theorem foldl_same {α β : Type} (f : β → α → β) (l : List α) (b : β) (hf : ∀ a ∈ l, f b a = b) : l.foldl f b = b := by
  induction l with
  | nil => rfl
  | cons a l ih =>
    rw [List.foldl_cons, hf a (by simp)]
    exact ih fun c hc => hf c (by simp [hc])

section
variable {touch : Fld → Bool} {fs : List FieldRow} (h : commands touch fs = true)
include h

theorem commands_wo {r : FieldRow} (hm : r ∈ fs) (ht : touch r.bits = true) : r.ty = .wo := by
  have := List.all_eq_true.1 h r hm
  simpa [ht] using this

theorem rsvBroken_commands (data old : Word) : rsvBroken touch data old fs = false := by
  simp only [rsvBroken, List.any_eq_false]
  intro r hm
  by_cases ht : touch r.bits = true
  · simp [commands_wo h hm ht]
  · simp [ht]

theorem laterField_commands : laterField touch fs = false := by
  simp only [laterField, List.any_eq_false]
  intro r hm
  by_cases ht : touch r.bits = true
  · simp [commands_wo h hm ht]
  · simp [ht]

theorem any_rwl_commands : fs.any (fun f => f.ty == .rwl && touch f.bits) = false := by
  simp only [List.any_eq_false]
  intro r hm
  by_cases ht : touch r.bits = true
  · simp [commands_wo h hm ht]
  · simp [ht]

theorem storedWord_commands (path : Path) (b : Block) (o : Nat) (lo : Bool) (data old : Word) :
    storedWord path b o lo touch data old fs = old := by
  refine foldl_same (fun (w : Word) (r : FieldRow) => _) fs old fun r hm => ?_
  by_cases ht : touch r.bits = true
  · simp [commands_wo h hm ht]
  · simp [ht]

end

/-- What the fields of a register take from a write: nothing where it does not touch them, or they refuse it. -/
def woOf (path : Path) (b : Block) (o : Nat) (touch : Fld → Bool) (data : Word) (f : Fld) : Nat :=
  if touch f && !guarded path b o f then f.get data else 0

/-- A write to WO fields alone: RO_WRITE where one refuses it, and what it does. -/
theorem State.writeFields_commands {s : State} {a o : Nat} {b : Block} {r : RegRow} {touch : Fld → Bool} (path : Path) (w : Word)
    (hm : b ≠ .mbx) (hv : b ≠ .svc) (h : commands touch r.fields = true) :
    s.writeFields path b o a r w touch =
      some ((when (roWrite path b o touch w (s.reg a) (s.regView b o a) r.fields) (State.accFlag path F.MBX_ACC_STATUS_RO_WRITE)
        (s.setReg a (s.reg a))).act path b o a (woOf path b o touch w) touch (s.reg a)) := by
  have hb : bankAddr path b o a = a := by simp [bankAddr, hm]
  simp only [State.writeFields, hb, hm, hv, false_and, if_false, rsvBroken_commands h, laterField_commands h, any_rwl_commands h,
    storedWord_commands h, Bool.false_eq_true, Bool.and_false, when_false]
  rfl

theorem roWrite_commands {touch : Fld → Bool} {fs : List FieldRow} {path : Path} {b : Block} {o : Nat} (h : commands touch fs = true)
    (hg : ∀ f, touch f = true → guarded path b o f = false) (data old view : Word) : roWrite path b o touch data old view fs = false := by
  simp only [roWrite, List.any_eq_false]
  intro r hm
  by_cases ht : touch r.bits = true
  · simp [commands_wo h hm ht, hg _ ht]
  · simp [ht]

theorem woOf_free {path : Path} {b : Block} {o : Nat} {touch : Fld → Bool} (hg : ∀ f, touch f = true → guarded path b o f = false) (w : Word) (f : Fld) :
    woOf path b o touch w f = if touch f then f.get w else 0 := by
  unfold woOf
  by_cases h : touch f = true
  · simp [h, hg f h]
  · simp [h]

/-- A register is written with the value it holds: only the file that keeps it may change its shape. -/
theorem State.setReg_same_only (a : Nat) (s : State) : s.only [.regs] [] (s.setReg a (s.reg a)) := by
  refine ⟨⟨rfl, rfl, rfl⟩, fun p hp => ?_, fun b _ => ?_⟩
  · exact ((here (ps := [.regs]) (as := [a])).setReg a (s.reg a)).2.1 p hp
  · by_cases e : b = a
    · subst e; exact State.reg_setReg ..
    · exact State.reg_setReg_ne e ..

theorem State.accFlag_only (path : Path) (f : Fld) (s : State) : s.only [.regs] [Reg.MBX_ACC_STATUS] (s.accFlag path f) :=
  (here.raise ..).setFld ..

theorem State.accFlag_roWrite (path : Path) (s : State) :
    (s.accFlag path F.MBX_ACC_STATUS_RO_WRITE).fld Reg.MBX_ACC_STATUS F.MBX_ACC_STATUS_RO_WRITE = 1 :=
  (State.fld_setFld_apart _ _ _ (by decide) (by decide) _ _).trans (State.fld_raise _ _ (by decide) _)

end Sys2Proof.Machine
end

section
/-! PROOFS. A firmware load into a device over CFG (R446 to R450). -/

set_option Elab.async false

namespace Sys2Proof.Machine
open Sys2Proof
open State.only (here)

/-! ### The registers of a load -/

/-- The registers of BOOT from LOAD_CTL on, all of whose fields are WO and free to the manager's warden alone. -/
structure LoadReg (a o : Nat) (r : RegRow) : Prop where
  block : blockOf a = (.boot, o)
  row : Block.boot.rows.find? (fun r => r.holds o) = some r
  status : r.status = false
  load : 0x20 ≤ o
  apart : a ≠ Reg.PROT_KEYS ∧ a ≠ Reg.PROT_RELAY ∧ a ≠ Reg.PROT_MAP_ERR

theorem loadCtl_reg : LoadReg Reg.BOOT_LOAD_CTL 0x20 (bootRegs.getD 5 (bootRegs.head (by decide))) := by
  constructor <;> decide

theorem loadWin_reg {i : Nat} (h : i < 4) : LoadReg (Reg.BOOT_LOAD_WIN i) (0x30 + 4 * i) (bootRegs.getD 6 (bootRegs.head (by decide))) := by
  constructor <;> interval_cases i <;> decide

theorem guarded_warden {o : Nat} (f : Fld) : guarded .cfgWarden .boot o f = false := by simp [guarded]

theorem guarded_load {o : Nat} {path : Path} (ho : 0x20 ≤ o) (hp : path ≠ .cfgWarden) (f : Fld) : guarded path .boot o f = true := by
  simp [guarded, ho, hp]

section
variable {s : State} {a o : Nat} {r : RegRow} {touch : Fld → Bool} (ha : s.awake = true) (hr : LoadReg a o r)
  (h : commands touch r.fields = true)
include ha hr h

/-- A write to a register of the load. -/
theorem State.writeReg_load (path : Path) (w : Word) :
    s.writeReg path a w touch =
      some ((when (roWrite path .boot o touch w (s.reg a) (s.regView .boot o a) r.fields) (State.accFlag path F.MBX_ACC_STATUS_RO_WRITE)
        (s.setReg a (s.reg a))).act path .boot o a (woOf path .boot o touch w) touch (s.reg a)) := by
  rw [State.writeReg_ok path w touch (State.rawView_none hr.block (by decide) (by decide))
      (State.resolve_ok (by simp [State.stopped, ha]) hr.block (by decide) (by simp) rfl hr.apart hr.row) hr.status
      (by simp [startWrite, hr.load]), State.writeFields_commands path w (by decide) (by decide) h]

/-- A write of the manager's warden to a register of the load. -/
theorem State.writeReg_load_warden (w : Word) :
    s.writeReg .cfgWarden a w touch =
      some ((s.setReg a (s.reg a)).act .cfgWarden .boot o a (fun f => if touch f then f.get w else 0) touch (s.reg a)) := by
  rw [State.writeReg_load ha hr h, roWrite_commands h fun _ _ => guarded_warden _, when_false]
  congr 2
  exact funext fun f => woOf_free (fun f _ => guarded_warden f) w f

/-- Another agent's write to a register of the load is refused with RO_WRITE. -/
theorem State.writeReg_load_refused {path : Path} (hp : path ≠ .cfgWarden) (w : Word) (ht : r.fields.any (fun f => touch f.bits) = true) :
    s.writeReg path a w touch = some ((s.setReg a (s.reg a)).accFlag path F.MBX_ACC_STATUS_RO_WRITE) := by
  have hro : roWrite path .boot o touch w (s.reg a) (s.regView .boot o a) r.fields = true := by
    obtain ⟨f, hm, hf⟩ := List.any_eq_true.1 ht
    refine List.any_eq_true.2 ⟨f, hm, ?_⟩
    simp [hf, guarded_load hr.load hp, guardFlags, hr.load, commands_wo h hm hf]
  have hwo : woOf path .boot o touch w = fun _ => 0 := funext fun f => by simp [woOf, guarded_load hr.load hp]
  rw [State.writeReg_load ha hr h, hro, when_true, hwo]
  have ho := hr.load
  have hne : ¬ o = 8 := by omega
  have hb : (path == .cfgWarden) = false := by simpa using hp
  simp [State.act, hne, hb]

end

theorem putFields_pair (f g : Fld) (x y : Nat) (w : Word) : putFields [(f, x), (g, y)] w = g.set y (f.set x w) := rfl

theorem putFields_one (f : Fld) (x : Nat) (w : Word) : putFields [(f, x)] w = f.set x w := rfl

section
variable {s : State} (ha : s.awake = true) (hp : s.power.pstate = 0) (he : s.power.entry = .none) (hs : s.still) (hm : s.isManager = false)
include ha hp he hs hm

/-- R446: START of the manager's warden begins a load. -/
theorem State.completes_loadStart (len : Fin 33554432) (hf : s.power.fw = 0) :
    s.completes (.loadStart .cfgWarden len) [.power, .image, .regs] [] (fun t => t.power.fw = 1 ∧ t.image = { stage := 1, len := len.val }) := by
  have hl : F.BOOT_LOAD_CTL_LEN.get (putFields [(F.BOOT_LOAD_CTL_START, 1), (F.BOOT_LOAD_CTL_LEN, len.val)] 0) = len.val := by
    rw [putFields_pair, Fld.get_set _ (by decide)]
    exact Nat.mod_eq_of_lt len.isLt
  have h1 : F.BOOT_LOAD_CTL_START.get (putFields [(F.BOOT_LOAD_CTL_START, 1), (F.BOOT_LOAD_CTL_LEN, len.val)] 0) = 1 := by
    rw [putFields_pair, Fld.get_set_apart _ _ (by decide) (by decide)]
    decide
  let u := s.setReg Reg.BOOT_LOAD_CTL (s.reg Reg.BOOT_LOAD_CTL)
  have hx : s.writeParts .cfgWarden Reg.BOOT_LOAD_CTL [(F.BOOT_LOAD_CTL_START, 1), (F.BOOT_LOAD_CTL_LEN, len.val)] = some (u.loadStart len.val) := by
    rw [State.writeParts, State.writeReg_load_warden ha loadCtl_reg rfl, State.act, if_neg (by decide), if_pos rfl]
    have e (f : Fld) : ([(F.BOOT_LOAD_CTL_START, 1), (F.BOOT_LOAD_CTL_LEN, len.val)].any fun e => e.1 == f) =
        (F.BOOT_LOAD_CTL_START == f || F.BOOT_LOAD_CTL_LEN == f) := by simp
    simp only [e, hl, h1]
    rfl
  have hu : u.loadStart len.val = { u with power.fw := 1, image := { stage := 1, len := len.val } } :=
    if_neg (by
      have : u.isManager = false := hm
      have : u.awake = true := ha
      have : u.power.fw = 0 := hf
      simp [*])
  have ho : s.only [.power, .image, .regs] [] (u.loadStart len.val) := by
    rw [hu]
    exact ((State.setReg_same_only _ s).mono).powerImage _ _
  refine State.completes_access (u := u.loadStart len.val) rfl ((State.onPath_open ha hp he _ _).trans hx) (ho.still hs) ho ?_
  rw [hu]
  exact ⟨rfl, rfl⟩

omit hm in
/-- R446, R504: START of another agent. -/
theorem State.completes_loadStart_refused (path : Path) (len : Fin 33554432) (hne : path ≠ .cfgWarden) :
    s.completes (.loadStart path len) [.regs] [Reg.MBX_ACC_STATUS]
      (fun t => t.fld Reg.MBX_ACC_STATUS F.MBX_ACC_STATUS_RO_WRITE = 1 ∧ t.power = s.power ∧ t.image = s.image) := by
  have ho : s.only [.regs] [Reg.MBX_ACC_STATUS] ((s.setReg Reg.BOOT_LOAD_CTL (s.reg Reg.BOOT_LOAD_CTL)).accFlag path F.MBX_ACC_STATUS_RO_WRITE) :=
    ((State.setReg_same_only _ s).mono).step (State.accFlag_only ..)
  have hpw := ho.power'
  have him := ho.image'
  refine State.completes_access rfl
    ((State.onPath_open ha hp he _ _).trans (State.writeReg_load_refused ha loadCtl_reg rfl hne _ rfl)) (ho.still hs) ho ?_
  exact ⟨(State.carry_fld ..).trans (State.accFlag_roWrite ..), (State.carry_power ..).trans hpw, (State.carry_image ..).trans him⟩

/-- R446: END of the manager's warden. -/
theorem State.completes_loadEnd (hf : s.power.fw = 1) :
    s.completes (.loadEnd .cfgWarden) [.image, .regs] [] (fun t => t.image = { s.image with ended := true }) := by
  let u := s.setReg Reg.BOOT_LOAD_CTL (s.reg Reg.BOOT_LOAD_CTL)
  have hx : s.writeParts .cfgWarden Reg.BOOT_LOAD_CTL [(F.BOOT_LOAD_CTL_END, 1)] = some u.loadEnd := by
    rw [State.writeParts, State.writeReg_load_warden ha loadCtl_reg (by decide), State.act, if_neg (by decide), if_pos rfl]
    rfl
  have hu : u.loadEnd = { u with image.ended := true } :=
    if_neg (by
      have : u.isManager = false := hm
      have : u.power.fw = 1 := hf
      simp [*])
  have ho : s.only [.image, .regs] [] u.loadEnd := by
    rw [hu]
    exact ((State.setReg_same_only _ s).mono).image _
  refine State.completes_access rfl ((State.onPath_open ha hp he _ _).trans hx) (ho.still hs) ho ?_
  rw [hu]
  rfl

end

/-! ### The words of a load -/

theorem get_value (w : Word) : F.BOOT_LOAD_WIN_VALUE.get w = w.toNat := by
  have := w.isLt
  simp only [Fld.get, F.BOOT_LOAD_WIN_VALUE, bits]
  omega

/-- R448: a word of a load is appended to its stream, whatever the checks then find. -/
theorem State.loadWords_stream {s : State} (hm : s.isManager = false) (hf : s.power.fw = 1) (hd : s.image.ended = false) (ws : List Nat) :
    s.only [.image] [] (s.loadWords ws) ∧ (s.loadWords ws).image.stream = s.image.stream ++ ofWords ws ∧
      (s.loadWords ws).image.len = s.image.len ∧ (s.loadWords ws).image.ended = false := by
  rw [State.loadWords, if_neg (by simp [hm, hf, hd])]
  dsimp only
  repeat' split
  all_goals exact ⟨here.image _, rfl, rfl, hd⟩

theorem State.writeWord_loadWin {s : State} (ha : s.awake = true) {i : Nat} (hi : i < 4) (w : Word) :
    s.writeWord .cfgWarden (Reg.BOOT_LOAD_WIN i) w =
      some ((s.setReg (Reg.BOOT_LOAD_WIN i) (s.reg (Reg.BOOT_LOAD_WIN i))).loadWords [w.toNat]) := by
  have h4 : Reg.BOOT_LOAD_WIN i % 4 = 0 := by simp only [Reg.BOOT_LOAD_WIN]; omega
  have hal := isAlias_low (a := Reg.BOOT_LOAD_WIN i) (by simp only [Reg.BOOT_LOAD_WIN]; omega)
  rw [State.writeWord, if_neg (by simp [h4]), if_neg (by simp [hal]), State.writeReg_load_warden ha (loadWin_reg hi) (by decide), State.act,
    if_neg (by omega), if_neg (by omega), if_pos (by omega), beq_self_eq_true, when_true]
  simp only [if_true, get_value]

theorem State.writeWords_loadWin : ∀ (ws : List Word) (i : Nat) (s : State), s.awake = true → s.isManager = false → s.power.fw = 1 →
    s.image.ended = false → i + ws.length ≤ 4 →
    ∃ t, s.writeWords .cfgWarden (Reg.BOOT_LOAD_WIN i) ws = some t ∧ s.only [.image, .regs] [] t ∧
      t.image.stream = s.image.stream ++ ofWords (ws.map (·.toNat)) ∧ t.image.len = s.image.len ∧ t.image.ended = false
  | [], _, s, _, _, _, hd, _ => ⟨s, rfl, here, by simp [ofWords], rfl, hd⟩
  | w :: ws, i, s, ha, hm, hf, hd, hl => by
    rw [List.length_cons] at hl
    let u := s.setReg (Reg.BOOT_LOAD_WIN i) (s.reg (Reg.BOOT_LOAD_WIN i))
    obtain ⟨ho, hst, hle, hen⟩ := State.loadWords_stream (s := u) hm hf hd [w.toNat]
    have hsu : s.only [.image, .regs] [] (u.loadWords [w.toNat]) := ((State.setReg_same_only _ s).mono).step ho
    obtain ⟨t, ht, hot, hs', hl', he'⟩ := State.writeWords_loadWin ws (i + 1) (u.loadWords [w.toNat]) (by rw [hsu.awake]; exact ha)
      (by rw [hsu.isManager]; exact hm) (by rw [hsu.power']; exact hf) hen (by omega)
    refine ⟨t, ?_, hsu.trans hot, ?_, hl'.trans hle, he'⟩
    · rw [State.writeWords, State.writeWord_loadWin ha (by omega)]
      exact ht
    · rw [hs', hst, List.map_cons, List.append_assoc]
      rfl

/-- R448: the words of a write to LOAD_WIN. -/
theorem State.completes_loadWin {s : State} (ha : s.awake = true) (hp : s.power.pstate = 0) (he : s.power.entry = .none) (hs : s.still)
    (hm : s.isManager = false) (words : List Word) (hf : s.power.fw = 1) (hd : s.image.ended = false) (hl : words.length ≤ 4) :
    s.completes (.loadWin .cfgWarden words) [.image, .regs] []
      (fun t => t.image.stream = s.image.stream ++ ofWords (words.map (·.toNat)) ∧ t.image.len = s.image.len ∧ t.image.ended = false) := by
  obtain ⟨t, ht, ho, hP⟩ := State.writeWords_loadWin words 0 s ha hm hf hd (by omega)
  refine State.completes_access (f := State.onPath .cfgWarden (State.writeWords .cfgWarden (Reg.BOOT_LOAD_WIN 0) (words.take 4))) rfl ?_
    (ho.still hs) ho hP
  rw [State.onPath_open ha hp he, List.take_of_length_le hl, ht]

/-- R446, R449: the ROM of the device ends its checks. -/
theorem State.completes_loadCheck {s : State} (hs : s.still) (hm : s.isManager = false) (n : Fin 64) (code : Byte) (hf : s.power.fw = 1)
    (hd : s.image.ended = true) :
    s.completes (.loadCheckDone n code) [.power, .image] []
      (fun t => (s.loadCode = 0 → t.power.fw = 2 ∧ t.image.epoch = hEpoch s.image.header ∧ t.image.version = BitVec.ofNat 32 (hVersion s.image.header)) ∧
        (s.loadCode ≠ 0 → t.power.fw = 3 ∧ t.power.failCode = s.loadCode ∧ t.image = {})) := by
  let f (s : State) : State := if s.isManager then (if s.running then s.loadOutcome n.val code.toNat else s) else s.loadChecked
  have hx : f s = if s.loadCode = 0 then s.fwRun s.image.header [] else { s with power.fw := 3, power.failCode := s.loadCode, image := {} } := by
    simp only [f, hm, Bool.false_eq_true, if_false]
    rw [State.loadChecked, if_neg (by simp [hm, hf, hd])]
  have ho : s.only [.power, .image] [] (f s) := by
    rw [hx]
    exact iteInduction (fun _ => State.fwRun_only ..) (fun _ => here.powerImage _ _)
  refine State.completes_always (f := f) rfl (ho.still hs) ho ?_
  rw [hx]
  by_cases h0 : s.loadCode = 0
  · rw [if_pos h0]
    exact ⟨fun _ => ⟨rfl, rfl, rfl⟩, fun h => absurd h0 h⟩
  · rw [if_neg h0]
    exact ⟨fun h => absurd h h0, fun _ => ⟨rfl, rfl, rfl⟩⟩

/-- Settles O7: each command of a load is a write to WO fields of BOOT, or the end of the ROM's checks. -/
theorem firmwareLoad : Obligations.FirmwareLoad := fun _ ha hp he hs hm =>
  ⟨fun len hf => State.completes_loadStart ha hp he hs hm len hf, fun path len hne => State.completes_loadStart_refused ha hp he hs path len hne,
    fun words hf hd hl => State.completes_loadWin ha hp he hs hm words hf hd hl, fun hf => State.completes_loadEnd ha hp he hs hm hf,
    fun n code hf hd => State.completes_loadCheck hs hm n code hf hd⟩

end Sys2Proof.Machine
end

section
/-! PROOFS. Register files that list a reset value: a write of the value that a register holds takes it off the list (R52). -/

set_option Elab.async false

namespace Sys2Proof.Machine
open Sys2Proof

/-- A running device whose register file lists a register with a value. -/
def listing (a : Nat) (w : Word) : State := { power := { phase := .running }, regs := { file := [(a, w)] } }

theorem listing_still (a : Nat) (w : Word) : (listing a w).still :=
  ⟨⟨rfl, rfl, rfl, rfl, rfl, rfl, rfl, by simp [listing, State.engBusy, State.engTurns, State.tier, AMap.get, AMap.find], rfl, rfl⟩, rfl⟩

/-! ### FAULT.CTL -/

theorem warmReset_listing :
    answers (.warmReset .i3c) (listing Reg.FAULT_CTL 0) (fun t => decide (t.regs.file = (listing Reg.FAULT_CTL 0).regs.file)) = false := by
  decide +kernel

/-- Refutes O55: a write to FAULT.CTL stores the register's word again, so a file that lists the reset value of that register does not stay as it
was, which the clause for WARM_RESET asks for. -/
theorem not_faultOrders : ¬ Obligations.FaultOrders := by
  intro h
  obtain ⟨hwarm, -⟩ := h (listing Reg.FAULT_CTL 0) .i3c ⟨rfl, rfl, rfl⟩ (listing_still ..)
  obtain ⟨t, ht, -, ho⟩ := hwarm (.inr rfl)
  have hf := warmReset_listing
  rw [answers_next ht, show t.regs.file = _ from ho.2.1 .regs (by decide)] at hf
  simp at hf

/-! ### PWR.CMD -/

theorem pwrCmdIdle_listing :
    answers (.pwrCmdIdle .cfgWarden) (listing Reg.PWR_CMD 0) (fun t => decide (t.regs.file = (listing Reg.PWR_CMD 0).regs.file)) = false := by
  decide +kernel

/-- Refutes O52: a write to PWR.CMD stores the register's word again, so a file that lists the reset value of that register does not stay as it was,
which the clause for the entries into a power state asks for. -/
theorem not_powerTransitions : ¬ Obligations.PowerTransitions := by
  intro h
  obtain ⟨hentry, -⟩ := h (listing Reg.PWR_CMD 0) rfl (listing_still ..)
  obtain ⟨t, ht, -, ho⟩ := hentry (.pwrCmdIdle .cfgWarden) 1 (by simp) rfl rfl
  have hf := pwrCmdIdle_listing
  rw [answers_next ht, show t.regs.file = _ from ho.2.1 .regs (by decide)] at hf
  simp at hf

end Sys2Proof.Machine
end

section
/-! PROOFS. Register writes that store a word (R52, R53), and I3C (R43). -/

set_option Elab.async false

namespace Sys2Proof.Machine
open Sys2Proof
open State.only (here)

/-- A write that keeps every RSV bit and touches no RWL field stores its RW fields, at its apply point those that have a later one. -/
theorem State.writeFields_stored {s : State} {a o : Nat} {b : Block} {r : RegRow} {touch : Fld → Bool} {w : Word} (path : Path)
    (hm : b ≠ .mbx) (hv : b ≠ .svc) (hR : rsvBroken touch w (s.reg a) r.fields = false)
    (hL : laterField touch r.fields = true → s.regs.wait.contains a = true) (hW : r.fields.any (fun f => f.ty == .rwl && touch f.bits) = false) :
    s.writeFields path b o a r w touch =
      some ((when (roWrite path b o touch w (s.reg a) (s.regView b o a) r.fields) (State.accFlag path F.MBX_ACC_STATUS_RO_WRITE)
        (s.setReg a (storedWord path b o s.power.lockOpen touch w (s.reg a) r.fields))).act path b o a (woOf path b o touch w) touch (s.reg a)) := by
  have hb : bankAddr path b o a = a := by simp [bankAddr, hm]
  have hw : ¬ (laterField touch r.fields = true ∧ (!(s.setReg a (storedWord path b o s.power.lockOpen touch w (s.reg a) r.fields)).regs.wait.contains a) = true) := by
    rintro ⟨h1, h2⟩
    rw [State.setReg_regs_wait, hL h1] at h2
    cases h2
  simp only [State.writeFields, hb, hm, hv, false_and, if_false, hR, hW, Bool.false_eq_true, Bool.and_false, when_false]
  rw [if_neg hw]
  rfl

/-! ### The notice mask -/

/-- `NDL.NTC_EN`, all of whose bits are RW. -/
def ntcEnRow : RegRow := ⟨"NDL.NTC_EN", 0xC, 4, 1, false, [.of "EN" 31 0 .rw 4294967295 .imm false]⟩

theorem State.resolve_ntcEn {s : State} (h : s.stopped = false) : s.resolve Reg.NDL_NTC_EN = .ok (.ndl, 0xC, ntcEnRow) :=
  State.resolve_ok h (by decide) (by decide) (by simp) rfl (by decide) (by decide)

theorem ofNat_setBits_all (n : Nat) (w : Word) : BitVec.ofNat 32 (setBits n 31 0 w.toNat) = w := by
  have := w.isLt
  refine BitVec.eq_of_toNat_eq ?_
  simp only [setBits, BitVec.toNat_ofNat]
  omega

theorem Fld.set_all (w old : Word) : (⟨31, 0⟩ : Fld).set w.toNat old = w := ofNat_setBits_all ..

theorem storedWord_ntcEn (path : Path) (lo : Bool) (touch : Fld → Bool) (h : touch ⟨31, 0⟩ = true) (w old : Word) :
    storedWord path .ndl 0xC lo touch w old ntcEnRow.fields = w := by
  have := w.isLt
  have hg : (⟨31, 0⟩ : Fld).get w = w.toNat := by simp only [Fld.get, bits]; omega
  have hmin : max 0 (min 4294967295 w.toNat) = w.toNat := by omega
  simp only [storedWord, ntcEnRow, List.foldl_cons, List.foldl_nil, FieldRow.of, FieldRow.get, hg, h]
  rw [show (2 ^ (31 + 1 - 0) - 1 : Nat) = 4294967295 from rfl, hmin]
  exact Fld.set_all w old

theorem State.writeReg_ntcEn {s : State} (hu : s.up) (path : Path) (w : Word) (touch : Fld → Bool) (h : touch ⟨31, 0⟩ = true) :
    s.writeReg path Reg.NDL_NTC_EN w touch = some (s.setReg Reg.NDL_NTC_EN w) := by
  rw [State.writeReg_ok path w touch (State.rawView_none (b := .ndl) (o := 0xC) (by decide) (by decide) (by decide)) (State.resolve_ntcEn hu.stopped) rfl
      hu.notStarting,
    State.writeFields_stored path (by decide) (by decide) rfl (fun hl => by cases hl) rfl, storedWord_ntcEn path _ touch h]
  have hr : roWrite path .ndl 0xC touch w (s.reg Reg.NDL_NTC_EN) (s.regView .ndl 0xC Reg.NDL_NTC_EN) ntcEnRow.fields = false := by
    simp [roWrite, ntcEnRow, guarded, FieldRow.of]
  rw [hr, when_false]
  rfl

theorem State.writeWord_ntcEn {s : State} (hu : s.up) (path : Path) (w : Word) :
    s.writeWord path Reg.NDL_NTC_EN w = some (s.setReg Reg.NDL_NTC_EN w) := by
  rw [State.writeWord, if_neg (by decide), if_neg (by decide), State.writeReg_ntcEn hu path w _ rfl]

theorem State.readWord_ntcEn {s : State} (hu : s.up) (path : Path) : s.readWord path Reg.NDL_NTC_EN = (s, s.reg Reg.NDL_NTC_EN) := by
  rw [State.readWord, if_neg (by decide), if_neg (by decide), State.readReg,
    State.rawView_none (b := .ndl) (o := 0xC) (by decide) (by decide) (by decide), State.resolve_ntcEn hu.stopped]
  dsimp only
  rw [if_neg (by simp), bankAddr, if_neg (by simp)]
  rfl

/-! ### Bytes, most significant first -/

theorem ofBe_append (l m : List Byte) : ofBe (l ++ m) = ofBe l * 256 ^ m.length + ofBe m := by
  induction m using List.reverseRecOn with
  | nil => simp [ofBe]
  | append_singleton m b ih =>
    rw [← List.append_assoc]
    simp only [ofBe, List.foldl_append, List.foldl_cons, List.foldl_nil, List.length_append, List.length_singleton] at ih ⊢
    rw [ih]
    ring

theorem ofBe_beBytes (n v : Nat) : ofBe (beBytes n v) = v % 256 ^ n := by
  induction n generalizing v with
  | zero => simp [beBytes, leBytes, ofBe, Nat.mod_one]
  | succ n ih =>
    have h : beBytes (n + 1) v = beBytes n (v / 256) ++ [BitVec.ofNat 8 v] := by simp [beBytes, leBytes]
    rw [h, ofBe_append, ih, Nat.pow_succ, Nat.mul_comm (256 ^ n), Nat.mod_mul]
    simp [ofBe]
    omega

@[simp] theorem length_beBytes (n v : Nat) : (beBytes n v).length = n := by
  induction n generalizing v with
  | zero => rfl
  | succ n ih => simpa [beBytes, leBytes] using ih (v / 256)

theorem ofBe_word (w : Word) : BitVec.ofNat 32 (ofBe (beBytes 4 w.toNat)) = w := by
  have := w.isLt
  rw [ofBe_beBytes, Nat.mod_eq_of_lt (by omega)]
  exact BitVec.eq_of_toNat_eq (by simp)

/-! ### I3C -/

theorem State.pathOpen_up {s : State} (hu : s.up) (path : Path) : s.pathOpen path = (s, true) := by
  simp [State.pathOpen, State.wakeMsg, hu.awake, hu.powered, hu.2.1, hu.2.2]

/-- R43: what a read of a register over I3C does. -/
def State.i3cAnswer (bytes : List Byte) (count : Nat) (s : State) : State :=
  match s.pathOpen .i3c with | (s, true) => s.i3cRead bytes count | (s, false) => s

/-- R43: what SETDASA does. -/
def State.takeDasa (static dynamic : BitVec 7) (s : State) : State :=
  if static.toNat = s.i3cStatic then
    match s.pathOpen .i3c with | (s, true) => { s with id.i3cDyn := some dynamic } | (s, false) => s
  else s

/-- R43: what ENTDAA does. -/
def State.takeDaa (dynamic : BitVec 7) (s : State) : State :=
  if s.id.i3cDyn.isNone ∧ s.powered ∧ s.power.pstate < 2 then { s with id.i3cDyn := some dynamic } else s

theorem exec_i3cPrivateRead (bytes : List Byte) (count : Nat) (s : State) :
    exec (.i3cPrivateRead bytes count) s = always (State.i3cAnswer bytes count) s := rfl

theorem exec_setdasa (static dynamic : BitVec 7) (s : State) : exec (.setdasa static dynamic) s = local_ (State.takeDasa static dynamic) s := rfl

theorem exec_entdaa (dynamic : BitVec 7) (s : State) : exec (.entdaa dynamic) s = local_ (State.takeDaa dynamic) s := rfl

section
variable {s : State} (hu : s.up) (hs : s.still)
include hs

omit hs in
theorem State.takeDasa_own (hu : s.up) {static : BitVec 7} (dynamic : BitVec 7) (h : static.toNat = s.i3cStatic) :
    s.takeDasa static dynamic = { s with id.i3cDyn := some dynamic } := by
  rw [State.takeDasa, if_pos h, State.pathOpen_up hu]

omit hs in
theorem State.takeDaa_free (hu : s.up) (dynamic : BitVec 7) (h : s.id.i3cDyn = none) : s.takeDaa dynamic = { s with id.i3cDyn := some dynamic } :=
  if_pos ⟨by simp [h], hu.powered, by rw [hu.2.1]; decide⟩

omit hs in
theorem State.i3cAnswer_ntcEn (hu : s.up) (count : Nat) (h : 4 ≤ count) :
    s.i3cAnswer (beBytes 4 Reg.NDL_NTC_EN) count =
      { s with id.i3cOut := beBytes 4 (s.reg Reg.NDL_NTC_EN).toNat ++ List.replicate (count - 4) 0xFF } := by
  rw [State.i3cAnswer, State.pathOpen_up hu]
  dsimp only
  rw [State.i3cRead, if_pos ⟨length_beBytes .., h⟩, ofBe_beBytes, Nat.mod_eq_of_lt (by decide), State.readWord_ntcEn hu]

theorem State.completes_setdasa_other (static dynamic : BitVec 7) (h : static.toNat ≠ s.i3cStatic) :
    s.completes (.setdasa static dynamic) [] [] (fun _ => True) := by
  have hx : s.takeDasa static dynamic = s := if_neg h
  exact State.completes_local (exec_setdasa ..) (by rw [hx]; exact hs.2) (by rw [hx]; exact here) trivial

include hu

theorem State.completes_i3cWrite (w : Word) :
    s.completes (.i3cPrivateWrite (beBytes 4 Reg.NDL_NTC_EN ++ beBytes 4 w.toNat)) [.regs] [Reg.NDL_NTC_EN] (fun t => t.reg Reg.NDL_NTC_EN = w) := by
  have ho : s.only [.regs] [Reg.NDL_NTC_EN] (s.setReg Reg.NDL_NTC_EN w) := here.setReg ..
  refine State.completes_access rfl ?_ (ho.still hs) ho (State.reg_setReg ..)
  rw [State.onPath_up hu, if_pos (by simp), List.take_left' (length_beBytes ..), List.drop_left' (length_beBytes ..), ofBe_word, ofBe_beBytes,
    Nat.mod_eq_of_lt (by decide)]
  exact State.writeWord_ntcEn hu .i3c w

theorem State.completes_i3cWrite_length (bytes : List Byte) (h : bytes.length ≠ 8) :
    s.completes (.i3cPrivateWrite bytes) [] [] (fun _ => True) := by
  refine State.completes_access rfl ?_ hs here trivial
  rw [State.onPath_up hu, if_neg h]

theorem State.completes_i3cRead (count : Nat) (h : 4 ≤ count) :
    s.completes (.i3cPrivateRead (beBytes 4 Reg.NDL_NTC_EN) count) [.id] []
      (fun t => t.id = { s.id with i3cOut := beBytes 4 (s.reg Reg.NDL_NTC_EN).toNat ++ List.replicate (count - 4) 0xFF }) := by
  have hx := State.i3cAnswer_ntcEn hu count h
  have ho : s.only [.id] [] (s.i3cAnswer (beBytes 4 Reg.NDL_NTC_EN) count) := by rw [hx]; exact here.i3cOut _
  exact State.completes_always (exec_i3cPrivateRead ..) (ho.still hs) ho (by rw [hx]; rfl)

theorem State.completes_setdasa (static dynamic : BitVec 7) (h : static.toNat = s.i3cStatic) :
    s.completes (.setdasa static dynamic) [.id] [] (fun t => t.id = { s.id with i3cDyn := some dynamic }) := by
  have hx := State.takeDasa_own hu dynamic h
  exact State.completes_local (exec_setdasa ..) (by rw [hx]; exact hs.2) (by rw [hx]; exact here.i3cDyn _) (by rw [hx]; rfl)

theorem State.completes_entdaa (dynamic : BitVec 7) (h : s.id.i3cDyn = none) :
    s.completes (.entdaa dynamic) [.id] [] (fun t => t.id = { s.id with i3cDyn := some dynamic }) := by
  have hx := State.takeDaa_free hu dynamic h
  exact State.completes_local (exec_entdaa ..) (by rw [hx]; exact hs.2) (by rw [hx]; exact here.i3cDyn _) (by rw [hx]; rfl)

end

/-- Settles O14: an I3C transfer of the right length is one register access; a dynamic address is a part of the device's identity. -/
theorem i3cAccesses : Obligations.I3cAccesses := fun _ hu hs =>
  ⟨State.completes_i3cWrite hu hs, State.completes_i3cWrite_length hu hs, State.completes_i3cRead hu hs, State.completes_setdasa hu hs,
    State.completes_setdasa_other hs, State.completes_entdaa hu hs⟩

end Sys2Proof.Machine
end

section
/-! PROOFS. Writes of registers, aliases, status registers and DEVNUM (R48 to R54, R60). -/

set_option Elab.async false

namespace Sys2Proof.Machine
open Sys2Proof
open State.only (here)

/-! ### Apply points after a write -/

/-- Where no field of a port waits, the training of a port applies nothing. -/
theorem State.trainApply_noPort (old s : State) (h : ∀ p, Reg.LINK_CTL p ∉ s.regs.wait ∧ Reg.LINK_PRBS_CTL p ∉ s.regs.wait) :
    State.trainApply old s = s := by
  have hp (p : Port) : s.applyPort p = s := by
    obtain ⟨h1, h2⟩ := h p
    simp [State.applyPort, h1, h2]
  have : ∀ (l : List Port), forEach l (fun p s =>
      if !(old.port p).sends && ((s.port p).tstate == .huntFull || (s.port p).tstate == .huntHalf) then s.applyPort p else s) s = s := by
    intro l
    induction l with
    | nil => rfl
    | cons p l ih =>
      rw [forEach_cons, hp, ite_self]
      exact ih
  exact this _

theorem State.completes_access_waiting {s u : State} {c : Instr} {f : State → Option State} {ps : List Part} {as : List Nat} {P : State → Prop}
    (hc : exec c s = access f s) (hf : f s = some u) (hs : u.calm)
    (hw : ∀ p, Reg.LINK_CTL p ∉ u.regs.wait ∧ Reg.LINK_PRBS_CTL p ∉ u.regs.wait) (ho : s.only ps as u) (hP : P (s.carry u)) :
    s.completes c ps as P := by
  refine ⟨_, hc.trans ?_, hP, ho.carry⟩
  simp only [access, hf, State.after]
  rw [State.settle_still _ _ hs, State.trainApply_noPort _ _ hw]

/-! ### What a stored word reads as -/

/-- The fields of a table row share no bit, and what each may store fits it. -/
def fieldsFit (fs : List FieldRow) : Bool :=
  fs.all (fun f => f.bits.ok && decide (f.least < 2 ^ (f.bits.hi + 1 - f.bits.lo)) && decide (f.most < 2 ^ (f.bits.hi + 1 - f.bits.lo))) &&
    decide (fs.Pairwise (fun f g => f.bits.apart g.bits = true))

theorem Fld.apart_symm {f g : Fld} (h : f.apart g = true) : g.apart f = true := by
  simp only [Fld.apart, Bool.or_eq_true, decide_eq_true_eq] at *
  exact h.symm

/-- Whether a field row takes a write. -/
def takesWrite (path : Path) (b : Block) (o : Nat) (lo : Bool) (touch : Fld → Bool) (r : FieldRow) : Bool :=
  (r.ty == .rw || (r.ty == .rwl && lo)) && touch r.bits && !guarded path b o r.bits

section
variable (path : Path) (b : Block) (o : Nat) (lo : Bool) (touch : Fld → Bool) (data : Word)

/-- A field apart from all of a row's reads as before the row is stored. -/
theorem get_storedWord_apart (f : Fld) : ∀ (fs : List FieldRow) (old : Word), (∀ g ∈ fs, g.bits.ok = true ∧ f.apart g.bits = true) →
    f.get (storedWord path b o lo touch data old fs) = f.get old
  | [], _, _ => rfl
  | g :: fs, old, h => by
    refine (get_storedWord_apart f fs _ fun x hx => h x (.tail _ hx)).trans ?_
    obtain ⟨hok, hap⟩ := h g (.head _)
    exact iteInduction (motive := fun w : Word => f.get w = f.get old) (fun _ => Fld.get_set_apart f g.bits hok hap _ _) (fun _ => rfl)

/-- R52, R54: each field of a row reads as its nearest limit where it takes the write, and as before where it does not. -/
theorem get_storedWord : ∀ (fs : List FieldRow) (old : Word), fieldsFit fs = true → ∀ f ∈ fs,
    f.get (storedWord path b o lo touch data old fs) =
      if takesWrite path b o lo touch f then max f.least (min f.most (f.get data)) else f.get old
  | g :: fs, old, h, f, hf => by
    simp only [fieldsFit, List.all_cons, Bool.and_eq_true, decide_eq_true_eq, List.pairwise_cons, List.all_eq_true] at h
    obtain ⟨⟨⟨⟨hok, hl⟩, hm⟩, hall⟩, hg, hp⟩ := h
    have hfit : fieldsFit fs = true := by
      simp only [fieldsFit, Bool.and_eq_true, decide_eq_true_eq, List.all_eq_true]
      exact ⟨hall, hp⟩
    rcases List.mem_cons.1 hf with rfl | hfs
    · refine (get_storedWord_apart path b o lo touch data f.bits fs _ fun x hx => ⟨(hall x hx).1.1, hg x hx⟩).trans ?_
      change f.bits.get (if takesWrite path b o lo touch f then _ else old) = _
      split
      · rw [Fld.get_set _ hok]
        exact Nat.mod_eq_of_lt (by omega)
      · rfl
    · refine (get_storedWord fs _ hfit f hfs).trans ?_
      have : f.get (if takesWrite path b o lo touch g then g.bits.set (max g.least (min g.most (g.get data))) old else old) = f.get old :=
        iteInduction (motive := fun w : Word => f.get w = f.get old) (fun _ => Fld.get_set_apart f.bits g.bits hok (Fld.apart_symm (hg f hfs)) _ _) (fun _ => rfl)
      exact congrArg (fun v => if takesWrite path b o lo touch f then max f.least (min f.most (f.get data)) else v) this

end

/-! ### Where an access lands -/

theorem State.resolve_block {s : State} {a o : Nat} {b : Block} {r : RegRow} (h : s.resolve a = .ok (b, o, r)) :
    blockOf a = (b, o) ∧ b.rows.find? (fun r => r.holds o) = some r := by
  unfold State.resolve at h
  generalize blockOf a = x at h ⊢
  obtain ⟨b', o'⟩ := x
  dsimp only at h
  split at h
  · cases h
  split at h
  · cases h
  split at h
  · rename_i r' hr
    cases h
    exact ⟨rfl, hr⟩
  · cases h

theorem State.resolve_row {s : State} {a o : Nat} {b : Block} {r : RegRow} (h : s.resolve a = .ok (b, o, r)) : r ∈ b.rows :=
  List.mem_of_find?_eq_some (State.resolve_block h).2

/-- The blocks whose registers do nothing beside holding what is written. -/
def plainBlock (b : Block) : Prop := b = .ndl ∨ b = .therm ∨ ∃ n : Nat, b = .ch n

theorem plainRows_fit : ∀ r ∈ ndlRegs ++ thermRegs ++ chRegs, fieldsFit r.fields = true ∧ r.fields.all (fun f => f.ty != .rwl) = true := by
  decide +kernel

section
variable {b : Block} (hb : plainBlock b)
include hb

theorem plainBlock_row {r : RegRow} (hr : r ∈ b.rows) : fieldsFit r.fields = true ∧ r.fields.all (fun f => f.ty != .rwl) = true := by
  refine plainRows_fit r ?_
  rcases hb with rfl | rfl | ⟨n, rfl⟩
  · exact List.mem_append_left _ (List.mem_append_left _ hr)
  · exact List.mem_append_left _ (List.mem_append_right _ hr)
  · exact List.mem_append_right _ hr

theorem plainBlock_ne : b ≠ .mbx ∧ b ≠ .svc ∧ b ≠ .fuseWin ∧ b ≠ .sensorWin := by
  rcases hb with rfl | rfl | ⟨n, rfl⟩ <;> simp

theorem plainBlock_guarded (path : Path) (o : Nat) (f : Fld) : guarded path b o f = false := by
  rcases hb with rfl | rfl | ⟨n, rfl⟩ <;> rfl

theorem plainBlock_act (path : Path) (o a : Nat) (wo : Fld → Nat) (touch : Fld → Bool) (old : Word) (s : State) : s.act path b o a wo touch old = s := by
  rcases hb with rfl | rfl | ⟨n, rfl⟩ <;> rfl

theorem plainBlock_link {a o : Nat} (h : blockOf a = (b, o)) (p : Port) : a ≠ Reg.LINK_CTL p ∧ a ≠ Reg.LINK_PRBS_CTL p := by
  constructor <;> rintro rfl <;> cases p <;> rw [show blockOf _ = _ from rfl] at h <;>
    rcases hb with rfl | rfl | ⟨n, rfl⟩ <;> cases h

end

/-! ### Writes of a plain register -/

/-- The wait for an apply point that a write begins. -/
def State.buffered (later : Bool) (a : Nat) (s : State) : State :=
  if later = true ∧ !s.regs.wait.contains a then { s with regs.wait := s.regs.wait ++ [a] } else s

theorem State.buffered_only (later : Bool) (a : Nat) (s : State) : s.only [.effects] [] (s.buffered later a) :=
  iteInduction (fun _ => here.wait _) (fun _ => here)

theorem State.buffered_wait {later : Bool} {a b : Nat} {s : State} (h : b ∈ (s.buffered later a).regs.wait) : b = a ∨ b ∈ s.regs.wait := by
  unfold State.buffered at h
  split at h
  · rcases List.mem_append.1 h with h | h
    · exact .inr h
    · exact .inl (List.mem_singleton.1 h)
  · exact .inr h

section
variable {s : State} (hu : s.up) (path : Path) {a : Nat} {b : Block} {o : Nat} {r : RegRow} (w : Word)

/-- R52, R54: a write of a whole word to a plain register. -/
theorem State.writeReg_plain (hu : s.up) (hr : s.resolve a = .ok (b, o, r)) (hst : r.status = false) (hb : plainBlock b)
    (hR : rsvBroken (fun _ => true) w (s.reg a) r.fields = false)
    (hro : ∀ f ∈ r.fields, (f.ty = .ro ∨ f.ty = .rsq) → f.get w = f.get (s.regView b o a)) :
    s.writeReg path a w (fun _ => true) =
      some ((s.setReg a (storedWord path b o s.power.lockOpen (fun _ => true) w (s.reg a) r.fields)).buffered
        (laterField (fun _ => true) r.fields) a) := by
  obtain ⟨hm, hv, hfw, hsw⟩ := plainBlock_ne hb
  have hba : bankAddr path b o a = a := by simp [bankAddr, hm]
  have hW : r.fields.any (fun f => f.ty == .rwl && true) = false := by
    simpa [List.any_eq_false] using (plainBlock_row hb (State.resolve_row hr)).2
  have hwr : roWrite path b o (fun _ => true) w (s.reg a) (s.regView b o a) r.fields = false := by
    simp only [roWrite, plainBlock_guarded hb, List.any_eq_false]
    intro f hf
    by_cases h : f.ty = .ro ∨ f.ty = .rsq
    · simp [hro f hf h]
    · rw [not_or] at h
      simp [h.1, h.2]
  rw [State.writeReg_ok path w _ (State.rawView_none (State.resolve_block hr).1 hfw hsw) hr hst hu.notStarting]
  simp only [State.writeFields, hba, hm, hv, false_and, if_false, hR, hW, hwr, Bool.false_eq_true, Bool.and_false, when_false, plainBlock_act hb]
  rfl

end

section
variable {s : State} {path : Path} (hu : s.up) (hs : s.still)
include hu hs

theorem State.completes_registerWrite {a : Nat} {b : Block} {o : Nat} {r : RegRow} (w : Word) (h4 : a % 4 = 0) (ha : a < 2 ^ 24)
    (hr : s.resolve a = .ok (b, o, r)) (hst : r.status = false) (hb : plainBlock b)
    (hR : rsvBroken (fun _ => true) w (s.reg a) r.fields = false)
    (hro : ∀ f ∈ r.fields, (f.ty = .ro ∨ f.ty = .rsq) → f.get w = f.get (s.regView b o a)) :
    s.completes (.registerWrite path a w) [.regs, .effects] [a]
      (fun t => ∀ f ∈ r.fields, f.get (t.reg a) = if f.ty = .rw then max f.least (min f.most (f.get w)) else f.get (s.reg a)) := by
  have hx : s.onPath path (State.writeWord path a w) = some _ :=
    (State.onPath_up hu path _).trans ((if_neg (by simp [h4])).trans
      ((if_neg (by simp [isAlias_low ha])).trans (State.writeReg_plain path w hu hr hst hb hR hro)))
  have ho : s.only [.regs, .effects] [a]
      ((s.setReg a (storedWord path b o s.power.lockOpen (fun _ => true) w (s.reg a) r.fields)).buffered (laterField (fun _ => true) r.fields) a) :=
    (here.setReg ..).step (State.buffered_only ..)
  refine State.completes_access_waiting rfl hx (ho.calm hs.1) (fun p => ?_) ho fun f hf => ?_
  · have hlink := plainBlock_link hb (State.resolve_block hr).1 p
    constructor <;> intro hm <;> rcases State.buffered_wait hm with h | h
    · exact hlink.1 h.symm
    · rw [State.setReg_regs_wait, hs.2] at h; cases h
    · exact hlink.2 h.symm
    · rw [State.setReg_regs_wait, hs.2] at h; cases h
  · rw [State.carry_reg, (State.buffered_only _ a _).reg a (by simp), State.reg_setReg,
      get_storedWord path b o _ _ w r.fields _ (plainBlock_row hb (State.resolve_row hr)).1 f hf]
    have hnl : f.ty ≠ .rwl := by simpa using List.all_eq_true.1 (plainBlock_row hb (State.resolve_row hr)).2 f hf
    simp [takesWrite, plainBlock_guarded hb, hnl]

theorem State.completes_ntcEnWrite (w : Word) :
    s.completes (.registerWrite path Reg.NDL_NTC_EN w) [.regs] [Reg.NDL_NTC_EN] (fun t => t.reg Reg.NDL_NTC_EN = w) := by
  have ho : s.only [.regs] [Reg.NDL_NTC_EN] (s.setReg Reg.NDL_NTC_EN w) := here.setReg ..
  exact State.completes_access rfl ((State.onPath_up hu path _).trans (State.writeWord_ntcEn hu path w)) (ho.still hs) ho (State.reg_setReg ..)

end

/-! ### CFG_TMO, and the aliases of NTC_EN -/

/-- `NDL.CFG_TMO`. -/
def cfgTmoRow : RegRow := ⟨"NDL.CFG_TMO", 0x4, 4, 1, false, [.of "RSV0" 31 10 .rsv 0 .imm false, .lim "TMO" 9 0 .rw 200 .imm false 10 1000]⟩

theorem State.resolve_cfgTmo {s : State} (h : s.stopped = false) : s.resolve Reg.NDL_CFG_TMO = .ok (.ndl, 0x4, cfgTmoRow) :=
  State.resolve_ok h (by decide) (by decide) (by simp) rfl (by decide) (by decide)

/-- A single bit of a word, replaced. -/
theorem getLsbD_setBits (n k : Nat) (v : Bool) (j : Nat) :
    (BitVec.ofNat 32 (setBits n k k (b2n v))).getLsbD j = (decide (j < 32) && if j = k then v else n.testBit j) := by
  have hb (m : Nat) : m.testBit j = (bits m j j == 1) := by
    have e : j + 1 - j = 1 := by omega
    rw [Nat.testBit_eq_decide_div_mod_eq, bits, e]
    rfl
  rw [BitVec.getLsbD_ofNat]
  congr 1
  rcases Nat.lt_trichotomy j k with h | rfl | h
  · rw [if_neg (by omega), hb, bits_setBits_below h _ _ (by omega), hb]
  · have e : j + 1 - j = 1 := by omega
    rw [if_pos rfl, hb, bits_setBits_self, e]
    cases v <;> rfl
  · rw [if_neg (by omega), hb, bits_setBits_above h _ _ (by omega), hb]

theorem and_getLsbD (w : Word) (j : Nat) : (decide (j < 32) && w.getLsbD j) = w.getLsbD j := by
  by_cases h : j < 32
  · simp [h]
  · simp [h, BitVec.getLsbD_of_ge w j (by omega)]

theorem get_high {a b : Word} {k : Nat} (h : a.toNat / 2 ^ k = b.toNat / 2 ^ k) (hi : Nat) : (⟨hi, k⟩ : Fld).get a = (⟨hi, k⟩ : Fld).get b := by
  simp only [Fld.get, bits, h]

section
variable {s : State} {path : Path} (hu : s.up) (hs : s.still)
include hu hs

theorem State.completes_cfgTmoWrite (w : Word) (h : w.toNat / 1024 = (s.reg Reg.NDL_CFG_TMO).toNat / 1024) :
    s.completes (.registerWrite path Reg.NDL_CFG_TMO w) [.regs] [Reg.NDL_CFG_TMO]
      (fun t => t.fld Reg.NDL_CFG_TMO F.NDL_CFG_TMO_TMO = max 10 (min 1000 (w.toNat % 1024))) := by
  have hrsv : rsvBroken (fun _ => true) w (s.reg Reg.NDL_CFG_TMO) cfgTmoRow.fields = false := by
    have := get_high (k := 10) h 31
    simp [rsvBroken, cfgTmoRow, FieldRow.of, FieldRow.lim, FieldRow.get, this]
  have hx := (State.onPath_up hu path (State.writeWord path Reg.NDL_CFG_TMO w)).trans ((if_neg (by decide)).trans ((if_neg (by decide)).trans
    (State.writeReg_plain path w hu (State.resolve_cfgTmo hu.stopped) rfl (.inl rfl) hrsv
      (fun f hf => by simp only [cfgTmoRow, List.mem_cons, List.not_mem_nil, or_false] at hf; rcases hf with rfl | rfl <;> simp [FieldRow.of, FieldRow.lim]))))
  have ho : s.only [.regs] [Reg.NDL_CFG_TMO] (s.setReg Reg.NDL_CFG_TMO
      (storedWord path .ndl 0x4 s.power.lockOpen (fun _ => true) w (s.reg Reg.NDL_CFG_TMO) cfgTmoRow.fields)) := here.setReg ..
  refine State.completes_access rfl hx (ho.still hs) ho ?_
  refine ((congrArg F.NDL_CFG_TMO_TMO.get ((State.carry_reg ..).trans (State.reg_setReg ..))).trans
    (get_storedWord path .ndl 0x4 _ _ w cfgTmoRow.fields _ (by decide) (.lim "TMO" 9 0 .rw 200 .imm false 10 1000) (by decide))).trans ?_
  simp [takesWrite, FieldRow.lim, FieldRow.get, guarded, Fld.get, bits]

omit hs in
/-- R48: a write of one bit of NTC_EN. -/
theorem State.writeWord_ntcEnAlias (k : Fin 32) (w : Word) :
    s.writeWord path (2 ^ 24 + Reg.NDL_NTC_EN / 4 * 128 + 4 * k.val) w =
      some (s.setReg Reg.NDL_NTC_EN (BitVec.ofNat 32 (setBits (s.reg Reg.NDL_NTC_EN).toNat k.val k.val (b2n (w.getLsbD 0))))) := by
  have hk := k.isLt
  have ha : 2 ^ 24 + Reg.NDL_NTC_EN / 4 * 128 + 4 * k.val = 18219392 + 4 * k.val := rfl
  have h4 : (18219392 + 4 * k.val) % 4 = 0 := by omega
  have hal : isAlias (18219392 + 4 * k.val) = true := by
    rw [isAlias, decide_eq_true (by omega), decide_eq_true (by omega)]
    rfl
  have hof : aliasOf (18219392 + 4 * k.val) = (Reg.NDL_NTC_EN, k.val) := by
    rw [aliasOf, Prod.mk.injEq]
    exact ⟨show _ = 0xB00C by omega, by omega⟩
  have hf : ntcEnRow.fields.find? (fun f => decide (f.bits.lo ≤ k.val) && decide (k.val ≤ f.bits.hi)) =
      some (.of "EN" 31 0 .rw 4294967295 .imm false) := by
    have : k.val ≤ 31 := by omega
    simp [ntcEnRow, FieldRow.of, this]
  have hb : bankAddr path .ndl 0xC Reg.NDL_NTC_EN = Reg.NDL_NTC_EN := by simp [bankAddr]
  rw [ha, State.writeWord, if_neg (by simp [h4]), if_pos hal, hof]
  simp only [State.writeAlias, State.resolve_ntcEn hu.stopped, hf, hb]
  rw [if_pos (by rfl), if_neg (by decide)]
  exact State.writeReg_ntcEn hu path _ _ rfl

theorem State.completes_ntcEnAlias (k : Fin 32) (w : Word) :
    s.completes (.aliasWrite path (2 ^ 24 + Reg.NDL_NTC_EN / 4 * 128 + 4 * k.val) w) [.regs] [Reg.NDL_NTC_EN]
      (fun t => (t.reg Reg.NDL_NTC_EN).getLsbD k.val = w.getLsbD 0 ∧
        ∀ j : Nat, j ≠ k.val → (t.reg Reg.NDL_NTC_EN).getLsbD j = (s.reg Reg.NDL_NTC_EN).getLsbD j) := by
  have ho : s.only [.regs] [Reg.NDL_NTC_EN] (s.setReg Reg.NDL_NTC_EN
      (BitVec.ofNat 32 (setBits (s.reg Reg.NDL_NTC_EN).toNat k.val k.val (b2n (w.getLsbD 0))))) := here.setReg ..
  refine State.completes_access rfl ((State.onPath_up hu path _).trans (State.writeWord_ntcEnAlias hu k w)) (ho.still hs) ho ?_
  rw [State.carry_reg, State.reg_setReg]
  exact ⟨by rw [getLsbD_setBits, if_pos rfl, decide_eq_true k.isLt, Bool.true_and],
    fun j hj => by rw [getLsbD_setBits, if_neg hj, BitVec.testBit_toNat, and_getLsbD]⟩

end

/-! ### Status registers -/

/-- The flags that a write of a word to a status register clears. -/
def clearMask (w : Word) (fs : List FieldRow) : Nat :=
  fs.foldl (fun (m : Nat) f => if f.ty == .rsq then m ||| (w.toNat &&& f.bits.mask.toNat) else m) 0

theorem testBit_mask (f : Fld) {k : Nat} (h : k < 32) : f.mask.toNat.testBit k = (decide (f.lo ≤ k) && decide (k ≤ f.hi)) := by
  rw [BitVec.testBit_toNat, Fld.mask, BitVec.getLsbD_ofNat, Nat.testBit_mul_two_pow, Nat.testBit_two_pow_sub_one, decide_eq_true h, Bool.true_and]
  by_cases hl : f.lo ≤ k
  · have : (k - f.lo < f.hi + 1 - f.lo) ↔ k ≤ f.hi := by omega
    simp [hl, this]
  · simp [hl]

theorem testBit_clearMask (w : Word) (fs : List FieldRow) {k : Nat} (h : k < 32) :
    (clearMask w fs).testBit k =
      (fs.any (fun f => f.ty == .rsq && decide (f.bits.lo ≤ k) && decide (k ≤ f.bits.hi)) && w.getLsbD k) := by
  have gen (m : Nat) : (fs.foldl (fun (m : Nat) f => if f.ty == .rsq then m ||| (w.toNat &&& f.bits.mask.toNat) else m) m).testBit k =
      (m.testBit k || (fs.any (fun f => f.ty == .rsq && decide (f.bits.lo ≤ k) && decide (k ≤ f.bits.hi)) && w.getLsbD k)) := by
    induction fs generalizing m with
    | nil => simp
    | cons f fs ih =>
      rw [List.foldl_cons, ih, List.any_cons]
      by_cases hf : f.ty = .rsq
      · simp only [hf, beq_self_eq_true, if_true, Nat.testBit_or, Nat.testBit_and, testBit_mask _ h, BitVec.testBit_toNat, Bool.true_and]
        cases m.testBit k <;> cases w.getLsbD k <;> simp
      · have : (f.ty == FTy.rsq) = false := by simpa using hf
        simp [this]
  rw [clearMask, gen, Nat.zero_testBit, Bool.false_or]

section
variable {s : State} {path : Path} (hu : s.up) (hs : s.still) {a : Nat} {b : Block} {o : Nat} {r : RegRow} (w : Word)
include hu hs

omit hs in
theorem State.writeWord_status (h4 : a % 4 = 0) (ha : a < 2 ^ 24) (hr : s.resolve a = .ok (b, o, r)) (hv : s.rawView a = none)
    (hst : r.status = true) : s.writeWord path a w = some (s.statusReg a r w) := by
  rw [State.writeWord, if_neg (by simp [h4]), if_neg (by simp [isAlias_low ha])]
  simp only [State.writeReg, hv, hr, hst, if_true]
  exact if_neg fun h => hu.notStarting h

theorem State.completes_statusWrite (h4 : a % 4 = 0) (ha : a < 2 ^ 24) (hr : s.resolve a = .ok (b, o, r)) (hv : s.rawView a = none)
    (hst : r.status = true) (hq : seqFld.get w = seqFld.get (s.reg a)) :
    s.completes (.statusWrite path a w) [.regs] [a]
      (fun t => ∀ k < 32, (t.reg a).getLsbD k =
        ((s.reg a).getLsbD k && !(r.fields.any (fun f => f.ty == .rsq && decide (f.bits.lo ≤ k) && decide (k ≤ f.bits.hi)) && w.getLsbD k))) := by
  have hx : s.statusReg a r w = s.setReg a (s.reg a &&& ~~~(BitVec.ofNat 32 (clearMask w r.fields))) := if_pos hq
  have ho : s.only [.regs] [a] (s.statusReg a r w) := by rw [hx]; exact here.setReg ..
  refine State.completes_access rfl ((State.onPath_up hu path _).trans (State.writeWord_status hu w h4 ha hr hv hst)) (ho.still hs) ho
    fun k hk => ?_
  rw [State.carry_reg, hx, State.reg_setReg, BitVec.getLsbD_and, BitVec.getLsbD_not, BitVec.getLsbD_ofNat, testBit_clearMask w r.fields hk,
    decide_eq_true hk, Bool.true_and, Bool.true_and]

theorem State.completes_statusWrite_stale (h4 : a % 4 = 0) (ha : a < 2 ^ 24) (hr : s.resolve a = .ok (b, o, r)) (hv : s.rawView a = none)
    (hst : r.status = true) (hq : seqFld.get w ≠ seqFld.get (s.reg a)) :
    s.completes (.statusWrite path a w) [.regs] [a]
      (fun t => t.fld a staleFld = 1 ∧ ∀ k < 32, k ≠ 15 → (t.reg a).getLsbD k = (s.reg a).getLsbD k) := by
  have hx : s.statusReg a r w = s.setFld a staleFld 1 := if_neg hq
  have ho : s.only [.regs] [a] (s.statusReg a r w) := by rw [hx]; exact here.setFld ..
  refine State.completes_access rfl ((State.onPath_up hu path _).trans (State.writeWord_status hu w h4 ha hr hv hst)) (ho.still hs) ho ?_
  rw [hx, State.carry_fld, State.fld_setFld _ _ (by decide)]
  refine ⟨rfl, fun k hk h15 => ?_⟩
  rw [State.carry_reg, State.setFld, State.reg_setReg]
  exact (getLsbD_setBits (k := 15) (v := true) ..).trans (by rw [if_neg h15, BitVec.testBit_toNat, and_getLsbD])

end

/-! ### DEVNUM -/

/-- `IDENT.DEVNUM`. -/
def devnumRow : RegRow := ⟨"IDENT.DEVNUM", 0xC, 4, 1, false,
  [.of "RSV0" 31 7 .rsv 0 .imm false, .of "NUM_VALID" 6 6 .rw 0 .imm false, .of "NUM" 5 0 .rw 0 .imm false]⟩

theorem State.resolve_devnum {s : State} (h : s.stopped = false) : s.resolve Reg.IDENT_DEVNUM = .ok (.ident, 0xC, devnumRow) :=
  State.resolve_ok h (by decide) (by decide) (by simp) rfl (by decide) (by decide)

theorem rsvBroken_devnum {w old : Word} (h : w.toNat / 128 = old.toNat / 128) : rsvBroken (fun _ => true) w old devnumRow.fields = false := by
  have := get_high (k := 7) h 31
  simp [rsvBroken, devnumRow, FieldRow.of, FieldRow.get, this]

/-- R60: the paths on which DEVNUM is taken. -/
def wardenPath (path : Path) : Bool := path == .ownWarden || path == .cfgWarden

theorem guarded_devnum {path : Path} (f : Fld) : guarded path .ident 0xC f = (decide (f.hi ≤ 6) && !wardenPath path) := by
  simp [guarded, wardenPath, bne, Bool.and_assoc]

/-- A number and its mark, beside reserved bits that stay, make up the word of DEVNUM. -/
theorem storedWord_devnum {path : Path} (hp : wardenPath path = true) (lo : Bool) {w old : Word} (h : w.toNat / 128 = old.toNat / 128) :
    storedWord path .ident 0xC lo (fun _ => true) w old devnumRow.fields = w := by
  have hw := w.isLt
  have ho := old.isLt
  refine BitVec.eq_of_toNat_eq ?_
  simp [storedWord, devnumRow, FieldRow.of, FieldRow.get, guarded_devnum, hp, Fld.get, Fld.set, bits, setBits]
  omega

theorem storedWord_devnum_refused {path : Path} (hp : wardenPath path = false) (lo : Bool) (w old : Word) :
    storedWord path .ident 0xC lo (fun _ => true) w old devnumRow.fields = old := by
  simp [storedWord, devnumRow, FieldRow.of, guarded_devnum, hp]

theorem State.act_devnum (path : Path) (a : Nat) (wo : Fld → Nat) (touch : Fld → Bool) (old : Word) (s : State) :
    s.act path .ident 0xC a wo touch old = if wardenPath path then s.raise Reg.IDENT_STATUS F.IDENT_STATUS_NUM_CHANGED else s := by
  cases path <;> rfl

section
variable {s : State} {path : Path} (hu : s.up) (hs : s.still) {w : Word} (h : w.toNat / 128 = (s.reg Reg.IDENT_DEVNUM).toNat / 128)
include hu h

theorem State.writeWord_devnum :
    s.writeWord path Reg.IDENT_DEVNUM w =
      some ((when (roWrite path .ident 0xC (fun _ => true) w (s.reg Reg.IDENT_DEVNUM) (s.regView .ident 0xC Reg.IDENT_DEVNUM) devnumRow.fields)
        (State.accFlag path F.MBX_ACC_STATUS_RO_WRITE)
        (s.setReg Reg.IDENT_DEVNUM (storedWord path .ident 0xC s.power.lockOpen (fun _ => true) w (s.reg Reg.IDENT_DEVNUM) devnumRow.fields))).act path
          .ident 0xC Reg.IDENT_DEVNUM (woOf path .ident 0xC (fun _ => true) w) (fun _ => true) (s.reg Reg.IDENT_DEVNUM)) := by
  rw [State.writeWord, if_neg (by decide), if_neg (by decide),
    State.writeReg_ok path w _ (State.rawView_none (b := .ident) (o := 0xC) (by decide) (by decide) (by decide)) (State.resolve_devnum hu.stopped) rfl
      hu.notStarting,
    State.writeFields_stored path (by decide) (by decide) (rsvBroken_devnum h) 
      (fun hl => absurd hl (by decide)) (by decide)]

include hs

theorem State.completes_devnumWrite (hp : path = .ownWarden ∨ path = .cfgWarden) :
    s.completes (.devnumWrite path w) [.regs] [Reg.IDENT_DEVNUM, Reg.IDENT_STATUS]
      (fun t => t.reg Reg.IDENT_DEVNUM = w ∧ t.num = w.toNat % 64 ∧ t.fld Reg.IDENT_STATUS F.IDENT_STATUS_NUM_CHANGED = 1) := by
  have hw : wardenPath path = true := by rcases hp with rfl | rfl <;> rfl
  have hro : roWrite path .ident 0xC (fun _ => true) w (s.reg Reg.IDENT_DEVNUM) (s.regView .ident 0xC Reg.IDENT_DEVNUM) devnumRow.fields = false := by
    simp [roWrite, devnumRow, FieldRow.of, guarded_devnum, hw]
  have hx := State.writeWord_devnum (path := path) hu h
  rw [hro, when_false, storedWord_devnum hw _ h, State.act_devnum, if_pos hw] at hx
  have ho : s.only [.regs] [Reg.IDENT_DEVNUM, Reg.IDENT_STATUS]
      ((s.setReg Reg.IDENT_DEVNUM w).raise Reg.IDENT_STATUS F.IDENT_STATUS_NUM_CHANGED) := (here.setReg ..).raise ..
  have hreg : ((s.setReg Reg.IDENT_DEVNUM w).raise Reg.IDENT_STATUS F.IDENT_STATUS_NUM_CHANGED).reg Reg.IDENT_DEVNUM = w := by
    rw [State.reg_raise_ne (by decide), State.reg_setReg]
  refine State.completes_access rfl ((State.onPath_up hu path _).trans hx) (ho.still hs) ho
    ⟨(State.carry_reg ..).trans hreg, ?_, (State.carry_fld ..).trans (State.fld_raise _ _ (by decide) _)⟩
  refine ((State.carry_fld ..).trans (congrArg F.IDENT_DEVNUM_NUM.get hreg)).trans ?_
  simp [F.IDENT_DEVNUM_NUM, Fld.get, bits]

theorem State.completes_devnumWrite_refused (h1 : path ≠ .ownWarden) (h2 : path ≠ .cfgWarden) :
    s.completes (.devnumWrite path w) [.regs] [Reg.MBX_ACC_STATUS] (fun t => t.num = s.num ∧ t.numValid = s.numValid) := by
  have hw : wardenPath path = false := by simp [wardenPath, h1, h2]
  have hx := State.writeWord_devnum (path := path) hu h
  rw [storedWord_devnum_refused hw, State.act_devnum, if_neg (by simp [hw])] at hx
  have ho : s.only [.regs] [Reg.MBX_ACC_STATUS]
      (when (roWrite path .ident 0xC (fun _ => true) w (s.reg Reg.IDENT_DEVNUM) (s.regView .ident 0xC Reg.IDENT_DEVNUM) devnumRow.fields)
        (State.accFlag path F.MBX_ACC_STATUS_RO_WRITE) (s.setReg Reg.IDENT_DEVNUM (s.reg Reg.IDENT_DEVNUM))) :=
    ((State.setReg_same_only _ s).mono).cond_ (State.accFlag_only ..)
  have hn := ho.fld Reg.IDENT_DEVNUM F.IDENT_DEVNUM_NUM (by decide)
  have hv := ho.fld Reg.IDENT_DEVNUM F.IDENT_DEVNUM_NUM_VALID (by decide)
  refine State.completes_access rfl ((State.onPath_up hu path _).trans hx) (ho.still hs) ho
    ⟨(State.carry_fld ..).trans hn, ?_⟩
  exact congrArg (fun n : Nat => n == 1) ((State.carry_fld ..).trans hv)

end

/-- Settles O11: what a write stores is read from the table row of its register. -/
theorem registerWrites : Obligations.RegisterWrites := fun _ _ hu hs =>
  ⟨fun _ _ _ _ w h4 ha hr hst hb hR hro => State.completes_registerWrite hu hs w h4 ha hr hst hb hR hro, State.completes_ntcEnWrite hu hs,
    State.completes_cfgTmoWrite hu hs, State.completes_ntcEnAlias hu hs,
    fun _ _ _ _ w h4 ha hr hv hst hq => State.completes_statusWrite hu hs w h4 ha hr hv hst hq,
    fun _ _ _ _ w h4 ha hr hv hst hq => State.completes_statusWrite_stale hu hs w h4 ha hr hv hst hq,
    fun _ hp h => State.completes_devnumWrite hu hs h hp, fun _ h1 h2 h => State.completes_devnumWrite_refused hu hs h h1 h2⟩

end Sys2Proof.Machine
end

section
/-! PROOFS. Apply points (R54, R323). -/

set_option Elab.async false

namespace Sys2Proof.Machine
open Sys2Proof
open State.only (here)

/-! ### After a command that starts no port -/

theorem PortS.sends_hunting {x : PortS} (h : x.tstate = .huntFull ∨ x.tstate = .huntHalf) : x.sends = true := by
  rcases h with h | h <;> simp [PortS.sends, h]

/-- Where every port that hunts has sent before, nothing waits for the start of a training. -/
theorem State.trainApply_sends (old s : State) (h : ∀ p, (s.port p).tstate = .huntFull ∨ (s.port p).tstate = .huntHalf → (old.port p).sends = true) :
    State.trainApply old s = s := by
  have hp (p : Port) : (if !(old.port p).sends && ((s.port p).tstate == .huntFull || (s.port p).tstate == .huntHalf) then s.applyPort p else s) = s := by
    by_cases hh : (s.port p).tstate = .huntFull ∨ (s.port p).tstate = .huntHalf
    · simp [h p hh]
    · rw [not_or] at hh
      simp [hh.1, hh.2]
  have : ∀ (l : List Port), forEach l (fun p s =>
      if !(old.port p).sends && ((s.port p).tstate == .huntFull || (s.port p).tstate == .huntHalf) then s.applyPort p else s) s = s := by
    intro l
    induction l with
    | nil => rfl
    | cons p l ih => rw [forEach_cons, hp]; exact ih
  exact this _

/-- Where no port's training state changes, nothing waits for the start of a training. -/
theorem State.trainApply_same {old s : State} (h : ∀ p, (s.port p).tstate = (old.port p).tstate) : State.trainApply old s = s :=
  State.trainApply_sends old s fun p hp => PortS.sends_hunting (by rwa [h p] at hp)

theorem State.completes_always_calm {s : State} {c : Instr} {f : State → State} {ps : List Part} {as : List Nat} {P : State → Prop}
    (hc : exec c s = always f s) (hs : (f s).calm) (ht : ∀ p, ((f s).port p).tstate = (s.port p).tstate) (ho : s.only ps as (f s))
    (hP : P (s.carry (f s))) : s.completes c ps as P := by
  refine ⟨_, hc.trans ?_, hP, ho.carry⟩
  rw [always, run, State.after, State.settle_still _ _ hs, State.trainApply_same ht]

/-! ### A register takes effect -/

theorem State.applyReg_only (a : Nat) (s : State) : s.only [.effects] [] (s.applyReg a) :=
  State.only.wait (t := { s with regs.eff := AMap.set a (regReset s.id.role a) (s.reg a) s.regs.eff }) _ (here.eff _)

theorem State.applyReg_effReg (a : Nat) (s : State) : (s.applyReg a).effReg a = s.reg a := AMap.get_set_self ..

theorem State.applyReg_effReg_ne {a b : Nat} (h : b ≠ a) (s : State) : (s.applyReg a).effReg b = s.effReg b :=
  congrArg (Option.getD · (regReset s.id.role b)) (AMap.find_set_ne h ..)

theorem State.applyReg_wait (a : Nat) (s : State) : (s.applyReg a).regs.wait = s.regs.wait.filter (· != a) := rfl

theorem State.only.effReg {s t : State} {ps : List Part} {as : List Nat} (h : s.only ps as t) (a : Nat) (he : Part.effects ∉ ps := by decide)
    (hi : Part.id ∉ ps := by decide) : t.effReg a = s.effReg a := by
  have e : t.regs.eff = s.regs.eff := (h.2.1 _ he).1
  simp only [State.effReg, e, h.id' hi]

/-! ### The boundary of a channel -/

theorem State.applyChan_only (n : Nat) (s : State) : s.only [.effects] [] (s.applyChan n) :=
  iteInduction (fun _ => State.applyReg_only _ s) (fun _ => here)

theorem State.applyTier_idle {s : State} {t : Nat} (h : s.fld (Reg.CMN_STATUS t) F.CMN_STATUS_BCAST_PEND = 0) : s.applyTier t = s :=
  if_neg (by rw [h]; decide)

/-! ### A broadcast (R323) -/

/-- The word that a broadcast gives a channel's CTL. -/
def bcastWord (b w : Word) : Word :=
  putFields [(F.CH_CTL_NREF_DIST2, F.CMN_BCAST_NREF_DIST2.get b), (F.CH_CTL_NREF_K, F.CMN_BCAST_NREF_K.get b),
    (F.CH_CTL_PASR_KEEP, F.CMN_BCAST_PASR_KEEP.get b)] w

theorem get_bcastWord (b w : Word) : F.CH_CTL_PASR_KEEP.get (bcastWord b w) = F.CMN_BCAST_PASR_KEEP.get b := by
  refine (Fld.get_set F.CH_CTL_PASR_KEEP (by decide) _ _).trans (Nat.mod_eq_of_lt ?_)
  exact Nat.mod_lt _ (by decide)

/-- A broadcast reaches one channel. -/
def State.bcastStep (b : Word) (n : Nat) (s : State) : State := (s.setReg (Reg.CH_CTL n) (bcastWord b (s.reg (Reg.CH_CTL n)))).applyReg (Reg.CH_CTL n)

/-- A broadcast reaches the channels of its tier. -/
def State.bcast (t : Nat) (s : State) : State :=
  forEach ((List.range 8).map (8 * t + ·)) (State.bcastStep (s.reg (Reg.CMN_BCAST t))) (s.cond (Reg.CMN_STATUS t) F.CMN_STATUS_BCAST_PEND false)

theorem State.applyTier_bcast {s : State} {t : Nat} (h : s.fld (Reg.CMN_STATUS t) F.CMN_STATUS_BCAST_PEND = 1) : s.applyTier t = s.bcast t :=
  if_pos h

/-- A channel stands as a broadcast leaves it. -/
def State.bcastDone (b : Word) (n : Nat) (s : State) : Prop :=
  s.fld (Reg.CH_CTL n) F.CH_CTL_PASR_KEEP = F.CMN_BCAST_PASR_KEEP.get b ∧ s.effReg (Reg.CH_CTL n) = s.reg (Reg.CH_CTL n)

theorem State.bcastStep_only {b : Word} {n : Nat} {as : List Nat} (h : Reg.CH_CTL n ∈ as) (s : State) : s.only [.regs, .effects] as (s.bcastStep b n) :=
  ((here.setReg _ _ (by decide) h).step (State.applyReg_only ..) (by decide) (by intro _ h; cases h))

theorem State.bcastStep_done (b : Word) (n : Nat) (s : State) : (s.bcastStep b n).bcastDone b n := by
  refine ⟨?_, State.applyReg_effReg ..⟩
  refine ((State.applyReg_only ..).fld (Reg.CH_CTL n) _ (by intro h; cases h)).trans ?_
  exact (congrArg F.CH_CTL_PASR_KEEP.get (State.reg_setReg ..)).trans (get_bcastWord ..)

theorem chCtl_inj {m n : Nat} (h : Reg.CH_CTL m = Reg.CH_CTL n) : m = n := by
  simp only [Reg.CH_CTL, chBase] at h
  omega

theorem State.bcastStep_keeps (b : Word) (n m : Nat) (s : State) (h : s.bcastDone b m) : (s.bcastStep b n).bcastDone b m := by
  by_cases e : m = n
  · subst e
    exact State.bcastStep_done b m s
  · have hne : Reg.CH_CTL m ≠ Reg.CH_CTL n := fun h => e (chCtl_inj h)
    have hr : (s.bcastStep b n).reg (Reg.CH_CTL m) = s.reg (Reg.CH_CTL m) :=
      ((State.applyReg_only ..).reg (Reg.CH_CTL m) (by intro h; cases h)).trans (State.reg_setReg_ne hne ..)
    have he : (s.bcastStep b n).effReg (Reg.CH_CTL m) = s.effReg (Reg.CH_CTL m) := State.applyReg_effReg_ne hne _
    exact ⟨(congrArg F.CH_CTL_PASR_KEEP.get hr).trans h.1, he.trans (h.2.trans hr.symm)⟩

/-- The registers of a broadcast. -/
def bcastRegs (t : Nat) : List Nat := Reg.CMN_STATUS t :: (List.range 8).map (fun c => Reg.CH_CTL (8 * t + c))

theorem chCtl_bcastRegs {t n : Nat} (h : n ∈ (List.range 8).map (8 * t + ·)) : Reg.CH_CTL n ∈ bcastRegs t := by
  obtain ⟨c, hc, rfl⟩ := List.mem_map.1 h
  exact List.mem_cons_of_mem _ (List.mem_map.2 ⟨c, hc, rfl⟩)

theorem State.bcast_only (t : Nat) (s : State) : s.only [.regs, .effects] (bcastRegs t) (s.bcast t) :=
  (here.cond _ _ _ (by decide) (List.mem_cons_self ..)).each (fun _ hn u => State.bcastStep_only (chCtl_bcastRegs hn) u)

theorem State.bcast_done (t : Nat) (s : State) {c : Nat} (h : c < 8) : (s.bcast t).bcastDone (s.reg (Reg.CMN_BCAST t)) (8 * t + c) :=
  forEach_reaches (fun n s => s.bcastDone _ n) _ (State.bcastStep_done _) (fun a b => State.bcastStep_keeps _ a b) _ _
    (List.mem_map.2 ⟨c, List.mem_range.2 h, rfl⟩)

theorem State.bcast_pend (t : Nat) (s : State) : (s.bcast t).fld (Reg.CMN_STATUS t) F.CMN_STATUS_BCAST_PEND = 0 := by
  have h : ∀ u : State, u.only [.regs, .effects] ((List.range 8).map (fun c => Reg.CH_CTL (8 * t + c)))
      (forEach ((List.range 8).map (8 * t + ·)) (State.bcastStep (s.reg (Reg.CMN_BCAST t))) u) := fun u =>
    State.only.each (fun n hn u => State.bcastStep_only (by
      obtain ⟨c, hc, rfl⟩ := List.mem_map.1 hn
      exact List.mem_map.2 ⟨c, hc, rfl⟩) u) here
  refine ((h _).fld _ _ ?_).trans (State.fld_cond _ _ (by decide) false s)
  intro hm
  obtain ⟨c, hc, e⟩ := List.mem_map.1 hm
  have := List.mem_range.1 hc
  simp only [Reg.CH_CTL, chBase, Reg.CMN_STATUS, tierBase] at e
  omega

theorem State.applyChan_bcastDone {b : Word} {n m : Nat} {s : State} (h : s.bcastDone b m) : (s.applyChan n).bcastDone b m := by
  refine iteInduction (motive := fun t : State => t.bcastDone b m) (fun _ => ?_) (fun _ => h)
  by_cases e : m = n
  · subst e
    exact ⟨h.1, State.applyReg_effReg ..⟩
  · exact ⟨h.1, (State.applyReg_effReg_ne (fun h => e (chCtl_inj h)) _).trans h.2⟩

/-! ### The boundary of a port -/

theorem State.prbsCount_only (p : Port) (s : State) : s.only [.draws, .regs] ((List.range 8).map (Reg.LINK_PRBS_ERR p)) (s.prbsCount p) :=
  iteInduction (fun _ => (here.draws _).each fun _ hl _ => here.setReg _ _ (by decide) (List.mem_map_of_mem (List.mem_of_mem_filter hl)))
    (fun _ => here)

/-- The waiting fields of the checkers of a port take effect. -/
def State.applyPrbs (p : Port) (s : State) : State := ((s.prbsCount p).applyReg (Reg.LINK_PRBS_CTL p)).sendState p

theorem State.applyPort_prbs {p : Port} {s : State} (hw : Reg.LINK_PRBS_CTL p ∈ s.regs.wait) (hc : Reg.LINK_CTL p ∉ s.regs.wait) :
    s.applyPort p = s.applyPrbs p := by
  have h1 : s.regs.wait.contains (Reg.LINK_PRBS_CTL p) = true := List.contains_iff_mem.2 hw
  have h2 : s.regs.wait.contains (Reg.LINK_CTL p) = false := Bool.eq_false_iff.2 fun h => hc (List.contains_iff_mem.1 h)
  simp only [State.applyPort, h1, h2, if_true]
  rfl

/-- What the counting and the fields of the checkers leave before the port sends on. -/
abbrev State.prbsTaken (p : Port) (s : State) : State := (s.prbsCount p).applyReg (Reg.LINK_PRBS_CTL p)

theorem State.prbsTaken_only (p : Port) (s : State) :
    s.only [.effects, .ports, .regs, .draws] ((List.range 8).map (Reg.LINK_PRBS_ERR p)) (s.prbsTaken p) :=
  (State.prbsCount_only p s).mono.step (State.applyReg_only ..) (by decide) (by intro _ h; cases h)

theorem State.applyPrbs_only (p : Port) (s : State) :
    s.only [.effects, .ports, .regs, .draws] ((List.range 8).map (Reg.LINK_PRBS_ERR p)) (s.applyPrbs p) :=
  (State.prbsTaken_only p s).step (State.sendState_only ..) (by decide) (by intro _ h; cases h)

theorem State.prbsTaken_port (p : Port) (s : State) (q : Port) : (s.prbsTaken p).port q = s.port q :=
  ((State.applyReg_only (Reg.LINK_PRBS_CTL p) (s.prbsCount p)).port q).trans ((State.prbsCount_only p s).port q)

theorem State.applyPrbs_tstate (p : Port) (s : State) (q : Port) : ((s.applyPrbs p).port q).tstate = (s.port q).tstate := by
  have h := congrArg PortS.tstate (State.sendState_ports p (s.prbsTaken p) q)
  have k := congrArg PortS.tstate (State.prbsTaken_port p s q)
  exact Eq.trans h k

theorem State.applyPrbs_effReg (p : Port) (s : State) : (s.applyPrbs p).effReg (Reg.LINK_PRBS_CTL p) = s.reg (Reg.LINK_PRBS_CTL p) := by
  refine ((State.sendState_only ..).effReg _).trans ((State.applyReg_effReg ..).trans ((State.prbsCount_only p s).reg _ ?_))
  intro hm
  obtain ⟨l, -, e⟩ := List.mem_map.1 hm
  simp only [Reg.LINK_PRBS_CTL, Reg.LINK_PRBS_ERR] at e
  omega

theorem State.applyPrbs_wait (p : Port) (s : State) : (s.applyPrbs p).regs.wait = s.regs.wait.filter (· != Reg.LINK_PRBS_CTL p) := by
  refine ((State.sendState_only ..).wait').trans ?_
  exact congrArg (List.filter (· != Reg.LINK_PRBS_CTL p)) (State.prbsCount_only p s).wait'

/-! ### The units -/

section
variable {s : State} (ha : s.awake = true)
include ha

theorem State.applyUnit_chan (n : Fin 32) :
    s.applyUnit (.chan n) = (if n.val % 8 = 0 then s.applyTier (n.val / 8) else s).applyChan n.val := by
  simp only [State.applyUnit, ha, Bool.not_true, if_neg Bool.false_ne_true]

theorem State.applyUnit_tier (t : Fin 4) : s.applyUnit (.tier t) = (s.applyTier t.val).applyChan (8 * t.val) := by
  simp only [State.applyUnit, ha, Bool.not_true, if_neg Bool.false_ne_true]

theorem State.applyUnit_port {p : Port} (h : (s.port p).sends = true) : s.applyUnit (.port p) = s.applyPort p := by
  simp only [State.applyUnit, ha, h, Bool.not_true, if_neg Bool.false_ne_true, if_true]

theorem State.applyUnit_other {u : ApplyUnit} (h : u = .census ∨ u = .reset ∨ ∃ q : Nat, u = .queue q) : s.applyUnit u = s := by
  obtain rfl | rfl | ⟨q, rfl⟩ := h <;> simp only [State.applyUnit, ha, Bool.not_true, if_neg Bool.false_ne_true]

/-- The boundary of a channel's unit, where no broadcast waits. -/
theorem State.applyUnit_ctl {n : Fin 32} {u : ApplyUnit} (hu : u = .chan n ∨ ∃ k : Fin 4, n.val = 8 * k.val ∧ u = .tier k)
    (hw : Reg.CH_CTL n.val ∈ s.regs.wait) (hb : n.val % 8 = 0 → s.fld (Reg.CMN_STATUS (n.val / 8)) F.CMN_STATUS_BCAST_PEND = 0) :
    s.applyUnit u = s.applyReg (Reg.CH_CTL n.val) := by
  have hc : s.applyChan n.val = s.applyReg (Reg.CH_CTL n.val) := if_pos (List.contains_iff_mem.2 hw)
  obtain rfl | ⟨k, hk, rfl⟩ := hu
  · refine (State.applyUnit_chan ha n).trans (Eq.trans (congrArg _ ?_) hc)
    split
    · exact State.applyTier_idle (hb ‹_›)
    · rfl
  · have hb' := hb (by omega)
    rw [show n.val / 8 = k.val by omega] at hb'
    rw [State.applyUnit_tier ha, State.applyTier_idle hb', ← hk, hc]

/-- The boundary of a tier's unit, where a broadcast waits. -/
theorem State.applyUnit_bcast {k : Fin 4} {u : ApplyUnit} (hu : u = .tier k ∨ ∃ n : Fin 32, n.val = 8 * k.val ∧ u = .chan n)
    (hp : s.fld (Reg.CMN_STATUS k.val) F.CMN_STATUS_BCAST_PEND = 1) :
    s.applyUnit u = (s.bcast k.val).applyChan (8 * k.val) := by
  obtain rfl | ⟨n, hn, rfl⟩ := hu
  · rw [State.applyUnit_tier ha, State.applyTier_bcast hp]
  · rw [State.applyUnit_chan ha, if_pos (by omega), show n.val / 8 = k.val by omega, State.applyTier_bcast hp, hn]

end

/-- Settles O13: each unit's boundary gives its waiting fields their effect at once; a broadcast's channels are apart. -/
theorem applyPoints : Obligations.ApplyPoints := by
  intro s ha hs
  refine ⟨fun n u hw hu hb => ?_, fun k u hp hu => ?_, fun p hw hc hsend => ?_, fun u hu hw => ?_⟩
  · have h := State.applyUnit_ctl ha hu hw hb
    have ho : s.only [.effects] [] (s.applyUnit u) := h ▸ State.applyReg_only _ s
    refine State.completes_always_calm rfl (ho.calm hs) (fun p => congrArg PortS.tstate (ho.port p)) ho ?_
    rw [h]
    exact ⟨State.applyReg_effReg .., rfl⟩
  · have h := State.applyUnit_bcast ha hu hp
    have ho : s.only [.regs, .effects] (bcastRegs k.val) (s.applyUnit u) :=
      h ▸ (State.bcast_only k.val s).step (State.applyChan_only ..) (by decide) (by intro _ h; cases h)
    refine State.completes_always_calm rfl (ho.calm hs) (fun p => congrArg PortS.tstate (ho.port p)) ho ?_
    rw [h]
    refine ⟨(State.carry_fld ..).trans (((State.applyChan_only ..).fld _ _ (by intro h; cases h)).trans (State.bcast_pend ..)), fun c hc => ?_⟩
    exact State.applyChan_bcastDone (State.bcast_done k.val s hc)
  · have h := (State.applyUnit_port ha hsend).trans (State.applyPort_prbs hw hc)
    have ho : s.only [.effects, .ports, .regs, .draws] ((List.range 8).map (Reg.LINK_PRBS_ERR p)) (s.applyUnit (.port p)) :=
      h ▸ State.applyPrbs_only p s
    have ht (q : Port) : ((s.applyUnit (.port p)).port q).tstate = (s.port q).tstate := by rw [h]; exact State.applyPrbs_tstate p s q
    refine State.completes_always_calm rfl (ho.calm hs) ht ho ?_
    rw [h]
    exact ⟨State.applyPrbs_effReg p s, State.applyPrbs_tstate p s p, State.applyPrbs_wait p s⟩
  · have h := State.applyUnit_other ha hu
    have ho : s.only [] [] (s.applyUnit u) := by rw [h]; exact here
    exact State.completes_always_calm rfl (ho.calm hs) (fun p => congrArg PortS.tstate (ho.port p)) ho trivial

end Sys2Proof.Machine
end

section
/-! PROOFS. A map write's initialisation against a burst of a copy: the fill that ends it closes every burst of the device's own copies. -/

set_option Elab.async false

namespace Sys2Proof.Machine
open Sys2Proof

/-- A map write of this device, whose initialisation is sent and not ended. -/
def fillJob : MapJob :=
  { dev := 0, entry := 0, old := [0, 0, 0, 0], new := [2147483648, 0, 0, 0], init := true, sent := true }

/-- A running device with a map write that initialises line 0 while the burst of a copy's read of that line is out. -/
def fillingCopy : State :=
  { power := { phase := .running }, prot := { jobs := [fillJob] },
    stack := { bursts := [(0, { acc := { id := 0, place := ({} : State).linePlace 0, wr := none, sc := 0, firm := false, origin := .copy 0, time := 0 },
                                data := [], md := 0 })] } }

theorem mapInitDone_fillingCopy :
    answers .mapInitDone fillingCopy (fun t => t.stack.bursts.length == fillingCopy.stack.bursts.length) = false := by
  decide +kernel

/-- Refutes O16: the end of a map write's initialisation fills its lines, and the fill takes away the burst of a copy that reads one of them; the
clause for MAP_INIT_DONE lists no change of the bursts. -/
theorem not_mapAndTestAccesses : ¬ Obligations.MapAndTestAccesses := by
  intro h
  obtain ⟨hinit, -⟩ := h fillingCopy ⟨rfl, rfl, rfl⟩ rfl rfl rfl rfl rfl rfl rfl rfl (by decide) rfl
  obtain ⟨t, ht, -, ho⟩ := hinit fillJob rfl rfl (by decide)
  have hb : t.stack.bursts = fillingCopy.stack.bursts := (ho.2.1 .bursts (by decide)).1
  have hf := mapInitDone_fillingCopy
  rw [answers_next ht, hb] at hf
  simp at hf

end Sys2Proof.Machine
end

section
/-! PROOFS. Ports: the two halves of a bonded host port, and a replay buffer that holds a QUIET row. -/

set_option Elab.async false

namespace Sys2Proof.Machine
open Sys2Proof

/-- A running manager with two ports of the host. -/
def hostPorts (a b : PortS) : State :=
  { id := { role := 2 }, power := { phase := .running }, net := { ports := { ca := a, cb := b } } }

theorem hostPorts_awake (a b : PortS) : (hostPorts a b).awake = true := rfl

theorem hostPorts_still (a b : PortS) : (hostPorts a b).still :=
  ⟨⟨rfl, rfl, rfl, rfl, rfl, rfl, rfl, by simp [hostPorts, State.engBusy, State.engTurns, State.tier, AMap.get, AMap.find], rfl, rfl⟩, rfl⟩

/-! ### A half joins the other -/

/-- A host port half at the end of its exchange with a partner of serial 0, beside a half that is up with no known partner. -/
def joining : State :=
  hostPorts { tstate := .cap, gotCap := true, gotSeen := true, full := true, peerCap := List.replicate 32 0xFF, ownCap := List.replicate 32 0xFF, bond := true }
    { tstate := .active }

theorem capExchangeDone_joining :
    answers (.capExchangeDone .ca) joining (fun t => decide ((t.port .ca).partner = some (capSerial (joining.port .ca).peerCap))) = false := by
  decide +kernel

/-- Refutes O19: a half of the host port that joins the half that is up takes over that half's partner, here none, where the clause for
CAP_EXCHANGE_DONE asks for the serial number of its own exchange. -/
theorem not_portCapability : ¬ Obligations.PortCapability := by
  intro h
  obtain ⟨-, hdone, -⟩ := h joining .ca rfl rfl
  obtain ⟨t, ht, ⟨-, -, hpartner, -⟩, -⟩ := hdone (hostPorts_still ..) rfl rfl rfl (by decide) (.inl rfl) (.inl (by decide +kernel))
  have hf := capExchangeDone_joining
  rw [answers_next ht, hpartner] at hf
  simp at hf

/-! ### A NAK before a QUIET row -/

/-- A port whose replay buffer holds one row: a QUIET message. -/
def quietBuffered : State := hostPorts { tstate := .active, buffer := [(0, ({} : State).quietMsg)] } {}

theorem nak_quietBuffered :
    answers (.nak .ca 0) quietBuffered (fun t => t.net.tx.length == 2) = false := by
  decide +kernel

/-- Refutes O20: a QUIET row of the replay buffer that leaves again is no message sent, where the clause for NAK lists every row of the buffer
among the messages sent. -/
theorem not_rowsAndReplay : ¬ Obligations.RowsAndReplay := by
  intro h
  obtain ⟨-, -, -, -, hnak, -⟩ := h quietBuffered .ca .ca rfl rfl (by decide) rfl
  obtain ⟨t, ht, ⟨-, hsent⟩, -⟩ := hnak 0 (by decide) (.inl rfl)
  have hf := nak_quietBuffered
  rw [answers_next ht, hsent] at hf
  revert hf
  decide

/-! ### QUIET on a bonded port -/

/-- The two halves of a bonded host port. -/
def bonded : State := hostPorts { tstate := .active, bond := true } { tstate := .active, bond := true }

theorem quiet_bonded : answers (.quiet .ca) bonded (fun t => decide (t.port .cb = bonded.port .cb)) = false := by
  decide +kernel

/-- Refutes O21: a QUIET block on one half of the bonded host port makes both halves quiet, where the clause for QUIET keeps every other port. -/
theorem not_portQuiet : ¬ Obligations.PortQuiet := by
  intro h
  obtain ⟨hquiet, -⟩ := h bonded .ca rfl rfl
  obtain ⟨t, ht, ⟨-, hother⟩, -⟩ := hquiet rfl
  have hf := quiet_bonded
  rw [answers_next ht, hother .cb (by decide)] at hf
  simp at hf

end Sys2Proof.Machine
end

section
/-! PROOFS. Requests that the manager keeps for one of its relays: what answers them goes to the relay, not to the host. -/

set_option Elab.async false

namespace Sys2Proof.Machine
open Sys2Proof

/-- An ACTIVE port with a free link and credits for messages of each class. -/
def freePort : PortS :=
  { tstate := .active, version := 2, held := { hdr := List.replicate 7 9, dat := List.replicate 3 9 },
    granted := { hdr := List.replicate 7 9, dat := List.replicate 3 9 } }

/-- A running manager with a host port and a trunk port up, and requests and fences of its own. -/
def managing (g : MgrS) : State :=
  { id := { role := 2 }, power := { phase := .running }, net := { ports := { ca := freePort, e := freePort } }, mgr := g }

theorem managing_up (g : MgrS) : (managing g).up := ⟨rfl, rfl, rfl⟩

theorem managing_still (g : MgrS) (hc : g.cfg = []) (hw : g.waitC = []) (hi : g.ingress = []) : (managing g).still :=
  ⟨⟨rfl, rfl, rfl, hc, rfl, rfl, by simp [managing, hi],
    by simp [managing, State.engBusy, State.engTurns, State.tier, AMap.get, AMap.find], rfl, hw⟩, rfl⟩

/-- The header of a message of device 5. -/
def farHdr : Hdr :=
  { port := .e, ndata := 0, sc := 0, tag := 0, src := 5, srcHost := false, dst := 0, dstHost := false, agent := .switch, flags := 0 }

/-- A message of device 5 for a shard of an engine. -/
def relayMsg (op : MOp) : Msg :=
  { op := op, h := farHdr, eng := some { queue := 0, dseq := 0, index := 0, epoch := 0, part := 0, status := 0 } }

/-- A request to device 5 for a shard of an engine. -/
def relayReq : MReq :=
  { m := relayMsg .wr64, dev := 5, line := 0, kid := 0, prot := false, sc := 0, time := 0, limit := 0, purpose := .host }

/-- Whether something was sent to the host. -/
def State.toldHost (s : State) : Bool := s.net.tx.any (fun m => m.1 == .ca)

/-- A state whose messages sent end with one to the host has told the host something. -/
theorem State.toldHost_of_sent {s t : State} {q : Msg} (h : t.net.tx = s.net.tx ++ [(.ca, q)]) : t.toldHost = true := by
  simp [toldHost, h]

/-! ### A response -/

/-- A manager that waits for device 5 to answer a shard's write. -/
def relayWaits : State := managing { reqs := [(0, relayReq)] }

theorem wdone_relayWaits : answers (.wdone farHdr 0) relayWaits State.toldHost = false := by
  decide +kernel

/-- Refutes O27: WDONE for a request that the manager relays for an engine is passed on to the engine's device, where the clause lists a message
to the host. -/
theorem not_deviceResponses : ¬ Obligations.DeviceResponses := by
  intro h
  obtain ⟨hpass, -⟩ := h relayWaits .e (.wdone farHdr 0) _ (managing_up _) (managing_still _ rfl rfl rfl) rfl rfl rfl (.inr (.inl rfl)) rfl rfl
    (by decide) (by decide) (by decide) rfl
  obtain ⟨t, ht, ⟨-, q, hsent, -⟩, -⟩ := hpass relayReq rfl rfl rfl rfl rfl rfl (by simp) (by decide) (by decide)
  have hf := wdone_relayWaits
  rw [answers_next ht, State.toldHost_of_sent hsent] at hf
  simp at hf

/-! ### A fence -/

/-- A fence of a shard's relay. -/
def relayFence : FenceS := { id := 0, m := relayMsg .fence, all := false, dev := 0 }

/-- A manager whose one fence was sent for a shard. -/
def relayFences : State := managing { fences := [relayFence] }

theorem fdone_relayFences : answers (.fdone relayFence.id) relayFences State.toldHost = false := by
  decide +kernel

/-- Refutes O28: FDONE of a fence that the manager keeps for one of its relays goes to the relay, where the clause lists a message to the host. -/
theorem not_fencesAndHints : ¬ Obligations.FencesAndHints := by
  intro h
  obtain ⟨-, hdone, -⟩ := h relayFences .ca (managing_up _) (managing_still _ rfl rfl rfl) rfl
  obtain ⟨t, ht, ⟨-, q, hsent, -⟩, -⟩ := hdone relayFence rfl (by decide) rfl (by decide)
  have hf := fdone_relayFences
  rw [answers_next ht, State.toldHost_of_sent hsent] at hf
  simp at hf

/-! ### A speculative read -/

/-- A speculative read for a shard whose owner could not read the tag. -/
def relayOpen : MReq := { relayReq with open_ := some ([], 0, true) }

/-- A manager that checks the tag of a read for a shard. -/
def relayOpens : State := managing { reqs := [(0, relayOpen)] }

theorem tagVerifyDone_relayOpens : answers (.tagVerifyDone 0) relayOpens State.toldHost = false := by
  decide +kernel

/-- Refutes O29: the SEAL of a read that the manager made for one of its relays goes to the relay, where the clause lists a message to the host. -/
theorem not_tagsAndTimeouts : ¬ Obligations.TagsAndTimeouts := by
  intro h
  obtain ⟨-, hvoid, -⟩ := h relayOpens 0 relayOpen (managing_up _) (managing_still _ rfl rfl rfl) rfl rfl rfl rfl rfl
  obtain ⟨t, ht, ⟨-, q, hsent, -⟩, -⟩ := hvoid [] 0 rfl rfl (by decide)
  have hf := tagVerifyDone_relayOpens
  rw [answers_next ht, State.toldHost_of_sent hsent] at hf
  simp at hf

/-! ### A merge entry of a line that is not protected -/

/-- A lone half of line 0 of device 5. -/
def farHalf : MergeE := { dev := 5, line := 0, kid := 0, lo := none, hi := none, who := [], time := 0, expires := 0, sc := 0 }

/-- A manager whose merge buffer holds a half of a line that its map does not protect. -/
def farMerging : State := managing { merges := [farHalf] }

theorem mergeWaitExpiry_farMerging :
    answers (.mergeWaitExpiry 5 farHalf.line) farMerging (fun t => t.mgr.reqs.all (fun r => r.2.prot)) = false := by
  decide +kernel

/-- Refutes O33: the manager's merge buffer may hold a half of a line that is not protected; its read is then a request for a line that is not
protected, where the clause asks for a protected one. -/
theorem not_mergeExpiry : ¬ Obligations.MergeExpiry := by
  intro h
  obtain ⟨-, hfar⟩ := h farMerging farHalf (managing_up _) (managing_still _ rfl rfl rfl) rfl
  obtain ⟨t, ht, ⟨-, ⟨r, hreqs, -, -, -, hprot, -⟩, -⟩, -⟩ := hfar 5 rfl (by decide) rfl rfl rfl rfl (by decide)
  have hf := mergeWaitExpiry_farMerging
  rw [answers_next ht, hreqs] at hf
  simp [hprot] at hf

end Sys2Proof.Machine
end

section
/-! PROOFS. An owner's request kept under another class than its message's: the end of the request judges the message's class (R193). -/

set_option Elab.async false

namespace Sys2Proof.Machine
open Sys2Proof

/-- A request of device 5 of class 0, admitted under class 15 at time 0. -/
def slowReq (op : MOp) : OReq :=
  { m := { op := op, h := farHdr }, from? := some .e, line := 0, kid := 0, prot := false, sc := 15, time := 0, stage := .reading, admitted := true, accs := 1 }

/-- The access of line 0 of a request, for itself or for its write. -/
def slowAcc (wr : Option (List Byte × Nat)) (o : Origin) : Acc :=
  { id := 0, place := ({} : State).linePlace 0, wr := wr, sc := 0, firm := false, origin := o, time := 0 }

/-- An owner at time 100 whose class 0 has a target of 1, with one request. -/
def slow (op : MOp) (c : StackS) : State :=
  { now := 100, power := { phase := .running }, net := { ports := { e := freePort } },
    regs := { file := [(Reg.SVC_TARGET 0, 1)] }, own := { reqs := [(0, slowReq op)] }, stack := c }

theorem slow_up (op : MOp) (c : StackS) : (slow op c).up := ⟨rfl, rfl, rfl⟩

theorem slow_still (op : MOp) (c : StackS) (ht : c.tiers = []) : (slow op c).still :=
  ⟨⟨rfl, rfl, rfl, rfl, rfl, rfl, rfl, by simp [slow, ht, State.engBusy, State.engTurns, State.tier, AMap.get], rfl, rfl⟩, rfl⟩

/-- Whether the count of misses of class 0 is that of reset. -/
def State.noMiss (s : State) : Bool := decide (s.reg (Reg.SVC_MISS 0) = 0)

/-! ### A read -/

/-- The burst of the request's read is out. -/
def slowRead : State := slow .rd64 { bursts := [(0, { acc := slowAcc none (.req 0), data := zeros 128, md := 0 })] }

theorem lineReadDone_slowRead : answers (.lineReadDone 0 []) slowRead State.noMiss = false := by
  decide +kernel

/-- Refutes O38: the premise bounds the target of the class under which the request is kept, while the end of the read judges the class of its
message: SVC_MISS of that class counts a miss, which the clause for a clean line does not list. -/
theorem not_readReturns : ¬ Obligations.ReadReturns := by
  intro h
  obtain ⟨hclean, -⟩ := h slowRead .e 0 0 _ (slowReq .rd64) (slow_up _ _) (slow_still _ _ rfl) rfl rfl rfl rfl rfl rfl (.inl rfl) (by decide)
  obtain ⟨t, ht, -, ho⟩ := hclean rfl (by decide) (by decide) (.inl rfl) rfl (by decide)
  have hm : t.noMiss = slowRead.noMiss := by rw [State.noMiss, ho.2.2 (Reg.SVC_MISS 0) (by decide), State.noMiss]
  have hf := lineReadDone_slowRead
  rw [answers_next ht, hm] at hf
  revert hf
  decide

/-! ### A write -/

/-- The access of the request's write waits in the admission queue of channel 0. -/
def slowWrite : State := slow .wr64 { chans := [(0, { admission := [slowAcc (some ([], 0)) (.wrOf 0)] })] }

theorem admissionQueueMove_slowWrite : answers (.admissionQueueMove 0) slowWrite State.noMiss = false := by
  decide +kernel

/-- Refutes O39: as for a read, the end of a write judges the class of its message, and SVC_MISS of that class counts a miss that the clause for
ADMISSION_QUEUE_MOVE does not list. -/
theorem not_admission : ¬ Obligations.Admission := by
  intro h
  obtain ⟨-, hmove⟩ := h slowWrite (slow_up ..) (slow_still _ _ rfl)
  obtain ⟨-, hwrite⟩ := hmove 0 (slowAcc (some ([], 0)) (.wrOf 0)) (by decide) rfl
  obtain ⟨t, ht, -, ho⟩ := hwrite 0 .e (slowReq .wr64) rfl rfl rfl rfl rfl rfl (by decide) (by decide)
  have hm : t.noMiss = slowWrite.noMiss := by rw [State.noMiss, ho.2.2 (Reg.SVC_MISS 0) (by decide), State.noMiss]
  have hf := admissionQueueMove_slowWrite
  rw [answers_next ht, hm] at hf
  revert hf
  decide

end Sys2Proof.Machine
end

section
/-! PROOFS. A channel that is saturated already: its next escalation sets no flag anew (R191). -/

set_option Elab.async false

namespace Sys2Proof.Machine
open Sys2Proof

/-- A firm access of class 0 that has waited since time 0. -/
def oldFirm : Acc :=
  { id := 0, place := ({} : State).linePlace 0, wr := none, sc := 0, firm := true, origin := .done, time := 0 }

/-- A device at time 100 whose channel 0 is saturated, with a firm access beyond its target of 1, while SVC_STATUS shows nothing. -/
def saturated : State :=
  { now := 100, power := { phase := .running }, regs := { file := [(Reg.SVC_TARGET 0, 1), (Reg.SVC_REACH 0, 1)] },
    stack := { chans := [(0, { sat := true, admission := [oldFirm] })] } }

theorem saturated_still : saturated.still :=
  ⟨⟨rfl, rfl, rfl, rfl, rfl, rfl, rfl, by simp [saturated, State.engBusy, State.engTurns, State.tier, AMap.get], rfl, rfl⟩, rfl⟩

/-- Whether SVC_STATUS shows a saturated channel. -/
def State.showsSat (s : State) : Bool := decide (s.fld Reg.SVC_STATUS F.SVC_STATUS_SAT_ANY = 1)

theorem escalation_saturated : answers (.escalation 0 0) saturated State.showsSat = false := by
  decide +kernel

/-- Refutes O42: the escalation of a channel that is saturated already leaves SVC_STATUS as it is, and in a state whose SVC_STATUS does not show
that channel SAT_ANY stays 0, where the clause has it 1. -/
theorem not_serviceClasses : ¬ Obligations.ServiceClasses := by
  intro h
  obtain ⟨hesc, -⟩ := h saturated ⟨rfl, rfl, rfl⟩ saturated_still
  obtain ⟨t, ht, ⟨-, hsat, -⟩, -⟩ := hesc 0 0 (by decide)
  obtain ⟨-, hany⟩ := hsat (by decide)
  have hf := escalation_saturated
  rw [answers_next ht, State.showsSat, hany] at hf
  simp at hf

end Sys2Proof.Machine
end

section
/-! PROOFS. A re-measurement of a pseudo-channel of another tier, kept with the calibration of tier 0. -/

set_option Elab.async false

namespace Sys2Proof.Machine
open Sys2Proof

/-- The finished measurements of a calibration of tier 0, among them a setting of pseudo-channel 16, which lies on tier 1. -/
def strayCal : CalS := { running := some .command, measured := true, newTrain := [(16, [(0, (0, 0))])] }

/-- A device whose tier 0 waits for the quiet window with these measurements, without automatic calibration. -/
def strayTrained : State :=
  { power := { phase := .running }, regs := { file := [(Reg.CLK_CAL_CTL, 0)] }, stack := { tiers := [(0, { cal := strayCal })] } }

theorem strayTrained_still : strayTrained.still :=
  ⟨⟨rfl, rfl, rfl, rfl, rfl, rfl, rfl, by decide, rfl, rfl⟩, rfl⟩

/-- Whether CH_STATUS of channel 8 is that of reset. -/
def State.plainCh8 (s : State) : Bool := decide (s.reg (Reg.CH_STATUS 8) = 0)

theorem quietWindow_strayTrained : answers (.quietWindow 0 []) strayTrained State.plainCh8 = false := by
  decide +kernel

/-- Refutes O45: the quiet window takes over every setting that is kept with the tier's calibration; one of a pseudo-channel of another tier changes
that tier's CH_STATUS, which the clause does not list. -/
theorem not_calibration : ¬ Obligations.Calibration := by
  intro h
  obtain ⟨-, -, hquiet, -⟩ := h strayTrained 0 ⟨rfl, rfl, rfl⟩ strayTrained_still rfl
  obtain ⟨t, ht, -, ho⟩ := hquiet rfl rfl rfl (by decide) (by decide)
  have hr : t.plainCh8 = strayTrained.plainCh8 := by rw [State.plainCh8, ho.2.2 (Reg.CH_STATUS 8) (by decide), State.plainCh8]
  have hf := quietWindow_strayTrained
  rw [answers_next ht, hr] at hf
  revert hf
  decide

end Sys2Proof.Machine
end

section
/-! PROOFS. A queue whose completion ring has failed is enabled again: its ring starts anew (R220). -/

set_option Elab.async false

namespace Sys2Proof.Machine
open Sys2Proof

/-- A context that may be enabled: a ring of 64 descriptors, a completion ring of its own of 64 records, and key 1. -/
def smallCtx : List Nat := [0, 0, 6 + 2 ^ 8, 0, 0, 0, 6, 1 + 2 ^ 12, 0, 0, 0, 0, 0, 0, 0, 0]

/-- A manager whose queue 0 is disabled, its completion ring failed. -/
def failedRing : State := { managing {} with que := { ctx := [(0, smallCtx)], cqs := [(0, { bad := true })] } }

theorem failedRing_still : failedRing.still := managing_still {} rfl rfl rfl

/-- Whether the manager keeps a completion ring. -/
def State.keepsRing (s : State) : Bool := !s.que.cqs.isEmpty

theorem qctxEnable_failedRing : answers (.qctxEnable .i3c 0) failedRing State.keepsRing = false := by
  decide +kernel

/-- Refutes O47: ENABLE of a queue whose completion ring has failed starts the ring anew, where the clause lets the contexts alone change. -/
theorem not_contextCommands : ¬ Obligations.ContextCommands := by
  intro h
  obtain ⟨hidle, -⟩ := h failedRing .i3c 0 0 ⟨rfl, rfl, rfl⟩ failedRing_still rfl (by decide)
  obtain ⟨-, -, henable, -⟩ := hidle (by decide)
  obtain ⟨t, ht, ⟨-, -, -, hque⟩, -⟩ := henable (by decide) (by decide) (by decide)
  have hcqs : t.que.cqs = failedRing.que.cqs := by rw [hque]
  have hf := qctxEnable_failedRing
  rw [answers_next ht, State.keepsRing, hcqs] at hf
  revert hf
  decide

end Sys2Proof.Machine
end

section
/-! PROOFS. Orders whose descriptor was cut by a DISABLE of its queue (R220): the warden ends them with ABORTED as soon as it looks at them. -/

set_option Elab.async false

namespace Sys2Proof.Machine
open Sys2Proof

/-- A ready descriptor of queue 0 with these words, cut. -/
def cutDesc (w : List Nat) (st : DStage) : DescS := { q := 0, i := 0, order := 0, words := w, stage := st, cut := true }

/-- A manager with one descriptor, its own entry of the topology table valid. -/
def ordered (d : DescS) (j : Option JobS) : State :=
  { managing {} with que := { descs := [d], job := j }, topo := { ents := [(0, { w0 := F.TOPO_ENT_W0_VALID.set 1 0 })] },
                     prot := { keys := [(1, { state := 1 })] }, stack := { tiers := [(0, { released := true })] } }

theorem ordered_up (d : DescS) (j : Option JobS) : (ordered d j).up := ⟨rfl, rfl, rfl⟩

/-- Whether the warden is at work. -/
def State.jobRuns (s : State) : Bool := s.que.job.isSome

/-! ### KEY_RETIRE -/

/-- KEY_RETIRE of key 1. -/
def cutRetire : DescS := cutDesc [0x44, 0, 0, 0, 0, 0, 0, 0, 2 ^ 16] .ready

theorem keyRetire_cutRetire : answers (.keyRetire 0 0) (ordered cutRetire none) State.jobRuns = false := by
  decide +kernel

theorem cutRetire_still : (ordered cutRetire none).still := by
  decide +kernel

/-- Refutes O49: KEY_RETIRE of a cut descriptor ends at once with ABORTED, where the clause has it at work. -/
theorem not_ordersAndKeys : ¬ Obligations.OrdersAndKeys := by
  intro h
  obtain ⟨-, -, -, -, hretire⟩ := h (ordered cutRetire none) 0 0 cutRetire (ordered_up ..) cutRetire_still rfl rfl rfl rfl rfl rfl (by decide)
  obtain ⟨-, hgoes⟩ := hretire (by decide) (by decide)
  obtain ⟨t, ht, ⟨hque, -⟩, -⟩ := hgoes (by decide)
  have hf := keyRetire_cutRetire
  rw [answers_next ht, State.jobRuns, hque] at hf
  simp at hf

/-! ### BIST_RUN -/

/-- BIST_RUN of the memory test of tier 0. -/
def cutBist : DescS := cutDesc [0x47, 0, 0, 0, 0, 0, 0, 0, 0, 2 ^ 8] .ready

theorem bistRun_cutBist : answers (.bistRun 0 0) (ordered cutBist none) State.jobRuns = false := by
  decide +kernel

theorem cutBist_still : (ordered cutBist none).still := by
  decide +kernel

/-- Refutes O50: BIST_RUN of a cut descriptor ends at once with ABORTED, where the clause has it wait for the memory test. -/
theorem not_maintenanceOrders : ¬ Obligations.MaintenanceOrders := by
  intro h
  obtain ⟨-, -, hbist, -⟩ := h (ordered cutBist none) 0 0 cutBist (ordered_up ..) cutBist_still rfl rfl rfl rfl rfl rfl (by decide) rfl (by decide)
  obtain ⟨t, ht, hque, -⟩ := hbist 0 (by decide) (by decide) (by decide) (by decide) (by decide) rfl
  have hf := bistRun_cutBist
  rw [answers_next ht, State.jobRuns, hque] at hf
  simp at hf

/-! ### FW_STAGE -/

/-- FW_STAGE of 128 bytes, at work. -/
def cutStage : DescS := cutDesc [0x48, 0, 0, 0, 0, 0, 128] .running

/-- Its job, with the erase under way. -/
def eraseJob : JobS := { q := 0, i := 0, stage := 1 }

theorem flashOpDone_cutStage : answers (.flashOpDone []) (ordered cutStage (some eraseJob)) State.jobRuns = false := by
  decide +kernel

theorem cutStage_still : ({ ordered cutStage (some eraseJob) with que.job := none } : State).still := by
  decide +kernel

/-- Refutes O51: with the end of the erase the warden ends a cut FW_STAGE with ABORTED, where the clause has it read its image. -/
theorem not_keysFlashAndFuses : ¬ Obligations.KeysFlashAndFuses := by
  intro h
  obtain ⟨hjob, -⟩ := h (ordered cutStage (some eraseJob)) cutStage (ordered_up ..) cutStage_still rfl rfl rfl (by decide) (by decide)
  obtain ⟨-, herase, -⟩ := hjob eraseJob rfl rfl rfl
  obtain ⟨t, ht, ⟨-, hj, -⟩, -⟩ := herase [] (by decide) rfl (by decide) (by decide) rfl (by decide)
  have hf := flashOpDone_cutStage
  rw [answers_next ht, State.jobRuns, hj] at hf
  simp at hf

end Sys2Proof.Machine
end

section
/-! PROOFS. A topology table with an entry beyond device 63: its device number is cut to six bits where its section is asked for (R479). -/

set_option Elab.async false

namespace Sys2Proof.Machine
open Sys2Proof

/-- A table with a valid entry 65 and a lost device 1. -/
def strayTable : AMap TopoE := [(65, { w0 := F.TOPO_ENT_W0_VALID.set 1 0 }), (1, { w0 := F.TOPO_ENT_W0_STATE.set 1 0 })]

/-- A manager with this table whose census is due. -/
def strayNumbered : State := { managing {} with topo := { ents := strayTable }, regs := { file := [(Reg.CENSUS_CTL, 0xFFFFFFFF)] } }

theorem strayNumbered_still : strayNumbered.still := managing_still {} rfl rfl rfl

theorem strayNumbered_halted (n : Nat) : (strayNumbered.ent n).halted = false := by
  simp only [State.ent, AMap.get, AMap.find, strayNumbered, strayTable]
  split_ifs <;> rfl

/-- Whether a census runs. -/
def State.inCensus (s : State) : Bool := s.flt.census.isSome

theorem censusInterval_strayNumbered : answers .censusInterval strayNumbered State.inCensus = false := by
  decide +kernel

/-- Refutes O56: the request for the section of entry 65 goes to device 1, which is lost; with its loss the census has all its sections and ends,
where the clause has it run. -/
theorem not_censusSteps : ¬ Obligations.CensusSteps := by
  intro h
  obtain ⟨hint, -⟩ := h strayNumbered ⟨rfl, rfl, rfl⟩ strayNumbered_still
  obtain ⟨t, ht, ⟨-, -, -, -, -, c, hc, -⟩, -⟩ := hint rfl (by decide) rfl strayNumbered_halted rfl
  have hf := censusInterval_strayNumbered
  rw [answers_next ht, State.inCensus, hc] at hf
  simp at hf

end Sys2Proof.Machine
end

section
/-! PROOFS. Events of a port that hunts, trains or loses its link (R78 to R86, R506). -/

set_option Elab.async false

namespace Sys2Proof.Machine
open Sys2Proof
open State.only (here)

/-! ### The latched flags of a link -/

/-- A flag of `LINK_x.STATUS` beside those that follow the port's state. -/
def Fld.latched (f : Fld) : Bool := f.flag && f.apart F.LINK_STATUS_UP && f.apart F.LINK_STATUS_DEGRADED && f.apart F.LINK_STATUS_RESCUE

section
variable {f : Fld} (hf : f.latched = true)
include hf

theorem State.linkFlags_latched (a : Nat) (q : Port) (s : State) : (s.linkFlags q).fld a f = s.fld a f := by
  simp only [Fld.latched, Bool.and_eq_true] at hf
  obtain ⟨⟨⟨hfl, hu⟩, hd⟩, hr⟩ := hf
  by_cases e : a = Reg.LINK_STATUS q
  · subst e
    unfold State.linkFlags
    refine iteInduction (motive := fun t : State => t.fld _ f = s.fld _ f) (fun _ => rfl) (fun _ => ?_)
    rw [State.fld_notice, State.fld_cond_apart _ _ _ (by decide) hfl hr, State.fld_cond_apart _ _ _ (by decide) hfl hd,
      State.fld_cond_apart _ _ _ (by decide) hfl hu]
  · exact (State.linkFlags_only q s).fld a f (by simpa using e)

theorem State.portFlags_latched {a : Nat} (ha : a ≠ Reg.NDL_STATUS) (p : Port) (s : State) : (s.portFlags p).fld a f = s.fld a f := by
  unfold State.portFlags
  refine iteInduction (motive := fun t : State => t.fld a f = s.fld a f) (fun _ => ?_) (fun _ => State.linkFlags_latched hf a p s)
  rw [((here (ps := [.regs]) (as := [Reg.NDL_STATUS])).cond ..).fld a f (by simpa using ha), State.linkFlags_latched hf, State.linkFlags_latched hf]

/-- Leaving ACTIVE keeps a latched flag that is set. -/
theorem State.leaveActive_latched (p : Port) (evt : Bool) {s : State} (hx : (s.port p).tstate ≠ .prbs) (hd : f.apart F.LINK_STATUS_DOWN_EVT = true) :
    (s.leaveActive p evt).fld (Reg.LINK_STATUS p) f = s.fld (Reg.LINK_STATUS p) f := by
  have hfl : f.flag = true := by simp only [Fld.latched, Bool.and_eq_true] at hf; exact hf.1.1.1
  unfold State.leaveActive
  rw [State.prbsCount_none p s hx]
  refine iteInduction (motive := fun t : State => t.fld _ f = s.fld _ f) (fun _ => rfl) (fun _ => ?_)
  rw [(State.leaveBond_only p _).fld _ _, State.raiseIf]
  exact iteInduction (motive := fun t : State => t.fld _ f = s.fld _ f) (fun _ => State.fld_raise_apart _ _ _ (by decide) hfl hd s) (fun _ => rfl)

end

theorem linkStatus_ne_ndl (p : Port) : Reg.LINK_STATUS p ≠ Reg.NDL_STATUS := by cases p <;> decide

/-- A hunt keeps RETRAIN. -/
theorem State.hunt_retrain (p : Port) (full : Bool) {s : State} (hx : (s.port p).tstate ≠ .prbs) :
    (s.hunt p full).fld (Reg.LINK_STATUS p) F.LINK_STATUS_RETRAIN = s.fld (Reg.LINK_STATUS p) F.LINK_STATUS_RETRAIN := by
  unfold State.hunt
  rw [State.portFlags_latched (by decide) (linkStatus_ne_ndl p)]
  refine Eq.trans ?_ (State.leaveActive_latched (by decide) p true hx (by decide))
  exact ((here (ps := [.ports]) (as := []).modPort ..).step (State.sendState_only ..)).fld _ _

/-- A hunt from ACTIVE flags that the link went down. -/
theorem State.hunt_down (p : Port) (full : Bool) {s : State} (hx : (s.port p).tstate = .active) :
    (s.hunt p full).fld (Reg.LINK_STATUS p) F.LINK_STATUS_DOWN_EVT = 1 := by
  unfold State.hunt
  rw [State.portFlags_latched (by decide) (linkStatus_ne_ndl p)]
  have hd : (s.leaveActive p true).fld (Reg.LINK_STATUS p) F.LINK_STATUS_DOWN_EVT = 1 := by
    unfold State.leaveActive
    rw [State.prbsCount_none p s (by rw [hx]; decide)]
    simp only [hx, bne_self_eq_false, Bool.false_eq_true, if_false]
    rw [(State.leaveBond_only p _).fld _ _]
    exact State.fld_raise _ _ (by decide) _
  refine Eq.trans ?_ hd
  exact ((here (ps := [.ports]) (as := []).modPort ..).step (State.sendState_only ..)).fld _ _

theorem State.newTraining_port (p : Port) (s : State) : ((s.newTraining p).port p).tstate = (s.port p).tstate := by
  rw [State.newTraining, State.port_modPort]

theorem State.train_retrain (p : Port) (full : Bool) {s : State} (hx : (s.port p).tstate ≠ .prbs) :
    (s.train p full).fld (Reg.LINK_STATUS p) F.LINK_STATUS_RETRAIN = s.fld (Reg.LINK_STATUS p) F.LINK_STATUS_RETRAIN :=
  (State.hunt_retrain p full (by rw [State.newTraining_port]; exact hx)).trans ((State.newTraining_only p s).fld _ _)

theorem State.relock_down (p : Port) {s : State} (hx : (s.port p).tstate = .active) :
    (s.relock p).fld (Reg.LINK_STATUS p) F.LINK_STATUS_DOWN_EVT = 1 := by
  rw [State.relock, State.fld_bump, State.fld_raise_apart _ _ _ (by decide) (by decide) (by decide)]
  exact State.hunt_down p _ (by rw [State.newTraining_port]; exact hx)

/-! ### A port that falls silent -/

theorem silent_find (l : List Nat) (k : Nat) (m : AMap LaneS) (h : k ∈ l ∨ (AMap.get k ({} : LaneS) m).lock = false) :
    (AMap.get k ({} : LaneS)
      (l.foldl (fun m l => AMap.put l { AMap.get l ({} : LaneS) m with lock := false, signal := some false } m) m)).lock = false := by
  induction l generalizing m with
  | nil => simpa using h
  | cons a l ih =>
    refine ih _ ?_
    by_cases e : k = a
    · subst e; exact .inr (by rw [AMap.get_put_self])
    · rcases h with h | h
      · exact .inl ((List.mem_cons.1 h).resolve_left e)
      · exact .inr (by rw [AMap.get_put_ne e]; exact h)

/-- The lanes of a silent port have lost lock. -/
theorem PortS.silent_lock (x : PortS) {l : Nat} (h : l < 8) : (AMap.get l ({} : LaneS) x.silent.lanes).lock = false :=
  silent_find _ l _ (.inl (List.mem_range.2 h))

/-- Putting a lane without lock locks none. -/
theorem mem_put_lock {k : Nat} {v : LaneS} {m : AMap LaneS} (hv : v.lock = false) (hm : ∀ e ∈ m, e.2.lock = false) : ∀ e ∈ AMap.put k v m, e.2.lock = false := by
  intro e he
  rcases AMap.mem_put he with rfl | h
  · exact hv
  · exact hm e h

/-- A port without a locked lane has none when it falls silent. -/
theorem PortS.silent_locked {x : PortS} (h : x.locked = []) : x.silent.locked = [] := by
  have hall (l : List Nat) (m : AMap LaneS) (hm : ∀ e ∈ m, e.2.lock = false) : ∀ e ∈ l.foldl (fun m l =>
      AMap.put l { AMap.get l ({} : LaneS) m with lock := false, signal := some false } m) m, e.2.lock = false := by
    induction l generalizing m with
    | nil => exact hm
    | cons a l ih => exact ih _ (mem_put_lock rfl hm)
  have := hall (List.range 8) x.lanes (by simpa [PortS.locked] using h)
  simpa [PortS.locked, PortS.silent] using this

/-! ### The events -/

section
variable {s : State} {p : Port} (ha : s.awake = true) (hw : s.regs.wait = [])
include ha hw

/-- A port that retrains, by a timeout or by its partner. -/
theorem State.completes_relock {c : Instr} {f : State → State} (hc : exec c s = onPort f s) (hf : f s = s.relock p) (hx : (s.port p).tstate ≠ .prbs) :
    s.completes c portParts (portRegs p)
      (fun t => (t.port p).tstate = (if (s.port p).full then .huntFull else .huntHalf) ∧ (t.port p).gotCap = false ∧
        t.fld (Reg.LINK_STATUS p) F.LINK_STATUS_RETRAIN = 1) := by
  obtain ⟨hst, -, hcap, -⟩ := State.train_port s p (s.port p).full
  refine State.completes_port ha hw hc (by rw [hf]; exact State.relock_only p s hx) (by decide) ?_
  rw [hf]
  refine ⟨?_, ?_, (State.carry_fld ..).trans (State.relock_flag s p)⟩
  · exact (congrArg PortS.tstate (State.relock_port s p)).trans hst
  · exact (congrArg PortS.gotCap (State.relock_port s p)).trans hcap

end

end Sys2Proof.Machine
end

section
/-! PROOFS. The state that each event of a port leads to: hunts, DOWN, and the flag of a retraining (R78, R80, R81, R85, R86, R506). -/

set_option Elab.async false

namespace Sys2Proof.Machine
open Sys2Proof
open State.only (here)

section
variable {s : State} {p : Port} (ha : s.awake = true) (hw : s.regs.wait = [])
include ha hw

theorem State.completes_huntTimeout (ht : (s.port p).tstate = .huntFull) (hst : (s.port p).stepping = false) :
    s.completes (.huntTimeout p) portParts (portRegs p) (fun t => (t.port p).tstate = .huntHalf ∧ (t.port p).full = false) := by
  have hf : s.huntTimeout p = s.hunt p false := if_pos ⟨ht, hst⟩
  obtain ⟨hs, hfull, -⟩ := State.hunt_port s p false
  refine State.completes_port (f := State.huntTimeout p) ha hw rfl (by rw [hf]; exact State.hunt_only p _ s (by rw [ht]; decide)) (by decide) ?_
  rw [hf]
  exact ⟨hs, hfull⟩

/-- A port without the lanes it needs goes down. -/
theorem State.completes_downEntry (ht : (s.port p).tstate = .huntFull ∨ (s.port p).tstate = .huntHalf) (hst : (s.port p).stepping = false)
    (h1 : 1 ≤ (s.port p).locked.length) (h4 : (s.port p).locked.length < 4) :
    s.completes (.downEntry p) portParts (portRegs p) (fun t => (t.port p).tstate = .down) := by
  have hf : s.downEntry p = s.goDown p := if_pos ⟨ht, hst, h1, h4⟩
  refine State.completes_port (f := State.downEntry p) ha hw rfl (by rw [hf]; exact State.goDown_only p s (by rcases ht with h | h <;> rw [h] <;> decide))
    (by decide) ?_
  rw [hf]
  have hp : ((s.goDown p).port p).tstate = .down := by
    unfold State.goDown
    rw [(State.portFlags_only p _).port p]
    have h := State.sendState_port p ((s.leaveActive p true).modPort p (fun x => { x with tstate := .down, stepping := false, bond := false }))
    rw [State.port_modPort] at h
    exact (congrArg PortS.tstate h :)
  exact hp

theorem State.completes_downRetry (ht : (s.port p).tstate = .down) :
    s.completes (.downRetry p) portParts (portRegs p) (fun t => (t.port p).tstate = if s.maxRate p then .huntFull else .huntHalf) := by
  have hf : s.downRetry p = s.freshHunt p := if_pos ht
  refine State.completes_port (f := State.downRetry p) ha hw rfl (by rw [hf]; exact State.freshHunt_only p s (by rw [ht]; decide)) (by decide) ?_
  rw [hf]
  exact (State.train_port _ p (s.maxRate p)).1

/-- R80: a port that has lost its signal, at its last active rate. -/
theorem State.completes_lossOfSignal (ht : (s.port p).tstate = .cap ∨ ((s.port p).tstate = .step ∧ (s.port p).stepping = false) ∨ (s.port p).tstate = .active) :
    s.completes (.lossOfSignal p) portParts (portRegs p)
      (fun t => (t.port p).tstate = (if s.lastRate p then .huntFull else .huntHalf) ∧ (t.port p).locked = [] ∧
        ((s.port p).tstate = .active → t.fld (Reg.LINK_STATUS p) F.LINK_STATUS_RETRAIN = 1)) := by
  obtain ⟨u, hu, hport, hflag, hf⟩ : ∃ u : State, s.only portParts (portRegs p) u ∧ u.port p = s.port p ∧
      ((s.port p).tstate = .active → u.fld (Reg.LINK_STATUS p) F.LINK_STATUS_RETRAIN = 1) ∧
      s.lossOfSignal p = (u.train p (u.lastRate p)).modPort p PortS.silent := by
    by_cases h : (s.port p).tstate = .active
    · have ho : s.only [.regs, .counts] [Reg.LINK_STATUS p] ((s.raise (Reg.LINK_STATUS p) F.LINK_STATUS_RETRAIN).bump (portSlot p 34) 1) :=
        (here.raise ..).bump ..
      refine ⟨_, ho.mono, ho.port p, fun _ => (State.fld_bump ..).trans (State.fld_raise _ _ (by decide) _), ?_⟩
      exact (if_pos ht).trans (by rw [if_pos h])
    · exact ⟨s, here, rfl, fun e => absurd e h, (if_pos ht).trans (by rw [if_neg h])⟩
  have hx : (u.port p).tstate ≠ .prbs := by rw [hport]; rcases ht with h | ⟨h, -⟩ | h <;> rw [h] <;> decide
  have hr : u.lastRate p = s.lastRate p := by
    have hc : u.fld (Reg.LINK_CTL p) F.LINK_CTL_MAX_RATE = s.fld (Reg.LINK_CTL p) F.LINK_CTL_MAX_RATE := hu.fld _ _ (by cases p <;> decide)
    simp only [State.lastRate, State.maxRate, hport, hc]
  obtain ⟨hst, -, -, -, hl⟩ := State.train_port u p (u.lastRate p)
  refine State.completes_port (f := State.lossOfSignal p) ha hw rfl
    (by rw [hf]; exact (hu.trans (State.train_only p _ u hx)).modPort ..) (by decide) ?_
  rw [hf]
  have hp : ((u.train p (u.lastRate p)).modPort p PortS.silent).port p = ((u.train p (u.lastRate p)).port p).silent := State.port_modPort ..
  refine ⟨?_, ?_, fun h => ?_⟩
  · exact (congrArg PortS.tstate hp).trans (hst.trans (by rw [hr]))
  · exact (congrArg PortS.locked hp).trans (PortS.silent_locked hl)
  · refine (State.carry_fld ..).trans (((here (ps := [.ports]) (as := []).modPort ..).fld _ _).trans ?_)
    exact (State.train_retrain p _ hx).trans (hflag h)

/-- A port that hunts notes that its signal is gone. -/
theorem State.completes_lossOfSignal_hunts (ht : (s.port p).tstate = .huntFull ∨ (s.port p).tstate = .huntHalf ∨ (s.port p).tstate = .down) :
    s.completes (.lossOfSignal p) [.ports] []
      (fun t => (t.port p).tstate = (s.port p).tstate ∧ (∀ l < 8, (AMap.get l ({} : LaneS) (t.port p).lanes).lock = false) ∧
        ∀ q : Port, q ≠ p → t.port q = s.port q) := by
  have hf : s.lossOfSignal p = (s.modPort p PortS.silent).modPort p (fun x => { x with firstLock := none }) := by
    refine (if_neg ?_).trans (if_pos ht)
    rcases ht with h | h | h <;> simp [h]
  refine State.completes_port (f := State.lossOfSignal p) ha hw rfl (by rw [hf]; exact (here.modPort ..).modPort ..) (by decide) ?_
  rw [hf]
  have hp : ((s.modPort p PortS.silent).modPort p (fun x => { x with firstLock := none })).port p = { (s.port p).silent with firstLock := none } := by
    rw [State.port_modPort, State.port_modPort]
  refine ⟨(congrArg PortS.tstate hp :), fun l hl => ?_, fun q hq => ?_⟩
  · rw [State.carry_port, hp]
    exact PortS.silent_lock (s.port p) hl
  · exact (State.port_modPort_ne hq _ _).trans (State.port_modPort_ne hq _ _)

theorem State.completes_stepSilenceEnd (ht : (s.port p).tstate = .step) (hst : (s.port p).stepping = true) :
    s.completes (.stepSilenceEnd p) portParts (portRegs p) (fun t => (t.port p).tstate = .huntFull ∧ (t.port p).stepping = true) := by
  have hf : s.stepHunt p = (s.hunt p true).modPort p (fun x => { x with stepping := true }) := if_pos ⟨ht, hst⟩
  refine State.completes_port (f := State.stepHunt p) ha hw rfl
    (by rw [hf]; exact (State.hunt_only p _ s (by rw [ht]; decide)).modPort ..) (by decide) ?_
  rw [hf]
  have hp := State.port_modPort p (fun x => { x with stepping := true }) (s.hunt p true)
  exact ⟨(congrArg PortS.tstate hp).trans (State.hunt_port s p true).1, (congrArg PortS.stepping hp :)⟩

theorem State.completes_stepUpFail (ht : (s.port p).tstate = .huntFull) (hst : (s.port p).stepping = true) :
    s.completes (.stepUpFail p) portParts (portRegs p)
      (fun t => (t.port p).tstate = .huntHalf ∧ capSerial (s.port p).peerCap ∈ (t.port p).noStep) := by
  have hf : s.stepFail p = ((s.hunt p false).modPort p (fun x => { x with
      noStep := if x.noStep.contains (capSerial (s.port p).peerCap) then x.noStep else x.noStep ++ [capSerial (s.port p).peerCap] })).bump
        (portSlot p 35) 1 := if_pos ⟨ht, hst⟩
  refine State.completes_port (f := State.stepFail p) ha hw rfl
    (by rw [hf]; exact ((State.hunt_only p _ s (by rw [ht]; decide)).modPort ..).bump ..) (by decide) ?_
  rw [hf]
  have hp := State.port_modPort p (fun x => { x with
      noStep := if x.noStep.contains (capSerial (s.port p).peerCap) then x.noStep else x.noStep ++ [capSerial (s.port p).peerCap] }) (s.hunt p false)
  refine ⟨(congrArg PortS.tstate hp).trans (State.hunt_port s p false).1, ?_⟩
  rw [State.carry_port, (here (ps := [.counts]) (as := []).bump ..).port p, hp]
  dsimp only
  split
  · exact List.contains_iff_mem.1 ‹_›
  · simp

end

/-- Settles O17: each event is one of the ways into a hunt or DOWN, whose effect on the port the lemmas above say. -/
theorem portHunting : Obligations.PortHunting := by
  intro s p ha hw
  refine ⟨fun h => State.completes_huntTimeout ha hw h, fun h => State.completes_downEntry ha hw h, fun h => State.completes_downRetry ha hw h,
    fun h => ?_, fun h => ?_, fun h => State.completes_lossOfSignal ha hw h, fun h => State.completes_lossOfSignal_hunts ha hw h,
    fun h => State.completes_stepSilenceEnd ha hw h, fun h => State.completes_stepUpFail ha hw h⟩
  · exact State.completes_relock (f := State.capTimeout p) ha hw rfl (if_pos h) (by rw [h]; decide)
  · exact State.completes_relock ha hw rfl (if_pos h) (by rcases h with h | h | h <;> rw [h] <;> decide)

end Sys2Proof.Machine
end

section
/-! PROOFS. Fault events that are not FATAL (R462 to R467), of any source. -/

set_option Elab.async false

namespace Sys2Proof.Machine
open Sys2Proof
open State.only (here)

/-- R465: the element that a DEGRADE event excludes is a lane of a port or a tier. -/
theorem State.excludeElem_only (src unit elem : Nat) (s : State) : s.only [.ports, .tiers] [] (s.excludeElem src unit elem) := by
  unfold State.excludeElem
  refine iteInduction (motive := fun t : State => s.only [.ports, .tiers] [] t) (fun _ => here.modPort ..) (fun _ => ?_)
  refine iteInduction (motive := fun t : State => s.only [.ports, .tiers] [] t) (fun _ => here.modTier ..) (fun _ => ?_)
  exact iteInduction (motive := fun t : State => s.only [.ports, .tiers] [] t) (fun _ => here.modTier ..) (fun _ => here)

/-- Between two states the ports differ in their excluded lanes alone. -/
def State.portsBut (s t : State) : Prop := ∀ p : Port, { t.port p with excluded := 0 } = { s.port p with excluded := 0 }

theorem State.portsBut_of_only {s t : State} {ps : List Part} {as : List Nat} (h : s.only ps as t) (hp : Part.ports ∉ ps := by decide) : s.portsBut t :=
  fun p => by rw [h.port p hp]

theorem State.portsBut.trans {s t u : State} (h : s.portsBut t) (g : t.portsBut u) : s.portsBut u := fun p => (g p).trans (h p)

theorem State.portsBut.tstate {s t : State} (h : s.portsBut t) (p : Port) : (t.port p).tstate = (s.port p).tstate := (congrArg PortS.tstate (h p) :)

theorem State.excludeElem_ports (src unit elem : Nat) (s : State) : s.portsBut (s.excludeElem src unit elem) := by
  unfold State.excludeElem
  refine iteInduction (motive := s.portsBut) (fun _ q => ?_) (fun _ => ?_)
  · generalize allPorts.getD ((src - 20) / 4) Port.ca = p
    by_cases e : q = p
    · subst e; rw [State.port_modPort]
    · rw [State.port_modPort_ne e]
  · refine iteInduction (motive := s.portsBut) (fun _ => ?_) (fun _ => ?_)
    · exact State.portsBut_of_only (here (ps := [.tiers]) (as := []).modTier ..)
    · exact iteInduction (motive := s.portsBut) (fun _ => State.portsBut_of_only (here (ps := [.tiers]) (as := []).modTier ..)) (fun _ _ => rfl)

theorem State.faultNotice_only (src cls : Nat) (prom : Bool) (k : Nat) (s : State) :
    s.only [.notices, .counts] [] (s.faultNotice src cls prom k) := here.cond_ (here.notice ..)

theorem State.degrade_only (src unit elem : Nat) (s : State) :
    s.only [.ports, .tiers, .counts, .regs] [Reg.FAULT_STATUS] (s.degrade src unit elem) :=
  ((State.excludeElem_only ..).mono).cond_ ((here.bump ..).raise ..)

theorem State.severe_only (s : State) : s.only [.faults, .regs] [Reg.FAULT_STATUS] s.severe :=
  ((here.admitStop _).raise ..).cond ..

/-- R465, R466: what the reaction to an event that is not FATAL may change. -/
theorem State.react_mild_only (src unit elem : Nat) {cls : Nat} (hc : cls < 3) (prom : Bool) (k : Nat) (s : State) :
    s.only [.notices, .counts, .ports, .tiers, .regs, .faults] [Reg.FAULT_STATUS] (s.react src unit elem cls prom k) := by
  have hn : s.only [.notices, .counts, .ports, .tiers, .regs, .faults] [Reg.FAULT_STATUS] (s.faultNotice src cls prom k) :=
    (State.faultNotice_only ..).mono
  unfold State.react State.reactTo
  split
  · exact hn.step (State.degrade_only ..)
  · split
    · exact hn.step (State.severe_only _)
    · rw [if_neg (by omega)]; exact hn

theorem State.react_mild_ports (src unit elem : Nat) {cls : Nat} (hc : cls < 3) (prom : Bool) (k : Nat) (s : State) :
    s.portsBut (s.react src unit elem cls prom k) := by
  have hn : s.portsBut (s.faultNotice src cls prom k) := State.portsBut_of_only (State.faultNotice_only ..)
  unfold State.react State.reactTo
  split
  · refine hn.trans ((State.excludeElem_ports src unit elem _).trans (State.portsBut_of_only (ps := [.counts, .regs]) (as := [Reg.FAULT_STATUS]) ?_))
    exact here.cond_ ((here.bump ..).raise ..)
  · split
    · exact hn.trans (State.portsBut_of_only (State.severe_only _))
    · rw [if_neg (by omega)]; exact hn

section
variable {s : State} {src unit : Nat} (hw : s.awake = true) (hm : s.mild src unit)
include hw hm

/-- R462 to R467: an event that is not FATAL and finds room in the blaze log is counted and logged, and has its reaction. -/
theorem State.faultN_mild (pl : List Byte) (elem : Nat) :
    s.faultN 3 src unit pl elem =
      (s.faultCount src unit pl).1.react src unit elem (s.faultClass src unit).1 (s.faultClass src unit).2.1 (s.faultClass src unit).2.2.k := by
  obtain ⟨hc, hb⟩ := hm
  have hf : s.fatalFirst (s.faultClass src unit).1 src unit pl = s := by
    rw [State.fatalFirst, beq_eq_false_iff_ne.2 (by omega)]; rfl
  have hl : (s.faultCount src unit pl).2 = false := State.faultLog_kept _ _ _ _ _ _ _ _ (by rw [State.faultMark_blaze]; exact hb)
  rw [State.faultN, if_pos hw]
  simp only [hf, hl, Bool.false_eq_true, false_and, if_false]

theorem State.faultN_mild_only (pl : List Byte) (elem : Nat) : s.only mildParts eventRegs (s.faultN 3 src unit pl elem) := by
  rw [State.faultN_mild hw hm]
  exact ((State.faultCount_only ..).mono).step (State.react_mild_only _ _ _ hm.1 _ _ _) (ha := by simp [eventRegs])

theorem State.faultN_mild_ports (pl : List Byte) (elem : Nat) : s.portsBut (s.faultN 3 src unit pl elem) := by
  rw [State.faultN_mild hw hm]
  exact (State.portsBut_of_only (State.faultCount_only ..)).trans (State.react_mild_ports _ _ _ hm.1 _ _ _)

end

/-- An event is judged alike where the windows, the tick and the blaze log have not changed. -/
theorem State.only.mild {s t : State} {ps : List Part} {as : List Nat} (h : s.only ps as t) {src unit : Nat} (hm : s.mild src unit)
    (ha : Reg.FAULT_SRC src ∉ as := by decide) (hf : Part.faults ∉ ps := by decide) (hb : Part.blaze ∉ ps := by decide) : t.mild src unit :=
  ⟨by rw [h.faultClass src unit ha hf]; exact hm.1, by rw [h.blaze' hb]; exact hm.2⟩

end Sys2Proof.Machine
end

section
/-! PROOFS. Lanes that lock and lose lock, and a silent clock lane (R79 to R81). -/

set_option Elab.async false

namespace Sys2Proof.Machine
open Sys2Proof
open State.only (here)

/-! ### What a port sends changes that port alone -/

theorem State.sendState_port_ne {p q : Port} (h : q ≠ p) (s : State) : (s.sendState p).port q = s.port q := by
  unfold State.sendState
  dsimp only
  split
  · exact State.airTo_port ..
  · split
    · exact (State.port_modPort_ne h _ _).trans (State.airTo_port ..)
    · exact (State.port_modPort_ne h _ _).trans (State.airTo_port ..)

theorem State.capSent_port_ne {p q : Port} (h : q ≠ p) (s : State) : (s.capSent p).port q = s.port q :=
  (State.sendState_port_ne h _).trans (State.port_modPort_ne h _ _)

theorem State.enterCap_port_ne {p q : Port} (h : q ≠ p) (s : State) : (s.enterCap p).port q = s.port q :=
  (State.capSent_port_ne h _).trans (State.port_modPort_ne h _ _)

/-- What the sender of capability blocks leaves of a port: all but its block and its row. -/
theorem State.capSent_port (p : Port) (s : State) : { (s.capSent p).port p with row := [], ownCap := [] } = { s.port p with row := [], ownCap := [] } := by
  have h := State.sendState_port p (s.modPort p (fun x => { x with ownCap := s.capOf p }))
  rw [State.port_modPort] at h
  exact congrArg (fun x : PortS => { x with ownCap := [] }) h

theorem State.enterCap_port (p : Port) (s : State) :
    ((s.enterCap p).port p).tstate = .cap ∧ ((s.enterCap p).port p).lanes = (s.port p).lanes := by
  have h := State.capSent_port p (s.modPort p (fun x => { x with tstate := .cap, gotCap := false, gotSeen := false, stepping := false, waking := none, gap := false }))
  rw [State.port_modPort] at h
  have ht := congrArg PortS.tstate h
  have hl := congrArg PortS.lanes h
  exact ⟨ht, hl⟩

/-! ### A lane locks -/

/-- A port after one of its lanes has locked: in CAP where it has enough of them. -/
def State.lockedOn (p : Port) (s : State) : State :=
  if ((s.port p).tstate = .huntFull ∨ (s.port p).tstate = .huntHalf) ∧ 4 ≤ (s.port p).locked.length then s.enterCap p
  else if (s.port p).tstate = .cap then s.capSent p
  else s

theorem State.lockedOn_only (p : Port) (s : State) : s.only [.ports] [] (s.lockedOn p) :=
  iteInduction (motive := fun t : State => s.only [.ports] [] t) (fun _ => State.enterCap_only p s)
    (fun _ => iteInduction (motive := fun t : State => s.only [.ports] [] t) (fun _ => State.capSent_only p s) (fun _ => here))

theorem State.lockedOn_lanes (p : Port) (s : State) : ((s.lockedOn p).port p).lanes = (s.port p).lanes := by
  unfold State.lockedOn
  split
  · exact (State.enterCap_port p s).2
  · split
    · exact (congrArg PortS.lanes (State.capSent_port p s) :)
    · rfl

theorem State.lockedOn_cap {p : Port} {s : State} (h : (s.port p).tstate = .huntFull ∨ (s.port p).tstate = .huntHalf)
    (h4 : 4 ≤ (s.port p).locked.length) : ((s.lockedOn p).port p).tstate = .cap := by
  rw [State.lockedOn, if_pos ⟨h, h4⟩]
  exact (State.enterCap_port p s).1

theorem State.lockedOn_port_ne {p q : Port} (h : q ≠ p) (s : State) : (s.lockedOn p).port q = s.port q := by
  unfold State.lockedOn
  split
  · exact State.enterCap_port_ne h s
  · split
    · exact State.capSent_port_ne h s
    · rfl

/-- The state in which a lane has just locked. -/
def State.laneLocked (p : Port) (lane peer : Nat) (inv : Bool) (s : State) : State :=
  s.draw.2.modPort p (PortS.lockLane lane peer inv s.draw.2.now s.draw.1)

section
variable {s : State} {p : Port} (ha : s.awake = true) (hw : s.regs.wait = [])
include ha hw

theorem State.completes_laneLock (lane peer : Fin 8) (inv : Bool) (ht : (s.port p).tstate ∉ [.off, .prbs, .quiet, .step])
    (hx : bit (s.port p).excluded lane.val = false) (hg : (s.port p).gap = false) :
    s.completes (.laneLock p lane peer inv) [.ports, .draws] []
      (fun t => (AMap.get lane.val ({} : LaneS) (t.port p).lanes).lock = true ∧ (AMap.get lane.val ({} : LaneS) (t.port p).lanes).peer = peer.val ∧
        (AMap.get lane.val ({} : LaneS) (t.port p).lanes).inverted = inv ∧
        (((s.port p).tstate = .huntFull ∨ (s.port p).tstate = .huntHalf) → 4 ≤ (t.port p).locked.length → (t.port p).tstate = .cap) ∧
        ∀ q : Port, q ≠ p → t.port q = s.port q) := by
  have hf : s.laneLock p lane peer inv = (s.laneLocked p lane peer inv).lockedOn p := by
    refine if_neg ?_
    simp only [List.mem_cons, List.not_mem_nil, or_false, not_or] at ht
    simp [ht, hx, hg]
  have hu : s.only [.ports, .draws] [] (s.laneLocked p lane peer inv) := by
    have hd : s.only [.ports, .draws] [] s.draw.2 := here.draws _
    exact hd.modPort ..
  have hp : (s.laneLocked p lane peer inv).port p = (s.port p).lockLane lane peer inv s.draw.2.now s.draw.1 := State.port_modPort ..
  refine State.completes_port (f := State.laneLock p lane peer inv) ha hw rfl (by rw [hf]; exact hu.step (State.lockedOn_only ..)) (by decide) ?_
  rw [hf]
  have hl := State.lockedOn_lanes p (s.laneLocked p lane peer inv)
  rw [hp] at hl
  have hg : AMap.get lane.val ({} : LaneS) ((s.port p).lockLane lane peer inv s.draw.2.now s.draw.1).lanes = _ := AMap.get_put_self ..
  simp only [State.carry_port, PortS.locked, hl, hg]
  refine ⟨trivial, trivial, trivial, fun h h4 => ?_, fun q hq => ?_⟩
  · exact State.lockedOn_cap (by rw [hp]; exact h) (by rw [hp]; exact h4)
  · exact (State.lockedOn_port_ne hq _).trans (State.port_modPort_ne hq _ _)

end

/-! ### A lane loses lock -/

/-- The state in which a lane has just lost lock. -/
def State.laneDropped (p : Port) (lane : Nat) (s : State) : State :=
  s.modPort p (fun x => { x with lanes := AMap.put lane { (AMap.get lane {} x.lanes) with lock := false, signal := some true } x.lanes })

theorem State.laneDropped_only (p : Port) (lane : Nat) (s : State) : s.only [.ports] [] (s.laneDropped p lane) := here.modPort ..

theorem State.laneDropped_port (p : Port) (lane : Nat) (s : State) :
    ((s.laneDropped p lane).port p).tstate = (s.port p).tstate ∧ ((s.laneDropped p lane).port p).full = (s.port p).full ∧
      (AMap.get lane ({} : LaneS) ((s.laneDropped p lane).port p).lanes).lock = false := by
  rw [State.laneDropped, State.port_modPort]
  refine ⟨rfl, rfl, ?_⟩
  dsimp only
  rw [AMap.get_put_self]

theorem State.laneLoss_locked {s : State} {p : Port} {lane : Nat} (h : (AMap.get lane ({} : LaneS) (s.port p).lanes).lock = true) :
    s.laneLoss p lane =
      if (s.port p).tstate = .cap ∨ (s.port p).tstate = .step then (s.laneDropped p lane).relock p
      else if (s.port p).tstate = .active then ((s.laneDropped p lane).relock p).faultE (22 + 4 * portNo p) (portNo p) [] lane
      else s.laneDropped p lane := by
  unfold State.laneLoss
  simp only [h, Bool.not_true, Bool.false_eq_true, if_false]
  rfl

section
variable {s : State} {p : Port} (ha : s.awake = true) (hw : s.regs.wait = []) {lane : Fin 8}
  (hl : (AMap.get lane.val ({} : LaneS) (s.port p).lanes).lock = true)
include ha hw hl

theorem State.completes_laneLoss_hunts (ht : (s.port p).tstate = .huntFull ∨ (s.port p).tstate = .huntHalf) :
    s.completes (.laneLockLoss p lane) [.ports] []
      (fun t => (AMap.get lane.val ({} : LaneS) (t.port p).lanes).lock = false ∧ (t.port p).tstate = (s.port p).tstate ∧
        ∀ q : Port, q ≠ p → t.port q = s.port q) := by
  have hf : s.laneLoss p lane = s.laneDropped p lane := by
    rw [State.laneLoss_locked hl, if_neg (by rcases ht with h | h <;> simp [h]), if_neg (by rcases ht with h | h <;> simp [h])]
  obtain ⟨hst, -, hlost⟩ := State.laneDropped_port p lane s
  refine State.completes_port (f := State.laneLoss p lane) ha hw rfl (by rw [hf]; exact State.laneDropped_only ..) (by decide) ?_
  rw [hf]
  exact ⟨hlost, hst, fun q hq => State.port_modPort_ne hq _ _⟩

theorem State.completes_laneLoss_trains (ht : (s.port p).tstate = .cap ∨ (s.port p).tstate = .step) :
    s.completes (.laneLockLoss p lane) portParts (portRegs p)
      (fun t => (t.port p).tstate = (if (s.port p).full then .huntFull else .huntHalf) ∧ t.fld (Reg.LINK_STATUS p) F.LINK_STATUS_RETRAIN = 1) := by
  have hf : s.laneLoss p lane = (s.laneDropped p lane).relock p := by rw [State.laneLoss_locked hl, if_pos ht]
  obtain ⟨hst, hfull, -⟩ := State.laneDropped_port p lane s
  have ho := (State.laneDropped_only p lane s).mono.trans
    (State.relock_only p (s.laneDropped p lane) (by rw [hst]; rcases ht with h | h <;> rw [h] <;> decide))
  refine State.completes_port (f := State.laneLoss p lane) ha hw rfl (by rw [hf]; exact ho) (by decide) ?_
  rw [hf]
  refine ⟨?_, (State.carry_fld ..).trans (State.relock_flag ..)⟩
  rw [State.carry_port, State.relock_port, hfull]
  exact (State.train_port ..).1

/-- R80: an ACTIVE link that loses a lane retrains, with an event of the lane. -/
theorem State.completes_laneLoss_active (ht : (s.port p).tstate = .active) (hm : s.mild (22 + 4 * portNo p) (portNo p)) :
    s.completes (.laneLockLoss p lane) (portParts ++ mildParts) (portRegs p ++ eventRegs)
      (fun t => (t.port p).tstate = (if (s.port p).full then .huntFull else .huntHalf) ∧
        t.fld (Reg.LINK_STATUS p) F.LINK_STATUS_RETRAIN = 1 ∧ t.fld (Reg.LINK_STATUS p) F.LINK_STATUS_DOWN_EVT = 1) := by
  have hf : s.laneLoss p lane = ((s.laneDropped p lane).relock p).faultE (22 + 4 * portNo p) (portNo p) [] lane := by
    rw [State.laneLoss_locked hl, if_neg (by simp [ht]), if_pos ht]
  obtain ⟨hst, hfull, -⟩ := State.laneDropped_port p lane s
  have ho := (State.laneDropped_only p lane s).mono.trans (State.relock_only p (s.laneDropped p lane) (by rw [hst, ht]; decide))
  have hwu : ((s.laneDropped p lane).relock p).awake = true := by rw [ho.awake]; exact ha
  have hmu := ho.mild hm (by cases p <;> decide)
  have hev := State.faultN_mild_only hwu hmu [] lane.val
  have hq : faultQuiet (Reg.LINK_STATUS p) = true := by cases p <;> decide
  refine State.completes_port (f := State.laneLoss p lane) ha hw rfl
    (by rw [hf]; exact State.only.step (ho.mono (ha := by simp)) hev (ha := by simp [eventRegs])) (by decide) ?_
  rw [hf]
  refine ⟨?_, (State.carry_fld ..).trans ?_, (State.carry_fld ..).trans ?_⟩
  · rw [State.carry_port]
    refine ((State.faultN_mild_ports hwu hmu [] lane.val).tstate p).trans ?_
    rw [State.relock_port, hfull]
    exact (State.train_port ..).1
  · rw [State.fld_faultE hq]
    exact State.relock_flag ..
  · rw [State.fld_faultE hq]
    exact State.relock_down p (hst.trans ht)

end

/-- Settles O18: a lane that locks may complete the set for CAP; one that loses lock sends the port back to its hunt, with an event from ACTIVE. -/
theorem portLanes : Obligations.PortLanes := by
  intro s p ha hw
  refine ⟨fun lane peer inv ht hx hg => State.completes_laneLock ha hw lane peer inv ht hx hg, fun lane hl => ⟨fun ht =>
    State.completes_laneLoss_hunts ha hw hl ht, fun ht => State.completes_laneLoss_trains ha hw hl ht, fun ht hm =>
    State.completes_laneLoss_active ha hw hl ht hm⟩, fun hc => ?_⟩
  have hf : s.clockSilent p = s.modPort p (fun x => { x with clkLive := false, clk := false }) := if_pos hc
  refine State.completes_port (f := State.clockSilent p) ha hw rfl (by rw [hf]; exact here.modPort ..) (by decide) ?_
  rw [hf]
  have hp := State.port_modPort p (fun x => { x with clkLive := false, clk := false }) s
  refine ⟨(congrArg PortS.clkLive hp :), (congrArg PortS.clk hp :), (congrArg PortS.tstate hp :), fun q hq => State.port_modPort_ne hq _ _⟩

end Sys2Proof.Machine
end

section
/-! PROOFS. What stands still after an event, and the counters that an event leaves alone (R462 to R468). -/

set_option Elab.async false

namespace Sys2Proof.Machine
open Sys2Proof
open State.only (here)

/-! ### What a change of the tiers leaves still -/

/-- Nothing goes on after a change that leaves the engines' shards as they are. -/
theorem State.only.calm_runs {s t : State} {ps : List Part} {as : List Nat} (h : s.only ps as t) (hs : s.calm)
    (hr : ∀ k < 4, (t.tier k).run = (s.tier k).run) (h1 : Part.sent ∉ ps := by decide) (h3 : Part.que ∉ ps := by decide)
    (h4 : Part.prot ∉ ps := by decide) (h5 : Part.mgr ∉ ps := by decide) (h7 : Part.pool ∉ ps := by decide) : t.calm := by
  have he : t.engBusy = s.engBusy := by
    simp only [State.engBusy, State.engTurns, show List.range 4 = [0, 1, 2, 3] from rfl, List.any_cons, List.any_nil, hr 0 (by decide), hr 1 (by decide),
      hr 2 (by decide), hr 3 (by decide)]
  simp only [State.calm, State.groupBusy, State.copyBusy, h.inbox' h1, h.que' h3, h.prot' h4, h.mgr' h5, he, h.pool' h7]
  exact hs

theorem State.only.still_runs {s t : State} {ps : List Part} {as : List Nat} (h : s.only ps as t) (hs : s.still)
    (hr : ∀ k < 4, (t.tier k).run = (s.tier k).run) (h1 : Part.sent ∉ ps := by decide) (h2 : Part.effects ∉ ps := by decide)
    (h3 : Part.que ∉ ps := by decide) (h4 : Part.prot ∉ ps := by decide) (h5 : Part.mgr ∉ ps := by decide)
    (h7 : Part.pool ∉ ps := by decide) : t.still :=
  ⟨h.calm_runs hs.1 hr h1 h3 h4 h5 h7, by rw [h.wait' h2]; exact hs.2⟩

/-! ### What an event leaves of the tiers -/

/-- Between two states the tiers differ in their exclusion alone. -/
def State.tiersBut (s t : State) : Prop := ∀ k : Nat, { t.tier k with excluded := false } = { s.tier k with excluded := false }

theorem State.tiersBut_of_only {s t : State} {ps : List Part} {as : List Nat} (h : s.only ps as t) (hp : Part.tiers ∉ ps := by decide) : s.tiersBut t :=
  fun k => by rw [h.tier k hp]

theorem State.tiersBut.trans {s t u : State} (h : s.tiersBut t) (g : t.tiersBut u) : s.tiersBut u := fun k => (g k).trans (h k)

theorem State.tiersBut.run {s t : State} (h : s.tiersBut t) (k : Nat) : (t.tier k).run = (s.tier k).run := (congrArg TierS.run (h k) :)

theorem State.excluded_tiers (k : Nat) (s : State) : s.tiersBut (s.modTier k (fun t => { t with excluded := true })) := by
  intro j
  by_cases e : j = k
  · subst e; rw [State.tier_modTier]
  · rw [State.tier_modTier_ne e]

theorem State.excludeElem_tiers (src unit elem : Nat) (s : State) : s.tiersBut (s.excludeElem src unit elem) := by
  unfold State.excludeElem
  refine iteInduction (motive := s.tiersBut) (fun _ => State.tiersBut_of_only (here (ps := [.ports]) (as := []).modPort ..)) (fun _ => ?_)
  refine iteInduction (motive := s.tiersBut) (fun _ => State.excluded_tiers _ _) (fun _ => ?_)
  exact iteInduction (motive := s.tiersBut) (fun _ => State.excluded_tiers _ _) (fun _ _ => rfl)

theorem State.react_mild_tiers (src unit elem : Nat) {cls : Nat} (hc : cls < 3) (prom : Bool) (k : Nat) (s : State) :
    s.tiersBut (s.react src unit elem cls prom k) := by
  have hn : s.tiersBut (s.faultNotice src cls prom k) := State.tiersBut_of_only (State.faultNotice_only ..)
  unfold State.react State.reactTo
  split
  · refine hn.trans ((State.excludeElem_tiers src unit elem _).trans (State.tiersBut_of_only (ps := [.counts, .regs]) (as := [Reg.FAULT_STATUS]) ?_))
    exact here.cond_ ((here.bump ..).raise ..)
  · split
    · exact hn.trans (State.tiersBut_of_only (State.severe_only _))
    · rw [if_neg (by omega)]; exact hn

/-! ### The counters that an event leaves alone -/

/-- The counters that an event which is not FATAL may change: of merged notices, events, promotions, log entries and exclusions. -/
def eventSlots : List Nat := [devSlot 4, devSlot 140, devSlot 141, devSlot 142, devSlot 137]

/-- Between two states the counters differ in some slots alone, and the same slots are torn. -/
def State.countsBut (l : List Nat) (s t : State) : Prop :=
  t.flt.torn = s.flt.torn ∧ ∀ k ∉ l, AMap.get k ((0, 0) : Nat × Nat) t.flt.counts = AMap.get k (0, 0) s.flt.counts

section
variable {l : List Nat} {s t u : State}

theorem State.countsBut_of_only {ps : List Part} {as : List Nat} (h : s.only ps as t) (hp : Part.counts ∉ ps := by decide) : s.countsBut l t :=
  ⟨(h.2.1 _ hp).2, fun _ _ => by rw [(h.2.1 _ hp).1]⟩

theorem State.countsBut.trans (h : s.countsBut l t) (g : t.countsBut l u) : s.countsBut l u :=
  ⟨g.1.trans h.1, fun k hk => (g.2 k hk).trans (h.2 k hk)⟩

theorem State.countsBut_bump {k : Nat} (hk : k ∈ l) (n : Nat) (s : State) : s.countsBut l (s.bump k n) :=
  ⟨rfl, fun _ hj => AMap.get_set_ne (fun e => hj (by rw [e]; exact hk)) ..⟩

theorem State.countsBut.bump (h : s.countsBut l t) (k n : Nat) (hk : k ∈ l) : s.countsBut l (t.bump k n) := h.trans (State.countsBut_bump hk n t)

theorem State.countsBut.raise (h : s.countsBut l t) (a : Nat) (f : Fld) : s.countsBut l (t.raise a f) :=
  h.trans (State.countsBut_of_only (here (ps := [.regs]) (as := [a]).raise ..))

theorem State.countsBut_when {f : State → State} {c : Bool} (h : s.countsBut l t) (hf : t.countsBut l (f t)) : s.countsBut l (when c f t) := by
  cases c
  · exact h
  · exact h.trans hf

end

theorem State.faultMark_counts (src unit cls : Nat) (prom : Bool) (s : State) : s.countsBut eventSlots (s.faultMark src unit cls prom) := by
  unfold State.faultMark
  refine State.countsBut.trans ?_ (State.countsBut_of_only (here (ps := [.regs]) (as := [Reg.FAULT_LAST]).setReg ..))
  exact State.countsBut_when ((State.countsBut_bump (by decide) 1 s).raise ..) ((State.countsBut_bump (by decide) 1 _).raise ..)

theorem State.recount_counts (e : Option Nat) (k : Nat) (s : State) : s.countsBut eventSlots (s.recount e k) :=
  State.countsBut_of_only (here (ps := [.blaze]) (as := []).recount ..)

theorem State.faultLog_counts (src unit cls : Nat) (prom : Bool) (key : Nat) (w : WindowS) (pl : List Byte) {s : State} (hb : s.flt.blaze.f2 = none) :
    s.countsBut eventSlots (s.faultLog src unit cls prom key w pl).1 := by
  unfold State.faultLog
  split
  · refine State.countsBut.trans (State.countsBut_bump (k := devSlot 142) (by decide) 1 s) ?_
    rw [State.blazeAt, hb]
    exact ⟨rfl, fun _ _ => rfl⟩
  · exact (State.recount_counts ..).trans ⟨rfl, fun _ _ => rfl⟩

theorem State.notice_counts (sev : Nat) (pl : List Byte) (s : State) : s.countsBut eventSlots (s.notice 0x04 sev pl) := by
  unfold State.notice
  refine State.countsBut.trans (t := if (AMap.find 0x04 s.flt.notices).isSome then s.bump (devSlot 0x04) 1 else s) ?_ ⟨rfl, fun _ _ => rfl⟩
  exact iteInduction (motive := s.countsBut eventSlots) (fun _ => State.countsBut_bump (by decide) 1 s) (fun _ => ⟨rfl, fun _ _ => rfl⟩)

theorem State.react_mild_counts (src unit elem : Nat) {cls : Nat} (hc : cls < 3) (prom : Bool) (k : Nat) (s : State) :
    s.countsBut eventSlots (s.react src unit elem cls prom k) := by
  have hn : s.countsBut eventSlots (s.faultNotice src cls prom k) :=
    State.countsBut_when ⟨rfl, fun _ _ => rfl⟩ (State.notice_counts ..)
  unfold State.react State.reactTo
  split
  · refine hn.trans (State.countsBut_when (State.countsBut_of_only (State.excludeElem_only ..)) ?_)
    exact (State.countsBut_bump (by decide) 1 _).raise ..
  · split
    · exact hn.trans (State.countsBut_of_only (State.severe_only _))
    · rw [if_neg (by omega)]; exact hn

section
variable {s : State} {src unit : Nat} (hw : s.awake = true) (hm : s.mild src unit) (pl : List Byte) (elem : Nat)
include hw hm

theorem State.faultN_mild_tiers : s.tiersBut (s.faultN 3 src unit pl elem) := by
  rw [State.faultN_mild hw hm]
  exact (State.tiersBut_of_only (State.faultCount_only ..)).trans (State.react_mild_tiers _ _ _ hm.1 _ _ _)

theorem State.faultN_mild_counts : s.countsBut eventSlots (s.faultN 3 src unit pl elem) := by
  rw [State.faultN_mild hw hm]
  refine State.countsBut.trans ?_ (State.react_mild_counts _ _ _ hm.1 _ _ _)
  exact (State.faultMark_counts ..).trans (State.faultLog_counts _ _ _ _ _ _ _ (by rw [State.faultMark_blaze]; exact hm.2))

/-- An event that is not FATAL sets nothing in motion. -/
theorem State.faultN_mild_still (hs : s.still) : (s.faultN 3 src unit pl elem).still :=
  (State.faultN_mild_only hw hm pl elem).still_runs hs fun k _ => (State.faultN_mild_tiers hw hm pl elem).run k

/-- R463: FAULT.LAST names the event. -/
theorem State.faultN_mild_last : (s.faultN 3 src unit pl elem).reg Reg.FAULT_LAST =
    BitVec.ofNat 32 ((s.faultClass src unit).1 * 2 ^ 30 + b2n (s.faultClass src unit).2.1 * 2 ^ 29 + unit % 256 * 2 ^ 16 + src) := by
  rw [State.faultN_mild hw hm, (State.react_mild_only _ _ _ hm.1 _ _ _).reg _ (by decide), State.faultCount_last]

end

/-! ### The flags of FAULT.STATUS and the admission stop -/

/-- The flag of the event outlives the reaction to it. -/
theorem State.react_mild_event (src unit elem : Nat) {cls : Nat} (hc : cls < 3) (prom : Bool) (k : Nat) (s : State) :
    (s.react src unit elem cls prom k).fld Reg.FAULT_STATUS F.FAULT_STATUS_EVENT = s.fld Reg.FAULT_STATUS F.FAULT_STATUS_EVENT := by
  have hn : (s.faultNotice src cls prom k).fld Reg.FAULT_STATUS F.FAULT_STATUS_EVENT = s.fld Reg.FAULT_STATUS F.FAULT_STATUS_EVENT :=
    (State.faultNotice_only ..).fld _ _
  unfold State.react State.reactTo
  split
  · refine Eq.trans ?_ (((State.excludeElem_only src unit elem _).fld _ _).trans hn)
    unfold State.degrade
    cases excludes src
    · rfl
    · exact (State.fld_raise_apart _ _ _ (by decide) (by decide) (by decide) _).trans (State.fld_bump ..)
  · split
    · refine Eq.trans ?_ hn
      exact (State.fld_cond_apart _ _ _ (by decide) (by decide) (by decide) _ _).trans
        (State.fld_raise_apart _ _ _ (by decide) (by decide) (by decide) _)
    · rw [if_neg (by omega)]; exact hn

/-- R466: admission stops with a SEVERE classification. -/
theorem State.react_mild_stop (src unit elem : Nat) {cls : Nat} (hc : cls < 3) (prom : Bool) (k : Nat) (s : State) :
    (s.react src unit elem cls prom k).flt.admitStop = (s.flt.admitStop || decide (cls = 2)) ∧
    (cls = 2 → (s.react src unit elem cls prom k).fld Reg.FAULT_STATUS F.FAULT_STATUS_SEVERE = 1) := by
  have hn : (s.faultNotice src cls prom k).flt.admitStop = s.flt.admitStop := ((State.faultNotice_only ..).2.1 .faults (by decide)).2.1
  unfold State.react State.reactTo
  split
  · have ho : (s.faultNotice src cls prom k).only [.ports, .tiers, .counts, .regs] [Reg.FAULT_STATUS] _ := State.degrade_only src unit elem _
    refine ⟨?_, fun e => by omega⟩
    rw [(ho.2.1 .faults (by decide)).2.1, hn, decide_eq_false (by omega), Bool.or_false]
  · split
    · refine ⟨?_, fun _ => ?_⟩
      · have ho : ({ s.faultNotice src cls prom k with flt.admitStop := true } : State).only [.regs] [Reg.FAULT_STATUS] (s.faultNotice src cls prom k).severe :=
          (here.raise ..).cond ..
        rw [(ho.2.1 .faults (by decide)).2.1, decide_eq_true ‹_›, Bool.or_true]
      · exact (State.fld_cond_apart _ _ _ (by decide) (by decide) (by decide) _ _).trans (State.fld_raise _ _ (by decide) _)
    · rw [if_neg (by omega)]
      exact ⟨by rw [hn, decide_eq_false ‹_›, Bool.or_false], fun e => absurd e ‹_›⟩

/-- R462: the window of the event is kept, with its count. -/
theorem State.faultLog_window (src unit cls : Nat) (prom : Bool) (key : Nat) (w : WindowS) (pl : List Byte) (s : State) :
    ∃ x : WindowS, AMap.find key (s.faultLog src unit cls prom key w pl).1.flt.windows = some x ∧ x.k = w.k ∧ x.start = w.start := by
  unfold State.faultLog
  split
  · exact ⟨_, AMap.find_put_self .., rfl, rfl⟩
  · exact ⟨_, AMap.find_put_self .., rfl, rfl⟩

theorem State.faultCount_window (src unit : Nat) (pl : List Byte) (s : State) :
    ∃ x : WindowS, AMap.find (src * 256 + (if src = 118 then 0 else unit)) (s.faultCount src unit pl).1.flt.windows = some x ∧
      x.k = (s.faultClass src unit).2.2.k ∧ x.start = (s.faultClass src unit).2.2.start := State.faultLog_window ..

theorem State.react_mild_windows (src unit elem : Nat) {cls : Nat} (hc : cls < 3) (prom : Bool) (k : Nat) (s : State) :
    (s.react src unit elem cls prom k).flt.windows = s.flt.windows := by
  have hn : (s.faultNotice src cls prom k).flt.windows = s.flt.windows := ((State.faultNotice_only ..).2.1 .faults (by decide)).1
  unfold State.react State.reactTo
  split
  · exact (((State.degrade_only ..).2.1 .faults (by decide)).1).trans hn
  · split
    · have ho : ({ s.faultNotice src cls prom k with flt.admitStop := true } : State).only [.regs] [Reg.FAULT_STATUS] (s.faultNotice src cls prom k).severe :=
        (here.raise ..).cond ..
      exact ((ho.2.1 .faults (by decide)).1).trans hn
    · rw [if_neg (by omega)]; exact hn

/-! ### What a firebreak leaves still -/

/-- A tier whose engine the stop has emptied. -/
theorem State.stopLoops_run (s : State) {k : Nat} (h : k < 4) : (s.stopLoops.tier k).run = none := by
  have hl (t : Nat) (u : State) : u.only [.chans, .counts] [] (u.haltChan t) := State.haltChan_only t u
  rw [State.stopLoops, State.only.tier (here.loop _ (fun n t => hl n t) _) k]
  refine forEach_reaches (fun k s => (s.tier k).run = none) _ (fun a t => ?_) (fun a b t hb => ?_) _ _ (List.mem_range.2 h)
  · rw [State.tier_modTier]
  · by_cases e : b = a
    · subst e; rw [State.tier_modTier]
    · rw [State.tier_modTier_ne e]; exact hb

theorem State.stopCore_run (s : State) {k : Nat} (h : k < 4) : (s.stopCore.tier k).run = none := by
  have hc : s.stopCore.tier k = s.stopLoops.tier k :=
    (State.only.cond_ (f := fun s => (s.bump (portSlot .e 36) 1).bump (portSlot .w 36) 1) (c := s.stopLoops.power.relays) here
      ((here.bump ..).bump ..) : s.stopLoops.only [.counts] [] _).tier k
  rw [hc]
  exact State.stopLoops_run s h

/-- R468, R493: a stopped device does nothing by itself. -/
theorem State.stopCore_still {s : State} (hp : s.copyBusy = false) (hw : s.regs.wait = []) : s.stopCore.still := by
  have ho := State.stopCore_only s
  have hb : s.stopCore.engBusy = false := by
    simp only [State.engBusy, State.engTurns, show List.range 4 = [0, 1, 2, 3] from rfl, List.any_cons, List.any_nil,
      State.stopCore_run s (show 0 < 4 by decide), State.stopCore_run s (show 1 < 4 by decide), State.stopCore_run s (show 2 < 4 by decide),
      State.stopCore_run s (show 3 < 4 by decide), Bool.or_false]
  have hc : s.stopCore.copyBusy = false := by rw [State.copyBusy, ho.pool']; exact hp
  exact ⟨⟨rfl, rfl, rfl, rfl, rfl, rfl, rfl, hb, hc, rfl⟩, by rw [ho.wait']; exact hw⟩

theorem State.firebreak_still (src unit : Nat) {s : State} (hs : s.still) : (s.firebreak src unit).still := by
  have hb : s.only [.blaze, .counts, .regs] [Reg.BLAZE_STATUS]
      (s.blazeAt 255 255 0 3 2 0 (leBytes 6 s.tick ++ leBytes 1 src ++ leBytes 1 unit)).1.blazeFreeze :=
    (here.blazeAt ..).step (State.blazeFreeze_only _)
  have hu := hb.still hs
  obtain ⟨⟨-, -, -, -, -, -, -, -, hcopy, -⟩, hwait⟩ := hu
  exact (State.toFirebreak_only _).still (State.stopCore_still hcopy hwait)

theorem State.faultN_fatal_still {s : State} (src unit : Nat) (pl : List Byte) (elem : Nat) (hw : s.awake = true)
    (hc : (s.faultClass src unit).1 = 3) (hs : s.still) : (s.faultN 3 src unit pl elem).still := by
  rw [State.faultN_fatal src unit pl elem hw hc]
  exact State.firebreak_still _ _ ((State.faultCount_only ..).still ((State.fatalFirst_only ..).still hs))

end Sys2Proof.Machine
end

section
/-! PROOFS. The command FAULT_EVENT (R462 to R468, R198, R479, R480). -/

set_option Elab.async false

namespace Sys2Proof.Machine
open Sys2Proof
open State.only (here)

/-- The lane that byte 0 of an event's payload names. -/
def laneOf (pl : List Byte) : Nat := leAt pl 0 1 % 8

theorem State.faultEvent_plain {s : State} (hw : s.awake = true) {src : Nat} (h : src ∉ [94, 95, 111, 112]) (unit : Nat) (pl : List Byte) :
    s.faultEvent src unit pl = s.faultN 3 src unit pl (laneOf pl) := by
  simp only [List.mem_cons, List.not_mem_nil, or_false, not_or] at h
  unfold State.faultEvent
  simp only [hw, Bool.not_true, Bool.false_eq_true, if_false]
  split
  · exact absurd rfl h.1
  · exact absurd rfl h.2.1
  · exact absurd rfl h.2.2.1
  · exact absurd rfl h.2.2.2
  · rw [if_neg (by decide)]
    rfl

/-- Counting an event stops no admission. -/
theorem State.faultCount_admitStop (src unit : Nat) (pl : List Byte) (s : State) : (s.faultCount src unit pl).1.flt.admitStop = s.flt.admitStop := by
  have hm : (s.faultMark src unit (s.faultClass src unit).1 (s.faultClass src unit).2.1).flt.admitStop = s.flt.admitStop :=
    ((here (ps := [.counts, .regs]) (as := [Reg.FAULT_STATUS, Reg.FAULT_LAST])).faultMark _ _ _ _ |>.2.1 .faults (by decide)).2.1
  have hb (t : State) (a b c d e f : Nat) (g : List Byte) : (t.blazeAt a b c d e f g).1.flt.admitStop = t.flt.admitStop :=
    ((here (ps := [.blaze, .counts, .regs]) (as := [Reg.BLAZE_STATUS])).blazeAt a b c d e f g |>.2.1 .faults (by decide)).2.1
  have hr (t : State) (e : Option Nat) (k : Nat) : (t.recount e k).flt.admitStop = t.flt.admitStop :=
    ((here (ps := [.blaze]) (as := [])).recount e k |>.2.1 .faults (by decide)).2.1
  unfold State.faultCount State.faultLog
  dsimp only
  split
  · exact (hb ..).trans hm
  · exact (hr ..).trans hm

theorem State.reg_faultN_fld {a : Nat} (h : faultQuiet a = true) (f : Fld) (n src unit : Nat) (pl : List Byte) (elem : Nat) (s : State) :
    (s.faultN n src unit pl elem).fld a f = s.fld a f := congrArg f.get (State.reg_faultN h ..)

section
variable {s : State} (hup : s.up) (hs : s.still) (src : Fin 120) (unit : Nat) (pl : List Byte)
include hup hs

theorem State.completes_faultEvent_mild (hsrc : src.val ∉ [94, 95, 111, 112]) (hm : s.mild src.val unit) :
    s.completes (.faultEvent src unit pl) mildParts eventRegs
      (fun t => t.reg Reg.FAULT_LAST = BitVec.ofNat 32 ((s.faultClass src.val unit).1 * 2 ^ 30 + b2n (s.faultClass src.val unit).2.1 * 2 ^ 29 +
            unit % 256 * 2 ^ 16 + src.val) ∧
        t.fld Reg.FAULT_STATUS F.FAULT_STATUS_EVENT = 1 ∧ t.flt.admitStop = (s.flt.admitStop || decide ((s.faultClass src.val unit).1 = 2)) ∧
        ((s.faultClass src.val unit).1 = 2 → t.fld Reg.FAULT_STATUS F.FAULT_STATUS_SEVERE = 1) ∧
        ∃ x : WindowS, AMap.find (src.val * 256 + (if src.val = 118 then 0 else unit)) t.flt.windows = some x ∧
          x.k = (s.faultClass src.val unit).2.2.k ∧ x.start = (s.faultClass src.val unit).2.2.start) := by
  have hw := hup.awake
  have hf := State.faultEvent_plain hw hsrc unit pl
  have hc := (State.faultCount_only src.val unit pl s).2.1
  refine State.completes_always (f := State.faultEvent src.val unit pl) rfl (by rw [hf]; exact State.faultN_mild_still hw hm _ _ hs)
    (by rw [hf]; exact State.faultN_mild_only hw hm _ _) ?_
  rw [hf]
  refine ⟨(State.carry_reg ..).trans (State.faultN_mild_last hw hm _ _), ?_⟩
  simp only [State.carry_fld, State.carry_flt]
  rw [State.faultN_mild hw hm, State.react_mild_event _ _ _ hm.1, State.react_mild_windows _ _ _ hm.1]
  obtain ⟨hstop, hsev⟩ := State.react_mild_stop src.val unit (laneOf pl) hm.1 (s.faultClass src.val unit).2.1 (s.faultClass src.val unit).2.2.k
    (s.faultCount src.val unit pl).1
  refine ⟨State.faultCount_event .., hstop.trans ?_, hsev, State.faultCount_window ..⟩
  rw [State.faultCount_admitStop]

/-- R463, R468: a FATAL event starts the firebreak. -/
theorem State.completes_faultEvent_fatal (hsrc : src.val ∉ [94, 95, 111, 112]) (hc : (s.faultClass src.val unit).1 = 3) :
    s.completes (.faultEvent src unit pl) fatalParts eventRegs
      (fun t => t.halted ∧ t.reg Reg.FAULT_LAST = BitVec.ofNat 32 (3 * 2 ^ 30 + b2n (s.faultClass src.val unit).2.1 * 2 ^ 29 + unit % 256 * 2 ^ 16 + src.val)) := by
  have hw := hup.awake
  have hf := State.faultEvent_plain hw hsrc unit pl
  have ho := State.faultN_fatal_only pl (laneOf pl) hw hc
  refine State.completes_always (f := State.faultEvent src.val unit pl) rfl (by rw [hf]; exact State.faultN_fatal_still _ _ _ _ hw hc hs)
    (by rw [hf]; exact ho) ?_
  rw [hf]
  obtain ⟨h1, h2, h3⟩ := State.faultN_fatal_halted pl (laneOf pl) hw hc
  refine ⟨⟨h1, ?_, h3⟩, (State.carry_reg ..).trans (State.faultN_fatal_last pl (laneOf pl) hw hc)⟩
  rw [State.carry_tick, ← ho.tick']
  exact h2

/-- An event that marks the state before it is judged: the mark `u` changes other parts than the fault windows and the blaze log. -/
theorem State.completes_faultEvent_marked {u : State} {ps qs : List Part} {a : Nat} {P : State → Prop}
    (hf : s.faultEvent src.val unit pl = u.faultN 3 src.val unit [] (laneOf pl)) (hu : s.only ps [a] u) (hm : s.mild src.val unit)
    (ha : a ≠ Reg.FAULT_SRC src.val) (hP : u.mild src.val unit → u.awake = true → P (s.carry (u.faultN 3 src.val unit [] (laneOf pl))))
    (hps : ∀ p ∈ ps, p ∈ [Part.regs, .counts, .census] ∧ p ∈ qs := by decide) (hqs : ∀ p ∈ mildParts, p ∈ qs := by decide) :
    s.completes (.faultEvent src unit pl) qs (a :: eventRegs) P := by
  have hn (p : Part) (hp : p ∉ [Part.regs, .counts, .census]) : p ∉ ps := fun h => hp (hps p h).1
  have hmu : u.mild src.val unit := hu.mild hm (by simpa using ha.symm) (hn _ (by decide)) (hn _ (by decide))
  have hwu : u.awake = true := by rw [hu.awake (hn _ (by decide))]; exact hup.awake
  have hst : u.still := hu.still hs (hn _ (by decide)) (hn _ (by decide)) (hn _ (by decide)) (hn _ (by decide)) (hn _ (by decide)) (hn _ (by decide))
    (hn _ (by decide))
  refine State.completes_always (f := State.faultEvent src.val unit pl) rfl (by rw [hf]; exact State.faultN_mild_still hwu hmu _ _ hst) ?_ (by rw [hf]; exact hP hmu hwu)
  rw [hf]
  exact (hu.mono (fun p hp => (hps p hp).2) (by simp)).step (State.faultN_mild_only hwu hmu _ _) hqs (by simp [eventRegs])

end

/-! ### Events of contexts, of the census and of torn counters -/

/-- R479: the mark of an uncorrectable census node. -/
def State.nodeVoid (node : Nat) (s : State) : State :=
  ({ s with flt.snapHdr := [s.snapNo, s.snapTick, setBits s.snapVoid node node 1] }).raise Reg.CENSUS_STATUS F.CENSUS_STATUS_VOID

/-- R480: the mark of a torn counter, which begins anew. -/
def State.slotTorn (k : Nat) (s : State) : State :=
  (({ s with flt.counts := AMap.set k (0, 0) (0, ((AMap.get k (0, 0) s.flt.counts).2 + 1) % 256) s.flt.counts,
             flt.torn := if s.flt.torn.contains k then s.flt.torn else s.flt.torn ++ [k] }).bump (devSlot 146) 1).raise Reg.CENSUS_STATUS
    F.CENSUS_STATUS_TORN

section
variable {s : State} (hw : s.awake = true) (unit : Nat) (pl : List Byte)
include hw

theorem State.faultEvent_context (hm : s.isManager = true) : s.faultEvent 94 unit pl =
    (s.raise Reg.QCTX_STATUS F.QCTX_STATUS_CTX_CORR).faultN 3 94 unit [] (laneOf pl) := by
  unfold State.faultEvent
  rw [hw, Bool.not_true, if_neg (by decide)]
  simp only [hm, if_true]
  rfl

theorem State.faultEvent_node : s.faultEvent 111 unit pl = (s.nodeVoid (leAt pl 0 1 % 41)).faultN 3 111 unit [] (laneOf pl) := by
  unfold State.faultEvent
  rw [hw, Bool.not_true, if_neg (by decide)]
  rfl

theorem State.faultEvent_torn : s.faultEvent 112 unit pl = (s.slotTorn (leAt pl 0 2)).faultN 3 112 unit [] (laneOf pl) := by
  unfold State.faultEvent
  rw [hw, Bool.not_true, if_neg (by decide)]
  rfl

end

theorem State.nodeVoid_only (node : Nat) (s : State) : s.only [.census, .regs] [Reg.CENSUS_STATUS] (s.nodeVoid node) := by
  unfold State.nodeVoid
  have h : s.only [.census, .regs] [Reg.CENSUS_STATUS] { s with flt.snapHdr := [s.snapNo, s.snapTick, setBits s.snapVoid node node 1] } :=
    ⟨⟨rfl, rfl, rfl⟩, fun q hq => by cases q <;> first | exact absurd (by decide) hq | simp [Part.same], fun _ _ => rfl⟩
  exact h.raise ..

theorem State.slotTorn_only (k : Nat) (s : State) : s.only [.counts, .regs] [Reg.CENSUS_STATUS] (s.slotTorn k) := by
  unfold State.slotTorn
  have h : s.only [.counts, .regs] [Reg.CENSUS_STATUS]
      { s with flt.counts := AMap.set k (0, 0) (0, ((AMap.get k (0, 0) s.flt.counts).2 + 1) % 256) s.flt.counts,
               flt.torn := if s.flt.torn.contains k then s.flt.torn else s.flt.torn ++ [k] } :=
    ⟨⟨rfl, rfl, rfl⟩, fun q hq => by cases q <;> first | exact absurd (by decide) hq | simp [Part.same], fun _ _ => rfl⟩
  exact (h.bump ..).raise ..

theorem State.slotTorn_counts {k : Nat} (hk : k ≠ devSlot 146) (s : State) :
    k ∈ (s.slotTorn k).flt.torn ∧ AMap.get k ((0, 0) : Nat × Nat) (s.slotTorn k).flt.counts = (0, ((AMap.get k (0, 0) s.flt.counts).2 + 1) % 256) := by
  have ho {t : State} : t.only [.regs] [Reg.CENSUS_STATUS] (t.raise Reg.CENSUS_STATUS F.CENSUS_STATUS_TORN) := here.raise ..
  unfold State.slotTorn
  rw [(ho.2.1 .counts (by decide)).1, (ho.2.1 .counts (by decide)).2]
  refine ⟨?_, (AMap.get_set_ne hk ..).trans (AMap.get_set_self ..)⟩
  show k ∈ (if s.flt.torn.contains k then s.flt.torn else s.flt.torn ++ [k])
  split
  · exact List.contains_iff_mem.1 ‹_›
  · simp

/-- Settles O54: an event is judged by its source's window; what the three special sources do beside it is marked before. -/
theorem faultEvents : Obligations.FaultEvents := by
  intro s src unit cls prom w pl hup hs hcl
  have hw := hup.awake
  have h1 : (s.faultClass src.val unit).1 = cls := by rw [hcl]
  have h2 : (s.faultClass src.val unit).2.1 = prom := by rw [hcl]
  have h3 : (s.faultClass src.val unit).2.2 = w := by rw [hcl]
  refine ⟨fun hsrc hc hb => ?_, fun hsrc hc => ?_, fun hc hb => ?_⟩
  · have := State.completes_faultEvent_mild hup hs src unit pl hsrc ⟨by omega, hb⟩
    rwa [h1, h2, h3] at this
  · have := State.completes_faultEvent_fatal hup hs src unit pl hsrc (h1.trans hc)
    rwa [h2] at this
  have hm : s.mild src.val unit := ⟨by omega, hb⟩
  refine ⟨fun hsrc hman => ?_, fun hsrc => ?_, fun k hsrc hpl hk => ?_⟩
  · refine State.completes_faultEvent_marked (ps := [.regs]) hup hs src unit pl (by rw [hsrc]; exact State.faultEvent_context hw unit pl hman)
      (here.raise ..) hm (by rw [hsrc]; decide) fun _ _ => ?_
    rw [State.carry_fld, hsrc, State.reg_faultN_fld (by decide)]
    exact State.fld_raise _ _ (by decide) _
  · refine State.completes_faultEvent_marked hup hs src unit pl (by rw [hsrc]; exact State.faultEvent_node hw unit pl)
      (State.nodeVoid_only ..) hm (by rw [hsrc]; decide) fun hmu hwu => ?_
    have hp := (State.faultN_mild_only hwu hmu [] (laneOf pl)).2.1 .census (by decide)
    obtain ⟨hsnap, -, hhdr, -⟩ := hp
    have hn : (s.nodeVoid (leAt pl 0 1 % 41)).flt.snap = s.flt.snap ∧
        (s.nodeVoid (leAt pl 0 1 % 41)).flt.snapHdr = [s.snapNo, s.snapTick, setBits s.snapVoid (leAt pl 0 1 % 41) (leAt pl 0 1 % 41) 1] := by
      unfold State.nodeVoid
      rw [State.raise_flt]
      exact ⟨rfl, rfl⟩
    refine ⟨?_, ?_, ?_⟩
    · rw [State.carry_fld, State.reg_faultN_fld (by decide)]
      exact State.fld_raise _ _ (by decide) _
    · rw [State.snapVoid, State.carry_flt, hhdr, hn.2]
      exact bit_setBits _ _
    · rw [State.carry_flt, hsnap, hn.1]
  · subst hpl
    refine State.completes_faultEvent_marked hup hs src unit pl (by rw [hsrc]; exact State.faultEvent_torn hw unit pl)
      (State.slotTorn_only ..) hm (by rw [hsrc]; decide) fun hmu hwu => ?_
    simp only [List.mem_cons, List.not_mem_nil, or_false, not_or] at hk
    obtain ⟨k4, k140, k141, k142, k146, k137⟩ := hk
    obtain ⟨htorn, hcount⟩ := State.faultN_mild_counts hwu hmu [] (laneOf pl)
    obtain ⟨hin, hval⟩ := State.slotTorn_counts k146 s
    refine ⟨?_, ?_, ?_⟩
    · rw [State.carry_fld, State.reg_faultN_fld (by decide)]
      exact State.fld_raise _ _ (by decide) _
    · rw [State.carry_flt, htorn]
      exact hin
    · rw [State.carry_flt, hcount _ (by simp [eventSlots, k4, k140, k141, k142, k137])]
      exact hval

end Sys2Proof.Machine
end

section
/-! PROOFS. Random bits of a tier: reseeds and health tests (R314, R315, R322). -/

set_option Elab.async false

namespace Sys2Proof.Machine
open Sys2Proof
open State.only (here)

/-! ### A write of one command field -/

/-- What a command write gives the WO fields: its value to its own. -/
def commandOf (f : Fld) (x : Nat) (g : Fld) : Nat := if f == g then x else 0

/-- A write of one WO field that its path may write: the register keeps its value, and the command acts. -/
theorem State.writeParts_command {s : State} (hu : s.up) {a o : Nat} {b : Block} {r : RegRow} {f : Fld} {x : Nat} (path : Path)
    (hr : s.resolve a = .ok (b, o, r)) (hv : s.rawView a = none) (hst : r.status = false) (hm : b ≠ .mbx) (hsvc : b ≠ .svc)
    (hc : commands (fun g => f == g) r.fields = true) (hg : guarded path b o f = false) (hok : f.ok = true) (hx : x < 2 ^ (f.hi + 1 - f.lo)) :
    s.writeParts path a [(f, x)] = some ((s.setReg a (s.reg a)).act path b o a (commandOf f x) (fun g => f == g) (s.reg a)) := by
  have ht : (fun g => [(f, x)].any (fun e => e.1 == g)) = fun g => f == g := funext fun g => by simp
  have hgd : ∀ g, (f == g) = true → guarded path b o g = false := fun g e => by rw [← eq_of_beq e]; exact hg
  have hwo : woOf path b o (fun g => f == g) (putFields [(f, x)] 0) = commandOf f x := funext fun g => by
    rw [woOf_free hgd, commandOf]
    by_cases e : (f == g) = true
    · rw [if_pos e, if_pos e, putFields_one, ← eq_of_beq e, Fld.get_set f hok, Nat.mod_eq_of_lt hx]
    · rw [if_neg e, if_neg e]
  rw [State.writeParts, ht, State.writeReg_ok path _ _ hv hr hst (fun h => hu.notStarting h), State.writeFields_commands path _ hm hsvc hc,
    roWrite_commands hc hgd, when_false, hwo]

/-! ### Reseeds -/

/-- The tier after a reseed from a passing source. -/
def TierS.seeded (x : TierS) : TierS := { x with lastSeed := false, drbg := true, gens := 0 }

section
variable {s : State} {k : Nat} (h : s.sourceOk k = true)
include h

/-- R314: a reseed of a tier whose own source passes its tests. -/
theorem State.reseed_own : s.reseed k =
    ((((s.modTier k TierS.seeded).setFld (Reg.CMN_DRBG k) F.CMN_DRBG_RESEEDS (min (2 ^ 31 - 1) (s.fld (Reg.CMN_DRBG k) F.CMN_DRBG_RESEEDS + 1))).bump
      (tierSlot k 9) 1).cond (Reg.CMN_STATUS k) F.CMN_STATUS_RNG_BORROW false).cond (Reg.CMN_STATUS k) F.CMN_STATUS_RNG_LASTSEED false := by
  have hs : (!s.sourceOk k) = false := by rw [h]; rfl
  unfold State.reseed
  rw [if_pos (.inl h)]
  simp only [hs]
  rfl

theorem State.reseed_own_tier : (s.reseed k).tier k = (s.tier k).seeded := by
  rw [State.reseed_own h]
  have ho (n : Nat) := (((here (s := s.modTier k TierS.seeded) (ps := [.regs, .counts]) (as := [Reg.CMN_DRBG k, Reg.CMN_STATUS k]).setFld
    (Reg.CMN_DRBG k) F.CMN_DRBG_RESEEDS n).bump (tierSlot k 9) 1).cond (Reg.CMN_STATUS k) F.CMN_STATUS_RNG_BORROW false).cond
      (Reg.CMN_STATUS k) F.CMN_STATUS_RNG_LASTSEED false
  exact ((ho _).tier k).trans (State.tier_modTier ..)

theorem State.reseed_own_borrow : (s.reseed k).fld (Reg.CMN_STATUS k) F.CMN_STATUS_RNG_BORROW = 0 := by
  rw [State.reseed_own h, State.fld_cond_apart _ _ _ (by decide) (by decide) (by decide), State.fld_cond _ _ (by decide)]
  rfl

theorem State.reseed_own_count : (s.reseed k).fld (Reg.CMN_DRBG k) F.CMN_DRBG_RESEEDS =
    min (2 ^ 31 - 1) (s.fld (Reg.CMN_DRBG k) F.CMN_DRBG_RESEEDS + 1) := by
  have hne : Reg.CMN_DRBG k ≠ Reg.CMN_STATUS k := by simp [Reg.CMN_DRBG, Reg.CMN_STATUS]
  rw [State.reseed_own h, State.fld_cond_ne hne, State.fld_cond_ne hne, State.fld_bump, State.fld_setFld _ _ (by decide)]
  exact Nat.mod_eq_of_lt (Nat.lt_of_le_of_lt (Nat.min_le_left ..) (by decide))

end

/-- What a reseed may change. -/
theorem State.reseed_only (k : Nat) (s : State) : s.only [.tiers, .counts, .regs] [Reg.CMN_DRBG k, Reg.CMN_STATUS k] (s.reseed k) := by
  unfold State.reseed
  dsimp only
  split
  · exact ((((here.modTier ..).setFld ..).bump ..).cond ..).cond ..
  · exact ((here.modTier ..).cond ..).cond ..

/-- What a change of a tier leaves of every tier. -/
theorem State.modTier_kept {α : Type} {g : TierS → α} {f : TierS → TierS} (hf : ∀ x, g (f x) = g x) (k j : Nat) (s : State) :
    g ((s.modTier k f).tier j) = g (s.tier j) := by
  by_cases e : j = k
  · subst e; rw [State.tier_modTier, hf]
  · rw [State.tier_modTier_ne e]

/-- What a reseed leaves of a tier: its engine's shard and its health flags. -/
def TierS.source (x : TierS) : Option ShardS × Bool × Bool := (x.run, x.rct, x.apt)

theorem State.reseed_source (k j : Nat) (s : State) : ((s.reseed k).tier j).source = (s.tier j).source := by
  unfold State.reseed
  dsimp only
  split
  · refine (congrArg TierS.source (((((here (ps := [.counts, .regs]) (as := [Reg.CMN_DRBG k, Reg.CMN_STATUS k])).setFld ..).bump ..).cond ..).cond ..
      |>.tier j)).trans (State.modTier_kept (g := TierS.source) ?_ k j s)
    exact fun _ => rfl
  · refine (congrArg TierS.source (((here (ps := [.regs]) (as := [Reg.CMN_STATUS k])).cond ..).cond .. |>.tier j)).trans
      (State.modTier_kept (g := TierS.source) ?_ k j s)
    exact fun _ => rfl

theorem State.reseed_tier (k j : Nat) (s : State) :
    ((s.reseed k).tier j).run = (s.tier j).run ∧ ((s.reseed k).tier j).rct = (s.tier j).rct ∧ ((s.reseed k).tier j).apt = (s.tier j).apt := by
  have h := State.reseed_source k j s
  simp only [TierS.source, Prod.mk.injEq] at h
  exact h

theorem State.reseed_latched {f : Fld} (hf : f.flag = true) (hb : f.apart F.CMN_STATUS_RNG_BORROW = true) (hl : f.apart F.CMN_STATUS_RNG_LASTSEED = true)
    (k : Nat) (s : State) : (s.reseed k).fld (Reg.CMN_STATUS k) f = s.fld (Reg.CMN_STATUS k) f := by
  have hne : Reg.CMN_STATUS k ∉ [Reg.CMN_DRBG k] := by simp [Reg.CMN_DRBG, Reg.CMN_STATUS]
  unfold State.reseed
  dsimp only
  split
  · rw [State.fld_cond_apart _ _ _ (by decide) hf hl, State.fld_cond_apart _ _ _ (by decide) hf hb]
    exact (((here (ps := [.tiers, .regs, .counts]) (as := [Reg.CMN_DRBG k])).modTier ..).setFld .. |>.bump ..).fld _ _ hne
  · rw [State.fld_cond_apart _ _ _ (by decide) hf hl, State.fld_cond_apart _ _ _ (by decide) hf hb]
    exact ((here (ps := [.tiers]) (as := [Reg.CMN_DRBG k])).modTier ..).fld _ _ hne

/-! ### The commands -/

/-- The row of `TIERt.CMN.DRBG`. -/
def drbgRow : RegRow := ⟨"TIERt.CMN.DRBG", 0x800C, 4, 1, false, [.of "RESEED" 31 31 .wo 0 .imm false, .of "RESEEDS" 30 0 .ro 0 .imm false]⟩

theorem blockOf_drbg (k : Fin 4) : blockOf (Reg.CMN_DRBG k.val) = (.cmn k.val, 0x800C) := by fin_cases k <;> rfl

theorem State.resolve_drbg {s : State} (h : s.stopped = false) (k : Fin 4) : s.resolve (Reg.CMN_DRBG k.val) = .ok (.cmn k.val, 0x800C, drbgRow) :=
  State.resolve_ok h (blockOf_drbg k) (fun e => by cases e) (fun e => by cases e) rfl (by fin_cases k <;> decide) rfl

/-- R322: a write of RESEED. -/
theorem State.writeParts_reseed {s : State} (hu : s.up) (path : Path) (k : Fin 4) :
    s.writeParts path (Reg.CMN_DRBG k.val) [(F.CMN_DRBG_RESEED, 1)] =
      some ((s.setReg (Reg.CMN_DRBG k.val) (s.reg (Reg.CMN_DRBG k.val))).reseed k.val) := by
  have hst : s.stopped = false := by simp [State.stopped, hu.awake]
  rw [State.writeParts_command hu path (State.resolve_drbg hst k) (State.rawView_none (blockOf_drbg k) (fun e => by cases e) (fun e => by cases e)) rfl
    (fun e => by cases e) (fun e => by cases e)
    (by decide) rfl (by decide) (by decide)]
  rfl

/-- R315: a failing health test, before the source is left. -/
def State.healthMarked (t : Nat) (apt : Bool) (s : State) : State :=
  ((s.modTier t (fun x => if apt then { x with apt := true } else { x with rct := true })).raise (Reg.CMN_STATUS t)
    (if apt then F.CMN_STATUS_APT_FAIL else F.CMN_STATUS_RCT_FAIL)).bump (tierSlot t (if apt then 11 else 10)) 1

/-- R315: a failing health test, before its event is judged. -/
def State.healthFailed (t : Nat) (apt : Bool) (s : State) : State :=
  ((s.healthMarked t apt).reseed t).notice 0x1A 2 [BitVec.ofNat 8 t, BitVec.ofNat 8 (b2n apt)]

theorem State.healthFailed_only (t : Nat) (apt : Bool) (s : State) :
    s.only [.tiers, .regs, .counts, .notices] [Reg.CMN_DRBG t, Reg.CMN_STATUS t] (s.healthFailed t apt) := by
  have hm : s.only [.tiers, .regs, .counts, .notices] [Reg.CMN_DRBG t, Reg.CMN_STATUS t] (s.healthMarked t apt) :=
    ((here.modTier ..).raise ..).bump ..
  exact (hm.step (State.reseed_only ..)).notice ..

theorem State.healthFailed_source (t : Nat) (apt : Bool) (s : State) :
    (if apt then ((s.healthFailed t apt).tier t).apt else ((s.healthFailed t apt).tier t).rct) = true := by
  have hn := (here (s := (s.healthMarked t apt).reseed t) (ps := [.notices, .counts]) (as := [])).notice 0x1A 2
    [BitVec.ofNat 8 t, BitVec.ofNat 8 (b2n apt)] |>.tier t
  obtain ⟨-, hr, ha⟩ := State.reseed_tier t t (s.healthMarked t apt)
  have hm : (s.healthMarked t apt).tier t = if apt then { s.tier t with apt := true } else { s.tier t with rct := true } := by
    unfold State.healthMarked
    exact (((here (ps := [.regs, .counts]) (as := [Reg.CMN_STATUS t])).raise ..).bump .. |>.tier t).trans (State.tier_modTier ..)
  rw [State.healthFailed, hn, hr, ha, hm]
  cases apt <;> rfl

theorem State.healthFailed_flag (t : Nat) (apt : Bool) (s : State) :
    (s.healthFailed t apt).fld (Reg.CMN_STATUS t) (if apt then F.CMN_STATUS_APT_FAIL else F.CMN_STATUS_RCT_FAIL) = 1 := by
  unfold State.healthFailed
  rw [State.fld_notice, State.reseed_latched (by cases apt <;> decide) (by cases apt <;> decide) (by cases apt <;> decide)]
  unfold State.healthMarked
  rw [State.fld_bump]
  exact State.fld_raise _ _ (by cases apt <;> decide) _

section
variable {s : State} (hup : s.up) {k : Fin 4}
include hup

theorem State.completes_drbgReseed (hb : (s.tier k.val).built = true) (h : s.sourceOk k.val = true) :
    s.completes (.drbgReseed k) [.tiers, .counts, .regs] [Reg.CMN_DRBG k.val, Reg.CMN_STATUS k.val]
      (fun t => (t.tier k.val).lastSeed = false ∧ t.fld (Reg.CMN_STATUS k.val) F.CMN_STATUS_RNG_BORROW = 0 ∧
        t.fld (Reg.CMN_DRBG k.val) F.CMN_DRBG_RESEEDS = min (2 ^ 31 - 1) (s.fld (Reg.CMN_DRBG k.val) F.CMN_DRBG_RESEEDS + 1)) := by
  have hf : whenAwake (fun s => if (s.tier k).built then s.reseed k else s) s = s.reseed k := (whenAwake_true _ _ hup.awake).trans (if_pos hb)
  refine State.completes_run (f := whenAwake (fun s => if (s.tier k).built then s.reseed k else s)) rfl (by rw [hf]; exact State.reseed_only ..) ?_
  rw [hf]
  refine ⟨?_, State.reseed_own_borrow h, State.reseed_own_count h⟩
  rw [State.carry_tier, State.reseed_own_tier h]
  rfl

theorem State.completes_reseed (hs : s.still) (path : Path) (h : s.sourceOk k.val = true) :
    s.completes (.reseed path k) [.tiers, .counts, .regs] [Reg.CMN_DRBG k.val, Reg.CMN_STATUS k.val]
      (fun t => (t.tier k.val).lastSeed = false ∧
        t.fld (Reg.CMN_DRBG k.val) F.CMN_DRBG_RESEEDS = min (2 ^ 31 - 1) (s.fld (Reg.CMN_DRBG k.val) F.CMN_DRBG_RESEEDS + 1)) := by
  have hu := State.setReg_same_only (Reg.CMN_DRBG k.val) s
  have ho := hu.mono.trans (State.reseed_only k.val (s.setReg (Reg.CMN_DRBG k.val) (s.reg (Reg.CMN_DRBG k.val))))
  have hok : (s.setReg (Reg.CMN_DRBG k.val) (s.reg (Reg.CMN_DRBG k.val))).sourceOk k.val = true := by
    rw [State.sourceOk, hu.tier]; exact h
  refine State.completes_access rfl ((State.onPath_up hup _ _).trans (State.writeParts_reseed hup path k))
    (ho.still_runs hs fun j _ => (State.reseed_tier ..).1.trans (by rw [hu.tier])) ho ?_
  refine ⟨?_, (State.carry_fld ..).trans ((State.reseed_own_count hok).trans (by rw [hu.fld _ _]))⟩
  rw [State.carry_tier, State.reseed_own_tier hok]
  rfl

/-- R315: a source that fails a health test is left. -/
theorem State.completes_entropyFail (apt : Bool) (hm : s.mild (88 + k.val) k.val) :
    s.completes (.entropyHealthFail k apt) mildParts ([Reg.CMN_DRBG k.val, Reg.CMN_STATUS k.val] ++ eventRegs)
      (fun t => t.sourceOk k.val = false ∧ t.fld (Reg.CMN_STATUS k.val) (if apt then F.CMN_STATUS_APT_FAIL else F.CMN_STATUS_RCT_FAIL) = 1) := by
  let pl := [BitVec.ofNat 8 k.val, BitVec.ofNat 8 (b2n apt)]
  have hf : whenAwake (State.entropyFail k apt) s = (s.healthFailed k apt).faultN 3 (88 + k.val) k.val pl 0 := whenAwake_true _ _ hup.awake
  have hu := State.healthFailed_only k.val apt s
  have hwu : (s.healthFailed k.val apt).awake = true := by rw [hu.awake]; exact hup.awake
  have hmu := hu.mild hm (by fin_cases k <;> decide)
  have hev := State.faultN_mild_only hwu hmu pl 0
  refine State.completes_run (f := whenAwake (State.entropyFail k apt)) rfl
    (by rw [hf]; exact State.only.step (hu.mono (ha := by simp)) hev (ha := by simp [eventRegs])) ?_
  rw [hf]
  have ht := State.faultN_mild_tiers hwu hmu pl 0 k.val
  have hr := congrArg TierS.rct ht
  have ha := congrArg TierS.apt ht
  refine ⟨?_, ?_⟩
  · have hsrc := State.healthFailed_source k.val apt s
    show (!(State.tier _ k.val).rct && !(State.tier _ k.val).apt) = false
    rw [State.carry_tier, hr, ha]
    cases apt
    · rw [if_neg (by decide)] at hsrc; simp [hsrc]
    · rw [if_pos rfl] at hsrc; simp [hsrc]
  · rw [State.carry_fld, State.reg_faultN_fld (by fin_cases k <;> decide)]
    exact State.healthFailed_flag ..

/-- R315: a source that passes its tests again is taken back. -/
theorem State.completes_entropyRetest (h : s.sourceOk k.val = false) :
    s.completes (.entropyRetest k true) [.tiers, .counts, .regs] [Reg.CMN_DRBG k.val, Reg.CMN_STATUS k.val]
      (fun t => t.sourceOk k.val = true ∧ (t.tier k.val).lastSeed = false ∧ (t.tier k.val).gens = 0) := by
  have hf : whenAwake (State.entropyRetest k true) s = (s.modTier k (fun x => { x with rct := false, apt := false })).reseed k :=
    (whenAwake_true _ _ hup.awake).trans (if_neg (by simp [h]))
  have hok : (s.modTier k.val (fun x => { x with rct := false, apt := false })).sourceOk k.val = true := by
    rw [State.sourceOk, State.tier_modTier]; rfl
  refine State.completes_run (f := whenAwake (State.entropyRetest k true)) rfl
    (by rw [hf]; exact State.only.step (here.modTier ..) (State.reseed_only ..)) ?_
  rw [hf]
  refine ⟨?_, ?_, ?_⟩
  · show (!(State.tier _ k.val).rct && !(State.tier _ k.val).apt) = true
    rw [State.carry_tier, State.reseed_own_tier hok, State.tier_modTier]
    rfl
  · rw [State.carry_tier, State.reseed_own_tier hok]; rfl
  · rw [State.carry_tier, State.reseed_own_tier hok]; rfl

end

/-- Settles O41: reseeds by the clock, by RESEED and after a retest, and the health test that leaves a source with its flag and event. -/
theorem randomBits : Obligations.RandomBits := by
  intro s k hup hs hb
  refine ⟨fun h => State.completes_drbgReseed hup hb h, fun path h => State.completes_reseed hup hs path h,
    fun apt hm => State.completes_entropyFail hup apt hm, fun h => ⟨State.completes_entropyRetest hup h, ?_⟩⟩
  have hf : whenAwake (State.entropyRetest k false) s = s := (whenAwake_true _ _ hup.awake).trans (if_pos (.inr rfl))
  exact State.completes_run (f := whenAwake (State.entropyRetest k false)) rfl (by rw [hf]; exact here) trivial

end Sys2Proof.Machine
end

section
/-! PROOFS. The power cap, sensor readings, thermal stages and the ledger (R392, R396 to R404, R410, R411). -/

set_option Elab.async false

namespace Sys2Proof.Machine
open Sys2Proof
open State.only (here)

/-! ### What leaves the engines alone -/

/-- Between two states the engines' shards are the same. -/
def State.runsKept (s t : State) : Prop := ∀ k : Nat, (t.tier k).run = (s.tier k).run

namespace State.runsKept

variable {s t u : State}

theorem refl (s : State) : s.runsKept s := fun _ => rfl
theorem trans (h : s.runsKept t) (g : t.runsKept u) : s.runsKept u := fun k => (g k).trans (h k)
theorem of_only {ps : List Part} {as : List Nat} (h : s.only ps as t) (hp : Part.tiers ∉ ps := by decide) : s.runsKept t := fun k => by rw [h.tier k hp]
theorem modTier (h : s.runsKept t) (k : Nat) (f : TierS → TierS) (hf : ∀ x, (f x).run = x.run) : s.runsKept (t.modTier k f) :=
  h.trans fun j => State.modTier_kept (g := TierS.run) hf k j t
theorem bump (h : s.runsKept t) (k n : Nat) : s.runsKept (t.bump k n) := h.trans fun _ => rfl
theorem loop {α : Type} {f : α → State → State} (hf : ∀ (a : α) (t : State), t.runsKept (f a t)) (l : List α) (h : s.runsKept t) : s.runsKept (forEach l f t) :=
  forEach_keeps (s.runsKept ·) f (fun a t ht => ht.trans (hf a t)) l t h

end State.runsKept

/-! ### The cap (R392) -/

theorem State.capFlags_only (s : State) : s.only [.regs] [Reg.PWR_STATUS, Reg.SVC_STATUS] s.capFlags :=
  State.only.step (here.cond ..) (State.stage3Flag_only _)

theorem State.capFlags_power (s : State) : s.capFlags.power = s.power := (State.capFlags_only s).power'

theorem State.capFlags_active (s : State) : s.capFlags.fld Reg.PWR_STATUS F.PWR_STATUS_CAP_ACTIVE = b2n (decide (0 < s.power.capStage)) :=
  ((State.stage3Flag_only _).fld _ _ (by decide)).trans (State.fld_cond _ _ (by decide) _ _)

/-- The measurement of a window, with the cap that holds from then on. -/
def State.capMeasured (pin vin : Nat) (s : State) : PowerS :=
  { s.power with measPin := pin % 65536, measVin := vin % 65536, capEn := s.fld Reg.PWR_CAP F.PWR_CAP_EN == 1, capW := s.fld Reg.PWR_CAP F.PWR_CAP_WATTS }

section
variable {s : State} (hup : s.up) (pin vin : Nat)
include hup

theorem State.capWindow_up : s.running = true := by
  obtain ⟨h, -⟩ := hup
  simp [State.running, h]

theorem State.completes_capWindow_off (h : s.power.capEn = false) :
    s.completes (.capWindow pin vin) [.power, .regs] [Reg.PWR_STATUS, Reg.SVC_STATUS]
      (fun t => t.power = { s.power with measPin := pin % 65536, measVin := vin % 65536, capEn := s.fld Reg.PWR_CAP F.PWR_CAP_EN == 1,
                                         capW := s.fld Reg.PWR_CAP F.PWR_CAP_WATTS, capStage := 0, capLow := none } ∧
        t.fld Reg.PWR_STATUS F.PWR_STATUS_CAP_ACTIVE = 0) := by
  have hf : s.capWindow pin vin = ({ s with power := { s.capMeasured pin vin with capStage := 0, capLow := none } } : State).capFlags := by
    unfold State.capWindow
    rw [if_neg (by rw [State.capWindow_up hup]; decide)]
    exact if_pos h
  refine State.completes_run (f := State.capWindow pin vin) rfl (by rw [hf]; exact State.only.step (here.power _) (State.capFlags_only _)) ?_
  rw [hf]
  exact ⟨State.capFlags_power _, State.capFlags_active _⟩

section
variable (h : s.power.capEn = true) (hover : s.power.capW * 100 < pin)
include h hover

/-- A window over the cap restarts the time at which the cap may be relaxed. -/
theorem State.capWindow_over : s.capWindow pin vin =
    if s.power.capStage < 3 then
      if s.power.capStage = 0 then
        ({ s with power := { s.capMeasured pin vin with capLow := none, capStage := s.power.capStage + 1 } } : State).capFlags.notice 0x13 1 ([1] ++ leBytes 2 vin)
      else ({ s with power := { s.capMeasured pin vin with capLow := none, capStage := s.power.capStage + 1 } } : State).capFlags
    else
      (({ s with power := { s.capMeasured pin vin with capLow := none } } : State).raise Reg.PWR_STATUS F.PWR_STATUS_CAP_OVER).fault 10 0
        ([1] ++ leBytes 2 vin) := by
  have h1 : ¬ pin * 100 ≤ 95 * (s.power.capW * 100) := by omega
  have h2 : ¬ pin ≤ s.power.capW * 100 := by omega
  unfold State.capWindow
  rw [if_neg (by rw [State.capWindow_up hup]; decide)]
  simp only [h, Bool.true_eq_false, h1, h2, if_false]
  rfl

/-- R392: the next stage of the cap. -/
theorem State.completes_capWindow_step (hst : s.power.capStage < 3) :
    s.completes (.capWindow pin vin) [.power, .regs, .notices, .counts] [Reg.PWR_STATUS, Reg.SVC_STATUS]
      (fun t => t.power.capStage = s.power.capStage + 1 ∧ t.power.capLow = none ∧ t.power.measPin = pin % 65536 ∧
        t.fld Reg.PWR_STATUS F.PWR_STATUS_CAP_ACTIVE = 1 ∧ (s.power.capStage = 0 → (AMap.find 0x13 t.flt.notices).isSome = true)) := by
  let v : State := { s with power := { s.capMeasured pin vin with capLow := none, capStage := s.power.capStage + 1 } }
  have hf := State.capWindow_over hup pin vin h hover
  rw [if_pos hst] at hf
  have hv : s.only [.power, .regs, .notices, .counts] [Reg.PWR_STATUS, Reg.SVC_STATUS] v.capFlags :=
    State.only.step (here.power _) (State.capFlags_only _)
  have hact : v.capFlags.fld Reg.PWR_STATUS F.PWR_STATUS_CAP_ACTIVE = 1 := (State.capFlags_active v).trans (by rw [decide_eq_true (Nat.succ_pos _)]; rfl)
  have hpw : v.capFlags.power = v.power := State.capFlags_power v
  by_cases h0 : s.power.capStage = 0
  · rw [if_pos h0] at hf
    refine State.completes_run (f := State.capWindow pin vin) rfl (by rw [hf]; exact hv.notice ..) ?_
    rw [hf, State.carry_power, State.carry_fld, State.carry_flt, State.notice_power, State.fld_notice, hpw]
    refine ⟨rfl, rfl, rfl, hact, fun _ => ?_⟩
    unfold State.notice
    rw [AMap.find_put_self]
    rfl
  · rw [if_neg h0] at hf
    refine State.completes_run (f := State.capWindow pin vin) rfl (by rw [hf]; exact hv) ?_
    rw [hf, State.carry_power, State.carry_fld, hpw]
    exact ⟨rfl, rfl, rfl, hact, fun e => absurd e h0⟩

/-- R392: a cap that the last stage does not meet. -/
theorem State.completes_capWindow_over (hst : 3 ≤ s.power.capStage) (hm : s.mild 10 0) :
    s.completes (.capWindow pin vin) (mildParts ++ [.power]) (Reg.PWR_STATUS :: eventRegs)
      (fun t => t.power.capStage = s.power.capStage ∧ t.fld Reg.PWR_STATUS F.PWR_STATUS_CAP_OVER = 1) := by
  let v : State := ({ s with power := { s.capMeasured pin vin with capLow := none } } : State).raise Reg.PWR_STATUS F.PWR_STATUS_CAP_OVER
  have hf : s.capWindow pin vin = v.faultN 3 10 0 ([1] ++ leBytes 2 vin) 0 := (State.capWindow_over hup pin vin h hover).trans (if_neg (by omega))
  have hv : s.only [.power, .regs] [Reg.PWR_STATUS] v := (here.power _).raise ..
  have hpw : v.power = { s.capMeasured pin vin with capLow := none } := State.raise_power ..
  have hwv : v.awake = true := by
    rw [State.awake, hpw]
    exact hup.awake
  have hmv := hv.mild hm
  have hev := State.faultN_mild_only hwv hmv ([1] ++ leBytes 2 vin) 0
  refine State.completes_run (f := State.capWindow pin vin) rfl (by rw [hf]; exact State.only.step hv.mono hev (ha := by simp [eventRegs])) ?_
  rw [hf, State.carry_power, State.carry_fld, hev.power', hpw, State.reg_faultN_fld (by decide)]
  exact ⟨rfl, State.fld_raise _ _ (by decide) _⟩

end

theorem State.completes_capRelax (h : s.power.capLow.isSome = true) (hst : 0 < s.power.capStage) :
    s.completes .capRelaxExpiry [.power, .regs] [Reg.PWR_STATUS, Reg.SVC_STATUS]
      (fun t => t.power = { s.power with capStage := s.power.capStage - 1, capLow := some s.now } ∧
        t.fld Reg.PWR_STATUS F.PWR_STATUS_CAP_ACTIVE = if s.power.capStage = 1 then 0 else 1) := by
  have hf : whenAwake State.capRelax s = ({ s with power.capStage := s.power.capStage - 1, power.capLow := some s.now } : State).capFlags :=
    (whenAwake_true _ _ hup.awake).trans (if_pos ⟨h, hst⟩)
  refine State.completes_run (f := whenAwake State.capRelax) rfl (by rw [hf]; exact State.only.step (here.power _) (State.capFlags_only _)) ?_
  rw [hf]
  refine ⟨State.capFlags_power _, (State.capFlags_active _).trans ?_⟩
  by_cases h1 : s.power.capStage = 1
  · rw [if_pos h1]; simp [h1, b2n]
  · rw [if_neg h1, decide_eq_true (show 0 < s.power.capStage - 1 by omega)]; rfl

end


/-! ### What the heat of one tier changes -/

/-- Between two states one tier may differ, but for its engine's shard, and counters. -/
structure State.heats (k : Nat) (s t : State) : Prop where
  only : s.only [.tiers, .counts] [] t
  runs : s.runsKept t
  others : ∀ j : Nat, j ≠ k → t.tier j = s.tier j

namespace State.heats

variable {k : Nat} {s t u : State}

theorem refl (k : Nat) (s : State) : s.heats k s := ⟨here, .refl s, fun _ _ => rfl⟩
theorem trans (h : s.heats k t) (g : t.heats k u) : s.heats k u :=
  ⟨h.only.trans g.only, h.runs.trans g.runs, fun j hj => (g.others j hj).trans (h.others j hj)⟩
theorem modTier (h : s.heats k t) (f : TierS → TierS) (hf : ∀ x, (f x).run = x.run) : s.heats k (t.modTier k f) :=
  ⟨h.only.modTier .., h.runs.modTier k f hf, fun j hj => (State.tier_modTier_ne hj f t).trans (h.others j hj)⟩
theorem bump (h : s.heats k t) (n m : Nat) : s.heats k (t.bump n m) := ⟨h.only.bump .., h.runs.bump n m, h.others⟩

end State.heats

theorem State.inputOf_heats (k : Nat) (s : State) : s.heats k (s.inputOf k) := by
  unfold State.inputOf
  dsimp only
  split
  · exact (State.heats.refl k s).modTier _ fun _ => rfl
  · exact (State.heats.refl k s).modTier _ fun _ => rfl

theorem State.setStage_heats {n : Nat} (hn : n < 3) (k : Nat) (s : State) : s.heats k (s.setStage k n) := by
  unfold State.setStage
  split
  · exact .refl ..
  · dsimp only
    rw [if_neg (show ¬ n = 3 by omega)]
    refine State.heats.modTier (State.heats.bump (State.heats.modTier (.refl k s) _ ?_) ..) _ ?_
    · exact fun _ => rfl
    · exact fun _ => rfl

theorem State.setStage_stage {n : Nat} (hn : n < 3) (k : Nat) (s : State) : ((s.setStage k n).tier k).stage = n := by
  unfold State.setStage
  split
  next h => exact h
  · dsimp only
    rw [if_neg (show ¬ n = 3 by omega), State.tier_modTier]
    exact congrArg TierS.stage (State.tier_modTier k (fun x => { x with stage := n }) s)

theorem State.stageFollow_heats {k : Nat} {s : State} (h : s.stageFor k < 3) : s.heats k (s.stageFollow k) := by
  unfold State.stageFollow
  dsimp only
  split
  · exact (State.setStage_heats h ..).modTier _ fun _ => rfl
  · exact (State.heats.refl k s).modTier _ fun _ => rfl

/-- What the die temperatures are formed from. -/
def SensorS.shown (x : SensorS) : Bool × Bool × Int := (x.broken, x.seen, x.reading)

theorem State.dieTemp_congr {s t : State} (h : ∀ i, (t.sensor i).shown = (s.sensor i).shown) : t.dieTemp = s.dieTemp := by
  have h1 (i : Nat) : (t.sensor i).broken = (s.sensor i).broken := congrArg (·.1) (h i)
  have h2 (i : Nat) : (t.sensor i).seen = (s.sensor i).seen := congrArg (·.2.1) (h i)
  have h3 (i : Nat) : (t.sensor i).reading = (s.sensor i).reading := congrArg (·.2.2) (h i)
  funext m
  simp only [State.dieTemp, State.working, h1, h2, h3]

theorem State.sensor_congr {s t : State} (h : t.sensors = s.sensors) (i : Nat) : t.sensor i = s.sensor i := by rw [State.sensor, h]; rfl

/-- The stage that a tier's input calls for is formed from its sensors and the tier. -/
theorem State.stageFor_inputOf {k : Nat} {s t : State} (hs : t.dieTemp = s.dieTemp) (hi : t.id = s.id) (ht : t.tier k = s.tier k) :
    (t.inputOf k).stageFor k = (s.inputOf k).stageFor k := by
  have htier : (t.inputOf k).tier k = (s.inputOf k).tier k := by
    unfold State.inputOf
    rw [hs]
    dsimp only
    split <;> rw [State.tier_modTier, State.tier_modTier, ht]
  have hid : (t.inputOf k).id = (s.inputOf k).id :=
    ((State.inputOf_heats k t).only.id').trans (hi.trans (State.inputOf_heats k s).only.id'.symm)
  unfold State.stageFor State.stageAt
  rw [htier, hid]

/-- One tier's part of the update. -/
def State.heatTier (k : Nat) (s : State) : State := (s.inputOf k).stageFollow k

/-- The tiers below `n` have taken their new inputs and stages. -/
structure State.heated (n : Nat) (s t : State) : Prop where
  only : s.only [.tiers, .counts] [] t
  runs : s.runsKept t
  later : ∀ j : Nat, n ≤ j → t.tier j = s.tier j

theorem State.heated.next {n : Nat} {s t : State} (h : s.heated n t) (hn : (s.inputOf n).stageFor n < 3) : s.heated (n + 1) (t.heatTier n) := by
  have hst : (t.inputOf n).stageFor n < 3 := by rwa [State.stageFor_inputOf
    (State.dieTemp_congr fun i => by rw [State.sensor_congr h.only.sensors']) h.only.id' (h.later n (Nat.le_refl n))]
  have g := (State.inputOf_heats n t).trans (State.stageFollow_heats hst)
  exact ⟨h.only.trans g.only, h.runs.trans g.runs, fun j hj => (g.others j (by omega)).trans (h.later j (by omega))⟩

theorem State.heated.all {s : State} (h : ∀ k < 4, (s.inputOf k).stageFor k < 3) : s.heated 4 (forEach (List.range 4) State.heatTier s) := by
  rw [show List.range 4 = [0, 1, 2, 3] from rfl]
  simp only [forEach_cons, forEach_nil]
  exact ((((⟨here, .refl s, fun _ _ => rfl⟩ : s.heated 0 s).next (h 0 (by decide))).next (h 1 (by decide))).next (h 2 (by decide))).next (h 3 (by decide))

theorem State.refreshTemps_only (s : State) : s.only [.chans] [] s.refreshTemps := by
  refine State.only.loop _ (fun n t => ?_) _ here
  split
  · split
    · exact here.modChan ..
    · exact here
  · exact here.modChan ..

theorem State.devStageFrom_only (old : Nat) (s : State) :
    s.only [.notices, .counts, .power, .regs] [Reg.SVC_STATUS, Reg.THERM_STATUS] (s.devStageFrom old) := by
  unfold State.devStageFrom
  dsimp only
  split
  · exact (State.thermFlags_only _).mono
  · exact (here.notice ..).step (State.thermFlags_only _)

theorem State.calTrigger_heats (k : Nat) (c : CalCause) (s : State) : s.heats k (s.calTrigger k c) := by
  have hmod (f : CalS → CalS) : s.heats k (s.modTier k fun x => { x with cal := f x.cal }) := (State.heats.refl k s).modTier _ fun _ => rfl
  unfold State.calTrigger
  dsimp only
  split
  · exact .refl ..
  · split
    · split
      · exact hmod fun y => { y with pending := some c }
      · exact .refl ..
    · split
      · refine State.heats.bump (State.heats.modTier (.refl k s) _ ?_) ..
        exact fun _ => rfl
      · split
        · exact .refl ..
        · exact hmod fun y => { y with pending := some c }

theorem State.calJudge_step_heats (k : Nat) (s : State) : s.heats k (match s.calTemp k with
    | none => s
    | some a =>
      if s.running && s.calAuto && (s.tier k).cal.running.isNone && (s.tier k).cal.pending.isNone &&
        decide (10 * s.fld Reg.CLK_CAL_CTL F.CLK_CAL_CTL_DELTA < (a - (s.tier k).cal.refTemp).natAbs) then s.calTrigger k .temperature else s) := by
  split
  · exact .refl ..
  · split
    · exact State.calTrigger_heats ..
    · exact .refl ..

theorem State.calJudge_only (s : State) : s.only [.tiers, .counts] [] s.calJudge :=
  State.only.loop _ (fun k t => (State.calJudge_step_heats k t).only) _ here

theorem State.calJudge_runs (s : State) : s.runsKept s.calJudge :=
  State.runsKept.loop (fun k t => (State.calJudge_step_heats k t).runs) _ (.refl s)

/-- What may change with the readings. -/
def heatParts : List Part := [.sensors, .tiers, .chans, .power, .notices, .counts, .regs]

section
variable {s : State} (h : ∀ k < 4, (s.inputOf k).stageFor k < 3)
include h

theorem State.thermUpdate_only : s.only heatParts [Reg.THERM_STATUS, Reg.SVC_STATUS] s.thermUpdate := by
  have h0 := ((State.heated.all h).only.mono (qs := heatParts) (bs := [Reg.THERM_STATUS, Reg.SVC_STATUS])).step (State.refreshTemps_only _)
  have h1 := (h0.step (State.devStageFrom_only s.devStage _)).step (State.calJudge_only _)
  exact h1

theorem State.thermUpdate_runs : s.runsKept s.thermUpdate :=
  (((State.heated.all h).runs.trans (.of_only (State.refreshTemps_only _))).trans (.of_only (State.devStageFrom_only ..))).trans (State.calJudge_runs _)

theorem State.thermUpdate_sensors : s.thermUpdate.sensors = s.sensors :=
  ((State.calJudge_only _).sensors').trans (((State.devStageFrom_only ..).sensors').trans
    ((State.refreshTemps_only _).sensors'.trans (State.heated.all h).only.sensors'))

end

/-! ### A reading (R396) -/

section
variable {s : State} {i : Nat} {v : Int}

/-- The state with the reading taken. -/
def State.took (s : State) (i : Nat) (v : Int) : State :=
  (s.modSensor i (SensorS.take v (s.comparison i))).modSensor i fun x => { x with tripN := 0 }

theorem State.took_sensor : (s.took i v).sensor i = { (s.sensor i).take v (s.comparison i) with tripN := 0 } := by
  rw [State.took, State.sensor_modSensor, State.sensor_modSensor]

theorem State.modSensor_ne {j : Nat} (hj : j ≠ i) (f : SensorS → SensorS) (s : State) : (s.modSensor i f).sensor j = s.sensor j := AMap.get_set_ne hj ..

theorem State.took_sensor_ne {j : Nat} (hj : j ≠ i) : (s.took i v).sensor j = s.sensor j :=
  (State.modSensor_ne hj ..).trans (State.modSensor_ne hj ..)

theorem State.took_only : s.only [.sensors] [] (s.took i v) := (here.modSensor ..).modSensor ..

/-- The stages that the inputs call for are those of the sensor's new reading. -/
theorem State.took_stageFor (k : Nat) :
    ((s.took i v).inputOf k).stageFor k = ((s.modSensor i (SensorS.take v (s.comparison i))).inputOf k).stageFor k := by
  refine State.stageFor_inputOf (State.dieTemp_congr fun j => ?_) rfl rfl
  by_cases hj : j = i
  · rw [hj, State.took, State.sensor_modSensor]; rfl
  · rw [State.took, State.modSensor_ne hj]

/-- What follows a reading that trips nothing and breaks no sensor. -/
theorem State.reading_quiet (hw : s.awake = true) (hv : v < s.tripTemp i)
    (hq : ((s.sensor i).take v (s.comparison i)).verdict (sensorDie i == 0) = none) : s.reading i (some v) = (s.took i v).thermUpdate := by
  have hpw : s.powered = true := by
    unfold State.awake at hw
    unfold State.powered
    revert hw
    cases s.power.phase <;> decide
  have hhot : decide (s.tripTemp i ≤ v) = false := decide_eq_false (by omega)
  have hver : ((s.took i v).sensor i).verdict (sensorDie i == 0) = none := by rw [State.took_sensor]; exact hq
  have hw1 : (s.modSensor i (SensorS.take v (s.comparison i))).awake = true := hw
  have htrip : (s.modSensor i (SensorS.take v (s.comparison i))).tripTemp i = s.tripTemp i := rfl
  have htook : (s.modSensor i (SensorS.take v (s.comparison i))).modSensor i (fun x => { x with tripN := 0 }) = s.took i v := rfl
  have hx : ((s.modSensor i (SensorS.take v (s.comparison i))).sensor i).verdict (sensorDie i == 0) = none := by rw [State.sensor_modSensor]; exact hq
  unfold State.reading
  simp only [hpw, hw1, htrip, hhot, Bool.not_true, Bool.false_eq_true, if_false, Option.isNone_some, Bool.false_and, htook, hx, ite_self]

theorem State.completes_sensorReading {i : Fin 72} (hw : s.awake = true) (hst : s.still) (hv : v < s.tripTemp i.val)
    (hq : ((s.sensor i.val).take v (s.comparison i.val)).verdict (sensorDie i.val == 0) = none)
    (hk : ∀ k < 4, ((s.modSensor i.val (SensorS.take v (s.comparison i.val))).inputOf k).stageFor k < 3) :
    s.completes (.sensorReading i (some v)) heatParts [Reg.THERM_STATUS, Reg.SVC_STATUS]
      (fun t => t.sensor i.val = { (s.sensor i.val).take v (s.comparison i.val) with tripN := 0 } ∧ ∀ j : Nat, j ≠ i.val → t.sensor j = s.sensor j) := by
  have hf := State.reading_quiet hw hv hq
  have hk' : ∀ k < 4, ((s.took i v).inputOf k).stageFor k < 3 := fun k hk4 => by rw [State.took_stageFor]; exact hk k hk4
  have ho : s.only heatParts [Reg.THERM_STATUS, Reg.SVC_STATUS] (s.took i v).thermUpdate :=
    ((State.took_only (i := i.val) (v := v)).mono (qs := heatParts) (bs := [Reg.THERM_STATUS, Reg.SVC_STATUS])).step (State.thermUpdate_only hk')
  have hr : ∀ k < 4, ((s.took i v).thermUpdate.tier k).run = (s.tier k).run := fun k _ => State.thermUpdate_runs hk' k
  refine State.completes_always (f := State.reading i (some v)) rfl (by rw [hf]; exact ho.still_runs hst hr) (by rw [hf]; exact ho) ?_
  rw [hf]
  have hs (j : Nat) : (s.carry (s.took i v).thermUpdate).sensor j = (s.took i v).sensor j :=
    State.sensor_congr (State.thermUpdate_sensors hk') j
  exact ⟨(hs i).trans State.took_sensor, fun j hj => (hs j).trans (State.took_sensor_ne hj)⟩

end

/-! ### A stage falls, a hold ends (R401, R404) -/

section
variable {s : State} (hw : s.awake = true) (hst : s.still)
include hw hst

theorem State.completes_stageDwell {k : Fin 4} (hd : (s.tier k.val).dwellAt.isSome = true) (hh : (s.tier k.val).holdTill = none)
    (hlt : s.stageFor k.val < (s.tier k.val).stage) (h3 : (s.tier k.val).stage ≤ 3) :
    s.completes (.stageDwellExpiry k) [.tiers, .counts, .notices, .power, .regs] [Reg.THERM_STATUS, Reg.SVC_STATUS]
      (fun t => (t.tier k.val).stage = (s.tier k.val).stage - 1 ∧ ∀ j : Nat, j ≠ k.val → t.tier j = s.tier j) := by
  have hf : s.stageFall k = (s.setStage k ((s.tier k).stage - 1)).devStageFrom s.devStage := by
    unfold State.stageFall
    simp only [hw, hd, hh, hlt, Option.isNone_none, Bool.and_self, decide_true, if_true]
  have hs := State.setStage_heats (n := (s.tier k.val).stage - 1) (by omega) k s
  have hd := State.devStageFrom_only s.devStage (s.setStage k ((s.tier k).stage - 1))
  have ho := State.only.step (ps := [.tiers, .counts, .notices, .power, .regs]) (as := [Reg.THERM_STATUS, Reg.SVC_STATUS]) hs.only.mono hd
  have hr : ∀ j < 4, (((s.setStage k ((s.tier k).stage - 1)).devStageFrom s.devStage).tier j).run = (s.tier j).run :=
    fun j _ => by rw [hd.tier]; exact hs.runs j
  refine State.completes_always (f := State.stageFall k) rfl (by rw [hf]; exact ho.still_runs hst hr) (by rw [hf]; exact ho) ?_
  rw [hf]
  refine ⟨?_, fun j hj => (hd.tier j).trans (hs.others j hj)⟩
  rw [State.carry_tier, hd.tier]
  exact State.setStage_stage (by omega) ..

theorem State.completes_holdEnd {k : Fin 4} {x : Nat} (hh : (s.tier k.val).holdTill = some x) (hd : (s.tier k.val).dwellAt = none) :
    s.completes (.substHoldExpiry k) [.tiers] []
      (fun t => t.tier k.val = { s.tier k.val with holdTill := none } ∧ ∀ j : Nat, j ≠ k.val → t.tier j = s.tier j) := by
  have hf : whenAwake (State.holdEnd k) s = s.modTier k fun x => { x with holdTill := none } := by
    rw [whenAwake_true _ _ hw, State.holdEnd, hh]
    simp only [State.tier_modTier, hd]
  have ho : s.only [.tiers] [] (s.modTier k fun x => { x with holdTill := none }) := here.modTier ..
  have hr : ∀ j < 4, ((s.modTier k fun x => { x with holdTill := none }).tier j).run = (s.tier j).run :=
    fun j _ => (State.runsKept.refl s).modTier k (fun x => { x with holdTill := none }) (fun _ => rfl) j
  refine State.completes_always (f := whenAwake (State.holdEnd k)) rfl (by rw [hf]; exact ho.still_runs hst hr) (by rw [hf]; exact ho) ?_
  rw [hf]
  exact ⟨(State.carry_tier ..).trans (State.tier_modTier ..), fun j hj => (State.carry_tier ..).trans (State.tier_modTier_ne hj ..)⟩

end

/-! ### The ledger's first sample (R410, R411) -/

/-- The tier after a sample that has nothing before it. -/
def TierS.sampled (v : Option Int) (x : TierS) : TierS :=
  match v with | some v => { x with turning := [v, v], lastT := some v } | none => x

theorem State.ledgerTier_first {s : State} {k : Nat} (h : (s.tier k).turning = []) :
    s.only [.tiers] [] (s.ledgerTier k) ∧ (s.ledgerTier k).tier k = (s.tier k).sampled (s.ledgerTemp k) ∧
      ∀ j : Nat, j ≠ k → (s.ledgerTier k).tier j = s.tier j := by
  unfold State.ledgerTier
  split
  next hv => exact ⟨here, by rw [hv]; rfl, fun _ _ => rfl⟩
  next v hv =>
    rw [h, hv]
    exact ⟨here.modTier .., State.tier_modTier .., fun j hj => State.tier_modTier_ne hj ..⟩

/-- The tiers below `n` have been sampled, the others not yet. -/
structure State.sampledTo (n : Nat) (s t : State) : Prop where
  only : s.only [.tiers] [] t
  before : ∀ j : Nat, j < n → t.tier j = (s.tier j).sampled (s.ledgerTemp j)
  later : ∀ j : Nat, n ≤ j → t.tier j = s.tier j

theorem State.ledgerTemp_congr {s t : State} (h : t.sensors = s.sensors) : t.ledgerTemp = s.ledgerTemp := by
  funext k
  simp only [State.ledgerTemp, State.working, State.sensor_congr h]

theorem State.sampledTo.next {n : Nat} {s t : State} (h : s.sampledTo n t) (hn : (s.tier n).turning = []) : s.sampledTo (n + 1) (t.ledgerTier n) := by
  have ht := h.later n (Nat.le_refl n)
  obtain ⟨ho, hself, hne⟩ := State.ledgerTier_first (s := t) (k := n) (by rw [ht]; exact hn)
  rw [ht, State.ledgerTemp_congr h.only.sensors'] at hself
  refine ⟨h.only.trans ho, fun j hj => ?_, fun j hj => (hne j (by omega)).trans (h.later j (by omega))⟩
  by_cases e : j = n
  · rw [e, hself]
  · rw [hne j e, h.before j (by omega)]

theorem State.completes_ledgerSample {s : State} (hp : s.powered = true) (h : ∀ k < 4, (s.tier k).turning = []) :
    s.completes .ledgerSample [.tiers] []
      (fun t => ∀ k < 4, t.tier k = match s.ledgerTemp k with | some v => { s.tier k with turning := [v, v], lastT := some v } | none => s.tier k) := by
  have hf : s.ledgerSample = forEach (List.range 4) State.ledgerTier s := if_pos hp
  have h4 : s.sampledTo 4 (forEach (List.range 4) State.ledgerTier s) := by
    rw [show List.range 4 = [0, 1, 2, 3] from rfl]
    simp only [forEach_cons, forEach_nil]
    exact ((((⟨here, fun j hj => absurd hj (by omega), fun _ _ => rfl⟩ : s.sampledTo 0 s).next (h 0 (by decide))).next (h 1 (by decide))).next
      (h 2 (by decide))).next (h 3 (by decide))
  refine State.completes_run (f := State.ledgerSample) rfl (by rw [hf]; exact h4.only) ?_
  rw [hf]
  exact fun k hk => h4.before k hk

/-- Settles O53: what the cap, the readings, the stages and the ledger do, rule by rule. -/
theorem capAndHeat : Obligations.CapAndHeat := by
  unfold Obligations.CapAndHeat
  intro s hup hst
  refine ⟨fun pin vin => State.completes_capWindow_off hup pin vin,
    fun pin vin h hover => ⟨State.completes_capWindow_step hup pin vin h hover, State.completes_capWindow_over hup pin vin h hover⟩,
    State.completes_capRelax hup, fun i v hv hq hk => State.completes_sensorReading hup.awake hst hv hq hk,
    fun k hd hh hlt h3 => State.completes_stageDwell hup.awake hst hd hh hlt h3, fun k x hh hd => State.completes_holdEnd hup.awake hst hh hd,
    State.completes_ledgerSample hup.powered⟩

end Sys2Proof.Machine
end

section
/-! PROOFS. What a port that may send does with a message handed to it (R87, R105, R123), and the requests of the manager to host memory (R110). -/

set_option Elab.async false

namespace Sys2Proof.Machine
open Sys2Proof
open State.only (here)

/-! ### One message leaves at once -/

/-- Between two states one message has left a port, and nothing but what it carries along has changed. -/
structure State.sentOne (s : State) (p : Port) (m : Msg) (t : State) : Prop where
  only : s.only [.ports, .sent, .counts] [] t
  tx : t.net.tx = s.net.tx ++ [m.on p]
  inbox : t.net.inbox = s.net.inbox

theorem State.drain_one_eq {s : State} {p : Port} {m : Msg} (hact : (s.port p).tstate = .active)
    (hver : versionCarries (s.port p).version m.op = true) (hroom : (s.port p).buffer.length < Config.REPLAY_DEPTH)
    (hcred : (s.port p).held.has m.op.cls m.h.ndata = true) : s.drain p [m] [] [] = (s.emit p m).modPort p fun x => { x with wait := [] } := by
  rw [State.drain]
  simp [hact, hver, hroom, hcred, Msg.behindData, State.drain]

theorem State.emit_inbox (p : Port) (m : Msg) (s : State) : (s.emit p m).net.inbox = s.net.inbox := by
  unfold State.emit State.sequence
  dsimp only [State.bump]
  rw [(State.layRow_only ..).inbox', State.modPort_net_inbox, State.modPort_net_inbox]

/-- Waking the half beside a port changes nothing of it. -/
theorem State.wakeHalf_port_ne {p q : Port} (h : q ≠ p) (s : State) : (s.wakeHalf p).port q = s.port q := by
  unfold State.wakeHalf
  split
  · exact (State.sendState_port_ne h _).trans ((State.port_modPort_ne h _ _).trans (State.port_modPort_ne h _ _))
  · rfl

theorem State.wakeHalf_awake {p : Port} {s : State} (h : (s.port p).tstate = .active) : s.wakeHalf p = s := by
  unfold State.wakeHalf
  rw [h]
  rfl

theorem State.wakePort_port {p : Port} {s : State} (h : (s.port p).tstate = .active) : (s.wakePort p).port p = s.port p := by
  unfold State.wakePort
  split
  · simp only [forEach_cons, forEach_nil, State.wakeHalf_awake h]
    by_cases e : p = otherHalf p
    · rw [← e, State.wakeHalf_awake h]
    · exact State.wakeHalf_port_ne e s
  · simp only [forEach_cons, forEach_nil, State.wakeHalf_awake h]

/-- The state with a message in front of those that wait at a port that has been woken. -/
def State.queuedAt (p : Port) (m : Msg) (s : State) : State := (s.wakePort p).modPort p (PortS.queued m)

theorem State.queuedAt_only (p : Port) (m : Msg) (s : State) : s.only [.ports] [] (s.queuedAt p m) := (State.wakePort_only p s).modPort ..

section
variable {s : State} {p : Port} {m : Msg} (h : s.sends p m.op m.h.ndata)
include h

theorem State.hand_sends : s.hand p m = ((s.queuedAt p m).emit p m).modPort p fun x => { x with wait := [] } := by
  obtain ⟨hact, hwait, hver, hroom, hcred, hsleep, howes⟩ := h
  have hw := State.wakePort_port hact
  have hadd : (s.wakePort p).modPort p (fun x => { x with wait := x.wait ++ [m] }) = s.queuedAt p m := by
    unfold State.queuedAt State.modPort
    rw [hw]
    simp only [PortS.queued, hwait, List.nil_append]
  have hp : (s.queuedAt p m).port p = (s.port p).queued m := (State.port_modPort ..).trans (by rw [hw])
  unfold State.hand
  rw [hsleep, when_false, hadd, State.flush, State.muted, hp, if_neg (by simp only [PortS.queued, howes]; decide)]
  simp only [PortS.queued, hwait]
  exact State.drain_one_eq (by rw [hp]; exact hact) (by rw [hp]; exact hver) (by rw [hp]; exact hroom) (by rw [hp]; exact hcred)

theorem State.sendOn_eq : s.sendOn p m = ((s.queuedAt p m).emit p m).modPort p fun x => { x with wait := [] } := by
  have hact := h.1
  have hh := State.hand_sends h
  have hw : ((s.hand p m).port p).wait = [] := by rw [hh, State.port_modPort]
  unfold State.sendOn
  rw [hact, if_neg (by simp), State.hostWait, hw]
  simp [hh]

/-- A message for a port that may send it leaves, and nothing else happens. -/
theorem State.sendOn_sends : s.sentOne p m (s.sendOn p m) := by
  rw [State.sendOn_eq h]
  refine ⟨?_, ?_, ?_⟩
  · exact (((State.queuedAt_only p m s).mono (qs := [.ports, .sent, .counts])).step (State.emit_only ..)).modPort ..
  · rw [State.modPort_net_tx, State.emit_tx, (State.queuedAt_only p m s).tx']
  · rw [State.modPort_net_inbox, State.emit_inbox, (State.queuedAt_only p m s).inbox']

end

/-! ### What is quiet stays quiet where a message is sent -/

/-- Where nothing goes on, nothing does after a message has been sent and tables have changed that nothing moves on from. -/
theorem State.only.calm_sent {s t : State} {ps : List Part} {as : List Nat} (h : s.only ps as t) (hs : s.calm)
    (hi : t.net.inbox = s.net.inbox) (hj : t.que.job = s.que.job) (hd : t.que.descs.any DescS.due = false) (hg : t.que.groups = s.que.groups)
    (hc : t.mgr.cfg = s.mgr.cfg) (hin : t.mgr.ingress = s.mgr.ingress) (hw : t.mgr.waitC = s.mgr.waitC)
    (h4 : Part.prot ∉ ps := by decide) (h6 : Part.tiers ∉ ps := by decide) (h7 : Part.pool ∉ ps := by decide) : t.calm := by
  have he : t.engBusy = s.engBusy := by
    have : t.engTurns = s.engTurns := funext (fun k => by simp only [State.engTurns, h.tier k h6])
    rw [State.engBusy, State.engBusy, this]
  obtain ⟨h1, h2, h3, h5, -, h8, h9, h10, h11, h12⟩ := hs
  simp only [State.calm, State.groupBusy, State.copyBusy, hi, hj, hd, hg, hc, hin, hw, he, h.prot' h4, h.pool' h7] at *
  exact ⟨h1, h2, h3, h5, trivial, h8, h9, h10, h11, h12⟩

/-! ### A request to host memory (R110) -/

/-- The tag of the next request to host memory. -/
def State.hostTag (s : State) : Nat := (freeTag (fun t => (AMap.find t s.mgr.host).isSome) 65536 s.mgr.nextH).getD s.mgr.nextH

theorem State.hostTag_free {s : State} (h : AMap.find s.mgr.nextH s.mgr.host = none) : s.hostTag = s.mgr.nextH := by
  simp [State.hostTag, freeTag, h]

/-- The manager with a request that it has made. -/
def MgrS.asking (t : Nat) (r : HReq) (g : MgrS) : MgrS := { g with nextH := (t + 1) % 65536, host := AMap.put t r g.host }

/-- Between two states the manager has sent one request to host memory. -/
structure State.requested (s : State) (use : HostUse) (op : MOp) (addr : Nat) (data : List Byte) (t : State) : Prop where
  only : s.only [.ports, .sent, .counts, .mgr] [] t
  inbox : t.net.inbox = s.net.inbox
  mgr : t.mgr = s.mgr.asking s.hostTag { use := use, len := if data.isEmpty then granule op else 0, addr := addr, time := s.now }
  tx : ∃ m : Msg, t.net.tx = s.net.tx ++ [(s.hostPort, m)] ∧ m.op = op ∧ m.addr = addr % 2 ^ 64 ∧ m.data = data ∧
    m.h.tag.toNat = s.hostTag % 65536

theorem State.hostReq_sends {s : State} (use : HostUse) {op : MOp} (addr : Nat) {data : List Byte} (h : s.sends s.hostPort op (data.length / 32)) :
    s.requested use op addr data (s.hostReq use op addr data) := by
  let u : State := { s with mgr := s.mgr.asking s.hostTag { use := use, len := if data.isEmpty then granule op else 0, addr := addr, time := s.now } }
  let m : Msg := { op := op, h := { s.hdrTo 0 true .queue s.hostTag (data.length / 32) 0 0 with src := 0 }, addr := addr % 2 ^ 64, data := data }
  have hs := State.sendOn_sends (s := u) (p := s.hostPort) (m := m) h
  exact ⟨(here.mgr _).step hs.only, hs.inbox, hs.only.mgr', _, hs.tx, rfl, rfl, rfl, BitVec.toNat_ofNat ..⟩

theorem State.requested.asked {s t : State} {use : HostUse} {op : MOp} {addr : Nat} (h : s.requested use op addr [] t)
    (hf : AMap.find s.mgr.nextH s.mgr.host = none) : s.asked use op addr t := by
  obtain ⟨m, htx, hop, haddr, -, htag⟩ := h.tx
  have ht := State.hostTag_free hf
  refine ⟨?_, m, htx, hop, haddr, by rw [htag, ht]⟩
  rw [h.mgr, MgrS.asking, ht, AMap.find_put_self]
  rfl

theorem State.hostPort_congr {s t : State} (h : ∀ p, t.port p = s.port p) : t.hostPort = s.hostPort := by
  simp only [State.hostPort, State.portUp, h]
  rfl

/-- A request made after a change of other tables has been made. -/
theorem State.only.asked {s u t : State} {ps : List Part} {as : List Nat} {use : HostUse} {op : MOp} {addr : Nat} (hu : s.only ps as u)
    (h : u.asked use op addr t) (h1 : Part.mgr ∉ ps := by decide) (h2 : Part.sent ∉ ps := by decide) (h3 : Part.ports ∉ ps := by decide) :
    s.asked use op addr t := by
  obtain ⟨hf, m, htx, hop, haddr, htag⟩ := h
  rw [hu.mgr' h1, hu.now'] at hf
  rw [hu.tx' h2, State.hostPort_congr fun p => hu.port p h3] at htx
  rw [hu.mgr' h1] at htag
  exact ⟨hf, m, htx, hop, haddr, htag⟩

theorem State.requested.calm {s t : State} {use : HostUse} {op : MOp} {addr : Nat} {data : List Byte} (h : s.requested use op addr data t)
    (hs : s.calm) : t.calm := by
  have hq := h.only.que'
  refine h.only.calm_sent hs h.inbox (by rw [hq]) ?_ (by rw [hq]) (by rw [h.mgr]; rfl) (by rw [h.mgr]; rfl) (by rw [h.mgr]; rfl)
  rw [hq]
  exact hs.2.2.2.2.1

/-- A command that changes tables and sends one request to host memory. -/
theorem State.completes_hostReq {s u : State} {c : Instr} {f : State → State} {use : HostUse} {op : MOp} {addr : Nat} {data : List Byte} {P : State → Prop}
    (hc : exec c s = always f s) (hst : s.still) (hf : f s = u.hostReq use op addr data) (hu : s.only [.que, .counts] [] u)
    (hs : s.sends s.hostPort op (data.length / 32)) (hj : u.que.job = s.que.job) (hd : u.que.descs.any DescS.due = false)
    (hg : u.que.groups = s.que.groups) (hP : u.requested use op addr data (s.carry (f s)) → P (s.carry (f s))) :
    s.completes c [.ports, .sent, .counts, .mgr, .que] [] P := by
  have hs' : u.sends u.hostPort op (data.length / 32) := by
    rw [State.hostPort_congr fun p => hu.port p]
    exact State.sends_congr (by rw [hu.port]) hs
  have hreq := State.hostReq_sends use addr hs'
  have hcalm : u.calm := hu.calm_sent hst.1 hu.inbox' hj hd hg (by rw [hu.mgr']) (by rw [hu.mgr']) (by rw [hu.mgr'])
  have e : s.carry (f s) = u.carry (f s) := by rw [State.carry, State.carry, hu.1.1, hu.now', hu.tick']
  rw [← hf] at hreq
  refine State.completes_always hc ⟨hreq.calm hcalm, by rw [hreq.only.wait', hu.wait']; exact hst.2⟩ (hu.mono.step hreq.only) (hP ⟨?_, hreq.inbox, hreq.mgr, hreq.tx⟩)
  rw [e]
  exact hreq.only.carry

end Sys2Proof.Machine
end

section
/-! PROOFS. Polls, fetch turns and completion records (R204, R206, R212, R217). -/

set_option Elab.async false

namespace Sys2Proof.Machine
open Sys2Proof
open State.only (here)

/-! ### A poll (R204) -/

theorem State.ringFull_congr {s t : State} (h1 : t.que.ctx = s.que.ctx) (h2 : t.que.descs = s.que.descs) (h3 : t.que.cqs = s.que.cqs) (c : Nat) :
    t.ringFull c = s.ringFull c := by
  simp only [State.ringFull, State.ringOf, State.ctx, h1, h2, h3]
  rfl

/-- The queues' tables as a poll of the queues `l` begins, with `n` reads outstanding. -/
def QueS.polled (l : List Nat) (n : Nat) (x : QueS) : QueS :=
  { x with dbBase := x.dbNew, sumBase := x.sumNew, pollDue := false, inPoll := l, polling := n }

/-- The manager as a poll of one queue begins. -/
def State.polled (q : Nat) (s : State) : State := { s with que := s.que.polled [q] (s.que.polling + 1) }.bump (mgrSlot 33) 1

theorem State.pollStart_one {s : State} {q : Nat} (he : s.enabled = [q]) (hr : s.ringFull (s.ringOf q) = false)
    (hs : s.sends s.hostPort .rd128 0) :
    s.pollStart = (s.polled q).hostReq (.summary (q / 1024)) .rd128 (s.que.sumNew + 128 * (q / 1024)) [] := by
  have ht := State.hostReq_sends (s := s.polled q) (.summary (q / 1024)) (s.que.sumNew + 128 * (q / 1024)) (data := []) hs
  have hq := ht.only.que'
  generalize htd : (s.polled q).hostReq (.summary (q / 1024)) .rd128 (s.que.sumNew + 128 * (q / 1024)) [] = t at ht hq
  have hen : t.enabled = [q] := by
    simp only [State.enabled, hq]
    exact he
  have hrt : t.ringFull (t.ringOf q) = false := by
    have e : t.ringOf q = s.ringOf q := by
      simp only [State.ringOf, State.ctx, hq]
      rfl
    rw [e, State.ringFull_congr (s := s) (by rw [hq]; rfl) (by rw [hq]; rfl) (by rw [hq]; rfl)]
    exact hr
  have h0 : (({ s with que := s.que.polled [q] s.que.polling } : State).bump (mgrSlot 33) 1).enabled = [q] := he
  unfold State.pollStart
  simp only [he]
  simp only [show (({ s with que.dbBase := s.que.dbNew, que.sumBase := s.que.sumNew, que.pollDue := false, que.inPoll := [q] } : State).bump
    (mgrSlot 33) 1) = ({ s with que := s.que.polled [q] s.que.polling } : State).bump (mgrSlot 33) 1 from rfl, h0, List.map_cons, List.map_nil, dedup,
    List.filter_nil, forEach_cons, forEach_nil]
  have hu : ({ ({ s with que := s.que.polled [q] s.que.polling } : State).bump (mgrSlot 33) 1 with
    que.polling := (({ s with que := s.que.polled [q] s.que.polling } : State).bump (mgrSlot 33) 1).que.polling + 1 } : State) = s.polled q := rfl
  have hb : (({ s with que := s.que.polled [q] s.que.polling } : State).bump (mgrSlot 33) 1).que.sumBase = s.que.sumNew := rfl
  rw [hu, hb, htd]
  simp only [hen, List.map_cons, List.map_nil, dedup, List.filter_nil, List.filter_cons, hrt, Bool.false_eq_true, if_false, forEach_nil]

theorem State.manages {s : State} (hup : s.up) (hm : s.isManager = true) : (s.isManager && s.running) = true := by
  obtain ⟨h, -⟩ := hup
  simp [hm, State.running, h]

section
variable {s : State} (hup : s.up) (hst : s.still) (hm : s.isManager = true)
include hup hst hm

theorem State.completes_poll {q : Nat} (hrun : s.fld Reg.QCTX_POLL F.QCTX_POLL_RUN = 1) (h0 : s.que.polling = 0) (he : s.enabled = [q])
    (hr : s.ringFull (s.ringOf q) = false) (hf : AMap.find s.mgr.nextH s.mgr.host = none) (hs : s.sends s.hostPort .rd128 0) :
    s.completes .poll [.ports, .sent, .counts, .mgr, .que] []
      (fun t => t.que = { s.que with dbBase := s.que.dbNew, sumBase := s.que.sumNew, pollDue := false, inPoll := [q], polling := 1 } ∧
        s.asked (.summary (q / 1024)) .rd128 (s.que.sumNew + 128 * (q / 1024)) t) := by
  have hfn : s.pollTick = (s.polled q).hostReq (.summary (q / 1024)) .rd128 (s.que.sumNew + 128 * (q / 1024)) [] := by
    rw [State.pollTick, State.manages hup hm, State.pollsRun, hrun, ← State.pollStart_one he hr hs]
    simp only [h0, beq_self_eq_true, Bool.and_self, if_true]
  have hp : s.only [.que, .counts] [] (s.polled q) := State.only.bump _ _ (here.que _)
  refine State.completes_hostReq (f := State.pollTick) rfl hst hfn hp hs rfl hst.1.2.2.2.2.1 rfl fun ht => ⟨(ht.only.que').trans ?_, hp.asked (ht.asked hf)⟩
  show s.que.polled [q] (s.que.polling + 1) = _
  rw [h0]
  rfl

theorem State.completes_poll_overrun (hrun : s.fld Reg.QCTX_POLL F.QCTX_POLL_RUN = 1) (h0 : s.que.polling ≠ 0) (hmild : s.mild 98 0) :
    s.completes .poll (mildParts ++ [.que]) (Reg.QCTX_STATUS :: eventRegs)
      (fun t => t.que = { s.que with pollDue := true } ∧ t.fld Reg.QCTX_STATUS F.QCTX_STATUS_POLL_OVERRUN = 1) := by
  let v : State := (({ s with que.pollDue := true } : State).raise Reg.QCTX_STATUS F.QCTX_STATUS_POLL_OVERRUN).bump (mgrSlot 34) 1
  have hfn : s.pollTick = v.faultN 3 98 0 [] 0 := by
    rw [State.pollTick, State.manages hup hm, State.pollsRun, hrun]
    simp only [h0, beq_self_eq_true, Bool.and_self, if_true, if_false]
    rfl
  have hv : s.only [.que, .regs, .counts] [Reg.QCTX_STATUS] v := ((here.que _).raise ..).bump ..
  have hq : v.que = { s.que with pollDue := true } := (State.bump_que ..).trans (State.raise_que ..)
  have hw : v.awake = true := (hv.awake).trans hup.awake
  have hev := State.faultN_mild_only hw (hv.mild hmild) [] 0
  have ho : s.only (mildParts ++ [.que]) (Reg.QCTX_STATUS :: eventRegs) (v.faultN 3 98 0 [] 0) := State.only.step hv.mono hev (ha := by simp [eventRegs])
  have hcalm : v.calm := hv.calm_sent hst.1 hv.inbox' (by rw [hq]) (by rw [hq]; exact hst.1.2.2.2.2.1) (by rw [hq])
    (by rw [hv.mgr']) (by rw [hv.mgr']) (by rw [hv.mgr'])
  refine State.completes_always (f := State.pollTick) rfl ?_ (by rw [hfn]; exact ho) ?_
  · rw [hfn]
    exact State.faultN_mild_still hw (hv.mild hmild) [] 0 ⟨hcalm, by rw [hv.wait']; exact hst.2⟩
  · rw [hfn, State.carry_fld, State.reg_faultN_fld (by decide)]
    exact ⟨(hev.que').trans hq, (State.fld_bump ..).trans (State.fld_raise _ _ (by decide) _)⟩

end

/-! ### The words of a context -/

theorem cPut_length (c : List Nat) (n v : Nat) : (cPut c n v).length = max 16 c.length := by
  simp only [cPut, List.length_set, List.length_append, List.length_replicate]
  omega

theorem cw_cPut_self {n : Nat} (hn : n < 16) (c : List Nat) (v : Nat) : cw (cPut c n v) n = v % 2 ^ 32 := by
  have h : n < (c ++ List.replicate (16 - c.length) 0).length := by simp only [List.length_append, List.length_replicate]; omega
  simp [cw, cPut, List.getD_eq_getElem?_getD, List.getElem?_set_self h]

theorem cw_cPut_ne {n k : Nat} (hk : n ≠ k) (c : List Nat) (v : Nat) : cw (cPut c n v) k = cw c k := by
  simp only [cw, cPut, List.getD_eq_getElem?_getD, List.getElem?_set_ne hk]
  by_cases h : k < c.length
  · rw [List.getElem?_append_left h]
  · rw [List.getElem?_append_right (by omega), List.getElem?_eq_none (l := c) (by omega), List.getElem?_replicate]
    split <;> rfl

/-! ### A fetch turn (R206, R212) -/

/-- The context of a queue one descriptor of which is read. -/
def cFetched (c : List Nat) : List Nat := cPutInflight (cPut (cPut c 8 (cHead c + 1)) 9 (cNextSeq c + 1)) (cInflight c + 1)

theorem cHead_cFetched (c : List Nat) : cHead (cFetched c) = (cHead c + 1) % 2 ^ 32 := by
  rw [cFetched, cPutInflight, cHead, cw_cPut_ne (by decide), cw_cPut_ne (by decide), cw_cPut_self (by decide)]

theorem cw_cFetched {k : Nat} (h8 : 8 ≠ k) (h9 : 9 ≠ k) (h12 : 12 ≠ k) (c : List Nat) : cw (cFetched c) k = cw c k := by
  rw [cFetched, cPutInflight, cw_cPut_ne h12, cw_cPut_ne h9, cw_cPut_ne h8]

theorem cRing_cFetched (c : List Nat) : cRing (cFetched c) = cRing c := by
  rw [cRing, cRing, cw_cFetched (by decide) (by decide) (by decide), cw_cFetched (by decide) (by decide) (by decide)]

theorem cRingLog2_cFetched (c : List Nat) : cRingLog2 (cFetched c) = cRingLog2 c := by
  rw [cRingLog2, cRingLog2, cw_cFetched (by decide) (by decide) (by decide)]

/-- The descriptor that a fetch turn reads first. -/
def State.fetching (s : State) (q : Nat) : DescS := { q := q, i := cHead (s.ctx q), order := s.que.nextDesc, seqWant := cNextSeq (s.ctx q) }

/-- The manager as it reads the descriptor at the head of a queue. -/
def State.fetched (q : Nat) (s : State) : State :=
  ({ s with que.nextDesc := s.que.nextDesc + 1, que.descs := s.que.descs ++ [s.fetching q], que.stalled := AMap.del q s.que.stalled } : State).setCtx q
    (cFetched (s.ctx q))

/-- Where in host memory the descriptor at the head of a queue lies. -/
def State.headAddr (s : State) (q : Nat) : Nat := cRing (s.ctx q) + 64 * (cHead (s.ctx q) % 2 ^ cRingLog2 (s.ctx q))

section
variable {s : State} {q : Nat} (ht : AMap.find q s.que.tails = some ((cHead (s.ctx q) + 1) % 2 ^ 32))
include ht

theorem State.fetchOne_head (hr : s.ringFull (s.ringOf q) = false) :
    s.fetchOne q = ((s.fetched q).hostReq (.desc q (cHead (s.ctx q))) .rd64 (s.headAddr q) [], true) := by
  have hne : ¬ (cHead (s.ctx q) + 1) % 2 ^ 32 = cHead (s.ctx q) := by omega
  unfold State.fetchOne
  simp only [AMap.get, ht, Option.getD_some, hne, hr, if_false, Bool.false_eq_true]
  rw [← cFetched, cRing_cFetched, cRingLog2_cFetched]
  rfl

/-- One descriptor is all that the queue has. -/
theorem State.fetchOne_done {u : State} (hu : u.que = (s.fetched q).que) : u.fetchOne q = (u, false) := by
  have hc : u.ctx q = cFetched (s.ctx q) := by
    rw [State.ctx, hu]
    exact State.ctx_setCtx ..
  have htl : AMap.find q u.que.tails = some ((cHead (s.ctx q) + 1) % 2 ^ 32) := by rw [hu]; exact ht
  unfold State.fetchOne
  simp only [AMap.get, htl, hc, cHead_cFetched, Option.getD_some, if_true]

theorem State.fetchN_one (hr : s.ringFull (s.ringOf q) = false) (hs : s.sends s.hostPort .rd64 0) (n : Nat) :
    s.fetchN q (n + 2) = (s.fetched q).hostReq (.desc q (cHead (s.ctx q))) .rd64 (s.headAddr q) [] := by
  have hq := (State.hostReq_sends (s := s.fetched q) (.desc q (cHead (s.ctx q))) (s.headAddr q) (data := []) hs).only.que'
  rw [State.fetchN, State.fetchOne_head ht hr]
  simp only [State.fetchN, State.fetchOne_done ht hq]

end

/-- The manager whose turn has come to a queue: of a firm class, or of an ordinary one. -/
def State.turned (q : Nat) (s : State) : State :=
  if cSc (s.ctx q) < 4 then { s with que.last := q } else { s with que.lastOrd := q }

theorem nextAfter_one (last q : Nat) : nextAfter last [q] = some q := by
  unfold nextAfter
  by_cases h : last < q <;> simp [h]

theorem State.fetchTurn_one {s : State} {q : Nat} (h : s.fetchable = [q]) : ∃ n, s.fetchTurn = ((s.bump (mgrSlot 36) n).turned q).fetchN q 8 := by
  refine ⟨s.newsy.countP (fun q => s.ringFull (s.ringOf q)), ?_⟩
  have hctx (n : Nat) : (s.bump (mgrSlot 36) n).ctx = s.ctx := rfl
  unfold State.fetchTurn State.turned
  by_cases hc : cSc (s.ctx q) < 4
  · simp only [h, hctx, List.filter_cons, hc, decide_true, if_true, List.filter_nil, nextAfter_one]
    rfl
  · have h4 : 4 ≤ cSc (s.ctx q) := by omega
    simp only [h, hctx, List.filter_cons, hc, h4, decide_true, decide_false, Bool.false_eq_true, if_true, if_false, List.filter_nil, nextAfter_one]
    rfl

theorem State.turned_only (q : Nat) (s : State) : s.only [.que] [] (s.turned q) := by
  unfold State.turned
  split
  · exact here.que _
  · exact here.que _

/-- A turn keeps all of the queues' tables but the place in the rotation. -/
theorem State.turned_que (q : Nat) (s : State) : ({ (s.turned q).que with last := 0, lastOrd := 0 } : QueS) = { s.que with last := 0, lastOrd := 0 } := by
  unfold State.turned
  split <;> rfl

/-- A descriptor that is being read goes on by nothing but its arrival. -/
theorem State.fetching_due (s : State) (q : Nat) : (s.fetching q).due = false := rfl

theorem State.completes_fetchTurn {s : State} {q : Nat} (hup : s.up) (hst : s.still) (hm : s.isManager = true) (h : s.fetchable = [q])
    (ht : AMap.find q s.que.tails = some ((cHead (s.ctx q) + 1) % 2 ^ 32)) (hr : s.ringFull (s.ringOf q) = false)
    (hf : AMap.find s.mgr.nextH s.mgr.host = none) (hs : s.sends s.hostPort .rd64 0) :
    s.completes .fetchTurn [.ports, .sent, .counts, .mgr, .que] []
      (fun t => t.que.descs = s.que.descs ++ [{ q := q, i := cHead (s.ctx q), order := s.que.nextDesc, seqWant := cNextSeq (s.ctx q) }] ∧
        t.ctx q = cPutInflight (cPut (cPut (s.ctx q) 8 (cHead (s.ctx q) + 1)) 9 (cNextSeq (s.ctx q) + 1)) (cInflight (s.ctx q) + 1) ∧
        s.asked (.desc q (cHead (s.ctx q))) .rd64 (cRing (s.ctx q) + 64 * (cHead (s.ctx q) % 2 ^ cRingLog2 (s.ctx q))) t) := by
  obtain ⟨n, hturn⟩ := State.fetchTurn_one h
  let u : State := (s.bump (mgrSlot 36) n).turned q
  have hu : s.only [.counts, .que] [] u := (here.bump ..).step (State.turned_only ..)
  have hque : ({ u.que with last := 0, lastOrd := 0 } : QueS) = { s.que with last := 0, lastOrd := 0 } := State.turned_que ..
  have hctxs : u.que.ctx = s.que.ctx := (congrArg QueS.ctx hque :)
  have hdescs : u.que.descs = s.que.descs := (congrArg QueS.descs hque :)
  have htails : u.que.tails = s.que.tails := (congrArg QueS.tails hque :)
  have hcqs : u.que.cqs = s.que.cqs := (congrArg QueS.cqs hque :)
  have hjob : u.que.job = s.que.job := (congrArg QueS.job hque :)
  have hgroups : u.que.groups = s.que.groups := (congrArg QueS.groups hque :)
  have hnext : u.que.nextDesc = s.que.nextDesc := (congrArg QueS.nextDesc hque :)
  have hctx : u.ctx q = s.ctx q := by rw [State.ctx, hctxs]; rfl
  have hport : ∀ p, u.port p = s.port p := fun p => hu.port p
  have hhost : u.hostPort = s.hostPort := State.hostPort_congr hport
  have hfetching : u.fetching q = s.fetching q := by rw [State.fetching, State.fetching, hctx, hnext]
  have haddr : u.headAddr q = s.headAddr q := by rw [State.headAddr, State.headAddr, hctx]
  have hfn : (if s.isManager && s.running then s.fetchTurn else s) =
      (u.fetched q).hostReq (.desc q (cHead (s.ctx q))) .rd64 (s.headAddr q) [] := by
    rw [State.manages hup hm, if_pos rfl, hturn, ← hctx, ← haddr]
    refine State.fetchN_one (s := u) ?_ ?_ ?_ 6
    · rw [htails, hctx]; exact ht
    · rw [show u.ringOf q = s.ringOf q by rw [State.ringOf, hctx]; rfl, State.ringFull_congr hctxs hdescs hcqs]; exact hr
    · rw [hhost]
      exact (State.sends_congr (t := u) (by rw [hport]) hs)
  have hw : s.only [.que, .counts] [] (u.fetched q) := hu.mono.trans (State.only.setCtx _ _ (here.que _))
  have hdescs' : (u.fetched q).que.descs = s.que.descs ++ [s.fetching q] := by
    show u.que.descs ++ [u.fetching q] = _
    rw [hdescs, hfetching]
  refine State.completes_hostReq (f := fun s => if s.isManager && s.running then s.fetchTurn else s) rfl hst hfn hw hs hjob ?_ hgroups fun hreq => ?_
  · rw [hdescs', List.any_append, hst.1.2.2.2.2.1]
    rfl
  · refine ⟨(congrArg QueS.descs hreq.only.que').trans hdescs', ?_, hw.asked (hreq.asked (by rw [hw.mgr']; exact hf))⟩
    rw [State.ctx, hreq.only.que']
    exact (State.ctx_setCtx ..).trans (by rw [hctx]; rfl)

/-! ### Completion records (R217) -/

theorem leBytes_len (n v : Nat) : (leBytes n v).length = n := by
  induction n generalizing v with
  | zero => rfl
  | succ n ih => simp [leBytes, ih]

/-- A piece that is written where only zeros lie. -/
theorem splice_zeros (a b : List Byte) (n : Nat) : splice (a ++ zeros n) a.length b = a ++ b ++ zeros (n - b.length) := by
  simp [splice, zeros, List.drop_append]

/-- The records of one granule, as they lie in it. -/
theorem splice_records (a b c d : List Byte) (ha : a.length = 16) (hb : b.length = 16) (hc : c.length = 16) (hd : d.length = 16) :
    splice (splice (splice (splice (zeros 64) 0 a) 16 b) 32 c) 48 d = a ++ b ++ c ++ d := by
  have h1 := splice_zeros [] a 64
  have h2 := splice_zeros a b 48
  have h3 := splice_zeros (a ++ b) c 32
  have h4 := splice_zeros (a ++ b ++ c) d 16
  simp only [List.length_append, List.length_nil, ha, hb, hc, hd, List.nil_append, Nat.reduceAdd, Nat.reduceSub] at h1 h2 h3 h4
  rw [h1, h2, h3, h4]
  simp [zeros]

section
variable {s : State} {q : Nat} (hup : s.up) (hst : s.still)
include hup hst

/-- R217: a granule that is not full is read first. -/
theorem State.completes_record_read {r : RecS} (hr : (AMap.get q ({} : CqS) s.que.cqs).recs = [r])
    (hn : (AMap.get q ({} : CqS) s.que.cqs).read ≠ some (r.n / 4)) (hf : AMap.find s.mgr.nextH s.mgr.host = none)
    (hs : s.sends s.hostPort .rd64 0) :
    s.completes (.recordHoldExpiry q) [.ports, .sent, .counts, .mgr, .que] []
      (fun t => (AMap.get q ({} : CqS) t.que.cqs).recs = [r] ∧ (AMap.get q ({} : CqS) t.que.cqs).read = some (r.n / 4) ∧
        s.asked (.recRead q (r.n / 4)) .rd64 (cCq (s.ctx q) + r.n % 2 ^ cCqLog2 (s.ctx q) / 4 * 64) t) := by
  let x : CqS := { AMap.get q ({} : CqS) s.que.cqs with read := some (r.n / 4) }
  let u : State := { s with que.cqs := AMap.put q x s.que.cqs }
  have hg : (AMap.get q ({} : CqS) s.que.cqs).granule = [r] := by simp [CqS.granule, hr]
  have hfn : whenAwake (State.recWrite q) s =
      u.hostReq (.recRead q (r.n / 4)) .rd64 (cCq (s.ctx q) + r.n % 2 ^ cCqLog2 (s.ctx q) / 4 * 64) [] := by
    rw [whenAwake_true _ _ hup.awake, State.recWrite]
    simp only [hg, List.length_nil, hn, if_false, show ¬ (0 : Nat) = 3 by decide]
    rfl
  have hu : s.only [.que, .counts] [] u := here.que _
  refine State.completes_hostReq (f := whenAwake (State.recWrite q)) rfl hst hfn hu hs rfl hst.1.2.2.2.2.1 rfl fun hreq => ?_
  have hx : AMap.get q ({} : CqS) (s.carry (whenAwake (State.recWrite q) s)).que.cqs = x := by
    rw [hreq.only.que', AMap.get, AMap.find_put_self]
    rfl
  rw [hx]
  exact ⟨hr, rfl, hu.asked (hreq.asked hf)⟩

/-- R217: a full granule is written. -/
theorem State.completes_record_write {a b c d : RecS} (hr : (AMap.get q ({} : CqS) s.que.cqs).recs = [a, b, c, d]) (ha : a.n % 4 = 0)
    (hb : b.n = a.n + 1) (hc : c.n = a.n + 2) (hd : d.n = a.n + 3) (ka : a.key = none) (kb : b.key = none) (kc : c.key = none) (kd : d.key = none)
    (hs : s.sends s.hostPort .wr64 2) :
    s.completes (.recordHoldExpiry q) [.ports, .sent, .counts, .mgr, .que] []
      (fun t => (AMap.get q ({} : CqS) t.que.cqs).recs = [] ∧ t.ctx q = cPut (s.ctx q) 10 (cCqTail (s.ctx q) + 4) ∧
        ∃ m : Msg, t.net.tx = s.net.tx ++ [(s.hostPort, m)] ∧ m.op = .wr64 ∧
          m.addr = (cCq (s.ctx q) + a.n % 2 ^ cCqLog2 (s.ctx q) / 4 * 64) % 2 ^ 64 ∧
          m.data = leBytes 16 a.word ++ leBytes 16 b.word ++ leBytes 16 c.word ++ leBytes 16 d.word) := by
  let x : CqS := { AMap.get q ({} : CqS) s.que.cqs with recs := [], read := none }
  let v : State := s.setCtx q (cPut (s.ctx q) 10 (cCqTail (s.ctx q) + 4))
  let u : State := { v with que.cqs := AMap.put q x v.que.cqs }
  let data := leBytes 16 a.word ++ leBytes 16 b.word ++ leBytes 16 c.word ++ leBytes 16 d.word
  have eb : b.n / 4 = a.n / 4 := by omega
  have ec : c.n / 4 = a.n / 4 := by omega
  have ed : d.n / 4 = a.n / 4 := by omega
  have hg : (AMap.get q ({} : CqS) s.que.cqs).granule = [a, b, c, d] := by simp [CqS.granule, hr, eb, ec, ed]
  have hdata : data = splice (splice (splice (splice (zeros 64) (a.n % 4 * 16) (leBytes 16 a.word)) (b.n % 4 * 16) (leBytes 16 b.word))
      (c.n % 4 * 16) (leBytes 16 c.word)) (d.n % 4 * 16) (leBytes 16 d.word) := by
    rw [show a.n % 4 * 16 = 0 by omega, show b.n % 4 * 16 = 16 by omega, show c.n % 4 * 16 = 32 by omega, show d.n % 4 * 16 = 48 by omega,
      splice_records _ _ _ _ (leBytes_len ..) (leBytes_len ..) (leBytes_len ..) (leBytes_len ..)]
  have hfn : whenAwake (State.recWrite q) s =
      u.hostReq (.recWrite q [a, b, c, d]) .wr64 (cCq (s.ctx q) + a.n % 2 ^ cCqLog2 (s.ctx q) / 4 * 64) data := by
    rw [whenAwake_true _ _ hup.awake, State.recWrite]
    simp only [hg, List.length_cons, List.length_nil, if_true, Nat.reduceAdd, State.recSend, List.foldl_cons, List.foldl_nil, forEach_cons, forEach_nil,
      ka, kb, kc, kd, hr, List.filter_cons, List.filter_nil, eb, ec, ed, bne_self_eq_false, ← hdata, Bool.false_eq_true, if_false]
    rfl
  have hu : s.only [.que, .counts] [] u := State.only.que _ (here.setCtx ..)
  have hlen : data.length / 32 = 2 := by simp [data, leBytes_len]
  refine State.completes_hostReq (f := whenAwake (State.recWrite q)) rfl hst hfn hu (by rw [hlen]; exact hs) rfl hst.1.2.2.2.2.1 rfl fun hreq => ?_
  have hq := hreq.only.que'
  obtain ⟨m, htx, hop, haddr, hdat, -⟩ := hreq.tx
  refine ⟨?_, ?_, m, ?_, hop, haddr, hdat⟩
  · rw [hq, AMap.get, AMap.find_put_self]
    rfl
  · rw [State.ctx, hq]
    exact State.ctx_setCtx ..
  · rw [htx, State.hostPort_congr fun p => hu.port p]
    rfl

end

/-- Settles O48: a poll, a fetch turn and a record's write each by the one request that it sends to the host. -/
theorem pollsFetchesAndRecords : Obligations.PollsFetchesAndRecords := by
  unfold Obligations.PollsFetchesAndRecords
  intro s q hup hst hm
  refine ⟨fun hrun h0 he hr hf hs => State.completes_poll hup hst hm hrun h0 he hr hf hs,
    fun hrun h0 hmild => State.completes_poll_overrun hup hst hm hrun h0 hmild,
    fun h _ ht hr _ hf hs => State.completes_fetchTurn hup hst hm h ht hr hf hs,
    fun r hr hn hf hs => State.completes_record_read hup hst hr hn hf hs,
    fun a b c d hr ha hb hc hd ka kb kc kd hs => State.completes_record_write hup hst hr ha hb hc hd ka kb kc kd hs⟩

end Sys2Proof.Machine
end

section
/-! PROOFS. The manager while it writes numbers (R19, R25): what its table and its configuration accesses keep. -/

set_option Elab.async false

namespace Sys2Proof.Machine
open Sys2Proof
open State.only (here)

/-! ### Messages that leave the device bring nothing to itself -/

theorem State.drain_inbox (p : Port) : ∀ (l : List Msg) (b : List Nat) (k : List Msg) (s : State), (s.drain p l b k).net.inbox = s.net.inbox
  | [], _, _, s => State.modPort_net_inbox ..
  | m :: r, b, k, s => by
    unfold State.drain
    dsimp only
    split
    · exact State.drain_inbox p r b k s
    · split
      · exact (State.drain_inbox p r b k _).trans (State.emit_inbox ..)
      · exact State.drain_inbox p r _ _ s

theorem State.flush_inbox (p : Port) (s : State) : (s.flush p).net.inbox = s.net.inbox := by
  unfold State.flush
  split
  · rfl
  · exact State.drain_inbox ..

theorem State.hand_inbox (p : Port) (m : Msg) (s : State) : (s.hand p m).net.inbox = s.net.inbox := by
  unfold State.hand
  rw [State.flush_inbox, State.modPort_net_inbox, (State.wakePort_only p _).inbox']
  refine State.when_same (·.net.inbox) _ _ _ ?_
  split
  · exact (State.exclude_only ..).inbox'
  · rfl

theorem State.sendOn_inbox (p : Port) (m : Msg) (s : State) : (s.sendOn p m).net.inbox = s.net.inbox := by
  unfold State.sendOn
  split
  · rfl
  · exact (State.hostWait_only ..).inbox'.trans (State.hand_inbox ..)

/-- A message for another device is not one of the device to itself. -/
theorem State.route_inbox {s : State} {m : Msg} (h : m.h.dst.val ≠ s.num) (o : Option Port) : (s.route o m).net.inbox = s.net.inbox := by
  unfold State.route
  split
  · split <;> exact State.sendOn_inbox ..
  · rw [if_neg fun e => h e.1]
    split <;> exact State.sendOn_inbox ..

/-! ### Entries of the table -/

theorem AMap.get_all {β : Type} {P : β → Prop} {d : β} {m : AMap β} (hd : P d) (h : ∀ e ∈ m, P e.2) (k : Nat) : P (AMap.get k d m) := by
  induction m with
  | nil => exact hd
  | cons e r ih =>
    obtain ⟨j, v⟩ := e
    unfold AMap.get AMap.find
    split
    · exact h (j, v) List.mem_cons_self
    · exact ih fun e he => h e (List.mem_cons_of_mem _ he)

/-- An entry of which no firmware load and no halt is known. -/
def TopoE.idle (e : TopoE) : Prop := e.loading = none ∧ e.halted = false

/-- A device's place is a matter of the first word of its entry. -/
theorem TopoE.place_eq (e : TopoE) (st route h c : Nat) : ∃ w, e.place st route h c = { e with w0 := w, h := h, c := c } := ⟨_, rfl⟩

theorem TopoE.place_state (e : TopoE) (st route h c : Nat) : (e.place st route h c).state = st % 4 := by
  unfold TopoE.place TopoE.state
  rw [Fld.get_set_apart _ _ (by decide) (by decide), Fld.get_set_apart _ _ (by decide) (by decide), Fld.get_set_apart _ _ (by decide) (by decide),
    Fld.get_set _ (by decide)]
  rfl

theorem TopoE.place_valid (e : TopoE) (st route h c : Nat) : (e.place st route h c).valid = e.valid := by
  unfold TopoE.place TopoE.valid
  rw [Fld.get_set_apart _ _ (by decide) (by decide), Fld.get_set_apart _ _ (by decide) (by decide), Fld.get_set_apart _ _ (by decide) (by decide),
    Fld.get_set_apart _ _ (by decide) (by decide)]

/-! ### A manager that waits for nothing but the writes of numbers -/

/-- The manager has configuration accesses to returning devices alone. -/
structure State.onlyNumbers (s : State) : Prop where
  man : s.isManager = true
  num : s.num = 0
  inbox : s.net.inbox = []
  cfg : ∀ c ∈ s.mgr.cfg, c.2.lost = false ∧ (s.ent c.2.dst).state = 3 ∧ (s.ent c.2.dst).halted = false
  tags : s.mgr.waitC = [] ∨ s.cfgTag = none

/-- A manager that waits for nothing but answers of devices that it does not hold for lost. -/
structure State.onlyAsks (s : State) : Prop where
  man : s.isManager = true
  inbox : s.net.inbox = []
  cfg : ∀ c ∈ s.mgr.cfg, c.2.lost = false ∧ (s.ent c.2.dst).state = 3 ∧ (s.ent c.2.dst).halted = false
  tags : s.mgr.waitC = [] ∨ s.cfgTag = none

theorem State.onlyNumbers.asks {s : State} (h : s.onlyNumbers) : s.onlyAsks := ⟨h.man, h.inbox, h.cfg, h.tags⟩

/-- The manager's table knows of no load and no halt. -/
def State.idleTable (s : State) : Prop := ∀ e ∈ s.topo.ents, e.1 < 64 ∧ e.2.idle

theorem State.idleTable.ent {s : State} (h : s.idleTable) (n : Nat) : (s.ent n).idle := AMap.get_all ⟨rfl, rfl⟩ (fun e he => (h e he).2) n

theorem State.idleTable.of_only {s t : State} {ps : List Part} {as : List Nat} (h : s.idleTable) (ho : s.only ps as t)
    (h5 : Part.topo ∉ ps := by decide) : t.idleTable := by
  rw [State.idleTable, ho.topo' h5]
  exact h

theorem State.idleTable.modEnt {s : State} (h : s.idleTable) {n : Nat} (h64 : n < 64) {f : TopoE → TopoE} (hf : (f (s.ent n)).idle) :
    (s.modEnt n f).idleTable := fun e he => by
  rcases AMap.mem_set he with rfl | he
  · exact ⟨h64, hf⟩
  · exact h e he

theorem State.idleTable.loadTurn {s : State} (h : s.idleTable) : s.loadTurn = s := by
  have hf (r : Nat) : s.topo.ents.filter (fun e => e.2.valid && F.TOPO_ENT_W0_ROUTE.get e.2.w0 == r && e.2.loading.isSome) = [] := by
    rw [List.filter_eq_nil_iff]
    intro e he
    simp [(h e he).2.1]
  have hstep (r : Nat) : (let mine := s.topo.ents.filter (fun e => e.2.valid && F.TOPO_ENT_W0_ROUTE.get e.2.w0 == r && e.2.loading.isSome)
    if mine.any (fun e => e.2.loading != some 0) then s
    else match mine.head? with
      | some (n, _) => s.loadRead n 1 Reg.BOOT_STATE 1
      | none => s) = s := by rw [hf]; rfl
  exact forEach_fixed _ _ _ fun r _ => hstep r

namespace State.onlyNumbers

variable {s t : State}

theorem of_only {ps : List Part} {as : List Nat} (h : s.onlyNumbers) (ho : s.only ps as t) (h1 : Part.id ∉ ps := by decide)
    (h2 : Reg.IDENT_DEVNUM ∉ as := by decide) (h3 : Part.sent ∉ ps := by decide) (h4 : Part.mgr ∉ ps := by decide)
    (h5 : Part.topo ∉ ps := by decide) : t.onlyNumbers := by
  refine ⟨(ho.isManager h1).trans h.man, ((ho.fld _ _ h2).trans h.num : t.num = 0), (ho.inbox' h3).trans h.inbox, ?_, ?_⟩
  · simp only [State.ent, ho.mgr' h4, ho.topo' h5]
    exact h.cfg
  · simp only [State.cfgTag, ho.mgr' h4]
    exact h.tags

/-- Where no access is outstanding, nothing of the table matters. -/
theorem of_none {ps : List Part} {as : List Nat} (h : s.onlyNumbers) (ho : s.only ps as t) (hc : s.mgr.cfg = []) (h1 : Part.id ∉ ps := by decide)
    (h2 : Reg.IDENT_DEVNUM ∉ as := by decide) (h3 : Part.sent ∉ ps := by decide) (h4 : Part.mgr ∉ ps := by decide) : t.onlyNumbers := by
  refine ⟨(ho.isManager h1).trans h.man, ((ho.fld _ _ h2).trans h.num : t.num = 0), (ho.inbox' h3).trans h.inbox, fun c hm => ?_, ?_⟩
  · rw [ho.mgr' h4, hc] at hm
    cases hm
  · simp only [State.cfgTag, ho.mgr' h4]
    exact h.tags

end State.onlyNumbers

namespace State.onlyAsks

variable {s t : State}

theorem cfgLost (h : s.onlyAsks) : s.cfgLost = s := by
  unfold State.cfgLost
  dsimp only
  refine (congrArg (forEach · _ s) (List.filter_eq_nil_iff.2 fun c hc => ?_)).trans rfl
  obtain ⟨hl, hs, hh⟩ := h.cfg c hc
  simp [hl, hs, hh]

theorem cfgTags (h : s.onlyAsks) : s.cfgTags = s := by
  unfold State.cfgTags
  rcases h.tags with e | e <;> simp [e]

/-- Nothing else than the answers to those writes moves such a manager on. -/
theorem settle (h : s.onlyAsks) (hc : ({ s with mgr := { s.mgr with cfg := [], waitC := [] } } : State).calm) (n : Nat) : s.settle n = s := by
  obtain ⟨hi, hj, hp, -, hd, hg, hin, he, ho, -⟩ := hc
  have hg' : s.goOn = s := by
    unfold State.goOn
    simp only [State.copyPump_none s ho, State.engPump_none s he, h.man, if_true]
    have hr : s.que.descs.filter DescS.reported = [] := by
      rw [List.filter_eq_nil_iff]
      intro d hm
      have := List.any_eq_false.1 hd d hm
      simp_all [DescS.due]
    simp only [hr, forEach_nil, State.epochSweep_none s hg hd, State.hintsGo_none s hin, h.cfgLost, h.cfgTags, State.mapStep_none s hp,
      State.jobRun_none 64 s hj]
  cases n with
  | zero => rfl
  | succ n =>
    rw [State.settle, h.inbox]
    simp only [hg', h.inbox]
    rfl

end State.onlyAsks

/-- A command after which the manager waits for answers alone. -/
theorem State.completes_asks {s : State} {c : Instr} {f : State → State} {ps : List Part} {as : List Nat} {P : State → Prop}
    (hc : exec c s = always f s) (hst : s.still) (ho : s.only ps as (f s)) (hn : (f s).onlyAsks)
    (hP : P (s.carry (f s))) (h1 : Part.que ∉ ps := by decide) (h2 : Part.effects ∉ ps := by decide)
    (h4 : Part.prot ∉ ps := by decide) (h6 : Part.tiers ∉ ps := by decide) (h7 : Part.pool ∉ ps := by decide)
    (hin : (f s).mgr.ingress = s.mgr.ingress) : s.completes c ps as P := by
  have hq := ho.que' h1
  have hcalm : ({ f s with mgr := { (f s).mgr with cfg := [], waitC := [] } } : State).calm := by
    have ho' : s.only (.mgr :: ps) as ({ f s with mgr := { (f s).mgr with cfg := [], waitC := [] } } : State) :=
      (ho.mono (fun p hp => List.mem_cons_of_mem _ hp) (fun _ h => h)).mgr _ List.mem_cons_self
    have hm : ∀ p : Part, p ≠ .mgr → p ∉ ps → p ∉ Part.mgr :: ps := fun p h1 h2 h => (List.mem_cons.1 h).elim h1 h2
    exact ho'.calm_sent hst.1 (hn.inbox.trans hst.1.1.symm) (congrArg QueS.job hq) (by rw [show ({ f s with mgr := { (f s).mgr with cfg := [], waitC := [] } } : State).que = s.que from hq]; exact hst.1.2.2.2.2.1)
      (congrArg QueS.groups hq) hst.1.2.2.2.1.symm hin hst.1.2.2.2.2.2.2.2.2.2.symm (hm _ (by decide) h4) (hm _ (by decide) h6) (hm _ (by decide) h7)
  refine ⟨_, hc.trans ?_, hP, ho.carry⟩
  rw [always, run, State.after, hn.settle hcalm, State.trainApply_none _ _ (by rw [ho.wait' h2]; exact hst.2)]

/-- A command after which the manager waits for the writes of numbers alone. -/
theorem State.completes_numbers {s : State} {c : Instr} {f : State → State} {ps : List Part} {as : List Nat} {P : State → Prop}
    (hc : exec c s = always f s) (hst : s.still) (ho : s.only ps as (f s)) (hn : (f s).onlyNumbers)
    (hP : P (s.carry (f s))) (h1 : Part.que ∉ ps := by decide) (h2 : Part.effects ∉ ps := by decide)
    (h4 : Part.prot ∉ ps := by decide) (h6 : Part.tiers ∉ ps := by decide) (h7 : Part.pool ∉ ps := by decide)
    (hin : (f s).mgr.ingress = s.mgr.ingress) : s.completes c ps as P :=
  State.completes_asks hc hst ho hn.asks hP h1 h2 h4 h6 h7 hin

/-! ### A number is written -/

theorem State.tagCfg_only (use : WardenUse) (m : Msg) (s : State) :
    s.only [.mgr, .ports, .sent, .counts, .regs] [Reg.NDL_PATH_STATUS] (s.tagCfg use m) := by
  unfold State.tagCfg
  split
  · exact (here.mgr _).step (State.route_only ..)
  · exact here.mgr _

theorem State.writeNumber_only (n : Nat) (s : State) :
    s.only [.mgr, .ports, .sent, .counts, .regs] [Reg.NDL_PATH_STATUS] (s.writeNumber n) := State.tagCfg_only ..

/-- A message to a returning device adds one access to it. -/
theorem State.onlyNumbers.tagCfg {s : State} (h : s.onlyNumbers) (use : WardenUse) {m : Msg} (h0 : m.h.dst.val ≠ 0)
    (hs : (s.ent m.h.dst.val).state = 3) (hh : (s.ent m.h.dst.val).halted = false) : (s.tagCfg use m).onlyNumbers := by
  unfold State.tagCfg
  split
  next t ht =>
    let u : State := { s with mgr.nextC := (t + 1) % 65536, mgr.cfg := AMap.put t { dst := m.h.dst.val, use := use, time := s.now } s.mgr.cfg }
    let x : Msg := { m with h := { m.h with tag := BitVec.ofNat 16 t } }
    have ho : u.only [.ports, .sent, .counts, .regs] [Reg.NDL_PATH_STATUS] (u.route none x) := State.route_only none x u
    have hw : s.mgr.waitC = [] := h.tags.resolve_right (by rw [ht]; simp)
    have hin : (u.route none x).net.inbox = u.net.inbox := State.route_inbox (s := u) (m := x) (fun e => h0 (e.trans h.num)) none
    show (u.route none x).onlyNumbers
    refine ⟨ho.isManager.trans h.man, (ho.fld Reg.IDENT_DEVNUM F.IDENT_DEVNUM_NUM (by decide)).trans h.num, hin.trans h.inbox, fun c hc => ?_,
      .inl ((congrArg MgrS.waitC ho.mgr').trans hw)⟩
    have hent : (u.route none x).ent c.2.dst = s.ent c.2.dst := by
      rw [State.ent, ho.topo']; rfl
    rw [ho.mgr'] at hc
    rw [hent]
    rcases AMap.mem_put hc with rfl | hc
    · exact ⟨rfl, hs, hh⟩
    · exact h.cfg c hc
  next ht => exact ⟨h.man, h.num, h.inbox, h.cfg, .inr ht⟩

theorem State.onlyNumbers.writeNumber {s : State} (h : s.onlyNumbers) {n : Nat} (h0 : n ≠ 0) (h64 : n < 64) (hs : (s.ent n).state = 3)
    (hh : (s.ent n).halted = false) : (s.writeNumber n).onlyNumbers := by
  have hn : (Fin.ofNat 64 n).val = n := Nat.mod_eq_of_lt h64
  exact h.tagCfg _ (by rw [State.hdrTo, hn]; exact h0) (by rw [State.hdrTo, hn]; exact hs) (by rw [State.hdrTo, hn]; exact hh)

theorem State.ent_modEnt_ne {n m : Nat} (h : m ≠ n) (f : TopoE → TopoE) (s : State) : (s.modEnt n f).ent m = s.ent m := AMap.get_set_ne h ..

/-- A change of one entry that keeps it returning and unhalted. -/
theorem State.onlyNumbers.modEnt {s : State} (h : s.onlyNumbers) {n : Nat} {f : TopoE → TopoE}
    (hf : (s.ent n).state = 3 → (s.ent n).halted = false → (f (s.ent n)).state = 3 ∧ (f (s.ent n)).halted = false) : (s.modEnt n f).onlyNumbers := by
  refine ⟨h.man, h.num, h.inbox, fun c hc => ?_, h.tags⟩
  obtain ⟨hl, h3, hh⟩ := h.cfg c hc
  refine ⟨hl, ?_⟩
  by_cases e : c.2.dst = n
  · rw [e] at h3 hh ⊢
    rw [State.ent_modEnt]
    exact hf h3 hh
  · rw [State.ent_modEnt_ne e]
    exact ⟨h3, hh⟩

/-- The entry of a device that comes back. -/
def TopoE.back (e : TopoE) : TopoE := { e.place 3 (F.TOPO_ENT_W0_ROUTE.get e.w0) e.h e.c with tries := 0, loading := none, fw := 0 }

theorem TopoE.back_w0 (e : TopoE) : e.back.w0 = (e.place 3 (F.TOPO_ENT_W0_ROUTE.get e.w0) e.h e.c).w0 := rfl

theorem TopoE.back_state (e : TopoE) : e.back.state = 3 := by
  have h := TopoE.place_state e 3 (F.TOPO_ENT_W0_ROUTE.get e.w0) e.h e.c
  unfold TopoE.state at h ⊢
  rw [TopoE.back_w0, h]

theorem TopoE.back_halted (e : TopoE) : e.back.halted = e.halted := by
  obtain ⟨w, hw⟩ := TopoE.place_eq e 3 (F.TOPO_ENT_W0_ROUTE.get e.w0) e.h e.c
  unfold TopoE.back
  rw [hw]

theorem State.comeBack_eq (n : Nat) (s : State) : s.comeBack n = (s.modEnt n TopoE.back).writeNumber n := by
  unfold State.comeBack TopoE.back
  rfl

theorem State.onlyNumbers.comeBack {s : State} (h : s.onlyNumbers) {n : Nat} (h0 : n ≠ 0) (h64 : n < 64) (hh : (s.ent n).halted = false) :
    (s.comeBack n).onlyNumbers := by
  rw [State.comeBack_eq]
  have hm := h.modEnt (n := n) (f := TopoE.back) fun _ hh => ⟨TopoE.back_state (s.ent n), (TopoE.back_halted (s.ent n)).trans hh⟩
  exact hm.writeNumber h0 h64 (by rw [State.ent_modEnt]; exact TopoE.back_state (s.ent n)) (by rw [State.ent_modEnt, TopoE.back_halted]; exact hh)

theorem State.idleTable.comeBack {s : State} (h : s.idleTable) {n : Nat} (h64 : n < 64) : (s.comeBack n).idleTable := by
  rw [State.comeBack_eq]
  exact (h.modEnt h64 (f := TopoE.back) ⟨rfl, (TopoE.back_halted _).trans (h.ent n).2⟩).of_only (State.writeNumber_only ..)

theorem State.comeBack_only (n : Nat) (s : State) :
    s.only [.topo, .mgr, .ports, .sent, .counts, .regs] [Reg.NDL_PATH_STATUS] (s.comeBack n) := by
  rw [State.comeBack_eq]
  exact (here.modEnt ..).step (State.writeNumber_only ..)

theorem State.tableSeen_only (s : State) : s.only [.notices, .counts, .regs] [Reg.TOPO_STATUS, Reg.NDL_STATUS] s.tableSeen := by
  unfold State.tableSeen
  exact (here.seqUp ..).step (State.noticeFor_only ..)

end Sys2Proof.Machine
end

section
/-! PROOFS. The re-survey, the update of the table, a device that returns, and the plan (R23, R25, R63, R507). -/

set_option Elab.async false

namespace Sys2Proof.Machine
open Sys2Proof
open State.only (here)

/-! ### The table takes a survey (R22, R507) -/

/-- What every step over the members of a list keeps, the loop keeps. -/
theorem forEach_keeps_mem {α : Type} (P : State → Prop) (f : α → State → State) (l : List α) (h : ∀ a ∈ l, ∀ s, P s → P (f a s)) (s : State) (hs : P s) :
    P (forEach l f s) := by
  induction l generalizing s with
  | nil => exact hs
  | cons a l ih => exact ih (fun b hb => h b (List.mem_cons_of_mem _ hb)) _ (h a List.mem_cons_self s hs)

/-- The entry of a device that a survey has found. -/
def TopoE.found (f : Found) (t : TopoE) : TopoE := { t.place (if t.state = 0 then 0 else 3) f.route f.h f.c with w1 := f.links, behind := f.behind }

/-- The entry of a device that a survey has not found. -/
def TopoE.gone (st : Nat) (t : TopoE) : TopoE := { t.place st (F.TOPO_ENT_W0_ROUTE.get t.w0) t.h t.c with loading := none }

/-- What a survey leaves of an entry: its serial number and validity, and that nothing is known of a halt or a load. -/
structure TopoE.lasting (a b : TopoE) : Prop where
  serial : b.serial = a.serial
  valid : b.valid = a.valid
  idle : a.idle → b.idle

theorem TopoE.lasting.refl (a : TopoE) : a.lasting a := ⟨rfl, rfl, fun h => h⟩
theorem TopoE.lasting.trans {a b c : TopoE} (h : a.lasting b) (g : b.lasting c) : a.lasting c :=
  ⟨g.serial.trans h.serial, g.valid.trans h.valid, fun k => g.idle (h.idle k)⟩

theorem TopoE.lasting_links (w : Word) (t : TopoE) : t.lasting { t with w1 := w } := ⟨rfl, rfl, fun h => h⟩

theorem TopoE.lasting_found (f : Found) (t : TopoE) : t.lasting (t.found f) := by
  have hv := TopoE.place_valid t (if t.state = 0 then 0 else 3) f.route f.h f.c
  obtain ⟨w, hw⟩ := TopoE.place_eq t (if t.state = 0 then 0 else 3) f.route f.h f.c
  rw [hw] at hv
  unfold TopoE.found
  rw [hw]
  exact ⟨rfl, hv, fun h => h⟩

theorem TopoE.lasting_gone (st : Nat) (t : TopoE) : t.lasting (t.gone st) := by
  have hv := TopoE.place_valid t st (F.TOPO_ENT_W0_ROUTE.get t.w0) t.h t.c
  obtain ⟨w, hw⟩ := TopoE.place_eq t st (F.TOPO_ENT_W0_ROUTE.get t.w0) t.h t.c
  rw [hw] at hv
  unfold TopoE.gone
  rw [hw]
  exact ⟨rfl, hv, fun h => ⟨rfl, h.2⟩⟩

/-- Between two states the table has taken a survey: its entries last. -/
structure State.surveyed (s t : State) : Prop where
  only : s.only [.topo] [] t
  settling : t.topo.settling = s.topo.settling
  settled : t.topo.settled = s.topo.settled
  walk : t.topo.walk = s.topo.walk
  ent : ∀ n, (s.ent n).lasting (t.ent n)
  idle : s.idleTable → t.idleTable

namespace State.surveyed

variable {s t u : State}

theorem refl (s : State) : s.surveyed s := ⟨here, rfl, rfl, rfl, fun _ => .refl _, fun h => h⟩

theorem trans (h : s.surveyed t) (g : t.surveyed u) : s.surveyed u :=
  ⟨h.only.trans g.only, g.settling.trans h.settling, g.settled.trans h.settled, g.walk.trans h.walk, fun n => (h.ent n).trans (g.ent n), fun k => g.idle (h.idle k)⟩

theorem modEnt (s : State) {n : Nat} {f : TopoE → TopoE} (hn : s.idleTable → n < 64) (hf : (s.ent n).lasting (f (s.ent n))) : s.surveyed (s.modEnt n f) := by
  refine ⟨here.modEnt .., rfl, rfl, rfl, fun k => ?_, fun h => h.modEnt (hn h) (hf.idle (h.ent n))⟩
  by_cases e : k = n
  · rw [e, State.ent_modEnt]
    exact hf
  · rw [State.ent_modEnt_ne e]
    exact .refl _

end State.surveyed

/-- The table after a survey, before its summary in the registers. -/
def State.tableEnts (w : WalkRec) (v : Survey) (s : State) : State :=
  let s := { s with topo.places := v.places.foldl (fun (m : AMap Nat) (p : Nat × Nat) => AMap.put p.1 p.2 m) s.topo.places }
  let s := s.modEnt 0 (fun e => { e with w1 := BitVec.ofNat 32 (s.ownLinks ||| v.own) })
  forEach (s.topo.ents.filter (fun e => e.2.valid && e.1 != 0)) (fun e s =>
    match v.found.find? (fun f => f.num == e.1) with
    | some f => s.modEnt e.1 (TopoE.found f)
    | none => s.modEnt e.1 (TopoE.gone (s.lostState w v e.1))) s

theorem State.tableEnts_surveyed (w : WalkRec) (v : Survey) {s : State} (hi : s.idleTable) : s.surveyed (s.tableEnts w v) := by
  let a : State := { s with topo.places := v.places.foldl (fun (m : AMap Nat) (p : Nat × Nat) => AMap.put p.1 p.2 m) s.topo.places }
  have h0 : s.surveyed a := ⟨here.topo _, rfl, rfl, rfl, fun _ => .refl _, fun h => h⟩
  have h1 := h0.trans (State.surveyed.modEnt a (n := 0) (f := fun e => { e with w1 := BitVec.ofNat 32 (a.ownLinks ||| v.own) }) (fun _ => by decide) (TopoE.lasting_links ..))
  refine forEach_keeps_mem (s.surveyed ·) _ _ (fun e he t ht => ?_) _ h1
  have hn : e.1 < 64 := (h1.idle hi e (List.mem_of_mem_filter he)).1
  split
  · exact ht.trans (.modEnt _ (fun _ => hn) (TopoE.lasting_found ..))
  · exact ht.trans (.modEnt _ (fun _ => hn) (TopoE.lasting_gone ..))

/-- The registers that a table update writes. -/
def State.tableRegs (v : Survey) (s : State) : State :=
  let ents := s.topo.ents.filter (fun e => e.2.valid)
  let count := s.topo.ents.countP (fun e => e.2.valid)
  let branches := ents.countP (fun e => F.TOPO_ENT_W0_ROLE.get e.2.w0 == 1)
  let arcE := ents.countP TopoE.eastArc
  ((s.setReg Reg.TOPO_COUNT (BitVec.ofNat 32 (count + branches * 2 ^ 8 + arcE * 2 ^ 12))).cond Reg.TOPO_STATUS F.TOPO_STATUS_ARCS v.arcs).cond
    Reg.TOPO_STATUS F.TOPO_STATUS_PLAN_MISMATCH v.mism

theorem State.tableRegs_only (v : Survey) (s : State) : s.only [.regs] [Reg.TOPO_STATUS, Reg.TOPO_COUNT] (s.tableRegs v) :=
  ((here.setReg ..).cond ..).cond ..

theorem State.tableSet_eq (w : WalkRec) (v : Survey) (s : State) : s.tableSet w v = (s.tableEnts w v).tableRegs v := by
  unfold State.tableSet State.tableEnts State.tableRegs TopoE.found TopoE.gone
  rfl

/-! ### What follows a table update -/

/-- Nothing waits at the manager that a changed route could reset. -/
structure State.unasked (s : State) : Prop where
  reqs : s.mgr.reqs = []
  merges : s.mgr.merges = []
  cfg : s.mgr.cfg = []
  descs : s.que.descs = []

theorem State.unasked.of_only {s t : State} {ps : List Part} {as : List Nat} (h : s.unasked) (ho : s.only ps as t) (h1 : Part.mgr ∉ ps := by decide)
    (h2 : Part.que ∉ ps := by decide) : t.unasked :=
  ⟨by rw [ho.mgr' h1]; exact h.reqs, by rw [ho.mgr' h1]; exact h.merges, by rw [ho.mgr' h1]; exact h.cfg, by rw [ho.que' h2]; exact h.descs⟩

theorem State.pathReset_none {s : State} (hr : s.mgr.reqs = []) (hm : s.mgr.merges = []) (hc : s.mgr.cfg = []) (ds : List Nat) : s.pathReset ds = s := by
  have hv : s.voidSeals ds = s := by
    unfold State.voidSeals
    rw [hr]
    rfl
  have hd : s.dropMerges ds = ([], s) := by
    have e : ({ s with mgr.merges := [] } : State) = s := by rw [← hm]
    unfold State.dropMerges
    rw [hm]
    exact Prod.ext rfl e
  rw [State.pathReset, hv, State.resetReqsTo]
  simp only [hr, hd, hc, List.filter_nil, List.flatMap_nil, List.append_nil, forEach_nil]

theorem State.shardsLost_none {s : State} (h : s.que.descs = []) (ds : List Nat) : s.shardsLost ds = s := by
  unfold State.shardsLost
  rw [h]
  rfl

theorem State.descRetry_none {s : State} (h : s.que.descs = []) : s.descRetry = s := by
  unfold State.descRetry
  rw [h]
  rfl

theorem State.ingress_none {s : State} (h : s.mgr.ingress = []) : s.ingress = { s with mgr.ingress := [], mgr.limited := [] } := by
  have hf : s.mgr.limited.filter (fun n => ([] : List (Nat × Msg)).any fun e => e.1 == n) = [] := List.filter_eq_nil_iff.2 fun _ _ => by simp
  unfold State.ingress
  rw [h, State.ingressGo, hf]

/-- What follows the new table: the devices whose route has changed, those that are there no longer, and those that come back. -/
def State.tableNews (moved left gone back reload : List Nat) (s : State) : State :=
  let s := (s.pathReset moved).shardsLost moved
  let s := forEach left (fun n s => s.noticeFor n 0x03 2 [BitVec.ofNat 8 (s.ent n).state, BitVec.ofNat 8 (gone.filter (· != n)).length]) s
  let s := s.tableSeen
  let s := forEach back State.comeBack s
  let s := forEach reload (fun n s => s.loadFail n 0) s
  (s.ingress.descRetry).loadTurn

theorem State.fld_seqUp {f : Fld} (hf : f.flag = true) (a : Nat) (s : State) : (s.seqUp a).fld a f = s.fld a f := by
  unfold State.seqUp
  exact State.fld_setFld_apart a f seqFld (by decide) (Fld.flag_apart_seq hf) _ s

theorem State.tagCfg_ingress (use : WardenUse) (m : Msg) (s : State) : (s.tagCfg use m).mgr.ingress = s.mgr.ingress := by
  unfold State.tagCfg
  split
  · rw [(State.route_only ..).mgr']
  · rfl

theorem State.writeNumber_ingress (n : Nat) (s : State) : (s.writeNumber n).mgr.ingress = s.mgr.ingress := State.tagCfg_ingress ..

/-- Between two states the news of a table have gone out. -/
structure State.told (s t : State) : Prop where
  only : s.only [.topo, .mgr, .regs, .ports, .sent, .counts, .notices] [Reg.TOPO_STATUS, Reg.NDL_STATUS, Reg.NDL_PATH_STATUS] t
  numbers : t.onlyNumbers
  ingress : t.mgr.ingress = []
  idle : t.idleTable
  topo : t.topo.settling = s.topo.settling ∧ t.topo.walk = s.topo.walk
  flag : ∀ f : Fld, f.flag = true → t.fld Reg.TOPO_STATUS f = s.fld Reg.TOPO_STATUS f

/-- What the ingress holds is none of the numbers' concern. -/
theorem State.onlyNumbers.released {t : State} (h : t.onlyNumbers) : ({ t with mgr.ingress := [], mgr.limited := [] } : State).onlyNumbers := by
  have ho : t.only [.mgr] [] ({ t with mgr.ingress := [], mgr.limited := [] } : State) := here.mgr _
  refine ⟨ho.isManager.trans h.man, (ho.fld Reg.IDENT_DEVNUM F.IDENT_DEVNUM_NUM).trans h.num, h.inbox, fun c hc => ?_, h.tags⟩
  rw [State.ent, ho.topo']
  exact h.cfg c hc

namespace State.told

variable {s t : State}

theorem comeBack (h : s.told t) {n : Nat} (h0 : n ≠ 0) (h64 : n < 64) : s.told (t.comeBack n) := by
  have ho := State.comeBack_only n t
  have hin : (t.comeBack n).mgr.ingress = t.mgr.ingress := by rw [State.comeBack_eq, State.writeNumber_ingress, State.modEnt_mgr]
  have htopo : (t.comeBack n).topo = (t.modEnt n TopoE.back).topo := by
    rw [State.comeBack_eq]
    exact (State.writeNumber_only ..).topo'
  exact ⟨h.only.step ho, h.numbers.comeBack h0 h64 (h.idle.ent n).2, hin.trans h.ingress, h.idle.comeBack h64, by rw [htopo, State.modEnt_topo_settling, State.modEnt_topo_walk]; exact h.topo,
    fun f hf => (ho.fld _ _ (by decide)).trans (h.flag f hf)⟩

theorem of_only {u : State} {as : List Nat} (h : s.told t) (ho : t.only [.notices, .counts, .regs] as u) (ha : ∀ a ∈ as, a ∈ [Reg.TOPO_STATUS, Reg.NDL_STATUS])
    (hf : ∀ f : Fld, f.flag = true → u.fld Reg.TOPO_STATUS f = t.fld Reg.TOPO_STATUS f) : s.told u := by
  have hd : Reg.IDENT_DEVNUM ∉ as := fun e => absurd (ha _ e) (by decide)
  refine ⟨h.only.step ho (ha := fun a m => ?_), h.numbers.of_only ho (h2 := hd), by rw [ho.mgr']; exact h.ingress, h.idle.of_only ho,
    by rw [ho.topo']; exact h.topo, fun f k => (hf f k).trans (h.flag f k)⟩
  have := ha a m
  simp only [List.mem_cons, List.not_mem_nil, or_false] at this ⊢
  rcases this with e | e <;> simp [e]

end State.told

theorem State.tableNews_told {s : State} {moved left gone back : List Nat} (hu : s.unasked) (hin : s.mgr.ingress = []) (hn : s.onlyNumbers)
    (hi : s.idleTable) (hb : ∀ n ∈ back, n ≠ 0 ∧ n < 64) : s.told (s.tableNews moved left gone back []) := by
  have h0 : s.told s := ⟨here, hn, hin, hi, ⟨rfl, rfl⟩, fun _ _ => rfl⟩
  have h1 : s.told (forEach left (fun n s => s.noticeFor n 0x03 2 [BitVec.ofNat 8 (s.ent n).state, BitVec.ofNat 8 (gone.filter (· != n)).length]) s) :=
    forEach_keeps (s.told ·) _ (fun n t h => h.of_only (State.noticeFor_only ..) (by decide) fun f _ => (State.noticeFor_only ..).fld _ _ (by decide)) left s h0
  have h2 := h1.of_only (State.tableSeen_only _) (by decide) fun f hf => ((State.noticeFor_only ..).fld _ _ (by decide)).trans (State.fld_seqUp hf _ _)
  have h3 := forEach_keeps_mem (s.told ·) State.comeBack back (fun n hm t h => h.comeBack (hb n hm).1 (hb n hm).2) _ h2
  have hq := h3.only.que'
  generalize ht : forEach back State.comeBack (State.tableSeen (forEach left (fun n s => s.noticeFor n 0x03 2
    [BitVec.ofNat 8 (s.ent n).state, BitVec.ofNat 8 (gone.filter (· != n)).length]) s)) = t at h3 hq
  have hd : t.que.descs = [] := by rw [hq]; exact hu.descs
  have ho : t.only [.mgr] [] ({ t with mgr.ingress := [], mgr.limited := [] } : State) := here.mgr _
  have hf : s.tableNews moved left gone back [] = { t with mgr.ingress := [], mgr.limited := [] } := by
    unfold State.tableNews
    dsimp only
    rw [State.pathReset_none hu.reqs hu.merges hu.cfg, State.shardsLost_none hu.descs, ht, forEach_nil, State.ingress_none h3.ingress,
      State.descRetry_none (by rw [ho.que']; exact hd), State.idleTable.loadTurn (h3.idle.of_only ho)]
  rw [hf]
  exact ⟨h3.only.step ho, h3.numbers.released, rfl,
    h3.idle.of_only ho, by rw [ho.topo']; exact h3.topo, fun f hf => (ho.fld _ _).trans (h3.flag f hf)⟩

end Sys2Proof.Machine
end

section
/-! PROOFS. The update of the table, a device that returns, and the plan (R23, R25, R63, R507). -/

set_option Elab.async false

namespace Sys2Proof.Machine
open Sys2Proof
open State.only (here)

theorem State.onlyNumbers.of_still {s : State} (hst : s.still) (hm : s.isManager = true) (hn : s.num = 0) : s.onlyNumbers := by
  obtain ⟨⟨hi, -, -, hc, -, -, -, -, -, hw⟩, -⟩ := hst
  exact ⟨hm, hn, hi, (fun c h => by rw [hc] at h; cases h), .inl hw⟩

/-! ### The update of the table (R23) -/

/-- The manager with what a walk shows at once. -/
def State.walkSeen (w : WalkRec) (s : State) : State :=
  let u := (s.raiseIf (overLimit w) Reg.TOPO_STATUS F.TOPO_STATUS_LIMIT).raiseIf (miswired w) Reg.TOPO_STATUS F.TOPO_STATUS_MISWIRE
  u.raiseIf (u.survey w).unnum Reg.TOPO_STATUS F.TOPO_STATUS_UNNUMBERED

/-- What a walk shows of the links. -/
def State.walkSurvey (w : WalkRec) (s : State) : Survey :=
  ((s.raiseIf (overLimit w) Reg.TOPO_STATUS F.TOPO_STATUS_LIMIT).raiseIf (miswired w) Reg.TOPO_STATUS F.TOPO_STATUS_MISWIRE).survey w

/-- The manager with a walk as its latest, no longer settling. -/
def State.walkKept (w : WalkRec) (s : State) : State := { s with topo.settling := false, topo.walk := some w }

/-- The manager with its table updated by a walk. -/
def State.tableNow (w : WalkRec) (s : State) : State :=
  (((s.walkSeen w).walkKept w).tableSet w (s.walkSurvey w)).cond Reg.TOPO_STATUS F.TOPO_STATUS_UNSETTLED false

theorem State.walkSeen_only (w : WalkRec) (s : State) : s.only [.regs] [Reg.TOPO_STATUS] (s.walkSeen w) :=
  State.only.raiseIf _ _ _ (State.only.raiseIf _ _ _ (here.raiseIf ..))

/-- The numbers of a table's devices but the manager. -/
def State.tableNums (s : State) : List Nat := (s.topo.ents.filter (fun e => e.2.valid && e.1 != 0)).map (·.1)

theorem State.tableNums_bound {s : State} (h : s.idleTable) {n : Nat} (hn : n ∈ s.tableNums) : n ≠ 0 ∧ n < 64 := by
  obtain ⟨e, he, rfl⟩ := List.mem_map.1 hn
  obtain ⟨hm, hv⟩ := List.mem_filter.1 he
  exact ⟨by simp at hv; exact hv.2, (h e hm).1⟩

/-- The devices whose route has changed, those that are there no longer, and those that come back. -/
structure News where
  moved : List Nat
  left : List Nat
  gone : List Nat
  back : List Nat

theorem State.tableUpdate_eq {s : State} (w : WalkRec) (h1 : s.walks = true) (h2 : s.enumDone = true) (hi : s.idleTable) :
    ∃ x : News, (∀ n ∈ x.back, n ∈ (s.tableNow w).tableNums) ∧ s.tableUpdate w = (s.tableNow w).tableNews x.moved x.left x.gone x.back [] := by
  have hload (n : Nat) : (AMap.get n ({} : TopoE) s.topo.ents).loading = none := (hi.ent n).1
  let there (k : Nat) : Bool := k == 0 || k == 3
  let was (n : Nat) : TopoE := AMap.get n {} s.topo.ents
  let u := s.tableNow w
  let out := u.tableNums.filter (fun n => there (was n).state && !there (u.ent n).state)
  refine ⟨{ moved := u.tableNums.filter (fun n => there (was n).state && (!there (u.ent n).state ||
                F.TOPO_ENT_W0_ROUTE.get (was n).w0 != F.TOPO_ENT_W0_ROUTE.get (u.ent n).w0 || (was n).behind.any (fun m => out.contains m)))
            left := u.tableNums.filter (fun n => (was n).state == 0 && (u.ent n).state != 0)
            gone := u.tableNums.filter (fun n => (was n).state != 2 && (u.ent n).state == 2)
            back := u.tableNums.filter (fun n => ((was n).state == 1 || (was n).state == 2) && (u.ent n).state == 3) },
    fun n hn => List.mem_of_mem_filter hn, ?_⟩
  unfold State.tableUpdate
  rw [if_neg (by simp [h1, h2])]
  dsimp only
  simp only [hload, Option.isSome_none, Bool.false_and, List.filter_false]
  rfl

theorem State.idleTable.topo {s : State} (h : s.idleTable) {x : TopoS} (hx : x.ents = s.topo.ents) : ({ s with topo := x } : State).idleTable := by
  rw [State.idleTable, hx]
  exact h

theorem State.tableNow_regs (w : WalkRec) (s : State) : (((s.walkSeen w).walkKept w).tableEnts w (s.walkSurvey w)).only [.regs] [Reg.TOPO_STATUS, Reg.TOPO_COUNT] (s.tableNow w) := by
  rw [State.tableNow, State.tableSet_eq]
  exact State.only.cond _ _ _ (State.tableRegs_only ..)

section
variable {s : State} (w : WalkRec) (hi : s.idleTable)
include hi

theorem State.walkKept_idle : ((s.walkSeen w).walkKept w).idleTable := (hi.of_only (State.walkSeen_only w s)).topo rfl

theorem State.tableNow_surveyed : ((s.walkSeen w).walkKept w).surveyed (((s.walkSeen w).walkKept w).tableEnts w (s.walkSurvey w)) :=
  State.tableEnts_surveyed w _ (State.walkKept_idle w hi)

theorem State.tableNow_only : s.only [.topo, .regs] [Reg.TOPO_STATUS, Reg.TOPO_COUNT] (s.tableNow w) := by
  have h0 : s.only [.topo, .regs] [Reg.TOPO_STATUS, Reg.TOPO_COUNT] ((s.walkSeen w).walkKept w) :=
    State.only.topo _ ((State.walkSeen_only w s).mono (qs := [.topo, .regs]) (bs := [Reg.TOPO_STATUS, Reg.TOPO_COUNT]))
  rw [State.tableNow, State.tableSet_eq]
  exact ((h0.step (State.tableNow_surveyed w hi).only).step (State.tableRegs_only ..)).cond ..

theorem State.tableNow_idle : (s.tableNow w).idleTable :=
  ((State.tableNow_surveyed w hi).idle (State.walkKept_idle w hi)).of_only (State.tableNow_regs w s)

theorem State.tableNow_topo : (s.tableNow w).topo.settling = false ∧ (s.tableNow w).topo.walk = some w := by
  have h := State.tableNow_surveyed w hi
  rw [(State.tableNow_regs w s).topo', h.settling, h.walk]
  exact ⟨rfl, rfl⟩

theorem State.completes_tableUpdate (hst : s.still) (hm : s.isManager = true) (hn : s.num = 0) (h1 : s.walks = true) (h2 : s.enumDone = true)
    (hd : s.que.descs = []) (hr : s.mgr.reqs = []) (hme : s.mgr.merges = []) (hin : s.mgr.ingress = []) :
    s.completes (.topologyTableUpdate w) [.topo, .mgr, .regs, .ports, .sent, .counts, .notices]
      [Reg.TOPO_STATUS, Reg.TOPO_COUNT, Reg.NDL_STATUS, Reg.NDL_PATH_STATUS]
      (fun t => t.fld Reg.TOPO_STATUS F.TOPO_STATUS_UNSETTLED = 0 ∧ t.topo.settling = false ∧ t.topo.walk = some w) := by
  obtain ⟨x, hx, hf⟩ := State.tableUpdate_eq w h1 h2 hi
  have hc : s.mgr.cfg = [] := hst.1.2.2.2.1
  have ho := State.tableNow_only w hi
  have hidle := State.tableNow_idle w hi
  have hnum : s.onlyNumbers := .of_still hst hm hn
  have hu : s.unasked := ⟨hr, hme, hc, hd⟩
  have ht := State.tableNews_told (moved := x.moved) (left := x.left) (gone := x.gone) (hu.of_only ho) (by rw [ho.mgr']; exact hin)
    (hnum.of_none ho hc) hidle fun n hb => State.tableNums_bound hidle (hx n hb)
  refine State.completes_numbers (f := State.tableUpdate w) rfl hst (by rw [hf]; exact ho.mono.trans (ht.only.mono)) (by rw [hf]; exact ht.numbers) ?_
    (hin := by rw [hf, ht.ingress, hin])
  rw [hf]
  obtain ⟨hse, hwa⟩ := State.tableNow_topo w hi
  refine ⟨?_, ht.topo.1.trans hse, ht.topo.2.trans hwa⟩
  rw [State.carry_fld, ht.flag _ (by decide)]
  exact State.fld_cond _ _ (by decide) _ _

end

/-! ### A device that returns (R25) -/

theorem State.tagCfg_cfg {s : State} (hc : s.mgr.cfg = []) (hl : s.mgr.lateC.contains s.mgr.nextC = false) (use : WardenUse) (m : Msg) :
    (s.tagCfg use m).mgr.cfg = [(s.mgr.nextC, { dst := m.h.dst.val, use := use, time := s.now })] := by
  have htag : s.cfgTag = some s.mgr.nextC := by
    unfold State.cfgTag
    rw [freeTag, hc, hl]
    rfl
  unfold State.tagCfg
  rw [htag]
  dsimp only
  rw [(State.route_only ..).mgr', hc]
  rfl

/-- The write of a number is the one access outstanding. -/
theorem State.comeBack_cfg {s : State} (hc : s.mgr.cfg = []) (hl : s.mgr.lateC.contains s.mgr.nextC = false) (n : Fin 64) :
    (s.comeBack n).mgr.cfg = [(s.mgr.nextC, { dst := n.val, use := .devnum n.val, time := s.now })] := by
  have hd : (Fin.ofNat 64 n.val).val = n.val := Nat.mod_eq_of_lt n.isLt
  rw [State.comeBack_eq, State.writeNumber, State.tagCfg_cfg (by rw [State.modEnt_mgr]; exact hc) (by rw [State.modEnt_mgr]; exact hl), State.modEnt_mgr,
    State.modEnt_now, State.hdrTo, hd]

theorem State.completes_resurvey {s : State} (h1 : s.walks = true) (h2 : s.enumDone = true) :
    s.completes .resurvey [.topo, .regs] [Reg.TOPO_STATUS]
      (fun t => t.fld Reg.TOPO_STATUS F.TOPO_STATUS_UNSETTLED = 1 ∧ t.topo = { s.topo with settling := true }) := by
  have hf : s.resurvey = ({ s with topo.settling := true } : State).cond Reg.TOPO_STATUS F.TOPO_STATUS_UNSETTLED true :=
    if_neg (by simp [h1, h2])
  refine State.completes_run (f := State.resurvey) rfl (by rw [hf]; exact State.only.cond _ _ _ (here.topo _)) ?_
  rw [hf]
  exact ⟨State.fld_cond _ _ (by decide) _ _, State.cond_topo ..⟩

section
variable {s : State} (hst : s.still) {n : Fin 64} {serial : BitVec 64} (h1 : s.walks = true) (h2 : s.enumDone = true) (h0 : n.val ≠ 0) (hv : (s.ent n.val).valid = true)
include hst h1 h2 h0 hv

theorem State.completes_returning_other (hs : (s.ent n.val).serial ≠ serial.toNat) :
    s.completes (.returning n serial) [.regs] [Reg.TOPO_STATUS] (fun t => t.fld Reg.TOPO_STATUS F.TOPO_STATUS_UNNUMBERED = 1) := by
  have hf : s.returning n serial.toNat = s.raise Reg.TOPO_STATUS F.TOPO_STATUS_UNNUMBERED := by
    unfold State.returning
    rw [if_neg (by simp [h1, h2, h0, hv]), if_pos hs]
  have ho : s.only [.regs] [Reg.TOPO_STATUS] (s.raise Reg.TOPO_STATUS F.TOPO_STATUS_UNNUMBERED) := here.raise ..
  refine State.completes_always (f := State.returning n serial.toNat) rfl (by rw [hf]; exact ho.still hst) (by rw [hf]; exact ho) ?_
  rw [hf]
  exact (State.carry_fld ..).trans (State.fld_raise _ _ (by decide) _)

theorem State.completes_returning (hm : s.isManager = true) (hn : s.num = 0) (hs : (s.ent n.val).serial = serial.toNat)
    (hh : (s.ent n.val).halted = false) (hstate : (s.ent n.val).state ≠ 0)
    (h3 : (s.ent n.val).state = 3 → s.mgr.reqs = [] ∧ s.mgr.merges = [] ∧ s.que.descs = []) (hl : s.mgr.lateC.contains s.mgr.nextC = false) :
    s.completes (.returning n serial) [.topo, .mgr, .regs, .ports, .sent, .counts, .notices] [Reg.TOPO_STATUS, Reg.NDL_STATUS, Reg.NDL_PATH_STATUS]
      (fun t => (t.ent n.val).state = 3 ∧ (t.ent n.val).loading = none ∧
        t.mgr.cfg = [(s.mgr.nextC, { dst := n.val, use := .devnum n.val, time := s.now })]) := by
  have hc : s.mgr.cfg = [] := hst.1.2.2.2.1
  have hf : s.returning n serial.toNat = (s.comeBack n).tableSeen := by
    unfold State.returning
    rw [if_neg (by simp [h1, h2, h0, hv]), if_neg (by simp [hs])]
    dsimp only
    rw [if_neg hstate]
    by_cases e : (s.ent n.val).state = 3
    · obtain ⟨hr, hme, hd⟩ := h3 e
      rw [if_pos (.inr e), if_pos (.inr e), State.pathReset_none hr hme hc, State.shardsLost_none hd]
    · rw [if_neg (by simp [hstate, e])]
  have hnum : s.onlyNumbers := .of_still hst hm hn
  have hb := hnum.comeBack h0 n.isLt hh
  have hseen := State.tableSeen_only (s.comeBack n)
  have ho : s.only [.topo, .mgr, .regs, .ports, .sent, .counts, .notices] [Reg.TOPO_STATUS, Reg.NDL_STATUS, Reg.NDL_PATH_STATUS] (s.comeBack n).tableSeen :=
    ((State.comeBack_only n s).mono).step hseen
  have hcfg := State.comeBack_cfg hc hl n
  have hent : ∀ t : State, t.topo = (s.comeBack n).topo → t.ent n.val = (s.ent n.val).back := fun t ht => by
    have e : t.ent n.val = (s.modEnt n TopoE.back).ent n.val := by
      rw [State.ent, State.ent, ht, State.comeBack_eq, (State.writeNumber_only ..).topo']
    exact e.trans (State.ent_modEnt ..)
  have hin : (s.comeBack n).tableSeen.mgr.ingress = s.mgr.ingress := by
    rw [hseen.mgr', State.comeBack_eq, State.writeNumber_ingress, State.modEnt_mgr]
  refine State.completes_numbers (f := State.returning n serial.toNat) rfl hst (by rw [hf]; exact ho) (by rw [hf]; exact hb.of_only hseen) ?_
    (hin := by rw [hf]; exact hin)
  rw [hf, State.carry_ent, hent _ hseen.topo']
  refine ⟨TopoE.back_state _, rfl, ?_⟩
  rw [State.carry_mgr, hseen.mgr', hcfg]

end

/-! ### The plan (R33, R63) -/

/-- The row of `TOPO.PLAN_CTL`. -/
def planRow : RegRow :=
  ⟨"TOPO.PLAN_CTL", 0x8, 4, 1, false,
    [.of "RSV0" 31 2 .rsv 0 .imm false, .of "COMMIT" 1 1 .wo 0 .imm false, .of "AUTO" 0 0 .rw 1 .imm true]⟩

theorem State.resolve_plan {s : State} (h : s.stopped = false) (hm : s.isManager = true) : s.resolve Reg.TOPO_PLAN_CTL = .ok (.topo, 8, planRow) :=
  State.resolve_ok h rfl (fun e => by cases e) (fun e => by cases e) hm (by decide) rfl

/-- R63: a write of COMMIT. -/
theorem State.writeParts_commit {s : State} (hu : s.up) (hm : s.isManager = true) (path : Path) :
    s.writeParts path Reg.TOPO_PLAN_CTL [(F.TOPO_PLAN_CTL_COMMIT, 1)] = some (s.setReg Reg.TOPO_PLAN_CTL (s.reg Reg.TOPO_PLAN_CTL)).planCommit := by
  have hst : s.stopped = false := by simp [State.stopped, hu.awake]
  rw [State.writeParts_command hu path (State.resolve_plan hst hm) (State.rawView_none (b := .topo) (o := 8) rfl (fun e => by cases e) (fun e => by cases e))
    rfl (fun e => by cases e) (fun e => by cases e) (by decide) rfl (by decide) (by decide)]
  show some (when ((8 : Nat) == 8 && commandOf F.TOPO_PLAN_CTL_COMMIT 1 F.TOPO_PLAN_CTL_COMMIT == 1) State.planCommit _) = _
  rw [show ((8 : Nat) == 8 && commandOf F.TOPO_PLAN_CTL_COMMIT 1 F.TOPO_PLAN_CTL_COMMIT == 1) = true by decide, when_true]

/-- Whether a plan keeps the limits of R20. -/
def State.planFits (s : State) : Prop :=
  ones 16 ((s.reg Reg.TOPO_PLAN_TRUNK).toNat / 2 ^ 16) ≤ 15 ∧ ∀ j < 14, ones 12 ((s.reg (Reg.TOPO_PLAN_SPUR j)).toNat / 2 ^ 16) ≤ 6

theorem State.planFits_iff (s : State) : s.planFits ↔ ones 16 ((s.reg Reg.TOPO_PLAN_TRUNK).toNat / 2 ^ 16) ≤ 15 ∧
    (List.range 14).all (fun j => decide (ones 12 ((s.reg (Reg.TOPO_PLAN_SPUR j)).toNat / 2 ^ 16) ≤ 6)) = true := by
  rw [State.planFits, List.all_eq_true]
  refine and_congr_right fun _ => forall_congr' fun j => ?_
  rw [List.mem_range, decide_eq_true_eq]

/-- The plan of a manager that has adopted one. -/
def State.planned (s : State) : State :=
  { s with topo.trunk := s.reg Reg.TOPO_PLAN_TRUNK, topo.adopted := true,
           topo.spurs := ((List.range 14).map (fun j => (j, s.reg (Reg.TOPO_PLAN_SPUR j)))).filter (fun x => x.2 != 0) }

theorem State.planCommit_fits {s : State} (h : s.planFits) : s.planCommit = (s.planned.setFld Reg.TOPO_PLAN_CTL F.TOPO_PLAN_CTL_AUTO 0).resurvey := by
  unfold State.planCommit State.planned
  dsimp only
  rw [if_pos ((State.planFits_iff s).1 h)]

theorem State.planCommit_over {s : State} (h : ¬ s.planFits) : s.planCommit = s.raise Reg.TOPO_STATUS F.TOPO_STATUS_LIMIT := by
  unfold State.planCommit
  dsimp only
  rw [if_neg fun k => h ((State.planFits_iff s).2 k)]

theorem State.resurvey_only (s : State) : s.only [.topo, .regs] [Reg.TOPO_STATUS] s.resurvey := by
  unfold State.resurvey
  split
  · exact here
  · exact State.only.cond _ _ _ (here.topo _)

theorem State.resurvey_topo (s : State) : s.resurvey.topo.trunk = s.topo.trunk ∧ s.resurvey.topo.adopted = s.topo.adopted := by
  unfold State.resurvey
  split
  · exact ⟨rfl, rfl⟩
  · rw [State.cond_topo]
    exact ⟨rfl, rfl⟩

section
variable {s : State} (hst : s.still) (hu : s.up) (hm : s.isManager = true) (path : Path)
include hst hu hm

theorem State.completes_planCommit (h : s.planFits) :
    s.completes (.planCommit path) [.topo, .regs] [Reg.TOPO_PLAN_CTL, Reg.TOPO_STATUS]
      (fun t => t.topo.trunk = s.reg Reg.TOPO_PLAN_TRUNK ∧ t.topo.adopted = true ∧ t.fld Reg.TOPO_PLAN_CTL F.TOPO_PLAN_CTL_AUTO = 0 ∧
        (s.walks = true → s.enumDone = true → t.fld Reg.TOPO_STATUS F.TOPO_STATUS_UNSETTLED = 1)) := by
  let v : State := s.setReg Reg.TOPO_PLAN_CTL (s.reg Reg.TOPO_PLAN_CTL)
  have hv : s.only [.regs] [] v := State.setReg_same_only ..
  have hfit : v.planFits := by
    simp only [State.planFits, hv.reg _]
    exact h
  let u : State := v.planned.setFld Reg.TOPO_PLAN_CTL F.TOPO_PLAN_CTL_AUTO 0
  have hpl : v.planCommit = u.resurvey := State.planCommit_fits hfit
  have ho : s.only [.topo, .regs] [Reg.TOPO_PLAN_CTL, Reg.TOPO_STATUS] u := State.only.setFld _ _ _ (State.only.topo _ hv.mono)
  have hr := State.resurvey_only u
  have hut : u.topo = v.planned.topo := State.setFld_topo ..
  obtain ⟨htr, had⟩ := State.resurvey_topo u
  refine State.completes_access rfl ((State.onPath_up hu _ _).trans ((State.writeParts_commit hu hm path).trans (congrArg some hpl)))
    ((ho.step hr).still hst) (ho.step hr) ⟨?_, ?_, ?_, fun h1 h2 => ?_⟩
  · rw [State.carry_topo, htr, hut]
    exact hv.reg _
  · rw [State.carry_topo, had, hut]
    rfl
  · rw [State.carry_fld, hr.fld _ _ (by decide)]
    exact State.fld_setFld _ _ (by decide) _ _
  · have hw : u.walks = true := by
      have e : u.walks = s.walks := by simp only [State.walks, ho.isManager, ho.awake, ho.power']
      rw [e, h1]
    have hd : u.enumDone = true := by
      rw [State.enumDone, State.fld_setFld_ne (by decide), ← h2, State.enumDone]
      exact congrArg (· == 1) (hv.fld Reg.TOPO_STATUS F.TOPO_STATUS_ENUM_DONE)
    rw [State.carry_fld, State.resurvey, if_neg (by simp [hw, hd])]
    exact State.fld_cond _ _ (by decide) _ _

theorem State.completes_planCommit_over (h : ¬ s.planFits) :
    s.completes (.planCommit path) [.regs] [Reg.TOPO_STATUS] (fun t => t.fld Reg.TOPO_STATUS F.TOPO_STATUS_LIMIT = 1) := by
  let v : State := s.setReg Reg.TOPO_PLAN_CTL (s.reg Reg.TOPO_PLAN_CTL)
  have hv : s.only [.regs] [] v := State.setReg_same_only ..
  have hfit : ¬ v.planFits := by
    simp only [State.planFits, hv.reg _]
    exact h
  have ho : s.only [.regs] [Reg.TOPO_STATUS] (v.raise Reg.TOPO_STATUS F.TOPO_STATUS_LIMIT) := State.only.raise _ _ hv.mono
  exact State.completes_access rfl ((State.onPath_up hu _ _).trans ((State.writeParts_commit hu hm path).trans (congrArg some (State.planCommit_over hfit))))
    (ho.still hst) ho ((State.carry_fld ..).trans (State.fld_raise _ _ (by decide) _))

end

/-- Settles O10: the re-survey, the table, the device that returns and the plan, each by what it leaves outstanding. -/
theorem resurvey : Obligations.Resurvey := by
  unfold Obligations.Resurvey
  intro s hst hu hm hn
  refine ⟨State.completes_resurvey, fun w h1 h2 hd hr hme hin hents => ?_, fun n serial h1 h2 h0 hv hs => State.completes_returning_other hst h1 h2 h0 hv hs,
    fun n serial h1 h2 h0 hv hs hh hstate h3 hl => State.completes_returning hst h1 h2 h0 hv hm hn hs hh hstate h3 hl,
    fun path ht hs => State.completes_planCommit hst hu hm path ⟨ht, hs⟩, fun path h => State.completes_planCommit_over hst hu hm path ?_⟩
  · exact State.completes_tableUpdate w (fun e he => ⟨(hents e he).1, (hents e he).2.1, (hents e he).2.2⟩) hst hm hn h1 h2 hd hr hme hin
  · rintro ⟨ht, hs⟩
    rcases h with h | ⟨j, hj, h⟩
    · omega
    · have := hs j hj
      omega

end Sys2Proof.Machine
end

section
/-! PROOFS. The walk and the numbers of the devices (R18, R19, R22): what a survey finds is what the walk has met. -/

set_option Elab.async false

namespace Sys2Proof.Machine
open Sys2Proof
open State.only (here)

/-! ### The devices that a survey finds -/

theorem mem_before {α : Type} {x : α} {l : List (Option α)} (h : x ∈ before l) : some x ∈ l := by
  obtain ⟨y, hy, rfl⟩ := List.mem_filterMap.1 h
  exact (List.takeWhile_sublist _).subset hy

theorem mem_arcs {α : Type} {x : α} {closed : Bool} {a b : List (Option α)} (h : x ∈ (arcs closed a b).1 ∨ x ∈ (arcs closed a b).2.1) :
    some x ∈ a ∨ some x ∈ b := by
  unfold arcs at h
  split at h
  · split at h
    · rcases h with h | h
      · exact .inl (mem_before h)
      · cases h
    · rcases h with h | h
      · exact .inl (mem_before h)
      · exact .inl (List.mem_reverse.1 (mem_before h))
  · exact h.imp mem_before mem_before

theorem layIn_mem {pl : List Bool} {us : List Nat} {lo hi b : Nat} {x : Nat × Option Nat × Nat} (h : x ∈ (layIn pl us lo hi b).devs) : x.1 ∈ us := by
  unfold layIn at h
  dsimp only at h
  split at h
  · obtain ⟨u, hu, rfl⟩ := List.mem_map.1 h
    exact List.fst_mem_of_mem_zipIdx hu
  · split at h
    · cases h
    · obtain ⟨u, hu, rfl⟩ := List.mem_map.1 h
      exact hu

theorem layLine_mem {pl : List Bool} {x : Nat × Option Nat × Nat} : ∀ (l : List (Nat × Option Nat)) {us : List Nat} {lo b : Nat},
    x ∈ (layLine pl l us lo b).devs → x.1 ∈ us ∨ x.1 ∈ l.map (·.1)
  | [], us, lo, b, h => .inl (layIn_mem h)
  | (n, p) :: r, us, lo, b, h => by
    have skip (h : x ∈ (layLine pl r (us ++ [n]) lo b).devs) : x.1 ∈ us ∨ x.1 ∈ ((n, p) :: r).map (·.1) := by
      rcases layLine_mem r h with h | h
      · rcases List.mem_append.1 h with h | h
        · exact .inl h
        · exact .inr (by simp [List.mem_singleton.1 h])
      · exact .inr (List.mem_cons_of_mem _ h)
    unfold layLine at h
    split at h
    · exact skip h
    · split at h
      · exact skip h
      · rcases List.mem_append.1 h with h | h
        · rcases List.mem_append.1 h with h | h
          · exact .inl (layIn_mem h)
          · rw [List.mem_singleton.1 h]
            exact .inr List.mem_cons_self
        · rcases layLine_mem r h with h | h
          · cases h
          · exact .inr (List.mem_cons_of_mem _ h)

theorem layPlan_mem {pl : List Bool} {ds : List (Nat × Option Nat)} {x : Nat × Option Nat × Nat} (h : x ∈ (layPlan pl ds).devs) : x.1 ∈ ds.map (·.1) := by
  unfold layPlan at h
  dsimp only at h
  split at h
  · obtain ⟨u, hu, rfl⟩ := List.mem_map.1 h
    exact List.mem_map_of_mem (List.fst_mem_of_mem_zipIdx hu)
  · exact (layLine_mem ds h).resolve_left (by simp)

theorem State.mem_numbersOn {s : State} {fit : DevRec → Bool} {key : Nat → Option Nat} {n : Nat} {d : DevRec} : ∀ (l : List DevRec) {lo : Nat},
    some (n, d) ∈ s.numbersOn fit key l lo → d ∈ l ∧ s.numberOf d.serial.toNat = some n
  | [], _, h => by cases h
  | e :: r, lo, h => by
    have rest {lo : Nat} (h : some (n, d) ∈ s.numbersOn fit key r lo) : d ∈ e :: r ∧ s.numberOf d.serial.toNat = some n :=
      (State.mem_numbersOn r h).imp_left (List.mem_cons_of_mem _)
    have skip {lo : Nat} (h : some (n, d) ∈ none :: s.numbersOn fit key r lo) : d ∈ e :: r ∧ s.numberOf d.serial.toNat = some n :=
      rest ((List.mem_cons.1 h).resolve_left (by simp))
    unfold State.numbersOn at h
    split at h
    · exact skip h
    next m hm =>
      split at h
      · split at h
        · rcases List.mem_cons.1 h with h | h
          · cases h
            refine ⟨List.mem_cons_self, ?_⟩
            split at hm
            · exact hm
            · cases hm
          · exact rest h
        · exact skip h
      · exact skip h

/-- A device of a walk has a number of the table. -/
def State.metBy (s : State) (w : WalkRec) (n : Nat) : Prop := ∃ d ∈ walkDevices w, s.numberOf d.serial.toNat = some n

theorem mem_walkDevices_branch {w : WalkRec} {b : BranchRec} (h : b ∈ walkBranches w) : b.dev ∈ walkDevices w :=
  List.mem_flatMap.2 ⟨b, h, List.mem_cons_self⟩

theorem mem_walkDevices_spur {w : WalkRec} {b : BranchRec} (h : b ∈ walkBranches w) {d : DevRec} (hd : d ∈ b.spurA ++ b.spurB) : d ∈ walkDevices w :=
  List.mem_flatMap.2 ⟨b, h, List.mem_cons_of_mem _ hd⟩

theorem State.mem_trunkNums {s : State} {w : WalkRec} {n : Nat} {d : DevRec} (h : some (n, d) ∈ (s.trunkNums w).1 ∨ some (n, d) ∈ (s.trunkNums w).2) :
    s.metBy w n := by
  unfold State.trunkNums at h
  dsimp only at h
  rcases h with h | h
  · obtain ⟨hm, hn⟩ := State.mem_numbersOn _ h
    obtain ⟨b, hb, rfl⟩ := List.mem_map.1 hm
    exact ⟨_, mem_walkDevices_branch (List.mem_append_left _ hb), hn⟩
  · split at h
    · cases h
    next hc =>
      obtain ⟨hm, hn⟩ := State.mem_numbersOn _ h
      obtain ⟨b, hb, rfl⟩ := List.mem_map.1 hm
      exact ⟨_, mem_walkDevices_branch (List.mem_append_right _ (by rw [if_neg hc]; exact hb)), hn⟩

theorem State.mem_surveySpur {s : State} {w : WalkRec} {b : BranchRec} (hb : b ∈ walkBranches w) {l : List DevRec} (hl : ∀ d ∈ l, d ∈ b.spurA ++ b.spurB)
    {x : Found} {ord sp : Nat} {f : Found} (h : f ∈ (s.surveySpur x ord sp l).1.found) : s.metBy w f.num := by
  unfold State.surveySpur at h
  dsimp only at h
  obtain ⟨y, hy, rfl⟩ := List.mem_map.1 h
  have h1 := layPlan_mem (List.mem_of_mem_take (List.fst_mem_of_mem_zipIdx hy))
  rw [List.map_map] at h1
  obtain ⟨⟨n, d⟩, hd, hn⟩ := List.mem_map.1 h1
  obtain ⟨hm, hk⟩ := State.mem_numbersOn _ (mem_before hd)
  exact ⟨d, mem_walkDevices_spur hb (hl d hm), by rw [hk]; exact congrArg some hn⟩

theorem eq_of_ite_some {α : Type} {c : Prop} [Decidable c] {x y : α} (h : (if c then some y else none) = some x) : y = x := by
  split at h
  · exact Option.some.inj h
  · cases h

theorem State.mem_trunkLine {s : State} {w : WalkRec} {n : Nat} {pl : List Bool} {x : Nat × Option Nat × Nat}
    (h : x ∈ (layPlan pl (((arcs w.closed (s.trunkNums w).1 (s.trunkNums w).2).1 ++ (arcs w.closed (s.trunkNums w).1 (s.trunkNums w).2).2.1.reverse).map
      fun d => (d.1, s.placeOfDev d.2))).devs) (hn : x.1 = n) : s.metBy w n := by
  have h1 := layPlan_mem h
  rw [List.map_map] at h1
  obtain ⟨⟨m, d⟩, hd, hm⟩ := List.mem_map.1 h1
  have e : m = n := (hm : m = x.1).trans hn
  subst e
  refine State.mem_trunkNums (d := d) (mem_arcs (closed := w.closed) ?_)
  rcases List.mem_append.1 hd with h | h
  · exact .inl h
  · exact .inr (List.mem_reverse.1 h)

theorem State.mem_survey {s : State} {w : WalkRec} {f : Found} (h : f ∈ (s.survey w).found) : s.metBy w f.num := by
  unfold State.survey at h
  dsimp only at h
  rcases List.mem_append.1 h with h | h
  · obtain ⟨x, hx, rfl⟩ := List.mem_map.1 h
    obtain ⟨y, hy, rfl⟩ := List.mem_map.1 hx
    obtain ⟨r, hr, rfl⟩ := List.mem_map.1 hy
    obtain ⟨d, hd, hdr⟩ := List.mem_filterMap.1 hr
    have hnum : r.num = d.1.1 := by
      split at hdr
      next a b ha hb =>
        have na : a.num = d.1.1 := by rw [← eq_of_ite_some ha]
        have nb : b.num = d.1.1 := by rw [← eq_of_ite_some hb]
        rw [← Option.some.inj hdr]
        exact iteInduction (motive := fun x : Found => x.num = d.1.1) (fun _ => nb) fun _ => na
      next a ha _ => rw [← Option.some.inj hdr, ← eq_of_ite_some ha]
      next => rw [← eq_of_ite_some hdr]
    have hmet : s.metBy w r.num := State.mem_trunkLine (List.fst_mem_of_mem_zipIdx hd) hnum.symm
    split <;> exact hmet
  · obtain ⟨x, hx, hf⟩ := List.mem_flatMap.1 h
    obtain ⟨y, hy, rfl⟩ := List.mem_map.1 hx
    split at hf
    · cases hf
    next b hb =>
      obtain ⟨z, -, hz⟩ := Option.bind_eq_some_iff.1 hb
      have hbm := List.mem_of_find?_eq_some hz
      rcases List.mem_append.1 hf with hf | hf
      · exact State.mem_surveySpur hbm (fun d hd => List.mem_append_left _ hd) hf
      · exact State.mem_surveySpur hbm (fun d hd => List.mem_append_right _ hd) hf

end Sys2Proof.Machine
end

section
/-! PROOFS. ENUM_SETTLE numbers the devices that the walk has met (R19, R22, R60, R62). -/

set_option Elab.async false

namespace Sys2Proof.Machine
open Sys2Proof
open State.only (here)

/-! ### The new table (R19, R22) -/

/-- The manager's entry. -/
def manEnt (serial : Nat) : TopoE :=
  let man : TopoE := { w0 := entWord { role := 2, gen232 := false, serial := 0, userGib := 94, links := 0, into := .w } 0 0 0, serial := serial }
  man.place 0 0 0 0

/-- The entry of a device that has just been numbered. -/
def devEnt (d : DevRec × Nat × Nat × Nat) : TopoE :=
  { w0 := entWord d.1 d.2.1 d.2.2.1 d.2.2.2, serial := d.1.serial.toNat, userGib := if d.1.gen232 then d.1.userGib else 94, w1 := d.1.links }

/-- The table of a walk. -/
def walkEnts (serial : Nat) (w : WalkRec) : AMap TopoE := (0, manEnt serial) :: (numbering w).zipIdx.map (fun d => (d.2 + 1, devEnt d.1))

theorem entWord_toNat (d : DevRec) (tp sp pos : Nat) :
    (entWord d tp sp pos).toNat = (1 + d.role.val * 2 + b2n d.gen232 * 8 + 3 * 16 + tp * 64 + sp * 512 + pos * 1024) % 2 ^ 32 := BitVec.toNat_ofNat ..

theorem devEnt_valid (d : DevRec × Nat × Nat × Nat) : (devEnt d).valid = true := by
  have h : F.TOPO_ENT_W0_VALID.get (entWord d.1 d.2.1 d.2.2.1 d.2.2.2) = 1 := by
    rw [Fld.get, entWord_toNat, bits]
    simp only [F.TOPO_ENT_W0_VALID]
    omega
  exact beq_iff_eq.2 h

theorem devEnt_state (d : DevRec × Nat × Nat × Nat) : (devEnt d).state = 3 := by
  have h : F.TOPO_ENT_W0_STATE.get (entWord d.1 d.2.1 d.2.2.1 d.2.2.2) = 3 := by
    have hr := d.1.role.isLt
    have hg : b2n d.1.gen232 < 2 := by cases d.1.gen232 <;> decide
    rw [Fld.get, entWord_toNat, bits]
    simp only [F.TOPO_ENT_W0_STATE]
    omega
  exact h

theorem find_zipIdx {β γ : Type} (g : β → γ) (l : List β) (m k : Nat) (hk : m ≤ k) :
    AMap.find (k + 1) ((l.zipIdx m).map (fun d => (d.2 + 1, g d.1))) = l[k - m]?.map g := by
  induction l generalizing m with
  | nil => rfl
  | cons a l ih =>
    rw [List.zipIdx_cons, List.map_cons]
    unfold AMap.find
    by_cases e : k = m
    · subst e
      simp
    · rw [if_neg (by simpa using e), ih (m + 1) (by omega), show k - m = (k - (m + 1)) + 1 by omega, List.getElem?_cons_succ]

theorem walkEnts_find {serial : Nat} {w : WalkRec} (k : Nat) : AMap.find (k + 1) (walkEnts serial w) = (numbering w)[k]?.map devEnt := by
  unfold walkEnts AMap.find
  rw [if_neg (by omega)]
  exact find_zipIdx devEnt _ 0 k (Nat.zero_le k)

theorem manEnt_serial (serial : Nat) : (manEnt serial).serial = serial := by
  unfold manEnt
  obtain ⟨w, hw⟩ := TopoE.place_eq { w0 := entWord { role := 2, gen232 := false, serial := 0, userGib := 94, links := 0, into := .w } 0 0 0, serial := serial } 0 0 0 0
  dsimp only
  rw [hw]

theorem manEnt_idle (serial : Nat) : (manEnt serial).idle := by
  unfold manEnt
  obtain ⟨w, hw⟩ := TopoE.place_eq { w0 := entWord { role := 2, gen232 := false, serial := 0, userGib := 94, links := 0, into := .w } 0 0 0, serial := serial } 0 0 0 0
  dsimp only
  rw [hw]
  exact ⟨rfl, rfl⟩

theorem mem_walkEnts {serial : Nat} {w : WalkRec} {e : Nat × TopoE} (h : e ∈ walkEnts serial w) :
    e = (0, manEnt serial) ∨ ∃ k x, (numbering w)[k]? = some x ∧ e = (k + 1, devEnt x) := by
  rcases List.mem_cons.1 h with h | h
  · exact .inl h
  · obtain ⟨⟨x, k⟩, hx, rfl⟩ := List.mem_map.1 h
    exact .inr ⟨k, x, List.mk_mem_zipIdx_iff_getElem?.1 hx, rfl⟩

theorem numbering_lt {w : WalkRec} {k : Nat} {x : DevRec × Nat × Nat × Nat} (h : (numbering w)[k]? = some x) : k < 63 := by
  have hl : (numbering w).length ≤ 63 := by
    unfold numbering
    exact List.length_take_le ..
  obtain ⟨hk, -⟩ := List.getElem?_eq_some_iff.1 h
  omega

theorem walkEnts_idle {s : State} {serial : Nat} {w : WalkRec} (h : s.topo.ents = walkEnts serial w) : s.idleTable := fun e he => by
  rw [h] at he
  rcases mem_walkEnts he with rfl | ⟨k, x, hx, rfl⟩
  · exact ⟨Nat.zero_lt_succ _, manEnt_idle serial⟩
  · have := numbering_lt hx
    exact ⟨by show k + 1 < 64; omega, rfl, rfl⟩

theorem walkEnts_ent {s : State} {serial : Nat} {w : WalkRec} (h : s.topo.ents = walkEnts serial w) {k : Nat} {x : DevRec × Nat × Nat × Nat}
    (hx : (numbering w)[k]? = some x) : s.ent (k + 1) = devEnt x := by
  rw [State.ent, h, AMap.get, walkEnts_find, hx]
  rfl

theorem walkEnts_man {s : State} {serial : Nat} {w : WalkRec} (h : s.topo.ents = walkEnts serial w) : s.ent 0 = manEnt serial := by
  rw [State.ent, h, walkEnts, AMap.get, AMap.find, if_pos rfl]
  rfl

/-- A device of the walk that has a number is returning, and is not the manager. -/
theorem State.metBy.returning {s : State} {serial : Nat} {w : WalkRec} (h : s.topo.ents = walkEnts serial w)
    (hser : ∀ d ∈ walkDevices w, d.serial.toNat ≠ serial) {n : Nat} (hn : s.metBy w n) : n ≠ 0 ∧ n < 64 ∧ (s.ent n).state = 3 := by
  obtain ⟨d, hd, hnum⟩ := hn
  obtain ⟨e, he, rfl⟩ := Option.map_eq_some_iff.1 hnum
  have hm := List.mem_of_find?_eq_some he
  have hp := List.find?_some he
  simp only [Bool.and_eq_true, beq_iff_eq] at hp
  rw [h] at hm
  rcases mem_walkEnts hm with rfl | ⟨k, x, hx, rfl⟩
  · exact absurd (hp.2.symm.trans (manEnt_serial serial)) (hser d hd)
  · have := numbering_lt hx
    refine ⟨Nat.succ_ne_zero k, by show k + 1 < 64; omega, ?_⟩
    show (s.ent (k + 1)).state = 3
    rw [walkEnts_ent h hx]
    exact devEnt_state x

/-! ### The table takes the survey -/

theorem TopoE.found_state {f : Found} {e : TopoE} (h : e.state = 3) : (e.found f).state = 3 := by
  have hs := TopoE.place_state e (if e.state = 0 then 0 else 3) f.route f.h f.c
  obtain ⟨w, hw⟩ := TopoE.place_eq e (if e.state = 0 then 0 else 3) f.route f.h f.c
  rw [hw, h] at hs
  unfold TopoE.found
  rw [hw]
  exact hs

/-- A returning device that the survey has found stays returning. -/
theorem State.tableEnts_returning {s : State} {w : WalkRec} {v : Survey} {n : Nat} (h0 : n ≠ 0) (hn : n ∈ v.found.map (·.num))
    (hs : (s.ent n).state = 3) : ((s.tableEnts w v).ent n).state = 3 := by
  unfold State.tableEnts
  refine forEach_keeps (fun t => (t.ent n).state = 3) _ (fun e t ht => ?_) _ _ ?_
  · by_cases he : n = e.1
    · split
      · rw [he, State.ent_modEnt]
        exact TopoE.found_state (he ▸ ht)
      next hf =>
        obtain ⟨f, hfm, hfn⟩ := List.mem_map.1 hn
        exact absurd (List.find?_eq_none.1 hf f hfm) (by simp [hfn, he])
    · split <;> rw [State.ent_modEnt_ne he] <;> exact ht
  · rw [State.ent_modEnt_ne h0]
    exact hs

/-! ### Numbers are assigned (R18 to R21) -/

/-- The manager adopts the walk as its plan where AUTO asks for one. -/
def State.autoPlan (w : WalkRec) (s : State) : State :=
  let auto : Bool := s.fld Reg.TOPO_PLAN_CTL F.TOPO_PLAN_CTL_AUTO == 1 && !s.topo.adopted
  if auto then
    let t := (trunkOf w).take 7
    let spurs : List (Nat × Word) := t.zipIdx.flatMap (fun b => [(2 * b.2, planOf (goodSpur b.1.spurA).length), (2 * b.2 + 1, planOf (goodSpur b.1.spurB).length)])
    let s := { s with topo.trunk := planOf t.length, topo.spurs := spurs.filter (fun x => x.2 != planOf 0), topo.adopted := true }
    let s := s.setReg Reg.TOPO_PLAN_TRUNK (planOf t.length)
    forEach (List.range 14) (fun j s => s.setReg (Reg.TOPO_PLAN_SPUR j) (AMap.get j (planOf 0) spurs)) s
  else s

/-- The manager with the new table, before the survey. -/
def State.enumStart (w : WalkRec) (s : State) : State :=
  ((((({ s with topo.ents := walkEnts s.id.serial w, topo.walk := some w } : State).autoPlan w).raiseIf (overLimit w) Reg.TOPO_STATUS F.TOPO_STATUS_LIMIT).raiseIf
    (miswired w) Reg.TOPO_STATUS F.TOPO_STATUS_MISWIRE).setReg Reg.IDENT_DEVNUM 0x40).raise Reg.IDENT_STATUS F.IDENT_STATUS_NUM_CHANGED

/-- The manager with its table, before the numbers are written. -/
def State.enumTable (w : WalkRec) (s : State) : State :=
  ((s.enumStart w).tableSet w ((s.enumStart w).survey w)).cond Reg.TOPO_STATUS F.TOPO_STATUS_ENUM_DONE true

theorem State.enumerate_eq (w : WalkRec) (s : State) :
    s.enumerate w = (forEach ((((s.enumStart w).survey w).found).map (·.num)) State.writeNumber (s.enumTable w)).tableSeen := by
  unfold State.enumerate State.enumTable State.enumStart State.autoPlan walkEnts manEnt devEnt
  rfl

/-- The registers of the enumeration. -/
def enumRegs : List Nat :=
  [Reg.IDENT_DEVNUM, Reg.IDENT_STATUS, Reg.TOPO_STATUS, Reg.TOPO_COUNT, Reg.TOPO_PLAN_TRUNK, Reg.NDL_STATUS, Reg.NDL_PATH_STATUS] ++
    (List.range 14).map Reg.TOPO_PLAN_SPUR

/-- A plan is no matter of the table's entries. -/
structure State.replanned (s t : State) : Prop where
  only : s.only [.topo, .regs] enumRegs t
  ents : t.topo.ents = s.topo.ents
  walk : t.topo.walk = s.topo.walk
  settled : t.topo.settled = s.topo.settled

theorem State.replanned.setReg {s t : State} (h : s.replanned t) {a : Nat} (ha : a ∈ enumRegs) (v : Word) : s.replanned (t.setReg a v) :=
  ⟨h.only.setReg a v (ha := ha), (congrArg TopoS.ents (State.setReg_topo ..)).trans h.ents, (congrArg TopoS.walk (State.setReg_topo ..)).trans h.walk,
    (congrArg TopoS.settled (State.setReg_topo ..)).trans h.settled⟩

theorem State.autoPlan_replanned (w : WalkRec) (s : State) : s.replanned (s.autoPlan w) := by
  unfold State.autoPlan
  dsimp only
  split
  · refine forEach_keeps_mem (s.replanned ·) _ _ (fun j hj t h => h.setReg (List.mem_append_right _ (List.mem_map_of_mem hj)) _) _ ?_
    refine State.replanned.setReg (a := Reg.TOPO_PLAN_TRUNK) ?_ (by decide) _
    exact ⟨here.topo _, rfl, rfl, rfl⟩
  · exact ⟨here, rfl, rfl, rfl⟩

section
variable (w : WalkRec) (s : State)

theorem State.enumStart_replanned : ({ s with topo.ents := walkEnts s.id.serial w, topo.walk := some w } : State).replanned (s.enumStart w) := by
  obtain ⟨ho, he, hw, hs⟩ := State.autoPlan_replanned w { s with topo.ents := walkEnts s.id.serial w, topo.walk := some w }
  have h1 : (({ s with topo.ents := walkEnts s.id.serial w, topo.walk := some w } : State).autoPlan w).only [.regs]
      [Reg.TOPO_STATUS, Reg.IDENT_DEVNUM, Reg.IDENT_STATUS] (s.enumStart w) :=
    (State.only.setReg _ _ (State.only.raiseIf _ _ _ (here.raiseIf ..))).raise ..
  refine ⟨ho.step h1 (ha := by decide), ?_, ?_, ?_⟩ <;> rw [h1.topo'] <;> assumption

theorem State.enumStart_ents : (s.enumStart w).topo.ents = walkEnts s.id.serial w := (State.enumStart_replanned w s).ents

theorem State.enumStart_only : s.only [.topo, .regs] enumRegs (s.enumStart w) :=
  State.only.trans (here.topo _) (State.enumStart_replanned w s).only

theorem State.enumStart_surveyed : (s.enumStart w).surveyed ((s.enumStart w).tableEnts w ((s.enumStart w).survey w)) :=
  State.tableEnts_surveyed w _ (walkEnts_idle (State.enumStart_ents w s))

theorem State.enumTable_regs : ((s.enumStart w).tableEnts w ((s.enumStart w).survey w)).only [.regs] [Reg.TOPO_STATUS, Reg.TOPO_COUNT] (s.enumTable w) := by
  rw [State.enumTable, State.tableSet_eq]
  exact State.only.cond _ _ _ (State.tableRegs_only ..)

theorem State.enumTable_ent (n : Nat) : (s.enumTable w).ent n = ((s.enumStart w).tableEnts w ((s.enumStart w).survey w)).ent n := by
  rw [State.ent, (State.enumTable_regs w s).topo', State.ent]

theorem State.enumTable_only : s.only [.topo, .regs] enumRegs (s.enumTable w) :=
  ((State.enumStart_only w s).step (State.enumStart_surveyed w s).only).step (State.enumTable_regs w s) (ha := by decide)

theorem State.enumTable_idle : (s.enumTable w).idleTable :=
  ((State.enumStart_surveyed w s).idle (walkEnts_idle (State.enumStart_ents w s))).of_only (State.enumTable_regs w s)

theorem State.enumStart_devnum : (s.enumStart w).reg Reg.IDENT_DEVNUM = 0x40 := by
  unfold State.enumStart
  have h (u : State) : (u.raise Reg.IDENT_STATUS F.IDENT_STATUS_NUM_CHANGED).reg Reg.IDENT_DEVNUM = u.reg Reg.IDENT_DEVNUM :=
    State.only.reg (ps := [.regs]) (as := [Reg.IDENT_STATUS]) (here.raise ..) _ (by decide)
  rw [h]
  exact State.reg_setReg ..

theorem State.enumTable_devnum : (s.enumTable w).reg Reg.IDENT_DEVNUM = 0x40 := by
  rw [(State.enumTable_regs w s).reg _ (by decide), (State.enumStart_surveyed w s).only.reg _, State.enumStart_devnum]

theorem State.enumTable_numbers (hst : s.still) (hm : s.isManager = true) : (s.enumTable w).onlyNumbers := by
  have ho := State.enumTable_only w s
  obtain ⟨hi, -, -, hc, -, -, -, -, -, hw⟩ := hst.1
  refine ⟨ho.isManager.trans hm, ?_, ho.inbox'.trans hi, fun c h => ?_, .inl (by rw [ho.mgr']; exact hw)⟩
  · rw [State.num, State.fld, State.enumTable_devnum]
    decide
  · rw [ho.mgr', hc] at h
    cases h

end

/-- Between two states numbers have been written. -/
structure State.numbering (s t : State) : Prop where
  only : s.only [.mgr, .ports, .sent, .counts, .regs] [Reg.NDL_PATH_STATUS] t
  numbers : t.onlyNumbers
  ingress : t.mgr.ingress = s.mgr.ingress

theorem State.enumTable_numbering {w : WalkRec} {s : State} (hst : s.still) (hm : s.isManager = true)
    (hser : ∀ d ∈ walkDevices w, d.serial.toNat ≠ s.id.serial) :
    (s.enumTable w).numbering (forEach ((((s.enumStart w).survey w).found).map (·.num)) State.writeNumber (s.enumTable w)) := by
  refine forEach_keeps_mem ((s.enumTable w).numbering ·) _ _ (fun n hn t ht => ?_) _ ⟨here, State.enumTable_numbers w s hst hm, rfl⟩
  obtain ⟨f, hf, rfl⟩ := List.mem_map.1 hn
  obtain ⟨h0, h64, h3⟩ := State.metBy.returning (State.enumStart_ents w s) hser (State.mem_survey hf)
  have hent : t.ent f.num = (s.enumTable w).ent f.num := by rw [State.ent, ht.only.topo', State.ent]
  refine ⟨ht.only.step (State.writeNumber_only ..), ht.numbers.writeNumber h0 h64 ?_ ?_, (State.writeNumber_ingress ..).trans ht.ingress⟩
  · rw [hent, State.enumTable_ent]
    exact State.tableEnts_returning h0 hn h3
  · rw [hent]
    exact ((State.enumTable_idle w s).ent _).2

/-- What the manager shows once it has numbered the devices of a walk. -/
structure State.enumerated (w : WalkRec) (s t : State) : Prop where
  done : t.fld Reg.TOPO_STATUS F.TOPO_STATUS_ENUM_DONE = 1
  num : t.num = 0
  numValid : t.numValid = true
  walk : t.topo.walk = some w
  settled : t.topo.settled = s.topo.settled
  man : (t.ent 0).serial = s.id.serial
  devs : ∀ (k : Nat) (d : DevRec × Nat × Nat × Nat), (Machine.numbering w)[k]? = some d →
    (t.ent (k + 1)).valid = true ∧ (t.ent (k + 1)).serial = d.1.serial.toNat

section
variable {w : WalkRec} {s : State} (hst : s.still) (hm : s.isManager = true) (hser : ∀ d ∈ walkDevices w, d.serial.toNat ≠ s.id.serial)
include hst hm hser

theorem State.enumerate_seen : (s.enumTable w).only [.mgr, .ports, .sent, .counts, .regs, .notices] [Reg.NDL_PATH_STATUS, Reg.TOPO_STATUS, Reg.NDL_STATUS] (s.enumerate w) := by
  rw [State.enumerate_eq]
  exact ((State.enumTable_numbering hst hm hser).only.mono).step (State.tableSeen_only _)

theorem State.enumerate_only :
    s.only [.topo, .mgr, .regs, .ports, .sent, .counts, .notices] enumRegs (s.enumerate w) :=
  ((State.enumTable_only w s).mono (bs := enumRegs) (hp := by decide) (ha := fun _ h => h)).step (State.enumerate_seen hst hm hser) (ha := by decide)

theorem State.enumerate_numbers : (s.enumerate w).onlyNumbers := by
  rw [State.enumerate_eq]
  exact (State.enumTable_numbering hst hm hser).numbers.of_only (State.tableSeen_only _)

theorem State.enumerate_ingress : (s.enumerate w).mgr.ingress = s.mgr.ingress := by
  rw [State.enumerate_eq, (State.tableSeen_only _).mgr', (State.enumTable_numbering hst hm hser).ingress, (State.enumTable_only w s).mgr']

theorem State.enumerate_enumerated : s.enumerated w (s.enumerate w) := by
  have ho := State.enumerate_seen hst hm hser
  have hreg : (s.enumerate w).reg Reg.IDENT_DEVNUM = 0x40 := (ho.reg _ (by decide)).trans (State.enumTable_devnum w s)
  have hent (n : Nat) : ((s.enumStart w).ent n).lasting ((s.enumerate w).ent n) := by
    have e : (s.enumerate w).ent n = (s.enumTable w).ent n := by rw [State.ent, ho.topo', State.ent]
    rw [e, State.enumTable_ent]
    exact (State.enumStart_surveyed w s).ent n
  have hstart := State.enumStart_replanned w s
  have htopo : (s.enumerate w).topo = ((s.enumStart w).tableEnts w ((s.enumStart w).survey w)).topo := ho.topo'.trans (State.enumTable_regs w s).topo'
  refine ⟨?_, ?_, ?_, ?_, ?_, ?_, fun k d hd => ?_⟩
  · rw [State.enumerate_eq, State.tableSeen, (State.noticeFor_only ..).fld _ _ (by decide), State.fld_seqUp (by decide),
      (State.enumTable_numbering hst hm hser).only.fld _ _ (by decide)]
    exact State.fld_cond _ _ (by decide) _ _
  · rw [State.num, State.fld, hreg]
    decide
  · rw [State.numValid, State.fld, hreg]
    decide
  · rw [htopo, (State.enumStart_surveyed w s).walk, hstart.walk]
  · rw [htopo, (State.enumStart_surveyed w s).settled, hstart.settled]
  · rw [(hent 0).serial, walkEnts_man hstart.ents, manEnt_serial]
  · rw [(hent _).valid, (hent _).serial, walkEnts_ent hstart.ents hd]
    exact ⟨devEnt_valid d, rfl⟩

end

theorem State.completes.imp {s : State} {c : Instr} {ps : List Part} {as : List Nat} {P Q : State → Prop} (h : s.completes c ps as P)
    (hPQ : ∀ t, P t → Q t) : s.completes c ps as Q := by
  obtain ⟨t, he, hP, ho⟩ := h
  exact ⟨t, he, hPQ t hP, ho⟩

theorem State.enumerated.carry {w : WalkRec} {s t u : State} (h : s.enumerated w t) : s.enumerated w (u.carry t) :=
  ⟨(State.carry_fld ..).trans h.done, (State.carry_fld ..).trans h.num, by rw [State.numValid, State.carry_fld]; exact h.numValid,
    by rw [State.carry_topo]; exact h.walk, by rw [State.carry_topo]; exact h.settled, by rw [State.carry_ent]; exact h.man,
    fun k d hd => by rw [State.carry_ent]; exact h.devs k d hd⟩

section
variable {s : State} (h1 : s.walks = true) (h2 : s.enumDone = false) (hst : s.still)
include h1 h2 hst

theorem State.completes_walk_early (w : WalkRec) (hse : s.topo.settled = false) :
    s.completes (.enumerationWalk w) [.topo] [] (fun t => t.topo = { s.topo with walk := some w }) := by
  have hf : s.enumWalk w = { s with topo.walk := some w } := by
    rw [State.enumWalk, if_neg (by simp [h1, h2]), if_neg (by simp [hse])]
  have ho : s.only [.topo] [] ({ s with topo.walk := some w } : State) := here.topo _
  refine State.completes_always (f := State.enumWalk w) rfl (by rw [hf]; exact ho.still hst) (by rw [hf]; exact ho) ?_
  rw [hf, State.carry_topo]

theorem State.completes_settle_early (hw : s.topo.walk = none) :
    s.completes .enumSettleExpiry [.topo] [] (fun t => t.topo = { s.topo with settled := true }) := by
  simp only [State.walks, Bool.and_eq_true] at h1
  have hf : s.enumSettle = { s with topo.settled := true } := by
    rw [State.enumSettle, if_neg (by simp [h1.1.1, h1.1.2, h2])]
    simp only [hw]
  have ho : s.only [.topo] [] ({ s with topo.settled := true } : State) := here.topo _
  refine State.completes_always (f := State.enumSettle) rfl (by rw [hf]; exact ho.still hst) (by rw [hf]; exact ho) ?_
  rw [hf, State.carry_topo]

omit h2 in
/-- A command that numbers the devices from a state that differs in the topology alone. -/
theorem State.completes_enumerate {u : State} {w : WalkRec} {c : Instr} {f : State → State} (hc : exec c s = always f s) (hf : f s = u.enumerate w)
    (hu : s.only [.topo] [] u) (hser : ∀ d ∈ walkDevices w, d.serial.toNat ≠ s.id.serial) :
    s.completes c [.topo, .mgr, .regs, .ports, .sent, .counts, .notices] enumRegs (fun t => u.enumerated w t) := by
  have hm : s.isManager = true := by
    simp only [State.walks, Bool.and_eq_true] at h1
    exact h1.1.1
  have hust := hu.still hst
  have hum := hu.isManager.trans hm
  have huser : ∀ d ∈ walkDevices w, d.serial.toNat ≠ u.id.serial := by rw [hu.id']; exact hser
  refine State.completes_numbers hc hst ?_ ?_ ?_ (hin := ?_) <;> rw [hf]
  · exact (hu.mono (bs := enumRegs) (ha := by decide)).trans (State.enumerate_only hust hum huser)
  · exact State.enumerate_numbers hust hum huser
  · exact (State.enumerate_enumerated hust hum huser).carry
  · rw [State.enumerate_ingress hust hum huser, hu.mgr']

end

/-- Settles O9: before ENUM_SETTLE a walk is kept; after it the new table is the walk's, in the order of R19, and what is left outstanding are
the writes of the devices' numbers. -/
theorem enumeration : Obligations.Enumeration := by
  unfold Obligations.Enumeration
  intro s h1 h2 hst
  refine ⟨State.completes_walk_early h1 h2 hst, State.completes_settle_early h1 h2 hst, fun w hse hser => ?_, fun w hw hser => ?_⟩
  · refine (State.completes_enumerate h1 hst (f := State.enumWalk w) rfl ?_ here hser).imp fun t h =>
      ⟨h.done, h.num, h.numValid, h.walk, h.man, h.devs⟩
    rw [State.enumWalk, if_neg (by simp [h1, h2]), if_pos hse]
  · refine (State.completes_enumerate h1 hst (u := { s with topo.settled := true }) (f := State.enumSettle) rfl ?_ (here.topo _) hser).imp fun t h =>
      ⟨h.done, h.num, h.numValid, h.settled, h.man, h.devs⟩
    have h3 := h1
    simp only [State.walks, Bool.and_eq_true] at h3
    have h4 : ({ s with topo.settled := true } : State).walks = true := h1
    rw [State.enumSettle, if_neg (by simp [h3.1.1, h3.1.2, h2])]
    dsimp only
    split
    next x hx =>
      cases hw.symm.trans hx
      exact if_pos h4
    next hx => cases hw.symm.trans hx

end Sys2Proof.Machine
end

section
/-! PROOFS. Refresh, self-refresh and the rewriting of dropped segments (R299 to R306, R310). -/

set_option Elab.async false

namespace Sys2Proof.Machine
open Sys2Proof
open State.only (here)

/-! ### Refresh slots (R300, R302) -/

theorem le_freeCycle (l : List Nat) : ∀ n t : Nat, t ≤ freeCycle l n t
  | 0, t => Nat.le_refl t
  | n + 1, t => by
    unfold freeCycle
    split
    · exact Nat.le_trans (Nat.le_succ t) (le_freeCycle l n (t + 1))
    · exact Nat.le_refl t

theorem PcS.le_rowCycle (x : PcS) (t : Nat) : t ≤ x.rowCycle t := le_freeCycle ..

/-- A bank after a refresh operation of `dur` ns that starts at `at_`, its queue aside. -/
structure BankS.refreshed (b c : BankS) (at_ dur : Nat) : Prop where
  row : c.row = none
  debt : c.debt = b.debt
  actOk : c.actOk = at_ + dur
  refTill : c.refTill = at_ + dur

theorem State.refWait_bank (k pos : Nat) (s : State) : ∃ q, (s.refWait k pos).bank k pos = { s.bank k pos with queue := q } :=
  ⟨_, State.bank_modBank ..⟩

theorem State.bank_modPc_same {k pos : Nat} {f : PcS → PcS} (hf : ∀ x : PcS, (f x).banks = x.banks) (s : State) : (s.modPc k f).bank k pos = s.bank k pos := by
  rw [State.bank, State.pc_modPc, PcS.bank, hf]
  rfl

theorem State.refOp_bank (k pos dur from_ : Nat) (s : State) : ∃ a, from_ ≤ a ∧ (s.bank k pos).refreshed ((s.refOp k pos dur from_).bank k pos) a dur := by
  let b := s.bank k pos
  let pre := (s.pc k).rowCycle (max from_ b.preOk)
  let u := if b.row.isSome then s.modPc k (PcS.rowTake s.now pre) else s
  let start := (u.pc k).rowCycle (max b.actOk (if b.row.isSome then pre + Config.tRP else from_))
  let v := u.modPc k (fun x => (x.rowTake u.now start).actTake start (pos % 12))
  have hu : u.bank k pos = b := by
    show (if b.row.isSome then s.modPc k (PcS.rowTake s.now pre) else s).bank k pos = b
    split
    · exact State.bank_modPc_same (f := PcS.rowTake s.now pre) (fun _ => rfl) s
    · rfl
  have hv : v.bank k pos = b := (State.bank_modPc_same (f := fun x => (x.rowTake u.now start).actTake start (pos % 12)) (fun _ => rfl) u).trans hu
  have hpre : from_ ≤ pre := Nat.le_trans (Nat.le_max_left ..) (PcS.le_rowCycle ..)
  have hstart : from_ ≤ start := by
    refine Nat.le_trans ?_ (PcS.le_rowCycle ..)
    refine Nat.le_trans ?_ (Nat.le_max_right ..)
    split
    · exact Nat.le_trans hpre (Nat.le_add_right ..)
    · exact Nat.le_refl _
  obtain ⟨q, hq⟩ := State.refWait_bank k pos (v.modBank k pos (fun b => { b with row := none, actOk := start + dur, refTill := start + dur }))
  refine ⟨start, hstart, ?_⟩
  have e : (s.refOp k pos dur from_).bank k pos = _ := hq
  rw [e, State.bank_modBank, hv]
  exact ⟨rfl, rfl, rfl, rfl⟩

theorem State.doRefresh_bank (k pos debt from_ : Nat) (s : State) : ∃ a, from_ ≤ a ∧ ({ s.bank k pos with debt := debt } : BankS).refreshed ((s.doRefresh k pos debt from_).bank k pos) a Config.tRFCpb := by
  obtain ⟨a, ha, h⟩ := State.refOp_bank k pos Config.tRFCpb from_ (s.didIssue k (.ref pos))
  have hb : (s.didIssue k (.ref pos)).bank k pos = s.bank k pos := by
    unfold State.didIssue
    refine State.bank_modPc_same ?_ s
    exact fun _ => rfl
  rw [hb] at h
  unfold State.doRefresh
  generalize (s.didIssue k (.ref pos)).refOp k pos Config.tRFCpb from_ = u at h ⊢
  have e : ((u.modBank k pos (fun b => { b with debt := debt, paying := b.paying && debt != 0 })).bump (chSlot (k / 2) 1) 1).bank k pos =
    { u.bank k pos with debt := debt, paying := (u.bank k pos).paying && debt != 0 } := State.bank_modBank ..
  rw [e]
  exact ⟨a, ha, h.row, rfl, h.actOk, h.refTill⟩

theorem State.refWait_only (k pos : Nat) (s : State) : s.only [.pcs, .chans, .tiers] [] (s.refWait k pos) :=
  ((here.modBank ..).modChan ..).modTier ..

theorem State.refOp_only (k pos dur from_ : Nat) (s : State) : s.only [.pcs, .chans, .tiers] [] (s.refOp k pos dur from_) := by
  unfold State.refOp
  dsimp only
  refine State.only.step (State.only.modBank _ _ _ (State.only.modPc _ _ ?_)) (State.refWait_only ..)
  split
  · exact here.modPc ..
  · exact here

theorem State.doRefresh_only (k pos debt from_ : Nat) (s : State) : s.only [.pcs, .chans, .tiers, .counts] [] (s.doRefresh k pos debt from_) := by
  unfold State.doRefresh State.didIssue
  exact ((State.only.trans (here.modPc ..) ((State.refOp_only ..).mono)).modBank ..).bump ..

section
variable {s : State} (hu : s.up) {k : Fin 64} {pos : Fin 48} (h1 : (s.chan (k.val / 2)).pstate ≠ .selfRefresh) (h2 : (s.chan (k.val / 2)).pstate ≠ .retired)
  (h3 : (s.chan (k.val / 2)).retired = false) (h4 : (s.tier (k.val / 16)).hbLost = false)
include hu h1 h2 h3 h4

/-- The channel with its multiplier raised as its temperature calls for. -/
def State.multRaised (n : Nat) (s : State) : State := (s.modChan n (fun c => { c with mult := max c.mult (s.multFor n) })).chFlags n

omit hu h1 h2 h3 h4 in
theorem State.multRaised_only (n : Nat) (s : State) : s.only [.chans, .regs] [Reg.CH_STATUS n] (s.multRaised n) :=
  (here.modChan ..).step (State.chFlags_only ..)

omit hu h1 h2 h3 h4 in
theorem State.multRaised_chan (n : Nat) (s : State) : (s.multRaised n).chan n = { s.chan n with mult := max (s.chan n).mult (s.multFor n) } :=
  ((State.chFlags_only ..).chan n).trans (State.chan_modChan ..)

omit hu h1 h2 h3 h4 in
theorem State.multRaised_waited (k pos : Nat) (s : State) : (s.multRaised (k / 2)).waitedAt k pos = s.waitedAt k pos := by
  have ho := State.multRaised_only (k / 2) s
  simp only [State.waitedAt, State.bank, ho.pc, State.multRaised_chan, ho.tier]

omit hu h1 h2 h3 h4 in
theorem State.multRaised_silent (n : Nat) (s : State) : (s.multRaised n).silent n = s.silent n := by
  simp only [State.silent, State.multRaised_chan, (State.multRaised_only n s).now']

omit hu h1 h2 h3 h4 in
theorem State.multRaised_bank (n k pos : Nat) (s : State) : (s.multRaised n).bank k pos = s.bank k pos :=
  congrArg (PcS.bank · pos) ((State.multRaised_only n s).pc k)

/-- A refresh slot of a channel that is neither retired nor in self-refresh. -/
theorem State.refreshDue_eq : s.refreshDue k.val pos.val =
    let u := s.multRaised (k.val / 2)
    if (u.waitedAt k.val pos.val || u.silent (k.val / 2)) && decide ((u.bank k.val pos.val).debt < Config.REF_DEBT_MAX) then u.postpone k.val pos.val
    else if (s.chan (k.val / 2)).switchAt.isSome then u
    else (if u.waitedAt k.val pos.val then (u.bump (chSlot (k.val / 2) 38) 1).exclude 0 else u).doRefresh k.val pos.val (u.bank k.val pos.val).debt
      ((if u.waitedAt k.val pos.val then (u.bump (chSlot (k.val / 2) 38) 1).exclude 0 else u).refreshFrom (k.val / 2)) := by
  have htier : k.val / 2 / 8 = k.val / 16 := by omega
  unfold State.refreshDue State.multRaised
  dsimp only
  rw [if_neg (by simp [h1, h2, h3, htier, h4, hu.awake])]

theorem State.completes_refresh (hw : s.waitedAt k.val pos.val = false) (hs : s.silent (k.val / 2) = false) :
    s.completes (.refreshDue k pos) [.pcs, .chans, .tiers, .counts, .regs] [Reg.CH_STATUS (k.val / 2)]
      (fun t => (t.bank k.val pos.val).row = none ∧ (t.bank k.val pos.val).debt = (s.bank k.val pos.val).debt ∧
        s.now + Config.tRFCpb ≤ (t.bank k.val pos.val).actOk ∧ (t.bank k.val pos.val).refTill = (t.bank k.val pos.val).actOk) := by
  let u := s.multRaised (k.val / 2)
  have hsw : (s.chan (k.val / 2)).switchAt.isSome = false := by
    simp only [State.silent, Bool.or_eq_false_iff] at hs
    exact hs.2
  have hf : s.refreshDue k.val pos.val = u.doRefresh k.val pos.val (u.bank k.val pos.val).debt (u.refreshFrom (k.val / 2)) := by
    have e1 : u.waitedAt k.val pos.val = false := (State.multRaised_waited ..).trans hw
    have e2 : u.silent (k.val / 2) = false := (State.multRaised_silent ..).trans hs
    rw [State.refreshDue_eq hu h1 h2 h3 h4]
    dsimp only
    rw [e1, e2, if_neg (by simp), hsw, if_neg (by simp), if_neg (by simp)]
  have ho : s.only [.chans, .regs] [Reg.CH_STATUS (k.val / 2)] u := State.multRaised_only ..
  obtain ⟨a, ha, hb⟩ := State.doRefresh_bank k.val pos.val (u.bank k.val pos.val).debt (u.refreshFrom (k.val / 2)) u
  have hnow : s.now ≤ u.refreshFrom (k.val / 2) := by
    unfold State.refreshFrom
    rw [ho.now']
    exact Nat.le_trans (Nat.le_max_left ..) (Nat.le_max_left ..)
  refine State.completes_run (f := State.refreshDue k.val pos.val) rfl ?_ ?_
  · rw [hf]
    exact ho.mono.trans ((State.doRefresh_only ..).mono)
  · rw [hf, State.carry_bank]
    refine ⟨hb.row, hb.debt.trans (congrArg BankS.debt (State.multRaised_bank ..)), ?_, hb.refTill.trans hb.actOk.symm⟩
    rw [hb.actOk]
    omega

theorem State.completes_postpone (hws : (s.waitedAt k.val pos.val || s.silent (k.val / 2)) = true) (hd : (s.bank k.val pos.val).debt + 1 < Config.REF_DEBT_MAX) :
    s.completes (.refreshDue k pos) [.pcs, .chans, .counts, .regs] [Reg.CH_STATUS (k.val / 2)]
      (fun t => (t.bank k.val pos.val).debt = (s.bank k.val pos.val).debt + 1 ∧ (t.bank k.val pos.val).row = (s.bank k.val pos.val).row) := by
  let u := s.multRaised (k.val / 2)
  have hbank : u.bank k.val pos.val = s.bank k.val pos.val := State.multRaised_bank ..
  have hf : s.refreshDue k.val pos.val = (u.modBank k.val pos.val (fun b => { b with debt := b.debt + 1, paying := b.paying || false })).bump (chSlot (k.val / 2) 2) 1 := by
    have e1 : u.waitedAt k.val pos.val = s.waitedAt k.val pos.val := State.multRaised_waited ..
    have e2 : u.silent (k.val / 2) = s.silent (k.val / 2) := State.multRaised_silent ..
    have hfull : decide (Config.REF_DEBT_MAX ≤ (u.bank k.val pos.val).debt + 1) = false := by
      rw [hbank]
      exact decide_eq_false (by omega)
    rw [State.refreshDue_eq hu h1 h2 h3 h4]
    dsimp only
    rw [e1, e2, hws, hbank, if_pos (by simp; omega), State.postpone]
    rw [hfull]
    rfl
  have ho : s.only [.chans, .regs] [Reg.CH_STATUS (k.val / 2)] u := State.multRaised_only ..
  refine State.completes_run (f := State.refreshDue k.val pos.val) rfl ?_ ?_
  · rw [hf]
    exact ((ho.mono (qs := [.pcs, .chans, .counts, .regs])).modBank ..).bump ..
  · rw [hf, State.carry_bank]
    have e := State.bank_modBank k.val pos.val (fun b => { b with debt := b.debt + 1, paying := b.paying || false }) u
    exact ⟨(congrArg BankS.debt e).trans (congrArg (BankS.debt · + 1) hbank), (congrArg BankS.row e).trans (hbank ▸ rfl)⟩

end

theorem State.completes_rateFall {s : State} (hu : s.up) {n : Fin 32} (hc : (s.chan n.val).coolAt.isSome = true) (hm : 1 < (s.chan n.val).mult) :
    s.completes (.refreshRateFall n) [.chans, .regs] [Reg.CH_STATUS n.val]
      (fun t => (t.chan n.val).mult = (s.chan n.val).mult / 2 ∧ ∀ m : Nat, m ≠ n.val → t.chan m = s.chan m) := by
  let g (c : ChanS) : ChanS := { c with mult := c.mult / 2, coolAt := if c.mult / 2 = 2 ∧ c.temp ≤ 820 then some s.now else none }
  have hf : whenAwake (State.refreshFall n.val) s = (s.modChan n.val g).chFlags n.val := by
    rw [whenAwake_true _ _ hu.awake, State.refreshFall]
    dsimp only
    rw [if_pos ⟨hc, hm⟩]
  refine State.completes_run (f := whenAwake (State.refreshFall n.val)) rfl ?_ ?_
  · rw [hf]
    exact (here.modChan ..).step (State.chFlags_only ..)
  · rw [hf]
    refine ⟨?_, fun m h => ?_⟩
    · rw [State.carry_chan, (State.chFlags_only ..).chan, State.chan_modChan]
    · rw [State.carry_chan, (State.chFlags_only ..).chan, State.chan_modChan_ne h]

/-! ### Self-refresh (R304 to R306) -/

theorem State.closeRows_row {n k : Nat} (h : k / 2 = n) (i : Nat) (s : State) : ((s.closeRows n).bank k i).row = none := by
  have closed (x : PcS) (now : Nat) : (({ x with banks := AMap.mapVal (fun b => { b with actOk := max b.actOk (b.closed now), row := none }) x.banks } : PcS).bank i).row = none := by
    refine AMap.get_all (P := fun b : BankS => b.row = none) rfl (fun e he => ?_) i
    obtain ⟨e', -, rfl⟩ := List.mem_map.1 he
    rfl
  unfold State.closeRows
  dsimp only
  by_cases e : k = 2 * n
  · rw [e, State.bank, State.pc_modPc]
    exact closed ..
  · have e' : k = 2 * n + 1 := by omega
    rw [e', State.bank, State.pc_modPc_ne (by omega), State.pc_modPc]
    exact closed ..

section
variable {s : State} (hu : s.up) {n : Fin 32}
include hu

theorem State.completes_srEntry (hp : (s.chan n.val).pstate = .active) (hr : (s.chan n.val).retired = false) (hready : s.srReady n.val = true)
    (hidle : (s.chan n.val).idleAt + s.idleSr (n.val / 8) ≤ s.now) (hq : (s.chan n.val).quietTill ≤ s.now) :
    s.completes (.selfRefreshEntry n) [.chans, .pcs, .regs] [Reg.CH_STATUS n.val]
      (fun t => (t.chan n.val).pstate = .entering ∧ (t.chan n.val).srAt = s.srWhen n.val ∧
        (∀ k i : Nat, k / 2 = n.val → (t.bank k i).row = none) ∧ ∀ m : Nat, m ≠ n.val → t.chan m = s.chan m) := by
  let u := (s.closeRows n.val).modChan n.val (fun c => { c with pstate := .entering, srAt := s.srWhen n.val })
  have hf : s.srEntry n.val = u.chFlags n.val := by
    unfold State.srEntry State.enterSr
    dsimp only
    rw [if_pos (by simp [hp, hu.awake, hready, hidle, hq]), if_neg (by simp [hr, hp])]
  have hflags : u.only [.regs] [Reg.CH_STATUS n.val] (u.chFlags n.val) := State.chFlags_only ..
  refine State.completes_run (f := State.srEntry n.val) rfl ?_ ?_
  · rw [hf]
    exact State.only.step (State.only.modChan _ _ ((State.closeRows_only n.val s).mono)) hflags
  · have hc : u.chan n.val = { s.chan n.val with pstate := .entering, srAt := s.srWhen n.val } := State.chan_modChan ..
    rw [hf]
    refine ⟨?_, ?_, fun k i h => ?_, fun m h => ?_⟩
    · rw [State.carry_chan, hflags.chan, hc]
    · rw [State.carry_chan, hflags.chan, hc]
    · rw [State.carry_bank, State.bank, hflags.pc]
      exact State.closeRows_row h i s
    · rw [State.carry_chan, hflags.chan]
      exact State.chan_modChan_ne h ..

theorem State.completes_srExit (hp : (s.chan n.val).pstate = .selfRefresh) (hat : (s.chan n.val).srAt + Config.tSR_MIN ≤ s.now)
    (hb : (s.tier (n.val / 8)).hbLost = false) :
    s.completes (.selfRefreshExit n) [.chans, .counts, .regs] [Reg.CH_STATUS n.val]
      (fun t => (t.chan n.val).pstate = .exiting ∧ (t.chan n.val).exitAt = s.now ∧ ∀ m : Nat, m ≠ n.val → t.chan m = s.chan m) := by
  let u := (s.tallyChan n.val).modChan n.val (fun c => { c with pstate := .exiting, exitAt := s.now, wantExit := false })
  have hx : s.startSrExit n.val = u.chFlags n.val := if_pos hp
  have hf : s.srExit n.val = s.startSrExit n.val := by
    unfold State.srExit
    dsimp only
    rw [if_pos (by simp [hu.awake, hu.2.1, hat, hb])]
  have hflags : u.only [.regs] [Reg.CH_STATUS n.val] (u.chFlags n.val) := State.chFlags_only ..
  refine State.completes_run (f := State.srExit n.val) rfl (by rw [hf]; exact State.startSrExit_only ..) ?_
  have hc : u.chan n.val = { (s.tallyChan n.val).chan n.val with pstate := .exiting, exitAt := s.now, wantExit := false } := State.chan_modChan ..
  rw [hf, hx]
  refine ⟨?_, ?_, fun m h => ?_⟩
  · rw [State.carry_chan, hflags.chan, hc]
  · rw [State.carry_chan, hflags.chan, hc]
  · rw [State.carry_chan, hflags.chan]
    exact (State.chan_modChan_ne h ..).trans (State.tallyChan_chan_ne h s)

end

/-! ### The exit from self-refresh ends (R305, R320) -/

/-- The pins of a pseudo-channel are measured again. -/
def State.remeasure (o : TrainObs) (k : Nat) (s : State) : State := s.retune k (s.remeasured k o)

theorem State.trainPc_only (k ca : Nat) (pins : AMap (Word × Word)) (s : State) :
    s.only [.chans, .regs, .counts] [Reg.CH_STATUS (k / 2)] (s.trainPc k ca pins) := by
  unfold State.trainPc
  dsimp only
  split
  · exact ((here.modChan ..).raise ..).bump ..
  · exact here.modChan ..

theorem State.trainPc_chan (k ca m : Nat) (pins : AMap (Word × Word)) (s : State) : (s.trainPc k ca pins).chan m =
    (s.modChan (k / 2) (fun c => { c with train := c.train.set (k % 2) { word := trainWord ca pins, pins := pins } })).chan m := by
  unfold State.trainPc
  dsimp only
  split
  · exact State.only.chan (ps := [.regs, .counts]) (as := [Reg.CH_STATUS (k / 2)]) ((here.raise ..).bump ..) m
  · rfl

section
variable (o : TrainObs) (k : Nat) (s : State)

theorem State.remeasure_only : s.only [.chans, .regs, .counts] [Reg.CH_STATUS (k / 2)] (s.remeasure o k) := State.trainPc_only ..

theorem State.remeasure_chan : ∃ w, (s.remeasure o k).chan (k / 2) =
    { s.chan (k / 2) with train := (s.chan (k / 2)).train.set (k % 2) { word := w, pins := s.remeasured k o } } :=
  ⟨_, (State.trainPc_chan ..).trans (State.chan_modChan ..)⟩

theorem State.remeasure_chan_ne {m : Nat} (h : m ≠ k / 2) : (s.remeasure o k).chan m = s.chan m :=
  (State.trainPc_chan ..).trans (State.chan_modChan_ne h ..)

end

theorem State.remeasured_congr {s t : State} {k : Nat} (h : (t.chan (k / 2)).train.getD (k % 2) {} = (s.chan (k / 2)).train.getD (k % 2) {}) (o : TrainObs) :
    t.remeasured k o = s.remeasured k o := by
  rw [State.remeasured, h, State.remeasured]

/-- Both pseudo-channels of a channel are measured again: each by what it showed before. -/
theorem State.remeasure_both (o : TrainObs) (n : Nat) {s : State} (hl : (s.chan n).train.length = 2) :
    ∃ x : List TrainS, ((s.remeasure o (2 * n)).remeasure o (2 * n + 1)).chan n = { s.chan n with train := x } ∧ ∀ h < 2, (x.getD h {}).pins = s.remeasured (2 * n + h) o := by
  have d0 : 2 * n / 2 = n := by omega
  have m0 : 2 * n % 2 = 0 := by omega
  have d1 : (2 * n + 1) / 2 = n := by omega
  have m1 : (2 * n + 1) % 2 = 1 := by omega
  obtain ⟨a, ha⟩ := State.remeasure_chan o (2 * n) s
  obtain ⟨b, hb⟩ := State.remeasure_chan o (2 * n + 1) (s.remeasure o (2 * n))
  rw [d0, m0] at ha
  rw [d1, m1, ha] at hb
  refine ⟨_, hb, fun h hh => ?_⟩
  have e : (s.remeasure o (2 * n)).remeasured (2 * n + 1) o = s.remeasured (2 * n + 1) o :=
    State.remeasured_congr (by rw [d1, m1, ha]; simp [List.getD]) o
  rcases Nat.lt_succ_iff_lt_or_eq.1 hh with h0 | rfl
  · obtain rfl : h = 0 := by omega
    simp [List.getD, hl]
  · simp [List.getD, hl, e]

section
variable {s : State} (hu : s.up) (hst : s.still) {n : Fin 32} {obs : TrainObs} (hp : (s.chan n.val).pstate = .exiting)
  (hat : (s.chan n.val).exitAt + Config.tXS ≤ s.now)
include hu hst hp hat

/-- The channel is active again. -/
def State.exitEnded (n : Nat) (s : State) : State := (s.modChan n (fun c => { c with pstate := .active, remeasure := false })).chFlags n

omit hu hst hp hat in
theorem State.exitEnded_only (n : Nat) (s : State) : s.only [.chans, .regs] [Reg.CH_STATUS n] (s.exitEnded n) :=
  (here.modChan ..).step (State.chFlags_only ..)

omit hu hst hp hat in
theorem State.exitEnded_chan (n : Nat) (s : State) : (s.exitEnded n).chan n = { s.chan n with pstate := .active, remeasure := false } :=
  ((State.chFlags_only ..).chan n).trans (State.chan_modChan ..)

omit hu hst hp hat in
theorem State.exitEnded_chan_ne {n m : Nat} (h : m ≠ n) (s : State) : (s.exitEnded n).chan m = s.chan m :=
  ((State.chFlags_only ..).chan m).trans (State.chan_modChan_ne h ..)

theorem State.completes_exitDone (hr : (s.chan n.val).remeasure = false) :
    s.completes (.selfRefreshExitDone ⟨n, obs⟩) [.chans, .regs] [Reg.CH_STATUS n.val]
      (fun t => (t.chan n.val).pstate = .active ∧ ∀ m : Nat, m ≠ n.val → t.chan m = s.chan m) := by
  have hf : whenAwake (State.srExitDone n.val obs) s = s.exitEnded n.val := by
    rw [whenAwake_true _ _ hu.awake, State.srExitDone, if_pos ⟨hp, hat⟩]
    dsimp only
    rw [hr]
    rfl
  have ho := State.exitEnded_only n.val s
  refine State.completes_always (f := whenAwake (State.srExitDone n.val obs)) rfl (by rw [hf]; exact ho.still hst) (by rw [hf]; exact ho) ?_
  rw [hf]
  exact ⟨by rw [State.carry_chan, State.exitEnded_chan], fun m h => by rw [State.carry_chan, State.exitEnded_chan_ne h]⟩

theorem State.completes_exitDone_again (hr : (s.chan n.val).remeasure = true) (hl : (s.chan n.val).train.length = 2) (hfail : failingOn obs (n.val / 8) = [])
    (hun : s.unnamed [2 * n.val, 2 * n.val + 1] obs = []) :
    s.completes (.selfRefreshExitDone ⟨n, obs⟩) [.chans, .regs, .counts] [Reg.CH_STATUS n.val]
      (fun t => (t.chan n.val).pstate = .active ∧ (t.chan n.val).remeasure = false ∧
        (∀ h < 2, ((t.chan n.val).train.getD h {}).pins = s.remeasured (2 * n.val + h) obs) ∧ ∀ m : Nat, m ≠ n.val → t.chan m = s.chan m) := by
  have d0 : 2 * n.val / 2 = n.val := by omega
  have d1 : (2 * n.val + 1) / 2 = n.val := by omega
  let u := s.exitEnded n.val
  let v := (u.remeasure obs (2 * n.val)).remeasure obs (2 * n.val + 1)
  have hchan : u.chan n.val = { s.chan n.val with pstate := .active, remeasure := false } := State.exitEnded_chan ..
  obtain ⟨x, hx, hpins⟩ := State.remeasure_both obs n.val (s := u) (by rw [hchan]; exact hl)
  have hvn (m : Nat) (h : m ≠ n.val) : v.chan m = s.chan m :=
    ((State.remeasure_chan_ne _ _ _ (by rw [d1]; exact h)).trans (State.remeasure_chan_ne _ _ _ (by rw [d0]; exact h))).trans (State.exitEnded_chan_ne h s)
  have hret (k : Nat) : (v.chan k).retired = (s.chan k).retired := by
    by_cases e : k = n.val
    · rw [e]
      refine (congrArg ChanS.retired hx).trans ?_
      show (u.chan n.val).retired = _
      rw [hchan]
    · rw [hvn k e]
  have hun' : v.unnamed [2 * n.val, 2 * n.val + 1] obs = [] := by
    refine Eq.trans ?_ hun
    simp only [State.unnamed, hret]
  have hf : whenAwake (State.srExitDone n.val obs) s = v := by
    rw [whenAwake_true _ _ hu.awake, State.srExitDone, if_pos ⟨hp, hat⟩]
    dsimp only
    rw [hr, if_pos rfl, hfail]
    exact (congrArg (fun l => forEach ([] ++ l) State.failElement v) hun').trans rfl
  have ho : s.only [.chans, .regs, .counts] [Reg.CH_STATUS n.val] v := by
    have h0 := State.remeasure_only obs (2 * n.val) u
    have h1 := State.remeasure_only obs (2 * n.val + 1) (u.remeasure obs (2 * n.val))
    rw [d0] at h0
    rw [d1] at h1
    exact ((State.exitEnded_only n.val s).mono.trans h0).trans h1
  refine State.completes_always (f := whenAwake (State.srExitDone n.val obs)) rfl (by rw [hf]; exact ho.still hst) (by rw [hf]; exact ho) ?_
  rw [hf]
  refine ⟨?_, ?_, fun h hh => ?_, fun m h => hvn m h⟩
  · rw [State.carry_chan, hx]
    exact congrArg ChanS.pstate hchan
  · rw [State.carry_chan, hx]
    exact congrArg ChanS.remeasure hchan
  · rw [State.carry_chan, hx]
    refine (hpins h hh).trans (State.remeasured_congr ?_ obs)
    have d : (2 * n.val + h) / 2 = n.val := by omega
    rw [d, hchan]

end

/-! ### The rewriting of dropped segments ends (R310, R148) -/

theorem AMap.find_filter_none {β : Type} {q : Nat × β → Bool} {k : Nat} (m : AMap β) (h : ∀ v, q (k, v) = false) : AMap.find k (m.filter q) = none := by
  induction m with
  | nil => rfl
  | cons e r ih =>
    obtain ⟨j, v⟩ := e
    by_cases hq : q (j, v) = true
    · rw [List.filter_cons_of_pos hq, AMap.find, if_neg ?_]
      · exact ih
      · rintro rfl
        rw [h v] at hq
        cases hq
    · rw [List.filter_cons_of_neg hq]
      exact ih

section
variable {f : FillSel} {q : Place} (hq : Place.ofIx q.ix = q) (hc : f.covers q = true) (s : State)
include hq hc

theorem State.lineMd_fill (hf : f ≠ .all) (w : Nat) : (s.fill f w).lineMd q = w := by
  unfold State.lineMd State.fill
  dsimp only
  rw [if_neg hf, AMap.get, AMap.find_filter_none _ (by simp [hq, hc])]
  simp [fillWord, hc]

theorem State.lineData_fill (w : Nat) : (s.fill f w).lineData q = zeros 128 := by
  have hk (k : Nat) (h : k < 128) : AMap.get (q.ix * 128 + k) 0 (s.fill f w).mem.dram = 0 := by
    have hd : (q.ix * 128 + k) / 128 = q.ix := by omega
    have hn := AMap.find_filter_none (q := fun c : Nat × Byte => !f.covers (Place.ofIx (c.1 / 128))) (k := q.ix * 128 + k) s.mem.dram (by simp [hd, hq, hc])
    unfold State.fill
    dsimp only
    rw [AMap.get, hn]
    rfl
  refine List.ext_getElem (by simp [State.lineData, zeros]) fun i h1 h2 => ?_
  simp only [State.lineData, List.getElem_map, List.getElem_range, zeros, List.getElem_replicate]
  exact hk i (by simpa [State.lineData] using h1)

end

theorem State.fill_only (f : FillSel) (w : Nat) (s : State) : s.only [.mem] [] (s.fill f w) := here.mem _

theorem State.copyGo_none {s : State} (h : s.pool.jobs = []) : s.copyGo = s := by
  rw [State.copyGo, h]
  rfl

theorem State.retryWaits_none {s : State} (hw : s.own.waits = []) (hm : s.own.merges = []) (hp : s.own.parked = []) : s.retryWaits = s := by
  have h1 : s.unpark = s := by
    have e : ({ s with own.parked := [] } : State) = s := by rw [← hp]
    unfold State.unpark
    rw [hp]
    exact e
  have e : ({ s with own.waits := [] } : State) = s := by rw [← hw]
  unfold State.retryWaits
  rw [h1]
  dsimp only
  rw [hw, e, forEach_nil, hm]
  rfl

theorem State.completes_pasrDone {s : State} (hu : s.up) (hst : s.still) {n : Fin 32} {keep : Nat} (hk : (s.chan n.val).pasrInit = some keep)
    (hw : s.own.waits = []) (hm : s.own.merges = []) (hpk : s.own.parked = []) (hj : s.pool.jobs = []) :
    s.completes (.pasrInitDone n) [.mem, .chans, .regs] [Reg.CH_STATUS n.val]
      (fun t => (t.chan n.val).pasrInit = none ∧ t.fld (Reg.CH_STATUS n.val) F.CH_STATUS_PASR_INIT = 0 ∧
        ∀ q : Place, Place.ofIx q.ix = q → (FillSel.segments n.val keep (s.chan n.val).pasrMark 32767).covers q = true →
          t.lineMd q = 0 ∧ t.lineData q = zeros 128) := by
  let v := s.fill (.segments n.val keep (s.chan n.val).pasrMark 32767) 0
  let u := v.modChan n.val (fun c => { c with pasrInit := none, pasrMark := 0 })
  have hchan : u.chan n.val = { s.chan n.val with pasrInit := none, pasrMark := 0 } := State.chan_modChan ..
  have hflags : u.only [.regs] [Reg.CH_STATUS n.val] (u.chFlags n.val) := State.chFlags_only ..
  have hv : s.only [.mem] [] v := State.fill_only ..
  have ho : s.only [.mem, .chans, .regs] [Reg.CH_STATUS n.val] (u.chFlags n.val) := (State.only.modChan _ _ hv.mono).step hflags
  have hf : whenAwake (State.pasrDone n.val) s = u.chFlags n.val := by
    rw [whenAwake_true _ _ hu.awake, State.pasrDone, hk]
    show (u.chFlags n.val).copyGo.retryWaits = u.chFlags n.val
    rw [State.copyGo_none (by rw [ho.pool']; exact hj), State.retryWaits_none (by rw [ho.own']; exact hw) (by rw [ho.own']; exact hm) (by rw [ho.own']; exact hpk)]
  refine State.completes_always (f := whenAwake (State.pasrDone n.val)) rfl (by rw [hf]; exact ho.still hst) (by rw [hf]; exact ho) ?_
  rw [hf]
  refine ⟨?_, ?_, fun q hq hc => ⟨?_, ?_⟩⟩
  · rw [State.carry_chan, hflags.chan, hchan]
  · rw [State.carry_fld, State.chFlags, State.fld_cond _ _ (by decide), hchan]
    rfl
  · have e : (u.chFlags n.val).lineMd q = u.lineMd q := by rw [State.lineMd, hflags.mem', State.lineMd]
    exact e.trans (State.lineMd_fill hq hc s (by simp) 0)
  · have e : (u.chFlags n.val).lineData q = u.lineData q := by rw [State.lineData, hflags.mem', State.lineData]
    exact e.trans (State.lineData_fill hq hc s 0)

/-- Settles O40: refresh slots, the multiplier, self-refresh and the dropped segments, each by what it does to its bank or channel. -/
theorem refreshAndSelfRefresh : Obligations.RefreshAndSelfRefresh := by
  unfold Obligations.RefreshAndSelfRefresh
  intro s hu hst
  exact ⟨fun k pos h1 h2 h3 h4 => ⟨State.completes_refresh hu h1 h2 h3 h4, State.completes_postpone hu h1 h2 h3 h4⟩,
    fun n hc hm => State.completes_rateFall hu hc hm,
    fun n hp hr hready hidle hq => State.completes_srEntry hu hp hr hready hidle hq,
    fun n hp hat hb => State.completes_srExit hu hp hat hb,
    fun n obs hp hat => ⟨State.completes_exitDone hu hst hp hat, State.completes_exitDone_again hu hst hp hat⟩,
    fun n keep hk hw hm hp hj => State.completes_pasrDone hu hst hk hw hm hp hj⟩

end Sys2Proof.Machine
end

section
/-! PROOFS. The queues of a channel (R169, R293 to R295, R305): what an access that arrives changes, and where it waits. -/

set_option Elab.async false

namespace Sys2Proof.Machine
open Sys2Proof
open State.only (here)

/-! ### What levels and arrivals leave of a channel -/

/-- What of a channel its levels, its queue and its way out of self-refresh leave. -/
def ChanS.plain (c : ChanS) : ChanS :=
  { c with pstate := .active, exitAt := 0, wantExit := false, idleAt := 0, srFrom := 0, sat := false, satAt := 0, levels := [], admission := [] }

/-- Between two states channels have changed in what levels, queues and the way out of self-refresh are. -/
def State.chansPlain (s t : State) : Prop := ∀ m : Nat, (t.chan m).plain = (s.chan m).plain

/-- Between two states no admission queue has changed. -/
def State.admissionsKept (s t : State) : Prop := ∀ m : Nat, (t.chan m).admission = (s.chan m).admission

/-- Between two states nothing but levels and the way out of self-refresh has changed of the channels. -/
structure State.roused (s t : State) : Prop where
  plain : s.chansPlain t
  admissions : s.admissionsKept t

namespace State.roused

variable {s t u : State}

theorem refl (s : State) : s.roused s := ⟨fun _ => rfl, fun _ => rfl⟩

theorem trans (h : s.roused t) (g : t.roused u) : s.roused u :=
  ⟨fun m => (g.plain m).trans (h.plain m), fun m => (g.admissions m).trans (h.admissions m)⟩

theorem of_only {ps : List Part} {as : List Nat} (h : s.only ps as t) (hp : Part.chans ∉ ps := by decide) : s.roused t :=
  ⟨fun m => by rw [h.chan m hp], fun m => by rw [h.chan m hp]⟩

theorem modChan (s : State) (n : Nat) {f : ChanS → ChanS} (hf : ∀ c, (f c).plain = c.plain) (ha : ∀ c, (f c).admission = c.admission) :
    s.roused (s.modChan n f) := by
  refine ⟨fun m => ?_, fun m => ?_⟩ <;> by_cases e : m = n
  · rw [e, State.chan_modChan, hf]
  · rw [State.chan_modChan_ne e]
  · rw [e, State.chan_modChan, ha]
  · rw [State.chan_modChan_ne e]

theorem of_untimed (h : ∀ m, (t.chan m).untimed = (s.chan m).untimed) : s.roused t :=
  ⟨fun m => (congrArg ChanS.plain (h m) :), fun m => (congrArg ChanS.admission (h m) :)⟩

end State.roused

/-! ### Levels (R187, R191) -/

theorem State.satAny_only (s : State) : s.only [.regs] [Reg.SVC_STATUS] s.satAny := here.cond ..

theorem State.relevel_only (n : Nat) (s : State) : s.only [.chans, .regs, .notices, .counts] [Reg.SVC_STATUS] (s.relevel n) := by
  unfold State.relevel
  dsimp only
  split
  · exact ((((here.modChan ..).modChan ..).raise ..).notice ..).step (State.satAny_only _)
  · exact here.modChan ..

theorem State.relevel_roused (n : Nat) (s : State) : s.roused (s.relevel n) := by
  have h0 : s.roused (s.modChan n (fun x => { x with levels := (List.range 4).map (s.levelNow n) })) :=
    State.roused.modChan s n (fun _ => rfl) fun _ => rfl
  unfold State.relevel
  dsimp only
  split
  · refine (h0.trans (State.roused.modChan _ n (f := fun x => { x with sat := true, satAt := s.now }) (fun _ => rfl) fun _ => rfl)).trans ?_
    exact State.roused.of_only (ps := [.regs, .notices, .counts]) (as := [Reg.SVC_STATUS]) (((here.raise ..).notice ..).step (State.satAny_only _))
  · exact h0

theorem State.relevel_chan_ne {n m : Nat} (h : m ≠ n) (s : State) : (s.relevel n).chan m = s.chan m := by
  unfold State.relevel
  dsimp only
  split
  · refine (State.only.chan (ps := [.regs, .notices, .counts]) (as := [Reg.SVC_STATUS]) (((here.raise ..).notice ..).step (State.satAny_only _)) m).trans ?_
    exact (State.chan_modChan_ne h ..).trans (State.chan_modChan_ne h ..)
  · exact State.chan_modChan_ne h ..

/-! ### An access arrives (R304, R305) -/

theorem State.wantSrExit_only (n : Nat) (s : State) : s.only [.chans, .counts, .regs] [Reg.CH_STATUS n] (s.wantSrExit n) := by
  unfold State.wantSrExit
  dsimp only
  split
  · exact here
  · split
    · exact (here.modChan ..).step (State.chFlags_only ..)
    · split
      · exact State.startSrExit_only ..
      · exact here.modChan ..
    · exact here

theorem State.startSrExit_roused (n : Nat) (s : State) : s.roused (s.startSrExit n) := by
  unfold State.startSrExit
  split
  · refine (State.roused.of_untimed fun m => State.tallyChan_chan n m s).trans ?_
    refine State.roused.trans (State.roused.modChan _ n (f := fun c => { c with pstate := .exiting, exitAt := s.now, wantExit := false }) (fun _ => rfl) fun _ => rfl) ?_
    exact State.roused.of_only (State.chFlags_only ..)
  · exact State.roused.refl s

theorem State.wantSrExit_roused (n : Nat) (s : State) : s.roused (s.wantSrExit n) := by
  unfold State.wantSrExit
  dsimp only
  split
  · exact State.roused.refl s
  · split
    · exact (State.roused.modChan s n (f := fun c => { c with pstate := .active }) (fun _ => rfl) fun _ => rfl).trans (State.roused.of_only (State.chFlags_only ..))
    · split
      · exact State.startSrExit_roused ..
      · exact State.roused.modChan s n (fun _ => rfl) fun _ => rfl
    · exact State.roused.refl s

theorem State.stall_only (a : Acc) (s : State) : s.only [.counts, .regs] [Reg.NDL_PATH_STATUS] (s.stall a) := by
  unfold State.stall
  split
  · exact here
  · dsimp only
    split
    · exact State.only.step (here.bump ..) (State.exclude_only ..)
    · exact here.bump ..

theorem State.arriveAt_only (a : Acc) (s : State) :
    s.only [.chans, .counts, .regs] [Reg.CH_STATUS a.place.chan, Reg.NDL_PATH_STATUS] (s.arriveAt a) := by
  unfold State.arriveAt
  dsimp only
  have h : s.only [.chans, .counts, .regs] [Reg.CH_STATUS a.place.chan, Reg.NDL_PATH_STATUS]
      ((s.wantSrExit a.place.chan).modChan a.place.chan (fun c => { c with idleAt := s.now })) :=
    State.only.modChan _ _ ((State.wantSrExit_only ..).mono)
  split
  · exact h.step (State.stall_only ..)
  · exact h

theorem State.arriveAt_roused (a : Acc) (s : State) : s.roused (s.arriveAt a) := by
  unfold State.arriveAt
  dsimp only
  have h := (State.wantSrExit_roused a.place.chan s).trans
    (State.roused.modChan _ a.place.chan (f := fun c => { c with idleAt := s.now }) (fun _ => rfl) fun _ => rfl)
  split
  · exact h.trans (State.roused.of_only (State.stall_only ..))
  · exact h

/-! ### An access takes its place in a queue (R293, R294) -/

/-- Where an access waits after it has been placed: one of the three queues holds it last, everything else is as before. -/
inductive State.placed (s : State) (a : Acc) : State → Prop
  | buffer : s.placed a (s.modTier a.place.tier (fun x => { x with buffer := x.buffer ++ [a] }))
  | bank : s.placed a (s.modBank a.place.pc a.place.pos (fun b => { b with queue := b.queue ++ [a] }))
  | admission : s.placed a (s.modChan a.place.chan (fun x => { x with admission := x.admission ++ [a] }))

theorem State.metRefresh_place (s : State) (a : Acc) : (s.metRefresh a).place = a.place ∧ (s.metRefresh a).wr = a.wr := by
  unfold State.metRefresh
  split <;> exact ⟨rfl, rfl⟩

theorem State.arriveAt_met (a : Acc) (s : State) : (s.arriveAt a).metRefresh a = s.metRefresh a := by
  have ho := State.arriveAt_only a s
  rw [State.metRefresh, State.bank, ho.pc, ho.now', State.metRefresh, State.bank]

theorem State.enqueue_placed (a : Acc) (s : State) : (s.arriveAt a).placed (s.metRefresh a) (s.enqueue a) := by
  have ht : (s.metRefresh a).place.chan / 8 = (s.metRefresh a).place.tier := by
    rw [Place.chan, Place.tier]
    omega
  unfold State.enqueue
  dsimp only
  rw [State.arriveAt_met, ht]
  split
  · exact .buffer
  · split
    · exact .bank
    · split
      · exact .admission
      · exact .buffer

namespace State.placed

variable {s t : State} {a : Acc}

theorem only (h : s.placed a t) : s.only [.pcs, .chans, .tiers] [] t := by
  cases h
  · exact here.modTier ..
  · exact here.modBank ..
  · exact here.modChan ..

theorem waits (h : s.placed a t) : t.accWaits a := by
  cases h
  · exact .inr (.inr (by rw [State.tier_modTier]; exact List.mem_append_right _ List.mem_cons_self))
  · exact .inl (by rw [State.bank_modBank]; exact List.mem_append_right _ List.mem_cons_self)
  · exact .inr (.inl (by rw [State.chan_modChan]; exact List.mem_append_right _ List.mem_cons_self))

theorem runs (h : s.placed a t) : s.runsKept t := by
  cases h
  · exact (State.runsKept.refl s).modTier _ _ fun _ => rfl
  · exact State.runsKept.refl s
  · exact State.runsKept.refl s

theorem plain (h : s.placed a t) : s.chansPlain t := by
  cases h
  · exact fun _ => rfl
  · exact fun _ => rfl
  · intro m
    by_cases e : m = a.place.chan
    · rw [e, State.chan_modChan]
      rfl
    · rw [State.chan_modChan_ne e]

/-- The accesses of a place's queues after one has been placed: that one, at the end of its queue. -/
theorem queue (h : s.placed a t) :
    ∃ b c d : List Acc, (t.bank a.place.pc a.place.pos).queue = (s.bank a.place.pc a.place.pos).queue ++ b ∧
      (t.chan a.place.chan).admission = (s.chan a.place.chan).admission ++ c ∧ (t.tier a.place.tier).buffer = (s.tier a.place.tier).buffer ++ d ∧
      (t.tier a.place.tier).held = (s.tier a.place.tier).held ∧ b ++ c ++ d = [a] := by
  cases h
  · refine ⟨[], [], [a], (List.append_nil _).symm, (List.append_nil _).symm, ?_, ?_, rfl⟩ <;> rw [State.tier_modTier]
  · exact ⟨[a], [], [], congrArg BankS.queue (State.bank_modBank ..), (List.append_nil _).symm, (List.append_nil _).symm, rfl, rfl⟩
  · exact ⟨[], [a], [], (List.append_nil _).symm, congrArg ChanS.admission (State.chan_modChan ..), (List.append_nil _).symm, rfl, rfl⟩

end State.placed

/-! ### The write that waits for a place (R169, R295) -/

/-- The writes that wait for a place. -/
def State.writesFor (s : State) (p : Place) : List Acc :=
  ((s.bank p.pc p.pos).queue ++ (s.chan p.chan).admission ++ (s.tier p.tier).buffer ++ (s.tier p.tier).held).filter (fun a => a.place == p && a.wr.isSome)

theorem foldl_either {α : Type} (P : α → Prop) (f : α → α → α) (hf : ∀ a b, f a b = a ∨ f a b = b) (l : List α) (a : α) (ha : P a) (hl : ∀ x ∈ l, P x) :
    P (l.foldl f a) := by
  induction l generalizing a with
  | nil => exact ha
  | cons x l ih =>
    refine ih (f a x) ?_ fun y hy => hl y (List.mem_cons_of_mem _ hy)
    rcases hf a x with e | e <;> rw [e]
    · exact ha
    · exact hl x List.mem_cons_self

theorem State.writesFor_none {s : State} {p : Place} (h : s.queuedWrite p = none) : s.writesFor p = [] := by
  unfold State.queuedWrite at h
  change (match s.writesFor p with | [] => none | a :: r => (r.foldl (fun (b : Acc) (x : Acc) => if b.id < x.id then x else b) a).wr) = none at h
  cases hl : s.writesFor p with
  | nil => rfl
  | cons a r =>
    rw [hl] at h
    have hw : ∀ x ∈ a :: r, x.wr.isSome = true := fun x hx => by
      rw [← hl] at hx
      have := List.of_mem_filter hx
      simp only [Bool.and_eq_true] at this
      exact this.2
    have := foldl_either (fun x : Acc => x.wr.isSome = true) (fun b x => if b.id < x.id then x else b) (fun b x => by
        by_cases e : b.id < x.id
        · exact .inr (if_pos e)
        · exact .inl (if_neg e)) r a (hw a List.mem_cons_self) fun x hx => hw x (List.mem_cons_of_mem _ hx)
    have h' : (r.foldl (fun (b : Acc) (x : Acc) => if b.id < x.id then x else b) a).wr = none := h
    rw [h'] at this
    cases this

theorem State.queuedWrite_of_writesFor {s t : State} {p : Place} (h : t.writesFor p = s.writesFor p) : t.queuedWrite p = s.queuedWrite p := by
  have e (u : State) : u.queuedWrite p = match u.writesFor p with | [] => none | a :: r => (r.foldl (fun (b : Acc) (x : Acc) => if b.id < x.id then x else b) a).wr := rfl
  rw [e t, h, e s]

theorem State.queuedWrite_one {s : State} {p : Place} {a : Acc} (h : s.writesFor p = [a]) : s.queuedWrite p = a.wr := by
  unfold State.queuedWrite
  change (match s.writesFor p with | [] => none | a :: r => (r.foldl (fun (b : Acc) (x : Acc) => if b.id < x.id then x else b) a).wr) = a.wr
  rw [h]
  rfl

theorem State.roused.writesFor {s t : State} (h : s.roused t) {ps : List Part} {as : List Nat} (ho : s.only ps as t) (p : Place) (h1 : Part.pcs ∉ ps := by decide)
    (h2 : Part.tiers ∉ ps := by decide) : t.writesFor p = s.writesFor p := by
  simp only [State.writesFor, State.bank, ho.pc _ h1, h.admissions p.chan, ho.tier _ h2]

/-- A write that has been placed where none waited is the one that waits. -/
theorem State.placed.writesFor {s t : State} {a : Acc} (h : s.placed a t) (hn : s.writesFor a.place = []) (hw : a.wr.isSome = true) :
    t.writesFor a.place = [a] := by
  obtain ⟨b, c, d, hb, hc, hd, he, hone⟩ := h.queue
  simp only [State.writesFor, List.filter_append, List.append_eq_nil_iff] at hn
  obtain ⟨⟨⟨h1, h2⟩, h3⟩, h4⟩ := hn
  simp only [State.writesFor, hb, hc, hd, he, List.filter_append, h1, h2, h3, h4, List.nil_append, List.append_nil]
  rw [← List.filter_append, ← List.filter_append, hone]
  simp [hw]

/-! ### A new access -/

section
variable (p : Place) (wr : Option (List Byte × Nat)) (sc : Nat) (firm : Bool) (o : Origin) (time : Nat) (s : State)

/-- A new access of a state. -/
def State.accOf : Acc := { id := s.stack.nextAcc, place := p, wr := wr, sc := sc, firm := firm, origin := o, time := time }

/-- The state that a new access meets in the queues of its place. -/
def State.arriving : State := ({ s with stack.nextAcc := s.stack.nextAcc + 1 } : State).arriveAt (State.accOf p wr sc firm o time s)

theorem State.arriving_roused : s.roused (s.arriving p wr sc firm o time) :=
  State.roused.trans (State.roused.of_only (ps := [.bursts]) (as := []) (here.nextAcc _)) (State.arriveAt_roused ..)

theorem State.arriving_only : s.only [.chans, .counts, .regs, .bursts] [Reg.CH_STATUS p.chan, Reg.NDL_PATH_STATUS] (s.arriving p wr sc firm o time) :=
  have h := State.arriveAt_only (State.accOf p wr sc firm o time s) ({ s with stack.nextAcc := s.stack.nextAcc + 1 } : State)
  State.only.step (here.nextAcc _) h (ha := fun _ h => h)

theorem State.newAcc_placed : (s.arriving p wr sc firm o time).placed (s.metRefresh (s.accOf p wr sc firm o time)) (s.newAcc p wr sc firm o time) :=
  State.enqueue_placed (State.accOf p wr sc firm o time s) ({ s with stack.nextAcc := s.stack.nextAcc + 1 } : State)

theorem State.newAcc_only : s.only [.chans, .counts, .regs, .pcs, .tiers, .bursts] [Reg.CH_STATUS p.chan, Reg.NDL_PATH_STATUS] (s.newAcc p wr sc firm o time) :=
  ((State.arriving_only p wr sc firm o time s).mono).step (State.newAcc_placed p wr sc firm o time s).only

theorem State.newAcc_waits : (s.newAcc p wr sc firm o time).accWaits (s.metRefresh (s.accOf p wr sc firm o time)) := (State.newAcc_placed ..).waits

theorem State.newAcc_runs : s.runsKept (s.newAcc p wr sc firm o time) :=
  (State.runsKept.of_only (State.arriving_only p wr sc firm o time s)).trans (State.newAcc_placed ..).runs

theorem State.newAcc_plain : s.chansPlain (s.newAcc p wr sc firm o time) :=
  fun m => ((State.newAcc_placed p wr sc firm o time s).plain m).trans ((State.arriving_roused p wr sc firm o time s).plain m)

theorem State.newAcc_bursts : (s.newAcc p wr sc firm o time).stack.bursts = s.stack.bursts := by
  have h1 := (State.arriveAt_only (State.accOf p wr sc firm o time s) ({ s with stack.nextAcc := s.stack.nextAcc + 1 } : State)).2.1 .bursts (by decide)
  have h2 := (State.newAcc_placed p wr sc firm o time s).only.2.1 .bursts (by decide)
  exact h2.1.trans h1.1

end

/-- A write to a place for which none waits is what a read of it sees. -/
theorem State.newAcc_lineNow {s : State} {p : Place} (hn : s.queuedWrite p = none) (w : List Byte × Nat) (sc : Nat) (firm : Bool) (o : Origin) (time : Nat) :
    (s.newAcc p (some w) sc firm o time).queuedWrite p = some w := by
  have hr := (State.arriving_roused p (some w) sc firm o time s).writesFor (State.arriving_only p (some w) sc firm o time s) p
  have hp := State.newAcc_placed p (some w) sc firm o time s
  obtain ⟨hpl, hwr⟩ := State.metRefresh_place s (s.accOf p (some w) sc firm o time)
  have hpl' : (s.metRefresh (s.accOf p (some w) sc firm o time)).place = p := hpl
  have h := hp.writesFor (by rw [hpl', hr]; exact State.writesFor_none hn) (by rw [hwr]; rfl)
  rw [hpl'] at h
  exact (State.queuedWrite_one h).trans hwr

end Sys2Proof.Machine
end

section
/-! PROOFS. The copy of a page (R159, R161): its last line, and its end. -/

set_option Elab.async false

namespace Sys2Proof.Machine
open Sys2Proof
open State.only (here)

/-! ### A copy has ended -/

theorem State.poolFlags_copying (s : State) (h : s.pool.jobs = []) : s.poolFlags.fld Reg.NDL_LINE_STATUS F.NDL_LINE_STATUS_COPYING = 0 := by
  unfold State.poolFlags
  dsimp only
  rw [State.fld_cond_apart _ _ _ (by decide) (by decide) (by decide), State.fld_cond_apart _ _ _ (by decide) (by decide) (by decide), State.fld_cond _ _ (by decide), h]
  rfl

theorem State.relocate_none {s : State} (hb : s.pool.blocks.all (fun b => (s.chan (b / 2)).half.isNone && !(s.chan (b / 2)).retired) = true)
    (hs : s.pool.steers = []) : s.relocate = s := by
  unfold State.relocate
  rw [hs]
  refine (congrArg (forEach · _ s) (List.filter_eq_nil_iff.2 fun b hm => ?_)).trans rfl
  have hb' := List.all_eq_true.1 hb b (by simpa using hm)
  simp only [Bool.and_eq_true, Option.isNone_iff_eq_none, Bool.not_eq_true'] at hb'
  simp [hb'.1, hb'.2]

/-- The entry of a page takes its full effect. -/
def State.pageDone (job i : Nat) (e : RemapE) (s : State) : State :=
  ({ s with pool.jobs := AMap.del job s.pool.jobs, pool.remaps := AMap.put i { e with done := true } s.pool.remaps } : State).bump (devSlot 150) 1

section
variable {s : State} {job i : Nat} {c : CopyJob} {e : RemapE} (hu : s.up) (hj : s.pool.jobs = [(job, c)]) (hk : c.kind = .page i none)
  (he : AMap.find i s.pool.remaps = some e) (hw : s.own.waits = []) (hm : s.own.merges = []) (hp : s.own.parked = [])
include hu hj hk he hw hm hp

theorem State.completes_copyDone (hst : s.still) (hn : c.total ≤ c.next)
    (hb : s.pool.blocks.all (fun b => (s.chan (b / 2)).half.isNone && !(s.chan (b / 2)).retired) = true) (hs : s.pool.steers = []) :
    s.completes (.copyDone job) [.pool, .counts, .regs] [Reg.NDL_LINE_STATUS]
      (fun t => t.pool.jobs = [] ∧ AMap.find i t.pool.remaps = some { e with done := true } ∧
        t.fld Reg.NDL_LINE_STATUS F.NDL_LINE_STATUS_COPYING = 0) := by
  let u := s.pageDone job i e
  have hfind : AMap.find job s.pool.jobs = some c := by
    rw [hj, AMap.find, if_pos rfl]
  have hjobs : u.pool.jobs = [] := by
    show AMap.del job s.pool.jobs = []
    rw [hj, AMap.del, if_pos rfl]
    rfl
  have ho : s.only [.pool, .counts] [] u := (here.pool _).bump ..
  have hfl : u.only [.regs] [Reg.NDL_LINE_STATUS] u.poolFlags := State.poolFlags_only u
  have hpool : u.poolFlags.pool = u.pool := hfl.pool'
  have hown : u.poolFlags.own = s.own := hfl.own'.trans ho.own'
  have hchan (n : Nat) : u.poolFlags.chan n = s.chan n := (hfl.chan n).trans (ho.chan n)
  have hf : whenAwake (fun s => match AMap.find job s.pool.jobs with
      | some c => if c.total ≤ c.next then s.copyEffect job else s
      | none => s) s = u.poolFlags := by
    rw [whenAwake_true _ _ hu.awake]
    simp only [hfind, if_pos hn, State.copyEffect, hk, he]
    show u.poolFlags.relocate.copyGo.retryWaits = u.poolFlags
    rw [State.relocate_none (by rw [hpool]; simp only [hchan]; exact hb) (by rw [hpool]; exact hs), State.copyGo_none (by rw [hpool, hjobs]),
      State.retryWaits_none (by rw [hown, hw]) (by rw [hown, hm]) (by rw [hown, hp])]
  have hu2 : s.only [.pool, .counts, .regs] [Reg.NDL_LINE_STATUS] u.poolFlags := ho.mono.trans hfl.mono
  have hcopy : u.poolFlags.copyBusy = false := by rw [State.copyBusy, hpool, hjobs]; rfl
  have hstill : u.poolFlags.still := by
    obtain ⟨⟨hi, hjob, hpj, hcfg, hd, hg, hin, heng, -, hwc⟩, hwait⟩ := hst
    have hcalm : u.poolFlags.calm := by
      have he' : u.poolFlags.engBusy = s.engBusy := by
        simp only [State.engBusy, State.engTurns, show List.range 4 = [0, 1, 2, 3] from rfl, List.any_cons, List.any_nil, hu2.tier]
      refine ⟨hu2.inbox'.trans hi, ?_, ?_, ?_, ?_, ?_, ?_, he'.trans heng, hcopy, ?_⟩
      · rw [hu2.que']; exact hjob
      · rw [hu2.prot']; exact hpj
      · rw [hu2.mgr']; exact hcfg
      · rw [hu2.que']; exact hd
      · rw [State.groupBusy, hu2.que']; exact hg
      · rw [hu2.mgr']; exact hin
      · rw [hu2.mgr']; exact hwc
    exact ⟨hcalm, by rw [hu2.wait']; exact hwait⟩
  refine State.completes_always (c := .copyDone job) (f := whenAwake (fun s => match AMap.find job s.pool.jobs with
      | some c => if c.total ≤ c.next then s.copyEffect job else s
      | none => s)) rfl (by rw [hf]; exact hstill) (by rw [hf]; exact hu2) ?_
  rw [hf]
  refine ⟨?_, ?_, ?_⟩
  · rw [State.carry_pool, hpool, hjobs]
  · rw [State.carry_pool, hpool]
    exact AMap.find_put_self ..
  · rw [State.carry_fld]
    exact State.poolFlags_copying u hjobs

end

/-! ### A line of a copy has been read -/

theorem ofLe_leBytes (n v : Nat) : ofLe (leBytes n v) = v % 256 ^ n := by
  induction n generalizing v with
  | zero => simp [leBytes, ofLe, Nat.mod_one]
  | succ n ih =>
    rw [leBytes, ofLe, ih, BitVec.toNat_ofNat, show 256 ^ (n + 1) = 256 * 256 ^ n from Nat.pow_succ', Nat.mod_mul]

theorem addErrors_nil (l : List Byte) : addErrors [] l = l := by
  exact List.ext_getElem (by simp [addErrors]) fun i _ _ => by simp [addErrors]

theorem lineDecode_nil : lineDecode [] = some ([], 0) := rfl

/-- A line without errors is read as it was. -/
theorem State.decode_clean {p : Place} {data : List Byte} {md : Nat} (h : md < 65536) (hs : mdState md < 4) (s : State) :
    s.decode p [] data md = (s, some (data, md, false)) := by
  have hm : ofLe (leBytes 4 md) % 65536 = md := by
    rw [ofLe_leBytes]
    omega
  unfold State.decode
  rw [lineDecode_nil]
  simp only [List.filterMap_nil, addErrors_nil, hm, if_true]
  rw [if_neg (by omega)]
  rfl

section
variable {s : State} {job i : Nat} {c : CopyJob} {e : RemapE} (hu : s.up) (hj : s.pool.jobs = [(job, c)]) (hk : c.kind = .page i none)
  (he : AMap.find i s.pool.remaps = some e) (hw : s.own.waits = []) (hm : s.own.merges = []) (hp : s.own.parked = [])
  (ht : c.total = c.next + 1)
include hj hk

theorem State.pageJob_free (b : Nat) : s.blockJob b = none := by
  rw [State.blockJob, hj]
  simp [hk]

include he ht

/-- The last line of a page: it is written at its target, and nothing of the copy is left to read. -/
theorem State.copyLine_last (d : List Byte) (md fuel : Nat) (hr : (s.chan (s.copyTarget c c.next).chan).retired = false) :
    (s.copyLine job (some (d, md))).copyIssue fuel job =
      ({ s.newAcc (s.copyTarget c c.next) (some (d, md)) 15 false .copyW s.now with
         pool.jobs := [(job, { c with next := c.total })] } : State) := by
  have hfind : AMap.find job s.pool.jobs = some c := by
    rw [hj, AMap.find, if_pos rfl]
  have hheld : s.copyHeld c = false := by
    unfold State.copyHeld
    simp only [hk, he]
    rw [State.pageJob_free hj hk]
    rfl
  have hpool : (s.newAcc (s.copyTarget c c.next) (some (d, md)) 15 false .copyW s.now).pool = s.pool := (State.newAcc_only ..).pool'
  have hline : s.copyLine job (some (d, md)) = ({ s.newAcc (s.copyTarget c c.next) (some (d, md)) 15 false .copyW s.now with
         pool.jobs := [(job, { c with next := c.total })] } : State) := by
    unfold State.copyLine
    simp only [hfind, hheld, State.copyPut, hr, hk, Bool.false_eq_true, if_false]
    rw [hpool, hj, AMap.put, if_neg (Nat.lt_irrefl _), if_pos rfl, ht]
    rfl
  rw [hline]
  cases fuel with
  | zero => rfl
  | succ n =>
    unfold State.copyIssue
    dsimp only
    rw [AMap.find, if_pos rfl]
    dsimp only
    rw [if_pos (.inl (Nat.le_refl _))]

include hu hw hm hp

theorem State.completes_copyRead {id : Nat} {b : Burst} (hst : ({ s with pool.jobs := [(job, { c with next := c.total })] } : State).still)
    (hb : AMap.find id s.stack.bursts = some b) (hor : b.acc.origin = .copy job) (hmd : b.md < 65536) (hms : mdState b.md < 4)
    (hr : (s.chan (s.copyTarget c c.next).chan).retired = false) (hq : s.queuedWrite (s.copyTarget c c.next) = none) :
    s.completes (.lineReadDone id []) [.pool, .bursts, .counts, .pcs, .chans, .tiers, .regs, .notices] (arrivalRegs (s.copyTarget c c.next).chan)
      (fun t => t.pool = { s.pool with jobs := [(job, { c with next := c.total })] } ∧ AMap.find id t.stack.bursts = none ∧
        t.lineNow (s.copyTarget c c.next) = (b.data, b.md)) := by
  let p := s.copyTarget c c.next
  let v : State := { s with stack.bursts := AMap.del id s.stack.bursts }
  let a := v.newAcc p (some (b.data, b.md)) 15 false .copyW s.now
  let u : State := { a with pool.jobs := [(job, { c with next := c.total })] }
  have hv : s.only [.bursts] [] v := here.bursts _
  have ha : v.only [.chans, .counts, .regs, .pcs, .tiers, .bursts] [Reg.CH_STATUS p.chan, Reg.NDL_PATH_STATUS] a := State.newAcc_only ..
  have hown : u.own = s.own := ha.own'
  have hf : whenAwake (State.burstDone id []) s = u.relevel b.acc.place.chan := by
    rw [whenAwake_true _ _ hu.awake, State.burstDone, hb]
    dsimp only
    rw [State.decode_clean hmd hms, show slowDecode [] = false from rfl, if_neg (by simp), State.readBack, hor]
    show (((v.copyLine job (some (b.data, b.md))).copyIssue 8 job).retryWaits).relevel b.acc.place.chan = u.relevel b.acc.place.chan
    have hl : (v.copyLine job (some (b.data, b.md))).copyIssue 8 job = u := State.copyLine_last (s := v) hj hk he ht b.data b.md 8 hr
    rw [hl, State.retryWaits_none (by rw [hown, hw]) (by rw [hown, hm]) (by rw [hown, hp])]
  have hrel := State.relevel_only b.acc.place.chan u
  have hau : a.only [.pool] [] u := here.pool _
  have ho : s.only [.pool, .bursts, .counts, .pcs, .chans, .tiers, .regs, .notices] (arrivalRegs p.chan) (u.relevel b.acc.place.chan) :=
    ((((hv.mono (bs := arrivalRegs p.chan)).step ha (ha := by simp [arrivalRegs])).step hau).step hrel (ha := by simp [arrivalRegs]))
  have hfrom : ({ s with pool.jobs := [(job, { c with next := c.total })] } : State).only [.bursts, .counts, .pcs, .chans, .tiers, .regs, .notices]
      (arrivalRegs p.chan) (u.relevel b.acc.place.chan) := by
    refine ⟨ho.1, fun q hq => ?_, ho.2.2⟩
    by_cases e : q = .pool
    · subst e
      show (u.relevel b.acc.place.chan).pool = _
      rw [hrel.pool']
      show ({ a.pool with jobs := [(job, { c with next := c.total })] } : PoolS) = _
      rw [ha.pool']
    · have := ho.2.1 q fun h => by
        rcases List.mem_cons.1 h with h | h
        · exact e h
        · exact hq h
      cases q <;> first | exact absurd rfl e | exact this
  have hruns : ({ s with pool.jobs := [(job, { c with next := c.total })] } : State).runsKept (u.relevel b.acc.place.chan) :=
    State.runsKept.trans (t := u) (State.newAcc_runs p (some (b.data, b.md)) 15 false .copyW s.now v) (State.runsKept.of_only hrel)
  refine State.completes_always (c := .lineReadDone id []) (f := whenAwake (State.burstDone id [])) rfl
    (by rw [hf]; exact hfrom.still_runs hst fun k _ => hruns k) (by rw [hf]; exact ho) ?_
  rw [hf]
  refine ⟨?_, ?_, ?_⟩
  · rw [State.carry_pool]
    exact hfrom.pool'
  · have h1 := hrel.2.1 .bursts (by decide)
    have h2 : u.stack.bursts = v.stack.bursts := State.newAcc_bursts p (some (b.data, b.md)) 15 false .copyW s.now v
    rw [State.carry_stack, h1.1, h2]
    exact AMap.find_del_self ..
  · have hq' : (u.relevel b.acc.place.chan).queuedWrite p = a.queuedWrite p :=
      State.queuedWrite_of_writesFor ((State.relevel_roused b.acc.place.chan u).writesFor hrel p)
    have hqa : a.queuedWrite p = some (b.data, b.md) := State.newAcc_lineNow (s := v) hq ..
    have hcar (x : State) : (s.carry x).lineNow p = x.lineNow p := rfl
    rw [hcar, State.lineNow, hq', hqa]

end

/-- Settles O43: the last line of a page's copy is written at its target, and the end of the copy gives the entry its full effect. -/
theorem copies : Obligations.Copies := by
  unfold Obligations.Copies
  intro s job i c e hu hj hk he hw hm hp
  exact ⟨State.completes_copyDone hu hj hk he hw hm hp,
    fun id b hst ht hb hor _ hmd hms hr hq => State.completes_copyRead hu hj hk he hw hm hp ht hst hb hor hmd hms hr hq⟩

end Sys2Proof.Machine
end

section
/-! PROOFS. A tier loses its heartbeat and rejoins (R170, R367 to R371). -/

set_option Elab.async false

namespace Sys2Proof.Machine
open Sys2Proof
open State.only (here)

/-! ### A line that has been written reads as written -/

theorem get_storeBytes_out {j : Nat} : ∀ (l : List Byte) (key : Nat) (m : List Host.Cell), (j < key ∨ key + l.length ≤ j) →
    AMap.get j 0 (storeBytes key l m) = AMap.get j 0 m
  | [], _, _, _ => rfl
  | b :: r, key, m, h => by
    rw [storeBytes, get_storeBytes_out r (key + 1) _ (by rw [List.length_cons] at h; omega), AMap.get_set_ne (by rw [List.length_cons] at h; omega)]

theorem get_storeBytes {i : Nat} : ∀ (l : List Byte) (key : Nat) (m : List Host.Cell) (h : i < l.length),
    AMap.get (key + i) 0 (storeBytes key l m) = l[i]
  | b :: r, key, m, h => by
    rw [storeBytes]
    cases i with
    | zero => rw [Nat.add_zero, get_storeBytes_out r (key + 1) _ (.inl (Nat.lt_succ_self key)), AMap.get_set_self]; rfl
    | succ i =>
      have hi : i < r.length := Nat.lt_of_succ_lt_succ h
      rw [show key + (i + 1) = key + 1 + i by omega, get_storeBytes r (key + 1) _ hi]
      rfl

theorem State.lineData_setLine (p : Place) {d : List Byte} (h : d.length = 128) (md : Nat) (s : State) : (s.setLine p d md).lineData p = d := by
  have ht : (d ++ zeros 128).take 128 = d := by rw [List.take_append_of_le_length (by omega), List.take_of_length_le (by omega)]
  unfold State.lineData State.setLine
  dsimp only
  rw [ht]
  refine List.ext_getElem (by simp [h]) fun i h1 h2 => ?_
  rw [List.getElem_map, List.getElem_range, get_storeBytes]

theorem State.lineMd_setLine (p : Place) (d : List Byte) (md : Nat) (s : State) : (s.setLine p d md).lineMd p = md := by
  unfold State.lineMd State.setLine
  exact AMap.get_set_self ..

theorem State.setLine_only (p : Place) (d : List Byte) (md : Nat) (s : State) : s.only [.mem] [] (s.setLine p d md) := here.mem _

/-! ### The heartbeat is lost (R368, R369) -/

theorem State.chanFilter_only (n : Nat) (keep : Acc → Bool) (s : State) : s.only [.pcs, .chans, .tiers] [] (s.chanFilter n keep) := by
  unfold State.chanFilter
  exact (((here.modPc ..).modPc ..).modChan ..).modTier ..

section
variable (n : Nat) (keep : Acc → Bool) (s : State)

/-- The accesses of a channel outside the buffer of its tier, filtered. -/
def State.queuesFilter : State :=
  let clr (k : Nat) (s : State) : State := s.modPc k (fun x => { x with banks := AMap.mapVal (fun b => { b with queue := b.queue.filter keep }) x.banks })
  (clr (2 * n) (clr (2 * n + 1) s)).modChan n (fun c => { c with admission := c.admission.filter keep })

theorem State.chanFilter_eq : s.chanFilter n keep =
    (s.queuesFilter n keep).modTier (n / 8) (fun t => { t with buffer := t.buffer.filter (fun a => a.place.chan != n || keep a) }) := rfl

theorem State.queuesFilter_chan : (s.queuesFilter n keep).chan n = { s.chan n with admission := (s.chan n).admission.filter keep } := by
  unfold State.queuesFilter
  dsimp only
  rw [State.chan_modChan, ((here (ps := [.pcs]) (as := [])).modPc _ _ |>.modPc _ _).chan]

theorem State.queuesFilter_chan_ne {m : Nat} (h : m ≠ n) : (s.queuesFilter n keep).chan m = s.chan m := by
  unfold State.queuesFilter
  dsimp only
  rw [State.chan_modChan_ne h, ((here (ps := [.pcs]) (as := [])).modPc _ _ |>.modPc _ _).chan]

theorem State.queuesFilter_only : s.only [.pcs, .chans] [] (s.queuesFilter n keep) := ((here.modPc ..).modPc ..).modChan ..

/-- A channel of which the writes have been taken and whose rows are closed. -/
theorem State.emptied_chan : ((s.chanFilter n keep).closeRows n).chan n = { s.chan n with admission := (s.chan n).admission.filter keep } := by
  rw [(State.closeRows_only n _).chan, State.chanFilter_eq, ((here (ps := [.tiers]) (as := [])).modTier _ _).chan, State.queuesFilter_chan]

theorem State.emptied_chan_ne {m : Nat} (h : m ≠ n) : ((s.chanFilter n keep).closeRows n).chan m = s.chan m := by
  rw [(State.closeRows_only n _).chan, State.chanFilter_eq, ((here (ps := [.tiers]) (as := [])).modTier _ _).chan, State.queuesFilter_chan_ne n keep s h]

end

/-- The keeper of a tier puts a channel into self-refresh. -/
def State.keepChan (n : Nat) (s : State) : State :=
  let s := (s.chanFilter n (fun a => a.wr.isNone)).closeRows n
  if (s.chan n).retired ∨ (s.chan n).pstate = .selfRefresh then s else (s.modChan n (fun c => { c with srAt := s.now })).srIssue n

theorem State.keepChan_only (n : Nat) (s : State) : s.only [.pcs, .chans, .tiers, .counts, .regs] [Reg.CH_STATUS n] (s.keepChan n) := by
  unfold State.keepChan
  dsimp only
  have h : s.only [.pcs, .chans, .tiers, .counts, .regs] [Reg.CH_STATUS n] ((s.chanFilter n (fun a => a.wr.isNone)).closeRows n) :=
    ((State.chanFilter_only n _ s).mono).step (State.closeRows_only ..)
  split
  · exact h
  · exact (h.modChan ..).step (State.srIssue_only ..)

theorem State.srIssue_chan (n : Nat) (s : State) : (s.srIssue n).chan n = { s.chan n with pstate := .selfRefresh, srFrom := s.now, wantExit := false } := by
  unfold State.srIssue
  rw [(State.chFlags_only ..).chan, ((here (ps := [.counts]) (as := [])).bump _ _).chan, State.chan_modChan]

theorem State.srIssue_chan_ne {n m : Nat} (h : m ≠ n) (s : State) : (s.srIssue n).chan m = s.chan m := by
  unfold State.srIssue
  rw [(State.chFlags_only ..).chan, ((here (ps := [.counts]) (as := [])).bump _ _).chan, State.chan_modChan_ne h]

theorem State.keepChan_retired (n m : Nat) (s : State) : ((s.keepChan n).chan m).retired = (s.chan m).retired := by
  have h : (((s.chanFilter n (fun a => a.wr.isNone)).closeRows n).chan m).retired = (s.chan m).retired := by
    by_cases e : m = n
    · rw [e, State.emptied_chan]
    · rw [State.emptied_chan_ne n _ s e]
  unfold State.keepChan
  dsimp only
  split
  · exact h
  · by_cases e : m = n
    · rw [e, State.srIssue_chan, State.chan_modChan]
      exact e ▸ h
    · rw [State.srIssue_chan_ne e, State.chan_modChan_ne e]
      exact h

theorem State.keepChan_asleep (n : Nat) (s : State) : ((s.keepChan n).chan n).retired = false → ((s.keepChan n).chan n).pstate = .selfRefresh := by
  unfold State.keepChan
  dsimp only
  split
  next h => exact fun hr => h.resolve_left (by rw [hr]; decide)
  · rw [State.srIssue_chan]
    exact fun _ => rfl

theorem State.keepChan_asleep_ne {n m : Nat} (s : State) (h : (s.chan m).retired = false → (s.chan m).pstate = .selfRefresh) :
    ((s.keepChan n).chan m).retired = false → ((s.keepChan n).chan m).pstate = .selfRefresh := by
  by_cases e : m = n
  · subst e
    exact State.keepChan_asleep m s
  · have hc := State.emptied_chan_ne n (fun a => a.wr.isNone) s e
    have hk : (s.keepChan n).chan m = s.chan m := by
      unfold State.keepChan
      dsimp only
      split
      · exact hc
      · rw [State.srIssue_chan_ne e, State.chan_modChan_ne e, hc]
    rw [hk]
    exact h

/-- A tier, its buffer aside. -/
def TierS.unbuffered (x : TierS) : TierS := { x with buffer := [] }

theorem TierS.of_unbuffered {x y : TierS} (h : x.unbuffered = y.unbuffered) : x.run = y.run ∧ x.hbLost = y.hbLost ∧ x.held = y.held :=
  ⟨(congrArg TierS.run h :), (congrArg TierS.hbLost h :), (congrArg TierS.held h :)⟩

theorem State.tiersBut.held {s t : State} (h : s.tiersBut t) (k : Nat) : (t.tier k).hbLost = (s.tier k).hbLost ∧ (t.tier k).held = (s.tier k).held :=
  ⟨(congrArg TierS.hbLost (h k) :), (congrArg TierS.held (h k) :)⟩

theorem State.keepChan_tiers (n k : Nat) (s : State) : ((s.keepChan n).tier k).unbuffered = (s.tier k).unbuffered := by
  have hf : (((s.chanFilter n (fun a => a.wr.isNone)).closeRows n).tier k).unbuffered = (s.tier k).unbuffered := by
    rw [(State.closeRows_only n _).tier, State.chanFilter_eq]
    have hq := (State.queuesFilter_only n (fun a => a.wr.isNone) s).tier k
    by_cases e : k = n / 8
    · rw [e] at hq ⊢
      rw [State.tier_modTier, hq, TierS.unbuffered, TierS.unbuffered]
    · rw [State.tier_modTier_ne e, hq]
  unfold State.keepChan
  dsimp only
  split
  · exact hf
  · rw [(State.srIssue_only n _).tier, ((here (ps := [.chans]) (as := [])).modChan _ _).tier]
    exact hf

theorem State.only.bursts' {s t : State} {ps : List Part} {as : List Nat} (h : s.only ps as t) (hp : Part.bursts ∉ ps := by decide) :
    t.stack.bursts = s.stack.bursts := (h.2.1 _ hp).1

/-- A tier as the loss of its heartbeat leaves it. -/
def TierS.cut (w : List Acc) (x : TierS) : TierS := { x with held := x.held ++ w, hbLost := true, poisons := x.poisons ++ [], cal := x.cal.stopped }

/-- The channels of a tier. -/
def tierChans (t : Nat) : List Nat := (List.range 8).map (8 * t + ·)

theorem mem_tierChans {t n : Nat} : n ∈ tierChans t ↔ n / 8 = t := by
  constructor
  · intro h
    obtain ⟨i, hi, rfl⟩ := List.mem_map.1 h
    have := List.mem_range.1 hi
    omega
  · intro h
    exact List.mem_map.2 ⟨n % 8, List.mem_range.2 (Nat.mod_lt _ (by decide)), by omega⟩

/-- A tier has lost its heartbeat, and its keeper has put its channels into self-refresh. -/
def State.tierKept (t : Nat) (s : State) : State := forEach (tierChans t) State.keepChan (s.modTier t (TierS.cut (s.waitingWrites t)))

section
variable (s : State) (k : Fin 4)

theorem chStatus_mem {k : Fin 4} {n : Nat} (h : n ∈ tierChans k.val) : Reg.CH_STATUS n ∈ (List.range 32).map Reg.CH_STATUS := by
  have := mem_tierChans.1 h
  exact List.mem_map_of_mem (List.mem_range.2 (by omega))

theorem State.tierKept_only : s.only [.pcs, .chans, .tiers, .counts, .regs] ((List.range 32).map Reg.CH_STATUS) (s.tierKept k.val) := by
  unfold State.tierKept
  refine State.only.each (fun n hn t => ?_) (here.modTier ..)
  exact (State.keepChan_only n t).mono (ha := fun a ha => List.mem_singleton.1 ha ▸ chStatus_mem hn)

theorem State.tierKept_tier (j : Nat) : ((s.tierKept k.val).tier j).unbuffered = ((s.modTier k.val (TierS.cut (s.waitingWrites k.val))).tier j).unbuffered := by
  unfold State.tierKept
  refine forEach_keeps (fun u : State => (u.tier j).unbuffered = ((s.modTier k.val (TierS.cut (s.waitingWrites k.val))).tier j).unbuffered) State.keepChan
    (fun n u hu => (State.keepChan_tiers n j u).trans hu) _ _ rfl

theorem State.tierKept_asleep {n : Nat} (hn : n / 8 = k.val) (hr : (s.chan n).retired = false) : ((s.tierKept k.val).chan n).pstate = .selfRefresh := by
  have h0 : (s.modTier k.val (TierS.cut (s.waitingWrites k.val))).chan n = s.chan n := ((here (ps := [.tiers]) (as := [])).modTier _ _).chan n
  have hret : ((s.tierKept k.val).chan n).retired = (s.chan n).retired := by
    unfold State.tierKept
    exact forEach_keeps (fun u : State => (u.chan n).retired = (s.chan n).retired) State.keepChan (fun m u hu => (State.keepChan_retired m n u).trans hu)
      _ _ (congrArg ChanS.retired h0)
  unfold State.tierKept at hret ⊢
  exact forEach_reaches (fun m u => (u.chan m).retired = false → (u.chan m).pstate = .selfRefresh) State.keepChan State.keepChan_asleep
    (fun n m u h => State.keepChan_asleep_ne u h) _ _ (mem_tierChans.2 hn) (hret.trans hr)

end

/-- Nothing of this device waits in a tier. -/
theorem State.resetReqs_only {s : State} (hr : s.own.reqs = []) (hm : s.own.merges = []) (hc : s.own.commits = []) (t : Nat) : s.only [.own] [] (s.resetReqs t) := by
  unfold State.resetReqs
  rw [hr, hm, hc]
  exact here.own _

/-- The bursts of a tier are gone. -/
def State.burstsGone (t : Nat) (s : State) : State := { s with stack.bursts := s.stack.bursts.filter (fun b => decide (b.2.acc.place.tier ≠ t)) }

/-- A tier that has lost its heartbeat, before its requests are answered. -/
def State.tierGone (t : Nat) (s : State) : State :=
  ((((s.tierKept t).burstsGone t).raise Reg.CLK_STATUS F.CLK_STATUS_HB_LOSS).bump (tierSlot t 18) 1).bump (tierSlot t 19) 0

/-- A tier that has lost its heartbeat, before the event. -/
def State.tierLost (t : Nat) (s : State) : State := (s.tierGone t).resetReqs t

theorem State.tierGone_kept (t : Nat) (s : State) : (s.tierKept t).only [.bursts, .regs, .counts] [Reg.CLK_STATUS] (s.tierGone t) := by
  unfold State.tierGone State.burstsGone
  exact (((here.bursts _).raise ..).bump ..).bump ..

theorem State.tierGone_bursts (t : Nat) (s : State) :
    (s.tierGone t).stack.bursts = (s.tierKept t).stack.bursts.filter (fun b => decide (b.2.acc.place.tier ≠ t)) := by
  have h : ((s.tierKept t).burstsGone t).only [.regs, .counts] [Reg.CLK_STATUS] (s.tierGone t) := ((here.raise ..).bump ..).bump ..
  rw [h.bursts', State.burstsGone]

/-- What the loss of a heartbeat does, where bursts to `places` are cut off from the lines `lines`. -/
def State.loseTier (t : Nat) (places : List Place) (lines : List (Nat × Nat)) (m : Nat) (s : State) : State :=
  let s := s.modTier t (fun x => { x with held := x.held ++ s.waitingWrites t, hbLost := true, poisons := x.poisons ++ places, cal := x.cal.stopped })
  let s := forEach (tierChans t) State.keepChan s
  let s := s.burstsGone t
  let s := forEach lines (fun e s => s.journalLine t e.1 e.2) s
  let s := (s.raise Reg.CLK_STATUS F.CLK_STATUS_HB_LOSS).raiseIf (!lines.isEmpty) Reg.CLK_STATUS F.CLK_STATUS_JOURNAL
  let s := (s.bump (tierSlot t 18) 1).bump (tierSlot t 19) m
  let s := if s.awake then s.resetReqs t else s
  s.fault (42 + 4 * t) t []

theorem State.heartbeatLoss_loses (t : Nat) (aborted : List Nat) (s : State) (hl : (s.tier t).hbLost = false) :
    let places := (aborted.map Place.ofIx).filter (fun p => decide (p.tier = t))
    s.heartbeatLoss t aborted = s.loseTier t places (places.filterMap (fun p => (s.lineAt p).map (fun l => (l, p.chan)))) aborted.length := by
  unfold State.heartbeatLoss State.loseTier tierChans State.keepChan State.burstsGone
  rw [if_neg (by rw [hl]; decide)]

theorem faultSrc_hb_apart (k : Fin 4) : Reg.FAULT_SRC (42 + 4 * k.val) ∉ Reg.CLK_STATUS :: (List.range 32).map Reg.CH_STATUS := by
  fin_cases k <;> decide

theorem State.heartbeatLoss_eq {s : State} {t : Nat} (hl : (s.tier t).hbLost = false) (hw : (s.tierGone t).awake = true) :
    s.heartbeatLoss t [] = (s.tierLost t).fault (42 + 4 * t) t [] := by
  have h : s.loseTier t [] [] 0 = (if (s.tierGone t).awake then (s.tierGone t).resetReqs t else s.tierGone t).fault (42 + 4 * t) t [] := by
    unfold State.loseTier State.tierGone State.tierKept TierS.cut
    simp only [forEach_nil, List.isEmpty_nil, Bool.not_true, State.raiseIf, Bool.false_eq_true, if_false]
  have e := State.heartbeatLoss_loses t [] s hl
  simp only [List.map_nil, List.filter_nil, List.filterMap_nil, List.length_nil] at e
  rw [e, h, if_pos hw, State.tierLost]

section
variable {s : State} (hu : s.up) (hst : s.still) {k : Fin 4}
include hu hst

theorem State.completes_heartbeatLoss (hl : (s.tier k.val).hbLost = false) (hr : s.own.reqs = []) (hm : s.own.merges = []) (hc : s.own.commits = [])
    (hmild : s.mild (42 + 4 * k.val) k.val) :
    s.completes (.heartbeatLoss k []) (mildParts ++ [.chans, .pcs, .bursts, .own])
      (Reg.CLK_STATUS :: (List.range 32).map Reg.CH_STATUS ++ eventRegs)
      (fun t => (t.tier k.val).hbLost = true ∧ (t.tier k.val).held = (s.tier k.val).held ++ s.waitingWrites k.val ∧
        (∀ n < 32, n / 8 = k.val → (s.chan n).retired = false → (t.chan n).pstate = .selfRefresh) ∧
        t.stack.bursts = s.stack.bursts.filter (fun b => decide (b.2.acc.place.tier ≠ k.val)) ∧ t.fld Reg.CLK_STATUS F.CLK_STATUS_HB_LOSS = 1) := by
  have hkept := State.tierKept_only s k
  have hgone := State.tierGone_kept k.val s
  have hown : (s.tierGone k.val).own = s.own := hgone.own'.trans hkept.own'
  have hres : (s.tierGone k.val).only [.own] [] (s.tierLost k.val) :=
    State.resetReqs_only (by rw [hown]; exact hr) (by rw [hown]; exact hm) (by rw [hown]; exact hc) k.val
  have ho : s.only [.pcs, .chans, .tiers, .counts, .regs, .bursts, .own] (Reg.CLK_STATUS :: (List.range 32).map Reg.CH_STATUS) (s.tierLost k.val) :=
    ((hkept.mono (ha := fun a h => List.mem_cons_of_mem _ h)).step hgone).step hres
  have hwl : (s.tierLost k.val).awake = true := by rw [ho.awake]; exact hu.awake
  have hml : (s.tierLost k.val).mild (42 + 4 * k.val) k.val := ho.mild hmild (faultSrc_hb_apart k)
  have hev := State.faultN_mild_only hwl hml [] 0
  have htier (j : Nat) : ((s.tierLost k.val).tier j).unbuffered = ((s.modTier k.val (TierS.cut (s.waitingWrites k.val))).tier j).unbuffered := by
    rw [hres.tier, hgone.tier]
    exact State.tierKept_tier s k j
  have hcut := State.tier_modTier k.val (TierS.cut (s.waitingWrites k.val)) s
  obtain ⟨-, hh, hheld⟩ := TierS.of_unbuffered (htier k.val)
  rw [hcut] at hh hheld
  have hrun : s.runsKept (s.tierLost k.val) := fun j => by
    rw [(TierS.of_unbuffered (htier j)).1]
    exact (State.runsKept.refl s).modTier k.val (TierS.cut (s.waitingWrites k.val)) (fun _ => rfl) j
  have hstill : (s.tierLost k.val).still := ho.still_runs hst fun j _ => hrun j
  have hf : s.heartbeatLoss k.val [] = (s.tierLost k.val).faultN 3 (42 + 4 * k.val) k.val [] 0 :=
    State.heartbeatLoss_eq hl (by rw [hgone.awake, hkept.awake]; exact hu.awake)
  have hfin := State.faultN_mild_still hwl hml [] 0 hstill
  refine State.completes_always (f := State.heartbeatLoss k.val []) rfl (by rw [hf]; exact hfin) ?_ ?_
  · rw [hf]
    refine (ho.mono (ha := ?_)).trans (hev.mono (ha := ?_))
    · exact fun a h => List.mem_append_left _ h
    · exact fun a h => List.mem_append_right _ h
  rw [hf]
  obtain ⟨htb, hth⟩ := (State.faultN_mild_tiers hwl hml [] 0).held k.val
  refine ⟨?_, ?_, fun n _ hn hret => ?_, ?_, ?_⟩
  · rw [State.carry_tier]
    exact htb.trans hh
  · rw [State.carry_tier]
    exact hth.trans hheld
  · rw [State.carry_chan, hev.chan, hres.chan, hgone.chan]
    exact State.tierKept_asleep s k hn hret
  · rw [State.carry_stack, hev.bursts', hres.bursts', State.tierGone_bursts, hkept.bursts']
  · rw [State.carry_fld, hev.fld _ _ (by decide), hres.fld _ _, State.tierGone, State.fld_bump, State.fld_bump]
    exact State.fld_raise _ _ (by decide) _

end

/-! ### The tier rejoins (R370) -/

/-- A tier as its rejoin begins. -/
def TierS.rejoined (now : Nat) (ref : Int) (x : TierS) : TierS :=
  { x with hbLost := false, cal := { x.cal with pending := none, startAt := some now, refTemp := ref, blocked := false, wanted := false } }

/-- A channel of a tier that rejoins. -/
def State.rejoinChan (n : Nat) (s : State) : State :=
  ((s.startSrExit n).modChan n (fun c => if c.retired then c else { c with pstate := .active, remeasure := false })).chFlags n

theorem State.rejoinChan_only (n : Nat) (s : State) : s.only [.chans, .counts, .regs] [Reg.CH_STATUS n] (s.rejoinChan n) := by
  unfold State.rejoinChan
  exact State.only.step (State.only.modChan _ _ (State.startSrExit_only ..)) (State.chFlags_only ..)

theorem State.rejoinChan_chan (n : Nat) (s : State) : (s.rejoinChan n).chan n =
    if ((s.startSrExit n).chan n).retired then (s.startSrExit n).chan n else { (s.startSrExit n).chan n with pstate := .active, remeasure := false } := by
  unfold State.rejoinChan
  rw [(State.chFlags_only ..).chan, State.chan_modChan]

theorem State.rejoinChan_chan_ne {n m : Nat} (h : m ≠ n) (s : State) : (s.rejoinChan n).chan m = (s.startSrExit n).chan m := by
  unfold State.rejoinChan
  rw [(State.chFlags_only ..).chan, State.chan_modChan_ne h]

theorem State.startSrExit_chan_ne {n m : Nat} (h : m ≠ n) (s : State) : (s.startSrExit n).chan m = s.chan m := by
  unfold State.startSrExit
  split
  · rw [(State.chFlags_only ..).chan, State.chan_modChan_ne h, State.tallyChan_chan_ne h]
  · rfl

theorem State.rejoinChan_retired (n m : Nat) (s : State) : ((s.rejoinChan n).chan m).retired = (s.chan m).retired := by
  have h : ((s.startSrExit n).chan m).retired = (s.chan m).retired := (congrArg ChanS.retired ((State.startSrExit_roused n s).plain m) :)
  by_cases e : m = n
  · rw [e] at h ⊢
    rw [State.rejoinChan_chan]
    split
    · exact h
    · exact h
  · rw [State.rejoinChan_chan_ne e, h]

theorem State.rejoinChan_active (n : Nat) (s : State) : ((s.rejoinChan n).chan n).retired = false → ((s.rejoinChan n).chan n).pstate = .active := by
  rw [State.rejoinChan_chan]
  split
  next h => exact fun hr => absurd hr (by rw [h]; decide)
  · exact fun _ => rfl

theorem State.rejoinChan_active_ne (n m : Nat) (s : State) (h : (s.chan m).retired = false → (s.chan m).pstate = .active) :
    ((s.rejoinChan n).chan m).retired = false → ((s.rejoinChan n).chan m).pstate = .active := by
  by_cases e : m = n
  · subst e
    exact State.rejoinChan_active m s
  · rw [State.rejoinChan_chan_ne e, State.startSrExit_chan_ne e]
    exact h

/-! What the calibration of a rejoin leaves of a tier. -/

/-- A tier, its calibration and its failed cells aside. -/
def TierS.uncalibrated (x : TierS) : TierS := { x with cal := {}, failCells := [] }

theorem State.modTier_uncalibrated (k : Nat) {f : TierS → TierS} (hf : ∀ x, (f x).uncalibrated = x.uncalibrated) (j : Nat) (s : State) :
    ((s.modTier k f).tier j).uncalibrated = (s.tier j).uncalibrated := by
  by_cases e : j = k
  · rw [e, State.tier_modTier, hf]
  · rw [State.tier_modTier_ne e]

/-- Between two states the tiers have changed in their calibration alone. -/
def State.recalibrated (s t : State) : Prop := ∀ j : Nat, (t.tier j).uncalibrated = (s.tier j).uncalibrated

theorem State.recalibrated.refl (s : State) : s.recalibrated s := fun _ => rfl
theorem State.recalibrated.trans {s t u : State} (h : s.recalibrated t) (g : t.recalibrated u) : s.recalibrated u := fun j => (g j).trans (h j)
theorem State.recalibrated.of_only {s t : State} {ps : List Part} {as : List Nat} (h : s.only ps as t) (hp : Part.tiers ∉ ps := by decide) : s.recalibrated t :=
  fun j => by rw [h.tier j hp]

theorem State.calFailed_only (t : Nat) (l : List GroupMargin) (s : State) : s.only [.tiers, .counts] [] (s.calFailed t l) :=
  here.loop _ (fun _ _ => (here.modTier ..).bump ..) _

theorem State.calFailed_calibrated (t : Nat) (l : List GroupMargin) (s : State) : s.recalibrated (s.calFailed t l) := by
  unfold State.calFailed
  refine forEach_keeps (s.recalibrated ·) _ (fun g u h => h.trans ?_) _ s (State.recalibrated.refl s)
  exact State.recalibrated.trans (fun j => State.modTier_uncalibrated t (f := fun y => { y with failCells := AMap.put (cellOf g) true y.failCells }) (fun _ => rfl) j u)
    (State.recalibrated.of_only (ps := [.counts]) (as := []) (here.bump ..))

theorem State.calSwitched_only (t : Nat) (m : AMap MarginS) (s : State) : s.only [.tiers, .regs, .notices, .counts] [Reg.CLK_STATUS] (s.calSwitched t m) := by
  unfold State.calSwitched
  exact State.only.loop _ (fun _ _ => (here.raise ..).notice ..) _ (here.modTier ..)

theorem State.calSwitched_calibrated (t : Nat) (m : AMap MarginS) (s : State) : s.recalibrated (s.calSwitched t m) := by
  unfold State.calSwitched
  dsimp only
  refine forEach_keeps (s.recalibrated ·) _ (fun g u h => h.trans ?_) _ _ ?_
  · exact State.recalibrated.of_only (ps := [.regs, .notices, .counts]) (as := [Reg.CLK_STATUS]) ((here.raise ..).notice ..)
  · intro j
    refine State.modTier_uncalibrated t ?_ j s
    exact fun _ => rfl

theorem State.trainPc_plain (k ca m : Nat) (pins : AMap (Word × Word)) (s : State) :
    ((s.trainPc k ca pins).chan m).pstate = (s.chan m).pstate ∧ ((s.trainPc k ca pins).chan m).retired = (s.chan m).retired := by
  rw [State.trainPc_chan]
  by_cases e : m = k / 2
  · rw [e, State.chan_modChan]
    exact ⟨rfl, rfl⟩
  · rw [State.chan_modChan_ne e]
    exact ⟨rfl, rfl⟩

/-- The pseudo-channels that train as a tier rejoins. -/
def State.trainees (t : Nat) (s : State) : List Nat := ((List.range 16).map (16 * t + ·)).filter (fun n => !(s.chan (n / 2)).retired)

/-- What a training has shown of one pseudo-channel is taken. -/
def State.trainOne (o : TrainObs) (k : Nat) (s : State) : State := s.trainPc k (((o.ca.find? (fun e => e.1 == k)).map (·.2)).getD 0) (pinsOf k o.pins)

theorem State.trained_none {pcs : List Nat} {o : TrainObs} {s : State} (ho : o.failing = []) (hu : s.unnamed pcs o = []) :
    s.trained pcs o = forEach pcs (State.trainOne o) s := by
  have hr : ∀ n, ((forEach pcs (State.trainOne o) s).chan n).retired = (s.chan n).retired := fun n =>
    forEach_keeps (fun u : State => (u.chan n).retired = (s.chan n).retired) (State.trainOne o) (fun k u h => ((State.trainPc_plain ..).2).trans h) pcs s rfl
  have hn : (forEach pcs (State.trainOne o) s).unnamed pcs o = [] := by
    refine Eq.trans ?_ hu
    simp only [State.unnamed, hr]
  unfold State.trained
  rw [ho]
  exact congrArg (fun l => forEach ([] ++ l) State.failElement (forEach pcs (State.trainOne o) s)) hn

theorem State.trainees_only {t : Nat} (ht : t < 4) {o : TrainObs} {s u : State} :
    s.only [.chans, .regs, .counts] ((List.range 32).map Reg.CH_STATUS) (forEach (u.trainees t) (State.trainOne o) s) := by
  refine State.only.each (fun n hn v => ?_) here
  obtain ⟨i, hi, rfl⟩ := List.mem_map.1 (List.mem_of_mem_filter hn)
  have := List.mem_range.1 hi
  exact (State.trainPc_only ..).mono (ha := fun a ha => List.mem_singleton.1 ha ▸ List.mem_map_of_mem (List.mem_range.2 (by omega)))

/-- The held write of a tier is made. -/
def State.makeWrite (w : Acc) (s : State) : State := match w.wr with | some (d, md) => s.setLine w.place d md | none => s

theorem State.makeWrite_only (w : Acc) (s : State) : s.only [.mem] [] (s.makeWrite w) := by
  unfold State.makeWrite
  split
  · exact State.setLine_only ..
  · exact here

/-- A tier with no writes and no poisoned lines held. -/
def TierS.settled (x : TierS) : TierS := { x with held := [] }

section
variable {t : Nat} {w : Acc} {s : State} (hh : (s.tier t).held = [w]) (hp : (s.tier t).poisons = []) (hj : (s.tier t).jNew = 0)
include hh hp hj

theorem State.rejoinWrites_one : s.rejoinWrites t = ((s.modTier t TierS.settled).makeWrite w).modTier t (fun x => { x with poisons := [] }) := by
  have h1 : s.heldWrites t = (s.modTier t TierS.settled).makeWrite w := by
    unfold State.heldWrites
    dsimp only
    rw [hh]
    rfl
  have htier : ((s.modTier t TierS.settled).makeWrite w).tier t = { s.tier t with held := [] } := by
    rw [(State.makeWrite_only ..).tier, State.tier_modTier, TierS.settled]
  unfold State.rejoinWrites
  dsimp only
  rw [h1, htier, hp, forEach_nil, State.journalTell]
  rw [State.tier_modTier, htier]
  exact if_pos hj

theorem State.rejoinWrites_only : s.only [.tiers, .mem] [] (s.rejoinWrites t) := by
  rw [State.rejoinWrites_one hh hp hj]
  exact ((here.modTier ..).step (State.makeWrite_only ..)).modTier ..

theorem State.rejoinWrites_tier : (s.rejoinWrites t).tier t = { s.tier t with held := [], poisons := [] } := by
  rw [State.rejoinWrites_one hh hp hj, State.tier_modTier, (State.makeWrite_only ..).tier, State.tier_modTier, TierS.settled]

theorem State.rejoinWrites_runs : s.runsKept (s.rejoinWrites t) := by
  rw [State.rejoinWrites_one hh hp hj]
  have h1 := (State.runsKept.refl s).modTier t TierS.settled fun _ => rfl
  exact (h1.trans (State.runsKept.of_only (State.makeWrite_only w _))).modTier t _ fun _ => rfl

theorem State.rejoinWrites_line {d : List Byte × Nat} (hw : w.wr = some d) (hl : d.1.length = 128) :
    (s.rejoinWrites t).lineData w.place = d.1 ∧ (s.rejoinWrites t).lineMd w.place = d.2 := by
  have h : ∀ u : State, (u.modTier t (fun x => { x with poisons := [] })).lineData w.place = u.lineData w.place ∧
      (u.modTier t (fun x => { x with poisons := [] })).lineMd w.place = u.lineMd w.place := fun _ => ⟨rfl, rfl⟩
  rw [State.rejoinWrites_one hh hp hj, (h _).1, (h _).2, State.makeWrite, hw]
  exact ⟨State.lineData_setLine w.place hl d.2 _, State.lineMd_setLine ..⟩

end

/-- A tier that rejoins, its channels active, before its calibration. -/
def State.rejoinWoken (t : Nat) (s : State) : State :=
  forEach (tierChans t) State.rejoinChan ((s.modTier t (TierS.rejoined s.now ((s.calTemp t).getD (s.tier t).cal.refTemp))).bump (tierSlot t 12) 1)

/-- A tier that rejoins, calibrated, before its channels train. -/
def State.rejoinSet (t : Nat) (l : List GroupMargin) (s : State) : State :=
  let u := s.rejoinWoken t
  (u.calFailed t l).calSwitched t ((u.calFailed t l).calChoose t l (u.tier t).cal.margins)

theorem State.tierRejoin_eq {t : Nat} (l : List GroupMargin) (o : TrainObs) {s : State} (hl : (s.tier t).hbLost = true) (hw : s.awake = true) :
    s.tierRejoin t l o = ((((s.rejoinSet t l).trained ((s.rejoinSet t l).trainees t) { o with failing := failingOn o t }).rejoinWrites t).copyGo).retryWaits := by
  unfold State.tierRejoin State.rejoinSet State.rejoinWoken State.rejoinChan State.trainees tierChans TierS.rejoined State.calStore
  rw [if_neg (by rw [hl, hw]; decide)]

section
variable (s : State) (k : Fin 4) (l : List GroupMargin)

theorem State.rejoinWoken_only : s.only [.tiers, .chans, .counts, .regs] ((List.range 32).map Reg.CH_STATUS) (s.rejoinWoken k.val) := by
  unfold State.rejoinWoken
  refine State.only.each (fun n hn t => ?_) (State.only.bump _ _ (here.modTier ..))
  exact (State.rejoinChan_only n t).mono (ha := fun a ha => List.mem_singleton.1 ha ▸ chStatus_mem hn)

theorem State.rejoinWoken_tier (j : Nat) : (s.rejoinWoken k.val).tier j =
    (s.modTier k.val (TierS.rejoined s.now ((s.calTemp k.val).getD (s.tier k.val).cal.refTemp))).tier j := by
  unfold State.rejoinWoken
  refine forEach_keeps (fun u : State => u.tier j = _) State.rejoinChan (fun n u hu => ((State.rejoinChan_only n u).tier j).trans hu) _ _ ?_
  exact ((here (ps := [.counts]) (as := [])).bump _ _).tier j

theorem State.rejoinWoken_retired (n : Nat) : ((s.rejoinWoken k.val).chan n).retired = (s.chan n).retired := by
  unfold State.rejoinWoken
  refine forEach_keeps (fun u : State => (u.chan n).retired = (s.chan n).retired) State.rejoinChan (fun m u hu => (State.rejoinChan_retired m n u).trans hu) _ _ ?_
  exact congrArg ChanS.retired (State.only.chan (ps := [.tiers, .counts]) (as := []) (State.only.bump _ _ (here.modTier ..)) n)

theorem State.rejoinWoken_active {n : Nat} (hn : n / 8 = k.val) (hr : (s.chan n).retired = false) : ((s.rejoinWoken k.val).chan n).pstate = .active := by
  have hret := State.rejoinWoken_retired s k n
  unfold State.rejoinWoken at hret ⊢
  exact forEach_reaches (fun m u => (u.chan m).retired = false → (u.chan m).pstate = .active) State.rejoinChan State.rejoinChan_active
    (fun n m u h => State.rejoinChan_active_ne n m u h) _ _ (mem_tierChans.2 hn) (hret.trans hr)

theorem State.rejoinSet_woken : (s.rejoinWoken k.val).only [.tiers, .counts, .regs, .notices] [Reg.CLK_STATUS] (s.rejoinSet k.val l) :=
  State.only.step ((State.calFailed_only ..).mono) (State.calSwitched_only ..)

theorem State.rejoinSet_only : s.only [.tiers, .chans, .counts, .regs, .notices] (Reg.CLK_STATUS :: (List.range 32).map Reg.CH_STATUS) (s.rejoinSet k.val l) :=
  ((State.rejoinWoken_only s k).mono (ha := fun _ h => List.mem_cons_of_mem _ h)).step (State.rejoinSet_woken s k l)

theorem State.rejoinSet_calibrated : (s.rejoinWoken k.val).recalibrated (s.rejoinSet k.val l) :=
  State.recalibrated.trans (State.calFailed_calibrated _ _ _) (State.calSwitched_calibrated _ _ _)

theorem State.rejoinSet_chan (n : Nat) : (s.rejoinSet k.val l).chan n = (s.rejoinWoken k.val).chan n := (State.rejoinSet_woken s k l).chan n

end

theorem TierS.of_uncalibrated {x y : TierS} (h : x.uncalibrated = y.uncalibrated) :
    x.run = y.run ∧ x.hbLost = y.hbLost ∧ x.held = y.held ∧ x.poisons = y.poisons ∧ x.jNew = y.jNew :=
  ⟨(congrArg TierS.run h :), (congrArg TierS.hbLost h :), (congrArg TierS.held h :), (congrArg TierS.poisons h :), (congrArg TierS.jNew h :)⟩

theorem State.trainees_woken (s : State) (k : Fin 4) (l : List GroupMargin) : (s.rejoinSet k.val l).trainees k.val = s.trainees k.val := by
  simp only [State.trainees, State.rejoinSet_chan, State.rejoinWoken_retired]

section
variable {s : State} (hu : s.up) (hst : s.still) {k : Fin 4} {w : Acc} {l : List GroupMargin} {o : TrainObs}
include hu hst

theorem State.completes_tierRejoin (hfail : failingOn o k.val = [])
    (hun : s.unnamed (((List.range 16).map (16 * k.val + ·)).filter (fun n => !(s.chan (n / 2)).retired)) { o with failing := [] } = [])
    (hl : (s.tier k.val).hbLost = true) (hh : (s.tier k.val).held = [w]) (hpo : (s.tier k.val).poisons = []) (hj : (s.tier k.val).jNew = 0)
    (hjobs : s.pool.jobs = []) (hw : s.own.waits = []) (hm : s.own.merges = []) (hp : s.own.parked = []) :
    s.completes (.tierRejoin ⟨k, l, o⟩) [.tiers, .chans, .mem, .counts, .regs, .notices] (Reg.CLK_STATUS :: (List.range 32).map Reg.CH_STATUS)
      (fun t => (t.tier k.val).hbLost = false ∧ (t.tier k.val).held = [] ∧
        (∀ d : List Byte × Nat, w.wr = some d → d.1.length = 128 → t.lineData w.place = d.1 ∧ t.lineMd w.place = d.2) ∧
        ∀ n < 32, n / 8 = k.val → (s.chan n).retired = false → (t.chan n).pstate = .active) := by
  let v := s.rejoinSet k.val l
  let x := forEach (v.trainees k.val) (State.trainOne { o with failing := [] }) v
  have hv := State.rejoinSet_only s k l
  have hx : v.only [.chans, .regs, .counts] ((List.range 32).map Reg.CH_STATUS) x := State.trainees_only k.isLt
  have hvx : s.only [.tiers, .chans, .counts, .regs, .notices] (Reg.CLK_STATUS :: (List.range 32).map Reg.CH_STATUS) x :=
    hv.step hx (ha := fun _ h => List.mem_cons_of_mem _ h)
  have hret (n : Nat) : (v.chan n).retired = (s.chan n).retired := by
    rw [State.rejoinSet_chan, State.rejoinWoken_retired]
  have htr : v.trained (v.trainees k.val) { o with failing := [] } = x := by
    refine State.trained_none rfl (Eq.trans ?_ hun)
    rw [State.trainees_woken]
    simp only [State.unnamed, hret, State.trainees]
  have htier (j : Nat) : (x.tier j).uncalibrated = ((s.modTier k.val (TierS.rejoined s.now ((s.calTemp k.val).getD (s.tier k.val).cal.refTemp))).tier j).uncalibrated := by
    rw [hx.tier, State.rejoinSet_calibrated s k l j, State.rejoinWoken_tier]
  obtain ⟨-, h1, h2, h3, h4⟩ := TierS.of_uncalibrated (htier k.val)
  rw [State.tier_modTier] at h1 h2 h3 h4
  have hheld : (x.tier k.val).held = [w] := h2.trans hh
  have hpois : (x.tier k.val).poisons = [] := h3.trans hpo
  have hjn : (x.tier k.val).jNew = 0 := h4.trans hj
  have hr := State.rejoinWrites_only hheld hpois hjn
  have ho : s.only [.tiers, .chans, .mem, .counts, .regs, .notices] (Reg.CLK_STATUS :: (List.range 32).map Reg.CH_STATUS) (x.rejoinWrites k.val) :=
    (hvx.mono (ha := fun _ h => h)).step hr
  have hf : s.tierRejoin k.val l o = x.rejoinWrites k.val := by
    rw [State.tierRejoin_eq l o hl hu.awake, hfail]
    show (((v.trained (v.trainees k.val) { o with failing := [] }).rejoinWrites k.val).copyGo).retryWaits = _
    rw [htr, State.copyGo_none (by rw [ho.pool']; exact hjobs), State.retryWaits_none (by rw [ho.own']; exact hw) (by rw [ho.own']; exact hm) (by rw [ho.own']; exact hp)]
  have hrun : s.runsKept (x.rejoinWrites k.val) := by
    refine State.runsKept.trans (t := x) (fun j => ?_) (State.rejoinWrites_runs hheld hpois hjn)
    rw [(TierS.of_uncalibrated (htier j)).1]
    exact (State.runsKept.refl s).modTier k.val (TierS.rejoined s.now ((s.calTemp k.val).getD (s.tier k.val).cal.refTemp)) (fun _ => rfl) j
  refine State.completes_always (c := .tierRejoin ⟨k, l, o⟩) (f := State.tierRejoin k.val l o) rfl
    (by rw [hf]; exact ho.still_runs hst fun j _ => hrun j) (by rw [hf]; exact ho) ?_
  rw [hf]
  have hline : ∀ (y : State) (p : Place), (s.carry y).lineData p = y.lineData p ∧ (s.carry y).lineMd p = y.lineMd p := fun _ _ => ⟨rfl, rfl⟩
  refine ⟨?_, ?_, fun d hd hlen => ?_, fun n _ hn hre => ?_⟩
  · rw [State.carry_tier, State.rejoinWrites_tier hheld hpois hjn]
    exact h1
  · rw [State.carry_tier, State.rejoinWrites_tier hheld hpois hjn]
  · rw [(hline _ _).1, (hline _ _).2]
    exact State.rejoinWrites_line hheld hpois hjn hd hlen
  · have hps : (x.chan n).pstate = (v.chan n).pstate :=
      forEach_keeps (fun u : State => (u.chan n).pstate = (v.chan n).pstate) (State.trainOne { o with failing := [] })
        (fun k u h => ((State.trainPc_plain ..).1).trans h) (v.trainees k.val) v rfl
    rw [State.carry_chan, hr.chan, hps, State.rejoinSet_chan]
    exact State.rejoinWoken_active s k hn hre

end

/-! ### The journals are emptied (R371) -/

/-- The row of `CLK.JOURNAL`. -/
def journalRow : RegRow :=
  ⟨"CLK.JOURNAL", 0x20, 4, 1, false,
    [.of "CLR" 31 31 .wo 0 .imm true, .of "OVF" 30 30 .ro 0 .imm true, .of "RSV0" 29 10 .rsv 0 .imm true, .of "COUNT" 9 0 .ro 0 .imm true]⟩

theorem State.resolve_journal {s : State} (h : s.stopped = false) : s.resolve Reg.CLK_JOURNAL = .ok (.clk, 0x20, journalRow) :=
  State.resolve_ok h rfl (fun e => by cases e) (fun e => by cases e) rfl (by decide) rfl

/-- R371: a write of CLR. -/
theorem State.writeParts_journal {s : State} (hu : s.up) (path : Path) :
    s.writeParts path Reg.CLK_JOURNAL [(F.CLK_JOURNAL_CLR, 1)] = some (s.setReg Reg.CLK_JOURNAL (s.reg Reg.CLK_JOURNAL)).journalClear := by
  have hst : s.stopped = false := by simp [State.stopped, hu.awake]
  rw [State.writeParts_command hu path (State.resolve_journal hst) (State.rawView_none (b := .clk) (o := 0x20) rfl (fun e => by cases e) (fun e => by cases e))
    rfl (fun e => by cases e) (fun e => by cases e) (by decide) rfl (by decide) (by decide)]
  show some (when ((0x20 : Nat) == 0x20 && commandOf F.CLK_JOURNAL_CLR 1 F.CLK_JOURNAL_CLR == 1) State.journalClear _) = _
  rw [show ((0x20 : Nat) == 0x20 && commandOf F.CLK_JOURNAL_CLR 1 F.CLK_JOURNAL_CLR == 1) = true by decide, when_true]

/-- A tier with an empty journal. -/
def TierS.unlisted (x : TierS) : TierS := { x with journal := [], jOvf := 0 }

theorem State.journalClear_eq (s : State) : s.journalClear = forEach (List.range 4) (fun t s => s.modTier t TierS.unlisted) s := by
  unfold State.journalClear TierS.unlisted
  rfl

theorem State.journalClear_tier {j : Nat} (hj : j < 4) (s : State) : (s.journalClear.tier j).journal = [] ∧ (s.journalClear.tier j).jOvf = 0 := by
  rw [State.journalClear_eq]
  refine forEach_reaches (fun j u => (u.tier j).journal = [] ∧ (u.tier j).jOvf = 0) _ (fun j u => ?_) (fun k j u h => ?_) _ _ (List.mem_range.2 hj)
  · rw [State.tier_modTier]
    exact ⟨rfl, rfl⟩
  · by_cases e : j = k
    · rw [e, State.tier_modTier]
      exact ⟨rfl, rfl⟩
    · rw [State.tier_modTier_ne e]
      exact h

theorem State.completes_journalClr {s : State} (hu : s.up) (hst : s.still) (path : Path) :
    s.completes (.journalClr path) [.tiers, .regs] [] (fun t => ∀ j < 4, (t.tier j).journal = [] ∧ (t.tier j).jOvf = 0) := by
  let v : State := s.setReg Reg.CLK_JOURNAL (s.reg Reg.CLK_JOURNAL)
  have hv : s.only [.regs] [] v := State.setReg_same_only ..
  have hc : v.only [.tiers] [] v.journalClear := by
    rw [State.journalClear_eq]
    exact here.loop _ (fun _ _ => here.modTier ..) _
  have hrun : s.runsKept v.journalClear := by
    rw [State.journalClear_eq]
    exact (State.runsKept.of_only hv).trans (State.runsKept.loop (fun t u => (State.runsKept.refl u).modTier t TierS.unlisted fun _ => rfl) _ (.refl v))
  have ho : s.only [.tiers, .regs] [] v.journalClear := hv.mono.step hc
  exact State.completes_access rfl ((State.onPath_up hu _ _).trans (State.writeParts_journal hu path)) (ho.still_runs hst fun j _ => hrun j) ho
    fun j hj => by rw [State.carry_tier]; exact State.journalClear_tier hj v

/-- Settles O46: a tier stops with its writes held and its channels in self-refresh, rejoins with them made and active, and its journal is emptied. -/
theorem heartbeat : Obligations.Heartbeat := by
  unfold Obligations.Heartbeat
  intro s k hu hst
  exact ⟨State.completes_heartbeatLoss hu hst, fun w l o hf hun hl hh hpo hj hjobs hw hm hp => State.completes_tierRejoin hu hst hf hun hl hh hpo hj hjobs hw hm hp,
    State.completes_journalClr hu hst⟩

end Sys2Proof.Machine
end

section
/-! PROOFS. The bucket's leak, Ranger and suspect positions (R326 to R332, R340 to R346). -/

set_option Elab.async false

namespace Sys2Proof.Machine
open Sys2Proof
open State.only (here)

/-! ### The leak (R326) -/

theorem AMap.find_mapVal {α : Type} (f : α → α) (k : Nat) : ∀ m : AMap α, AMap.find k (AMap.mapVal f m) = (AMap.find k m).map f
  | [] => rfl
  | (j, v) :: r => by
    show AMap.find k ((j, f v) :: AMap.mapVal f r) = _
    by_cases h : k = j
    · rw [AMap.find, AMap.find, if_pos h, if_pos h]
      rfl
    · rw [AMap.find, AMap.find, if_neg h, if_neg h, AMap.find_mapVal f k r]

/-- A function that keeps an absent key's value is applied at every key. -/
theorem AMap.get_mapVal {α : Type} (f : α → α) (d : α) (hd : f d = d) (k : Nat) (m : AMap α) : AMap.get k d (AMap.mapVal f m) = f (AMap.get k d m) := by
  rw [AMap.get, AMap.get, AMap.find_mapVal]
  cases AMap.find k m with
  | none => exact hd.symm
  | some v => rfl

theorem State.ceLeak_chan (n : Nat) (s : State) : s.ceLeak.chan n = { s.chan n with level := (s.chan n).level - 1 } :=
  AMap.get_mapVal (fun c : ChanS => { c with level := c.level - 1 }) {} rfl n s.stack.chans

theorem State.ceLeak_only (s : State) : s.only [.chans] [] s.ceLeak :=
  ⟨⟨rfl, rfl, rfl⟩, fun p hp => by
    cases p
    case chans => exact absurd (List.mem_singleton.2 rfl) hp
    all_goals simp [Part.same, State.ceLeak], fun _ _ => rfl⟩

/-! ### A visit of Ranger begins (R293, R328 to R330) -/

theorem Place.ofRanger_chan (n i : Nat) : (Place.ofRanger n i).chan = n := by
  show (2 * n + i % 2) / 2 = n
  omega

theorem State.rangerSkip_here {s : State} {n : Nat} (h : s.rangerSkips (Place.ofRanger n (s.chan n).rangerPos) = false) (fuel : Nat) :
    s.rangerSkip n fuel = s := by
  cases fuel with
  | zero => rfl
  | succ fuel => rw [State.rangerSkip, if_neg (by rw [h]; decide)]

/-- An access of the device's own wakes no channel that is active, and meets no stall. -/
theorem State.arriveAt_own {s : State} {a : Acc} (ho : a.ownWork = true) (hp : (s.chan a.place.chan).pstate = .active) :
    s.arriveAt a = s.modChan a.place.chan (fun c => { c with idleAt := s.now }) := by
  have hw : s.wantSrExit a.place.chan = s := by
    unfold State.wantSrExit
    dsimp only
    rw [hp]
    exact ite_self s
  unfold State.arriveAt
  dsimp only
  rw [hw]
  unfold State.stall
  rw [if_pos ho, ite_self]

section
variable {s : State} {n : Nat} (errors verify : List (Nat × Byte))

/-- The state in which Ranger's access to the next place arrives. -/
def State.visiting (n : Nat) (errors verify : List (Nat × Byte)) (s : State) : State :=
  (s.bump (chSlot n 10) 1).modChan n (fun c => { c with visit := some (errors, verify) })

theorem State.visiting_only : s.only [.chans, .counts] [] (s.visiting n errors verify) := (here.bump ..).modChan ..

theorem State.visiting_chan : (s.visiting n errors verify).chan n = { s.chan n with visit := some (errors, verify) } := State.chan_modChan ..

/-- Ranger's access changes no register. -/
theorem State.visited_only (hp : (s.chan n).pstate = .active) :
    s.only [.chans, .pcs, .tiers, .bursts, .counts] []
      ((s.visiting n errors verify).newAcc (Place.ofRanger n (s.chan n).rangerPos) none 15 false .ranger s.now) := by
  have hv := State.visiting_only (s := s) (n := n) errors verify
  have ha : (s.visiting n errors verify).arriving (Place.ofRanger n (s.chan n).rangerPos) none 15 false .ranger s.now =
      ({ s.visiting n errors verify with stack.nextAcc := (s.visiting n errors verify).stack.nextAcc + 1 } : State).modChan
        (Place.ofRanger n (s.chan n).rangerPos).chan (fun c => { c with idleAt := s.now }) := by
    refine State.arriveAt_own rfl ?_
    show ((s.visiting n errors verify).chan (Place.ofRanger n (s.chan n).rangerPos).chan).pstate = .active
    rw [Place.ofRanger_chan, State.visiting_chan]
    exact hp
  refine State.only.step (bs := []) (qs := [.chans, .pcs, .tiers]) (t := (s.visiting n errors verify).arriving (Place.ofRanger n (s.chan n).rangerPos) none 15 false .ranger s.now) ?_ ?_
  · rw [ha]
    exact (hv.mono.nextAcc _).modChan ..
  · exact (State.newAcc_placed ..).only.mono
end

/-- R293, R329: Ranger's visit waits in the queue of its place's bank. -/
theorem State.completes_rangerVisit {s : State} (hu : s.up) (hs : s.still) (n : Fin 32) (hr : s.rangerRuns n.val = true)
    (hk : s.rangerSkips (Place.ofRanger n.val (s.chan n.val).rangerPos) = false) (errors verify : List (Nat × Byte)) :
    s.completes (.rangerVisit n errors verify) [.chans, .pcs, .tiers, .bursts, .counts] []
      (fun t => (t.chan n.val).visit = some (errors, verify) ∧ (t.chan n.val).rangerPos = (s.chan n.val).rangerPos ∧
        t.accWaits (s.metRefresh { id := s.stack.nextAcc, place := Place.ofRanger n.val (s.chan n.val).rangerPos, wr := none, sc := 15,
                                   firm := false, origin := .ranger, time := s.now })) := by
  have hp : (s.chan n.val).pstate = .active := by
    simp only [State.rangerRuns, Bool.and_eq_true, beq_iff_eq] at hr
    tauto
  have hf : whenAwake (State.rangerVisit n.val errors verify) s =
      (s.visiting n.val errors verify).newAcc (Place.ofRanger n.val (s.chan n.val).rangerPos) none 15 false .ranger s.now := by
    rw [whenAwake_true _ _ hu.awake, State.rangerVisit, hr, if_neg (by decide), State.rangerSkip_here hk]
    rfl
  have ho := State.visited_only errors verify hp
  have hruns := (State.runsKept.of_only (State.visiting_only (s := s) (n := n.val) errors verify)).trans
    (State.newAcc_runs (Place.ofRanger n.val (s.chan n.val).rangerPos) none 15 false .ranger s.now (s.visiting n.val errors verify))
  have hpl := State.newAcc_plain (Place.ofRanger n.val (s.chan n.val).rangerPos) none 15 false .ranger s.now (s.visiting n.val errors verify) n.val
  rw [State.visiting_chan] at hpl
  refine State.completes_always rfl (by rw [hf]; exact ho.still_runs hs fun k _ => hruns k) (by rw [hf]; exact ho) ?_
  rw [hf]
  refine ⟨?_, ?_, ?_⟩
  · rw [State.carry_chan]
    exact (congrArg ChanS.visit hpl :)
  · rw [State.carry_chan]
    exact (congrArg ChanS.rangerPos hpl :)
  · exact State.newAcc_waits (Place.ofRanger n.val (s.chan n.val).rangerPos) none 15 false .ranger s.now (s.visiting n.val errors verify)

/-! ### Ranger is late (R330) -/

theorem State.completes_rangerLate {s : State} (hu : s.up) (n : Fin 32) (hret : (s.chan n.val).retired = false)
    (hen : s.fld (Reg.CMN_RANGER_CTL (n.val / 8)) F.CMN_RANGER_CTL_EN = 1) (hl : s.fld (Reg.CH_ECC_STATUS n.val) F.CH_ECC_STATUS_RANGER_LATE = 0) :
    s.completes (.rangerLate n) [.regs, .counts] [Reg.CH_ECC_STATUS n.val] (fun t => t.fld (Reg.CH_ECC_STATUS n.val) F.CH_ECC_STATUS_RANGER_LATE = 1) := by
  have hf : whenAwake (State.rangerLate n.val) s = (s.cond (Reg.CH_ECC_STATUS n.val) F.CH_ECC_STATUS_RANGER_LATE true).bump (chSlot n.val 12) 1 := by
    rw [whenAwake_true _ _ hu.awake, State.rangerLate, hret, hen, hl]
    rfl
  refine State.completes_run rfl (by rw [hf]; exact (here.cond ..).bump ..) ?_
  rw [hf, State.carry_fld, State.fld_bump]
  exact State.fld_cond _ _ (by decide) _ _

/-! ### A column command issues (R290, R292, R295, R296) -/

section
variable (k pos : Nat) (a : Acc) (turn : Option (Bool × List Nat × Nat)) (s : State)

/-- A pseudo-channel has taken a column command: its rotation, its timing and its bank's queue have moved on. -/
def State.columnTaken : State :=
  let s := s.modPc k (fun x => x.rotated turn)
  (s.didIssue k (.col a (a.wr.map (fun _ => (s.lineData a.place, s.lineMd a.place))))).colDone k pos a

theorem State.colDone_only : s.only [.chans, .pcs] [] (s.colDone k pos a) := by
  unfold State.colDone
  exact ((here.modBank ..).modPc ..).modChan ..

theorem State.columnTaken_only : s.only [.chans, .pcs] [] (s.columnTaken k pos a turn) := by
  unfold State.columnTaken State.didIssue
  exact State.only.step ((here.modPc ..).modPc ..) (State.colDone_only ..)

/-- A channel whose tier has paused until another cycle. -/
def ChanS.paused (c : ChanS) (p : Nat) : ChanS := { c with pauseTill := p }

theorem State.colDone_chan : ∃ p : Nat, (s.colDone k pos a).chan (k / 2) = (s.chan (k / 2)).paused p := by
  unfold State.colDone
  dsimp only
  rw [State.chan_modChan, State.only.chan (s := s) (ps := [.pcs]) (as := []) ((here.modBank ..).modPc ..)]
  exact ⟨_, rfl⟩

/-- A column command leaves of its channel everything but the pause of its tier. -/
theorem State.columnTaken_chan : ∃ p : Nat, (s.columnTaken k pos a turn).chan (k / 2) = (s.chan (k / 2)).paused p := by
  unfold State.columnTaken State.didIssue
  dsimp only
  obtain ⟨p, hp⟩ := State.colDone_chan k pos a
    ((s.modPc k (fun x => x.rotated turn)).modPc k (fun x => { x with issued := ((s.now, _) :: x.issued).filter (fun e => decide (s.now ≤ e.1 + Config.T_ALERT)) }))
  exact ⟨p, hp⟩

variable {k pos a turn s}

theorem State.chanPick_column (hi : s.issues (k / 2) = true) : s.chanPick k true = (s.relevel (k / 2)).pickCol k := by
  unfold State.chanPick
  rw [if_pos hi]
  rfl

theorem State.pickCol_ranger (hp : s.pick k true = some (pos, a, turn)) (ho : a.origin = .ranger) :
    s.pickCol k = ((s.columnTaken k pos a turn).visitDone a.place).relevel (k / 2) := by
  unfold State.pickCol
  rw [hp]
  exact if_pos ho
end

/-! ### What a visit does to its line (R326, R329) -/

/-- R326: a correction enters a bucket that has room. -/
theorem State.bucketAdd_room {s : State} {n : Nat} (h : (s.chan n).level < Config.CE_DEPTH) :
    s.bucketAdd n = s.modChan n (fun c => { c with level := c.level + 1 }) := by
  unfold State.bucketAdd
  exact if_pos h

section
variable {s : State} {p : Place} (hl : (s.chan p.chan).level < Config.CE_DEPTH)
include hl

theorem State.corrected_room (syms : Nat) (fix : List Nat) :
    s.only [.counts, .chans, .pcs] [] (s.corrected p syms fix) ∧
      (s.corrected p syms fix).chan p.chan = { s.chan p.chan with level := (s.chan p.chan).level + 1 } := by
  have hb : (s.bump (chSlot p.chan 7) 1).bucketAdd p.chan = (s.bump (chSlot p.chan 7) 1).modChan p.chan (fun c => { c with level := c.level + 1 }) :=
    State.bucketAdd_room hl
  have hc : ((s.bump (chSlot p.chan 7) 1).modChan p.chan (fun c => { c with level := c.level + 1 })).chan p.chan =
      { s.chan p.chan with level := (s.chan p.chan).level + 1 } := State.chan_modChan ..
  unfold State.corrected
  dsimp only
  rw [hb]
  split
  · split
    · exact ⟨((here.bump ..).modChan ..).bump .., hc⟩
    · exact ⟨(here.bump ..).modChan .., hc⟩
  · split
    · exact ⟨(((here.bump ..).modChan ..).bump ..).modPc .., hc⟩
    · exact ⟨((here.bump ..).modChan ..).modPc .., hc⟩

variable {errors : List (Nat × Byte)} {syms : Nat} (hd : lineDecode errors = some ([], syms)) (hm : s.lineMd p < 65536) (hst : mdState (s.lineMd p) < 4)
include hd hm hst

omit hl in
/-- A line whose errors are all corrected is read as it stands. -/
theorem State.decode_corrected : s.decode p errors (s.lineData p) (s.lineMd p) =
    (if syms = 0 then s else s.corrected p syms (correctedAt errors), some (s.lineData p, s.lineMd p, syms != 0)) := by
  have hmd : ofLe (leBytes 4 (s.lineMd p)) % 65536 = s.lineMd p := by
    rw [ofLe_leBytes]
    omega
  unfold State.decode
  rw [hd]
  simp only [List.filterMap_nil, addErrors_nil, hmd]
  rw [if_neg (by omega)]

/-- R329: the visit of a place whose errors are all corrected: its line stands as before, and its bucket counts the correction. -/
theorem State.visitPlace_corrected :
    s.only [.counts, .chans, .pcs, .mem] [] (s.visitPlace p errors []) ∧
      (s.visitPlace p errors []).chan p.chan = { s.chan p.chan with level := if syms = 0 then (s.chan p.chan).level else (s.chan p.chan).level + 1 } ∧
      (s.visitPlace p errors []).lineData p = s.lineData p ∧ (s.visitPlace p errors []).lineMd p = s.lineMd p := by
  have hdec := State.decode_corrected hd hm hst
  have hlen : (s.lineData p).length = 128 := by simp [State.lineData]
  by_cases h0 : syms = 0
  · have hv : s.visitPlace p errors [] = s := by
      unfold State.visitPlace
      rw [hdec, h0]
      rfl
    rw [hv]
    refine ⟨here, ?_, rfl, rfl⟩
    rw [if_pos h0]
  · have hb : (syms != 0) = true := by simpa using h0
    obtain ⟨ho, hc⟩ := State.corrected_room hl syms (correctedAt errors)
    have hv : s.visitPlace p errors [] =
        ((s.corrected p syms (correctedAt errors)).setLine p (s.lineData p) (s.lineMd p)).bump (chSlot p.chan 11) 1 := by
      unfold State.visitPlace
      rw [hdec, if_neg h0, hb]
      dsimp only
      rw [State.decode_clean hm hst]
    have hb (x : State) : (x.bump (chSlot p.chan 11) 1).lineData p = x.lineData p ∧ (x.bump (chSlot p.chan 11) 1).lineMd p = x.lineMd p ∧
        (x.bump (chSlot p.chan 11) 1).chan p.chan = x.chan p.chan := ⟨rfl, rfl, rfl⟩
    obtain ⟨hbd, hbm, hbc⟩ := hb ((s.corrected p syms (correctedAt errors)).setLine p (s.lineData p) (s.lineMd p))
    rw [hv, hbd, hbm, hbc, (State.setLine_only ..).chan, if_neg h0, State.lineData_setLine p hlen, State.lineMd_setLine]
    exact ⟨(ho.mono.step (State.setLine_only ..)).bump .., hc, rfl, rfl⟩
end

section
variable {s : State} {p : Place} {errors : List (Nat × Byte)} {syms : Nat} (hv : (s.chan p.chan).visit = some (errors, []))
  (hl : (s.chan p.chan).level < Config.CE_DEPTH) (hd : lineDecode errors = some ([], syms)) (hm : s.lineMd p < 65536)
  (hst : mdState (s.lineMd p) < 4) (hpos : (s.chan p.chan).rangerPos + 1 < rangerPlaces)
include hv hl hd hm hst hpos

/-- R329, R330: the visit has ended and the pass moves on. -/
theorem State.visitDone_corrected :
    s.only [.counts, .chans, .pcs, .mem] [] (s.visitDone p) ∧
      (s.visitDone p).chan p.chan = { s.chan p.chan with visit := none, rangerPos := (s.chan p.chan).rangerPos + 1,
                                                         level := if syms = 0 then (s.chan p.chan).level else (s.chan p.chan).level + 1 } ∧
      (s.visitDone p).lineData p = s.lineData p ∧ (s.visitDone p).lineMd p = s.lineMd p := by
  obtain ⟨u, hu⟩ : ∃ u, u = s.modChan p.chan (fun c => { c with visit := none }) := ⟨_, rfl⟩
  have huc : u.chan p.chan = { s.chan p.chan with visit := none } := by rw [hu, State.chan_modChan]
  have huo : s.only [.chans] [] u := by rw [hu]; exact here.modChan ..
  have hline : u.lineData p = s.lineData p ∧ u.lineMd p = s.lineMd p := by rw [State.lineData, State.lineMd, huo.mem']; exact ⟨rfl, rfl⟩
  obtain ⟨ho, hc, hdat, hmd⟩ := State.visitPlace_corrected (s := u) (p := p) (by rw [huc]; exact hl) hd (by rw [hline.2]; exact hm) (by rw [hline.2]; exact hst)
  have hf : s.visitDone p = (u.visitPlace p errors []).modChan p.chan (fun c => { c with rangerPos := c.rangerPos + 1 }) := by
    unfold State.visitDone State.rangerNext
    dsimp only
    rw [hv]
    dsimp only
    rw [← hu, if_pos (by rw [hc, huc]; exact hpos)]
  have hk (x : State) (f : ChanS → ChanS) : (x.modChan p.chan f).lineData p = x.lineData p ∧ (x.modChan p.chan f).lineMd p = x.lineMd p := ⟨rfl, rfl⟩
  rw [hf, (hk _ _).1, (hk _ _).2, hdat, hmd, hline.1, hline.2]
  refine ⟨(huo.mono.trans ho).modChan .., ?_, rfl, rfl⟩
  rw [State.chan_modChan, hc, huc]
end

/-- R293, R329: the pick of Ranger's access runs its visit. -/
theorem State.completes_pick_ranger {s : State} (hs : s.still) (hu : s.up) (k : Fin 64) {pos : Nat} {a : Acc} {turn : Option (Bool × List Nat × Nat)}
    {errors : List (Nat × Byte)} {syms : Nat} (hi : s.issues (k.val / 2) = true) (hp : (s.relevel (k.val / 2)).pick k.val true = some (pos, a, turn))
    (ho : a.origin = .ranger) (hpc : a.place.pc = k.val) (hv : (s.chan (k.val / 2)).visit = some (errors, [])) (hd : lineDecode errors = some ([], syms))
    (hl : (s.chan (k.val / 2)).level < Config.CE_DEPTH) (hpos : (s.chan (k.val / 2)).rangerPos + 1 < rangerPlaces) (hm : s.lineMd a.place < 65536)
    (hst : mdState (s.lineMd a.place) < 4) :
    s.completes (.channelPick k true) [.chans, .pcs, .mem, .counts, .regs, .notices] [Reg.SVC_STATUS]
      (fun t => (t.chan (k.val / 2)).visit = none ∧ (t.chan (k.val / 2)).rangerPos = (s.chan (k.val / 2)).rangerPos + 1 ∧
        (t.chan (k.val / 2)).level = (if syms = 0 then (s.chan (k.val / 2)).level else (s.chan (k.val / 2)).level + 1) ∧
        t.lineData a.place = s.lineData a.place ∧ t.lineMd a.place = s.lineMd a.place) := by
  have hn : a.place.chan = k.val / 2 := by rw [Place.chan, hpc]
  obtain ⟨r, hr⟩ : ∃ r, r = s.relevel (k.val / 2) := ⟨_, rfl⟩
  have hro : s.only [.chans, .regs, .notices, .counts] [Reg.SVC_STATUS] r := by rw [hr]; exact State.relevel_only ..
  have hrp : (r.chan (k.val / 2)).plain = (s.chan (k.val / 2)).plain := by rw [hr]; exact (State.relevel_roused ..).plain _
  rw [← hr] at hp
  have hco := State.columnTaken_only k.val pos a turn r
  obtain ⟨q, hcc⟩ := State.columnTaken_chan k.val pos a turn r
  have hf : whenAwake (State.chanPick k.val true) s = ((r.columnTaken k.val pos a turn).visitDone a.place).relevel (k.val / 2) := by
    rw [whenAwake_true _ _ hu.awake, State.chanPick_column hi, ← hr, State.pickCol_ranger hp ho]
  generalize r.columnTaken k.val pos a turn = w at hco hcc hf
  have hwl : (w.chan a.place.chan).level = (s.chan (k.val / 2)).level := by rw [hn, hcc]; exact (congrArg ChanS.level hrp :)
  have hwv : (w.chan a.place.chan).visit = (s.chan (k.val / 2)).visit := by rw [hn, hcc]; exact (congrArg ChanS.visit hrp :)
  have hwp : (w.chan a.place.chan).rangerPos = (s.chan (k.val / 2)).rangerPos := by rw [hn, hcc]; exact (congrArg ChanS.rangerPos hrp :)
  have hwm : w.mem = s.mem := hco.mem'.trans hro.mem'
  have hline : w.lineData a.place = s.lineData a.place ∧ w.lineMd a.place = s.lineMd a.place := by
    rw [State.lineData, State.lineMd, hwm]
    exact ⟨rfl, rfl⟩
  obtain ⟨hvo, hvc, hvd, hvm⟩ := State.visitDone_corrected (s := w) (p := a.place) (by rw [hwv, hv]) (by rw [hwl]; exact hl) hd (by rw [hline.2]; exact hm)
    (by rw [hline.2]; exact hst) (by rw [hwp]; exact hpos)
  rw [hwl, hwp] at hvc
  rw [hn] at hvc
  generalize w.visitDone a.place = v at hvo hvc hvd hvm hf
  have hrel := State.relevel_only (k.val / 2) v
  have hpl := (State.relevel_roused (k.val / 2) v).plain (k.val / 2)
  have hall : s.only [.chans, .pcs, .mem, .counts, .regs, .notices] [Reg.SVC_STATUS] (v.relevel (k.val / 2)) :=
    ((hro.mono.step hco).step hvo).step hrel
  have hdat : (v.relevel (k.val / 2)).lineData a.place = v.lineData a.place ∧ (v.relevel (k.val / 2)).lineMd a.place = v.lineMd a.place := by
    rw [State.lineData, State.lineMd, hrel.mem']
    exact ⟨rfl, rfl⟩
  have hcar (x : State) : (s.carry x).lineData a.place = x.lineData a.place ∧ (s.carry x).lineMd a.place = x.lineMd a.place := ⟨rfl, rfl⟩
  rw [hvc] at hpl
  refine State.completes_always rfl (by rw [hf]; exact hall.still hs) (by rw [hf]; exact hall) ?_
  rw [hf, State.carry_chan, (hcar _).1, (hcar _).2, hdat.1, hdat.2, hvd, hvm, hline.1, hline.2]
  exact ⟨(congrArg ChanS.visit hpl :), (congrArg ChanS.rangerPos hpl :), (congrArg ChanS.level hpl :), rfl, rfl⟩

end Sys2Proof.Machine
end

section
/-! PROOFS. The test of a suspect position, and the end of a switch to half width (R332, R340 to R346). -/

set_option Elab.async false

namespace Sys2Proof.Machine
open Sys2Proof
open State.only (here)

/-! ### The entries of a crossing position (R334, R474) -/

/-- What of a channel its error log is not. -/
def ChanS.unlogged (c : ChanS) : ChanS := { c with elog := [], elogNew := 0, elogCount := 0 }

/-- Between two states nothing of the channels but their error logs has changed. -/
def State.logsOnly (s t : State) : Prop := ∀ m : Nat, (t.chan m).unlogged = (s.chan m).unlogged

theorem State.logsOnly.trans {s t u : State} (h : s.logsOnly t) (g : t.logsOnly u) : s.logsOnly u := fun m => (g m).trans (h m)

theorem State.logsOnly.of_only {s t : State} {ps : List Part} {as : List Nat} (h : s.only ps as t) (hp : Part.chans ∉ ps := by decide) : s.logsOnly t :=
  fun m => by rw [h.chan m hp]

theorem State.logsOnly.modChan (n : Nat) {f : ChanS → ChanS} (hf : ∀ c, (f c).unlogged = c.unlogged) (s : State) : s.logsOnly (s.modChan n f) := by
  intro m
  by_cases h : m = n
  · rw [h, State.chan_modChan, hf]
  · rw [State.chan_modChan_ne h]

section
variable (n : Nat) (p : Place) (kind syms pin : Nat) (line : Option Nat) (s : State)

theorem State.elog_only : s.only [.chans] [] (s.elog n p kind syms pin line) := by
  unfold State.elog
  dsimp only
  split
  · split
    · exact here.modChan ..
    · exact here.modChan ..
  · exact here.modChan ..

theorem State.elog_logs : s.logsOnly (s.elog n p kind syms pin line) := by
  unfold State.elog
  dsimp only
  split
  · split
    · refine State.logsOnly.modChan n ?_ s
      exact fun _ => rfl
    · refine State.logsOnly.modChan n ?_ s
      exact fun _ => rfl
  · refine State.logsOnly.modChan n ?_ s
    exact fun _ => rfl
end

section
variable (src grp unit sev code count : Nat) (args : List Byte) {s : State} (h : s.flt.blaze.f2 = none)
include h

/-- R474: an entry that finds room. -/
theorem State.blazeAt_room : (s.blazeAt src grp unit sev code count args).1 = s.blazePut src grp unit sev code count args := by
  unfold State.blazeAt
  rw [h]
  rfl

omit h in
theorem State.blazePut_only (s : State) : s.only [.blaze, .counts] [] (s.blazePut src grp unit sev code count args) := (here.blaze _).bump ..
end

section
variable (kind t g x : Nat) (ns : List Nat) (at_ : Place × Nat) {s : State} (h : s.flt.blaze.f2 = none)
include h

/-- The entries of a position in the error logs of its channels. -/
def State.positionLogged (kind g x : Nat) (ns : List Nat) (at_ : Place × Nat) (s : State) : State :=
  forEach ns (fun n s => s.elog n { at_.1 with pc := if at_.1.chan = n then at_.1.pc else 2 * n } kind at_.2 (posPin g x) none) s

omit h in
theorem State.positionLogged_only (s : State) : s.only [.chans] [] (s.positionLogged kind g x ns at_) :=
  State.only.loop _ (fun _ _ => State.elog_only ..) _ here

omit h in
theorem State.positionLogged_logs (s : State) : s.logsOnly (s.positionLogged kind g x ns at_) :=
  forEach_keeps (s.logsOnly ·) _ (fun _ _ hm => hm.trans (State.elog_logs _ _ _ _ _ _ _)) ns s (fun _ => rfl)

theorem State.crossingLog_eq : s.crossingLog kind t g x ns at_ = (s.positionLogged kind g x ns at_).blazePut 255 255 0 0 0x0008 0
    (leBytes 1 kind ++ leBytes 1 t ++ leBytes 1 g ++ leBytes 1 (groupBoundary t g) ++ leBytes 2 x) :=
  State.blazeAt_room _ _ _ _ _ _ _ (s := s.positionLogged kind g x ns at_) (by rw [(State.positionLogged_only ..).blaze', h])

theorem State.crossingLog_only : s.only [.chans, .blaze, .counts] [] (s.crossingLog kind t g x ns at_) := by
  rw [State.crossingLog_eq kind t g x ns at_ h]
  exact (State.positionLogged_only kind g x ns at_ s).mono.step (State.blazePut_only ..)

theorem State.crossingLog_logs : s.logsOnly (s.crossingLog kind t g x ns at_) := by
  rw [State.crossingLog_eq kind t g x ns at_ h]
  exact (State.positionLogged_logs kind g x ns at_ s).trans (State.logsOnly.of_only (State.blazePut_only ..))

theorem State.crossingLog_f2 : (s.crossingLog kind t g x ns at_).flt.blaze.f2 = none := by
  rw [State.crossingLog_eq kind t g x ns at_ h]
  show (s.positionLogged kind g x ns at_).flt.blaze.f2 = none
  rw [(State.positionLogged_only ..).blaze', h]
end

/-! ### The test of a suspect position (R332) -/

section
variable (t g x pc : Nat) {s : State} (h : s.flt.blaze.f2 = none)
include h

/-- The entry, the flag and the end of the suspicion with which every test of a position ends. -/
def State.suspicionEnded (t g x pc : Nat) (s : State) : State :=
  ((s.crossingLog 4 t g x [pc / 2] ((s.pc pc).lastHit.getD (posPlace t g x))).raise (Reg.CH_ECC_STATUS (pc / 2)) F.CH_ECC_STATUS_PIN_SUSPECT).modPc pc
    (fun k => { k with hits := [], suspect := [] })

theorem State.suspicionEnded_only : s.only [.chans, .pcs, .blaze, .regs, .counts] [Reg.CH_ECC_STATUS (pc / 2)] (s.suspicionEnded t g x pc) := by
  unfold State.suspicionEnded
  exact ((State.crossingLog_only 4 t g x _ _ h).mono.raise ..).modPc ..

omit h in
theorem State.suspicionEnded_hits (s : State) : ((s.suspicionEnded t g x pc).pc pc).hits = [] := by
  unfold State.suspicionEnded
  rw [State.pc_modPc]

omit h in
theorem State.suspicionEnded_flag (s : State) : (s.suspicionEnded t g x pc).fld (Reg.CH_ECC_STATUS (pc / 2)) F.CH_ECC_STATUS_PIN_SUSPECT = 1 := by
  unfold State.suspicionEnded
  rw [State.only.fld (ps := [.pcs]) (as := []) (here.modPc ..)]
  exact State.fld_raise _ _ (by decide) _

theorem State.suspicionEnded_logs : s.logsOnly (s.suspicionEnded t g x pc) :=
  (State.crossingLog_logs 4 t g x [pc / 2] ((s.pc pc).lastHit.getD (posPlace t g x)) h).trans
    (State.logsOnly.of_only (ps := [.regs, .pcs]) (as := [Reg.CH_ECC_STATUS (pc / 2)]) (by unfold State.suspicionEnded; exact (here.raise ..).modPc ..))
end

/-! ### A position that fails (R341 to R343) -/

theorem State.freeSpare_congr {s u : State} {t : Nat} (h : u.tier t = s.tier t) (g : Nat) : u.freeSpare t g = s.freeSpare t g := by
  simp only [State.freeSpare, h]

/-- Whether a spare in service serves a position. -/
def SpareS.serves (e : Nat × SpareS) (g x : Nat) : Bool := e.1 / 64 == g && e.2.assigned && !e.2.failed && e.2.position == x

/-- The spare that has served a position that fails has failed with it. -/
def State.sparesFailed (t g x : Nat) (s : State) : State :=
  s.modTier t (fun y => { y with spares := y.spares.map (fun e => if SpareS.serves e g x then (e.1, { e.2 with failed := true }) else e) })

section
variable {t g x : Nat} {at_ : Place × Nat} {s : State} (hk : posKind t g x ≠ .unused) (hg : groupExists t g = true)
  (hsp : (s.tier t).spares.all (fun e => !SpareS.serves e g x) = true) (hts : (s.tier t).toSteer = [])
include hsp

theorem State.sparesFailed_tier (k : Nat) : (s.sparesFailed t g x).tier k = s.tier k := by
  unfold State.sparesFailed
  by_cases e : k = t
  · subst e
    rw [State.tier_modTier]
    have hm : (s.tier k).spares.map (fun e => if SpareS.serves e g x then (e.1, { e.2 with failed := true }) else e) = (s.tier k).spares := by
      refine (List.map_congr_left fun e he => ?_).trans (List.map_id _)
      rw [if_neg (by simpa using List.all_eq_true.1 hsp e he)]
      rfl
    rw [hm]
  · rw [State.tier_modTier_ne e]

include hk hg hts

theorem State.failPosition_eq : s.failPosition t g x at_ = (match s.freeSpare t g with
    | some i => (s.sparesFailed t g x).modTier t (fun y =>
        { y with toSteer := y.toSteer ++ [(g, i, x, at_)], failedPos := AMap.put (g * 2048 + x) true y.failedPos })
    | none => (s.sparesFailed t g x).windthrow t g x at_) := by
  have ht := State.sparesFailed_tier hsp t
  rw [← State.freeSpare_congr ht g]
  unfold State.failPosition
  rw [if_neg (by rw [hg]; simp [hk])]
  refine if_neg (c := ((s.sparesFailed t g x).tier t).toSteer.any (fun e => e.1 == g && e.2.2.1 == x) = true) ?_
  rw [ht, hts]
  exact Bool.false_ne_true
end

/-- R343, R344: a data position of a channel of full width without a free spare puts the channel on its way to half width. -/
theorem State.windthrow_half {t g x pc : Nat} {at_ : Place × Nat} {s : State} (hk : posKind t g x = .data pc) (h1 : (s.chan (pc / 2)).retired = false)
    (h2 : (s.chan (pc / 2)).half = none) (h3 : (s.chan (pc / 2)).toHalf = none) : s.windthrow t g x at_ =
      (s.modChan (pc / 2) (fun c => { c with switchAt := some s.now, toHalf := some (pc % 2 == 0), halfFrom := some (g, x, at_) })).modTier t
        (fun y => { y with failedPos := AMap.put (g * 2048 + x) true y.failedPos }) := by
  unfold State.windthrow
  rw [hk]
  dsimp only
  rw [if_neg (by rw [h1]; decide), h2, h3]

/-! ### How the test ends -/

section
variable {s : State} (hu : s.up) (hs : s.still) (q : PinTest) (hg : groupExists q.tier.val q.group = true)
  (hk : posKind q.tier.val q.group q.position = .data q.pc.val) (hq : (s.pc q.pc.val).suspect ≠ []) (hf2 : s.flt.blaze.f2 = none)
include hu hg hk hq

/-- The state in which the result of a test counts. -/
def State.tested (q : PinTest) (s : State) : State := s.suspicionEnded q.tier.val q.group q.position q.pc.val

omit hu hg hk hq in
include hf2 in
theorem State.tested_spec (slot : Nat) {w : State} (hw : (s.tested q).bump slot 1 = w) :
    s.only [.chans, .pcs, .blaze, .regs, .counts] [Reg.CH_ECC_STATUS (q.pc.val / 2)] w ∧ s.logsOnly w ∧ (w.pc q.pc.val).hits = [] ∧
      w.fld (Reg.CH_ECC_STATUS (q.pc.val / 2)) F.CH_ECC_STATUS_PIN_SUSPECT = 1 := by
  have h1 := State.suspicionEnded_only q.tier.val q.group q.position q.pc.val hf2
  have h2 := State.suspicionEnded_logs q.tier.val q.group q.position q.pc.val hf2
  have h3 := State.suspicionEnded_hits q.tier.val q.group q.position q.pc.val s
  have h4 := State.suspicionEnded_flag q.tier.val q.group q.position q.pc.val s
  unfold State.tested at hw
  generalize s.suspicionEnded q.tier.val q.group q.position q.pc.val = v at hw h1 h2 h3 h4
  have hb : v.only [.counts] [] w := by rw [← hw]; exact here.bump ..
  rw [hb.pc, hb.fld]
  exact ⟨h1.step hb, h2.trans (State.logsOnly.of_only hb), h3, h4⟩

theorem State.pinTest_eq : whenAwake (State.pinTest q.tier q.group q.position q.pc q.pass) s =
    (if q.pass then (s.tested q).bump (chSlot (q.pc.val / 2) 18) 1
      else ((s.tested q).bump (chSlot (q.pc.val / 2) 19) 1).failPosition q.tier.val q.group q.position
        ((s.pc q.pc.val).lastHit.getD (posPlace q.tier.val q.group q.position))) := by
  rw [whenAwake_true _ _ hu.awake]
  unfold State.pinTest
  refine (if_pos ?_).trans ?_
  · simp [hg, hk, hq]
  · unfold State.pinTested State.tested State.suspicionEnded
    rfl

include hs hf2

theorem State.completes_pinTest_pass (hp : q.pass = true) :
    s.completes (.pinTestDone q) [.chans, .pcs, .blaze, .regs, .counts] [Reg.CH_ECC_STATUS (q.pc.val / 2)]
      (fun t => (t.pc q.pc.val).hits = [] ∧ t.fld (Reg.CH_ECC_STATUS (q.pc.val / 2)) F.CH_ECC_STATUS_PIN_SUSPECT = 1) := by
  have hf := State.pinTest_eq hu q hg hk hq
  rw [if_pos hp] at hf
  obtain ⟨w, hw⟩ : ∃ w, (s.tested q).bump (chSlot (q.pc.val / 2) 18) 1 = w := ⟨_, rfl⟩
  rw [hw] at hf
  obtain ⟨ho, -, hh, hfl⟩ := State.tested_spec q hf2 _ hw
  refine State.completes_always rfl (by rw [hf]; exact ho.still hs) (by rw [hf]; exact ho) ?_
  rw [hf, State.carry_pc, State.carry_fld]
  exact ⟨hh, hfl⟩

/-- R341 to R343: what the failure of a position does is left to what follows the test. -/
theorem State.completes_pinTest_fail {P : State → Prop} (hp : q.pass = false)
    (hsp : (s.tier q.tier.val).spares.all (fun e => !SpareS.serves e q.group q.position) = true) (hts : (s.tier q.tier.val).toSteer = [])
    (hw : ∀ u v : State, s.only [.chans, .pcs, .blaze, .regs, .counts, .tiers] [Reg.CH_ECC_STATUS (q.pc.val / 2)] u → s.logsOnly u →
      (∀ k, u.tier k = s.tier k) → (u.pc q.pc.val).hits = [] →
      v = (match s.freeSpare q.tier.val q.group with
        | some i => u.modTier q.tier.val (fun y => { y with
            toSteer := y.toSteer ++ [(q.group, i, q.position, (s.pc q.pc.val).lastHit.getD (posPlace q.tier.val q.group q.position))],
            failedPos := AMap.put (q.group * 2048 + q.position) true y.failedPos })
        | none => u.windthrow q.tier.val q.group q.position ((s.pc q.pc.val).lastHit.getD (posPlace q.tier.val q.group q.position))) →
      s.only [.chans, .pcs, .blaze, .regs, .counts, .tiers] [Reg.CH_ECC_STATUS (q.pc.val / 2)] v ∧ s.runsKept v ∧ P (s.carry v)) :
    s.completes (.pinTestDone q) [.chans, .pcs, .blaze, .regs, .counts, .tiers] [Reg.CH_ECC_STATUS (q.pc.val / 2)] P := by
  have hf := State.pinTest_eq hu q hg hk hq
  rw [if_neg (by rw [hp]; decide)] at hf
  obtain ⟨w, hw19⟩ : ∃ w, (s.tested q).bump (chSlot (q.pc.val / 2) 19) 1 = w := ⟨_, rfl⟩
  rw [hw19] at hf
  obtain ⟨ho, hl, hh, -⟩ := State.tested_spec q hf2 _ hw19
  have hwt (k : Nat) : w.tier k = s.tier k := ho.tier k
  have hsp' : (w.tier q.tier.val).spares.all (fun e => !SpareS.serves e q.group q.position) = true := by rw [hwt]; exact hsp
  rw [State.failPosition_eq (by rw [hk]; exact PosKind.noConfusion) hg hsp' (by rw [hwt]; exact hts), State.freeSpare_congr (hwt _)] at hf
  have hwo : w.only [.tiers] [] (w.sparesFailed q.tier.val q.group q.position) := here.modTier ..
  obtain ⟨ho2, hr2, hP⟩ := hw (w.sparesFailed q.tier.val q.group q.position) _ (ho.mono.step hwo) (hl.trans (State.logsOnly.of_only hwo))
    (fun k => (State.sparesFailed_tier hsp' k).trans (hwt k)) (by rw [hwo.pc]; exact hh) hf
  exact State.completes_always rfl (ho2.still_runs hs fun k _ => hr2 k) ho2 hP

theorem State.completes_pinTest_steer (i : Nat) (hp : q.pass = false) (hsp : (s.tier q.tier.val).spares = []) (hts : (s.tier q.tier.val).toSteer = [])
    (hi : s.freeSpare q.tier.val q.group = some i) :
    s.completes (.pinTestDone q) [.chans, .pcs, .blaze, .regs, .counts, .tiers] [Reg.CH_ECC_STATUS (q.pc.val / 2)]
      (fun t => (t.pc q.pc.val).hits = [] ∧ (t.tier q.tier.val).toSteer =
        [(q.group, i, q.position, (s.pc q.pc.val).lastHit.getD (posPlace q.tier.val q.group q.position))]) := by
  refine State.completes_pinTest_fail hu hs q hg hk hq hf2 hp (by rw [hsp]; rfl) hts ?_
  intro u v hu' _ ht hh hv
  rw [hi] at hv
  have hr : s.runsKept u := fun k => by rw [ht]
  rw [hv, State.carry_pc, State.carry_tier, State.tier_modTier, ht, hts]
  exact ⟨hu'.modTier .., hr.modTier _ _ fun _ => rfl, hh, rfl⟩

theorem State.completes_pinTest_throw (hp : q.pass = false) (hi : s.freeSpare q.tier.val q.group = none)
    (hsp : (s.tier q.tier.val).spares.all (fun e => !SpareS.serves e q.group q.position) = true) (hts : (s.tier q.tier.val).toSteer = [])
    (hret : (s.chan (q.pc.val / 2)).retired = false) (hh : (s.chan (q.pc.val / 2)).half = none) (hth : (s.chan (q.pc.val / 2)).toHalf = none) :
    s.completes (.pinTestDone q) [.chans, .pcs, .blaze, .regs, .counts, .tiers] [Reg.CH_ECC_STATUS (q.pc.val / 2)]
      (fun t => (t.chan (q.pc.val / 2)).switchAt = some s.now ∧ (t.chan (q.pc.val / 2)).toHalf = some (q.pc.val % 2 == 0) ∧
        (t.chan (q.pc.val / 2)).halfFrom =
          some (q.group, q.position, (s.pc q.pc.val).lastHit.getD (posPlace q.tier.val q.group q.position))) := by
  refine State.completes_pinTest_fail hu hs q hg hk hq hf2 hp hsp hts ?_
  intro u v hu' hl ht _ hv
  rw [hi] at hv
  have hr : s.runsKept u := fun k => by rw [ht]
  have hc := hl (q.pc.val / 2)
  have h1 : (u.chan (q.pc.val / 2)).retired = false := (congrArg ChanS.retired hc :).trans hret
  have h2 : (u.chan (q.pc.val / 2)).half = none := (congrArg ChanS.half hc :).trans hh
  have h3 : (u.chan (q.pc.val / 2)).toHalf = none := (congrArg ChanS.toHalf hc :).trans hth
  rw [hv, State.windthrow_half hk h1 h2 h3, hu'.now']
  refine ⟨(hu'.modChan ..).modTier .., ?_, ?_⟩
  · refine State.runsKept.modTier (hr.trans (State.runsKept.of_only (ps := [.chans]) (as := []) (here.modChan ..))) _ _ fun _ => rfl
  · rw [State.carry_chan, State.only.chan (ps := [.tiers]) (as := []) (here.modTier ..), State.chan_modChan]
    exact ⟨rfl, rfl, rfl⟩
end

/-! ### The switch to half width ends (R344 to R346) -/

theorem State.chFlags_half (n : Nat) (s : State) : (s.chFlags n).fld (Reg.CH_STATUS n) F.CH_STATUS_HALF = b2n (s.chan n).half.isSome := by
  unfold State.chFlags
  dsimp only
  rw [State.fld_cond_apart _ _ _ (by decide) (by decide) (by decide), State.fld_cond_apart _ _ _ (by decide) (by decide) (by decide),
    State.fld_cond_apart _ _ _ (by decide) (by decide) (by decide), State.fld_cond _ _ (by decide)]

section
variable (t g x n : Nat) (at_ : Place × Nat) {s : State} (h : s.flt.blaze.f2 = none)
include h

omit h in
/-- R344: a windthrow of one channel is recorded. -/
theorem State.throwRecord_eq : s.throwRecord t g x [n] at_ =
    (((s.crossingLog 6 t g x [n] at_).raise (Reg.CH_ECC_STATUS n) F.CH_ECC_STATUS_WINDTHROW).bump (chSlot n 21) 1).modTier t
      (fun y => { y with thrown := AMap.put g true y.thrown }) := rfl

theorem State.throwRecord_spec {u : State} (hu : s.throwRecord t g x [n] at_ = u) :
    s.only [.chans, .blaze, .counts, .regs, .tiers] [Reg.CH_ECC_STATUS n] u ∧ s.logsOnly u ∧ s.runsKept u ∧ u.flt.blaze.f2 = none ∧
      u.fld (Reg.CH_ECC_STATUS n) F.CH_ECC_STATUS_WINDTHROW = 1 := by
  have h1 := State.crossingLog_only 6 t g x [n] at_ h
  have h2 := State.crossingLog_logs 6 t g x [n] at_ h
  have h3 := State.crossingLog_f2 6 t g x [n] at_ h
  rw [State.throwRecord_eq t g x n at_] at hu
  generalize s.crossingLog 6 t g x [n] at_ = v at hu h1 h2 h3
  have hflag : ((v.raise (Reg.CH_ECC_STATUS n) F.CH_ECC_STATUS_WINDTHROW)).fld (Reg.CH_ECC_STATUS n) F.CH_ECC_STATUS_WINDTHROW = 1 :=
    State.fld_raise _ _ (by decide) _
  have hv : v.only [.regs] [Reg.CH_ECC_STATUS n] (v.raise (Reg.CH_ECC_STATUS n) F.CH_ECC_STATUS_WINDTHROW) := here.raise ..
  generalize v.raise (Reg.CH_ECC_STATUS n) F.CH_ECC_STATUS_WINDTHROW = w at hu hv hflag
  have hw : w.only [.counts, .tiers] [] u := by rw [← hu]; exact (here.bump ..).modTier ..
  have hr : w.runsKept u := by rw [← hu]; exact State.runsKept.modTier (State.runsKept.bump (State.runsKept.refl w) _ _) _ _ fun _ => rfl
  refine ⟨(h1.mono.step hv).step hw, h2.trans ((State.logsOnly.of_only hv).trans (State.logsOnly.of_only hw)),
    (State.runsKept.of_only h1).trans ((State.runsKept.of_only hv).trans hr), ?_, ?_⟩
  · rw [hw.blaze', hv.blaze', h3]
  · rw [hw.fld, hflag]
end

section
variable {s : State} {n kind : Nat} (hw : s.awake = true) (hm : s.mild (45 + 4 * (n / 8)) n)
include hw hm

/-- R344: the event of a windthrow that is not FATAL. -/
theorem State.throwEvent_only : s.only mildParts eventRegs (s.throwEvent n kind) ∧ s.runsKept (s.throwEvent n kind) := by
  unfold State.throwEvent
  generalize [BitVec.ofNat 8 (n / 8), BitVec.ofNat 8 (n % 8), BitVec.ofNat 8 kind] = pl
  have hn : s.only [.notices, .counts] [] (s.notice 0x09 2 pl) := here.notice ..
  have hw' : (s.notice 0x09 2 pl).awake = true := by rw [hn.awake, hw]
  have hm' : (s.notice 0x09 2 pl).mild (45 + 4 * (n / 8)) n := hn.mild hm (by simp)
  exact ⟨hn.mono.step (State.faultN_mild_only hw' hm' pl 0) (ha := fun _ h => h),
    (State.runsKept.of_only hn).trans fun k => (State.faultN_mild_tiers hw' hm' pl 0).run k⟩
end

section
variable {s : State} (n : Nat) (b : Bool)

/-- The channel whose switch has ended, with the accesses that met it counted. -/
def State.halved (n : Nat) (b : Bool) (s : State) : State :=
  ((forEach ((s.chanAccs n).filter (fun a => a.firm)) State.stall s).modChan n
    (fun c => { c with half := some b, toHalf := none, halfFrom := none, switchAt := none })).chFlags n

/-- The windthrow that halves a channel is recorded with the end of its switch. -/
def State.halfThrown (n : Nat) (src : Option (Nat × Nat × Place × Nat)) (s : State) : State :=
  match src with
  | some (g, x, at_) => s.throwRecord (n / 8) g x [n] at_
  | none => s

theorem State.halfResume_eq {v : Nat} (h1 : (s.chan n).switchAt = some v) (h2 : (s.chan n).toHalf = some b) :
    s.halfResume n = (((s.halved n b).halfThrown n (s.chan n).halfFrom).throwEvent n 0).relocate.poolFlags := by
  unfold State.halfResume
  simp only [h1, h2]
  rfl

theorem State.halved_spec {u : State} (hu : s.halved n b = u) :
    s.only [.counts, .regs, .chans] [Reg.CH_STATUS n, Reg.NDL_PATH_STATUS] u ∧
      u.chan n = { s.chan n with half := some b, toHalf := none, halfFrom := none, switchAt := none } ∧
      u.fld (Reg.CH_STATUS n) F.CH_STATUS_HALF = 1 := by
  have h1 : s.only [.counts, .regs] [Reg.NDL_PATH_STATUS] (forEach ((s.chanAccs n).filter (fun a => a.firm)) State.stall s) :=
    State.only.loop _ (fun _ _ => State.stall_only ..) _ here
  unfold State.halved at hu
  generalize forEach ((s.chanAccs n).filter (fun a => a.firm)) State.stall s = v at hu h1
  obtain ⟨w, hw⟩ : ∃ w, w = v.modChan n (fun c => { c with half := some b, toHalf := none, halfFrom := none, switchAt := none }) := ⟨_, rfl⟩
  have hwc : w.chan n = { s.chan n with half := some b, toHalf := none, halfFrom := none, switchAt := none } := by
    rw [hw, State.chan_modChan, h1.chan]
  have hwo : v.only [.chans] [] w := by rw [hw]; exact here.modChan ..
  rw [← hw] at hu
  rw [← hu, (State.chFlags_only ..).chan, State.chFlags_half, hwc]
  exact ⟨(h1.mono.step hwo).step (State.chFlags_only ..), rfl, rfl⟩

/-- A channel whose switch has ended is recorded with the windthrow that halved it, if one did. -/
theorem State.halfThrown_spec (src : Option (Nat × Nat × Place × Nat)) (h : s.flt.blaze.f2 = none) {u : State} (hu : s.halfThrown n src = u) :
    s.only [.chans, .blaze, .counts, .regs, .tiers] [Reg.CH_ECC_STATUS n] u ∧ s.logsOnly u ∧ s.runsKept u ∧ u.flt.blaze.f2 = none ∧
      (src.isSome = true → u.fld (Reg.CH_ECC_STATUS n) F.CH_ECC_STATUS_WINDTHROW = 1) := by
  cases src with
  | none =>
    have he : s = u := hu
    rw [← he]
    exact ⟨here, fun _ => rfl, State.runsKept.refl s, h, fun e => absurd e (by decide)⟩
  | some e =>
    obtain ⟨g, x, at_⟩ := e
    obtain ⟨h1, h2, h3, h4, h5⟩ := State.throwRecord_spec (n / 8) g x n at_ h (u := u) hu
    exact ⟨h1, h2, h3, h4, fun _ => h5⟩
end

theorem halfRegs_apart (n : Fin 32) :
    Reg.FAULT_SRC (45 + 4 * (n.val / 8)) ∉ [Reg.CH_STATUS n.val, Reg.NDL_PATH_STATUS] ∧ Reg.FAULT_SRC (45 + 4 * (n.val / 8)) ∉ [Reg.CH_ECC_STATUS n.val] ∧
      Reg.CH_STATUS n.val ∉ [Reg.CH_ECC_STATUS n.val] ∧ Reg.CH_STATUS n.val ∉ Reg.NDL_LINE_STATUS :: eventRegs ∧
      Reg.CH_ECC_STATUS n.val ∉ Reg.NDL_LINE_STATUS :: eventRegs := by
  revert n
  decide

theorem State.completes_halfResume {s : State} (hu : s.up) (hs : s.still) (n : Fin 32) {b : Bool} (h1 : (s.chan n.val).switchAt.isSome = true)
    (h2 : (s.chan n.val).toHalf = some b) (hb : s.pool.blocks = []) (hst : s.pool.steers = []) (hm : s.mild (45 + 4 * (n.val / 8)) n.val) :
    s.completes (.halfWidthResume n) (mildParts ++ [.chans]) ([Reg.CH_STATUS n.val, Reg.CH_ECC_STATUS n.val, Reg.NDL_PATH_STATUS, Reg.NDL_LINE_STATUS] ++ eventRegs)
      (fun t => (t.chan n.val).half = some b ∧ (t.chan n.val).toHalf = none ∧ (t.chan n.val).switchAt = none ∧
        t.fld (Reg.CH_STATUS n.val) F.CH_STATUS_HALF = 1 ∧
        ((s.chan n.val).halfFrom.isSome = true → t.fld (Reg.CH_ECC_STATUS n.val) F.CH_ECC_STATUS_WINDTHROW = 1)) := by
  obtain ⟨at_, hat⟩ := Option.isSome_iff_exists.1 h1
  have hf : whenAwake (State.halfResume n.val) s =
      (((s.halved n.val b).halfThrown n.val (s.chan n.val).halfFrom).throwEvent n.val 0).relocate.poolFlags := by
    rw [whenAwake_true _ _ hu.awake, State.halfResume_eq n.val b hat h2]
  generalize (s.chan n.val).halfFrom = src at hf ⊢
  obtain ⟨u, hhu⟩ : ∃ u, s.halved n.val b = u := ⟨_, rfl⟩
  obtain ⟨ho1, hc1, hf1⟩ := State.halved_spec n.val b hhu
  rw [hhu] at hf
  obtain ⟨v, hv⟩ : ∃ v, u.halfThrown n.val src = v := ⟨_, rfl⟩
  obtain ⟨ho2, hl2, hr2, hb2, hf2⟩ := State.halfThrown_spec n.val src (by rw [ho1.blaze']; exact hm.2) hv
  rw [hv] at hf
  obtain ⟨a1, a2, a3, a4, a5⟩ := halfRegs_apart n
  have hcl : v.faultClass (45 + 4 * (n.val / 8)) n.val = s.faultClass (45 + 4 * (n.val / 8)) n.val :=
    (ho2.faultClass _ _ a2).trans (ho1.faultClass _ _ a1)
  have haw : v.awake = true := by rw [ho2.awake, ho1.awake, hu.awake]
  obtain ⟨ho3, hr3⟩ := State.throwEvent_only (s := v) (n := n.val) (kind := 0) haw ⟨by rw [hcl]; exact hm.1, hb2⟩
  generalize v.throwEvent n.val 0 = w at hf ho3 hr3
  have hpool : w.pool = s.pool := by rw [ho3.pool', ho2.pool', ho1.pool']
  rw [State.relocate_none (by rw [hpool, hb]; rfl) (by rw [hpool, hst])] at hf
  have ho4 : w.only [.regs] [Reg.NDL_LINE_STATUS] w.poolFlags := State.poolFlags_only w
  have hall : s.only (mildParts ++ [.chans])
      ([Reg.CH_STATUS n.val, Reg.CH_ECC_STATUS n.val, Reg.NDL_PATH_STATUS, Reg.NDL_LINE_STATUS] ++ eventRegs) w.poolFlags :=
    (((ho1.mono (ha := by simp)).step ho2 (ha := by simp)).step ho3 (ha := fun a h => by simp [h])).step ho4
  have hruns : s.runsKept w.poolFlags :=
    ((State.runsKept.of_only ho1).trans hr2).trans (hr3.trans (State.runsKept.of_only ho4))
  have hlast : v.only (mildParts ++ [.chans]) (Reg.NDL_LINE_STATUS :: eventRegs) w.poolFlags :=
    (ho3.mono (ha := fun _ h => List.mem_cons_of_mem _ h)).step ho4
  have hcw : w.poolFlags.chan n.val = v.chan n.val := by rw [ho4.chan, ho3.chan]
  have hlv := hl2 n.val
  rw [hc1] at hlv
  refine State.completes_always rfl (by rw [hf]; exact hall.still_runs hs fun k _ => hruns k) (by rw [hf]; exact hall) ?_
  rw [hf, State.carry_chan, State.carry_fld, State.carry_fld, hcw, hlast.fld _ _ a4, hlast.fld _ _ a5, ho2.fld _ _ a3]
  exact ⟨(congrArg ChanS.half hlv :), (congrArg ChanS.toHalf hlv :), (congrArg ChanS.switchAt hlv :), hf1, hf2⟩

/-- Settles O44: the bucket's leak, Ranger's visit from its access to its end, its late flag, the test of a suspect position and the end of the way to
half width. -/
theorem rangerAndSuspects : Obligations.RangerAndSuspects := by
  intro s hu hs
  refine ⟨?_, fun n hr hk errors verify => State.completes_rangerVisit hu hs n hr hk errors verify, ?_,
    fun n hret hen hl => State.completes_rangerLate hu n hret hen hl, ?_,
    fun n b h1 h2 hb hst hm => State.completes_halfResume hu hs n h1 h2 hb hst hm⟩
  · have hf : whenAwake State.ceLeak s = s.ceLeak := whenAwake_true _ _ hu.awake
    exact State.completes_run rfl (by rw [hf]; exact State.ceLeak_only s) fun n => by rw [State.carry_chan, hf, State.ceLeak_chan]
  · intro k pos a turn errors syms hi hp ho hpc hv hd hl hpos hm hst
    exact State.completes_pick_ranger hs hu k hi hp ho hpc hv hd hl hpos hm hst
  · intro q at_ hg hk hat hq hf2
    rw [hat]
    exact ⟨fun hp => State.completes_pinTest_pass hu hs q hg hk hq hf2 hp,
      fun i hp hsp hts hi => State.completes_pinTest_steer hu hs q hg hk hq hf2 i hp hsp hts hi,
      fun hp hi hsp hts hret hh hth => State.completes_pinTest_throw hu hs q hg hk hq hf2 hp hi hsp hts hret hh hth⟩

end Sys2Proof.Machine
end

section
/-! PROOFS. The mailbox (R57 to R59, R223): REQ starts a transfer, and the transfer ends. -/

set_option Elab.async false

namespace Sys2Proof.Machine
open Sys2Proof
open State.only (here)

/-! ### The bank of a path -/

theorem State.setMbx_only (path : Path) (x : MbxS) (s : State) : s.only [.mbx] [] (s.setMbx path x) := by
  unfold State.setMbx
  split
  · exact here.mbxI _
  · exact here.mbxC _

theorem State.mbx_setMbx (path : Path) (x : MbxS) (s : State) : (s.setMbx path x).mbx path = x := by
  unfold State.setMbx State.mbx
  split <;> rfl

theorem State.only.mbx' {s t : State} {ps : List Part} {as : List Nat} (h : s.only ps as t) (path : Path) (hp : Part.mbx ∉ ps := by decide) :
    t.mbx path = s.mbx path := by
  obtain ⟨hC, hI⟩ := h.2.1 .mbx hp
  simp only [State.mbx, hC, hI]

theorem State.mbx_carry (path : Path) (s x : State) : (s.carry x).mbx path = x.mbx path := rfl

theorem mbxReg_ne {a b : Nat} (h : a ≠ b) (path : Path) : mbxReg path a ≠ mbxReg path b := by
  unfold mbxReg
  split
  · omega
  · exact h

/-! ### REQ (R58) -/

/-- The row of `MBX.CTL`. -/
def mbxCtlRow : RegRow := ⟨"MBX.CTL", 0x4, 4, 1, false,
    [.of "RSV0" 31 19 .rsv 0 .imm false, .of "ERR" 18 16 .ro 0 .imm false, .of "TAG" 15 8 .rw 0 .imm false, .of "LEN" 7 4 .ro 0 .imm false,
     .of "VALID" 3 3 .ro 0 .imm false, .of "BUSY" 2 2 .ro 0 .imm false, .of "DIR" 1 1 .rw 0 .imm false, .of "REQ" 0 0 .wo 0 .imm false]⟩

/-- What a request writes. -/
def mbxAsk (tag : Byte) (d : Nat) : List (Fld × Nat) := [(F.MBX_CTL_TAG, tag.toNat), (F.MBX_CTL_DIR, d), (F.MBX_CTL_REQ, 1)]

/-- The fields that a request writes. -/
def mbxAsked (tag : Byte) (d : Nat) (g : Fld) : Bool := (mbxAsk tag d).any (fun e => e.1 == g)

/-- `MBX.CTL` as a request leaves it before its transfer starts. -/
def State.mbxWord (path : Path) (tag : Byte) (d : Nat) (s : State) : Word :=
  storedWord path .mbx 4 s.power.lockOpen (mbxAsked tag d) (putFields (mbxAsk tag d) 0) (s.reg (mbxReg path Reg.MBX_CTL)) mbxCtlRow.fields

theorem mbxAsk_get (tag : Byte) {d : Nat} (hd : d < 2) :
    F.MBX_CTL_TAG.get (putFields (mbxAsk tag d) 0) = tag.toNat ∧ F.MBX_CTL_DIR.get (putFields (mbxAsk tag d) 0) = d ∧
      F.MBX_CTL_REQ.get (putFields (mbxAsk tag d) 0) = 1 := by
  have ht := tag.isLt
  have he : putFields (mbxAsk tag d) 0 = F.MBX_CTL_REQ.set 1 (F.MBX_CTL_DIR.set d (F.MBX_CTL_TAG.set tag.toNat 0)) := rfl
  rw [he]
  refine ⟨?_, ?_, Fld.get_set _ (by decide) _ _⟩
  · rw [Fld.get_set_apart _ _ (by decide) (by decide), Fld.get_set_apart _ _ (by decide) (by decide), Fld.get_set _ (by decide)]
    exact Nat.mod_eq_of_lt ht
  · rw [Fld.get_set_apart _ _ (by decide) (by decide), Fld.get_set _ (by decide)]
    exact Nat.mod_eq_of_lt hd

section
variable (path : Path) (tag : Byte) {d : Nat} (hd : d < 2) (s : State)
include hd

theorem State.mbxWord_tag : F.MBX_CTL_TAG.get (s.mbxWord path tag d) = tag.toNat := by
  have ht := tag.isLt
  refine (get_storedWord path .mbx 4 _ _ _ mbxCtlRow.fields _ (by decide) (.of "TAG" 15 8 .rw 0 .imm false) (by decide)).trans ?_
  refine (if_pos rfl).trans ?_
  have hg := (mbxAsk_get tag hd).1
  show max 0 (min 255 (F.MBX_CTL_TAG.get (putFields (mbxAsk tag d) 0))) = _
  omega

theorem State.mbxWord_dir : F.MBX_CTL_DIR.get (s.mbxWord path tag d) = d := by
  refine (get_storedWord path .mbx 4 _ _ _ mbxCtlRow.fields _ (by decide) (.of "DIR" 1 1 .rw 0 .imm false) (by decide)).trans ?_
  refine (if_pos rfl).trans ?_
  have hg := (mbxAsk_get tag hd).2.1
  show max 0 (min 1 (F.MBX_CTL_DIR.get (putFields (mbxAsk tag d) 0))) = _
  omega

theorem State.writeParts_ask {s : State} (hu : s.up) (hb : s.mbxBusy path = false) :
    s.writeParts path Reg.MBX_CTL (mbxAsk tag d) = some ((s.setReg (mbxReg path Reg.MBX_CTL) (s.mbxWord path tag d)).mbxStart path) := by
  have hst : s.stopped = false := hu.stopped
  have hr : s.resolve Reg.MBX_CTL = .ok (.mbx, 4, mbxCtlRow) := State.resolve_ok hst (by decide) (by decide) (by simp) rfl (by decide) (by decide)
  have hba : bankAddr path .mbx 4 Reg.MBX_CTL = mbxReg path Reg.MBX_CTL := by simp [bankAddr, mbxReg]
  rw [State.writeParts, State.writeReg_ok path _ _ (State.rawView_none (b := .mbx) (o := 4) (by decide) (by decide) (by decide)) hr rfl
    (fun h => hu.notStarting h)]
  unfold State.writeFields
  dsimp only
  have hR (w v : Word) : rsvBroken (fun g => (mbxAsk tag d).any fun e => e.1 == g) w v mbxCtlRow.fields = false := rfl
  have hRo (w v x : Word) : roWrite path .mbx 4 (fun g => (mbxAsk tag d).any fun e => e.1 == g) w v x mbxCtlRow.fields = false := rfl
  have hL : laterField (fun g => (mbxAsk tag d).any fun e => e.1 == g) mbxCtlRow.fields = false := rfl
  have hW : (mbxCtlRow.fields.any fun f => f.ty == .rwl && (mbxAsk tag d).any fun e => e.1 == f.bits) = false := rfl
  have hwo : (if (((mbxAsk tag d).any fun e => e.1 == F.MBX_CTL_REQ) && !guarded path .mbx 4 F.MBX_CTL_REQ) = true then
      F.MBX_CTL_REQ.get (putFields (mbxAsk tag d) 0) else 0) = 1 := (if_pos rfl).trans (mbxAsk_get tag hd).2.2
  rw [hba, if_neg (by simp [hb]), hR, if_neg (by decide), if_neg (by simp), hRo, hL, hW, if_neg (by simp), when_false, Bool.and_false, when_false]
  unfold State.act
  dsimp only
  rw [if_neg (by decide), hwo]
  rfl

end

/-! ### The transfer starts -/

/-- `MBX.CTL` of a transfer that has begun. -/
def mbxBegun (w : Word) : Word := putFields [(F.MBX_CTL_BUSY, 1), (F.MBX_CTL_VALID, 0), (F.MBX_CTL_ERR, 0)] w

theorem mbxBegun_get (w : Word) : F.MBX_CTL_BUSY.get (mbxBegun w) = 1 ∧ F.MBX_CTL_VALID.get (mbxBegun w) = 0 ∧
    F.MBX_CTL_TAG.get (mbxBegun w) = F.MBX_CTL_TAG.get w := by
  have he : mbxBegun w = F.MBX_CTL_ERR.set 0 (F.MBX_CTL_VALID.set 0 (F.MBX_CTL_BUSY.set 1 w)) := rfl
  rw [he]
  refine ⟨?_, ?_, ?_⟩
  · rw [Fld.get_set_apart _ _ (by decide) (by decide), Fld.get_set_apart _ _ (by decide) (by decide), Fld.get_set _ (by decide)]
    rfl
  · rw [Fld.get_set_apart _ _ (by decide) (by decide), Fld.get_set _ (by decide)]
    rfl
  · rw [Fld.get_set_apart _ _ (by decide) (by decide), Fld.get_set_apart _ _ (by decide) (by decide), Fld.get_set_apart _ _ (by decide) (by decide)]

section
variable (path : Path) (s : State)

/-- A transfer has begun: BUSY stands. -/
def State.mbxOpen : State :=
  (s.setReg (mbxReg path Reg.MBX_CTL) (mbxBegun (s.reg (mbxReg path Reg.MBX_CTL)))).setMbx path
    { (s.setReg (mbxReg path Reg.MBX_CTL) (mbxBegun (s.reg (mbxReg path Reg.MBX_CTL)))).mbx path with busyWr := false }

/-- A transfer runs that will end with a result, and nothing else has changed. -/
def State.mbxRuns (s t : State) (e wr : Nat) (l : List Word) : Prop :=
  s.only [.regs, .mbx] [mbxReg path Reg.MBX_CTL] t ∧ t.reg (mbxReg path Reg.MBX_CTL) = mbxBegun (s.reg (mbxReg path Reg.MBX_CTL)) ∧
    (t.mbx path).result = some (e, wr, l)

theorem State.mbxOpen_only : s.only [.regs, .mbx] [mbxReg path Reg.MBX_CTL] (s.mbxOpen path) :=
  State.only.step (here.setReg ..) (State.setMbx_only ..)

theorem State.mbxOpen_reg : (s.mbxOpen path).reg (mbxReg path Reg.MBX_CTL) = mbxBegun (s.reg (mbxReg path Reg.MBX_CTL)) := by
  unfold State.mbxOpen
  rw [(State.setMbx_only ..).reg, State.reg_setReg]

variable {path s}

/-- A result that the bank keeps. -/
theorem State.mbxRuns.of_open {u : State} (h : (s.mbxOpen path).only [.regs, .mbx] [] u) {x : MbxS} {e wr : Nat} {l : List Word}
    (hx : x.result = some (e, wr, l)) : s.mbxRuns path (u.setMbx path x) e wr l := by
  have ho := State.setMbx_only path x u
  refine ⟨((State.mbxOpen_only path s).step h).step ho, ?_, ?_⟩
  · rw [ho.reg, h.reg, State.mbxOpen_reg]
  · rw [State.mbx_setMbx, hx]

theorem State.mbxStart_read (hd : F.MBX_CTL_DIR.get (s.reg (mbxReg path Reg.MBX_CTL)) = 0) :
    ∃ (e : Nat) (l : List Word), s.mbxRuns path (s.mbxStart path) e 0 l := by
  have hwr : (F.MBX_CTL_DIR.get (s.reg (mbxReg path Reg.MBX_CTL)) == 1) = false := by rw [hd]; rfl
  unfold State.mbxStart
  dsimp only
  rw [hwr]
  split
  · exact ⟨_, _, State.mbxRuns.of_open here rfl⟩
  · split
    · exact ⟨_, _, State.mbxRuns.of_open here rfl⟩
    · rw [if_neg (by decide)]
      split
      · split
        · exact ⟨_, _, State.mbxRuns.of_open here rfl⟩
        · exact ⟨_, _, State.mbxRuns.of_open ((State.setMbx_only ..).mono) rfl⟩
      · split
        · split
          · exact ⟨_, _, State.mbxRuns.of_open here rfl⟩
          · exact ⟨_, _, State.mbxRuns.of_open here rfl⟩
        · exact ⟨_, _, State.mbxRuns.of_open here rfl⟩
end

section
variable {path : Path} {s : State} (hd : F.MBX_CTL_DIR.get (s.reg (mbxReg path Reg.MBX_CTL)) = 1)
include hd

/-- R59: a write of no listed block. -/
theorem State.mbxStart_unlisted (hb : mbxBlock (F.MBX_SEL_BLOCK.get (s.reg (mbxReg path Reg.MBX_SEL))) = .none) :
    s.mbxRuns path (s.mbxStart path) mbxUnlisted 1 [] := by
  unfold State.mbxStart
  dsimp only
  rw [hd, if_pos hb]
  exact State.mbxRuns.of_open here rfl

/-- The doorbell base that the data registers of a path hold. -/
def State.doorbellNew (s : State) (path : Path) : Nat :=
  (s.reg (mbxReg path (Reg.MBX_DATA 0))).toNat + (s.reg (mbxReg path (Reg.MBX_DATA 1))).toNat * 2 ^ 32

/-- R223: a write of the doorbell base is kept. -/
theorem State.mbxStart_doorbell (hs : s.stopped = false) (hm : s.isManager = true)
    (hb : mbxBlock (F.MBX_SEL_BLOCK.get (s.reg (mbxReg path Reg.MBX_SEL))) = .qctx)
    (hi : F.MBX_SEL_ITEM.get (s.reg (mbxReg path Reg.MBX_SEL)) = 0) (hg : F.MBX_SEL_PAGE.get (s.reg (mbxReg path Reg.MBX_SEL)) = 0)
    (ha : (s.reg (mbxReg path (Reg.MBX_DATA 0))).toNat % 2 ^ 22 = 0) :
    ∃ x : MbxS, s.mbxStart path = ({ s.mbxOpen path with que.dbNew := s.doorbellNew path } : State).setMbx path x ∧ x.result = some (0, 1, []) := by
  have ho := State.mbxOpen_only path s
  have hp : (s.mbxOpen path).present .qctx = true := by
    show (s.mbxOpen path).isManager = true
    rw [ho.isManager, hm]
  have hst : (s.mbxOpen path).stopped = false := by
    rw [State.stopped, ho.awake]
    exact hs
  have hr (k : Nat) (hk : Reg.MBX_DATA k ≠ Reg.MBX_CTL) : (s.mbxOpen path).reg (mbxReg path (Reg.MBX_DATA k)) = s.reg (mbxReg path (Reg.MBX_DATA k)) :=
    ho.reg _ (by simpa using mbxReg_ne hk path)
  have hw : (s.mbxOpen path).writeItem .qctx 0
      ((List.range 8).map (fun n => ((s.mbxOpen path).reg (mbxReg path (Reg.MBX_DATA n))).toNat)) path =
      ({ s.mbxOpen path with que.dbNew := s.doorbellNew path }, 0) := by
    have hv : ((s.mbxOpen path).reg (mbxReg path (Reg.MBX_DATA 0))).toNat + ((s.mbxOpen path).reg (mbxReg path (Reg.MBX_DATA 1))).toNat * 2 ^ 32 =
        s.doorbellNew path := by rw [hr 0 (by decide), hr 1 (by decide), State.doorbellNew]
    have hm0 : s.doorbellNew path % 2 ^ 22 = 0 := by
      rw [State.doorbellNew]
      omega
    unfold State.writeItem
    simp only [List.range, List.range.loop, List.map_cons, List.getD_cons_zero, List.getD_cons_succ, hv]
    rw [if_pos trivial, if_pos hm0]
  unfold State.mbxStart
  dsimp only
  rw [hd, hb, hi, hg, if_neg (by decide)]
  refine ⟨{ ({ s.mbxOpen path with que.dbNew := s.doorbellNew path } : State).mbx path with result := some (0, 1, []) }, ?_, rfl⟩
  refine (if_neg (c := (!(s.mbxOpen path).present .qctx) = true ∨ (s.mbxOpen path).stopped = true ∧ _) ?_).trans ?_
  · rw [hp, hst]
    simp
  · refine (if_pos rfl).trans ((if_neg (by decide)).trans ?_)
    exact congrArg (fun r : State × Nat => r.1.setMbx path { r.1.mbx path with result := some (r.2, 1, []) }) hw
end

/-! ### Requests of a path -/

section
variable {s : State} (hu : s.up) (hs : s.still) (path : Path) (hb : s.mbxBusy path = false) (tag : Byte)
include hu hs hb

/-- The state in which a request's transfer starts. -/
def State.mbxAsking (path : Path) (tag : Byte) (d : Nat) (s : State) : State := s.setReg (mbxReg path Reg.MBX_CTL) (s.mbxWord path tag d)

omit hu hs hb in
theorem State.mbxAsking_reg (d : Nat) : (s.mbxAsking path tag d).reg (mbxReg path Reg.MBX_CTL) = s.mbxWord path tag d := State.reg_setReg ..

omit hu hs hb in
theorem State.mbxAsking_only (d : Nat) : s.only [.regs] [mbxReg path Reg.MBX_CTL] (s.mbxAsking path tag d) := here.setReg ..

omit hu hs hb in
/-- R58: BUSY and the tag stand while a transfer runs. -/
theorem State.mbxAsking_fields {d : Nat} (hd : d < 2) {t : State} (h : t.reg (mbxReg path Reg.MBX_CTL) = mbxBegun (s.mbxWord path tag d)) :
    t.mbxBusy path = true ∧ t.fld (mbxReg path Reg.MBX_CTL) F.MBX_CTL_TAG = tag.toNat ∧ t.fld (mbxReg path Reg.MBX_CTL) F.MBX_CTL_VALID = 0 := by
  obtain ⟨h1, h2, h3⟩ := mbxBegun_get (s.mbxWord path tag d)
  simp only [State.mbxBusy, State.fld, h, h1, h2, h3, State.mbxWord_tag path tag hd]
  exact ⟨rfl, trivial, trivial⟩

theorem State.completes_ask {d : Nat} (hd : d < 2) {c : Instr} {e wr : Nat} {l : List Word} {P : State → Prop}
    (hc : exec c s = access (State.onPath path (State.writeParts path Reg.MBX_CTL (mbxAsk tag d))) s)
    (hr : (s.mbxAsking path tag d).mbxRuns path ((s.mbxAsking path tag d).mbxStart path) e wr l)
    (hP : ∀ t : State, t.reg (mbxReg path Reg.MBX_CTL) = mbxBegun (s.mbxWord path tag d) → (t.mbx path).result = some (e, wr, l) → P t) :
    s.completes c [.regs, .mbx] [mbxReg path Reg.MBX_CTL] P := by
  obtain ⟨ho, hw, hx⟩ := hr
  rw [State.mbxAsking_reg] at hw
  have hall := (State.mbxAsking_only (s := s) path tag d).mono.trans ho
  refine State.completes_access hc (u := (s.mbxAsking path tag d).mbxStart path) ?_ (hall.still hs) hall (hP _ ((State.carry_reg ..).trans hw) ?_)
  · rw [State.onPath_up hu, State.writeParts_ask path tag hd hu hb]
    rfl
  · rw [State.mbx_carry]
    exact hx

theorem State.completes_mbxRead : s.completes (.mbxRead path tag) [.regs, .mbx] [mbxReg path Reg.MBX_CTL]
    (fun t => t.mbxBusy path = true ∧ t.fld (mbxReg path Reg.MBX_CTL) F.MBX_CTL_TAG = tag.toNat ∧
      t.fld (mbxReg path Reg.MBX_CTL) F.MBX_CTL_VALID = 0 ∧ ∃ (e : Nat) (l : List Word), (t.mbx path).result = some (e, 0, l)) := by
  obtain ⟨e, l, hr⟩ := State.mbxStart_read (path := path) (s := s.mbxAsking path tag 0) (by rw [State.mbxAsking_reg, State.mbxWord_dir path tag (by decide)])
  refine State.completes_ask hu hs path hb tag (by decide) rfl hr fun t hw hx => ?_
  obtain ⟨h1, h2, h3⟩ := State.mbxAsking_fields path tag (by decide) hw
  exact ⟨h1, h2, h3, e, l, hx⟩

omit hu hs hb in
theorem State.mbxAsking_other (d : Nat) {a : Nat} (h : a ≠ Reg.MBX_CTL) : (s.mbxAsking path tag d).reg (mbxReg path a) = s.reg (mbxReg path a) :=
  (State.mbxAsking_only path tag d).reg _ (by simpa using mbxReg_ne h path)

theorem State.completes_mbxWrite_unlisted (hk : mbxBlock (F.MBX_SEL_BLOCK.get (s.reg (mbxReg path Reg.MBX_SEL))) = .none) :
    s.completes (.mbxWrite path tag) [.regs, .mbx] [mbxReg path Reg.MBX_CTL]
      (fun t => t.mbxBusy path = true ∧ (t.mbx path).result = some (mbxUnlisted, 1, [])) := by
  have hr := State.mbxStart_unlisted (path := path) (s := s.mbxAsking path tag 1) (by rw [State.mbxAsking_reg, State.mbxWord_dir path tag (by decide)])
    (by rw [State.mbxAsking_other path tag 1 (by decide)]; exact hk)
  exact State.completes_ask hu hs path hb tag (by decide) rfl hr fun t hw hx => ⟨(State.mbxAsking_fields path tag (by decide) hw).1, hx⟩

omit hu hs hb in
/-- A kept base sets nothing in motion. -/
theorem State.still_dbNew {s : State} (hs : s.still) (v : Nat) : ({ s with que.dbNew := v } : State).still := hs

theorem State.completes_mbxWrite_doorbell (hm : s.isManager = true)
    (hk : mbxBlock (F.MBX_SEL_BLOCK.get (s.reg (mbxReg path Reg.MBX_SEL))) = .qctx)
    (hi : F.MBX_SEL_ITEM.get (s.reg (mbxReg path Reg.MBX_SEL)) = 0) (hg : F.MBX_SEL_PAGE.get (s.reg (mbxReg path Reg.MBX_SEL)) = 0)
    (ha : (s.reg (mbxReg path (Reg.MBX_DATA 0))).toNat % 2 ^ 22 = 0) :
    s.completes (.mbxWrite path tag) [.regs, .mbx, .que] [mbxReg path Reg.MBX_CTL]
      (fun t => t.mbxBusy path = true ∧ (t.mbx path).result = some (0, 1, []) ∧ t.que = { s.que with dbNew := s.doorbellNew path }) := by
  have hsel := State.mbxAsking_other (s := s) path tag 1 (a := Reg.MBX_SEL) (by decide)
  have ho1 := State.mbxAsking_only (s := s) path tag 1
  obtain ⟨x, hx, hres⟩ := State.mbxStart_doorbell (path := path) (s := s.mbxAsking path tag 1)
    (by rw [State.mbxAsking_reg, State.mbxWord_dir path tag (by decide)]) (by rw [State.stopped, ho1.awake]; exact hu.stopped) (by rw [ho1.isManager, hm])
    (by rw [hsel]; exact hk) (by rw [hsel]; exact hi) (by rw [hsel]; exact hg) (by rw [State.mbxAsking_other path tag 1 (by decide)]; exact ha)
  have hv : (s.mbxAsking path tag 1).doorbellNew path = s.doorbellNew path := by
    rw [State.doorbellNew, State.mbxAsking_other path tag 1 (by decide), State.mbxAsking_other path tag 1 (by decide), State.doorbellNew]
  have ho2 := State.mbxOpen_only path (s.mbxAsking path tag 1)
  have hreg := State.mbxOpen_reg path (s.mbxAsking path tag 1)
  rw [State.mbxAsking_reg] at hreg
  rw [hv] at hx
  generalize (s.mbxAsking path tag 1).mbxOpen path = w at hx ho2 hreg
  have how : s.only [.regs, .mbx] [mbxReg path Reg.MBX_CTL] w := ho1.mono.trans ho2
  have hq : w.only [.que] [] ({ w with que.dbNew := s.doorbellNew path } : State) := here.que _
  have hst := State.still_dbNew (how.still hs) (s.doorbellNew path)
  have hqq : ({ w with que.dbNew := s.doorbellNew path } : State).que = { s.que with dbNew := s.doorbellNew path } := by
    rw [← how.que']
  generalize ({ w with que.dbNew := s.doorbellNew path } : State) = v at hx hq hst hqq
  have hov := State.setMbx_only path x v
  have hall : s.only [.regs, .mbx, .que] [mbxReg path Reg.MBX_CTL] (v.setMbx path x) := (how.mono.step hq).step hov
  refine State.completes_access rfl (u := v.setMbx path x) ?_ (hov.still hst) hall ⟨?_, ?_, ?_⟩
  · rw [State.onPath_up hu]
    exact (State.writeParts_ask path tag (d := 1) (by decide) hu hb).trans (congrArg some hx)
  · refine (State.mbxAsking_fields (s := s) path tag (d := 1) (by decide) ?_).1
    rw [State.carry_reg, hov.reg, hq.reg, hreg]
  · rw [State.mbx_carry, State.mbx_setMbx, hres]
  · exact hov.que'.trans hqq
end

/-! ### The transfer ends (R58, R59) -/

/-- `MBX.CTL` of a transfer that has ended. -/
def mbxEnded (err : Nat) (ok : Bool) (w : Word) : Word := putFields [(F.MBX_CTL_BUSY, 0), (F.MBX_CTL_ERR, err), (F.MBX_CTL_VALID, b2n ok)] w

theorem mbxEnded_get {err : Nat} (he : err < 8) (ok : Bool) (w : Word) : F.MBX_CTL_BUSY.get (mbxEnded err ok w) = 0 ∧
    F.MBX_CTL_ERR.get (mbxEnded err ok w) = err ∧ F.MBX_CTL_VALID.get (mbxEnded err ok w) = b2n ok := by
  have hw : mbxEnded err ok w = F.MBX_CTL_VALID.set (b2n ok) (F.MBX_CTL_ERR.set err (F.MBX_CTL_BUSY.set 0 w)) := rfl
  rw [hw]
  refine ⟨?_, ?_, ?_⟩
  · rw [Fld.get_set_apart _ _ (by decide) (by decide), Fld.get_set_apart _ _ (by decide) (by decide), Fld.get_set _ (by decide)]
    rfl
  · rw [Fld.get_set_apart _ _ (by decide) (by decide), Fld.get_set _ (by decide)]
    exact Nat.mod_eq_of_lt he
  · rw [Fld.get_set _ (by decide)]
    cases ok <;> rfl

/-- The words of a page stand in the data registers. -/
def State.mbxFill (path : Path) (l : List Word) (s : State) : State :=
  forEach l.zipIdx (fun w s => s.setReg (mbxReg path (Reg.MBX_DATA w.2)) w.1) s

section
variable (path : Path)

theorem mbxData_mem {l : List Word} (hl : l.length ≤ 8) {w : Word × Nat} (hw : w ∈ l.zipIdx) :
    mbxReg path (Reg.MBX_DATA w.2) ∈ (List.range 8).map (fun k => mbxReg path (Reg.MBX_DATA k)) := by
  have := List.snd_lt_of_mem_zipIdx hw
  exact List.mem_map.2 ⟨w.2, List.mem_range.2 (by simpa using by omega), rfl⟩

theorem State.mbxFill_only {l : List Word} (hl : l.length ≤ 8) (s : State) :
    s.only [.regs] ((List.range 8).map (fun k => mbxReg path (Reg.MBX_DATA k))) (s.mbxFill path l) :=
  State.only.each (fun _ hw _ => here.setReg _ _ (by decide) (mbxData_mem path hl hw)) here

theorem mbxData_ne {i j : Nat} (h : i ≠ j) : mbxReg path (Reg.MBX_DATA i) ≠ mbxReg path (Reg.MBX_DATA j) :=
  mbxReg_ne (by simp only [Reg.MBX_DATA]; omega) path

theorem State.mbxFill_below (j : Nat) : ∀ (l : List Word) (n : Nat) (s : State), j < n →
    (forEach (l.zipIdx n) (fun w s => s.setReg (mbxReg path (Reg.MBX_DATA w.2)) w.1) s).reg (mbxReg path (Reg.MBX_DATA j)) =
      s.reg (mbxReg path (Reg.MBX_DATA j))
  | [], _, _, _ => rfl
  | w :: l, n, s, h => by
    rw [List.zipIdx_cons]
    exact (State.mbxFill_below j l (n + 1) _ (by omega)).trans (State.reg_setReg_ne (mbxData_ne path (by omega)) ..)

theorem State.mbxFill_from {k : Nat} {v : Word} : ∀ (l : List Word) (n : Nat) (s : State), l[k]? = some v →
    (forEach (l.zipIdx n) (fun w s => s.setReg (mbxReg path (Reg.MBX_DATA w.2)) w.1) s).reg (mbxReg path (Reg.MBX_DATA (n + k))) = v := by
  induction k with
  | zero =>
    intro l n s h
    cases l with
    | nil => cases h
    | cons w l =>
      cases h
      rw [List.zipIdx_cons]
      exact (State.mbxFill_below path n l (n + 1) _ (by omega)).trans (State.reg_setReg ..)
  | succ k ih =>
    intro l n s h
    cases l with
    | nil => cases h
    | cons w l =>
      rw [List.zipIdx_cons, show n + (k + 1) = n + 1 + k by omega]
      exact ih l (n + 1) _ h

theorem State.mbxFill_reg (l : List Word) (s : State) {k : Nat} {w : Word} (h : l[k]? = some w) :
    (s.mbxFill path l).reg (mbxReg path (Reg.MBX_DATA k)) = w := by
  have hf := State.mbxFill_from path l 0 s h
  rw [Nat.zero_add] at hf
  exact hf

theorem mbxCtl_notData : mbxReg path Reg.MBX_CTL ∉ (List.range 8).map (fun k => mbxReg path (Reg.MBX_DATA k)) := by
  intro h
  obtain ⟨k, -, hk⟩ := List.mem_map.1 h
  exact mbxReg_ne (by simp only [Reg.MBX_DATA, Reg.MBX_CTL]; omega) path hk

variable {path} {s : State}

/-- The state in which a transfer has ended, before its page. -/
def State.mbxClosed (path : Path) (err : Nat) (ok : Bool) (s : State) : State :=
  let s := s.setMbx path { s.mbx path with result := none, busyWr := false }
  s.setReg (mbxReg path Reg.MBX_CTL) (mbxEnded err ok (s.reg (mbxReg path Reg.MBX_CTL)))

theorem State.mbxClosed_only (err : Nat) (ok : Bool) : s.only [.regs, .mbx] [mbxReg path Reg.MBX_CTL] (s.mbxClosed path err ok) := by
  unfold State.mbxClosed
  exact ((State.setMbx_only ..).mono).setReg ..

theorem State.mbxClosed_result (err : Nat) (ok : Bool) : ((s.mbxClosed path err ok).mbx path).result = none := by
  unfold State.mbxClosed
  dsimp only
  rw [State.only.mbx' (ps := [.regs]) (as := [mbxReg path Reg.MBX_CTL]) (here.setReg ..), State.mbx_setMbx]

theorem State.mbxClosed_fields {err : Nat} (he : err < 8) (ok : Bool) : (s.mbxClosed path err ok).mbxBusy path = false ∧
    (s.mbxClosed path err ok).fld (mbxReg path Reg.MBX_CTL) F.MBX_CTL_VALID = b2n ok ∧
    (s.mbxClosed path err ok).fld (mbxReg path Reg.MBX_CTL) F.MBX_CTL_ERR = err := by
  obtain ⟨h1, h2, h3⟩ := mbxEnded_get he ok ((s.setMbx path { s.mbx path with result := none, busyWr := false }).reg (mbxReg path Reg.MBX_CTL))
  have hr : (s.mbxClosed path err ok).reg (mbxReg path Reg.MBX_CTL) = mbxEnded err ok _ := State.reg_setReg ..
  simp only [State.mbxBusy, State.fld, hr, h1, h2, h3]
  exact ⟨rfl, trivial, trivial⟩

theorem State.completes_mbxDone_page {l : List Word} (hr : (s.mbx path).result = some (0, 0, l)) (hw : (s.mbx path).busyWr = false) (hl : l.length ≤ 8) :
    s.completes (.mbxTransferDone path) [.regs, .mbx] (mbxReg path Reg.MBX_CTL :: (List.range 8).map (fun k => mbxReg path (Reg.MBX_DATA k)))
      (fun t => t.mbxBusy path = false ∧ t.fld (mbxReg path Reg.MBX_CTL) F.MBX_CTL_VALID = 1 ∧ t.fld (mbxReg path Reg.MBX_CTL) F.MBX_CTL_ERR = 0 ∧
        t.fld (mbxReg path Reg.MBX_CTL) F.MBX_CTL_LEN = l.length ∧
        (∀ (k : Nat) (w : Word), l[k]? = some w → t.reg (mbxReg path (Reg.MBX_DATA k)) = w) ∧ (t.mbx path).result = none) := by
  have hf : s.mbxDone path = (((s.mbxClosed path 0 true).setFld (mbxReg path Reg.MBX_CTL) F.MBX_CTL_LEN l.length)).mbxFill path l := by
    unfold State.mbxDone
    rw [hr]
    dsimp only
    have he : (if (0 : Nat) = 0 ∧ (s.mbx path).busyWr = true then 2 else 0) = 0 := if_neg (by simp [hw])
    rw [he]
    exact if_pos rfl
  have hc := State.mbxClosed_only (path := path) (s := s) 0 true
  have hres := State.mbxClosed_result (path := path) (s := s) 0 true
  obtain ⟨h1, h2, h3⟩ := State.mbxClosed_fields (path := path) (s := s) (err := 0) (by decide) true
  generalize s.mbxClosed path 0 true = u at hf hc hres h1 h2 h3
  have hlen : (u.setFld (mbxReg path Reg.MBX_CTL) F.MBX_CTL_LEN l.length).fld (mbxReg path Reg.MBX_CTL) F.MBX_CTL_LEN = l.length := by
    rw [State.fld_setFld _ _ (by decide)]
    exact Nat.mod_eq_of_lt (by show l.length < 2 ^ 4; omega)
  have hap (f : Fld) (h : f.apart F.MBX_CTL_LEN = true) : (u.setFld (mbxReg path Reg.MBX_CTL) F.MBX_CTL_LEN l.length).fld (mbxReg path Reg.MBX_CTL) f =
      u.fld (mbxReg path Reg.MBX_CTL) f := State.fld_setFld_apart _ _ _ (by decide) h ..
  have hv : u.only [.regs] [mbxReg path Reg.MBX_CTL] (u.setFld (mbxReg path Reg.MBX_CTL) F.MBX_CTL_LEN l.length) := here.setFld ..
  have hb : (u.setFld (mbxReg path Reg.MBX_CTL) F.MBX_CTL_LEN l.length).mbx path = u.mbx path := hv.mbx' path
  generalize u.setFld (mbxReg path Reg.MBX_CTL) F.MBX_CTL_LEN l.length = v at hf hlen hap hv hb
  have hfo := State.mbxFill_only path hl v
  have hfl (f : Fld) : (v.mbxFill path l).fld (mbxReg path Reg.MBX_CTL) f = v.fld (mbxReg path Reg.MBX_CTL) f := hfo.fld _ _ (mbxCtl_notData path)
  have hmb : (v.mbxFill path l).mbx path = v.mbx path := hfo.mbx' path
  refine State.completes_run (f := State.mbxDone path) rfl ?_ ?_
  · rw [hf]
    exact ((hc.mono.step hv).step hfo (ha := fun _ h => List.mem_cons_of_mem _ h))
  · rw [hf]
    simp only [State.mbxBusy, State.carry_fld, State.carry_reg, State.mbx_carry, hfl, hap _ (show F.MBX_CTL_BUSY.apart F.MBX_CTL_LEN = true by decide),
      hap _ (show F.MBX_CTL_VALID.apart F.MBX_CTL_LEN = true by decide), hap _ (show F.MBX_CTL_ERR.apart F.MBX_CTL_LEN = true by decide), hlen, hmb, hb]
    exact ⟨h1, h2, h3, trivial, fun k w h => State.mbxFill_reg path l v h, hres⟩

theorem State.completes_mbxDone_error {e wr : Nat} {l : List Word} (hr : (s.mbx path).result = some (e, wr, l)) (he : e ≠ 0) (h8 : e < 8) :
    s.completes (.mbxTransferDone path) [.regs, .mbx] [mbxReg path Reg.MBX_CTL]
      (fun t => t.mbxBusy path = false ∧ t.fld (mbxReg path Reg.MBX_CTL) F.MBX_CTL_VALID = 0 ∧
        t.fld (mbxReg path Reg.MBX_CTL) F.MBX_CTL_ERR = e ∧ (t.mbx path).result = none) := by
  have hok : (e == 0 && wr == 0) = false := by simp [he]
  have hf : s.mbxDone path = s.mbxClosed path e false := by
    unfold State.mbxDone
    rw [hr]
    dsimp only
    have hn : (if e = 0 ∧ (s.mbx path).busyWr = true then 2 else e) = e := if_neg (by simp [he])
    rw [hok, hn]
    exact if_neg (by decide)
  obtain ⟨h1, h2, h3⟩ := State.mbxClosed_fields (path := path) (s := s) h8 false
  refine State.completes_run (f := State.mbxDone path) rfl (by rw [hf]; exact State.mbxClosed_only e false) ?_
  have hres := State.mbxClosed_result (path := path) (s := s) e false
  rw [hf, State.carry_fld, State.carry_fld, State.mbx_carry, State.mbxBusy, State.carry_fld]
  generalize s.mbxClosed path e false = u at h1 h2 h3 hres
  exact ⟨h1, h2, h3, hres⟩
end

/-- Settles O15: REQ starts a transfer of a path, a write of the doorbell base is kept, and the transfer ends with its page or its error. -/
theorem mailbox : Obligations.Mailbox := by
  refine ⟨fun s path hu hs hb => ⟨fun tag => State.completes_mbxRead hu hs path hb tag, fun tag hm hk hi hg ha =>
    State.completes_mbxWrite_doorbell hu hs path hb tag hm hk hi hg ha, fun tag hk => State.completes_mbxWrite_unlisted hu hs path hb tag hk⟩, ?_⟩
  exact fun s path => ⟨fun l hr hw hl => State.completes_mbxDone_page hr hw hl, fun e wr l hr he h8 => State.completes_mbxDone_error hr he h8⟩

end Sys2Proof.Machine
end

section
/-! PROOFS. The command that a channel picks (R290, R292, R295 to R298, R302, R311, R313). -/

set_option Elab.async false

namespace Sys2Proof.Machine
open Sys2Proof
open State.only (here)

/-! ### The state in which a channel picks -/

theorem State.relevel_pc (n k : Nat) (s : State) : (s.relevel n).pc k = s.pc k := (State.relevel_only n s).pc k

theorem State.relevel_bank (n k pos : Nat) (s : State) : (s.relevel n).bank k pos = s.bank k pos := by
  rw [State.bank, State.bank, State.relevel_pc]

theorem State.only.bank {s t : State} {ps : List Part} {as : List Nat} (h : s.only ps as t) (k pos : Nat) (hp : Part.pcs ∉ ps := by decide) :
    t.bank k pos = s.bank k pos := by rw [State.bank, State.bank, h.pc k hp]

/-! ### Column commands (R290, R295) -/

/-- The accesses of a queue without one, its passed hits counted (R298). -/
theorem all_passed (a : Acc) (f : Acc → Acc) (hf : ∀ x, (f x).id = x.id) (q : List Acc) :
    (if a.firm then q.filter (fun x => x.id != a.id) else (q.filter (fun x => x.id != a.id)).map f).all (fun x => x.id != a.id) = true := by
  split
  · simp only [List.all_eq_true, List.mem_filter]
    exact fun x hx => hx.2
  · simp only [List.all_eq_true, List.mem_map, List.mem_filter]
    rintro _ ⟨x, ⟨-, hx⟩, rfl⟩
    rw [hf]
    exact hx

/-- R295, R296: what a column command leaves of its bank's queue: its access is gone. -/
theorem State.colDone_queue (k pos : Nat) (a : Acc) (s : State) : ((s.colDone k pos a).bank k pos).queue.all (fun x => x.id != a.id) = true := by
  have hall := all_passed a (fun x => if !x.firm && decide (x.id < a.id) then { x with passed := x.passed + 1 } else x)
    (fun x => by split <;> rfl) (s.bank k pos).queue
  unfold State.colDone
  dsimp only
  generalize (if a.firm = true then _ else _ : List Acc) = q at hall ⊢
  rw [State.only.bank (ps := [.chans]) (as := []) (here.modChan ..), State.bank_modPc_same, State.bank_modBank]
  · split
    · exact hall
    · exact hall
  · exact fun _ => rfl

/-- A column command of a channel: what follows the bank's bookkeeping keeps the queue. -/
theorem State.columnTaken_queue (k pos : Nat) (a : Acc) (turn : Option (Bool × List Nat × Nat)) (s : State) :
    ((s.columnTaken k pos a turn).bank k pos).queue.all (fun x => x.id != a.id) = true := State.colDone_queue ..

section
variable {s : State} {k pos : Nat} {a : Acc} {turn : Option (Bool × List Nat × Nat)} (hp : s.pick k true = some (pos, a, turn)) (ho : a.origin ≠ .ranger)
include hp ho

theorem State.pickCol_write {d : List Byte × Nat} (hw : a.wr = some d) :
    s.pickCol k = ((s.columnTaken k pos a turn).setLine a.place d.1 d.2).relevel (k / 2) := by
  unfold State.pickCol
  rw [hp]
  dsimp only
  rw [if_neg ho]
  unfold State.columnTaken
  rw [hw]

theorem State.pickCol_read (hw : a.wr = none) :
    s.pickCol k = ({ s.columnTaken k pos a turn with
      stack.bursts := AMap.put a.id { acc := a, data := (s.columnTaken k pos a turn).lineData a.place, md := (s.columnTaken k pos a turn).lineMd a.place }
        (s.columnTaken k pos a turn).stack.bursts } : State) := by
  unfold State.pickCol
  rw [hp]
  dsimp only
  rw [if_neg ho]
  unfold State.columnTaken
  rw [hw]
end

/-- R148: a line that is stored leaves every other. -/
theorem State.lineData_setLine_ne {p q : Place} (h : q.ix ≠ p.ix) (d : List Byte) (md : Nat) (s : State) :
    (s.setLine p d md).lineData q = s.lineData q := by
  have hl : ((d ++ zeros 128).take 128).length = 128 := by simp [zeros]
  unfold State.lineData State.setLine
  dsimp only
  refine List.map_congr_left fun i hi => get_storeBytes_out _ _ _ ?_
  have := List.mem_range.1 hi
  rw [hl]
  omega

section
variable {s : State} (hu : s.up) (hs : s.still) (k : Fin 64) {pos : Nat} {a : Acc} {turn : Option (Bool × List Nat × Nat)}
  (hi : s.issues (k.val / 2) = true)
include hu hs hi

/-- R290: a write's column command stores its line. -/
theorem State.completes_pick_write {d : List Byte × Nat} (hp : (s.relevel (k.val / 2)).pick k.val true = some (pos, a, turn)) (ho : a.origin ≠ .ranger)
    (hw : a.wr = some d) (hd : d.1.length = 128) :
    s.completes (.channelPick k true) [.chans, .pcs, .mem, .counts, .regs, .notices] [Reg.SVC_STATUS]
      (fun t => t.lineData a.place = d.1 ∧ t.lineMd a.place = d.2 ∧ (t.bank k.val pos).queue.all (fun x => x.id != a.id) = true ∧
        ∀ q : Place, q.ix ≠ a.place.ix → t.lineData q = s.lineData q) := by
  have hro := State.relevel_only (k.val / 2) s
  have hf : whenAwake (State.chanPick k.val true) s =
      (((s.relevel (k.val / 2)).columnTaken k.val pos a turn).setLine a.place d.1 d.2).relevel (k.val / 2) := by
    rw [whenAwake_true _ _ hu.awake, State.chanPick_column hi, State.pickCol_write hp ho hw]
  have hco := State.columnTaken_only k.val pos a turn (s.relevel (k.val / 2))
  have hq := State.columnTaken_queue k.val pos a turn (s.relevel (k.val / 2))
  generalize (s.relevel (k.val / 2)).columnTaken k.val pos a turn = w at hf hco hq
  have hlo := State.setLine_only a.place d.1 d.2 w
  have hdat := State.lineData_setLine a.place hd d.2 w
  have hmd := State.lineMd_setLine a.place d.1 d.2 w
  have hne (q : Place) (h : q.ix ≠ a.place.ix) : (w.setLine a.place d.1 d.2).lineData q = s.lineData q := by
    rw [State.lineData_setLine_ne h, State.lineData, State.lineData, hco.mem', hro.mem']
  generalize w.setLine a.place d.1 d.2 = v at hf hlo hdat hmd hne
  have hrel := State.relevel_only (k.val / 2) v
  have hmem (q : Place) : (v.relevel (k.val / 2)).lineData q = v.lineData q ∧ (v.relevel (k.val / 2)).lineMd q = v.lineMd q := by
    rw [State.lineData, State.lineMd, hrel.mem']
    exact ⟨rfl, rfl⟩
  have hall : s.only [.chans, .pcs, .mem, .counts, .regs, .notices] [Reg.SVC_STATUS] (v.relevel (k.val / 2)) :=
    ((hro.mono.step hco).step hlo).step hrel
  have hcar (x : State) (q : Place) : (s.carry x).lineData q = x.lineData q ∧ (s.carry x).lineMd q = x.lineMd q := ⟨rfl, rfl⟩
  refine State.completes_always rfl (by rw [hf]; exact hall.still hs) (by rw [hf]; exact hall) ?_
  rw [hf, (hcar _ _).1, (hcar _ _).2, State.carry_bank, (hmem _).1, (hmem _).2, hrel.bank, hlo.bank]
  exact ⟨hdat, hmd, hq, fun q h => by rw [(hcar _ _).1, (hmem _).1, hne q h]⟩

/-- R290: a read's column command starts its burst, with the line as it stands. -/
theorem State.completes_pick_read (hp : (s.relevel (k.val / 2)).pick k.val true = some (pos, a, turn)) (ho : a.origin ≠ .ranger) (hw : a.wr = none) :
    s.completes (.channelPick k true) [.chans, .pcs, .bursts, .counts, .regs, .notices] [Reg.SVC_STATUS]
      (fun t => AMap.find a.id t.stack.bursts = some { acc := a, data := s.lineData a.place, md := s.lineMd a.place } ∧
        (t.bank k.val pos).queue.all (fun x => x.id != a.id) = true) := by
  have hro := State.relevel_only (k.val / 2) s
  have hf : whenAwake (State.chanPick k.val true) s = _ :=
    ((whenAwake_true _ _ hu.awake).trans (State.chanPick_column hi)).trans (State.pickCol_read hp ho hw)
  have hco := State.columnTaken_only k.val pos a turn (s.relevel (k.val / 2))
  have hq := State.columnTaken_queue k.val pos a turn (s.relevel (k.val / 2))
  generalize (s.relevel (k.val / 2)).columnTaken k.val pos a turn = w at hf hco hq
  have hwm : w.mem = s.mem := hco.mem'.trans hro.mem'
  have hline : w.lineData a.place = s.lineData a.place ∧ w.lineMd a.place = s.lineMd a.place := by
    rw [State.lineData, State.lineMd, hwm]
    exact ⟨rfl, rfl⟩
  rw [hline.1, hline.2] at hf
  have hb : w.only [.bursts] [] ({ w with
      stack.bursts := AMap.put a.id { acc := a, data := s.lineData a.place, md := s.lineMd a.place } w.stack.bursts } : State) := here.bursts _
  have hfind : AMap.find a.id ({ w with
      stack.bursts := AMap.put a.id { acc := a, data := s.lineData a.place, md := s.lineMd a.place } w.stack.bursts } : State).stack.bursts =
      some { acc := a, data := s.lineData a.place, md := s.lineMd a.place } := AMap.find_put_self ..
  generalize ({ w with
      stack.bursts := AMap.put a.id { acc := a, data := s.lineData a.place, md := s.lineMd a.place } w.stack.bursts } : State) = v at hf hb hfind
  have hall : s.only [.chans, .pcs, .bursts, .counts, .regs, .notices] [Reg.SVC_STATUS] v := (hro.mono.step hco).step hb
  refine State.completes_always rfl (by rw [hf]; exact hall.still hs) (by rw [hf]; exact hall) ?_
  rw [hf, State.carry_bank, hb.bank]
  exact ⟨hfind, hq⟩
end

/-! ### What row commands leave of the engines -/

theorem State.refOp_runs (k pos dur from_ : Nat) (s : State) : s.runsKept (s.refOp k pos dur from_) := by
  have hw (u : State) : u.runsKept (u.refWait k pos) := by
    unfold State.refWait
    exact State.runsKept.modTier (State.runsKept.of_only (ps := [.pcs, .chans]) (as := []) ((here.modBank ..).modChan ..)) _ _ fun _ => rfl
  unfold State.refOp
  dsimp only
  refine State.runsKept.trans ?_ (hw _)
  refine State.runsKept.of_only (ps := [.pcs]) (as := []) (State.only.modBank _ _ _ (State.only.modPc _ _ ?_))
  split
  · exact here.modPc ..
  · exact here

theorem State.didIssue_only (k : Nat) (c : Issued) (s : State) : s.only [.pcs] [] (s.didIssue k c) := here.modPc ..

theorem State.didIssue_bank (k pos : Nat) (c : Issued) (s : State) : (s.didIssue k c).bank k pos = s.bank k pos := by
  unfold State.didIssue
  refine State.bank_modPc_same ?_ s
  exact fun _ => rfl

theorem State.doRefresh_runs (k pos debt from_ : Nat) (s : State) : s.runsKept (s.doRefresh k pos debt from_) := by
  unfold State.doRefresh
  refine State.runsKept.trans (t := (s.didIssue k (.ref pos)).refOp k pos Config.tRFCpb from_)
    ((State.runsKept.of_only (State.didIssue_only k _ s)).trans (State.refOp_runs k pos _ from_ _)) ?_
  exact State.runsKept.of_only (ps := [.pcs, .counts]) (as := []) ((here.modBank ..).bump ..)

/-! ### Neighbour refreshes (R312, R313) -/

/-- A refresh operation leaves the queue of neighbour refreshes. -/
theorem State.refOp_nref (k pos dur from_ : Nat) (s : State) : ((s.refOp k pos dur from_).bank k pos).nref = (s.bank k pos).nref := by
  let pre := (s.pc k).rowCycle (max from_ (s.bank k pos).preOk)
  let u := if (s.bank k pos).row.isSome then s.modPc k (PcS.rowTake s.now pre) else s
  let start := (u.pc k).rowCycle (max (s.bank k pos).actOk (if (s.bank k pos).row.isSome then pre + Config.tRP else from_))
  have hu : u.bank k pos = s.bank k pos := by
    show (if (s.bank k pos).row.isSome then s.modPc k (PcS.rowTake s.now pre) else s).bank k pos = s.bank k pos
    split
    · exact State.bank_modPc_same (f := PcS.rowTake s.now pre) (fun _ => rfl) s
    · rfl
  have hv : (u.modPc k (fun x => (x.rowTake u.now start).actTake start (pos % 12))).bank k pos = s.bank k pos := by
    refine Eq.trans (State.bank_modPc_same ?_ u) hu
    exact fun _ => rfl
  obtain ⟨q, hq⟩ := State.refWait_bank k pos ((u.modPc k (fun x => (x.rowTake u.now start).actTake start (pos % 12))).modBank k pos
    (fun b => { b with row := none, actOk := start + dur, refTill := start + dur }))
  have e : (s.refOp k pos dur from_).bank k pos = _ := hq
  rw [e, State.bank_modBank, hv]

/-- R312, R313: a pending neighbour refresh has issued. -/
theorem State.doNref_bank (k pos : Nat) (s : State) : ∃ a, s.now ≤ a ∧ ((s.doNref k pos).bank k pos).row = none ∧
    ((s.doNref k pos).bank k pos).nref = (s.bank k pos).nref.drop 1 ∧ ((s.doNref k pos).bank k pos).actOk = a + Config.tNR := by
  obtain ⟨a, ha, h⟩ := State.refOp_bank k pos Config.tNR s.now (s.didIssue k (.nref pos))
  have hn := State.refOp_nref k pos Config.tNR s.now (s.didIssue k (.nref pos))
  have hb : (s.didIssue k (.nref pos)).bank k pos = s.bank k pos := by
    unfold State.didIssue
    refine State.bank_modPc_same ?_ s
    exact fun _ => rfl
  rw [hb] at h hn
  unfold State.doNref
  generalize (s.didIssue k (.nref pos)).refOp k pos Config.tNR s.now = u at h hn ⊢
  have e : ((u.modBank k pos (fun b => { b with nref := b.nref.drop 1 })).bump (chSlot (k / 2) 3) 1).bank k pos =
    { u.bank k pos with nref := (u.bank k pos).nref.drop 1 } := State.bank_modBank ..
  rw [e]
  exact ⟨a, ha, h.row, congrArg (List.drop 1) hn, h.actOk⟩

theorem State.doNref_only (k pos : Nat) (s : State) : s.only [.pcs, .chans, .tiers, .counts] [] (s.doNref k pos) := by
  unfold State.doNref State.didIssue
  exact ((State.only.trans (here.modPc ..) ((State.refOp_only ..).mono)).modBank ..).bump ..

theorem State.doNref_runs (k pos : Nat) (s : State) : s.runsKept (s.doNref k pos) := by
  unfold State.doNref
  refine State.runsKept.trans (t := (s.didIssue k (.nref pos)).refOp k pos Config.tNR s.now)
    ((State.runsKept.of_only (State.didIssue_only k _ s)).trans (State.refOp_runs k pos _ _ _)) ?_
  exact State.runsKept.of_only (ps := [.pcs, .counts]) (as := []) ((here.modBank ..).bump ..)

/-! ### Activates (R311, R314) -/

theorem State.generate_only (t : Nat) (s : State) : s.only [.tiers, .counts, .regs] [Reg.CMN_DRBG t, Reg.CMN_STATUS t] (s.generate t) := by
  unfold State.generate
  dsimp only
  split
  · exact State.only.step (here.modTier ..) (State.reseed_only ..)
  · exact here.modTier ..

theorem State.generate_runs (t : Nat) (s : State) : s.runsKept (s.generate t) := by
  have h : s.runsKept (s.modTier t (fun x => { x with gens := x.gens + 1 })) := (State.runsKept.refl s).modTier _ _ fun _ => rfl
  unfold State.generate
  dsimp only
  split
  · exact h.trans fun j => (State.reseed_tier t j _).1
  · exact h

section
variable (k pos row : Nat) (s : State)

/-- An activate whose draw has been made: whether it adds neighbours to refresh. -/
def State.activated (k pos row : Nat) (add : List (Nat × Nat)) (s : State) : State :=
  let s := (s.modPc k (fun x => (x.rowTake s.now s.now).actTake s.now (pos % 12))).didIssue k .row
  (s.modBank k pos (fun b =>
    { b with row := some row, preOk := s.now + Config.tRAS, actOk := s.now + Config.tRC,
             colOk := s.now + Config.tRCD, nref := (b.nref ++ add).take Config.NREF_DEPTH })).bump (chSlot (k / 2) 0) 1

theorem State.doAct_eq : ∃ add, s.doAct k pos row = ((s.generate (k / 2 / 8)).draw.2).activated k pos row add := ⟨_, rfl⟩

theorem State.activated_only (add : List (Nat × Nat)) : s.only [.pcs, .counts] [] (s.activated k pos row add) := by
  unfold State.activated State.didIssue
  exact (((here.modPc ..).modPc ..).modBank ..).bump ..

theorem State.activated_bank (add : List (Nat × Nat)) : ((s.activated k pos row add).bank k pos).row = some row ∧
    ((s.activated k pos row add).bank k pos).colOk = s.now + Config.tRCD ∧ ((s.activated k pos row add).bank k pos).preOk = s.now + Config.tRAS ∧
    ((s.activated k pos row add).bank k pos).queue = (s.bank k pos).queue := by
  have hb : (s.modPc k (fun x => (x.rowTake s.now s.now).actTake s.now (pos % 12))).bank k pos = s.bank k pos := by
    refine State.bank_modPc_same ?_ s
    exact fun _ => rfl
  have hv := (State.didIssue_bank k pos .row (s.modPc k (fun x => (x.rowTake s.now s.now).actTake s.now (pos % 12)))).trans hb
  have hn : ((s.modPc k (fun x => (x.rowTake s.now s.now).actTake s.now (pos % 12))).didIssue k .row).now = s.now := rfl
  unfold State.activated
  dsimp only
  generalize (s.modPc k (fun x => (x.rowTake s.now s.now).actTake s.now (pos % 12))).didIssue k .row = v at hv hn ⊢
  rw [State.only.bank (ps := [.counts]) (as := []) (here.bump ..), State.bank_modBank, hn]
  exact ⟨rfl, rfl, rfl, (congrArg BankS.queue hv :)⟩
end

/-! ### Row commands (R290, R296, R297) -/

section
variable {s : State} {k pos : Nat} (hx : (s.pc k).rowAts.contains s.now = false)
include hx

theorem State.pickRow_repays (h1 : (fromPtr (s.pc k).rowPtr).find? (s.repays k) = some pos) :
    s.pickRow k = s.doRefresh k pos ((s.bank k pos).debt - 1) s.now := by
  unfold State.pickRow
  dsimp only
  rw [hx, if_neg (by decide), h1]
  rfl

variable (h1 : (fromPtr (s.pc k).rowPtr).find? (s.repays k) = none)
include h1

theorem State.pickRow_nrefs (h2 : (fromPtr (s.pc k).rowPtr).find? (s.nrefs k) = some pos) :
    s.pickRow k = (if (s.bank k pos).nrefFull then (s.raise (Reg.CH_STATUS (k / 2)) F.CH_STATUS_NREF_STALL).bump (chSlot (k / 2) 37) 1 else s).doNref k pos := by
  unfold State.pickRow
  dsimp only
  rw [hx, if_neg (by decide), h1]
  dsimp only
  rw [h2]
  rfl

variable (h2 : (fromPtr (s.pc k).rowPtr).find? (s.nrefs k) = none) {a : Acc} {turn : Option (Bool × List Nat × Nat)}
  (hp : s.pick k false = some (pos, a, turn))
include h2 hp

/-- The state in which the pick's row command issues: the pointer has moved on. -/
def State.rowTurned (k pos : Nat) (s : State) : State := s.modPc k (fun x => { x with rowPtr := (pos + 1) % 48 })

theorem State.pickRow_pre (hc : rowCmd (s.bank k pos) a = .pre) : s.pickRow k =
    (((s.rowTurned k pos).modPc k (PcS.rowTake s.now s.now)).didIssue k .row).modBank k pos (fun b =>
      { b with row := none, actOk := max b.actOk (s.now + Config.tRP) }) := by
  have hc' : rowCmd ((s.pc k).bank pos) a = .pre := hc
  unfold State.pickRow
  dsimp only
  rw [hx, if_neg (by decide), h1]
  dsimp only
  rw [h2]
  dsimp only
  rw [hp]
  dsimp only
  rw [hc']
  rfl

theorem State.pickRow_act (hc : rowCmd (s.bank k pos) a = .act) : s.pickRow k = (s.rowTurned k pos).doAct k pos a.place.row := by
  have hc' : rowCmd ((s.pc k).bank pos) a = .act := hc
  unfold State.pickRow
  dsimp only
  rw [hx, if_neg (by decide), h1]
  dsimp only
  rw [h2]
  dsimp only
  rw [hp]
  dsimp only
  rw [hc']
  rfl
end

theorem State.chanPick_row {s : State} {k : Nat} (hi : s.issues (k / 2) = true) : s.chanPick k false = (s.relevel (k / 2)).pickRow k := by
  unfold State.chanPick
  rw [if_pos hi]
  rfl

section
variable {s r : State} (hu : s.up) (hs : s.still) {k : Fin 64} {pos : Nat} {a : Acc} {turn : Option (Bool × List Nat × Nat)}
  (hi : s.issues (k.val / 2) = true) (hr : r = s.relevel (k.val / 2)) (hx : (s.pc k.val).rowAts.contains s.now = false)
include hu hs hi hr hx

omit hs in
/-- What a channel's levels leave for its pick. -/
theorem State.picking : s.only [.chans, .regs, .notices, .counts] [Reg.SVC_STATUS] r ∧ r.pc k.val = s.pc k.val ∧
    (r.pc k.val).rowAts.contains r.now = false ∧ whenAwake (State.chanPick k.val false) s = r.pickRow k.val := by
  have ho := State.relevel_only (k.val / 2) s
  rw [← hr] at ho
  refine ⟨ho, ho.pc _, by rw [ho.pc, ho.now']; exact hx, ?_⟩
  rw [whenAwake_true _ _ hu.awake, State.chanPick_row hi, hr]

theorem State.completes_pick_refresh (h1 : (fromPtr (s.pc k.val).rowPtr).find? (r.repays k.val) = some pos) :
    s.completes (.channelPick k false) [.chans, .pcs, .tiers, .counts, .regs, .notices] [Reg.SVC_STATUS]
      (fun t => (t.bank k.val pos).debt = (s.bank k.val pos).debt - 1 ∧ (t.bank k.val pos).row = none ∧
        s.now + Config.tRFCpb ≤ (t.bank k.val pos).actOk) := by
  obtain ⟨ho, hpc, hx', hf⟩ := State.picking hu hi hr hx
  have hbk : r.bank k.val pos = s.bank k.val pos := ho.bank k.val pos
  rw [← hpc] at h1
  rw [State.pickRow_repays hx' h1, hbk, ho.now'] at hf
  obtain ⟨at_, ha, hb⟩ := State.doRefresh_bank k.val pos ((s.bank k.val pos).debt - 1) s.now r
  have ho2 := State.doRefresh_only k.val pos ((s.bank k.val pos).debt - 1) s.now r
  have hr2 := State.doRefresh_runs k.val pos ((s.bank k.val pos).debt - 1) s.now r
  generalize r.doRefresh k.val pos ((s.bank k.val pos).debt - 1) s.now = u at hf hb ho2 hr2
  have hall : s.only [.chans, .pcs, .tiers, .counts, .regs, .notices] [Reg.SVC_STATUS] u := ho.mono.step ho2
  refine State.completes_always rfl (by rw [hf]; exact hall.still_runs hs fun j _ => ((State.runsKept.of_only ho).trans hr2) j) (by rw [hf]; exact hall) ?_
  rw [hf, State.carry_bank]
  refine ⟨hb.debt, hb.row, ?_⟩
  rw [hb.actOk]
  omega

theorem State.completes_pick_nref (h1 : (fromPtr (s.pc k.val).rowPtr).find? (r.repays k.val) = none)
    (h2 : (fromPtr (s.pc k.val).rowPtr).find? (r.nrefs k.val) = some pos) :
    s.completes (.channelPick k false) [.chans, .pcs, .tiers, .counts, .regs, .notices] [Reg.SVC_STATUS, Reg.CH_STATUS (k.val / 2)]
      (fun t => (t.bank k.val pos).nref = (s.bank k.val pos).nref.drop 1 ∧ (t.bank k.val pos).row = none ∧
        s.now + Config.tNR ≤ (t.bank k.val pos).actOk) := by
  obtain ⟨ho, hpc, hx', hf⟩ := State.picking hu hi hr hx
  have hbk : r.bank k.val pos = s.bank k.val pos := ho.bank k.val pos
  rw [← hpc] at h1 h2
  rw [State.pickRow_nrefs hx' h1 h2] at hf
  obtain ⟨v, hv⟩ : ∃ v, v = (if (r.bank k.val pos).nrefFull then
    (r.raise (Reg.CH_STATUS (k.val / 2)) F.CH_STATUS_NREF_STALL).bump (chSlot (k.val / 2) 37) 1 else r) := ⟨_, rfl⟩
  have hvo : r.only [.regs, .counts] [Reg.CH_STATUS (k.val / 2)] v := by
    rw [hv]
    split
    · exact (here.raise ..).bump ..
    · exact here
  rw [← hv] at hf
  obtain ⟨at_, ha, hrow, hn, hact⟩ := State.doNref_bank k.val pos v
  have ho2 := State.doNref_only k.val pos v
  have hr2 := State.doNref_runs k.val pos v
  have hvb : v.bank k.val pos = s.bank k.val pos := (hvo.bank k.val pos).trans hbk
  rw [hvo.now', ho.now'] at ha
  rw [hvb] at hn
  generalize v.doNref k.val pos = u at hf hrow hn hact ho2 hr2
  have hall : s.only [.chans, .pcs, .tiers, .counts, .regs, .notices] [Reg.SVC_STATUS, Reg.CH_STATUS (k.val / 2)] u := (ho.mono.step hvo).step ho2
  refine State.completes_always rfl (by
    rw [hf]
    exact hall.still_runs hs fun j _ => (((State.runsKept.of_only ho).trans (State.runsKept.of_only hvo)).trans hr2) j) (by rw [hf]; exact hall) ?_
  rw [hf, State.carry_bank]
  refine ⟨hn, hrow, ?_⟩
  rw [hact]
  omega

variable (h1 : (fromPtr (s.pc k.val).rowPtr).find? (r.repays k.val) = none) (h2 : (fromPtr (s.pc k.val).rowPtr).find? (r.nrefs k.val) = none)
  (hp : r.pick k.val false = some (pos, a, turn))
include h1 h2 hp

omit hu hs hi hr hx h1 h2 hp in
theorem State.rowTurned_bank (j p q : Nat) (r : State) : (r.rowTurned j p).bank j q = r.bank j q := by
  unfold State.rowTurned
  refine State.bank_modPc_same ?_ r
  exact fun _ => rfl

theorem State.completes_pick_pre (hc : rowCmd (s.bank k.val pos) a = .pre) :
    s.completes (.channelPick k false) [.chans, .pcs, .counts, .regs, .notices] [Reg.SVC_STATUS]
      (fun t => (t.bank k.val pos).row = none ∧ s.now + Config.tRP ≤ (t.bank k.val pos).actOk ∧ (t.bank k.val pos).queue = (s.bank k.val pos).queue) := by
  obtain ⟨ho, hpc, hx', hf⟩ := State.picking hu hi hr hx
  have hbk : r.bank k.val pos = s.bank k.val pos := ho.bank k.val pos
  rw [← hpc] at h1 h2
  rw [State.pickRow_pre hx' h1 h2 hp (by rw [hbk]; exact hc), ho.now'] at hf
  obtain ⟨v, hv⟩ : ∃ v, v = ((r.rowTurned k.val pos).modPc k.val (PcS.rowTake s.now s.now)).didIssue k.val .row := ⟨_, rfl⟩
  have hvb : v.bank k.val pos = s.bank k.val pos := by
    rw [hv, State.didIssue_bank]
    exact ((State.bank_modPc_same (f := PcS.rowTake s.now s.now) (fun _ => rfl) _).trans (State.rowTurned_bank ..)).trans hbk
  have hvo : r.only [.pcs] [] v := by
    rw [hv]
    exact State.only.step ((State.only.modPc _ _ here).modPc ..) (State.didIssue_only ..)
  rw [← hv] at hf
  have hall : s.only [.chans, .pcs, .counts, .regs, .notices] [Reg.SVC_STATUS]
      (v.modBank k.val pos (fun b => { b with row := none, actOk := max b.actOk (s.now + Config.tRP) })) := (ho.mono.step hvo).modBank ..
  refine State.completes_always rfl (by rw [hf]; exact hall.still hs) (by rw [hf]; exact hall) ?_
  rw [hf, State.carry_bank, State.bank_modBank, hvb]
  exact ⟨rfl, Nat.le_max_right .., rfl⟩

theorem State.completes_pick_act (hc : rowCmd (s.bank k.val pos) a = .act) :
    s.completes (.channelPick k false) [.chans, .pcs, .tiers, .draws, .counts, .regs, .notices]
      [Reg.SVC_STATUS, Reg.CMN_DRBG (k.val / 16), Reg.CMN_STATUS (k.val / 16)]
      (fun t => (t.bank k.val pos).row = some a.place.row ∧ (t.bank k.val pos).colOk = s.now + Config.tRCD ∧
        (t.bank k.val pos).preOk = s.now + Config.tRAS ∧ (t.bank k.val pos).queue = (s.bank k.val pos).queue) := by
  obtain ⟨ho, hpc, hx', hf⟩ := State.picking hu hi hr hx
  have hbk : r.bank k.val pos = s.bank k.val pos := ho.bank k.val pos
  rw [← hpc] at h1 h2
  rw [State.pickRow_act hx' h1 h2 hp (by rw [hbk]; exact hc)] at hf
  obtain ⟨add, hadd⟩ := State.doAct_eq k.val pos a.place.row (r.rowTurned k.val pos)
  have h16 : k.val / 2 / 8 = k.val / 16 := by omega
  rw [hadd, h16] at hf
  have hto : r.only [.pcs] [] (r.rowTurned k.val pos) := here.modPc ..
  have htb := (State.rowTurned_bank k.val pos pos r).trans hbk
  generalize r.rowTurned k.val pos = v at hf hto htb
  have hgo := State.generate_only (k.val / 16) v
  have hgr := State.generate_runs (k.val / 16) v
  generalize v.generate (k.val / 16) = w at hf hgo hgr
  have hdo : w.only [.draws] [] w.draw.2 := here.draws _
  generalize w.draw.2 = x at hf hdo
  obtain ⟨hb1, hb2, hb3, hb4⟩ := State.activated_bank k.val pos a.place.row x add
  have hao := State.activated_only k.val pos a.place.row x add
  rw [hdo.now', hgo.now', hto.now', ho.now'] at hb2 hb3
  rw [hdo.bank, hgo.bank, htb] at hb4
  generalize x.activated k.val pos a.place.row add = y at hf hao hb1 hb2 hb3 hb4
  have hall : s.only [.chans, .pcs, .tiers, .draws, .counts, .regs, .notices]
      [Reg.SVC_STATUS, Reg.CMN_DRBG (k.val / 16), Reg.CMN_STATUS (k.val / 16)] y := (((ho.mono.step hto).step hgo).step hdo).step hao
  have hruns : s.runsKept y := (((State.runsKept.of_only ho).trans (State.runsKept.of_only hto)).trans hgr).trans
    ((State.runsKept.of_only hdo).trans (State.runsKept.of_only hao))
  refine State.completes_always rfl (by rw [hf]; exact hall.still_runs hs fun j _ => hruns j) (by rw [hf]; exact hall) ?_
  rw [hf, State.carry_bank]
  exact ⟨hb1, hb2, hb3, hb4⟩
end

/-- Settles O37: what a channel's pick does with a write, a read, an owed refresh, a neighbour refresh, a precharge and an activate. -/
theorem channelPicks : Obligations.ChannelPicks := by
  intro s k pos a turn r hu hs hi hr
  refine ⟨?_, ?_, fun hx h1 => State.completes_pick_refresh hu hs hi hr hx h1, fun hx h1 h2 => State.completes_pick_nref hu hs hi hr hx h1 h2,
    fun hx h1 h2 hp => ⟨fun hc => State.completes_pick_pre hu hs hi hr hx h1 h2 hp hc, fun hc => State.completes_pick_act hu hs hi hr hx h1 h2 hp hc⟩⟩
  · intro d hp ho hw hd
    exact State.completes_pick_write hu hs k hi (by rw [← hr]; exact hp) ho hw hd
  · intro hp ho hw
    exact State.completes_pick_read hu hs k hi (by rw [← hr]; exact hp) ho hw

end Sys2Proof.Machine
end

section
/-! PROOFS. The manager's outcome of a load, firmware restarts, the owner lock and the release of tiers (R433, R449, R450, R455, R457). -/

set_option Elab.async false

namespace Sys2Proof.Machine
open Sys2Proof
open State.only (here)

/-! ### The outcome of a load (R449) -/

theorem State.only.ent' {s t : State} {ps : List Part} {as : List Nat} (h : s.only ps as t) (n : Nat) (hp : Part.topo ∉ ps := by decide) :
    t.ent n = s.ent n := by rw [State.ent, State.ent, h.topo' hp]

/-- A free tag is taken as it comes. -/
theorem State.cfgTag_next {s : State} (hc : s.mgr.cfg = []) (hl : s.mgr.lateC.contains s.mgr.nextC = false) : s.cfgTag = some s.mgr.nextC := by
  unfold State.cfgTag
  rw [freeTag, if_neg (by rw [hl, hc]; exact Bool.false_ne_true)]

section
variable {s : State} {m : Msg} (use : WardenUse) (hc : s.mgr.cfg = []) (hl : s.mgr.lateC.contains s.mgr.nextC = false)
include hc hl

/-- The one access that a manager without accesses makes. -/
theorem State.tagCfg_first : (s.tagCfg use m).mgr = { s.mgr with
    nextC := (s.mgr.nextC + 1) % 65536, cfg := [(s.mgr.nextC, { dst := m.h.dst.val, use := use, time := s.now })] } := by
  unfold State.tagCfg
  rw [State.cfgTag_next hc hl]
  dsimp only
  rw [(State.route_only ..).mgr', hc]
  rfl

/-- Its answer is all that the manager waits for. -/
theorem State.tagCfg_asks (hm : s.isManager = true) (hi : s.net.inbox = []) (hw : s.mgr.waitC = []) (hd : m.h.dst.val ≠ s.num)
    (h3 : (s.ent m.h.dst.val).state = 3) (hh : (s.ent m.h.dst.val).halted = false) : (s.tagCfg use m).onlyAsks := by
  have hmgr := State.tagCfg_first (m := m) use hc hl
  have ho := State.tagCfg_only use m s
  refine ⟨by rw [ho.isManager, hm], ?_, ?_, .inl (by rw [hmgr, hw])⟩
  · unfold State.tagCfg
    rw [State.cfgTag_next hc hl]
    dsimp only
    rw [State.route_inbox]
    · exact hi
    · exact hd
  · intro c hcm
    rw [hmgr] at hcm
    rw [List.mem_singleton.1 hcm, State.ent, ho.topo']
    exact ⟨rfl, h3, hh⟩
end

section
variable {s : State} (hu : s.up) (hs : s.still) {n : Fin 64} (hm : s.isManager = true) (hn : n.val ≠ s.num)
  (hl : (s.ent n.val).loading = some checking) (h3 : (s.ent n.val).state = 3) (hh : (s.ent n.val).halted = false)
  (hf : s.mgr.lateC.contains s.mgr.nextC = false)
include hu hs hm hn hl h3 hh hf

/-- R446, R449: a load that the device's ROM has taken is followed by a look at the device's start. -/
theorem State.completes_loadTaken :
    s.completes (.loadCheckDone n 0) [.topo, .mgr, .counts, .notices, .ports, .sent, .regs] [Reg.NDL_STATUS, Reg.NDL_PATH_STATUS]
      (fun t => (t.ent n.val).fw = 2 ∧ (t.ent n.val).loading = some 10 ∧
        t.mgr.cfg = [(s.mgr.nextC, { dst := n.val, use := .load n.val, time := s.now })]) := by
  have hs' := hs
  have hd : (Fin.ofNat 64 n.val).val = n.val := Nat.mod_eq_of_lt n.isLt
  obtain ⟨v, hv⟩ : ∃ v, v = ((s.modEnt n.val (fun e => { e with fw := 2 })).bump (mgrSlot 50) 1).noticeFor n.val 0x18 0 [BitVec.ofNat 8 n.val, 0] := ⟨_, rfl⟩
  have hvo : s.only [.topo, .counts, .notices, .regs] [Reg.NDL_STATUS] v := by
    rw [hv]
    exact State.only.step ((here.modEnt ..).bump ..) (State.noticeFor_only ..)
  have hve : v.ent n.val = { s.ent n.val with fw := 2 } := by
    rw [hv, (State.noticeFor_only ..).ent', State.only.ent' (ps := [.counts]) (as := []) (here.bump ..), State.ent_modEnt]
  obtain ⟨w, hw⟩ : ∃ w, w = v.modEnt n.val (fun e => { e with loading := some 10 }) := ⟨_, rfl⟩
  have hwo : s.only [.topo, .counts, .notices, .regs] [Reg.NDL_STATUS] w := by rw [hw]; exact hvo.modEnt ..
  have hwe : w.ent n.val = { s.ent n.val with fw := 2, loading := some 10 } := by rw [hw, State.ent_modEnt, hve]
  obtain ⟨m, hmd, hfm⟩ : ∃ m : Msg, m.h.dst.val = n.val ∧ s.loadOutcome n.val 0 = w.tagCfg (.load n.val) m := by
    refine ⟨{ op := .crd, h := w.hdrTo n.val false .warden 0 0 0 0, addr := Reg.BOOT_STATE, words := [] }, hd, ?_⟩
    unfold State.loadOutcome
    rw [if_neg (by rw [hl]; simp), if_pos rfl, ← hv, hw]
    rfl
  have hff : (if s.isManager then (if s.running then s.loadOutcome n.val (0 : Byte).toNat else s) else s.loadChecked) =
      w.tagCfg (.load n.val) m := by
    rw [← hfm]
    exact (if_pos hm).trans (if_pos hu.running)
  obtain ⟨⟨hin, -, -, hcfg, -, -, -, -, -, hwt⟩, -⟩ := hs'
  have hwm : w.mgr = s.mgr := hwo.mgr'
  have hasks := State.tagCfg_asks (s := w) (m := m) (.load n.val) (by rw [hwm, hcfg]) (by rw [hwm, hf]) (by rw [hwo.isManager, hm])
    (by rw [hwo.inbox', hin]) (by rw [hwm, hwt]) (by rw [hmd, State.num, hwo.fld _ _ (by decide)]; exact hn) (by rw [hmd, hwe]; exact h3)
    (by rw [hmd, hwe]; exact hh)
  have hmgr := State.tagCfg_first (s := w) (m := m) (.load n.val) (by rw [hwm, hcfg]) (by rw [hwm, hf])
  have hto := State.tagCfg_only (.load n.val) m w
  have hent : (w.tagCfg (.load n.val) m).ent n.val = w.ent n.val := hto.ent' _
  generalize w.tagCfg (.load n.val) m = x at hff hasks hmgr hto hent
  have hall : s.only [.topo, .mgr, .counts, .notices, .ports, .sent, .regs] [Reg.NDL_STATUS, Reg.NDL_PATH_STATUS] x := hwo.mono.step hto
  refine State.completes_asks rfl hs (by rw [hff]; exact hall) (by rw [hff]; exact hasks) ?_ (hin := ?_)
  · rw [hff, State.carry_ent, hent, hwe]
    refine ⟨rfl, rfl, ?_⟩
    show x.mgr.cfg = _
    rw [hmgr, hmd, hwm, hwo.now']
  · rw [hff, hmgr, hwm]
end

/-! ### Writes of BOOT.CTL -/

/-- The row of `BOOT.CTL`. -/
def bootCtlRow : RegRow := ⟨"BOOT.CTL", 0x8, 4, 1, false,
    [.of "RSV0" 31 9 .rsv 0 .imm false, .of "OWNER_LOCK" 8 8 .wo 0 .imm false, .of "RELEASE" 7 4 .rw 0 .imm false, .of "RSV1" 3 1 .rsv 0 .imm false,
     .of "REBOOT" 0 0 .wo 0 .imm false]⟩

theorem State.resolve_bootCtl {s : State} (h : s.stopped = false) : s.resolve Reg.BOOT_CTL = .ok (.boot, 8, bootCtlRow) :=
  State.resolve_ok h (by decide) (by decide) (by simp) rfl (by decide) (by decide)

theorem State.rawView_bootCtl (s : State) : s.rawView Reg.BOOT_CTL = none := State.rawView_none (b := .boot) (o := 8) (by decide) (by decide) (by decide)

/-- What a command of `BOOT.CTL` does. -/
theorem State.act_bootCtl (path : Path) (wo : Fld → Nat) (touch : Fld → Bool) (w : Word) (s : State) :
    s.act path .boot 8 Reg.BOOT_CTL wo touch w = s.bootCtl wo touch := by
  unfold State.act
  exact if_pos rfl

section
variable {s : State} (hu : s.up)
include hu

/-- R450: REBOOT of the manager's warden. -/
theorem State.writeParts_reboot : s.writeParts .cfgWarden Reg.BOOT_CTL [(F.BOOT_CTL_REBOOT, 1)] =
    some ((s.setReg Reg.BOOT_CTL (s.reg Reg.BOOT_CTL)).rebootNow) := by
  rw [State.writeParts_command hu .cfgWarden (State.resolve_bootCtl hu.stopped) (State.rawView_bootCtl s) rfl (by decide) (by decide) rfl rfl (by decide)
    (by decide), State.act_bootCtl]
  unfold State.bootCtl
  dsimp only
  rw [show (commandOf F.BOOT_CTL_REBOOT 1 F.BOOT_CTL_OWNER_LOCK == 1) = false from rfl, show (F.BOOT_CTL_REBOOT == F.BOOT_CTL_RELEASE) = false from rfl,
    show (commandOf F.BOOT_CTL_REBOOT 1 F.BOOT_CTL_REBOOT == 1) = true from rfl, when_false, when_false, when_true]

/-- R455: OWNER_LOCK. -/
theorem State.writeParts_ownerLock (path : Path) : s.writeParts path Reg.BOOT_CTL [(F.BOOT_CTL_OWNER_LOCK, 1)] =
    some ((s.setReg Reg.BOOT_CTL (s.reg Reg.BOOT_CTL)).lockOwner) := by
  rw [State.writeParts_command hu path (State.resolve_bootCtl hu.stopped) (State.rawView_bootCtl s) rfl (by decide) (by decide) rfl rfl (by decide)
    (by decide), State.act_bootCtl]
  unfold State.bootCtl
  dsimp only
  rw [show (commandOf F.BOOT_CTL_OWNER_LOCK 1 F.BOOT_CTL_OWNER_LOCK == 1) = true from rfl,
    show (F.BOOT_CTL_OWNER_LOCK == F.BOOT_CTL_RELEASE) = false from rfl,
    show (commandOf F.BOOT_CTL_OWNER_LOCK 1 F.BOOT_CTL_REBOOT == 1) = false from rfl, when_true, when_false, when_false]

/-- R504: REBOOT of another agent. -/
theorem State.writeParts_reboot_refused {path : Path} (hp : path ≠ .cfgWarden) : s.writeParts path Reg.BOOT_CTL [(F.BOOT_CTL_REBOOT, 1)] =
    some ((s.setReg Reg.BOOT_CTL (s.reg Reg.BOOT_CTL)).accFlag path F.MBX_ACC_STATUS_RO_WRITE) := by
  have hg : guarded path .boot 8 F.BOOT_CTL_REBOOT = true := by simp [guarded, hp]
  have hro : roWrite path .boot 8 (fun g => [(F.BOOT_CTL_REBOOT, 1)].any fun e => e.1 == g) (putFields [(F.BOOT_CTL_REBOOT, 1)] 0) (s.reg Reg.BOOT_CTL)
      (s.regView .boot 8 Reg.BOOT_CTL) bootCtlRow.fields = true := by
    refine List.any_eq_true.2 ⟨.of "REBOOT" 0 0 .wo 0 .imm false, by decide, ?_⟩
    have hg' : guarded path .boot 8 (FieldRow.of "REBOOT" 0 0 .wo 0 .imm false).bits = true := hg
    rw [hg', if_pos rfl]
    rfl
  have hwo : woOf path .boot 8 (fun g => [(F.BOOT_CTL_REBOOT, 1)].any fun e => e.1 == g) (putFields [(F.BOOT_CTL_REBOOT, 1)] 0) = fun _ => 0 := by
    funext f
    unfold woOf
    refine if_neg ?_
    simp only [List.any_cons, List.any_nil, Bool.or_false, Bool.and_eq_true, beq_iff_eq, Bool.not_eq_true']
    rintro ⟨rfl, h⟩
    rw [hg] at h
    cases h
  rw [State.writeParts, State.writeReg_ok path _ _ (State.rawView_bootCtl s) (State.resolve_bootCtl hu.stopped) rfl (fun h => hu.notStarting h),
    State.writeFields_commands path _ (by decide) (by decide) rfl, hro, when_true, hwo]
  have ha (x : State) (w : Word) : x.act path .boot 8 Reg.BOOT_CTL (fun _ => 0) (fun g => [(F.BOOT_CTL_REBOOT, 1)].any fun e => e.1 == g) w = x := rfl
  rw [ha]
end

/-! ### A firmware restart (R433, R450) -/

/-- The state that a firmware restart leaves before its channels go to self-refresh. -/
def State.fwGone (s : State) : State :=
  (({ s with power := { s.power with fw := 0 }, image := {}, flt.windows := [] } : State).raise Reg.BOOT_STATUS F.BOOT_STATUS_REBOOTED).bump (devSlot 138) 1

/-- The power and start state of a firmware restart (R433). -/
def State.fwStarting (s : State) : State :=
  { s with power := { s.power with phase := .starting, kind := 2, cause := 4, items := 10, t0 := s.now, cold := false } }

theorem State.fwGone_only (s : State) : s.only [.power, .image, .faults, .regs, .counts] [Reg.BOOT_STATUS] s.fwGone := by
  unfold State.fwGone
  refine State.only.bump _ _ (State.only.raise _ _ ?_)
  exact State.only.windows [] (State.only.image {} (here.power _))

theorem State.fwGone_spec (s : State) : s.fwGone.power = { s.power with fw := 0 } ∧ s.fwGone.image = {} ∧ s.fwGone.flt.windows = [] ∧
    s.fwGone.fld Reg.BOOT_STATUS F.BOOT_STATUS_REBOOTED = 1 := by
  refine ⟨rfl, rfl, rfl, ?_⟩
  unfold State.fwGone
  rw [State.fld_bump]
  exact State.fld_raise _ _ (by decide) _

theorem State.startEntry_only (kind cause : Nat) (s : State) : s.only [.blaze, .counts, .regs] [Reg.BLAZE_STATUS] (s.startEntry kind cause) :=
  (here.blazeAt ..).bump ..

theorem State.sleepAll_only (s : State) : s.only [.chans, .pcs, .regs] ((List.range 32).map Reg.CH_STATUS) (forEach (List.range 32) State.enterSr s) :=
  State.only.each (fun n hn t => (State.enterSr_only n t).mono (ha := fun a h => by
    rw [List.mem_singleton.1 h]
    exact List.mem_map_of_mem hn)) here

theorem bootStatus_apart : Reg.BOOT_STATUS ∉ (List.range 32).map Reg.CH_STATUS := by decide

theorem State.rebootNow_eq {s : State} (hu : s.up) (hb : ∀ k < 4, s.tierBusy k = false) :
    s.rebootNow = ((forEach (List.range 32) State.enterSr s.fwGone).fwStarting.startEntry 2 4).cond Reg.BOOT_STATUS F.BOOT_STATUS_START_DONE false := by
  have ht : (List.range 4).any s.tierBusy = false := List.any_eq_false.2 fun k hk => by rw [hb k (List.mem_range.1 hk)]; decide
  unfold State.rebootNow
  rw [if_neg (by simp [hu.awake, ht])]
  extract_lets again power flt gone slept before starting
  have hg : gone = s.fwGone := rfl
  rw [if_pos (show again = true from hu.running), ← hg]
  have hs : starting = slept.fwStarting := rfl
  rw [hs]

theorem State.completes_reboot {s : State} (hu : s.up) (hs : s.still) (hb : ∀ k < 4, s.tierBusy k = false) :
    s.completes (.reboot .cfgWarden) [.power, .image, .faults, .regs, .counts, .chans, .pcs, .blaze]
      (Reg.BOOT_STATUS :: Reg.BLAZE_STATUS :: (List.range 32).map Reg.CH_STATUS)
      (fun t => t.power.phase = .starting ∧ t.power.kind = 2 ∧ t.power.fw = 0 ∧ t.power.items = 10 ∧ t.image = {} ∧ t.flt.windows = [] ∧
        t.fld Reg.BOOT_STATUS F.BOOT_STATUS_REBOOTED = 1 ∧ t.fld Reg.BOOT_STATUS F.BOOT_STATUS_START_DONE = 0) := by
  have hx := (State.onPath_up hu .cfgWarden _).trans (State.writeParts_reboot hu)
  have ho := State.setReg_same_only Reg.BOOT_CTL s
  obtain ⟨u, hu'⟩ : ∃ u, u = s.setReg Reg.BOOT_CTL (s.reg Reg.BOOT_CTL) := ⟨_, rfl⟩
  rw [← hu'] at hx ho
  have huu : u.up := by
    rw [State.up, ho.power']
    exact hu
  rw [State.rebootNow_eq huu (fun k hk => by rw [State.tierBusy, ho.tier]; exact hb k hk)] at hx
  have h1 := State.fwGone_only u
  obtain ⟨hp1, hi1, hw1, hf1⟩ := State.fwGone_spec u
  generalize u.fwGone = v at hx h1 hp1 hi1 hw1 hf1
  have h2 := State.sleepAll_only v
  generalize forEach (List.range 32) State.enterSr v = w at hx h2
  have h3 : w.only [.power] [] w.fwStarting := here.power _
  have hp3 : w.fwStarting.power = { w.power with phase := .starting, kind := 2, cause := 4, items := 10, t0 := w.now, cold := false } := rfl
  generalize w.fwStarting = x at hx h3 hp3
  have h4 := State.startEntry_only 2 4 x
  generalize x.startEntry 2 4 = y at hx h4
  have h5 : y.only [.regs] [Reg.BOOT_STATUS] (y.cond Reg.BOOT_STATUS F.BOOT_STATUS_START_DONE false) := here.cond ..
  have hdone : (y.cond Reg.BOOT_STATUS F.BOOT_STATUS_START_DONE false).fld Reg.BOOT_STATUS F.BOOT_STATUS_START_DONE = 0 := State.fld_cond _ _ (by decide) _ _
  have hreb : (y.cond Reg.BOOT_STATUS F.BOOT_STATUS_START_DONE false).fld Reg.BOOT_STATUS F.BOOT_STATUS_REBOOTED = y.fld Reg.BOOT_STATUS F.BOOT_STATUS_REBOOTED :=
    State.fld_cond_apart _ _ _ (by decide) (by decide) (by decide) ..
  generalize y.cond Reg.BOOT_STATUS F.BOOT_STATUS_START_DONE false = z at hx h5 hdone hreb
  have hall : s.only [.power, .image, .faults, .regs, .counts, .chans, .pcs, .blaze]
      (Reg.BOOT_STATUS :: Reg.BLAZE_STATUS :: (List.range 32).map Reg.CH_STATUS) z :=
    ((((ho.mono.step h1).step h2 (ha := fun a h => by simp only [List.mem_cons]; tauto)).step h3).step h4).step h5
  refine State.completes_access rfl hx (hall.still hs) hall ?_
  have hpow : z.power = x.power := h5.power'.trans h4.power'
  have hwin : z.flt.windows = [] := by
    rw [(h5.2.1 .faults (by decide)).1, (h4.2.1 .faults (by decide)).1, (h3.2.1 .faults (by decide)).1, (h2.2.1 .faults (by decide)).1, hw1]
  have himg : z.image = {} := by rw [h5.image', h4.image', h3.image', h2.image', hi1]
  have hrf : z.fld Reg.BOOT_STATUS F.BOOT_STATUS_REBOOTED = 1 := by
    rw [hreb, h4.fld _ _ (by decide), h3.fld _ _ (by decide), h2.fld _ _ bootStatus_apart, hf1]
  rw [State.carry_power, State.carry_image, State.carry_fld, State.carry_fld, hpow, hp3, h2.power', hp1, himg]
  exact ⟨rfl, rfl, rfl, rfl, rfl, hwin, hrf, hdone⟩

theorem State.completes_reboot_refused {s : State} (hu : s.up) (hs : s.still) {path : Path} (hp : path ≠ .cfgWarden) :
    s.completes (.reboot path) [.regs] [Reg.MBX_ACC_STATUS] (fun t => t.fld Reg.MBX_ACC_STATUS F.MBX_ACC_STATUS_RO_WRITE = 1) := by
  have ho : s.only [.regs] [Reg.MBX_ACC_STATUS] ((s.setReg Reg.BOOT_CTL (s.reg Reg.BOOT_CTL)).accFlag path F.MBX_ACC_STATUS_RO_WRITE) :=
    ((State.setReg_same_only _ s).mono).step (State.accFlag_only ..)
  exact State.completes_access rfl ((State.onPath_up hu path _).trans (State.writeParts_reboot_refused hu hp)) (ho.still hs) ho
    ((State.carry_fld ..).trans (State.accFlag_roWrite ..))

/-! ### The owner lock (R455) -/

theorem State.completes_ownerLock {s : State} (hu : s.up) (hs : s.still) (path : Path) (hm : s.isManager = true) :
    s.completes (.ownerLock path) [.regs] [Reg.BOOT_STATUS] (fun t => t.fld Reg.BOOT_STATUS F.BOOT_STATUS_OWNER_LOCK = 1) := by
  have hx := (State.onPath_up hu path _).trans (State.writeParts_ownerLock hu path)
  have ho := State.setReg_same_only Reg.BOOT_CTL s
  generalize s.setReg Reg.BOOT_CTL (s.reg Reg.BOOT_CTL) = u at hx ho
  have hl : u.lockOwner = u.cond Reg.BOOT_STATUS F.BOOT_STATUS_OWNER_LOCK true := by
    unfold State.lockOwner
    rw [if_pos (by rw [ho.isManager, hm])]
  rw [hl] at hx
  have hall : s.only [.regs] [Reg.BOOT_STATUS] (u.cond Reg.BOOT_STATUS F.BOOT_STATUS_OWNER_LOCK true) := ho.mono.cond ..
  exact State.completes_access rfl hx (hall.still hs) hall ((State.carry_fld ..).trans (State.fld_cond _ _ (by decide) _ _))

/-! ### The release of tiers (R457) -/

/-- R457: a tier whose release bit a write has set or cleared. -/
def TierS.releasedBy (mask k : Nat) (x : TierS) : TierS :=
  { x with released := bit mask k && (x.released || !(x.run.isSome || !x.waiting.isEmpty)) }

/-- R457: the release of one tier. -/
def State.releaseTier (mask k : Nat) (s : State) : State :=
  s.modTier k (fun x => { x with released := bit mask k && (x.released || !s.tierBusy k) })

theorem State.releaseTier_same (mask k : Nat) (s : State) : (s.releaseTier mask k).tier k = (s.tier k).releasedBy mask k := State.tier_modTier ..

theorem State.releaseTier_ne {k j : Nat} (h : j ≠ k) (mask : Nat) (s : State) : (s.releaseTier mask k).tier j = s.tier j := State.tier_modTier_ne h ..

theorem State.releaseTiers_only (mask : Nat) (s : State) : s.only [.tiers] [] (s.releaseTiers mask) :=
  State.only.loop _ (fun _ _ => here.modTier ..) _ here

theorem State.releaseTiers_tier (mask : Nat) {k : Nat} (hk : k < 4) (s : State) : (s.releaseTiers mask).tier k = (s.tier k).releasedBy mask k := by
  have he : s.releaseTiers mask = (((s.releaseTier mask 0).releaseTier mask 1).releaseTier mask 2).releaseTier mask 3 := rfl
  rw [he]
  have hcases : k = 0 ∨ k = 1 ∨ k = 2 ∨ k = 3 := by omega
  rcases hcases with rfl | rfl | rfl | rfl
  · rw [State.releaseTier_ne (by decide), State.releaseTier_ne (by decide), State.releaseTier_ne (by decide), State.releaseTier_same]
  · rw [State.releaseTier_ne (by decide), State.releaseTier_ne (by decide), State.releaseTier_same, State.releaseTier_ne (by decide)]
  · rw [State.releaseTier_ne (by decide), State.releaseTier_same, State.releaseTier_ne (by decide), State.releaseTier_ne (by decide)]
  · rw [State.releaseTier_same, State.releaseTier_ne (by decide), State.releaseTier_ne (by decide), State.releaseTier_ne (by decide)]

theorem guarded_release (path : Path) : guarded path .boot 8 F.BOOT_CTL_RELEASE = false := by
  have h1 : (F.BOOT_CTL_RELEASE == F.BOOT_CTL_REBOOT) = false := rfl
  simp [guarded, h1]

/-- The word that a write of RELEASE stores. -/
def State.releaseWord (path : Path) (mask : Nat) (s : State) : Word :=
  storedWord path .boot 8 s.power.lockOpen (fun g => [(F.BOOT_CTL_RELEASE, mask)].any fun e => e.1 == g) (putFields [(F.BOOT_CTL_RELEASE, mask)] 0)
    (s.reg Reg.BOOT_CTL) bootCtlRow.fields

theorem State.releaseWord_get (path : Path) {mask : Nat} (h : mask < 16) (s : State) : F.BOOT_CTL_RELEASE.get (s.releaseWord path mask) = mask := by
  refine (get_storedWord path .boot 8 _ _ _ bootCtlRow.fields _ (by decide) (.of "RELEASE" 7 4 .rw 0 .imm false) (by decide)).trans ?_
  have hg : takesWrite path .boot 8 s.power.lockOpen (fun g => [(F.BOOT_CTL_RELEASE, mask)].any fun e => e.1 == g)
      (.of "RELEASE" 7 4 .rw 0 .imm false) = true := by
    have := guarded_release path
    unfold takesWrite
    refine Bool.and_eq_true_iff.2 ⟨rfl, ?_⟩
    show (!guarded path .boot 8 F.BOOT_CTL_RELEASE) = true
    rw [this]
    rfl
  refine (if_pos hg).trans ?_
  have hv : F.BOOT_CTL_RELEASE.get (putFields [(F.BOOT_CTL_RELEASE, mask)] 0) = mask := by
    rw [putFields_one, Fld.get_set _ (by decide)]
    exact Nat.mod_eq_of_lt h
  show max 0 (min 15 (F.BOOT_CTL_RELEASE.get (putFields [(F.BOOT_CTL_RELEASE, mask)] 0))) = mask
  omega

/-- R457: a write of RELEASE. -/
theorem State.writeParts_release {s : State} (hu : s.up) (path : Path) (mask : Nat) :
    s.writeParts path Reg.BOOT_CTL [(F.BOOT_CTL_RELEASE, mask)] =
      some ((s.setReg Reg.BOOT_CTL (s.releaseWord path mask)).releaseTiers
        ((s.setReg Reg.BOOT_CTL (s.releaseWord path mask)).fld Reg.BOOT_CTL F.BOOT_CTL_RELEASE)) := by
  have hro (w v x : Word) : roWrite path .boot 8 (fun g => [(F.BOOT_CTL_RELEASE, mask)].any fun e => e.1 == g) w v x bootCtlRow.fields = false := by
    refine List.any_eq_false.2 fun r hr => ?_
    by_cases ht : ([(F.BOOT_CTL_RELEASE, mask)].any fun e => e.1 == r.bits) = true
    · have hb : r.bits = F.BOOT_CTL_RELEASE := by
        simp only [List.any_cons, List.any_nil, Bool.or_false, beq_iff_eq] at ht
        exact ht.symm
      have hty : r.ty = .rw := (by decide : ∀ r ∈ bootCtlRow.fields, r.bits = F.BOOT_CTL_RELEASE → r.ty = .rw) r hr hb
      rw [hb, guarded_release, hty]
      simp
    · simp [ht]
  rw [State.writeParts, State.writeReg_ok path _ _ (State.rawView_bootCtl s) (State.resolve_bootCtl hu.stopped) rfl (fun h => hu.notStarting h),
    State.writeFields_stored path (by decide) (by decide) rfl (fun h => by cases h) rfl, hro, when_false, State.act_bootCtl]
  refine congrArg some ?_
  unfold State.bootCtl
  dsimp only
  have h1 : (woOf path .boot 8 (fun g => [(F.BOOT_CTL_RELEASE, mask)].any fun e => e.1 == g) (putFields [(F.BOOT_CTL_RELEASE, mask)] 0)
      F.BOOT_CTL_OWNER_LOCK == 1) = false := rfl
  have h2 : (woOf path .boot 8 (fun g => [(F.BOOT_CTL_RELEASE, mask)].any fun e => e.1 == g) (putFields [(F.BOOT_CTL_RELEASE, mask)] 0)
      F.BOOT_CTL_REBOOT == 1) = false := rfl
  have h3 : ([(F.BOOT_CTL_RELEASE, mask)].any fun e => e.1 == F.BOOT_CTL_RELEASE) = true := rfl
  rw [h1, h2, h3, when_false, when_true, when_false]
  rfl

theorem State.completes_release {s : State} (hu : s.up) (hs : s.still) (path : Path) (mask : Fin 16) :
    s.completes (.release path mask) [.regs, .tiers] [Reg.BOOT_CTL]
      (fun t => t.fld Reg.BOOT_CTL F.BOOT_CTL_RELEASE = mask.val ∧
        ∀ k < 4, t.tier k = { s.tier k with released := bit mask.val k && ((s.tier k).released || !s.tierBusy k) }) := by
  have hx := (State.onPath_up hu path _).trans (State.writeParts_release hu path mask.val)
  have ho : s.only [.regs] [Reg.BOOT_CTL] (s.setReg Reg.BOOT_CTL (s.releaseWord path mask.val)) := here.setReg ..
  have hv : (s.setReg Reg.BOOT_CTL (s.releaseWord path mask.val)).fld Reg.BOOT_CTL F.BOOT_CTL_RELEASE = mask.val := by
    rw [State.fld, State.reg_setReg, State.releaseWord_get path mask.isLt]
  rw [hv] at hx
  generalize s.setReg Reg.BOOT_CTL (s.releaseWord path mask.val) = u at hx ho hv
  have hr := State.releaseTiers_only mask.val u
  have hall : s.only [.regs, .tiers] [Reg.BOOT_CTL] (u.releaseTiers mask.val) := ho.mono.step hr
  have ht (k : Nat) (hk : k < 4) : (u.releaseTiers mask.val).tier k = (s.tier k).releasedBy mask.val k := by
    rw [State.releaseTiers_tier mask.val hk, ho.tier]
  refine State.completes_access rfl hx (hall.still_runs hs fun k hk => by rw [ht k hk]; rfl) hall ⟨?_, fun k hk => ?_⟩
  · rw [State.carry_fld, hr.fld, hv]
  · rw [State.carry_tier, ht k hk]
    rfl

/-- Settles O8: the outcome of a load at the manager, the firmware restart of the manager's warden and its refusal to others, the owner lock and the
release of tiers. -/
theorem firmwareControl : Obligations.FirmwareControl := by
  intro s hu hs
  exact ⟨fun n hm hn hl h3 hh hf => State.completes_loadTaken hu hs hm hn hl h3 hh hf, fun hb => State.completes_reboot hu hs hb,
    fun path hp => State.completes_reboot_refused hu hs hp, fun path hm => State.completes_ownerLock hu hs path hm,
    fun path mask => State.completes_release hu hs path mask⟩

end Sys2Proof.Machine
end

section
/-! PROOFS. The registers of a port (R54, R78, R86, R92 to R95): `LINK_x.CTL` and what its fields start. -/

set_option Elab.async false

namespace Sys2Proof.Machine
open Sys2Proof
open State.only (here)

/-! ### Writes of `LINK_x.CTL` -/

/-- `LINK_x.CTL`. -/
def linkCtlRow : RegRow :=
  ⟨"LINK_x.CTL", 0x4, 4, 1, false,
    [.of "RSV0" 31 8 .rsv 0 .imm false, .of "STEP_UP" 7 7 .wo 0 .imm false, .of "RETRAIN" 6 6 .wo 0 .imm false, .of "PRECODE_REQ" 5 5 .rw 0 .imm false,
     .of "MAX_RATE" 4 4 .rw 1 .imm false, .of "RSV1" 3 3 .rsv 0 .imm false, .of "MODE" 2 1 .rw 0 .blk false, .of "ENABLE" 0 0 .rw 1 .imm false]⟩

theorem blockOf_linkCtl (p : Port) : blockOf (Reg.LINK_CTL p) = (.link p, 4) := by cases p <;> rfl

theorem State.resolve_linkCtl {s : State} {p : Port} (hs : s.stopped = false) (hp : s.present (.link p) = true) :
    s.resolve (Reg.LINK_CTL p) = .ok (.link p, 4, linkCtlRow) :=
  State.resolve_ok hs (blockOf_linkCtl p) (by simp) (by simp) hp (by cases p <;> decide) rfl

/-- `LINK_x.CTL` has no read-only field. -/
theorem roWrite_linkCtl (path : Path) (p : Port) (touch : Fld → Bool) (data old view : Word) :
    roWrite path (.link p) 4 touch data old view linkCtlRow.fields = false := by
  simp [roWrite, linkCtlRow, guarded, FieldRow.of]

theorem State.act_linkCtl (path : Path) (p : Port) (a : Nat) (wo : Fld → Nat) (touch : Fld → Bool) (old : Word) (s : State) :
    s.act path (.link p) 4 a wo touch old = s.linkCtl p wo touch := rfl

/-- A write of `LINK_x.CTL` that touches neither ENABLE nor a command has no effect beside the value. -/
theorem State.linkCtl_none {p : Port} {wo : Fld → Nat} {touch : Fld → Bool} {s : State} (he : touch F.LINK_CTL_ENABLE = false)
    (hu : wo F.LINK_CTL_STEP_UP = 0) (hr : wo F.LINK_CTL_RETRAIN = 0) : s.linkCtl p wo touch = s := by
  rw [State.linkCtl, he, hu, hr]
  rfl

/-- A write that names one field touches that field. -/
theorem touch_one (f : Fld) (x : Nat) : (fun g => [(f, x)].any (fun e => e.1 == g)) = fun g => f == g := funext fun g => by simp

/-- A field that a write does not touch takes nothing. -/
theorem woOf_untouched {path : Path} {b : Block} {o : Nat} {touch : Fld → Bool} {w : Word} {f : Fld} (h : touch f = false) :
    woOf path b o touch w f = 0 := by
  rw [woOf, h]
  rfl

section
variable {s : State} {p : Port} (hu : s.up) (hp : s.present (.link p) = true) (path : Path)
include hu hp

theorem State.writeReg_linkCtl (w : Word) (touch : Fld → Bool) :
    s.writeReg path (Reg.LINK_CTL p) w touch = s.writeFields path (.link p) 4 (Reg.LINK_CTL p) linkCtlRow w touch :=
  State.writeReg_ok path w touch (State.rawView_none (blockOf_linkCtl p) (by simp) (by simp)) (State.resolve_linkCtl hu.stopped hp) rfl hu.notStarting

/-- R95: ENABLE is stored, and the port is started or turned off. -/
theorem State.writeParts_enable (x : Nat) (hx : x < 2) :
    s.writeParts path (Reg.LINK_CTL p) [(F.LINK_CTL_ENABLE, x)] =
      some ((s.setFld (Reg.LINK_CTL p) F.LINK_CTL_ENABLE x).ctlEnable p (x == 1)) := by
  have hg : F.LINK_CTL_ENABLE.get (F.LINK_CTL_ENABLE.set x 0) = x := (Fld.get_set _ (by decide) _ _).trans (Nat.mod_eq_of_lt hx)
  have hst (lo : Bool) (old : Word) : storedWord path (.link p) 4 lo (fun g => F.LINK_CTL_ENABLE == g) (F.LINK_CTL_ENABLE.set x 0) old linkCtlRow.fields =
      F.LINK_CTL_ENABLE.set x old := by
    have : storedWord path (.link p) 4 lo (fun g => F.LINK_CTL_ENABLE == g) (F.LINK_CTL_ENABLE.set x 0) old linkCtlRow.fields =
      F.LINK_CTL_ENABLE.set (max 0 (min 1 (F.LINK_CTL_ENABLE.get (F.LINK_CTL_ENABLE.set x 0)))) old := rfl
    rw [this, hg]
    congr 1
    omega
  rw [State.writeParts, touch_one, State.writeReg_linkCtl hu hp, putFields_one, State.writeFields_stored path (by simp) (by simp) rfl (fun h => by cases h) rfl, hst]
  have hf : (s.setFld (Reg.LINK_CTL p) F.LINK_CTL_ENABLE x).fld (Reg.LINK_CTL p) F.LINK_CTL_ENABLE = x := by
    rw [State.fld_setFld _ _ (by decide)]
    exact Nat.mod_eq_of_lt hx
  refine congrArg some ?_
  rw [roWrite_linkCtl, when_false, State.act_linkCtl]
  change (s.setFld (Reg.LINK_CTL p) F.LINK_CTL_ENABLE x).linkCtl p _ _ = _
  rw [State.linkCtl, woOf_untouched (by decide), woOf_untouched (by decide)]
  change (s.setFld (Reg.LINK_CTL p) F.LINK_CTL_ENABLE x).ctlEnable p ((s.setFld (Reg.LINK_CTL p) F.LINK_CTL_ENABLE x).fld (Reg.LINK_CTL p) F.LINK_CTL_ENABLE == 1) = _
  rw [hf]

/-- R94, R54: MODE is stored and waits for the row boundary. -/
theorem State.writeParts_mode (x : Nat) (hx : x < 2) :
    s.writeParts path (Reg.LINK_CTL p) [(F.LINK_CTL_MODE, x)] =
      some ((s.setFld (Reg.LINK_CTL p) F.LINK_CTL_MODE x).buffered true (Reg.LINK_CTL p)) := by
  have hg : F.LINK_CTL_MODE.get (F.LINK_CTL_MODE.set x 0) = x := (Fld.get_set _ (by decide) _ _).trans (Nat.mod_eq_of_lt (hx.trans (by decide)))
  have hst (lo : Bool) (old : Word) : storedWord path (.link p) 4 lo (fun g => F.LINK_CTL_MODE == g) (F.LINK_CTL_MODE.set x 0) old linkCtlRow.fields =
      F.LINK_CTL_MODE.set x old := by
    have : storedWord path (.link p) 4 lo (fun g => F.LINK_CTL_MODE == g) (F.LINK_CTL_MODE.set x 0) old linkCtlRow.fields =
      F.LINK_CTL_MODE.set (max 0 (min 3 (F.LINK_CTL_MODE.get (F.LINK_CTL_MODE.set x 0)))) old := rfl
    rw [this, hg]
    congr 1
    omega
  have hR : rsvBroken (fun g => F.LINK_CTL_MODE == g) (F.LINK_CTL_MODE.set x 0) (s.reg (Reg.LINK_CTL p)) linkCtlRow.fields = false := rfl
  have hW : linkCtlRow.fields.any (fun f => f.ty == .rwl && F.LINK_CTL_MODE == f.bits) = false := rfl
  have hL : laterField (fun g => F.LINK_CTL_MODE == g) linkCtlRow.fields = true := rfl
  rw [State.writeParts, touch_one, State.writeReg_linkCtl hu hp, putFields_one]
  have hb : bankAddr path (.link p) 4 (Reg.LINK_CTL p) = Reg.LINK_CTL p := by simp [bankAddr]
  simp only [State.writeFields, hb, reduceCtorEq, false_and, if_false, hR, hW, hL, hst, roWrite_linkCtl, Bool.false_eq_true, Bool.and_false, when_false]
  refine congrArg some ?_
  rw [State.act_linkCtl]
  refine (State.linkCtl_none rfl rfl rfl).trans ?_
  exact if_congr (by simp) rfl rfl

/-- R95: a command of `LINK_x.CTL` has its effect, and the register keeps its value. -/
theorem State.writeParts_linkCommand (f : Fld) (hf : f = F.LINK_CTL_RETRAIN ∨ f = F.LINK_CTL_STEP_UP) :
    s.writeParts path (Reg.LINK_CTL p) [(f, 1)] =
      some ((s.setReg (Reg.LINK_CTL p) (s.reg (Reg.LINK_CTL p))).linkCtl p (commandOf f 1) (fun g => f == g)) := by
  rw [State.writeParts_command hu path (State.resolve_linkCtl hu.stopped hp) (State.rawView_none (blockOf_linkCtl p) (by simp) (by simp)) rfl (by simp) (by simp)
    (by rcases hf with rfl | rfl <;> rfl) rfl (by rcases hf with rfl | rfl <;> rfl) (by rcases hf with rfl | rfl <;> decide)]
  rfl

end

/-! ### Leaving PRBS -/

/-- R93: a port that leaves PRBS has its errors counted. -/
theorem State.leaveActive_prbs {s : State} {p : Port} (e : Bool) (h : (s.port p).tstate = .prbs) : s.leaveActive p e = s.prbsCount p := by
  have hp : ((s.prbsCount p).port p).tstate = .prbs := (congrArg PortS.tstate ((State.prbsCount_only p s).port p)).trans h
  rw [State.leaveActive]
  exact if_pos (by rw [hp]; decide)

theorem State.leaveActive_any (p : Port) (e : Bool) (s : State) : s.only prbsParts (prbsRegs p) (s.leaveActive p e) := by
  by_cases h : (s.port p).tstate = .prbs
  · rw [State.leaveActive_prbs e h]
    exact (State.prbsCount_only p s).mono (by decide) (fun _ h => List.mem_append_right _ h)
  · exact (State.leaveActive_only p e s h).mono (by decide) (by simp)

theorem portRegs_prbs (p : Port) : ∀ a ∈ portRegs p, a ∈ prbsRegs p := fun _ h => List.mem_append_left _ h

/-- What a port does as it enters another state that sends no traffic. -/
theorem State.entered_only (p : Port) (f : PortS → PortS) (s : State) : s.only portParts (portRegs p) (((s.modPort p f).sendState p).portFlags p) :=
  ((here.modPort ..).step (State.sendState_only ..)).step (State.portFlags_only ..)

theorem State.entered_port (p : Port) (f : PortS → PortS) (s : State) :
    { (((s.modPort p f).sendState p).portFlags p).port p with row := [] } = { f (s.port p) with row := [] } := by
  rw [(State.portFlags_only p _).port p, State.sendState_port, State.port_modPort]

theorem State.hunt_any (p : Port) (full : Bool) (s : State) : s.only prbsParts (prbsRegs p) (s.hunt p full) :=
  (State.leaveActive_any p true s).trans ((State.entered_only p _ _).mono (by decide) (portRegs_prbs p))

theorem State.train_any (p : Port) (full : Bool) (s : State) : s.only prbsParts (prbsRegs p) (s.train p full) :=
  (State.newTraining_only p s).mono.trans (State.hunt_any p full _)

theorem State.goOff_any (p : Port) (s : State) : s.only prbsParts (prbsRegs p) (s.goOff p) :=
  (State.leaveActive_any p true s).trans ((State.entered_only p _ _).mono (by decide) (portRegs_prbs p))

/-- R95: a port that is turned off is in OFF. -/
theorem State.goOff_port (p : Port) (s : State) : ((s.goOff p).port p).tstate = .off :=
  congrArg PortS.tstate (State.entered_port p _ (s.leaveActive p true))

/-- R94: a port that leaves PRBS keeps what it had sent for a replay. -/
theorem State.train_buffer {p : Port} {s : State} (full : Bool) (h : (s.port p).tstate = .prbs) : ((s.train p full).port p).buffer = (s.port p).buffer := by
  have hn : ((s.newTraining p).port p).buffer = (s.port p).buffer := by rw [State.newTraining, State.port_modPort]
  have hl : ((s.newTraining p).leaveActive p true).port p = (s.newTraining p).port p := by
    rw [State.leaveActive_prbs true ((State.newTraining_port p s).trans h)]
    exact (State.prbsCount_only ..).port p
  exact (congrArg PortS.buffer (State.entered_port p (PortS.hunting full) ((s.newTraining p).leaveActive p true))).trans
    ((congrArg PortS.buffer hl).trans hn)

/-! ### The partners that STEP_UP may try again -/

/-- What of a port neither its half of the bond nor what it carries names survives its leaving the bond, on every port. -/
theorem State.leaveBond_keeps {α : Type} (π : PortS → α) (hb : ∀ (x : PortS) b, π { x with bond := b } = π x) (ht : ∀ x y : PortS, π (y.takeOver x) = π y)
    (hw : ∀ x : PortS, π { x with wait := [], carry := false } = π x) (p q : Port) (s : State) : π ((s.leaveBond p).port q) = π (s.port q) := by
  have hmod (r : Port) (f : PortS → PortS) (hf : ∀ x, π (f x) = π x) (u : State) : π ((u.modPort r f).port q) = π (u.port q) := by
    by_cases e : q = r
    · subst e
      rw [State.port_modPort]
      exact hf _
    · rw [State.port_modPort_ne e]
  unfold State.leaveBond
  refine iteInduction (motive := fun t : State => π (t.port q) = π (s.port q)) (fun _ => rfl) (fun _ => ?_)
  refine iteInduction (motive := fun t : State => π (t.port q) = π (s.port q)) (fun _ => hmod p _ (fun x => hb x false) s) (fun _ => ?_)
  refine (hmod p _ (fun x => hb x _) _).trans ?_
  refine iteInduction (motive := fun t : State => π (t.port q) = π (s.port q)) (fun _ => ?_) (fun _ => rfl)
  exact (hmod p _ hw _).trans (hmod _ _ (ht _) s)

theorem State.leaveBond_noStep (p : Port) (s : State) : ((s.leaveBond p).port p).noStep = (s.port p).noStep :=
  State.leaveBond_keeps PortS.noStep (fun _ _ => rfl) (fun _ _ => rfl) (fun _ => rfl) p p s

/-- Leaving ACTIVE or PRBS changes no port's training state. -/
theorem State.leaveActive_tstate (p q : Port) (e : Bool) (s : State) : ((s.leaveActive p e).port q).tstate = (s.port q).tstate := by
  have hc : (s.prbsCount p).port q = s.port q := (State.prbsCount_only p s).port q
  unfold State.leaveActive
  refine iteInduction (motive := fun t : State => (t.port q).tstate = (s.port q).tstate) (fun _ => congrArg PortS.tstate hc) (fun _ => ?_)
  refine (State.leaveBond_keeps PortS.tstate (fun _ _ => rfl) (fun _ _ => rfl) (fun _ => rfl) p q _).trans ?_
  exact congrArg PortS.tstate (((here (ps := [.regs]) (as := [Reg.LINK_STATUS p])).raiseIf .. |>.port q).trans hc)

theorem State.entered_tstate {p q : Port} (h : q ≠ p) (f : PortS → PortS) (s : State) :
    ((((s.modPort p f).sendState p).portFlags p).port q).tstate = (s.port q).tstate := by
  rw [(State.portFlags_only p _).port q]
  have h1 := congrArg PortS.tstate (State.sendState_ports p (s.modPort p f) q)
  have h2 := congrArg PortS.tstate (State.port_modPort_ne h f s)
  exact Eq.trans h1 h2

theorem State.train_noStep {p : Port} {s : State} (full : Bool) (h : (s.port p).tstate ≠ .prbs) : ((s.train p full).port p).noStep = (s.port p).noStep := by
  have hn : ((s.newTraining p).port p).noStep = (s.port p).noStep := by rw [State.newTraining, State.port_modPort]
  have hl : (((s.newTraining p).leaveActive p true).port p).noStep = ((s.newTraining p).port p).noStep := by
    unfold State.leaveActive
    rw [State.prbsCount_none p _ (by rw [State.newTraining_port]; exact h)]
    refine iteInduction (motive := fun t : State => (t.port p).noStep = ((s.newTraining p).port p).noStep) (fun _ => rfl) (fun _ => ?_)
    refine (State.leaveBond_noStep ..).trans ?_
    exact congrArg PortS.noStep ((here (ps := [.regs]) (as := [Reg.LINK_STATUS p])).raiseIf ..|>.port p)
  exact (congrArg PortS.noStep (State.entered_port p (PortS.hunting full) ((s.newTraining p).leaveActive p true))).trans (hl.trans hn)

/-! ### ENABLE -/

section
variable {s : State} {p : Port} (hu : s.up) (hp : s.present (.link p) = true) (hs : s.still) (path : Path)
include hu hp hs

/-- The state with ENABLE as written. -/
abbrev State.portOn (s : State) (p : Port) (x : Nat) : State := s.setFld (Reg.LINK_CTL p) F.LINK_CTL_ENABLE x

omit hu hp hs in
theorem State.portOn_only (s : State) (p : Port) (x : Nat) : s.only [.regs] [Reg.LINK_CTL p] (s.portOn p x) := here.setFld ..

omit hu hp hs in
theorem State.portOn_fld (s : State) (p : Port) {x : Nat} (hx : x < 2) : (s.portOn p x).fld (Reg.LINK_CTL p) F.LINK_CTL_ENABLE = x :=
  (State.fld_setFld _ _ (by decide) ..).trans (Nat.mod_eq_of_lt hx)

omit hs in
theorem State.completes_enable {x : Nat} {c : Instr} (hx : x < 2) {ps : List Part} {as : List Nat} {P : State → Prop}
    (hc : exec c s = access (State.linkField path p F.LINK_CTL_ENABLE x) s) (ho : s.only ps as ((s.portOn p x).ctlEnable p (x == 1)))
    (hst : ((s.portOn p x).ctlEnable p (x == 1)).still) (hP : P (s.carry ((s.portOn p x).ctlEnable p (x == 1)))) : s.completes c ps as P :=
  State.completes_access hc ((State.onPath_up hu path _).trans (State.writeParts_enable hu hp path x hx)) hst ho hP

/-- R78, R95: ENABLE starts a port that may be driven. -/
theorem State.completes_linkEnable (ha : s.portAllowed p = true) (ht : (s.port p).tstate = .off) :
    s.completes (.linkEnable path p) portParts (Reg.LINK_CTL p :: portRegs p)
      (fun t => t.fld (Reg.LINK_CTL p) F.LINK_CTL_ENABLE = 1 ∧ (t.port p).tstate = if s.maxRate p then .huntFull else .huntHalf) := by
  have he := State.portOn_only s p 1
  have hport : (s.portOn p 1).port p = s.port p := he.port p
  have hf : (s.portOn p 1).ctlEnable p (1 == 1) = (s.portOn p 1).freshHunt p := by
    have hr : p = .e ∨ p = .w → s.power.relays = true := by
      rintro (rfl | rfl) <;> simp only [State.portAllowed, Bool.and_eq_true] at ha <;> exact ha.1.2.1
    have hall : (s.portOn p 1).portAllowed p = true := ha
    have hn : ((p == .e || p == .w) && (s.portOn p 1).awake && (s.portOn p 1).power.alive && !(s.portOn p 1).power.relays) = false := by
      rw [he.power']
      by_cases h : p = .e ∨ p = .w
      · simp [hr h]
      · rw [not_or] at h
        simp [h.1, h.2]
    simp only [State.ctlEnable, BEq.rfl, if_true, hn, Bool.false_eq_true, if_false]
    exact if_pos (by rw [hall, State.portOn_fld s p (by decide), hport, ht]; rfl)
  have hfo : (s.portOn p 1).only portParts (portRegs p) ((s.portOn p 1).freshHunt p) := State.freshHunt_only p _ (by rw [hport, ht]; decide)
  have ho : s.only portParts (Reg.LINK_CTL p :: portRegs p) ((s.portOn p 1).freshHunt p) :=
    (he.mono (by decide) (by simp)).trans (hfo.mono (by decide) (fun _ h => .tail _ h))
  refine State.completes_enable hu hp path (x := 1) (by decide) rfl (by rw [hf]; exact ho) (by rw [hf]; exact ho.still hs) ?_
  rw [hf]
  refine ⟨?_, ?_⟩
  · exact (State.carry_fld ..).trans ((hfo.fld _ _ (by cases p <;> decide)).trans (State.portOn_fld s p (by decide)))
  · have hm : (s.portOn p 1).maxRate p = s.maxRate p :=
      congrArg (· == 1) (State.fld_setFld_apart _ _ _ (by decide) (by decide) _ _)
    rw [← hm]
    exact (State.train_port ..).1

/-- R26, R95: ENABLE of an east or west port opens the relays first. -/
theorem State.completes_linkEnable_relays (hside : p = .e ∨ p = .w) (hr : s.power.relays = false) (hal : s.power.alive = true) (ht : s.isTest = false)
    (hl : s.portLost p = false) :
    s.completes (.linkEnable path p) [.power, .regs, .counts] [Reg.LINK_CTL p]
      (fun t => t.fld (Reg.LINK_CTL p) F.LINK_CTL_ENABLE = 1 ∧ t.power.relays = true ∧ t.power.relayAt = some s.now) := by
  have he := State.portOn_only s p 1
  obtain ⟨u, hue⟩ : ∃ u, u = s.portOn p 1 := ⟨_, rfl⟩
  rw [← hue] at he
  have hfl : u.fld (Reg.LINK_CTL p) F.LINK_CTL_ENABLE = 1 := by rw [hue]; exact State.portOn_fld s p (by decide)
  have hd : u.drives p = true := by
    have h1 : u.isTest = false := by rw [hue]; exact ht
    have h2 : u.portLost p = false := by rw [hue]; exact hl
    simp [State.drives, h1, h2, hfl]
  have hf : u.ctlEnable p (1 == 1) = ({ u with power.relays := true, power.relayAt := some u.now } : State).relayCount := by
    have hor : (u.drives .e || u.drives .w) = true := by rcases hside with rfl | rfl <;> simp [hd]
    have hu' : u.power.relays = false := by rw [he.power']; exact hr
    have hc : ((p == .e || p == .w) && u.awake && u.power.alive && !u.power.relays) = true := by
      have h1 : u.awake = true := by rw [he.awake]; exact hu.awake
      have h2 : u.power.alive = true := by rw [he.power']; exact hal
      rcases hside with rfl | rfl <;> simp [h1, h2, hu']
    simp only [State.ctlEnable, BEq.rfl, if_true, hc]
    rw [State.openRelays, if_pos (by rw [hor, hu']; rfl)]
  have hco : ({ u with power.relays := true, power.relayAt := some u.now } : State).only [.counts] []
      ({ u with power.relays := true, power.relayAt := some u.now } : State).relayCount := (here.bump ..).bump ..
  have ho : s.only [.power, .regs, .counts] [Reg.LINK_CTL p] (u.ctlEnable p (1 == 1)) := by
    rw [hf]
    exact ((he.mono (by decide) (by simp)).power _).trans hco.mono
  have hpw : (u.ctlEnable p (1 == 1)).power = { u.power with relays := true, relayAt := some u.now } := by rw [hf]; exact hco.power'
  refine State.completes_enable hu hp path (x := 1) (by decide) rfl (by rw [← hue]; exact ho) (by rw [← hue]; exact ho.still hs) ?_
  rw [← hue]
  refine ⟨(State.carry_fld ..).trans ?_, congrArg PowerS.relays hpw, (congrArg PowerS.relayAt hpw).trans (congrArg some he.now')⟩
  rw [hf]
  exact (hco.fld _ _).trans hfl

end

/-! ### The other fields of `LINK_x.CTL` -/

theorem State.closeRelays_only (s : State) : s.only [.power, .counts] [] s.closeRelays := by
  unfold State.closeRelays
  exact (here.power _).cond_ (((here.power _).bump ..).bump ..)

theorem State.closeRelays_open (s : State) : s.closeRelays.power.relays = false := by
  unfold State.closeRelays State.relayCount
  cases s.power.relays
  · rfl
  · exact (congrArg PowerS.relays ((here (ps := [.counts]) (as := []).bump ..).bump ..).power' :)

section
variable {s : State} {p : Port} (hu : s.up) (hp : s.present (.link p) = true) (path : Path)
include hu hp

/-- R26, R95: a port that is turned off; an east or west one, whose other port is off, closes the relays. -/
theorem State.completes_linkDisable (hs : s.still) (he : p = .e → (s.port .w).tstate = .off) (hw : p = .w → (s.port .e).tstate = .off) :
    s.completes (.linkDisable path p) (.power :: prbsParts) (Reg.LINK_CTL p :: prbsRegs p)
      (fun t => t.fld (Reg.LINK_CTL p) F.LINK_CTL_ENABLE = 0 ∧ (t.port p).tstate = .off ∧
        t.power.relays = if p = .e ∨ p = .w then false else s.power.relays) := by
  have hx := State.portOn_only s p 0
  have hf : (s.portOn p 0).ctlEnable p (0 == 1) = when (p == .e || p == .w) State.closeRelays ((s.portOn p 0).goOff p) := by
    refine if_neg ?_
    cases p
    case e => simp [(congrArg PortS.tstate (hx.port .w)).trans (he rfl)]
    case w => simp [(congrArg PortS.tstate (hx.port .e)).trans (hw rfl)]
    all_goals exact Bool.false_ne_true
  have hg := State.goOff_any p (s.portOn p 0)
  have hog : s.only (.power :: prbsParts) (Reg.LINK_CTL p :: prbsRegs p) ((s.portOn p 0).goOff p) :=
    (hx.mono (by decide) (by simp)).trans (hg.mono (by decide) (fun _ h => .tail _ h))
  have hc (u : State) : u.only [.power, .counts] [] (when (p == .e || p == .w) State.closeRelays u) := here.cond_ (State.closeRelays_only u)
  have ho : s.only (.power :: prbsParts) (Reg.LINK_CTL p :: prbsRegs p) (when (p == .e || p == .w) State.closeRelays ((s.portOn p 0).goOff p)) :=
    hog.trans ((hc _).mono (by decide) (by simp))
  refine State.completes_enable hu hp path (x := 0) (by decide) rfl (by rw [hf]; exact ho) (by rw [hf]; exact ho.still hs) ?_
  rw [hf]
  refine ⟨?_, ?_, ?_⟩
  · exact (State.carry_fld ..).trans (((hc _).fld _ _).trans ((hg.fld _ _ (by cases p <;> decide)).trans (State.portOn_fld s p (by decide))))
  · exact (congrArg PortS.tstate ((hc _).port p)).trans (State.goOff_port p _)
  · have hr : ((s.portOn p 0).goOff p).power = s.power := hg.power'.trans hx.power'
    change (when (p == .e || p == .w) State.closeRelays ((s.portOn p 0).goOff p)).power.relays = _
    by_cases hside : p = .e ∨ p = .w
    · rw [if_pos hside, show (p == .e || p == .w) = true by rcases hside with rfl | rfl <;> rfl]
      exact State.closeRelays_open _
    · rw [if_neg hside, show (p == .e || p == .w) = false by rw [not_or] at hside; simp [hside.1, hside.2]]
      exact congrArg PowerS.relays hr

/-- R95: the port beside one that is driven stays as it is. -/
theorem State.completes_linkDisable_held (hs : s.still)
    (h : (p = .e ∧ (s.port .w).tstate ≠ .off) ∨ (p = .w ∧ (s.port .e).tstate ≠ .off)) :
    s.completes (.linkDisable path p) [.regs] [Reg.LINK_CTL p] (fun t => t.fld (Reg.LINK_CTL p) F.LINK_CTL_ENABLE = 0) := by
  have hx := State.portOn_only s p 0
  have hf : (s.portOn p 0).ctlEnable p (0 == 1) = s.portOn p 0 := by
    rcases h with ⟨rfl, h⟩ | ⟨rfl, h⟩
    · exact if_pos ((congrArg (· != TState.off) (congrArg PortS.tstate (hx.port .w))).trans (by simpa using h))
    · exact if_pos ((congrArg (· != TState.off) (congrArg PortS.tstate (hx.port .e))).trans (by simpa using h))
  refine State.completes_enable hu hp path (x := 0) (by decide) rfl (by rw [hf]; exact hx) (by rw [hf]; exact hx.still hs) ?_
  rw [hf]
  exact (State.carry_fld ..).trans (State.portOn_fld s p (by decide))

/-- A command of `LINK_x.CTL` that retrains a port in training or in traffic. -/
theorem State.completes_linkCommand {c : Instr} {f : Fld} {g : State → State} {P : State → Prop} (hs : s.still)
    (hc : exec c s = access (State.linkField path p f 1) s) (hf : f = F.LINK_CTL_RETRAIN ∨ f = F.LINK_CTL_STEP_UP)
    (hg : ∀ u : State, u.linkCtl p (commandOf f 1) (fun h => f == h) = g u) (ho : ∀ u : State, s.only [.regs] [] u → u.only portParts (portRegs p) (g u))
    (hP : ∀ u : State, s.only [.regs] [] u → P (s.carry (g u))) : s.completes c portParts (portRegs p) P := by
  have hx := State.setReg_same_only (Reg.LINK_CTL p) s
  have hog := hx.mono.trans (ho _ hx)
  refine State.completes_access hc ((State.onPath_up hu path _).trans (State.writeParts_linkCommand hu hp path f hf)) ?_ ?_ ?_
  · rw [hg]; exact hog.still hs
  · rw [hg]; exact hog
  · rw [hg]; exact hP _ hx

omit hu hp in
theorem State.ctlRetrain_trains {u : State} (h : (u.port p).tstate ∈ [.cap, .step, .active, .huntFull, .huntHalf]) : u.ctlRetrain p = u.relock p :=
  if_pos (by simpa using h)

omit hu hp in
theorem trains_prbs {x : TState} (h : x ∈ [TState.cap, .step, .active, .huntFull, .huntHalf]) : x ≠ .prbs := by
  rintro rfl
  simp at h

/-- R80, R95: RETRAIN. -/
theorem State.completes_retrain (hs : s.still) (ht : (s.port p).tstate ∈ [.cap, .step, .active, .huntFull, .huntHalf]) :
    s.completes (.retrain path p) portParts (portRegs p)
      (fun t => (t.port p).tstate = (if (s.port p).full then .huntFull else .huntHalf) ∧ t.fld (Reg.LINK_STATUS p) F.LINK_STATUS_RETRAIN = 1) := by
  have hg {u : State} (hx : s.only [.regs] [] u) : u.ctlRetrain p = u.relock p := State.ctlRetrain_trains (by rw [hx.port p]; exact ht)
  refine State.completes_linkCommand hu hp path (f := F.LINK_CTL_RETRAIN) (g := State.ctlRetrain p) hs rfl (.inl rfl) (fun _ => rfl) (fun u hx => ?_) fun u hx => ?_
  · rw [hg hx]
    exact State.relock_only p u (by rw [hx.port p]; exact trains_prbs ht)
  · rw [hg hx]
    refine ⟨(congrArg PortS.tstate (State.relock_port u p)).trans ?_, (State.carry_fld ..).trans (State.relock_flag u p)⟩
    rw [hx.port p]
    exact (State.train_port ..).1

/-- R86: STEP_UP forgets the partners with which the step failed, and retrains. -/
theorem State.completes_stepUp (hs : s.still) (ht : (s.port p).tstate ∈ [.cap, .step, .active, .huntFull, .huntHalf]) :
    s.completes (.stepUp path p) portParts (portRegs p)
      (fun t => (t.port p).tstate = (if (s.port p).full then .huntFull else .huntHalf) ∧ (t.port p).noStep = []) := by
  have hm (u : State) : (u.modPort p (fun x => { x with noStep := [] })).port p = { u.port p with noStep := [] } := State.port_modPort ..
  have hn {u : State} (hx : s.only [.regs] [] u) : ((u.modPort p (fun x => { x with noStep := [] })).port p).tstate = (s.port p).tstate :=
    ((congrArg PortS.tstate (hm u) :)).trans (congrArg PortS.tstate (hx.port p) :)
  have hg {u : State} (hx : s.only [.regs] [] u) : u.ctlStepUp p = (u.modPort p (fun x => { x with noStep := [] })).relock p :=
    State.ctlRetrain_trains (by rw [hn hx]; exact ht)
  have hb {u : State} (hx : s.only [.regs] [] u) : ((u.modPort p (fun x => { x with noStep := [] })).port p).tstate ≠ .prbs := by
    rw [hn hx]; exact trains_prbs ht
  refine State.completes_linkCommand hu hp path (f := F.LINK_CTL_STEP_UP) (g := State.ctlStepUp p) hs rfl (.inr rfl) (fun _ => rfl) (fun u hx => ?_) fun u hx => ?_
  · rw [hg hx]
    exact (here.modPort ..).trans (State.relock_only p _ (hb hx))
  · rw [hg hx]
    have hr := State.relock_port (u.modPort p (fun x => { x with noStep := [] })) p
    have hfull : ((u.modPort p (fun x => { x with noStep := [] })).port p).full = (s.port p).full :=
      ((congrArg PortS.full (hm u) :)).trans (congrArg PortS.full (hx.port p) :)
    refine ⟨(congrArg PortS.tstate hr).trans ?_, (congrArg PortS.noStep hr).trans ?_⟩
    · rw [hfull]
      exact (State.train_port ..).1
    · exact (State.train_noStep _ (hb hx)).trans (congrArg PortS.noStep (hm u))

/-- R54, R94: a write of MODE waits for the row boundary. -/
theorem State.completes_linkMode {c : Instr} {x : Nat} (hx : x < 2) (hs : s.calm) (hc : exec c s = access (State.linkField path p F.LINK_CTL_MODE x) s) :
    s.completes c [.regs, .effects] [Reg.LINK_CTL p]
      (fun t => t.fld (Reg.LINK_CTL p) F.LINK_CTL_MODE = x ∧ Reg.LINK_CTL p ∈ t.regs.wait ∧ t.regs.eff = s.regs.eff) := by
  obtain ⟨u, hue⟩ : ∃ u, u = s.setFld (Reg.LINK_CTL p) F.LINK_CTL_MODE x := ⟨_, rfl⟩
  have hu1 : s.only [.regs] [Reg.LINK_CTL p] u := by rw [hue]; exact here.setFld ..
  have hb := State.buffered_only true (Reg.LINK_CTL p) u
  have ho : s.only [.regs, .effects] [Reg.LINK_CTL p] (u.buffered true (Reg.LINK_CTL p)) := (hu1.mono (by decide) (by simp)).trans (hb.mono (by decide) (by simp))
  have hf : State.linkField path p F.LINK_CTL_MODE x s = some (u.buffered true (Reg.LINK_CTL p)) := by
    rw [hue]
    exact (State.onPath_up hu path _).trans (State.writeParts_mode hu hp path x hx)
  refine ⟨_, hc.trans ?_, ⟨?_, ?_, ?_⟩, ho.carry⟩
  · simp only [access, hf, State.after]
    rw [State.settle_still _ _ (ho.calm hs), State.trainApply_same fun q => congrArg PortS.tstate (ho.port q)]
  · refine (State.carry_fld ..).trans ((hb.fld _ _).trans ?_)
    rw [hue, State.fld_setFld _ _ (by decide)]
    exact Nat.mod_eq_of_lt (hx.trans (by decide))
  · change Reg.LINK_CTL p ∈ (u.buffered true (Reg.LINK_CTL p)).regs.wait
    unfold State.buffered
    split
    · exact List.mem_append_right _ (List.mem_singleton.2 rfl)
    · rename_i h
      simpa using h
  · change (u.buffered true (Reg.LINK_CTL p)).regs.eff = _
    have h1 : (u.buffered true (Reg.LINK_CTL p)).regs.eff = u.regs.eff :=
      iteInduction (motive := fun t : State => t.regs.eff = u.regs.eff) (fun _ => rfl) (fun _ => rfl)
    rw [h1, hue]
    rfl

end

/-! ### MODE at the row boundary -/

/-- A row boundary before which every port that hunts afterwards sent frames. -/
theorem State.completes_boundary {s g : State} {p : Port} {ps : List Part} {as : List Nat} {P : State → Prop} (hf : s.applyUnit (.port p) = g) (hs : g.calm)
    (hq : ∀ q, (g.port q).tstate = .huntFull ∨ (g.port q).tstate = .huntHalf → (s.port q).sends = true) (ho : s.only ps as g) (hP : P (s.carry g)) :
    s.completes (.applyPoint (.port p)) ps as P := by
  refine ⟨s.carry g, ?_, hP, ho.carry⟩
  change always (State.applyUnit (.port p)) s = _
  rw [always, run, State.after, hf, State.settle_still _ _ hs, State.trainApply_sends _ _ hq]

section
variable {s : State} {p : Port} (hu : s.up) (hs : s.calm) (hc : Reg.LINK_CTL p ∈ s.regs.wait) (hn : Reg.LINK_PRBS_CTL p ∉ s.regs.wait)
include hu hs hc hn

omit hs in
theorem State.applyUnit_mode (hsend : (s.port p).sends = true) :
    s.applyUnit (.port p) = (s.applyReg (Reg.LINK_CTL p)).ctlMode p (s.fld (Reg.LINK_CTL p) F.LINK_CTL_MODE) := by
  have h1 : s.regs.wait.contains (Reg.LINK_PRBS_CTL p) = false := Bool.eq_false_iff.2 fun h => hn (List.contains_iff_mem.1 h)
  have h2 : s.regs.wait.contains (Reg.LINK_CTL p) = true := List.contains_iff_mem.2 hc
  simp only [State.applyUnit, hu.awake, Bool.not_true, Bool.false_eq_true, if_false, hsend, if_true, State.applyPort, h1, h2]

/-- R94: MODE = 0b01 takes a port that sends frames into PRBS. -/
theorem State.completes_prbsEntered (hsend : (s.port p).sends = true) (hm : s.fld (Reg.LINK_CTL p) F.LINK_CTL_MODE = 1) (ht : (s.port p).tstate ≠ .prbs) :
    s.completes (.applyPoint (.port p)) (.effects :: portParts) (portRegs p)
      (fun t => (t.port p).tstate = .prbs ∧ t.effReg (Reg.LINK_CTL p) = s.reg (Reg.LINK_CTL p) ∧
        t.regs.wait = s.regs.wait.filter (· != Reg.LINK_CTL p)) := by
  obtain ⟨u, hue⟩ : ∃ u, u = s.applyReg (Reg.LINK_CTL p) := ⟨_, rfl⟩
  have hr : s.only [.effects] [] u := by rw [hue]; exact State.applyReg_only ..
  have hl := State.leaveActive_only p false u (by rw [hr.port p]; exact ht)
  obtain ⟨g, hge⟩ : ∃ g, g = (((u.leaveActive p false).modPort p (fun x => { x with tstate := .prbs, stepping := false })).sendState p).portFlags p := ⟨_, rfl⟩
  have hg : u.only portParts (portRegs p) g := by
    rw [hge]
    exact (hl.mono (by decide) (by simp)).trans (State.entered_only p _ _)
  have hf : s.applyUnit (.port p) = g := by
    have hoff : (s.port p).tstate ≠ .off := fun h => by simp [PortS.sends, h] at hsend
    rw [State.applyUnit_mode hu hc hn hsend, hm, ← hue, hge, State.ctlMode, if_pos rfl, if_neg (by rw [hr.port p]; simp [hoff, ht])]
  have ho : s.only (.effects :: portParts) (portRegs p) g := hr.mono.trans (hg.mono (by decide))
  have hp : (g.port p).tstate = .prbs := by rw [hge]; exact congrArg PortS.tstate (State.entered_port p _ _)
  have hq (q : Port) (h : q ≠ p) : (g.port q).tstate = (s.port q).tstate := by
    rw [hge]
    exact (State.entered_tstate h _ _).trans ((State.leaveActive_tstate ..).trans (congrArg PortS.tstate (hr.port q)))
  refine State.completes_boundary hf (ho.calm hs) (fun q h => ?_) ho ⟨hp, ?_, ?_⟩
  · by_cases e : q = p
    · subst e
      rw [hp] at h
      simp at h
    · exact PortS.sends_hunting (by rwa [hq q e] at h)
  · exact (hg.effReg _).trans (by rw [hue]; exact State.applyReg_effReg ..)
  · exact hg.wait'.trans (by rw [hue]; exact State.applyReg_wait ..)

/-- R94: MODE = 0b00 takes a port out of PRBS into a hunt at its last active rate. -/
theorem State.completes_prbsLeft (hm : s.fld (Reg.LINK_CTL p) F.LINK_CTL_MODE = 0) (ht : (s.port p).tstate = .prbs) :
    s.completes (.applyPoint (.port p)) (.effects :: prbsParts) (prbsRegs p)
      (fun t => (t.port p).tstate = (if s.lastRate p then .huntFull else .huntHalf) ∧ (t.port p).buffer = (s.port p).buffer ∧
        t.regs.wait = s.regs.wait.filter (· != Reg.LINK_CTL p)) := by
  have hsend : (s.port p).sends = true := by simp [PortS.sends, ht]
  obtain ⟨u, hue⟩ : ∃ u, u = s.applyReg (Reg.LINK_CTL p) := ⟨_, rfl⟩
  have hr : s.only [.effects] [] u := by rw [hue]; exact State.applyReg_only ..
  have hx : (u.port p).tstate = .prbs := (congrArg PortS.tstate (hr.port p)).trans ht
  have hrate : u.lastRate p = s.lastRate p := by
    rw [State.lastRate, State.lastRate, State.maxRate, State.maxRate, hr.port p, hr.fld (Reg.LINK_CTL p) _]
  have hg := State.train_any p (s.lastRate p) u
  have hf : s.applyUnit (.port p) = u.train p (s.lastRate p) := by
    rw [State.applyUnit_mode hu hc hn hsend, hm, ← hue, State.ctlMode, if_neg (by decide), if_pos hx, hrate]
  have ho : s.only (.effects :: prbsParts) (prbsRegs p) (u.train p (s.lastRate p)) := hr.mono.trans (hg.mono (by decide))
  refine State.completes_boundary hf (ho.calm hs) (fun q h => ?_) ho ⟨(State.train_port ..).1, ?_, ?_⟩
  · by_cases e : q = p
    · rw [e]; exact hsend
    · refine PortS.sends_hunting ?_
      have hq : ((u.train p (s.lastRate p)).port q).tstate = (s.port q).tstate := by
        refine (State.entered_tstate e _ _).trans ((State.leaveActive_tstate ..).trans ?_)
        exact congrArg PortS.tstate ((State.port_modPort_ne e _ u).trans (hr.port q))
      rwa [hq] at h
  · exact (State.train_buffer _ hx).trans (congrArg PortS.buffer (hr.port p))
  · exact hg.wait'.trans (by rw [hue]; exact State.applyReg_wait ..)

end

/-! ### CLR and START -/

/-- `LINK_x.PRBS_CTL`. -/
def prbsCtlRow : RegRow :=
  ⟨"LINK_x.PRBS_CTL", 0x40, 4, 1, false,
    [.of "RSV0" 31 20 .rsv 0 .imm false, .of "SYNC" 19 12 .ro 0 .imm false, .of "LANE_EN" 11 4 .rw 255 .blk false, .of "CLR" 3 3 .wo 0 .imm false,
     .of "CHK_EN" 2 2 .rw 0 .blk false, .of "GEN_EN" 1 1 .rw 0 .blk false, .of "PAT" 0 0 .rw 0 .blk false]⟩

/-- `LINK_x.EYE_CTL`. -/
def eyeCtlRow : RegRow :=
  ⟨"LINK_x.EYE_CTL", 0x20, 4, 1, false,
    [.of "START" 31 31 .wo 0 .imm false, .of "BUSY" 30 30 .ro 0 .imm false, .of "RSV0" 29 18 .rsv 0 .imm false, .of "THR" 17 10 .rw 0 .imm false,
     .lim "DWELL" 9 6 .rw 0 .imm false 0 10, .of "MAP" 5 5 .rw 0 .imm false, .of "EYE" 4 3 .rw 3 .imm false, .of "LANE" 2 0 .rw 0 .imm false]⟩

theorem blockOf_prbsCtl (p : Port) : blockOf (Reg.LINK_PRBS_CTL p) = (.link p, 0x40) := by cases p <;> rfl

theorem blockOf_eyeCtl (p : Port) : blockOf (Reg.LINK_EYE_CTL p) = (.link p, 0x20) := by cases p <;> rfl

theorem prbsErr_inj {p : Port} {i j : Nat} (h : Reg.LINK_PRBS_ERR p i = Reg.LINK_PRBS_ERR p j) : i = j := by
  simp only [Reg.LINK_PRBS_ERR] at h
  omega

/-- R93: CLR clears the error counters of all lanes. -/
theorem State.prbsClear_clears (p : Port) (s : State) {k : Nat} (h : k < 8) : (s.prbsClear p).reg (Reg.LINK_PRBS_ERR p k) = 0 := by
  refine forEach_reaches (fun k t => State.reg t (Reg.LINK_PRBS_ERR p k) = 0) (fun i t => t.setReg (Reg.LINK_PRBS_ERR p i) 0)
    (fun i t => State.reg_setReg ..) (fun i j t ht => ?_) _ _ (List.mem_range.2 h)
  by_cases e : j = i
  · rw [e]; exact State.reg_setReg ..
  · exact (State.reg_setReg_ne (fun h => e (prbsErr_inj h)) ..).trans ht

/-- The scan that a word of `LINK_x.EYE_CTL` asks for. -/
def eyeScanOf (w : Word) : EyeScan :=
  { lane := F.LINK_EYE_CTL_LANE.get w, eyes := F.LINK_EYE_CTL_EYE.get w, map := F.LINK_EYE_CTL_MAP.get w == 1, bist := false, thr := F.LINK_EYE_CTL_THR.get w }

theorem eyeCtl_fit : fieldsFit eyeCtlRow.fields = true := by decide

theorem rsvBroken_eyeCtl {w old : Word} (h : bits w.toNat 29 18 = bits old.toNat 29 18) : rsvBroken (fun _ => true) w old eyeCtlRow.fields = false := by
  have : (⟨29, 18⟩ : Fld).get w = (⟨29, 18⟩ : Fld).get old := h
  simp [rsvBroken, eyeCtlRow, FieldRow.of, FieldRow.lim, FieldRow.get, this]

section
variable {s : State} {p : Port} (hu : s.up) (hp : s.present (.link p) = true) (hs : s.still) (path : Path)
include hu hp hs

theorem State.completes_prbsClear :
    s.completes (.prbsClear path p) [.regs] ((List.range 8).map (Reg.LINK_PRBS_ERR p)) (fun t => ∀ k < 8, t.reg (Reg.LINK_PRBS_ERR p k) = 0) := by
  have hr : s.resolve (Reg.LINK_PRBS_CTL p) = .ok (.link p, 0x40, prbsCtlRow) :=
    State.resolve_ok hu.stopped (blockOf_prbsCtl p) (by simp) (by simp) hp (by cases p <;> decide) rfl
  have hx := State.writeParts_command hu path hr (State.rawView_none (blockOf_prbsCtl p) (by simp) (by simp)) rfl (by simp) (by simp) (f := F.LINK_PRBS_CTL_CLR)
    (x := 1) rfl rfl rfl (by decide)
  have hx' : s.writeParts path (Reg.LINK_PRBS_CTL p) [(F.LINK_PRBS_CTL_CLR, 1)] = some ((s.setReg (Reg.LINK_PRBS_CTL p) (s.reg (Reg.LINK_PRBS_CTL p))).prbsClear p) := hx
  have ho : s.only [.regs] ((List.range 8).map (Reg.LINK_PRBS_ERR p)) ((s.setReg (Reg.LINK_PRBS_CTL p) (s.reg (Reg.LINK_PRBS_CTL p))).prbsClear p) :=
    ((State.setReg_same_only ..).mono (by decide) (by simp)).trans
      (here.each fun _ hl _ => here.setReg _ _ (by decide) (List.mem_map_of_mem hl))
  exact State.completes_access rfl ((State.onPath_up hu path _).trans hx') (ho.still hs) ho fun k hk =>
    (State.carry_reg ..).trans (State.prbsClear_clears p _ hk)

/-- R92: START begins an eye scan of what the word names, where none runs. -/
theorem State.completes_eyeScanStart (w : Word) (hsc : (s.port p).scan = none)
    (h : bits w.toNat 29 18 = bits (s.reg (Reg.LINK_EYE_CTL p)).toNat 29 18) :
    s.completes (.eyeScanStart path p w) [.ports, .regs] [Reg.LINK_EYE_CTL p, Reg.MBX_ACC_STATUS]
      (fun t => (t.port p).scan = some
          { lane := w.toNat % 8, eyes := bits w.toNat 4 3, map := bit w.toNat 5, bist := false, thr := F.LINK_EYE_CTL_THR.get (t.reg (Reg.LINK_EYE_CTL p)) } ∧
        (t.port p).tstate = (s.port p).tstate) := by
  obtain ⟨d, hd⟩ : ∃ d, d = F.LINK_EYE_CTL_START.set 1 w := ⟨_, rfl⟩
  have hr : s.resolve (Reg.LINK_EYE_CTL p) = .ok (.link p, 0x20, eyeCtlRow) :=
    State.resolve_ok hu.stopped (blockOf_eyeCtl p) (by simp) (by simp) hp (by cases p <;> decide) rfl
  have hget (f : Fld) (hf : f.apart F.LINK_EYE_CTL_START = true) : f.get d = f.get w := by rw [hd]; exact Fld.get_set_apart f _ (by decide) hf _ _
  have hR : rsvBroken (fun _ => true) d (s.reg (Reg.LINK_EYE_CTL p)) eyeCtlRow.fields = false := rsvBroken_eyeCtl ((hget ⟨29, 18⟩ (by decide)).trans h)
  obtain ⟨u, hue⟩ : ∃ u, u = when (roWrite path (.link p) 0x20 (fun _ => true) d (s.reg (Reg.LINK_EYE_CTL p)) (s.regView (.link p) 0x20 (Reg.LINK_EYE_CTL p))
      eyeCtlRow.fields) (State.accFlag path F.MBX_ACC_STATUS_RO_WRITE)
      (s.setReg (Reg.LINK_EYE_CTL p) (storedWord path (.link p) 0x20 s.power.lockOpen (fun _ => true) d (s.reg (Reg.LINK_EYE_CTL p)) eyeCtlRow.fields)) := ⟨_, rfl⟩
  have hou : s.only [.regs] [Reg.LINK_EYE_CTL p, Reg.MBX_ACC_STATUS] u := by
    rw [hue]
    exact (here.setReg ..).cond_ (State.accFlag_only path _ _ |>.mono (by decide) (by simp))
  have hreg : u.reg (Reg.LINK_EYE_CTL p) = storedWord path (.link p) 0x20 s.power.lockOpen (fun _ => true) d (s.reg (Reg.LINK_EYE_CTL p)) eyeCtlRow.fields := by
    rw [hue]
    refine ((here (ps := [.regs]) (as := [Reg.MBX_ACC_STATUS])).cond_ (State.accFlag_only path _ _) |>.reg _ (by cases p <;> decide)).trans ?_
    exact State.reg_setReg ..
  have hnone : (u.port p).scan = none := by rw [hou.port p]; exact hsc
  have hw : s.writeWord path (Reg.LINK_EYE_CTL p) d = some (u.modPort p (fun x => { x with scan := some (eyeScanOf (u.reg (Reg.LINK_EYE_CTL p))) })) := by
    have h4 : ¬ Reg.LINK_EYE_CTL p % 4 ≠ 0 := by cases p <;> decide
    have hal : isAlias (Reg.LINK_EYE_CTL p) = false := by cases p <;> decide
    have hst : woOf path (.link p) 0x20 (fun _ => true) d F.LINK_EYE_CTL_START = 1 := by
      have : F.LINK_EYE_CTL_START.get d = 1 := by rw [hd]; exact Fld.get_set _ (by decide) _ _
      exact this
    rw [State.writeWord, if_neg h4, hal, if_neg Bool.false_ne_true,
      State.writeReg_ok path d _ (State.rawView_none (blockOf_eyeCtl p) (by simp) (by simp)) hr rfl hu.notStarting,
      State.writeFields_stored path (by simp) (by simp) hR (fun h => by cases h) rfl, ← hue]
    have hact (wo : Fld → Nat) (v : State) : v.act path (.link p) 0x20 (Reg.LINK_EYE_CTL p) wo (fun _ => true) (s.reg (Reg.LINK_EYE_CTL p)) =
      when (wo F.LINK_EYE_CTL_START == 1) (State.eyeStart p) v := rfl
    rw [hact, hst]
    refine congrArg some ?_
    change State.eyeStart p u = _
    rw [State.eyeStart, hnone]
    rfl
  have ho : s.only [.ports, .regs] [Reg.LINK_EYE_CTL p, Reg.MBX_ACC_STATUS]
      (u.modPort p (fun x => { x with scan := some (eyeScanOf (u.reg (Reg.LINK_EYE_CTL p))) })) := (hou.mono (by decide) (fun _ h => h)).modPort ..
  have hval {f : FieldRow} (hf : f ∈ eyeCtlRow.fields) (hm : f.ty = .rw) : f.get (u.reg (Reg.LINK_EYE_CTL p)) = max f.least (min f.most (f.get d)) := by
    rw [hreg, get_storedWord path _ _ _ _ _ _ _ eyeCtl_fit f hf, if_pos (by simp [takesWrite, hm, guarded])]
  have hlane : F.LINK_EYE_CTL_LANE.get (u.reg (Reg.LINK_EYE_CTL p)) = w.toNat % 8 := by
    refine (hval (f := .of "LANE" 2 0 .rw 0 .imm false) (by decide) rfl).trans ?_
    change max 0 (min 7 (F.LINK_EYE_CTL_LANE.get d)) = _
    rw [hget _ (by decide)]
    simp only [Fld.get, F.LINK_EYE_CTL_LANE, bits]
    omega
  have heye : F.LINK_EYE_CTL_EYE.get (u.reg (Reg.LINK_EYE_CTL p)) = bits w.toNat 4 3 := by
    refine (hval (f := .of "EYE" 4 3 .rw 3 .imm false) (by decide) rfl).trans ?_
    change max 0 (min 3 (F.LINK_EYE_CTL_EYE.get d)) = _
    rw [hget _ (by decide)]
    simp only [Fld.get, F.LINK_EYE_CTL_EYE, bits]
    omega
  have hmap : (F.LINK_EYE_CTL_MAP.get (u.reg (Reg.LINK_EYE_CTL p)) == 1) = bit w.toNat 5 := by
    refine congrArg (· == 1) ((hval (f := .of "MAP" 5 5 .rw 0 .imm false) (by decide) rfl).trans ?_)
    change max 0 (min 1 (F.LINK_EYE_CTL_MAP.get d)) = _
    rw [hget _ (by decide)]
    simp only [Fld.get, F.LINK_EYE_CTL_MAP, bits]
    omega
  have hport : (u.modPort p (fun x => { x with scan := some (eyeScanOf (u.reg (Reg.LINK_EYE_CTL p))) })).port p =
      { u.port p with scan := some (eyeScanOf (u.reg (Reg.LINK_EYE_CTL p))) } := State.port_modPort ..
  have hx : s.onPath path (State.writeWord path (Reg.LINK_EYE_CTL p) (F.LINK_EYE_CTL_START.set 1 w)) = some _ :=
    (State.onPath_up hu path _).trans (by rw [← hd]; exact hw)
  refine State.completes_access rfl hx (ho.still hs) ho ⟨?_, ?_⟩
  · refine ((congrArg PortS.scan hport :)).trans (congrArg some ?_)
    rw [eyeScanOf, hlane, heye, hmap, State.carry_reg]
    exact congrArg _ (congrArg F.LINK_EYE_CTL_THR.get ((here (ps := [.ports]) (as := []).modPort ..).reg (Reg.LINK_EYE_CTL p))).symm
  · have h1 := congrArg PortS.tstate hport
    exact h1.trans (congrArg PortS.tstate (hou.port p) :)

end

/-- Settles O22: a write of `LINK_x.CTL` stores its field and starts, retrains or turns off the port; MODE waits for the row boundary, where the port
enters or leaves PRBS. -/
theorem portRegisters : Obligations.PortRegisters := by
  intro s path p hu hp hs
  refine ⟨fun hw ha ht => ?_, fun hw hside hr hal ht hl => ?_, fun hw he hx => ?_, fun hw h => ?_, fun hw ht => ?_, fun hw ht => ?_, ?_, ?_,
    fun hc hn hsend hm ht => ?_, fun hc hn hm ht => ?_, fun hw => ?_, fun w hw hsc h => ?_⟩
  · exact State.completes_linkEnable hu hp ⟨hs, hw⟩ path ha ht
  · exact State.completes_linkEnable_relays hu hp ⟨hs, hw⟩ path hside hr hal ht hl
  · exact State.completes_linkDisable hu hp path ⟨hs, hw⟩ he hx
  · exact State.completes_linkDisable_held hu hp path ⟨hs, hw⟩ h
  · exact State.completes_retrain hu hp path ⟨hs, hw⟩ ht
  · exact State.completes_stepUp hu hp path ⟨hs, hw⟩ ht
  · exact State.completes_linkMode hu hp path (by decide) hs rfl
  · exact State.completes_linkMode hu hp path (by decide) hs rfl
  · exact State.completes_prbsEntered hu hs hc hn hsend hm ht
  · exact State.completes_prbsLeft hu hs hc hn hm ht
  · exact State.completes_prbsClear hu hp ⟨hs, hw⟩ path
  · exact State.completes_eyeScanStart hu hp ⟨hs, hw⟩ path w hsc h

end Sys2Proof.Machine
end

section
/-! PROOFS. The arrival of messages (R99 to R101, R168, R383), and the messages that a device passes on (R117, R168). -/

set_option Elab.async false

namespace Sys2Proof.Machine
open Sys2Proof
open State.only (here)

/-! ### A message that its port takes -/

/-- The device after a message has been taken from its port: its credits are owed, and the way to the manager is learnt. -/
def State.met (m : Msg) (s : State) : State := (s.take m.h.port m.op.cls m.h.ndata).learn m.h.port m.h

theorem State.learn_only (p : Port) (h : Hdr) (s : State) : s.only [.ports] [] (s.learn p h) :=
  iteInduction (fun _ => here) (fun _ => here.mgrPort _)

theorem State.learn_port (p : Port) (h : Hdr) (s : State) (q : Port) : (s.learn p h).port q = s.port q :=
  iteInduction (motive := fun t : State => t.port q = s.port q) (fun _ => rfl) (fun _ => rfl)

theorem State.met_only (m : Msg) (s : State) : s.only [.ports, .counts] [] (s.met m) :=
  (State.take_only ..).step (State.learn_only ..)

/-- Taking a message leaves what decides whether a port sends. -/
theorem State.met_sender (m : Msg) (s : State) (q : Port) : ((s.met m).port q).sender = (s.port q).sender := by
  refine (congrArg PortS.sender (State.learn_port ..)).trans ?_
  by_cases e : q = m.h.port
  · rw [e, State.take_port]
    rfl
  · rw [State.take_port_ne e]

theorem State.met_sends {m : Msg} {s : State} {q : Port} {op : MOp} {nd : Nat} (h : s.sends q op nd) : (s.met m).sends q op nd :=
  State.sends_congr (State.met_sender m s q) h

/-- A device in RUN takes up a message that its port takes. -/
theorem State.arrive_takes {s : State} {m : Msg} (hu : s.up) (h : s.takes m.h.port m.op m.h.ndata) (f : Port → Msg → State → State) :
    s.arrive m true f = f m.h.port m (s.met m) := by
  have hp : (s.take m.h.port m.op.cls m.h.ndata).power = s.power := (State.take_only ..).power'
  have hl : (s.met m).power = s.power := (State.met_only m s).power'
  have hw : (s.take m.h.port m.op.cls m.h.ndata).wakeMsg = s.take m.h.port m.op.cls m.h.ndata := by
    rw [State.wakeMsg, hp, hu.2.1]
    rfl
  have hin : s.inPort m.h.port = m.h.port := h.2.2.2.2.2.2
  have hh : (s.met m).holdsMsg m.h.port m = false := by
    rw [State.holdsMsg, hl, hu.2.1]
    rfl
  unfold State.arrive
  simp only [hin, State.accept_takes h, hw]
  change (if (s.met m).holdsMsg m.h.port m then _ else _) = _
  rw [hh]
  rfl

/-- A device in RUN takes up a CFG access that its port takes. -/
theorem State.cfgIn_takes {s : State} {m : Msg} (hu : s.up) (h : s.takes m.h.port m.op m.h.ndata) :
    s.cfgIn m true = (s.met m).cfgServe m.h.port m := by
  have hp : (s.take m.h.port m.op.cls m.h.ndata).power = s.power := (State.take_only ..).power'
  have hl : (s.met m).power = s.power := (State.met_only m s).power'
  have hw : (s.take m.h.port m.op.cls m.h.ndata).wakeMsg = s.take m.h.port m.op.cls m.h.ndata := by
    rw [State.wakeMsg, hp, hu.2.1]
    rfl
  have hin : s.inPort m.h.port = m.h.port := h.2.2.2.2.2.2
  have hh : (s.met m).power.pstate = 0 := by rw [hl, hu.2.1]
  unfold State.cfgIn
  simp only [hin, State.accept_takes h, hw]
  change (if (s.met m).power.pstate != 0 && _ then _ else _) = _
  rw [hh]
  rfl

/-- Where nothing goes on, nothing does after a message has been sent. -/
theorem State.sendOn_still {s : State} {p : Port} {m : Msg} (h : s.sends p m.op m.h.ndata) (hs : s.still) : (s.sendOn p m).still := by
  have ho := State.sendOn_sends h
  refine ⟨?_, ho.only.wait'.trans hs.2⟩
  exact ho.only.calm_sent hs.1 ho.inbox (by rw [ho.only.que']) (by rw [ho.only.que']; exact hs.1.2.2.2.2.1) (by rw [ho.only.que']) (by rw [ho.only.mgr'])
    (by rw [ho.only.mgr']) (by rw [ho.only.mgr'])

/-! ### Messages for another device -/

/-- The port by which a device that is not the manager passes a message on. -/
def State.onward (s : State) (p : Port) (m : Msg) : Port :=
  (s.learn p m.h).switchPort (some p) (if m.h.dstHost then 0 else m.h.dst.val) (m.h.dstHost || m.h.dst.val == 0)

theorem State.switchPort_congr {s t : State} (hn : t.num = s.num) (hi : t.id = s.id) (hp : t.net.mgrPort = s.net.mgrPort) (from? : Option Port) (d : Nat)
    (b : Bool) : t.switchPort from? d b = s.switchPort from? d b := by
  have hw : t.waysOut from? = s.waysOut from? := by rw [State.waysOut, State.waysOut, State.isWorker, State.isWorker, hi]
  unfold State.switchPort
  rw [hw, hn, hp]

theorem State.learn_mgrPort (p : Port) (h : Hdr) (s : State) :
    (s.learn p h).net.mgrPort = if s.isManager || h.src != 0 || h.dstHost then s.net.mgrPort else p := by
  unfold State.learn
  split <;> rfl

section
variable {s : State} {m : Msg} (hu : s.up) (hm : s.isManager = false) (hn : s.mine m.h = false)
include hm hn

omit hm in
theorem State.met_mine : (s.met m).mine m.h = false := by
  have ho := State.met_only m s
  rw [State.mine, State.numValid, State.num, ho.fld _ _, ho.fld _ _, ho.isManager]
  exact hn

theorem State.met_route : (s.met m).route (some m.h.port) m = (s.met m).sendOn (s.onward m.h.port m) m := by
  have ho := State.met_only m s
  have hm' : (s.met m).isManager = false := by rw [ho.isManager]; exact hm
  have hw (d : Nat) (t : Bool) : (s.met m).switchPort (some m.h.port) d t = (s.learn m.h.port m.h).switchPort (some m.h.port) d t := by
    refine State.switchPort_congr ?_ ?_ ?_ ..
    · rw [State.num, State.num, ho.fld _ _, (State.learn_only ..).fld _ _]
    · rw [ho.id', (State.learn_only ..).id']
    · rw [State.met, State.learn_mgrPort, State.learn_mgrPort, (State.take_only ..).isManager]
      rw [State.take, State.bump_net, State.modPort_net_mgrPort]
  have hmine := State.met_mine hn
  unfold State.route State.onward
  by_cases hd : m.h.dstHost = true
  · rw [if_pos hd, hm', if_neg Bool.false_ne_true, hw, hd]
    rfl
  · rw [Bool.not_eq_true] at hd
    have hother : ¬ (m.h.dst.val = (s.met m).num ∧ ((s.met m).numValid = true ∨ (s.met m).isManager = true)) := by
      intro h
      simp [State.mine, hd, h.1] at hmine
      simp [hmine] at h
    rw [hd, if_neg Bool.false_ne_true, if_neg hother, hm', if_neg Bool.false_ne_true, hw]
    rfl

end

section
variable {s : State} {m : Msg} {i : Instr} {o : Port} (hu : s.up) (hs : s.still) (ho : s.sends o m.op m.h.ndata)
include hu hs ho

omit hu in
/-- What a message that has been passed on leaves. -/
theorem State.passed_on : s.only [.ports, .sent, .counts] [] ((s.met m).sendOn o m) ∧ ((s.met m).sendOn o m).still ∧
    ((s.met m).sendOn o m).net.tx = s.net.tx ++ [(o, { m with h := { m.h with port := o } })] := by
  have hmo := State.met_only m s
  have h := State.sendOn_sends (s := s.met m) (m := m) (State.met_sends ho)
  have hall : s.only [.ports, .sent, .counts] [] ((s.met m).sendOn o m) := hmo.mono.trans h.only
  exact ⟨hall, State.sendOn_still (State.met_sends ho) (hmo.still hs), by rw [h.tx, hmo.tx']; rfl⟩

theorem State.completes_passed (h : s.takes m.h.port m.op m.h.ndata) {f : Port → Msg → State → State} (hc : exec i s = always (State.arrive m true f) s)
    (hf : f m.h.port m (s.met m) = (s.met m).sendOn o m) :
    s.completes i [.ports, .sent, .counts] [] (fun t => t.net.tx = s.net.tx ++ [(o, { m with h := { m.h with port := o } })]) := by
  obtain ⟨hall, hst, htx⟩ := State.passed_on hs ho
  have e : s.arrive m true f = (s.met m).sendOn o m := (State.arrive_takes hu h f).trans hf
  exact State.completes_always hc (by rw [e]; exact hst) (by rw [e]; exact hall) (by rw [e]; exact htx)

theorem State.completes_passed_cfg (h : s.takes m.h.port m.op m.h.ndata) (hc : exec i s = access (State.cfgIn m true) s)
    (hf : (s.met m).cfgServe m.h.port m = some ((s.met m).sendOn o m)) :
    s.completes i [.ports, .sent, .counts] [] (fun t => t.net.tx = s.net.tx ++ [(o, { m with h := { m.h with port := o } })]) := by
  obtain ⟨hall, hst, htx⟩ := State.passed_on hs ho
  exact State.completes_access hc ((State.cfgIn_takes hu h).trans hf) hst hall htx

end

/-! ### Every message that is passed on -/

theorem State.hostSide_worker {s : State} (h : s.isManager = false) (p : Port) : s.hostSide p = false := by
  rw [State.hostSide, h]
  rfl

section
variable {s : State} {m : Msg} {i : Instr} (hu : s.up) (hs : s.still) (hm : s.isManager = false) (hn : s.mine m.h = false)
  (ht : s.takes m.h.port m.op m.h.ndata) (ho : s.sends (s.onward m.h.port m) m.op m.h.ndata)
include hu hs hm hn ht ho

/-- A message that each kind of arrival routes where it is not for this device. -/
theorem State.completes_onward {f : Port → Msg → State → State} (hc : exec i s = always (State.arrive m true f) s)
    (hf : f m.h.port m (s.met m) = (s.met m).route (some m.h.port) m) :
    s.completes i [.ports, .sent, .counts] []
      (fun t => t.net.tx = s.net.tx ++ [(s.onward m.h.port m, { m with h := { m.h with port := s.onward m.h.port m } })]) :=
  State.completes_passed hu hs ho ht hc (hf.trans (State.met_route hm hn))

theorem State.completes_onward_request (hc : exec i s = always (State.arrive m true State.requestIn) s) :
    s.completes i [.ports, .sent, .counts] []
      (fun t => t.net.tx = s.net.tx ++ [(s.onward m.h.port m, { m with h := { m.h with port := s.onward m.h.port m } })]) := by
  refine State.completes_onward hu hs hm hn ht ho hc ?_
  rw [State.requestIn, State.hostSide_worker ((State.met_only m s).isManager ▸ hm), if_neg Bool.false_ne_true, State.met_mine hn, if_neg Bool.false_ne_true]

theorem State.completes_onward_response (hc : exec i s = always (State.arrive m true State.responseIn) s) :
    s.completes i [.ports, .sent, .counts] []
      (fun t => t.net.tx = s.net.tx ++ [(s.onward m.h.port m, { m with h := { m.h with port := s.onward m.h.port m } })]) := by
  refine State.completes_onward hu hs hm hn ht ho hc ?_
  rw [State.responseIn, State.hostSide_worker ((State.met_only m s).isManager ▸ hm), if_neg Bool.false_ne_true, State.met_mine hn, if_neg Bool.false_ne_true]

theorem State.completes_onward_eng (hc : exec i s = always (State.arrive m true State.engArrive) s) :
    s.completes i [.ports, .sent, .counts] []
      (fun t => t.net.tx = s.net.tx ++ [(s.onward m.h.port m, { m with h := { m.h with port := s.onward m.h.port m } })]) := by
  refine State.completes_onward hu hs hm hn ht ho hc ?_
  rw [State.engArrive, State.met_mine hn, if_neg Bool.false_ne_true]

theorem State.completes_onward_cfgRsp (hc : exec i s = always (State.arrive m true State.cfgRspIn) s) :
    s.completes i [.ports, .sent, .counts] []
      (fun t => t.net.tx = s.net.tx ++ [(s.onward m.h.port m, { m with h := { m.h with port := s.onward m.h.port m } })]) := by
  refine State.completes_onward hu hs hm hn ht ho hc ?_
  rw [State.cfgRspIn, State.met_mine hn, (State.met_only m s).isManager, hm]
  rfl

/-- R116, R117: a configuration request goes on by the route of its destination. -/
theorem State.completes_onward_cfg (hw : m.way = none) (hd : m.h.dstHost = false) (hc : exec i s = access (State.cfgIn m true) s) :
    s.completes i [.ports, .sent, .counts] []
      (fun t => t.net.tx = s.net.tx ++ [(s.onward m.h.port m, { m with h := { m.h with port := s.onward m.h.port m } })]) := by
  refine State.completes_passed_cfg hu hs ho ht hc ?_
  have hme : (s.met m).isManager = false := (State.met_only m s).isManager ▸ hm
  rw [State.cfgServe, State.hostSide_worker hme, if_neg Bool.false_ne_true, State.cfgOnward, hw]
  dsimp only
  rw [State.met_mine hn, if_neg Bool.false_ne_true]
  dsimp only
  rw [hme, if_neg Bool.false_ne_true, ← State.met_route hm hn, State.route, hd, if_neg Bool.false_ne_true, if_neg ?_, hme, if_neg Bool.false_ne_true]
  intro h
  have := State.met_mine hn
  simp [State.mine, hd, h.1] at this
  simp [this] at h

end

/-- Settles O23: a message of each kind that is not for this device goes where its route takes it, whatever it is. -/
theorem forwardedMessages : Obligations.ForwardedMessages := by
  rintro s p o i m hu hs hm hi hfit rfl ht hn hway hcfg rfl ho
  have hclass := ht.2.2.2.2.1
  rw [State.classOk, State.hostSide_worker hm, if_neg Bool.false_ne_true] at hclass
  unfold messageOf at hi
  split at hi <;> cases hi
  case h_1 h a => exact State.completes_onward_request hu hs hm hn ht ho rfl
  case h_2 h a => exact State.completes_onward_request hu hs hm hn ht ho rfl
  case h_3 h a d => exact State.completes_onward_request hu hs hm hn ht ho (congrArg (fun b => always (State.arrive _ b _) s) hfit)
  case h_4 h a d g => exact State.completes_onward_request hu hs hm hn ht ho (congrArg (fun b => always (State.arrive _ b _) s) hfit)
  case h_5 h a => simp at hclass
  case h_6 h a => simp at hclass
  case h_7 h a d g => exact State.completes_onward_response hu hs hm hn ht ho (congrArg (fun b => always (State.arrive _ b _) s) hfit)
  case h_8 h a => exact State.completes_onward_response hu hs hm hn ht ho rfl
  case h_9 h a c => exact State.completes_onward_response hu hs hm hn ht ho rfl
  case h_10 h r n w => exact State.completes_onward_cfg hu hs hm hn ht ho hway (hcfg rfl) rfl
  case h_11 h r ws w => exact State.completes_onward_cfg hu hs hm hn ht ho hway (hcfg rfl) (congrArg (fun b => access (State.cfgIn _ b) s) hfit)
  case h_12 h r ws c => exact State.completes_onward_cfgRsp hu hs hm hn ht ho (congrArg (fun b => always (State.arrive _ b _) s) hfit)
  case h_13 h r c => exact State.completes_onward_cfgRsp hu hs hm hn ht ho rfl
  case h_14 h g t b r d => exact State.completes_onward_eng hu hs hm hn ht ho (congrArg (fun b => always (State.arrive _ b _) s) hfit)
  case h_15 h g l f w => exact State.completes_onward_eng hu hs hm hn ht ho rfl
  case h_16 h g l d => exact State.completes_onward_eng hu hs hm hn ht ho (congrArg (fun b => always (State.arrive _ b _) s) hfit)
  case h_17 h g => exact State.completes_onward_eng hu hs hm hn ht ho rfl

end Sys2Proof.Machine
end

section
/-! PROOFS. Configuration accesses at their target and at the manager (R116). -/

set_option Elab.async false

namespace Sys2Proof.Machine
open Sys2Proof
open State.only (here)

/-! ### An access to the notice mask -/

/-- The configuration accesses for this device: the host's to the manager, and on another port those with its number. -/
def State.cfgOwn (s : State) (p : Port) (h : Hdr) : Prop := (s.hostSide p = true ∧ h.dst = 0) ∨ (s.hostSide p = false ∧ s.mine h = true)

theorem State.cfgServe_own {s : State} {p : Port} {m : Msg} (h : s.cfgOwn p m.h) (hw : m.way = none) :
    s.cfgServe p m = if m.op = .crd then some (s.serveCrd (some p) m) else s.serveCwr (some p) m := by
  unfold State.cfgServe
  rcases h with ⟨h1, h2⟩ | ⟨h1, h2⟩
  · rw [if_pos h1, if_pos ⟨h2, hw⟩]
  · rw [if_neg (by rw [h1]; decide), State.cfgOnward, hw]
    dsimp only
    rw [if_pos h2]

theorem State.only.cfgOwn {s t : State} {ps : List Part} {as : List Nat} (h : s.only ps as t) {p : Port} {x : Hdr} (hc : s.cfgOwn p x)
    (hi : Part.id ∉ ps := by decide) (hr : Reg.IDENT_DEVNUM ∉ as := by simp) : t.cfgOwn p x := by
  unfold State.cfgOwn State.mine State.numValid State.num State.hostSide
  rw [h.isManager hi, h.fld _ _ hr, h.fld _ _ hr]
  exact hc

/-- A read of the notice mask, as it arrives. -/
def crdMask (h : Hdr) : Msg := { op := .crd, h := { h with flags := 0 }, addr := Reg.NDL_NTC_EN }

/-- A write of the notice mask, as it arrives. -/
def cwrMask (h : Hdr) (w : Word) : Msg := { op := .cwr, h := { h with flags := 0 }, addr := Reg.NDL_NTC_EN, words := [w.toNat] }

/-! ### What a response names -/

theorem State.rspMsg_tag (s : State) (m : Msg) (op : MOp) (d : List Byte) (st fl g : Nat) : (s.rspMsg m op d st fl g).h.tag = m.h.tag :=
  (BitVec.ofNat_toNat ..).trans (BitVec.setWidth_eq _)

theorem State.rspMsg_dst (s : State) (m : Msg) (op : MOp) (d : List Byte) (st fl g : Nat) : (s.rspMsg m op d st fl g).h.dst = m.h.src :=
  Fin.ext (Nat.mod_eq_of_lt m.h.src.isLt)

theorem State.cfgRsp_tag (s : State) (m : Msg) (ws : List Nat) : (s.cfgRsp m ws).h.tag = m.h.tag := State.rspMsg_tag s m _ [] 0 m.h.flags.toNat 0

theorem State.cfgRsp_dst (s : State) (m : Msg) (ws : List Nat) : (s.cfgRsp m ws).h.dst = m.h.src := State.rspMsg_dst s m .crdRsp [] 0 m.h.flags.toNat 0

theorem State.readWords_mask {s : State} (hu : s.up) (path : Path) : s.readWords path Reg.NDL_NTC_EN 1 = (s, [s.reg Reg.NDL_NTC_EN]) := by
  change (match s.readWord path Reg.NDL_NTC_EN with | (t, w) => (t, [w])) = _
  rw [State.readWord_ntcEn hu]

theorem State.writeWords_mask {s : State} (hu : s.up) (path : Path) (w : Word) :
    s.writeWords path Reg.NDL_NTC_EN [w] = some (s.setReg Reg.NDL_NTC_EN w) := by
  rw [State.writeWords, State.writeWord_ntcEn hu]
  rfl

theorem State.serveCrd_mask {s : State} (hu : s.up) (p : Port) (h : Hdr) :
    s.serveCrd (some p) (crdMask h) = s.sendOn p (s.cfgRsp (crdMask h) [(s.reg Reg.NDL_NTC_EN).toNat]) := by
  have hr : s.readWords (crdMask h).cfgPath (crdMask h).addr (crdMask h).count = _ := State.readWords_mask hu _
  rw [State.serveCrd, hr]
  rfl

theorem State.serveCwr_mask {s : State} (hu : s.up) (p : Port) (h : Hdr) (w : Word) :
    s.serveCwr (some p) (cwrMask h w) = some ((s.setReg Reg.NDL_NTC_EN w).sendOn p ((s.setReg Reg.NDL_NTC_EN w).cfgRsp (cwrMask h w) [])) := by
  have hw : s.writeWords (cwrMask h w).cfgPath (cwrMask h w).addr ((cwrMask h w).words.map (BitVec.ofNat 32)) =
      some (s.setReg Reg.NDL_NTC_EN w) := by
    refine (congrArg (fun l => s.writeWords (cwrMask h w).cfgPath Reg.NDL_NTC_EN l) ?_).trans (State.writeWords_mask hu _ w)
    exact congrArg (fun v => [v]) ((BitVec.ofNat_toNat ..).trans (BitVec.setWidth_eq w))
  rw [State.serveCwr, hw]
  rfl

section
variable {s : State} {p : Port} {h : Hdr} (hu : s.up) (hs : s.still) (hp : h.port = p)
include hu hs hp

/-- R116: a read of the notice mask is answered with its word and STATUS 0. -/
theorem State.completes_crd (ht : s.takes p .crd h.ndata) (hown : s.cfgOwn p h) (ho : s.sends p .crdRsp 0) :
    s.completes (.crd h (BitVec.ofNat 25 Reg.NDL_NTC_EN) 0 none) [.ports, .sent, .counts] []
      (fun t => ∃ q : Msg, t.net.tx = s.net.tx ++ [(p, q)] ∧ q.op = .crdRsp ∧ q.words = [(s.reg Reg.NDL_NTC_EN).toNat] ∧ q.status = 0 ∧
        q.h.tag = h.tag ∧ q.h.dst = h.src ∧ q.h.dstHost = h.srcHost) := by
  subst hp
  have hc : exec (.crd h (BitVec.ofNat 25 Reg.NDL_NTC_EN) 0 none) s = access (State.cfgIn (crdMask h) true) s := rfl
  obtain ⟨u, hue⟩ : ∃ u, u = s.met (crdMask h) := ⟨_, rfl⟩
  have hmo : s.only [.ports, .counts] [] u := by rw [hue]; exact State.met_only ..
  have huu : u.up := by rw [State.up, hmo.power']; exact hu
  obtain ⟨q, hq⟩ : ∃ q, q = u.cfgRsp (crdMask h) [(s.reg Reg.NDL_NTC_EN).toNat] := ⟨_, rfl⟩
  have hserve : u.cfgServe h.port (crdMask h) = some (u.sendOn h.port q) := by
    rw [State.cfgServe_own (m := crdMask h) (hmo.cfgOwn hown) rfl, hq, ← hmo.reg _]
    exact congrArg some (State.serveCrd_mask huu h.port h)
  have hsend : u.sends h.port q.op q.h.ndata := by rw [hq, hue]; exact State.met_sends ho
  have h1 := State.sendOn_sends hsend
  have hx : s.cfgIn (crdMask h) true = some (u.sendOn h.port q) := by
    rw [State.cfgIn_takes hu ht, ← hue]
    exact hserve
  refine State.completes_access hc hx (State.sendOn_still hsend (hmo.still hs)) (hmo.mono.trans h1.only) ⟨{ q with h := { q.h with port := h.port } }, ?_, ?_⟩
  · exact h1.tx.trans (by rw [hmo.tx']; rfl)
  · rw [hq]
    exact ⟨rfl, rfl, rfl, State.cfgRsp_tag u (crdMask h) [(s.reg Reg.NDL_NTC_EN).toNat], State.cfgRsp_dst u (crdMask h) [(s.reg Reg.NDL_NTC_EN).toNat], rfl⟩

/-- R116: a write of the notice mask is answered with STATUS 0. -/
theorem State.completes_cwr (w : Word) (ht : s.takes p .cwr h.ndata) (hown : s.cfgOwn p h) (ho : s.sends p .cwrRsp 0) :
    s.completes (.cwr h (BitVec.ofNat 25 Reg.NDL_NTC_EN) [w] none) [.ports, .sent, .counts, .regs] [Reg.NDL_NTC_EN]
      (fun t => t.reg Reg.NDL_NTC_EN = w ∧
        ∃ q : Msg, t.net.tx = s.net.tx ++ [(p, q)] ∧ q.op = .cwrRsp ∧ q.status = 0 ∧ q.h.tag = h.tag ∧ q.h.dst = h.src ∧ q.h.dstHost = h.srcHost) := by
  subst hp
  have hc : exec (.cwr h (BitVec.ofNat 25 Reg.NDL_NTC_EN) [w] none) s = access (State.cfgIn (cwrMask h w) true) s := rfl
  obtain ⟨u, hue⟩ : ∃ u, u = s.met (cwrMask h w) := ⟨_, rfl⟩
  have hmo : s.only [.ports, .counts] [] u := by rw [hue]; exact State.met_only ..
  have huu : u.up := by rw [State.up, hmo.power']; exact hu
  obtain ⟨v, hve⟩ : ∃ v, v = u.setReg Reg.NDL_NTC_EN w := ⟨_, rfl⟩
  have hv : u.only [.regs] [Reg.NDL_NTC_EN] v := by rw [hve]; exact here.setReg ..
  have hsv : s.only [.ports, .counts, .regs] [Reg.NDL_NTC_EN] v := (hmo.mono (by decide) (by simp)).trans (hv.mono (by decide) (by simp))
  obtain ⟨q, hq⟩ : ∃ q, q = v.cfgRsp (cwrMask h w) [] := ⟨_, rfl⟩
  have hserve : u.cfgServe h.port (cwrMask h w) = some (v.sendOn h.port q) := by
    rw [State.cfgServe_own (m := cwrMask h w) (hmo.cfgOwn hown) rfl, hq, hve]
    exact State.serveCwr_mask huu h.port h w
  have hsend : v.sends h.port q.op q.h.ndata := by
    have hq' : u.sends h.port .cwrRsp 0 := by rw [hue]; exact State.met_sends ho
    rw [hq]
    exact State.sends_congr (congrArg PortS.sender (hv.port h.port)) hq'
  have h1 := State.sendOn_sends hsend
  have hx : s.cfgIn (cwrMask h w) true = some (v.sendOn h.port q) := by
    rw [State.cfgIn_takes hu ht, ← hue]
    exact hserve
  refine State.completes_access hc hx (State.sendOn_still hsend (hsv.still hs)) ((hsv.mono (by decide) (fun _ h => h)).trans (h1.only.mono (by decide) (by simp)))
    ⟨?_, { q with h := { q.h with port := h.port } }, ?_, ?_⟩
  · rw [State.carry_reg, h1.only.reg _, hve]
    exact State.reg_setReg ..
  · exact h1.tx.trans (by rw [hsv.tx']; rfl)
  · rw [hq]
    exact ⟨rfl, rfl, State.cfgRsp_tag v (cwrMask h w) [], State.cfgRsp_dst v (cwrMask h w) [], rfl⟩

end

/-! ### The host's accesses to another device -/

theorem State.hostPort_senders {s t : State} (h : ∀ p, (t.port p).tstate = (s.port p).tstate ∧ (t.port p).bond = (s.port p).bond) : t.hostPort = s.hostPort := by
  have hup (p : Port) : t.portUp p = s.portUp p := by rw [State.portUp, State.portUp, (h p).1]
  unfold State.hostPort
  rw [hup, hup, (h .ca).2, (h .cb).2]

theorem State.met_hostPort (m : Msg) (s : State) : (s.met m).hostPort = s.hostPort := by
  refine State.hostPort_senders fun p => ?_
  rw [State.met, State.learn_port]
  by_cases e : p = m.h.port
  · rw [e, State.take_port]
    exact ⟨rfl, rfl⟩
  · rw [State.take_port_ne e]
    exact ⟨rfl, rfl⟩

/-- Between two states the manager has answered an access of the host in place of its target. -/
structure State.answeredHost (s : State) (m : Msg) (ws : List Nat) (st : Nat) (t : State) : Prop where
  only : s.only [.ports, .sent, .counts] [] t
  still : s.still → t.still
  tx : ∃ q : Msg, t.net.tx = s.net.tx ++ [(s.hostPort, q)] ∧ q.op = (if m.op = .crd then .crdRsp else .cwrRsp) ∧ q.h.tag = m.h.tag ∧ q.words = ws ∧ q.status = st

theorem State.cfgAnswer_sends {s : State} {m : Msg} (ws : List Nat) (st : Nat) (h : s.sends s.hostPort (if m.op = .crd then .crdRsp else .cwrRsp) 0) :
    s.answeredHost m ws st (s.cfgAnswer m ws st) := by
  obtain ⟨q, hq⟩ : ∃ q : Msg, q = { s.rspMsg m (if m.op = .crd then .crdRsp else .cwrRsp) [] st m.h.flags.toNat 0 with words := ws } := ⟨_, rfl⟩
  have hs : s.sends s.hostPort q.op q.h.ndata := by rw [hq]; exact h
  have hf : s.cfgAnswer m ws st = s.sendOn s.hostPort q := by rw [hq]; rfl
  have h1 := State.sendOn_sends hs
  rw [hf]
  refine ⟨h1.only, State.sendOn_still hs, { q with h := { q.h with port := s.hostPort } }, h1.tx, ?_⟩
  rw [hq]
  exact ⟨rfl, State.rspMsg_tag s m (if m.op = .crd then .crdRsp else .cwrRsp) [] st m.h.flags.toNat 0, rfl, rfl⟩

/-- Two states that agree but for some parts do so too with one manager. -/
theorem State.only.withMgr {s t : State} {ps : List Part} {as : List Nat} (h : s.only ps as t) (x : MgrS) :
    ({ s with mgr := x } : State).only ps as { t with mgr := x } := by
  refine ⟨h.1, fun p hp => ?_, h.2.2⟩
  cases p
  case mgr => rfl
  all_goals exact h.2.1 _ hp

theorem AMap.find_single {α : Type} (k : Nat) (x : α) : AMap.find k [(k, x)] = some x := by simp [AMap.find]

theorem AMap.del_single {α : Type} (k : Nat) (x : α) : AMap.del k [(k, x)] = [] := by simp [AMap.del]

section
variable {s : State} {h : Hdr} {c : CReq} {m : Msg} (hu : s.up) (hm : s.isManager = true) (hs : ({ s with mgr.cfg := [] } : State).still)
  (hc : s.mgr.cfg = [(h.tag.toNat, c)]) (huse : c.use = .host m) (hside : s.hostSide h.port = false) (hdst : h.dstHost = true) (hag : h.agent = .switch)
  (ho : s.sends s.hostPort (if m.op = .crd then .crdRsp else .cwrRsp) 0)
include hu hm hs hc huse hside hdst hag ho

/-- R116: the response of the target is passed to the host. -/
theorem State.completes_cfgRsp {i : Instr} {x : Msg} (hx : x.h = h) (ht : s.takes h.port x.op h.ndata) (hsrc : h.src.val = c.dst)
    (hsh : h.srcHost = false) (hi : exec i s = always (State.arrive x true State.cfgRspIn) s) :
    s.completes i [.ports, .sent, .counts, .mgr] []
      (fun t => t.mgr = { s.mgr with cfg := [] } ∧ ∃ q : Msg, t.net.tx = s.net.tx ++ [(s.hostPort, q)] ∧
        q.op = (if m.op = .crd then .crdRsp else .cwrRsp) ∧ q.h.tag = m.h.tag ∧ q.words = x.words ∧ q.status = x.status) := by
  subst hx
  obtain ⟨u, hue⟩ : ∃ u, u = s.met x := ⟨_, rfl⟩
  have hmo : s.only [.ports, .counts] [] u := by rw [hue]; exact State.met_only ..
  obtain ⟨v, hve⟩ : ∃ v : State, v = { u with mgr.cfg := [] } := ⟨_, rfl⟩
  have hv : v.answeredHost m x.words x.status (v.cfgAnswer m x.words x.status) := by
    refine State.cfgAnswer_sends _ _ ?_
    have hp : v.hostPort = s.hostPort := by rw [hve, ← State.met_hostPort x s, ← hue]; rfl
    rw [hp, hve]
    have : u.sends s.hostPort (if m.op = .crd then .crdRsp else .cwrRsp) 0 := by rw [hue]; exact State.met_sends ho
    exact this
  have hf : s.arrive x true State.cfgRspIn = v.cfgAnswer m x.words x.status := by
    rw [State.arrive_takes hu ht, ← hue, State.cfgRspIn, hmo.isManager, hm, hdst, if_pos (by simp), State.cfgResponse, hmo.mgr', hc, AMap.find_single]
    dsimp only
    rw [huse]
    dsimp only
    rw [if_neg (by simp [hsrc, hsh, hdst, hag]), AMap.del_single, State.cfgDone, hve, hmo.mgr']
  have hvo : s.only [.ports, .counts, .mgr] [] v := by rw [hve]; exact hmo.mono.mgr _
  have hvs : v.still := by
    have := (hmo.withMgr { s.mgr with cfg := [] }).still hs
    rwa [← hmo.mgr', ← hve] at this
  have hall : s.only [.ports, .sent, .counts, .mgr] [] (v.cfgAnswer m x.words x.status) := hvo.mono.trans hv.only.mono
  refine State.completes_always hi (by rw [hf]; exact hv.still hvs) (by rw [hf]; exact hall) ?_
  rw [hf]
  obtain ⟨q, htx, hq⟩ := hv.tx
  refine ⟨hv.only.mgr'.trans (by rw [hve, hmo.mgr']), q, htx.trans ?_, hq⟩
  rw [hvo.tx', hve, ← State.met_hostPort x s, ← hue]
  rfl

omit hm hside hdst hag in
/-- R107, R116: an access that has waited CFG_TIMEOUT is answered with STATUS 0x04, and its tag is spent. -/
theorem State.completes_cfgTimeout (hn : s.noteOnly 39 0) :
    s.completes (.cfgTimeout h.tag.toNat) [.ports, .sent, .counts, .mgr, .regs, .notices, .faults, .blaze] (Reg.NDL_STATUS :: eventRegs)
      (fun t => t.mgr = { s.mgr with cfg := [], lateC := s.mgr.lateC ++ [h.tag.toNat] } ∧ t.fld Reg.NDL_STATUS F.NDL_STATUS_CFG_TIMEOUT = 1 ∧
        ∃ q : Msg, t.net.tx = s.net.tx ++ [(s.hostPort, q)] ∧ q.h.tag = m.h.tag ∧ q.status = 4) := by
  obtain ⟨g, hge⟩ : ∃ g : MgrS, g = { s.mgr with cfg := [], lateC := s.mgr.lateC ++ [h.tag.toNat] } := ⟨_, rfl⟩
  obtain ⟨u, hue⟩ : ∃ u : State, u = ((({ s with mgr := g } : State).raise Reg.NDL_STATUS F.NDL_STATUS_CFG_TIMEOUT).bump (mgrSlot 49) 1) := ⟨_, rfl⟩
  have hu1 : ({ s with mgr := g } : State).only [.regs, .counts] [Reg.NDL_STATUS] u := by rw [hue]; exact (here.raise ..).bump ..
  have hnu : u.noteOnly 39 0 := hu1.note (src := 39) (unit := 0) hn (by decide)
  obtain ⟨v, hve⟩ : ∃ v : State, v = u.fault 39 0 [] := ⟨_, rfl⟩
  have hv : u.only [.regs, .counts, .faults, .blaze] eventRegs v := by
    rw [hve]
    exact here.fault 39 0 [] _ (by rw [hu1.awake]; exact hu.awake) hnu (by decide) (by simp [eventRegs])
  have hmv : ({ s with mgr := g } : State).only [.regs, .counts, .faults, .blaze] (Reg.NDL_STATUS :: eventRegs) v :=
    (hu1.mono (by decide) (by simp)).trans (hv.mono (by decide) (fun _ h => .tail _ h))
  have hsv : v.still := hmv.still (by rw [hge]; exact hs)
  have hport (p : Port) : v.port p = s.port p := hmv.port p
  have hp : v.hostPort = s.hostPort := State.hostPort_congr hport
  have ha : v.answeredHost m [] 4 (v.cfgAnswer m [] 4) := by
    refine State.cfgAnswer_sends _ _ ?_
    rw [hp]
    exact State.sends_congr (congrArg PortS.sender (hport _)) ho
  have hf : s.cfgTimedOut h.tag.toNat = v.cfgAnswer m [] 4 := by
    rw [State.cfgTimedOut, hc, AMap.find_single]
    dsimp only
    rw [State.cfgGone, hc, AMap.del_single, ← hge, ← hue, ← hve, huse]
    rfl
  have hall : s.only [.ports, .sent, .counts, .mgr, .regs, .notices, .faults, .blaze] (Reg.NDL_STATUS :: eventRegs) (v.cfgAnswer m [] 4) :=
    (((here (s := s)).mgr g).trans (hmv.mono (by decide) (fun _ h => h))).trans (ha.only.mono (by decide) (by simp))
  refine State.completes_always (f := State.cfgTimedOut h.tag.toNat) rfl (by rw [hf]; exact ha.still hsv) (by rw [hf]; exact hall) ?_
  rw [hf]
  obtain ⟨q, htx, -, htag, -, hst⟩ := ha.tx
  refine ⟨ha.only.mgr'.trans (hmv.mgr'.trans hge), ?_, q, htx.trans (by rw [hmv.tx', hp]), htag, hst⟩
  rw [State.carry_fld, ha.only.fld _ _, hv.fld _ _ (by decide), hue, State.fld_bump]
  exact State.fld_raise _ _ (by decide) _

end

/-- Settles O30: an access for this device is one register access and one response; a response to the host's, or the want of one, is passed on. -/
theorem configAccesses : Obligations.ConfigAccesses := by
  intro s p h hu hp
  refine ⟨fun hs ht hown ho => State.completes_crd hu hs hp ht hown ho, fun w hs ht hown ho => State.completes_cwr hu hs hp w ht hown ho, ?_⟩
  intro c m hm hs hc huse hside hdst hag ho
  subst hp
  refine ⟨fun reg ws st ht hsrc hsh hws hop => ?_, fun reg st ht hsrc hsh hop => ?_, fun hn => State.completes_cfgTimeout hu hs hc huse ho hn⟩
  · have hlen : decide (ws.length ≤ 4) = true := decide_eq_true hws
    have := State.completes_cfgRsp hu hm hs hc huse hside hdst hag ho (i := .crdRsp h reg ws st)
      (x := { op := .crdRsp, h := h, addr := reg.toNat, words := ws.map (·.toNat), status := st.toNat }) rfl ht hsrc hsh
      (congrArg (fun b => always (State.arrive _ b State.cfgRspIn) s) hlen)
    rw [if_pos hop] at this
    exact this
  · have := State.completes_cfgRsp hu hm hs hc huse hside hdst hag ho (i := .cwrRsp h reg st)
      (x := { op := .cwrRsp, h := h, addr := reg.toNat, status := st.toNat }) rfl ht hsrc hsh rfl
    rw [if_neg (by rw [hop]; decide)] at this
    exact this.imp fun t ⟨h1, q, h2, h3, h4, _, h6⟩ => ⟨h1, q, h2, h3, h4, h6⟩

end Sys2Proof.Machine
end

section
/-! PROOFS. Notices (R129, R130, R134): what a device passes on, what the manager sends to the host, and what waits. -/

set_option Elab.async false

namespace Sys2Proof.Machine
open Sys2Proof
open State.only (here)

/-! ### The manager's notices toward the host -/

theorem State.ntcFlush_none {s : State} (h : s.flt.hostNtc = []) (k : Nat) : s.ntcFlush k = s := by
  cases k with
  | zero => rfl
  | succ k =>
    rw [State.ntcFlush, h]
    exact ite_self s

/-- A notice that waits alone is sent where the host port takes it. -/
theorem State.ntcFlush_one {s : State} {n : NoticeS} (h : s.flt.hostNtc = [n]) (hm : s.isManager = true) (ho : s.sends s.hostPort .ntc 0) (k : Nat) :
    s.ntcFlush (k + 1) = ({ s with flt.hostNtc := [] } : State).sendOn s.hostPort (s.ntcMsg n) := by
  have ho' := ho
  obtain ⟨hact, -, -, hroom, hcred, -, -⟩ := ho'
  have hup : s.portUp s.hostPort = true := by rw [State.portUp, hact]; rfl
  have hx : ({ s with flt.hostNtc := [] } : State).sends s.hostPort (s.ntcMsg n).op (s.ntcMsg n).h.ndata := ho
  have h1 := State.sendOn_sends hx
  have hn : (({ s with flt.hostNtc := [] } : State).sendOn s.hostPort (s.ntcMsg n)).flt.hostNtc = [] := (h1.only.2.1 .notices (by decide)).2.2.1
  rw [State.ntcFlush, hm, hup, show (s.port s.hostPort).held.has 4 0 = true from hcred, decide_eq_true hroom, h, if_pos (by decide)]
  exact State.ntcFlush_none hn k

/-- The notice as the manager keeps it. -/
def keptNotice (n : Notice) (now : Nat) : NoticeS :=
  { sev := n.sev, nseq := n.nseq, count := n.count, payload := n.payload, first := now, dev := n.dev, src := n.src.val, ntype := n.ntype }

theorem State.ntcMsg_kept (s : State) (n : Notice) (now : Nat) : (s.ntcMsg (keptNotice n now)).ntc = some n := by
  simp [State.ntcMsg, keptNotice]

/-! ### What the warden takes from a notice -/

theorem State.pwrTold_idle {s : State} (hj : s.que.job = none) (d k w : Nat) :
    s.pwrTold d k w = s.modEnt d (fun e => { e with pwr := k, pwrBusy := false }) := by
  have hm : (s.modEnt d (fun e => { e with pwr := k, pwrBusy := false })).que.job = none := hj
  rw [State.pwrTold, hm]

section
variable {s : State} (hj : s.que.job = none) (n : Notice)
include hj

theorem State.noticeSeen_only : s.only [.topo] [] (s.noticeSeen n) := by
  unfold State.noticeSeen
  dsimp only
  rw [State.pwrTold_idle hj]
  exact iteInduction (fun _ => here.modEnt ..) (fun _ => iteInduction (fun _ => here.modEnt ..) (fun _ => here))

omit hj in
theorem State.noticeSeen_stage (h : n.ntype = 0x0A) : ((s.noticeSeen n).ent n.dev).stage = leAt n.payload 0 1 := by
  rw [State.noticeSeen, if_pos h, State.ent_modEnt]

theorem State.noticeSeen_pwr (h : n.ntype = 0x12) : ((s.noticeSeen n).ent n.dev).pwr = leAt n.payload 0 1 := by
  rw [State.noticeSeen, if_neg (by rw [h]; decide), if_pos h, State.pwrTold_idle hj, State.ent_modEnt]

omit hj in
theorem State.noticeSeen_other (h1 : n.ntype ≠ 0x0A) (h2 : n.ntype ≠ 0x12) : s.noticeSeen n = s := by
  rw [State.noticeSeen, if_neg h1, if_neg h2]

end

/-! ### A notice arrives -/

/-- A notice as a message that arrives on a port. -/
def State.ntcArrival (s : State) (p : Port) (n : Notice) : Msg :=
  { op := .ntc, h := { s.hdrTo 0 true .switch 0 0 0 0 with port := p, src := n.src }, ntc := some n }

theorem exec_notice (p : Port) (n : Notice) (s : State) :
    exec (.notice p n) s = always (fun s => s.arrive (s.ntcArrival p n) true State.noticeIn) s := rfl

section
variable {s : State} {p : Port} {n : Notice} (hu : s.up) (hs : s.still) (ht : s.takes p .ntc 0)
include hu hs ht

/-- R130: a notice goes on toward the manager. -/
theorem State.completes_notice_onward (hm : s.isManager = false) (ho : s.sends (s.switchPort (some p) 0 true) .ntc 0) :
    s.completes (.notice p n) [.ports, .sent, .counts] []
      (fun t => ∃ m : Msg, t.net.tx = s.net.tx ++ [(s.switchPort (some p) 0 true, m)] ∧ m.op = .ntc ∧ m.ntc = some n ∧ m.h.src = n.src) := by
  have hw : s.onward p (s.ntcArrival p n) = s.switchPort (some p) 0 true := by
    refine State.switchPort_congr ?_ ?_ ?_ ..
    · exact (State.learn_only ..).fld _ _
    · exact (State.learn_only ..).id'
    · rw [State.learn_mgrPort]
      exact if_pos (by simp [State.ntcArrival, State.hdrTo])
  have hf : s.arrive (s.ntcArrival p n) true State.noticeIn = (s.met (s.ntcArrival p n)).sendOn (s.switchPort (some p) 0 true) (s.ntcArrival p n) := by
    have hme : (s.met (s.ntcArrival p n)).isManager = false := (State.met_only ..).isManager.trans hm
    rw [State.arrive_takes hu ht]
    change (if (s.met (s.ntcArrival p n)).isManager then _ else (s.met (s.ntcArrival p n)).route (some p) (s.ntcArrival p n)) = _
    rw [hme, if_neg Bool.false_ne_true, ← hw]
    exact State.met_route (m := s.ntcArrival p n) hm rfl
  obtain ⟨hall, hst, htx⟩ := State.passed_on (m := s.ntcArrival p n) hs ho
  refine State.completes_always (exec_notice p n s) (by rw [hf]; exact hst) (by rw [hf]; exact hall) ?_
  rw [hf]
  exact ⟨_, htx, rfl, rfl, rfl⟩

omit hs in
/-- The manager's state as it has taken a notice. -/
theorem State.arrive_notice (hm : s.isManager = true) : s.arrive (s.ntcArrival p n) true State.noticeIn =
    ((((s.met (s.ntcArrival p n)).noticeSeen n).hostNotice (keptNotice n s.now)).ntcFlush 2048) := by
  have hme : (s.met (s.ntcArrival p n)).isManager = true := (State.met_only ..).isManager.trans hm
  have hnow : (s.met (s.ntcArrival p n)).now = s.now := (State.met_only ..).now'
  rw [State.arrive_takes hu ht, ← hnow]
  exact if_pos hme

/-- R130: the manager sends a notice on to the host. -/
theorem State.completes_notice_host (hm : s.isManager = true) (hb : bit (s.reg Reg.NDL_NTC_EN).toNat n.ntype = true) (hn : s.flt.hostNtc = [])
    (ho : s.sends s.hostPort .ntc 0) :
    s.completes (.notice p n) [.ports, .sent, .counts, .topo] []
      (fun t => (n.ntype = 0x0A → (t.ent n.dev).stage = leAt n.payload 0 1) ∧ (n.ntype = 0x12 → (t.ent n.dev).pwr = leAt n.payload 0 1) ∧
        (n.ntype ≠ 0x0A → n.ntype ≠ 0x12 → t.topo = s.topo) ∧
        ∃ m : Msg, t.net.tx = s.net.tx ++ [(s.hostPort, m)] ∧ m.op = .ntc ∧ m.ntc = some n) := by
  obtain ⟨u, hue⟩ : ∃ u, u = s.met (s.ntcArrival p n) := ⟨_, rfl⟩
  have hmo : s.only [.ports, .counts] [] u := by rw [hue]; exact State.met_only ..
  have hj : u.que.job = none := by rw [hmo.que']; exact hs.1.2.1
  obtain ⟨v, hve⟩ : ∃ v, v = u.noticeSeen n := ⟨_, rfl⟩
  have hv : u.only [.topo] [] v := by rw [hve]; exact State.noticeSeen_only hj n
  have hsv : s.only [.ports, .counts, .topo] [] v := hmo.mono.trans hv.mono
  have hvn : v.flt.hostNtc = [] := (hsv.2.1 .notices (by decide)).2.2.1.trans hn
  obtain ⟨w, hwe⟩ : ∃ w : State, w = { v with flt.hostNtc := [keptNotice n s.now] } := ⟨_, rfl⟩
  have hh : v.hostNotice (keptNotice n s.now) = w := by
    rw [State.hostNotice, hsv.reg _, show (keptNotice n s.now).ntype = n.ntype from rfl, hb, hvn, hwe]
    rfl
  have hw : v.only [.notices] [] w := by rw [hwe]; exact here.hostNtc _
  have hport : w.hostPort = s.hostPort := by
    rw [State.hostPort_congr fun q => (hw.port q).trans (hv.port q), hue]
    exact State.met_hostPort ..
  have hsend : w.sends s.hostPort .ntc 0 := by
    have h1 : u.sends s.hostPort .ntc 0 := by rw [hue]; exact State.met_sends ho
    exact State.sends_congr (congrArg PortS.sender ((hw.port s.hostPort).trans (hv.port s.hostPort))) h1
  have hwn : w.flt.hostNtc = [keptNotice n s.now] := by rw [hwe]
  have hmsg : w.ntcMsg (keptNotice n s.now) = v.ntcMsg (keptNotice n s.now) := by rw [hwe]; rfl
  have hback : ({ w with flt.hostNtc := [] } : State) = v := by rw [hwe, ← hvn]
  have hf : s.arrive (s.ntcArrival p n) true State.noticeIn = v.sendOn s.hostPort (v.ntcMsg (keptNotice n s.now)) := by
    rw [State.arrive_notice hu ht hm, ← hue, ← hve, hh,
      State.ntcFlush_one hwn (hw.isManager.trans (hsv.isManager.trans hm)) (by rw [hport]; exact hsend), hport, hmsg, hback]
  have hsend' : v.sends s.hostPort (v.ntcMsg (keptNotice n s.now)).op (v.ntcMsg (keptNotice n s.now)).h.ndata :=
    State.sends_congr (congrArg PortS.sender (hw.port _)).symm hsend
  have h1 := State.sendOn_sends hsend'
  refine State.completes_always (exec_notice p n s) (by rw [hf]; exact State.sendOn_still hsend' (hsv.still hs)) (by rw [hf]; exact hsv.mono.trans h1.only.mono) ?_
  rw [hf]
  have htopo : (v.sendOn s.hostPort (v.ntcMsg (keptNotice n s.now))).topo = v.topo := h1.only.topo'
  have hent : (s.carry (v.sendOn s.hostPort (v.ntcMsg (keptNotice n s.now)))).ent n.dev = v.ent n.dev :=
    (State.carry_ent ..).trans (h1.only.ent' _)
  refine ⟨fun h => ?_, fun h => ?_, fun ha hb => ?_,
    { v.ntcMsg (keptNotice n s.now) with h := { (v.ntcMsg (keptNotice n s.now)).h with port := s.hostPort } }, h1.tx.trans (by rw [hsv.tx']; rfl), rfl,
    State.ntcMsg_kept v n s.now⟩
  · rw [hent, hve]
    exact State.noticeSeen_stage n h
  · rw [hent, hve]
    exact State.noticeSeen_pwr hj n h
  · refine htopo.trans ?_
    rw [hve, State.noticeSeen_other n ha hb]
    exact hmo.topo'

/-- R134: the manager counts a masked notice and discards it. -/
theorem State.completes_notice_masked (hm : s.isManager = true) (hb : bit (s.reg Reg.NDL_NTC_EN).toNat n.ntype = false) (hn : s.flt.hostNtc = []) :
    s.completes (.notice p n) [.ports, .counts, .regs, .topo] [Reg.NDL_STATUS]
      (fun t => t.fld Reg.NDL_STATUS F.NDL_STATUS_MASKED = 1 ∧ t.net.tx = s.net.tx ∧
        t.flt.counts = ((s.take p 4 0).bump (devSlot (32 + n.ntype)) n.count).flt.counts) := by
  obtain ⟨u, hue⟩ : ∃ u, u = s.met (s.ntcArrival p n) := ⟨_, rfl⟩
  have hmo : s.only [.ports, .counts] [] u := by rw [hue]; exact State.met_only ..
  have hj : u.que.job = none := by rw [hmo.que']; exact hs.1.2.1
  obtain ⟨v, hve⟩ : ∃ v, v = u.noticeSeen n := ⟨_, rfl⟩
  have hv : u.only [.topo] [] v := by rw [hve]; exact State.noticeSeen_only hj n
  have hsv : s.only [.ports, .counts, .topo] [] v := hmo.mono.trans hv.mono
  obtain ⟨w, hwe⟩ : ∃ w, w = (v.bump (devSlot (32 + n.ntype)) n.count).raise Reg.NDL_STATUS F.NDL_STATUS_MASKED := ⟨_, rfl⟩
  have hw : v.only [.counts, .regs] [Reg.NDL_STATUS] w := by rw [hwe]; exact (here.bump ..).raise ..
  have hall : s.only [.ports, .counts, .regs, .topo] [Reg.NDL_STATUS] w := (hsv.mono (by decide) (by simp)).trans (hw.mono (by decide) (by simp))
  have hwn : w.flt.hostNtc = [] := (hall.2.1 .notices (by decide)).2.2.1.trans hn
  have hh : v.hostNotice (keptNotice n s.now) = w := by
    rw [State.hostNotice, hsv.reg _, show (keptNotice n s.now).ntype = n.ntype from rfl, hb, hwe]
    rfl
  have hf : s.arrive (s.ntcArrival p n) true State.noticeIn = w := by
    rw [State.arrive_notice hu ht hm, ← hue, ← hve, hh, State.ntcFlush_none hwn]
  refine State.completes_always (exec_notice p n s) (by rw [hf]; exact hall.still hs) (by rw [hf]; exact hall) ?_
  rw [hf]
  refine ⟨?_, hall.tx', ?_⟩
  · rw [State.carry_fld, hwe]
    exact State.fld_raise _ _ (by decide) _
  · have hc : v.flt.counts = (s.take p 4 0).flt.counts := by
      have h1 : v.flt.counts = u.flt.counts := (hv.2.1 .counts (by decide)).1
      have h2 : u.flt.counts = (s.take p 4 0).flt.counts := by rw [hue]; exact ((State.learn_only ..).2.1 .counts (by decide)).1
      exact h1.trans h2
    have h3 : w.flt.counts = (v.bump (devSlot (32 + n.ntype)) n.count).flt.counts := by
      rw [hwe]
      exact ((here (ps := [.regs]) (as := [Reg.NDL_STATUS]).raise ..).2.1 .counts (by decide)).1
    refine h3.trans ?_
    rw [State.bump, State.bump, hc]

end

/-! ### A device's own notices -/

section
variable {s : State} (hu : s.up)
include hu

/-- R130: a notice whose hold has passed leaves by the port toward the manager. -/
theorem State.completes_ntcHold (k : Nat) (n : NoticeS) (hw : s.regs.wait = []) (hm : s.isManager = false) (hn : AMap.find k s.flt.notices = some n)
    (ho : s.sends s.net.mgrPort .ntc 0) :
    s.completes (.ntcHoldExpiry k) [.ports, .sent, .counts, .notices] []
      (fun t => t.flt.notices = AMap.del k s.flt.notices ∧
        ∃ m : Msg, t.net.tx = s.net.tx ++ [(s.net.mgrPort, m)] ∧ m.op = .ntc ∧
          m.ntc = some { src := Fin.ofNat 64 n.src, ntype := n.ntype, sev := n.sev, dev := n.dev, nseq := n.nseq, count := n.count, payload := n.payload }) := by
  obtain ⟨u, hue⟩ : ∃ u : State, u = { s with flt.notices := AMap.del k s.flt.notices } := ⟨_, rfl⟩
  have huo : s.only [.notices] [] u := by rw [hue]; exact here.notices _
  have hsend : u.sends s.net.mgrPort (s.ntcMsg n).op (s.ntcMsg n).h.ndata := State.sends_congr (congrArg PortS.sender (huo.port _)) ho
  have hroom : s.ntcRoom s.net.mgrPort = true := by
    obtain ⟨hact, hwait, -, hroom, hcred, -, -⟩ := ho
    have hc : (s.port s.net.mgrPort).held.has 4 0 = true := hcred
    rw [State.ntcRoom, hact, hc, hwait, decide_eq_true hroom]
    rfl
  have hf : whenAwake (State.ntcLeave k) s = u.sendOn s.net.mgrPort (s.ntcMsg n) := by
    rw [whenAwake_true _ s hu.awake, State.ntcLeave, hn]
    dsimp only
    rw [hm, if_neg Bool.false_ne_true, if_pos hroom, hue]
  have h1 := State.sendOn_sends hsend
  have hall : s.only [.ports, .sent, .counts, .notices] [] (u.sendOn s.net.mgrPort (s.ntcMsg n)) := huo.mono.trans h1.only.mono
  refine State.completes_local (f := whenAwake (State.ntcLeave k)) rfl (by rw [hf, hall.wait', hw]) (by rw [hf]; exact hall) ?_
  rw [hf]
  refine ⟨?_, _, h1.tx.trans (by rw [huo.tx']; rfl), rfl, rfl⟩
  exact (h1.only.2.1 .notices (by decide)).1.trans (by rw [hue])

/-- R134: a notice that waits for credit sets NTC_BACKLOG. -/
theorem State.completes_ntcBacklog (h : s.flt.notices.any (fun n => n.2.due) = true) :
    s.completes .ntcBacklog [.regs] [Reg.NDL_STATUS] (fun t => t.fld Reg.NDL_STATUS F.NDL_STATUS_NTC_BACKLOG = 1) := by
  obtain ⟨f, hc, hf⟩ : ∃ f : State → State, exec .ntcBacklog s = run f s ∧ f s = s.cond Reg.NDL_STATUS F.NDL_STATUS_NTC_BACKLOG true :=
    ⟨_, rfl, (whenAwake_true _ s hu.awake).trans (if_pos (by rw [h]; rfl))⟩
  refine State.completes_run hc (by rw [hf]; exact here.cond ..) ?_
  rw [hf, State.carry_fld, State.fld_cond _ _ (by decide)]
  rfl

end

/-- Settles O32: a notice is one message on its way to the host, which the manager's mask and slots alone hold up. -/
theorem notices : Obligations.Notices := fun _ hu =>
  ⟨fun _ _ hs hm ht ho => State.completes_notice_onward hu hs ht hm ho,
    fun _ _ hs hm _ ht => ⟨fun hb hn ho => State.completes_notice_host hu hs ht hm hb hn ho, fun hb hn => State.completes_notice_masked hu hs ht hm hb hn⟩,
    fun k n hw hm hn ho => State.completes_ntcHold hu k n hw hm hn ho, fun h => State.completes_ntcBacklog hu h⟩

end Sys2Proof.Machine
end

section
/-! PROOFS. A request at the owner of its line (R102, R103, R152, R161, R169, R172, R183): its way to the channel, and the answer of a read. -/

set_option Elab.async false

namespace Sys2Proof.Machine
open Sys2Proof
open State.only (here)

/-! ### What decides where a request goes -/

/-- The places of lines follow from the reserve pool alone. -/
theorem State.mapLine_congr {s t : State} (h : t.pool = s.pool) (l : Nat) : t.mapLine l = s.mapLine l := by
  have e (u : State) : u.mapLine l = ({ pool := u.pool } : State).mapLine l := rfl
  rw [e t, e s, h]

theorem State.linePlace_congr {s t : State} (h : t.pool = s.pool) (l : Nat) : t.linePlace l = s.linePlace l := by
  have e (u : State) : u.linePlace l = ({ pool := u.pool } : State).linePlace l := rfl
  rw [e t, e s, h]

section
variable {s t : State} {ps : List Part} {as : List Nat} (h : s.only ps as t)
include h

theorem State.only.linePlace (l : Nat) (hp : Part.pool ∉ ps := by decide) : t.linePlace l = s.linePlace l := State.linePlace_congr (h.pool' hp) l

theorem State.only.mustWait (l : Nat) (hp : Part.pool ∉ ps := by decide) (hc : Part.chans ∉ ps := by decide) : t.mustWait l = s.mustWait l := by
  unfold State.mustWait State.pasrWaits
  rw [State.mapLine_congr (h.pool' hp)]
  split
  · rfl
  · rw [h.chan _ hc]

theorem State.only.ownProt (a : Nat) (hp : Part.prot ∉ ps := by decide) : t.ownProt a = s.ownProt a := by
  unfold State.ownProt State.ownEntry
  rw [h.prot' hp]

theorem State.only.firmAt (c n : Nat) (hr : Reg.SVC_REACH c ∉ as := by simp) : t.firmAt c n = s.firmAt c n := by
  rw [State.firmAt, State.firmAt, State.reaches, State.reaches, h.reg _ hr]

theorem State.only.limit (c : Nat) (hr : Reg.SVC_LIMIT c ∉ as := by simp) : t.limit c = s.limit c := h.fld _ _ hr

theorem State.only.refuses (c n : Nat) (hr : Reg.SVC_REACH c ∉ as := by simp) (hf : Part.faults ∉ ps := by decide) (ht : Part.tiers ∉ ps := by decide)
    (hp : Part.power ∉ ps := by decide) : t.refuses c n = s.refuses c n := by
  rw [State.refuses, State.refuses, State.throttle, State.throttle, h.tier _ ht, h.power' hp, h.firmAt c n hr, (h.2.1 .faults hf).2.1]

theorem State.only.queuedWrite (p : Place) (h1 : Part.pcs ∉ ps := by decide) (h2 : Part.chans ∉ ps := by decide) (h3 : Part.tiers ∉ ps := by decide) :
    t.queuedWrite p = s.queuedWrite p := by
  unfold State.queuedWrite
  rw [h.bank _ _ h1, h.chan _ h2, h.tier _ h3]

/-- A request that is served at once still is after changes that its way does not touch. -/
theorem State.only.serves {x : Hdr} {a : Nat} (hs : s.serves x a) (hr : ∀ c, Reg.SVC_REACH c ∉ as := by simp) (hl : ∀ c, Reg.SVC_LIMIT c ∉ as := by simp)
    (h1 : Part.faults ∉ ps := by decide) (h2 : Part.tiers ∉ ps := by decide) (h3 : Part.power ∉ ps := by decide) (h4 : Part.own ∉ ps := by decide)
    (h5 : Part.prot ∉ ps := by decide) (h6 : Part.pool ∉ ps := by decide) (h7 : Part.chans ∉ ps := by decide) : t.serves x a := by
  rw [State.serves, h.linePlace _ h6, h.refuses _ _ (hr _) h1 h2 h3, h.own' h4, h.limit _ (hl _), h.ownProt _ h5, h.mustWait _ h6 h7, h.chan _ h7]
  exact hs

end

/-! ### The way of a request to its channel -/

/-- What holds of no entry of a table, nor of a new one, holds of none once that has been put. -/
theorem AMap.any_put {α : Type} {P : Nat × α → Bool} {m : AMap α} {k : Nat} {v : α} (hv : P (k, v) = false) (hm : ∀ e ∈ m, ¬ P e = true) :
    (AMap.put k v m).any P = false := by
  rw [List.any_eq_false]
  intro e he
  rcases AMap.mem_put he with rfl | h
  · rw [hv]
    decide
  · exact hm e h

/-- A request as it has been admitted. -/
def State.servedReq (s : State) (m : Msg) (from? : Option Port) : OReq :=
  { m := m, from? := from?, line := lineIx (adLocal m.addr), kid := adKey m.addr, prot := false, sc := m.h.sc.val, time := s.now, stage := .waiting,
    admitted := true }

/-- The owner's tables with a request that has been admitted. -/
def OwnS.admits (id : Nat) (r : OReq) (g : OwnS) : OwnS :=
  { g with next := id + 1, reqs := AMap.put id r (AMap.put id { r with admitted := false, stage := .held } g.reqs),
           count := AMap.set r.sc 0 (AMap.get r.sc 0 g.count + 1) g.count }

/-- The device with a request that has been admitted. -/
def State.admitting (m : Msg) (from? : Option Port) (s : State) : State :=
  ({ s with own := s.own.admits s.own.next (s.servedReq m from?) } : State).bump (classSlot m.h.sc.val 0) 1

theorem State.admitting_only (m : Msg) (from? : Option Port) (s : State) : s.only [.own, .counts] [] (s.admitting m from?) := (here.own _).bump ..

theorem State.admitting_find (m : Msg) (from? : Option Port) (s : State) :
    AMap.find s.own.next (s.admitting m from?).own.reqs = some (s.servedReq m from?) := AMap.find_put_self ..

section
variable {s : State} {m : Msg} (from? : Option Port) (hr : s.running = true) (hs : s.serves m.h (adLocal m.addr))
include hr hs

theorem State.ownRequest_serves : s.ownRequest m from? = (s.admitting m from?).ownServeLine s.own.next (s.servedReq m from?) := by
  obtain ⟨hag, href, hcount, hholds, hprot, hreqs, hwait, hmerge, -⟩ := hs
  obtain ⟨r0, h0⟩ : ∃ r0 : OReq, r0 = { s.servedReq m from? with admitted := false, stage := .held } := ⟨_, rfl⟩
  obtain ⟨u, hu⟩ : ∃ u : State, u = { s with own.next := s.own.next + 1, own.reqs := AMap.put s.own.next r0 s.own.reqs } := ⟨_, rfl⟩
  have hroom : u.room m.h.sc.val = true := by rw [hu]; exact decide_eq_true hcount
  have hahead : u.heldAhead s.own.next r0 = false := by
    rw [hu, h0]
    refine AMap.any_put (by simp) fun e he => ?_
    have := List.any_eq_false.1 hreqs e he
    simp only [State.servedReq] at this ⊢
    grind
  have hf : s.ownRequest m from? = u.ownAdmit s.own.next r0 := by
    unfold State.ownRequest
    extract_lets loc l c n id r g v full g' x y
    have hrr : r = r0 := by
      rw [h0]
      exact congrArg (fun b => ({ m := m, from? := from?, line := l, kid := adKey m.addr, prot := b, sc := c, time := s.now, stage := .held } : OReq)) hprot
    have hv : v = u := by rw [hu, ← hrr]
    have hfull : full = false := by
      rw [show full = (!v.room c || !(AMap.get c [] v.own.holds).isEmpty) from rfl, hv, show u.room c = true from hroom, hu]
      simp only [show AMap.get c [] s.own.holds = [] from hholds]
      rfl
    rw [if_neg (by rw [hr]; decide), if_neg (fun h => hag h.1), if_neg (fun h => Bool.false_ne_true (href.symm.trans h.2)), hfull, hv, hrr,
      show u.heldAhead id r0 = false from hahead, if_pos ⟨rfl, rfl⟩]
  have ha : u.ownAdmit s.own.next r0 = (s.admitting m from?).ownServe s.own.next := by
    rw [hu, h0]
    rfl
  have hx := State.admitting_only m from? s
  have hw : (s.admitting m from?).reqWaits (s.servedReq m from?) = false := by
    rw [State.reqWaits, show (s.servedReq m from?).line = lineIx (adLocal m.addr) from rfl, hx.mustWait, hwait]
    rfl
  have ht : (s.admitting m from?).tagAhead s.own.next (s.servedReq m from?) = false := by
    refine AMap.any_put (by simp) fun e he => ?_
    rcases AMap.mem_put he with rfl | he
    · simp
    · have := List.any_eq_false.1 hreqs e he
      simp only [State.servedReq] at this ⊢
      grind
  have hm : (s.admitting m from?).own.merges.find? (fun e => e.line == (s.servedReq m from?).line) = none := by
    rw [List.find?_eq_none]
    exact List.any_eq_false.1 hmerge
  rw [hf, ha, State.ownServe, State.admitting_find]
  dsimp only
  rw [hw, if_neg Bool.false_ne_true, ht, if_neg Bool.false_ne_true, hm]

end

/-! ### Reads -/

theorem svcReach_ne_status (c : Nat) : Reg.SVC_REACH c ≠ Reg.SVC_STATUS := by
  simp only [Reg.SVC_REACH, Reg.SVC_STATUS]
  omega

theorem State.outOfReach_only (c n : Nat) (s : State) : s.only [.counts, .regs] [Reg.SVC_STATUS] (s.outOfReach c n) :=
  iteInduction (fun _ => (here.bump ..).raise ..) (fun _ => here)

/-- A read whose line has not arrived waits. -/
theorem State.ownReadDone_waits {r : OReq} (h : r.data = none) (id : Nat) (s : State) : s.ownReadDone id r = s := by
  unfold State.ownReadDone
  rw [h]

/-- The device with an admitted read whose line is being read. -/
def State.lineAsked (id : Nat) (r : OReq) (s : State) : State := { s with own.reqs := AMap.put id { r with stage := .reading } s.own.reqs }

theorem State.lineAsked_only (id : Nat) (r : OReq) (s : State) : s.only [.own] [] (s.lineAsked id r) := here.own _

/-- R103: a read of an unprotected line that has arrived without correction is answered with its data. -/
theorem State.ownReadDone_clean {r : OReq} {d : List Byte} {md : Nat} (id : Nat) (s : State) (hd : r.data = some (some d, md, false)) (hp : r.prot = false)
    (hk : mdState md = 0 ∨ mdKid md = r.kid) (hpo : mdPoison md = false) :
    s.ownReadDone id r = (s.bump (chSlot (s.linePlace r.line).chan (if r.m.h.agent = .engine then 35 else 33)) 1).ownEnd id r .rdata
      (readPart r.m.op (adLocal r.m.addr) d) 0 0 0 := by
  have hk' : ¬ (mdState md ≠ 0 ∧ mdKid md ≠ r.kid) := fun ⟨h1, h2⟩ => hk.elim h1 h2
  rw [State.ownReadDone, hd, hp]
  dsimp only
  rw [if_neg Bool.false_ne_true]
  dsimp only
  rw [if_neg (by simp), if_neg hk', hpo, if_neg Bool.false_ne_true]
  rfl

section
variable {s : State} {id : Nat} {r : OReq} (hop : r.m.op = .rd64 ∨ r.m.op = .rd128) (hupd : r.m.upd = none) (hprot : r.prot = false)
  (hret : (s.chan (s.linePlace r.line).chan).retired = false)
include hop hupd hprot hret

/-- R102: a read for whose line no write waits enters its channel. -/
theorem State.ownServeLine_reads (hq : s.queuedWrite (s.linePlace r.line) = none) (hd : r.data = none) :
    s.ownServeLine id r = ((s.outOfReach r.sc (s.linePlace r.line).chan).newAcc (s.linePlace r.line) none r.sc (s.firmAt r.sc (s.linePlace r.line).chan)
      (.req id) s.now).lineAsked id r := by
  have hx := State.outOfReach_only r.sc (s.linePlace r.line).chan s
  have hwr : ¬ (r.m.op = .wr64 ∨ r.m.op = .wr128) := by rcases hop with h | h <;> simp [h]
  have hl : s.readLine r.line r.sc (.req id) =
      ((s.outOfReach r.sc (s.linePlace r.line).chan).newAcc (s.linePlace r.line) none r.sc (s.firmAt r.sc (s.linePlace r.line).chan) (.req id) s.now, none) := by
    rw [State.readLine, hx.queuedWrite, hq, hx.firmAt _ _ (by simpa using svcReach_ne_status _), hx.now']
  rw [State.ownServeLine, hret, if_neg Bool.false_ne_true, hupd]
  dsimp only
  rw [if_neg (fun h => hwr (.inl h.1)), if_neg (fun h => hwr h.1), if_neg hwr, hl]
  dsimp only
  rw [hprot, if_neg Bool.false_ne_true]
  exact State.ownReadDone_waits hd ..

/-- R169: a read for whose line a write waits takes its data from it. -/
theorem State.ownServeLine_answered {d : List Byte} {md : Nat} (hq : s.queuedWrite (s.linePlace r.line) = some (d, md)) :
    s.ownServeLine id r = ((s.outOfReach r.sc (s.linePlace r.line).chan).lineAsked id { r with data := some (some d, md, false) }).ownReadDone id
      { r with data := some (some d, md, false) } := by
  have hx := State.outOfReach_only r.sc (s.linePlace r.line).chan s
  have hwr : ¬ (r.m.op = .wr64 ∨ r.m.op = .wr128) := by rcases hop with h | h <;> simp [h]
  have hl : s.readLine r.line r.sc (.req id) = (s.outOfReach r.sc (s.linePlace r.line).chan, some (d, md)) := by
    rw [State.readLine, hx.queuedWrite, hq]
  rw [State.ownServeLine, hret, if_neg Bool.false_ne_true, hupd]
  dsimp only
  rw [if_neg (fun h => hwr (.inl h.1)), if_neg (fun h => hwr h.1), if_neg hwr, hl]
  dsimp only
  rw [if_neg (show ¬ r.prot = true by rw [hprot]; decide)]
  rfl

end

/-! ### The end of a request -/

/-- The owner's tables without a request that has ended. -/
def OwnS.ended (id : Nat) (r : OReq) (g : OwnS) : OwnS :=
  { g with reqs := AMap.del id g.reqs, count := AMap.set r.sc 0 (AMap.get r.sc 0 g.count - 1) g.count }

/-- A request that ends as it was admitted misses nothing. -/
theorem State.judge_now (m : Msg) (n : Nat) (s : State) : s.judge m s.now n = s := by
  rw [State.judge, Nat.sub_self]
  exact if_neg fun h => Nat.not_lt_zero _ h.2.2.2

theorem State.ownEnd_now {s : State} {r : OReq} {p : Port} {op : MOp} (id : Nat) (d : List Byte) (st fl g : Nat) (ha : r.admitted = true) (ht : r.time = s.now)
    (hf : r.from? = some p) (hop : op ≠ .err) :
    s.ownEnd id r op d st fl g = (({ s with own := s.own.ended id r } : State).sendOn p (s.rspMsg r.m op d st fl g)).relevel (s.linePlace r.line).chan := by
  obtain ⟨u, hu⟩ : ∃ u : State, u = { s with own := s.own.ended id r } := ⟨_, rfl⟩
  have hj : u.judge r.m r.time (u.linePlace r.line).chan = u := by
    have : r.time = u.now := by rw [hu]; exact ht
    rw [this]
    exact State.judge_now ..
  have he : s.ownEnd id r op d st fl g = ((u.judge r.m r.time (u.linePlace r.line).chan).answer r.m r.from? op d st fl g).relevel (u.linePlace r.line).chan := by
    rw [State.ownEnd, if_pos ha, if_pos ha, hu]
    rfl
  rw [he, hj, State.answer, if_neg hop, hf, hu]
  rfl

/-! ### A read at its owner -/

theorem messageOf_read {i : Instr} {m : Msg} (hi : messageOf i = some m) (hop : m.op = .rd64 ∨ m.op = .rd128) :
    (∀ s, exec i s = always (State.arrive m true State.requestIn) s) ∧ m.upd = none := by
  unfold messageOf at hi
  split at hi <;> cases hi
  case h_1 => exact ⟨fun _ => rfl, rfl⟩
  case h_2 => exact ⟨fun _ => rfl, rfl⟩
  all_goals simp at hop

/-- A port takes in a memory request for this device. -/
theorem State.arrive_request {s : State} {m : Msg} (hu : s.up) (ht : s.takes m.h.port m.op m.h.ndata) (hside : s.hostSide m.h.port = false)
    (hmine : s.mine m.h = true) : s.arrive m true State.requestIn = (s.met m).ownRequest m (some m.h.port) := by
  have hmo := State.met_only m s
  have hm : (s.met m).mine m.h = true := by
    rw [State.mine, State.numValid, State.num, hmo.fld _ _, hmo.fld _ _, hmo.isManager]
    exact hmine
  rw [State.arrive_takes hu ht, State.requestIn, hmo.hostSide, hside, if_neg Bool.false_ne_true, if_pos hm]

theorem length_readPart {op : MOp} (loc : Nat) {d : List Byte} (h : d.length = 128) (hop : op = .rd64 ∨ op = .rd128) : (readPart op loc d).length = granule op := by
  rcases hop with rfl | rfl
  · rw [readPart, if_pos rfl]
    split <;> simp [h, granule]
  · rw [readPart, if_neg (by decide), h]
    rfl

section
variable {s : State} {i : Instr} {m : Msg} (hu : s.up) (hs : s.still) (hi : messageOf i = some m) (hop : m.op = .rd64 ∨ m.op = .rd128)
  (ht : s.takes m.h.port m.op m.h.ndata) (hside : s.hostSide m.h.port = false) (hmine : s.mine m.h = true) (hser : s.serves m.h (adLocal m.addr))
include hu hs hi hop ht hside hmine hser

/-- R102, R169: a read of a line for which no write waits enters its channel. -/
theorem State.completes_ownRead (hq : s.queuedWrite (s.linePlace (lineIx (adLocal m.addr))) = none) :
    s.completes i [.ports, .counts, .own, .bursts, .pcs, .chans, .tiers, .regs] (arrivalRegs (s.linePlace (lineIx (adLocal m.addr))).chan)
      (fun t => (∃ r : OReq, AMap.find s.own.next t.own.reqs = some r ∧ r.m = m ∧ r.from? = some m.h.port ∧ r.stage = .reading ∧
          r.line = lineIx (adLocal m.addr) ∧ r.kid = adKey m.addr) ∧
        t.accWaits (s.metRefresh { id := s.stack.nextAcc, place := s.linePlace (lineIx (adLocal m.addr)), wr := none, sc := m.h.sc.val,
                                   firm := s.firmAt m.h.sc.val (s.linePlace (lineIx (adLocal m.addr))).chan, origin := .req s.own.next, time := s.now })) := by
  obtain ⟨hc, hupd⟩ := messageOf_read hi hop
  obtain ⟨u, hue⟩ : ∃ u, u = s.met m := ⟨_, rfl⟩
  have hmo : s.only [.ports, .counts] [] u := by rw [hue]; exact State.met_only ..
  obtain ⟨x, hxe⟩ : ∃ x, x = u.admitting m (some m.h.port) := ⟨_, rfl⟩
  have hx : s.only [.ports, .counts, .own] [] x := by rw [hxe]; exact hmo.mono.trans (State.admitting_only ..).mono
  obtain ⟨r, hr⟩ : ∃ r, r = u.servedReq m (some m.h.port) := ⟨_, rfl⟩
  have hline : x.linePlace r.line = s.linePlace (lineIx (adLocal m.addr)) := by rw [hx.linePlace, hr]; rfl
  obtain ⟨p, hpe⟩ : ∃ p, p = s.linePlace (lineIx (adLocal m.addr)) := ⟨_, rfl⟩
  rw [← hpe] at hline hq ⊢
  have hret : (x.chan (x.linePlace r.line).chan).retired = false := by
    rw [hline, hx.chan, hpe]
    exact hser.2.2.2.2.2.2.2.2
  obtain ⟨z, hze⟩ : ∃ z, z = x.outOfReach r.sc p.chan := ⟨_, rfl⟩
  have hz : x.only [.counts, .regs] [Reg.SVC_STATUS] z := by rw [hze]; exact State.outOfReach_only ..
  have hsz : s.only [.ports, .counts, .own, .regs] [Reg.SVC_STATUS] z := (hx.mono (by decide) (by simp)).trans (hz.mono (by decide) (fun _ h => h))
  have hn := State.newAcc_only p none r.sc (s.firmAt r.sc p.chan) (.req s.own.next) s.now z
  have hrun := State.newAcc_runs p none r.sc (s.firmAt r.sc p.chan) (.req s.own.next) s.now z
  have hw := State.newAcc_waits p none r.sc (s.firmAt r.sc p.chan) (.req s.own.next) s.now z
  obtain ⟨y, hye⟩ : ∃ y, y = z.newAcc p none r.sc (s.firmAt r.sc p.chan) (.req s.own.next) s.now := ⟨_, rfl⟩
  rw [← hye] at hn hrun hw
  have hnext : u.own.next = s.own.next := by rw [hmo.own']
  have hf : s.arrive m true State.requestIn = y.lineAsked s.own.next r := by
    rw [State.arrive_request hu ht hside hmine, ← hue, State.ownRequest_serves _ (hmo.running.trans hu.running) (hmo.serves hser), hnext, ← hxe, ← hr,
      State.ownServeLine_reads (by rw [hr]; exact hop) (by rw [hr]; exact hupd) (by rw [hr]; rfl) hret (by rw [hx.queuedWrite, hline]; exact hq) (by rw [hr]; rfl),
      hline, hx.firmAt, hx.now', hye, hze]
  have hl := State.lineAsked_only s.own.next r y
  have hall : s.only [.ports, .counts, .own, .bursts, .pcs, .chans, .tiers, .regs] (arrivalRegs p.chan) (y.lineAsked s.own.next r) :=
    ((hsz.mono (by decide) (by simp [arrivalRegs])).trans (hn.mono (by decide) (by simp [arrivalRegs]))).trans (hl.mono (by decide) (by simp))
  have hruns (k : Nat) (_ : k < 4) : ((y.lineAsked s.own.next r).tier k).run = (s.tier k).run := by
    rw [hl.tier, hrun k, hsz.tier]
  refine State.completes_always (hc s) (by rw [hf]; exact hall.still_runs hs hruns) (by rw [hf]; exact hall) ?_
  rw [hf]
  refine ⟨⟨{ r with stage := .reading }, AMap.find_put_self .., ?_⟩, ?_⟩
  · rw [hr]
    exact ⟨rfl, rfl, rfl, rfl, rfl⟩
  · have hacc : z.accOf p none r.sc (s.firmAt r.sc p.chan) (.req s.own.next) s.now = {
          id := s.stack.nextAcc, place := p, wr := none, sc := m.h.sc.val, firm := s.firmAt m.h.sc.val p.chan, origin := .req s.own.next, time := s.now } := by
      rw [State.accOf, show z.stack.nextAcc = s.stack.nextAcc from (hsz.2.1 .bursts (by decide)).2, hr]
      rfl
    rw [hacc, State.metRefresh, hsz.now', hsz.bank, ← State.metRefresh] at hw
    exact hw

/-- R169: a read of a line for which a write waits is answered at once with what that write holds. -/
theorem State.completes_ownRead_queued {d : List Byte} {md : Nat} (hq : s.queuedWrite (s.linePlace (lineIx (adLocal m.addr))) = some (d, md))
    (hk : mdState md = 0 ∨ mdKid md = adKey m.addr) (hpo : mdPoison md = false) (ho : s.sends m.h.port .rdata (granule m.op / 32)) (hd : d.length = 128) :
    s.completes i [.ports, .sent, .counts, .own, .chans, .regs, .notices] [Reg.SVC_STATUS]
      (fun t => AMap.find s.own.next t.own.reqs = none ∧
        t.net.tx = s.net.tx ++ [(m.h.port, { s.rspMsg m .rdata (readPart m.op (adLocal m.addr) d) 0 0 0 with
          h := { (s.rspMsg m .rdata (readPart m.op (adLocal m.addr) d) 0 0 0).h with port := m.h.port } })]) := by
  obtain ⟨hc, hupd⟩ := messageOf_read hi hop
  obtain ⟨u, hue⟩ : ∃ u, u = s.met m := ⟨_, rfl⟩
  have hmo : s.only [.ports, .counts] [] u := by rw [hue]; exact State.met_only ..
  obtain ⟨x, hxe⟩ : ∃ x, x = u.admitting m (some m.h.port) := ⟨_, rfl⟩
  have hux : u.only [.own, .counts] [] x := by rw [hxe]; exact State.admitting_only ..
  have hx : s.only [.ports, .counts, .own] [] x := hmo.mono.trans hux.mono
  obtain ⟨r, hr⟩ : ∃ r, r = u.servedReq m (some m.h.port) := ⟨_, rfl⟩
  have hline : x.linePlace r.line = s.linePlace (lineIx (adLocal m.addr)) := by rw [hx.linePlace, hr]; rfl
  obtain ⟨p, hpe⟩ : ∃ p, p = s.linePlace (lineIx (adLocal m.addr)) := ⟨_, rfl⟩
  rw [← hpe] at hline hq
  have hret : (x.chan (x.linePlace r.line).chan).retired = false := by
    rw [hline, hx.chan, hpe]
    exact hser.2.2.2.2.2.2.2.2
  obtain ⟨r', hr'⟩ : ∃ r' : OReq, r' = { r with data := some (some d, md, false) } := ⟨_, rfl⟩
  have hz0 : x.only [.counts, .regs] [Reg.SVC_STATUS] (x.outOfReach r.sc p.chan) := State.outOfReach_only ..
  obtain ⟨n, hne⟩ : ∃ n : Nat, n = chSlot (((x.outOfReach r.sc p.chan).lineAsked s.own.next r').linePlace r'.line).chan (if r'.m.h.agent = .engine then 35 else 33) :=
    ⟨_, rfl⟩
  obtain ⟨z, hze⟩ : ∃ z, z = ((x.outOfReach r.sc p.chan).lineAsked s.own.next r').bump n 1 := ⟨_, rfl⟩
  have hz : x.only [.counts, .regs, .own] [Reg.SVC_STATUS] z := by
    rw [hze]
    exact ((hz0.mono (by decide) (fun _ h => h)).own _).bump ..
  have hsz : s.only [.ports, .counts, .own, .regs] [Reg.SVC_STATUS] z := (hx.mono (by decide) (by simp)).trans (hz.mono (by decide) (fun _ h => h))
  obtain ⟨w, hwe⟩ : ∃ w : State, w = { z with own := z.own.ended s.own.next r' } := ⟨_, rfl⟩
  have hw : s.only [.ports, .counts, .own, .regs] [Reg.SVC_STATUS] w := by rw [hwe]; exact hsz.own _
  obtain ⟨q, hqe⟩ : ∃ q, q = z.rspMsg m .rdata (readPart m.op (adLocal m.addr) d) 0 0 0 := ⟨_, rfl⟩
  have hqs : q = s.rspMsg m .rdata (readPart m.op (adLocal m.addr) d) 0 0 0 := by
    rw [hqe, State.rspMsg, State.rspMsg, State.hdrTo, State.hdrTo, State.num, State.num, hsz.fld Reg.IDENT_DEVNUM _ (by decide)]
  have hnext : u.own.next = s.own.next := by rw [hmo.own']
  have hf : s.arrive m true State.requestIn = (w.sendOn m.h.port q).relevel (z.linePlace r'.line).chan := by
    rw [State.arrive_request hu ht hside hmine, ← hue, State.ownRequest_serves _ (hmo.running.trans hu.running) (hmo.serves hser), hnext, ← hxe, ← hr,
      State.ownServeLine_answered (by rw [hr]; exact hop) (by rw [hr]; exact hupd) (by rw [hr]; rfl) hret (by rw [hx.queuedWrite, hline]; exact hq), hline, ← hr',
      State.ownReadDone_clean _ _ (by rw [hr']) (by rw [hr', hr]; rfl) (by rw [hr', hr]; exact hk) hpo, ← hne, ← hze,
      State.ownEnd_now (p := m.h.port) _ _ _ _ _ (by rw [hr', hr]; rfl) (by rw [hr', hr, hsz.now']; exact hmo.now') (by rw [hr', hr]; rfl) (by decide), hwe, hqe, hr', hr]
    rfl
  have hsend : w.sends m.h.port q.op q.h.ndata := by
    have h1 : u.sends m.h.port .rdata (granule m.op / 32) := by rw [hue]; exact State.met_sends ho
    have h2 : w.port m.h.port = u.port m.h.port := by
      rw [hwe]
      exact (hz.port _).trans (hux.port _)
    have h3 : q.h.ndata = granule m.op / 32 := by
      rw [hqe]
      exact congrArg (· / 32) (length_readPart _ hd hop)
    rw [h3, hqe]
    exact State.sends_congr (congrArg PortS.sender h2) h1
  have h1 := State.sendOn_sends hsend
  have hl := State.relevel_only (z.linePlace r'.line).chan (w.sendOn m.h.port q)
  have hall : s.only [.ports, .sent, .counts, .own, .chans, .regs, .notices] [Reg.SVC_STATUS] ((w.sendOn m.h.port q).relevel (z.linePlace r'.line).chan) :=
    ((hw.mono (by decide) (fun _ h => h)).trans (h1.only.mono (by decide) (by simp))).trans (hl.mono (by decide) (fun _ h => h))
  refine State.completes_always (hc s) (by rw [hf]; exact hl.still (State.sendOn_still hsend (hw.still hs))) (by rw [hf]; exact hall) ?_
  rw [hf]
  refine ⟨?_, ?_⟩
  · change AMap.find s.own.next ((w.sendOn m.h.port q).relevel (z.linePlace r'.line).chan).own.reqs = none
    rw [hl.own', h1.only.own', hwe]
    exact AMap.find_del_self ..
  · rw [← hqs]
    exact hl.tx'.trans (h1.tx.trans (by rw [hw.tx']; rfl))

end

/-- Settles O24: a read that is served at once is admitted, and waits for its line or takes it from the write that waits for it. -/
theorem ownerReads : Obligations.OwnerReads := by
  rintro s _ i m hu hs hi hop rfl ht hside hmine hser
  exact ⟨fun hq => State.completes_ownRead hu hs hi hop ht hside hmine hser hq,
    fun d md hq hk hpo ho hd => State.completes_ownRead_queued hu hs hi hop ht hside hmine hser hq hk hpo ho hd⟩

end Sys2Proof.Machine
end

section
/-! PROOFS. The lengths of what the ciphers of a line make (R265): a line encrypted is a line. -/

set_option Elab.async false

namespace Sys2Proof.Machine
open Sys2Proof

/-! ### AES-256 -/

/-- A list of words of four bytes each. -/
def fourByteWords (ws : List (List Nat)) : Prop := ∀ w ∈ ws, w.length = 4

theorem length_aesExpand (n : Nat) : ∀ (i rc : Nat) (ws : List (List Nat)), 8 ≤ ws.length → fourByteWords ws →
    (aesExpand n i rc ws).length = n + ws.length ∧ fourByteWords (aesExpand n i rc ws) := by
  induction n with
  | zero => exact fun i rc ws _ hf => ⟨(Nat.zero_add _).symm, hf⟩
  | succ n ih =>
    intro i rc ws h8 hf
    obtain ⟨t, ht⟩ : ∃ t : List Nat, t = if i % 8 = 0 then (match (ws.headD []).map aesSub with | [a, b, c, d] => [b ^^^ rc, c, d, a] | l => l)
        else if i % 8 = 4 then (ws.headD []).map aesSub else ws.headD [] := ⟨_, rfl⟩
    have hhead : (ws.headD []).length = 4 := by
      cases ws with
      | nil => simp at h8
      | cons w ws => exact hf w (List.mem_cons_self ..)
    have h4 : t.length = 4 := by
      rw [ht]
      split
      · split
        · rfl
        · rw [List.length_map, hhead]
      · split
        · rw [List.length_map, hhead]
        · exact hhead
    have h7 : (ws.getD 7 []).length = 4 := by
      rw [List.getD_eq_getElem _ _ (by omega)]
      exact hf _ (List.getElem_mem _)
    have he : aesExpand (n + 1) i rc ws = aesExpand n (i + 1) (if i % 8 = 0 then gfAes.alpha rc else rc) (xorL (ws.getD 7 []) t :: ws) := by
      rw [ht]
      rfl
    have hf' : fourByteWords (xorL (ws.getD 7 []) t :: ws) := by
      intro w hw
      rcases List.mem_cons.mp hw with rfl | hw
      · rw [xorL, List.length_zipWith, h7, h4, Nat.min_self]
      · exact hf w hw
    obtain ⟨hl, hw⟩ := ih (i + 1) (if i % 8 = 0 then gfAes.alpha rc else rc) _ (by simp only [List.length_cons]; omega) hf'
    rw [he]
    refine ⟨?_, hw⟩
    rw [hl, List.length_cons]
    omega

theorem length_flatten_words {ws : List (List Nat)} (h : fourByteWords ws) : ws.flatten.length = 4 * ws.length := by
  rw [List.length_flatten, List.map_congr_left h, List.map_const', List.sum_replicate, smul_eq_mul, Nat.mul_comm]

/-- The last of the fifteen round keys has sixteen bytes, whatever the key is. -/
theorem length_lastKey (key : List Byte) : ((aesKeys key).getD 14 []).length = 16 := by
  obtain ⟨k, hk⟩ : ∃ k : List Nat, k = (key ++ zeros 32).map (·.toNat) := ⟨_, rfl⟩
  have h32 : 32 ≤ k.length := by
    rw [hk, List.length_map, List.length_append, zeros, List.length_replicate]
    omega
  obtain ⟨ws, hws⟩ : ∃ ws : List (List Nat), ws = ((List.range 8).map (fun i => (k.drop (4 * i)).take 4)).reverse := ⟨_, rfl⟩
  have h8 : ws.length = 8 := by rw [hws, List.length_reverse, List.length_map, List.length_range]
  have hf : fourByteWords ws := by
    intro w hw
    rw [hws, List.mem_reverse, List.mem_map] at hw
    obtain ⟨i, hi, rfl⟩ := hw
    have := List.mem_range.mp hi
    rw [List.length_take, List.length_drop]
    omega
  obtain ⟨hl, hw⟩ := length_aesExpand 52 8 1 ws (by omega) hf
  obtain ⟨all, hall⟩ : ∃ all, all = (aesExpand 52 8 1 ws).reverse := ⟨_, rfl⟩
  have he : (aesKeys key).getD 14 [] = ((all.drop 56).take 4).flatten := by
    rw [aesKeys, ← hk, ← hws, ← hall]
    rfl
  have ha : all.length = 60 := by rw [hall, List.length_reverse, hl, h8]
  have h4 : fourByteWords ((all.drop 56).take 4) := by
    intro w hm
    have h1 := List.mem_of_mem_drop (List.mem_of_mem_take hm)
    rw [hall, List.mem_reverse] at h1
    exact hw w h1
  rw [he, length_flatten_words h4, List.length_take, List.length_drop, ha]
  rfl

theorem length_aesEnc (key b : List Byte) : (aesEnc (aesKeys key) b).length = 16 := by
  rw [aesEnc, List.length_map, xorL, List.length_zipWith, length_lastKey, aesShift, List.length_map, List.length_range, Nat.min_self]

/-! ### XTS -/

theorem length_xtsBlocks {f : List Byte → List Byte} (hf : ∀ b, (f b).length = 16) (n : Nat) :
    ∀ t d : List Byte, t.length = 16 → (xtsBlocks f n t d).length = 16 * n := by
  induction n with
  | zero => exact fun _ _ _ => rfl
  | succ n ih =>
    intro t d ht
    rw [xtsBlocks, List.length_append, xorBytes, List.length_zipWith, hf, ht, ih (xtsNext t) _ (leBytes_len ..)]
    omega

/-- R265: what a line is encrypted to is a line. -/
theorem length_lineEncrypt (kData kTweak : List Byte) (dev loc : Nat) (d : List Byte) : (lineEncrypt kData kTweak dev loc d).length = 128 :=
  length_xtsBlocks (length_aesEnc kData) 8 _ d (length_aesEnc ..)

end Sys2Proof.Machine
end

section
/-! PROOFS. A memory request of the host at the manager (R137, R167, R171, R271). -/

set_option Elab.async false

namespace Sys2Proof.Machine
open Sys2Proof
open State.only (here)

/-! ### The arrival of a request -/

/-- A request of the host as the manager takes it: without the flag that only a device may set (R102). -/
def Msg.ofHost (m : Msg) : Msg := { m with h := { m.h with flags := m.h.flags &&& 0xFE } }

/-- The manager with one more request arrived. -/
def State.arrivedOne (s : State) : State := { s with mgr := { s.mgr with arrivals := s.mgr.arrivals + 1 } }

theorem State.arrivedOne_only (s : State) : s.only [.mgr] [] s.arrivedOne := here.mgr _

theorem messageOf_host {i : Instr} {m : Msg} (hi : messageOf i = some m) (hd : dataFits i = true)
    (hop : m.op = .rd64 ∨ m.op = .rd128 ∨ m.op = .wr64 ∨ m.op = .wr128) :
    (∀ s, exec i s = always (State.arrive m true State.requestIn) s) ∧ m.upd = none ∧ m.eng = none ∧ (m.op = .wr128 → m.data.length = 128) := by
  unfold messageOf at hi
  split at hi <;> cases hi
  case h_1 => exact ⟨fun _ => rfl, rfl, rfl, nofun⟩
  case h_2 => exact ⟨fun _ => rfl, rfl, rfl, nofun⟩
  case h_3 h a d =>
    have hd' : (d.length == 64) = true := hd
    refine ⟨fun s => ?_, rfl, rfl, nofun⟩
    change always (State.arrive _ (d.length == 64) State.requestIn) s = _
    rw [hd']
  case h_4 h a d g =>
    have hd' : (d.length == 128) = true := hd
    refine ⟨fun s => ?_, rfl, rfl, fun _ => eq_of_beq hd'⟩
    change always (State.arrive _ (d.length == 128) State.requestIn) s = _
    rw [hd']
  all_goals simp at hop

theorem State.arrive_host {s : State} {m : Msg} (hu : s.up) (ht : s.takes m.h.port m.op m.h.ndata) (hside : s.hostSide m.h.port = true) :
    s.arrive m true State.requestIn = (s.met m).mgrRequest m.ofHost := by
  rw [State.arrive_takes hu ht, State.requestIn, (State.met_only m s).hostSide, if_pos hside]
  rfl

/-- What arrives at the ports does not change how the manager judges a request. -/
theorem State.only.mgrJudge {s t : State} {ps : List Part} {as : List Nat} (h : s.only ps as t) (b : List Msg) (n : Nat) (m : Msg)
    (hl : Reg.SVC_LIMIT m.h.sc.val ∉ as := by simp) (h1 : Part.mgr ∉ ps := by decide) (h2 : Part.topo ∉ ps := by decide) (h3 : Part.prot ∉ ps := by decide)
    (h4 : Part.id ∉ ps := by decide) : t.mgrJudge b n m = s.mgrJudge b n m := by
  unfold State.mgrJudge State.fenced State.routeHeld State.unreachable State.mapHeld State.mapAdmits State.mapEntry State.key State.mgrCount State.hostOpen State.tagsDue
  simp only [h.mgr' h1, h.prot' h3, h.topo' h2, h.isManager h4, h.limit _ hl, h.ent' _ h2]

theorem State.mgrRequest_judged {s u : State} {m : Msg} (h : s.only [.ports, .counts] [] u) :
    u.mgrRequest m = match s.mgrJudge (waiting s.mgr.ingress) s.mgr.arrivals m with
      | .err c => u.arrivedOne.reject m c
      | .go => u.arrivedOne.mgrServe m
      | .hold => when (u.arrivedOne.resurveyed m) (State.exclude m.h.sc.val)
          { u.arrivedOne with mgr := { u.arrivedOne.mgr with ingress := s.mgr.ingress ++ [(s.mgr.arrivals, m)] } }
      | .limit => ({ u.arrivedOne with mgr := { u.arrivedOne.mgr with ingress := s.mgr.ingress ++ [(s.mgr.arrivals, m)] } } : State).limitHeld s.mgr.arrivals m := by
  have hj : u.arrivedOne.mgrJudge (waiting u.mgr.ingress) u.mgr.arrivals m = s.mgrJudge (waiting s.mgr.ingress) s.mgr.arrivals m := by
    rw [← h.mgrJudge, h.mgr']
    rfl
  have hs : u.mgrRequest m = match u.arrivedOne.mgrJudge (waiting u.mgr.ingress) u.mgr.arrivals m with
      | .err c => u.arrivedOne.reject m c
      | .go => u.arrivedOne.mgrServe m
      | .hold => when (u.arrivedOne.resurveyed m) (State.exclude m.h.sc.val)
          { u.arrivedOne with mgr := { u.arrivedOne.mgr with ingress := u.mgr.ingress ++ [(u.mgr.arrivals, m)] } }
      | .limit => ({ u.arrivedOne with mgr := { u.arrivedOne.mgr with ingress := u.mgr.ingress ++ [(u.mgr.arrivals, m)] } } : State).limitHeld u.mgr.arrivals m := rfl
  rw [hs, hj, h.mgr']

/-! ### What is quiet stays quiet -/

/-- Where nothing goes on, nothing does after requests that are no HINTs have come to wait. -/
theorem State.only.calm_kept {s t : State} {ps : List Part} {as : List Nat} (h : s.only ps as t) (hs : s.calm)
    (hc : t.mgr.cfg = s.mgr.cfg) (hw : t.mgr.waitC = s.mgr.waitC) (hh : t.mgr.ingress.any (fun e => e.2.op == .hint) = false)
    (h1 : Part.sent ∉ ps := by decide) (h2 : Part.que ∉ ps := by decide)
    (h4 : Part.prot ∉ ps := by decide) (h6 : Part.tiers ∉ ps := by decide) (h7 : Part.pool ∉ ps := by decide) : t.calm := by
  have he : t.engBusy = s.engBusy := by
    have : t.engTurns = s.engTurns := funext (fun k => by simp only [State.engTurns, h.tier k h6])
    rw [State.engBusy, State.engBusy, this]
  simp only [State.calm, State.groupBusy, State.copyBusy, h.inbox' h1, h.que' h2, hc, hw, hh, he, h.prot' h4, h.pool' h7] at hs ⊢
  obtain ⟨h1, h2, h3, h5, hd, h8, -, h10, h11, h12⟩ := hs
  exact ⟨h1, h2, h3, h5, hd, h8, trivial, h10, h11, h12⟩

section
variable {s v : State} {i : Instr} {m : Msg} {ps : List Part} {as : List Nat} (hs : s.still) (hv : (s.met m).only ps as v)
  (hc : ∀ s, exec i s = always (State.arrive m true State.requestIn) s) (hcfg : v.mgr.cfg = s.mgr.cfg) (hwait : v.mgr.waitC = s.mgr.waitC)
include hs hv hc hcfg hwait

/-- A request that the manager keeps. -/
theorem State.completes_hostKept (hf : s.arrive m true State.requestIn = v) (hh : v.mgr.ingress.any (fun e => e.2.op == .hint) = false)
    (h1 : Part.sent ∉ ps := by decide) (h2 : Part.que ∉ ps := by decide) (h3 : Part.effects ∉ ps := by decide)
    (h4 : Part.prot ∉ ps := by decide) (h6 : Part.tiers ∉ ps := by decide) (h7 : Part.pool ∉ ps := by decide) :
    s.completes i (.ports :: .counts :: ps) as (fun t => t.mgr = v.mgr ∧ (∀ a f, t.fld a f = v.fld a f) ∧ t.net.tx = s.net.tx) := by
  have hmo := State.met_only m s
  have hmc : (s.met m).calm := hmo.calm_kept hs.1 (by rw [hmo.mgr']) (by rw [hmo.mgr']) (by rw [hmo.mgr']; exact hs.1.2.2.2.2.2.2.1)
  refine State.completes_always (hc s) ⟨?_, ?_⟩ ?_ ?_
  · rw [hf]
    exact hv.calm_kept hmc (by rw [hcfg, hmo.mgr']) (by rw [hwait, hmo.mgr']) hh h1 h2 h4 h6 h7
  · rw [hf, hv.wait' h3, hmo.wait']
    exact hs.2
  · rw [hf]
    exact (hmo.mono (by simp) (by simp)).trans (hv.mono (fun _ h => List.mem_cons_of_mem _ (List.mem_cons_of_mem _ h)) (fun _ h => h))
  · rw [hf]
    exact ⟨rfl, fun _ _ => rfl, (hv.tx' h1).trans hmo.tx'⟩

/-- A request for which the manager sends one message. -/
theorem State.completes_hostSent {p : Port} {q : Msg} (hf : s.arrive m true State.requestIn = v.sendOn p q) (hsend : s.sends p q.op q.h.ndata)
    (hin : v.mgr.ingress = s.mgr.ingress)
    (h0 : Part.ports ∉ ps := by decide) (h1 : Part.sent ∉ ps := by decide) (h2 : Part.que ∉ ps := by decide) (h3 : Part.effects ∉ ps := by decide)
    (h4 : Part.prot ∉ ps := by decide) (h6 : Part.tiers ∉ ps := by decide) (h7 : Part.pool ∉ ps := by decide) :
    s.completes i (.ports :: .sent :: .counts :: ps) as
      (fun t => t.mgr = v.mgr ∧ (∀ a f, t.fld a f = v.fld a f) ∧ t.net.tx = s.net.tx ++ [q.on p]) := by
  have hmo := State.met_only m s
  have hsv : v.sends p q.op q.h.ndata := State.sends_congr (congrArg PortS.sender (hv.port p h0)) (State.met_sends hsend)
  have ho := State.sendOn_sends hsv
  have hmc : (s.met m).calm := hmo.calm_kept hs.1 (by rw [hmo.mgr']) (by rw [hmo.mgr']) (by rw [hmo.mgr']; exact hs.1.2.2.2.2.2.2.1)
  have hvs : v.still := ⟨hv.calm_kept hmc (by rw [hcfg, hmo.mgr']) (by rw [hwait, hmo.mgr']) (by rw [hin]; exact hs.1.2.2.2.2.2.2.1) h1 h2 h4 h6 h7,
    by rw [hv.wait' h3, hmo.wait']; exact hs.2⟩
  refine State.completes_always (hc s) (by rw [hf]; exact State.sendOn_still hsv hvs) ?_ ?_
  · rw [hf]
    exact ((hmo.mono (by simp) (by simp)).trans (hv.mono (fun _ h => List.mem_cons_of_mem _ (List.mem_cons_of_mem _ (List.mem_cons_of_mem _ h))) (fun _ h => h))).trans (ho.only.mono (by simp) (by simp))
  · rw [hf]
    exact ⟨ho.only.mgr', fun _ _ => ho.only.fld _ _, ho.tx.trans (by rw [hv.tx' h1, hmo.tx'])⟩

end

/-! ### A request to a device (R167) -/

/-- The manager with one more request outstanding. -/
def MgrS.taking (t : Nat) (r : MReq) (g : MgrS) : MgrS :=
  { g with nextTag := (t + 1) % 65536, reqs := AMap.put t r g.reqs, late := g.late.filter (· != t) }

/-- The manager that has given a request to a device its tag. -/
def State.tagged (t : Nat) (r : MReq) (s : State) : State := { s with mgr := s.mgr.taking t r }

/-- The request that the manager sends to a device. -/
def State.toDevice (s : State) (op : MOp) (dev sc : Nat) (data : List Byte) (tag64 flags addr : Nat) : Msg :=
  { op := op, h := s.hdrTo dev false .switch s.reqTag (data.length / 32) sc flags, addr := addr, data := data, tag64 := tag64 }

theorem adDev_lt (a : Nat) : adDev a < 64 := Nat.mod_lt _ (by decide)

theorem State.sendReq_eq {s : State} (hm : s.isManager = true) {dev : Nat} (hd : dev < 64) (hn : dev ≠ s.num) (m : Msg) (op : MOp) (line kid sc : Nat) (prot : Bool)
    (data : List Byte) (tag64 flags addr : Nat) (p : Purpose) :
    s.sendReq m op dev line kid sc prot data tag64 flags addr p =
      (s.tagged s.reqTag { m := m, dev := dev, line := line, kid := kid, prot := prot, sc := sc, time := s.now, limit := s.reqTimeout, purpose := p }).sendOn
        (s.trunkPort dev) (s.toDevice op dev sc data tag64 flags addr) := by
  obtain ⟨u, hu⟩ : ∃ u : State, u = s.tagged s.reqTag { m := m, dev := dev, line := line, kid := kid, prot := prot, sc := sc,
                                                        time := s.now, limit := s.reqTimeout, purpose := p } := ⟨_, rfl⟩
  have hdst : (s.toDevice op dev sc data tag64 flags addr).h.dst.val = dev := Nat.mod_eq_of_lt hd
  have he : s.sendReq m op dev line kid sc prot data tag64 flags addr p = u.route none (s.toDevice op dev sc data tag64 flags addr) := by
    rw [hu]
    rfl
  have hum : u.isManager = true := by rw [hu]; exact hm
  have hun : u.num = s.num := by rw [hu]; rfl
  rw [← hu, he, State.route, if_neg (show ¬ (s.toDevice op dev sc data tag64 flags addr).h.dstHost = true from Bool.false_ne_true), hdst, hun,
    if_neg (fun h => hn h.1), if_pos hum, hu]
  rfl

theorem State.reqTag_free {s : State} (hf : AMap.find s.mgr.nextTag s.mgr.reqs = none) (hl : s.mgr.late.contains s.mgr.nextTag = false) :
    s.reqTag = s.mgr.nextTag := by
  have hu : ((AMap.find s.mgr.nextTag s.mgr.reqs).isSome || s.mgr.late.contains s.mgr.nextTag) = false := by rw [hf, hl]; rfl
  have h1 : freeTag (fun t => (AMap.find t s.mgr.reqs).isSome || s.mgr.late.contains t) (65535 + 1) s.mgr.nextTag = some s.mgr.nextTag := by
    rw [freeTag, if_neg (by rw [hu]; decide)]
  exact congrArg (Option.getD · s.mgr.nextTag) h1

theorem MgrS.taking_find (t : Nat) (r : MReq) (g : MgrS) : AMap.find t (g.taking t r).reqs = some r := AMap.find_put_self ..

theorem State.toDevice_tag (s : State) (op : MOp) (dev sc : Nat) (data : List Byte) (tag64 flags addr : Nat) :
    (s.toDevice op dev sc data tag64 flags addr).h.tag.toNat = s.reqTag % 65536 := BitVec.toNat_ofNat ..

/-! ### How a request that may go is served -/

theorem Msg.relayFlags_none {m : Msg} (h : m.eng = none) : m.relayFlags = 0 := by
  rw [Msg.relayFlags, Msg.ofRelay, h]
  rfl

section
variable {s : State} {m : Msg} (hupd : m.upd = none) (hnone : s.mgrMerge (adDev m.addr) (lineIx (adLocal m.addr)) = none)
include hupd hnone

theorem State.mgrServe_open (hp : s.mapProt (adDev m.addr) (adLocal m.addr) = false) : s.mgrServe m =
    s.sendReq m m.op (adDev m.addr) (lineIx (adLocal m.addr)) (adKey m.addr) m.h.sc.val false m.data 0 m.relayFlags m.addr .host := by
  rw [State.mgrServe, hupd]
  dsimp only
  rw [hp, if_pos (by decide), State.mgrOpen, hnone]

theorem State.mgrServe_read (hp : s.mapProt (adDev m.addr) (adLocal m.addr) = true) (hop : m.op = .rd64 ∨ m.op = .rd128) :
    s.mgrServe m = s.protRead m (adDev m.addr) (lineIx (adLocal m.addr)) (adKey m.addr) m.h.sc.val .host := by
  have h64 : m.op ≠ .wr64 := by rcases hop with h | h <;> rw [h] <;> decide
  have h128 : m.op ≠ .wr128 := by rcases hop with h | h <;> rw [h] <;> decide
  rw [State.mgrServe, hupd]
  dsimp only
  rw [hp, if_neg (by decide), if_neg h64, hnone]
  dsimp only
  rw [if_neg h128]

theorem State.mgrServe_write (hp : s.mapProt (adDev m.addr) (adLocal m.addr) = true) (hop : m.op = .wr128) :
    s.mgrServe m = s.protWrite m (adDev m.addr) (lineIx (adLocal m.addr)) (adKey m.addr) m.h.sc.val m.data m.relayFlags .host := by
  rw [State.mgrServe, hupd]
  dsimp only
  rw [hp, if_neg (by decide), if_neg (by rw [hop]; decide), hnone]
  dsimp only
  rw [if_pos hop]

/-- The merge entry that a lone half opens at the manager. -/
def State.halfEntry (s : State) (m : Msg) : MergeE := { s.mergeNew { m := m, time := s.now } with dev := adDev m.addr }

theorem State.mgrServe_half (hp : s.mapProt (adDev m.addr) (adLocal m.addr) = true) (hop : m.op = .wr64)
    (hroom : entriesUsed s.mgr.merges < Config.MERGE_ENTRIES) (hw : s.mergeWait ≠ 0) :
    s.mgrServe m = { s with mgr := { s.mgr with merges := s.mgr.merges ++ [s.halfEntry m] } } := by
  rw [State.mgrServe, hupd]
  dsimp only
  rw [hp, if_neg (by decide), if_pos hop, State.mgr64]
  dsimp only
  rw [hnone]
  dsimp only
  rw [if_pos hroom]
  exact if_neg hw

end

theorem State.halfEntry_eq (s : State) (m : Msg) : (s.halfEntry m).dev = adDev m.addr ∧ (s.halfEntry m).line = lineIx (adLocal m.addr) ∧
    (s.halfEntry m).kid = adKey m.addr ∧ (s.halfEntry m).busy = false ∧
    (s.halfEntry m).lo = (if upperHalf (adLocal m.addr) then none else some m.data) ∧
    (s.halfEntry m).hi = (if upperHalf (adLocal m.addr) then some m.data else none) := by
  unfold State.halfEntry State.mergeNew MergeE.setHalf
  split
  · exact ⟨rfl, rfl, rfl, rfl, rfl, rfl⟩
  · exact ⟨rfl, rfl, rfl, rfl, rfl, rfl⟩

/-! ### The manager with a request that has arrived -/

section
variable (m : Msg) (s : State)

/-- The manager that has taken a request in. -/
def State.hostMet : State := (s.met m).arrivedOne

theorem State.hostMet_only : s.only [.ports, .counts, .mgr] [] (s.hostMet m) :=
  (State.met_only m s).mono.trans (State.arrivedOne_only _).mono

theorem State.hostMet_mgr : (s.hostMet m).mgr = { s.mgr with arrivals := s.mgr.arrivals + 1 } := by
  rw [State.hostMet, State.arrivedOne, (State.met_only m s).mgr']

theorem State.hostMet_mapProt (d loc : Nat) : (s.hostMet m).mapProt d loc = s.mapProt d loc := by
  rw [State.mapProt, State.mapProt, State.mapEntry, State.mapEntry, (State.hostMet_only m s).prot']

theorem State.hostMet_mgrMerge (d l : Nat) : (s.hostMet m).mgrMerge d l = s.mgrMerge d l := by
  rw [State.mgrMerge, State.mgrMerge, State.hostMet_mgr]

theorem State.hostMet_trunkPort (d : Nat) : (s.hostMet m).trunkPort d = s.trunkPort d := by
  rw [State.trunkPort, State.trunkPort, (State.hostMet_only m s).ent']

theorem State.hostMet_num : (s.hostMet m).num = s.num := (State.hostMet_only m s).fld _ _

theorem State.hostMet_reqTag : (s.hostMet m).reqTag = s.reqTag := by
  rw [State.reqTag, State.reqTag, State.hostMet_mgr]

theorem State.hostMet_reqTimeout : (s.hostMet m).reqTimeout = s.reqTimeout :=
  congrArg (· * 10000) ((State.hostMet_only m s).fld _ _)

theorem State.hostMet_key (k : Nat) : (s.hostMet m).key k = s.key k := by
  rw [State.key, State.key, (State.hostMet_only m s).prot']

end

theorem State.completes.parts {s : State} {c : Instr} {ps qs : List Part} {as : List Nat} {P : State → Prop} (h : s.completes c ps as P)
    (hq : ∀ p ∈ ps, p ∈ qs) : s.completes c qs as P := by
  obtain ⟨t, he, hP, ho⟩ := h
  exact ⟨t, he, hP, ho.mono hq (fun _ h => h)⟩

theorem State.hostErr_alone {s : State} {m : Msg} (h : m.eng = none) (c : Nat) :
    s.hostErr m c = (s.bump (devSlot (64 + c)) 1).sendOn (s.bump (devSlot (64 + c)) 1).hostPort ((s.bump (devSlot (64 + c)) 1).rspMsg m .err [] c 0 0) := by
  have hr : m.ofRelay = false := by rw [Msg.ofRelay, h]; rfl
  rw [State.hostErr, State.hostRsp, hr, if_neg Bool.false_ne_true, if_neg Bool.false_ne_true]

theorem State.limitHeld_spec (n : Nat) (m : Msg) (s : State) : s.only [.mgr, .regs, .counts] [Reg.SVC_STATUS] (s.limitHeld n m) ∧
    (s.limitHeld n m).mgr.ingress = s.mgr.ingress ∧ (s.limitHeld n m).mgr.cfg = s.mgr.cfg ∧ (s.limitHeld n m).mgr.waitC = s.mgr.waitC ∧
    (m.h.sc.val < 4 → s.mgr.limited.contains n = false → (s.limitHeld n m).fld Reg.SVC_STATUS F.SVC_STATUS_HELD = 1) := by
  obtain ⟨u, hu⟩ : ∃ u : State, u = ({ s with mgr.limited := s.mgr.limited ++ [n] } : State).bump (classSlot m.h.sc.val 1) 1 := ⟨_, rfl⟩
  have hsu : s.only [.mgr, .regs, .counts] [Reg.SVC_STATUS] u := by
    rw [hu]
    exact (here.mgr _).bump ..
  have hmu : u.mgr = { s.mgr with limited := s.mgr.limited ++ [n] } := by rw [hu]; rfl
  have hl : s.limitHeld n m = if s.mgr.limited.contains n then s else if m.h.sc.val < 4 then u.raise Reg.SVC_STATUS F.SVC_STATUS_HELD else u := by
    rw [State.limitHeld, hu]
  have hr : u.only [.regs] [Reg.SVC_STATUS] (u.raise Reg.SVC_STATUS F.SVC_STATUS_HELD) := here.raise ..
  rw [hl]
  split
  · next hc => exact ⟨here, rfl, rfl, rfl, fun _ h => absurd hc (by rw [h]; decide)⟩
  · split
    · exact ⟨hsu.trans (hr.mono (by decide) (fun _ h => h)), by rw [hr.mgr', hmu], by rw [hr.mgr', hmu], by rw [hr.mgr', hmu], fun _ _ => State.fld_raise _ _ (by decide) _⟩
    · next hc => exact ⟨hsu, by rw [hmu], by rw [hmu], by rw [hmu], fun h => absurd h hc⟩

theorem State.noHint_append {s : State} {m : Msg} (hs : s.still) (hop : m.op = .rd64 ∨ m.op = .rd128 ∨ m.op = .wr64 ∨ m.op = .wr128) (n : Nat) :
    (s.mgr.ingress ++ [(n, m.ofHost)]).any (fun e => e.2.op == .hint) = false := by
  have h1 : (m.ofHost.op == .hint) = false := by
    change (m.op == .hint) = false
    rcases hop with h | h | h | h <;> rw [h] <;> rfl
  rw [List.any_append, hs.1.2.2.2.2.2.2.1, List.any_cons, h1]
  rfl

section
variable {s : State} {i : Instr} {m : Msg} (hu : s.up) (hs : s.still) (hi : messageOf i = some m) (hd : dataFits i = true)
  (hop : m.op = .rd64 ∨ m.op = .rd128 ∨ m.op = .wr64 ∨ m.op = .wr128) (hside : s.hostSide m.h.port = true) (ht : s.takes m.h.port m.op m.h.ndata)
include hu hs hi hd hop hside ht

/-- R137, R171: a request that fails a check is answered with its error. -/
theorem State.completes_hostErr {c : Nat} (hj : s.mgrJudge (waiting s.mgr.ingress) s.mgr.arrivals m.ofHost = .err c) (hsend : s.sends s.hostPort .err 0) :
    s.completes i [.ports, .sent, .counts, .mgr, .regs] [Reg.NDL_LINE_STATUS]
      (fun t => t.mgr = { s.mgr with arrivals := s.mgr.arrivals + 1 } ∧
        (c = Cause.illegalAddr ∨ c = Cause.misaligned ∨ c = Cause.outOfRange → t.fld Reg.NDL_LINE_STATUS F.NDL_LINE_STATUS_ADDR_ERR = 1) ∧
        t.net.tx = s.net.tx ++ [(s.rspMsg m.ofHost .err [] c 0 0).on s.hostPort]) := by
  obtain ⟨hc, -, heng, -⟩ := messageOf_host hi hd hop
  have heng' : m.ofHost.eng = none := heng
  have hf : s.arrive m true State.requestIn = (s.hostMet m).reject m.ofHost c := by
    rw [State.arrive_host hu ht hside, State.mgrRequest_judged (State.met_only m s), hj]
    rfl
  obtain ⟨x, hx⟩ : ∃ x, x = if c = Cause.illegalAddr ∨ c = Cause.misaligned ∨ c = Cause.outOfRange then
      (s.hostMet m).raise Reg.NDL_LINE_STATUS F.NDL_LINE_STATUS_ADDR_ERR else s.hostMet m := ⟨_, rfl⟩
  have hxo : (s.hostMet m).only [.regs] [Reg.NDL_LINE_STATUS] x := by
    rw [hx]
    split
    · exact here.raise ..
    · exact here
  obtain ⟨v, hv⟩ : ∃ v, v = x.bump (devSlot (64 + c)) 1 := ⟨_, rfl⟩
  have hvo : (s.hostMet m).only [.regs, .counts] [Reg.NDL_LINE_STATUS] v := by
    rw [hv]
    exact hxo.mono.bump ..
  have hmv : (s.met m).only [.mgr, .regs, .counts] [Reg.NDL_LINE_STATUS] v :=
    ((State.arrivedOne_only _).mono (by decide) (by simp)).trans (hvo.mono (by decide) (fun _ h => h))
  have hmgr : v.mgr = { s.mgr with arrivals := s.mgr.arrivals + 1 } := hvo.mgr'.trans (State.hostMet_mgr m s)
  have hport : v.hostPort = s.hostPort := (State.hostPort_congr fun p => hmv.port p).trans (State.met_hostPort m s)
  have hnum : v.num = s.num := (hvo.fld Reg.IDENT_DEVNUM _ (by decide)).trans (State.hostMet_num m s)
  have hmsg : v.rspMsg m.ofHost .err [] c 0 0 = s.rspMsg m.ofHost .err [] c 0 0 := by rw [State.rspMsg, State.rspMsg, State.hdrTo, State.hdrTo, hnum]
  have hf' : s.arrive m true State.requestIn = v.sendOn s.hostPort (s.rspMsg m.ofHost .err [] c 0 0) := by
    rw [hf, State.reject, ← hx, State.hostErr_alone heng', ← hv, hport, hmsg]
  refine ((State.completes_hostSent hs hmv hc (by rw [hmgr]) (by rw [hmgr]) hf' hsend (by rw [hmgr])).parts (by decide)).imp ?_
  rintro t ⟨h1, h2, h3⟩
  refine ⟨h1.trans hmgr, fun hcase => ?_, h3⟩
  rw [h2, hv, State.fld_bump, hx, if_pos hcase]
  exact State.fld_raise _ _ (by decide) _

/-- R167: a request that may go leaves for the device that owns its line, under an internal tag. -/
theorem State.completes_hostRequest (hj : s.mgrJudge (waiting s.mgr.ingress) s.mgr.arrivals m.ofHost = .go) (hn : adDev m.addr ≠ s.num)
    {op : MOp} {l kid tag64 flags addr : Nat} {prot : Bool} {data : List Byte} (hserve : (s.hostMet m).mgrServe m.ofHost =
      (s.hostMet m).sendReq m.ofHost op (adDev m.addr) l kid m.h.sc.val prot data tag64 flags addr .host)
    (hsend : s.sends (s.trunkPort (adDev m.addr)) op (data.length / 32)) :
    s.completes i [.ports, .sent, .counts, .mgr] []
      (fun t => AMap.find s.reqTag t.mgr.reqs = some { m := m.ofHost, dev := adDev m.addr, line := l, kid := kid, prot := prot, sc := m.h.sc.val, time := s.now,
                                                       limit := s.reqTimeout, purpose := .host } ∧
        ∃ q : Msg, t.net.tx = s.net.tx ++ [(s.trunkPort (adDev m.addr), q)] ∧ q.op = op ∧ q.h.tag.toNat = s.reqTag % 65536 ∧ q.addr = addr ∧
          q.data = data ∧ q.tag64 = tag64) := by
  obtain ⟨hc, -, -, -⟩ := messageOf_host hi hd hop
  have ho := State.hostMet_only m s
  have hm : (s.hostMet m).isManager = true := ho.isManager.trans (by simp only [State.hostSide, Bool.and_eq_true] at hside; exact hside.1)
  obtain ⟨r, hr⟩ : ∃ r : MReq, r = { m := m.ofHost, dev := adDev m.addr, line := l, kid := kid, prot := prot, sc := m.h.sc.val, time := s.now,
                                     limit := s.reqTimeout, purpose := .host } := ⟨_, rfl⟩
  obtain ⟨q, hq⟩ : ∃ q, q = (s.hostMet m).toDevice op (adDev m.addr) m.h.sc.val data tag64 flags addr := ⟨_, rfl⟩
  obtain ⟨v, hv⟩ : ∃ v, v = (s.hostMet m).tagged s.reqTag r := ⟨_, rfl⟩
  have hvo : (s.met m).only [.mgr] [] v := by
    rw [hv]
    exact (State.arrivedOne_only _).mgr _
  have hmgr : v.mgr = ({ s.mgr with arrivals := s.mgr.arrivals + 1 } : MgrS).taking s.reqTag r := by
    rw [hv, ← State.hostMet_mgr m]
    rfl
  have hf : s.arrive m true State.requestIn = v.sendOn (s.trunkPort (adDev m.addr)) q := by
    rw [State.arrive_host hu ht hside, State.mgrRequest_judged (State.met_only m s), hj]
    change (s.hostMet m).mgrServe m.ofHost = _
    rw [hserve, State.sendReq_eq hm (adDev_lt _) (by rw [State.hostMet_num]; exact hn), State.hostMet_trunkPort, State.hostMet_reqTag, ho.now',
      State.hostMet_reqTimeout, ← hr, ← hv, ← hq]
  have hsend' : s.sends (s.trunkPort (adDev m.addr)) q.op q.h.ndata := by rw [hq]; exact hsend
  refine (State.completes_hostSent hs hvo hc (by rw [hmgr]; rfl) (by rw [hmgr]; rfl) hf hsend' (by rw [hmgr]; rfl)).imp ?_
  rintro t ⟨h1, -, h3⟩
  refine ⟨?_, _, h3, ?_⟩
  · rw [h1, hmgr, MgrS.taking_find, hr]
  · have htag : ((s.hostMet m).toDevice op (adDev m.addr) m.h.sc.val data tag64 flags addr).h.tag.toNat = s.reqTag % 65536 := by
      rw [State.toDevice_tag, State.hostMet_reqTag]
    rw [hq]
    exact ⟨rfl, htag, rfl, rfl, rfl⟩

/-- R108, R270: a request that may not go yet waits at the ingress. -/
theorem State.completes_hostHeld (hj : s.mgrJudge (waiting s.mgr.ingress) s.mgr.arrivals m.ofHost = .hold) :
    s.completes i [.ports, .counts, .mgr, .regs] [Reg.NDL_PATH_STATUS]
      (fun t => t.mgr = { s.mgr with arrivals := s.mgr.arrivals + 1, ingress := s.mgr.ingress ++ [(s.mgr.arrivals, m.ofHost)] } ∧ t.net.tx = s.net.tx) := by
  obtain ⟨hc, -, -, -⟩ := messageOf_host hi hd hop
  obtain ⟨x, hx⟩ : ∃ x : State, x = { s.hostMet m with mgr := { (s.hostMet m).mgr with ingress := s.mgr.ingress ++ [(s.mgr.arrivals, m.ofHost)] } } := ⟨_, rfl⟩
  obtain ⟨v, hv⟩ : ∃ v, v = when ((s.hostMet m).resurveyed m.ofHost) (State.exclude m.h.sc.val) x := ⟨_, rfl⟩
  have hxm : (s.met m).only [.mgr] [] x := by
    rw [hx]
    exact (State.arrivedOne_only _).mgr _
  have hxv : x.only [.regs] [Reg.NDL_PATH_STATUS] v := by
    rw [hv]
    cases (s.hostMet m).resurveyed m.ofHost
    · exact here
    · exact State.exclude_only ..
  have hmgr : v.mgr = { s.mgr with arrivals := s.mgr.arrivals + 1, ingress := s.mgr.ingress ++ [(s.mgr.arrivals, m.ofHost)] } := by
    rw [hxv.mgr', hx, State.hostMet_mgr]
  have hf : s.arrive m true State.requestIn = v := by
    rw [State.arrive_host hu ht hside, State.mgrRequest_judged (State.met_only m s), hj, hv, hx]
    rfl
  have hh : v.mgr.ingress.any (fun e => e.2.op == .hint) = false := by
    rw [hmgr]
    exact State.noHint_append hs hop _
  refine ((State.completes_hostKept hs ((hxm.mono (by decide) (by simp)).trans (hxv.mono (by decide) (fun _ h => h)) (ps := [.mgr, .regs])) hc (by rw [hmgr]) (by rw [hmgr])
    hf hh)).imp ?_
  rintro t ⟨h1, -, h3⟩
  exact ⟨h1.trans hmgr, h3⟩

/-- R184: a request whose class is at its limit waits at the ingress, with HELD for a firm one. -/
theorem State.completes_hostLimited (hj : s.mgrJudge (waiting s.mgr.ingress) s.mgr.arrivals m.ofHost = .limit) :
    s.completes i [.ports, .counts, .mgr, .regs] [Reg.SVC_STATUS]
      (fun t => t.mgr.ingress = s.mgr.ingress ++ [(s.mgr.arrivals, m.ofHost)] ∧ t.net.tx = s.net.tx ∧
        (m.h.sc.val < 4 → s.mgr.limited.contains s.mgr.arrivals = false → t.fld Reg.SVC_STATUS F.SVC_STATUS_HELD = 1)) := by
  obtain ⟨hc, -, -, -⟩ := messageOf_host hi hd hop
  obtain ⟨x, hx⟩ : ∃ x : State, x = { s.hostMet m with mgr := { (s.hostMet m).mgr with ingress := s.mgr.ingress ++ [(s.mgr.arrivals, m.ofHost)] } } := ⟨_, rfl⟩
  have hxm : (s.met m).only [.mgr] [] x := by
    rw [hx]
    exact (State.arrivedOne_only _).mgr _
  have hmgr : x.mgr = { s.mgr with arrivals := s.mgr.arrivals + 1, ingress := s.mgr.ingress ++ [(s.mgr.arrivals, m.ofHost)] } := by
    rw [hx, State.hostMet_mgr]
  have hf : s.arrive m true State.requestIn = x.limitHeld s.mgr.arrivals m.ofHost := by
    rw [State.arrive_host hu ht hside, State.mgrRequest_judged (State.met_only m s), hj, hx]
    rfl
  obtain ⟨hl, hin, hcfg, hwait, hheld⟩ := State.limitHeld_spec s.mgr.arrivals m.ofHost x
  have hh : (x.limitHeld s.mgr.arrivals m.ofHost).mgr.ingress.any (fun e => e.2.op == .hint) = false := by
    rw [hin, hmgr]
    exact State.noHint_append hs hop _
  refine ((State.completes_hostKept hs ((hxm.mono (by decide) (by simp)).trans hl) hc (by rw [hcfg, hmgr]) (by rw [hwait, hmgr]) hf hh).parts (by decide)).imp ?_
  rintro t ⟨h1, h2, h3⟩
  refine ⟨by rw [h1, hin, hmgr], h3, fun hsc hlim => ?_⟩
  rw [h2]
  exact hheld hsc (by rw [hmgr]; exact hlim)

/-- R151, R154: half of a protected line waits for the other half in a merge entry. -/
theorem State.completes_hostHalf (hj : s.mgrJudge (waiting s.mgr.ingress) s.mgr.arrivals m.ofHost = .go)
    (hp : s.mapProt (adDev m.addr) (adLocal m.addr) = true) (hnone : s.mgrMerge (adDev m.addr) (lineIx (adLocal m.addr)) = none) (h64 : m.op = .wr64)
    (hroom : entriesUsed s.mgr.merges < Config.MERGE_ENTRIES) (hw : s.mergeWait ≠ 0) :
    s.completes i [.ports, .counts, .mgr] []
      (fun t => ∃ e : MergeE, t.mgr.merges = s.mgr.merges ++ [e] ∧ e.dev = adDev m.addr ∧ e.line = lineIx (adLocal m.addr) ∧ e.kid = adKey m.addr ∧
        e.busy = false ∧ e.lo = (if upperHalf (adLocal m.addr) then none else some m.data) ∧
        e.hi = (if upperHalf (adLocal m.addr) then some m.data else none) ∧ t.net.tx = s.net.tx) := by
  obtain ⟨hc, hupd, -, -⟩ := messageOf_host hi hd hop
  have ho := State.hostMet_only m s
  obtain ⟨v, hv⟩ : ∃ v : State, v = { s.hostMet m with mgr := { (s.hostMet m).mgr with merges := (s.hostMet m).mgr.merges ++ [(s.hostMet m).halfEntry m.ofHost] } } :=
    ⟨_, rfl⟩
  have hvm : (s.met m).only [.mgr] [] v := by
    rw [hv]
    exact (State.arrivedOne_only _).mgr _
  have hmgr : v.mgr = { s.mgr with arrivals := s.mgr.arrivals + 1, merges := s.mgr.merges ++ [(s.hostMet m).halfEntry m.ofHost] } := by
    rw [hv, State.hostMet_mgr]
  have hf : s.arrive m true State.requestIn = v := by
    rw [State.arrive_host hu ht hside, State.mgrRequest_judged (State.met_only m s), hj]
    change (s.hostMet m).mgrServe m.ofHost = _
    rw [State.mgrServe_half (m := m.ofHost) hupd ((State.hostMet_mgrMerge ..).trans hnone) ((State.hostMet_mapProt ..).trans hp) h64
      (by rw [State.hostMet_mgr]; exact hroom) (by rw [State.mergeWait, ho.fld _ _]; exact hw), hv]
  refine (State.completes_hostKept hs hvm hc (by rw [hmgr]) (by rw [hmgr]) hf (by rw [hmgr]; exact hs.1.2.2.2.2.2.2.1)).imp ?_
  rintro t ⟨h1, -, h3⟩
  obtain ⟨e1, e2, e3, e4, e5, e6⟩ := State.halfEntry_eq (s.hostMet m) m.ofHost
  exact ⟨_, by rw [h1, hmgr], e1, e2, e3, e4, e5, e6, h3⟩

end

/-- Settles O26: the manager judges a request of the host, and then answers it, forwards it, seals it, merges it or keeps it. -/
theorem hostRequests : Obligations.HostRequests := by
  rintro s p i m m' d loc kid hu hs hi hd hop rfl hside ht hm' rfl rfl rfl
  have hm'' : m' = m.ofHost := hm'
  subst hm''
  obtain ⟨-, hupd, heng, hlen⟩ := messageOf_host hi hd hop
  have hfl : m.ofHost.relayFlags = 0 := Msg.relayFlags_none heng
  refine ⟨fun c hj hsend => State.completes_hostErr hu hs hi hd hop hside ht hj hsend, ?_, ?_, ?_, fun hj => State.completes_hostHeld hu hs hi hd hop hside ht hj,
    fun hj => State.completes_hostLimited hu hs hi hd hop hside ht hj,
    fun hj _ hp hnone h64 hroom hw => State.completes_hostHalf hu hs hi hd hop hside ht hj hp hnone h64 hroom hw⟩
  · intro hj hn hp hnone hfree hlate hsend
    refine (State.completes_hostRequest hu hs hi hd hop hside ht hj hn
      (State.mgrServe_open (m := m.ofHost) hupd ((State.hostMet_mgrMerge ..).trans hnone) ((State.hostMet_mapProt ..).trans hp)) hsend).imp ?_
    rw [State.reqTag_free hfree hlate]
    rintro t ⟨h1, q, htx, hq, htag, ha, hda, -⟩
    exact ⟨h1, q, htx, hq, htag, ha, hda⟩
  · intro hj hn hp hnone hrd hfree hlate hsend
    refine (State.completes_hostRequest hu hs hi hd hop hside ht hj hn
      (State.mgrServe_read (m := m.ofHost) hupd ((State.hostMet_mgrMerge ..).trans hnone) ((State.hostMet_mapProt ..).trans hp) hrd) hsend).imp ?_
    rw [State.reqTag_free hfree hlate]
    rintro t ⟨h1, q, htx, hq, -, ha, hda, -⟩
    exact ⟨h1, q, htx, hq, ha, hda⟩
  · intro hj hn hp hnone hwr hsend
    have hserve := State.mgrServe_write (s := s.hostMet m) (m := m.ofHost) hupd ((State.hostMet_mgrMerge ..).trans hnone) ((State.hostMet_mapProt ..).trans hp) hwr
    rw [hfl, State.protWrite, if_neg (by decide), State.hostMet_key] at hserve
    refine (State.completes_hostRequest hu hs hi hd hop hside ht hj hn hserve (by rw [length_lineEncrypt]; exact hsend)).imp ?_
    rintro t ⟨-, q, htx, hq, -, ha, hda, htag⟩
    refine ⟨q, htx, hq, ha, hda, ?_⟩
    rw [htag, hda]
    rfl

end Sys2Proof.Machine
end

section
/-! PROOFS. What shards report to the manager, and the close of an epoch (R243, R248, R249, R252). -/

set_option Elab.async false

namespace Sys2Proof.Machine
open Sys2Proof
open State.only (here)

/-! ### Maps -/

theorem AMap.put_single {α : Type} (k : Nat) (x y : α) : AMap.put k y [(k, x)] = [(k, y)] := by simp [AMap.put]

theorem AMap.put_put {α : Type} (k : Nat) (x y : α) (m : AMap α) : AMap.put k y (AMap.put k x m) = AMap.put k y m := by
  induction m with
  | nil => exact AMap.put_single ..
  | cons e r ih =>
    obtain ⟨j, v⟩ := e
    by_cases h1 : k < j
    · simp [AMap.put, h1]
    · by_cases h2 : k = j
      · simp [AMap.put, h2]
      · simp [AMap.put, h1, h2, ih]

/-- What stands in a map after two changes of one key is the second. -/
theorem AMap.set_set {α : Type} [DecidableEq α] {k : Nat} {d x y : α} (m : AMap α) (hx : x ≠ d) (hy : y ≠ d) :
    AMap.set k d y (AMap.set k d x m) = AMap.set k d y m := by
  rw [AMap.set, if_neg hy, AMap.set, if_neg hx, AMap.put_put, AMap.set, if_neg hy]

/-! ### Quiet tables of descriptors -/

/-- Where nothing goes on, nothing does after the tables of the queues have changed to some from which nothing moves on. -/
theorem State.only.calm_queues {s t : State} {ps : List Part} {as : List Nat} (h : s.only ps as t) (hs : s.calm)
    (hj : t.que.job = s.que.job) (hd : t.que.descs.any DescS.due = false) (hg : t.groupBusy = false)
    (h1 : Part.sent ∉ ps := by decide) (h2 : Part.mgr ∉ ps := by decide)
    (h4 : Part.prot ∉ ps := by decide) (h6 : Part.tiers ∉ ps := by decide) (h7 : Part.pool ∉ ps := by decide) : t.calm := by
  have he : t.engBusy = s.engBusy := by
    have : t.engTurns = s.engTurns := funext (fun k => by simp only [State.engTurns, h.tier k h6])
    rw [State.engBusy, State.engBusy, this]
  simp only [State.calm, State.copyBusy, h.inbox' h1, h.mgr' h2, hj, hd, hg, he, h.prot' h4, h.pool' h7] at hs ⊢
  obtain ⟨h1, h2, h3, h5, -, -, h9, h10, h11, h12⟩ := hs
  exact ⟨h1, h2, h3, h5, trivial, trivial, h9, h10, h11, h12⟩

/-! ### A record (R215 to R217) -/

/-- The record that a descriptor's end leaves, where none waits for its ring. -/
def State.newRec (s : State) (d : DescS) (code value : Nat) : RecS :=
  { n := cCqTail (s.ctx (s.ringOf d.q)) % 2 ^ 32, q := d.q
    word := d.q + ((1 - cCqTail (s.ctx (s.ringOf d.q)) % 2 ^ 32 / 2 ^ cCqLog2 (s.ctx (s.ringOf d.q)) % 2) * 2 ^ 15 + code) * 2 ^ 16 + dSeq d.words * 2 ^ 32 +
      value % 2 ^ 32 * 2 ^ 64 + dCtag d.words * 2 ^ 96 }

/-- The tables of the queues after a descriptor's end. -/
def State.endedQue (s : State) (d : DescS) (code value : Nat) : QueS :=
  { s.que with descs := s.que.descs.filter (fun x => !(x.q == d.q && x.i == d.i)),
               cqs := AMap.put (s.ringOf d.q) { AMap.get (s.ringOf d.q) ({} : CqS) s.que.cqs with recs := [s.newRec d code value] } s.que.cqs }

theorem State.countEnd_only (op code : Nat) (s : State) : s.only [.counts] [] (s.countEnd op code) := by
  unfold State.countEnd
  split
  · exact (here.bump ..).bump ..
  · exact here.bump ..

/-- A descriptor whose ring is free ends with its record. -/
theorem State.record_free {s : State} {d : DescS} (hq : dQuiet d.words = false) (hr : s.ringFree d.q) (code value : Nat) :
    s.only [.que, .counts] [] (s.record d code value none false) ∧ (s.record d code value none false).que = s.endedQue d code value := by
  obtain ⟨u, hu⟩ : ∃ u, u = (s.dropDesc d.q d.i).countEnd (dOpc d.words) code := ⟨_, rfl⟩
  have huo : (s.dropDesc d.q d.i).only [.counts] [] u := by rw [hu]; exact State.countEnd_only ..
  have hsu : s.only [.que, .counts] [] u := ((here.que _ : s.only [.que] [] (s.dropDesc d.q d.i)).mono).trans huo.mono
  have huq : u.que = { s.que with descs := s.que.descs.filter (fun x => !(x.q == d.q && x.i == d.i)) } := huo.que'
  have hbad : u.ringBad (s.ringOf d.q) = false := by
    rw [State.ringBad, huq]
    exact hr.1
  have hctx (k : Nat) : u.ctx k = s.ctx k := by rw [State.ctx, huq]; rfl
  have hrecs : (AMap.get (s.ringOf d.q) ({} : CqS) u.que.cqs).recs = [] := by rw [huq]; exact hr.2
  obtain ⟨v, hv⟩ : ∃ v : State, v = { u with que := s.endedQue d code value } := ⟨_, rfl⟩
  have he : s.record d code value none false = v := by
    rw [State.record, ← hu]
    dsimp only
    rw [if_neg (by rw [hq, hbad]; simp), hrecs, hctx, if_neg (by simp [CqS.granule]), hv, State.endedQue, State.newRec, huq]
    rfl
  rw [he, hv]
  exact ⟨hsu.que _, rfl⟩

theorem State.recorded_of {s t : State} {d : DescS} {code value : Nat} (h : t.que = s.endedQue d code value) : s.recorded d code value t := by
  rw [State.recorded, h]
  exact ⟨rfl, s.newRec d code value, congrArg CqS.recs (AMap.get_put_self ..), rfl, rfl, rfl⟩

/-! ### Messages of the engines at the manager -/

/-- An engine message for this device. -/
theorem State.arrive_eng {s : State} {m : Msg} (hu : s.up) (ht : s.takes m.h.port m.op m.h.ndata) (hmine : s.mine m.h = true) :
    s.arrive m true State.engArrive = (s.met m).engIn m := by
  have hmo := State.met_only m s
  have hm : (s.met m).mine m.h = true := by
    rw [State.mine, State.numValid, State.num, hmo.fld _ _, hmo.fld _ _, hmo.isManager]
    exact hmine
  rw [State.arrive_takes hu ht, State.engArrive, if_pos hm]

/-- An engine message for this device changes what its agent changes. -/
theorem State.completes_eng {s : State} {i : Instr} {m : Msg} {ps : List Part} {as : List Nat} (hu : s.up)
    (hc : exec i s = always (State.arrive m true State.engArrive) s) (ht : s.takes m.h.port m.op m.h.ndata) (hmine : s.mine m.h = true)
    (hstill : ((s.met m).engIn m).still) (hv : (s.met m).only ps as ((s.met m).engIn m)) :
    s.completes i (.ports :: .counts :: ps) as (fun t => t.que = ((s.met m).engIn m).que ∧ ∀ a f, t.fld a f = ((s.met m).engIn m).fld a f) := by
  have hf := State.arrive_eng hu ht hmine
  refine State.completes_always hc (by rw [hf]; exact hstill) ?_ ?_
  · rw [hf]
    exact ((State.met_only m s).mono (by simp) (by simp)).trans (hv.mono (fun _ h => List.mem_cons_of_mem _ (List.mem_cons_of_mem _ h)) (fun _ h => h))
  · rw [hf]
    exact ⟨rfl, fun _ _ => rfl⟩

theorem State.engDesc_one {s : State} {g : EngHdr} {d : DescS} {x : ShardM} (hd : s.que.descs = [d]) (hrun : d.stage = .running) (hq : d.q = g.queue)
    (hw : dSeq d.words = g.dseq.toNat) (hs : d.shards = [(g.index, x)]) : s.engDesc g = some (d, x) := by
  have hf : s.que.descs.find? (fun d => d.q == g.queue && dSeq d.words == g.dseq.toNat && d.stage == .running) = some d := by
    rw [hd, List.find?_cons_of_pos]
    rw [hq, hw, hrun]
    simp
  rw [State.engDesc, hf]
  dsimp only
  rw [hs, AMap.find_single]
  rfl

theorem State.putDesc_one {s : State} {d e : DescS} (hd : s.que.descs = [d]) (hq : e.q = d.q) (hi : e.i = d.i) :
    s.putDesc e = { s with que := { s.que with descs := [e] } } := by
  rw [State.putDesc, hd, List.map_cons, hq, hi, if_pos (by simp)]
  rfl

/-- The manager notes a result of an older placement (R252). -/
theorem State.staleResult_notes (k : Nat) (s : State) : s.only [.regs, .counts] [Reg.ENG_STATUS] (s.staleResult k) ∧
    (s.staleResult k).fld Reg.ENG_STATUS F.ENG_STATUS_STALE_RESULT = 1 := by
  rw [State.staleResult]
  refine ⟨(here.raise ..).bump .., ?_⟩
  rw [State.fld_bump]
  exact State.fld_raise _ _ (by decide) _

section
variable {s : State} {h : Hdr} {g : EngHdr} {d : DescS} {x : ShardM} (hu : s.up) (hs : s.still) (hmine : s.mine h = true)
  (hd : s.que.descs = [d]) (hrun : d.stage = .running) (hq : d.q = g.queue) (hw : dSeq d.words = g.dseq.toNat) (hsh : d.shards = [(g.index, x)])
  (hnd : x.done = false)
include hu hs hmine hd hrun hq hw hsh hnd

/-- R252: a message of an older placement is discarded with STALE_RESULT. -/
theorem State.completes_staleResult {i : Instr} {m : Msg} (hh : m.h = h) (hg : m.eng = some g) (hop : m.op = .part ∨ m.op = .shardDone)
    (hc : exec i s = always (State.arrive m true State.engArrive) s) (ht : s.takes h.port m.op h.ndata) (hlt : g.epoch < x.epoch) :
    s.completes i [.ports, .counts, .regs] [Reg.ENG_STATUS] (fun t => t.fld Reg.ENG_STATUS F.ENG_STATUS_STALE_RESULT = 1 ∧ t.que = s.que) := by
  subst hh
  have hmo := State.met_only m s
  have hde : (s.met m).engDesc g = some (d, x) := State.engDesc_one (by rw [hmo.que', hd]) hrun hq hw hsh
  have hin : (s.met m).engIn m = (s.met m).staleResult x.tier := by
    rw [State.engIn, hg]
    rcases hop with ho | ho <;> rw [ho]
    · change (s.met m).partArrive g m.data = _
      rw [State.partArrive, hde]
      dsimp only
      rw [hnd, if_neg Bool.false_ne_true, if_pos hlt]
    · change (s.met m).shardDoneArrive g _ _ = _
      rw [State.shardDoneArrive, hde]
      dsimp only
      rw [hnd, if_neg Bool.false_ne_true, if_pos hlt]
  obtain ⟨hso, hsf⟩ := State.staleResult_notes x.tier (s.met m)
  refine ((State.completes_eng hu hc ht hmine (by rw [hin]; exact hso.still (hmo.still hs)) (by rw [hin]; exact hso)).parts (by decide)).imp ?_
  rintro t ⟨h1, h2⟩
  exact ⟨by rw [h2, hin, hsf], by rw [h1, hin, hso.que', hmo.que']⟩

/-- R243: a part of a shard's partial is kept. -/
theorem State.completes_part (hph : d.phaseB = .none) (last : Bool) (data : List Byte) (ht : s.takes h.port .part h.ndata) (hlen : data.length ≤ 32 * h.ndata)
    (he : g.epoch = x.epoch) : s.completes (.partialMsg h g last data) [.ports, .counts, .que] []
      (fun t => t.que = { s.que with descs := [{ d with shards := [(g.index, { x with parts := AMap.put g.part data x.parts })] }] }) := by
  obtain ⟨m, hm⟩ : ∃ m : Msg, m = { op := .part, h := h, eng := some g, words := [data.length, b2n last], data := data } := ⟨_, rfl⟩
  have hc : exec (.partialMsg h g last data) s = always (State.arrive m true State.engArrive) s := by
    have : exec (.partialMsg h g last data) s = always (State.arrive m (decide (data.length ≤ 32 * h.ndata)) State.engArrive) s := by rw [hm]; rfl
    rw [this, decide_eq_true hlen]
  have hmo := State.met_only m s
  obtain ⟨e, hee⟩ : ∃ e : DescS, e = { d with shards := [(g.index, { x with parts := AMap.put g.part data x.parts })] } := ⟨_, rfl⟩
  have hin : (s.met m).engIn m = ({ s.met m with que := { s.que with descs := [e] } } : State).bump (mgrSlot 61) 1 := by
    have h1 : (s.met m).engIn m = (s.met m).partArrive g data := by rw [hm]; rfl
    have h2 : AMap.put g.index { x with epoch := g.epoch, parts := AMap.put g.part data x.parts } d.shards = e.shards := by
      rw [hsh, AMap.put_single, hee, he]
    have h3 : ({ d with shards := e.shards } : DescS) = e := by rw [hee]
    rw [h1, State.partArrive, State.engDesc_one (by rw [hmo.que', hd]) hrun hq hw hsh]
    dsimp only
    rw [if_neg (by rw [hnd]; decide), if_neg (by omega), if_neg (by omega), h2, h3, State.putDesc_one (d := d) (by rw [hmo.que', hd]) (by rw [hee]) (by rw [hee]), hmo.que']
  have hv : (s.met m).only [.que, .counts] [] ((s.met m).engIn m) := by
    rw [hin]
    exact (here.que _).bump ..
  have hque : ((s.met m).engIn m).que = { s.que with descs := [e] } := by rw [hin]; rfl
  have hcalm : ((s.met m).engIn m).calm := by
    refine hv.calm_queues (hmo.still hs).1 (by rw [hque, hmo.que']) ?_ (by rw [State.groupBusy, hque]; exact hs.1.2.2.2.2.2.1)
    rw [hque, List.any_cons, DescS.due, DescS.reported, hee]
    simp [hph, hnd]
  refine ((State.completes_eng hu hc (by rw [hm]; exact ht) (by rw [hm]; exact hmine) ⟨hcalm, by rw [hv.wait', hmo.wait']; exact hs.2⟩ hv).parts (by decide)).imp ?_
  rintro t ⟨h1, -⟩
  rw [h1, hque, hee]

/-- R243: the report of a descriptor's last shard ends the descriptor. -/
theorem State.completes_lastReport (lines firstFail swaps : Word) (ht : s.takes h.port .shardDone h.ndata) (he : g.epoch = x.epoch)
    (h9 : dOpc d.words ≠ 9) (h45 : dOpc d.words ≠ 0x45) (hres : resultGranule d.words = none) (hqu : dQuiet d.words = false) (hr : s.ringFree d.q) :
    s.completes (.shardDone h g lines firstFail swaps) [.ports, .counts, .que] []
      (fun t => s.recorded d g.status.toNat (if g.status = 0 then
        ({ d with shards := [(g.index, { x with done := true, fail := 0, failRec := firstFail.toNat, swaps := swaps.toNat })] } : DescS).outcome.1 else 0) t) := by
  obtain ⟨m, hm⟩ : ∃ m : Msg, m = { op := .shardDone, h := h, eng := some g, words := [lines.toNat, firstFail.toNat, swaps.toNat] } := ⟨_, rfl⟩
  have hc : exec (.shardDone h g lines firstFail swaps) s = always (State.arrive m true State.engArrive) s := by rw [hm]; rfl
  have hmo := State.met_only m s
  obtain ⟨e, hee⟩ : ∃ e : DescS, e = { d with shards := [(g.index, { x with done := true, fail := g.status.toNat, failRec := firstFail.toNat, swaps := swaps.toNat })] } :=
    ⟨_, rfl⟩
  obtain ⟨c, hce⟩ : ∃ c : Nat, c = g.status.toNat := ⟨_, rfl⟩
  obtain ⟨v, hve⟩ : ∃ v : Nat, v = if c = 0 then e.outcome.1 else 0 := ⟨_, rfl⟩
  obtain ⟨u, hue⟩ : ∃ u : State, u = { s.met m with que := { s.que with descs := [e] } } := ⟨_, rfl⟩
  have huo : (s.met m).only [.que] [] u := by rw [hue]; exact here.que _
  have huq : u.que = { s.que with descs := [e] } := by rw [hue]
  have hew : e.words = d.words := by rw [hee]
  have heq : e.q = d.q := by rw [hee]
  have hei : e.i = d.i := by rw [hee]
  have hfree : u.ringFree e.q := by
    rw [heq, State.ringFree, State.ringBad, State.ringOf, State.ctx, huq]
    exact hr
  obtain ⟨hro, hrq⟩ := State.record_free (d := e) (by rw [hew]; exact hqu) hfree c v
  have hin : (s.met m).engIn m = u.record e c v none false := by
    have h1 : (s.met m).engIn m = (s.met m).shardDoneArrive g firstFail.toNat swaps.toNat := by rw [hm]; rfl
    have h2 : AMap.put g.index { x with epoch := g.epoch, done := true, fail := g.status.toNat, failRec := firstFail.toNat, swaps := swaps.toNat } d.shards = e.shards := by
      rw [hsh, AMap.put_single, hee, he]
    have h3 : (s.met m).shardDoneArrive g firstFail.toNat swaps.toNat = (u.shardsDone e).sendShards := by
      rw [State.shardDoneArrive, State.engDesc_one (by rw [hmo.que', hd]) hrun hq hw hsh]
      dsimp only
      rw [if_neg (by rw [hnd]; decide), if_neg (by omega), State.shardEnd]
      dsimp only
      rw [h2, show ({ d with shards := e.shards } : DescS) = e by rw [hee], State.putDesc_one (d := d) (by rw [hmo.que', hd]) heq hei, hmo.que', hue]
    have h4 : u.shardsDone e = u.record e c v none false := by
      have hcode : e.shardCode = c := by
        rw [DescS.shardCode, hew, if_neg h9, hee, hce]
        simp [minCode]
      rw [State.shardsDone, if_pos (by rw [hee]; rfl), hew, if_neg h9, State.engEnd]
      dsimp only
      rw [hew, if_neg h45, State.descEnd, hew, hres, hcode, hve]
    have h5 : (u.record e c v none false).sendShards = u.record e c v none false := by
      have : (u.record e c v none false).que.descs = [] := by
        rw [hrq, State.endedQue, huq]
        simp
      rw [State.sendShards, this]
      rfl
    rw [h1, h3, h4, h5]
  have hv : (s.met m).only [.que, .counts] [] ((s.met m).engIn m) := by
    rw [hin]
    exact huo.mono.trans hro
  have hque : ((s.met m).engIn m).que = u.endedQue e c v := by rw [hin, hrq]
  have hcalm : ((s.met m).engIn m).calm := by
    refine hv.calm_queues (hmo.still hs).1 ?_ ?_ ?_
    · rw [hque, hmo.que', State.endedQue, huq]
    · rw [hque, State.endedQue, huq]
      simp
    · rw [State.groupBusy, hque, State.endedQue, huq]
      exact hs.1.2.2.2.2.2.1
  refine ((State.completes_eng hu hc (by rw [hm]; exact ht) (by rw [hm]; exact hmine) ⟨hcalm, by rw [hv.wait', hmo.wait']; exact hs.2⟩ hv).parts (by decide)).imp ?_
  rintro t ⟨h1, -⟩
  have hval : (if g.status = 0 then ({ d with shards := [(g.index, { x with done := true, fail := 0, failRec := firstFail.toNat, swaps := swaps.toNat })] } : DescS).outcome.1
      else 0) = v := by
    rw [hve, hce, hee]
    by_cases h0 : g.status = 0
    · rw [if_pos h0, h0]
      rfl
    · rw [if_neg h0, if_neg fun hz : g.status.toNat = 0 => h0 (BitVec.eq_of_toNat_eq hz)]
  rw [hval, ← hce]
  refine State.recorded_of ?_
  rw [h1, hque, State.endedQue, State.endedQue, State.newRec, State.newRec, State.ringOf, State.ctx, State.ctx, huq, hd, heq, hei, hew]
  simp [heq, hei, State.ringOf, State.ctx]

end

/-! ### The close of an epoch (R248, R249) -/

/-- A group whose epoch closes. -/
def State.closing (g : Nat) (s : State) : State :=
  { s with que := { s.que with groups := AMap.set g {} { AMap.get g ({} : GroupS) s.que.groups with closing := true } s.que.groups } }

section
variable {s : State} {g : Nat} {d : DescS} (hd : s.que.descs = [d]) (hm : s.members g = [d.q]) (hend : s.isEpochEnd d = true)
  (hcl : (AMap.get g ({} : GroupS) s.que.groups).closing = false) (hph : d.phaseB = .none)
include hd hm hend

omit hm in
theorem State.epochFence_one : s.epochFence d.q = some d := by
  rw [State.epochFence, hd]
  exact List.find?_cons_of_pos (by simp [hend])

include hcl in
theorem State.epochReady_one : s.epochReady g = true := by
  rw [State.epochReady, hm, List.all_cons, State.epochFence_one hd hend, hd, hcl]
  simp

include hph in
omit hm hend in
theorem State.epochBatches_none {ph : PhaseB} (h : ph ≠ .none) : s.epochBatches g ph = [] := by
  have hf : (d.phaseB == ph) = false := by
    rw [hph]
    exact beq_false_of_ne (Ne.symm h)
  rw [State.epochBatches, hd, List.filter_cons, hf]
  simp [sortBy]

omit hd hend in
theorem State.closing_members : (s.closing g).members g = [d.q] := by
  have hj : (AMap.get g ({} : GroupS) (s.closing g).que.groups).joining = (AMap.get g ({} : GroupS) s.que.groups).joining :=
    (congrArg GroupS.joining (a₂ := { AMap.get g ({} : GroupS) s.que.groups with closing := true }) (AMap.get_set_self ..)).trans rfl
  rw [State.members, hj]
  exact hm

end

/-- R249: where the one member of a group has fetched its EPOCH_END fence and no batch waits, the fence completes and the next epoch opens. -/
theorem State.completes_epochClose {s : State} (g : Fin 256) {d : DescS} (hu : s.up) (hs : s.still) (hman : s.isManager = true) (hd : s.que.descs = [d])
    (hm : s.members g.val = [d.q]) (hend : s.isEpochEnd d = true) (hcl : (AMap.get g.val ({} : GroupS) s.que.groups).closing = false) (hph : d.phaseB = .none)
    (hqu : dQuiet d.words = false) (hr : s.ringFree d.q) :
    s.completes (.epochClose g) [.que, .regs, .counts] [Reg.ENG_EPOCHS]
      (fun t => s.recorded d 0 0 t ∧ (AMap.get g.val ({} : GroupS) t.que.groups).epoch = (AMap.get g.val ({} : GroupS) s.que.groups).epoch + 1 ∧
        (AMap.get g.val ({} : GroupS) t.que.groups).closing = false ∧
        t.fld Reg.ENG_EPOCHS F.ENG_EPOCHS_VALUE = min (2 ^ 32 - 1) (s.fld Reg.ENG_EPOCHS F.ENG_EPOCHS_VALUE + 1)) := by
  obtain ⟨c, hc⟩ : ∃ c, c = s.closing g.val := ⟨_, rfl⟩
  have hco : s.only [.que] [] c := by rw [hc]; exact here.que _
  have hcd : c.que.descs = [d] := by rw [hc]; exact hd
  have hcm : c.members g.val = [d.q] := by rw [hc]; exact State.closing_members hm
  have hce : c.isEpochEnd d = true := by rw [hc]; exact hend
  have hcr : c.ringFree d.q := by rw [hc]; exact hr
  have hcg : AMap.get g.val ({} : GroupS) c.que.groups = { AMap.get g.val ({} : GroupS) s.que.groups with closing := true } := by
    rw [hc]
    exact AMap.get_set_self ..
  obtain ⟨hro, hrq⟩ := State.record_free hqu hcr 0 0
  obtain ⟨r, hre⟩ : ∃ r, r = c.record d 0 0 none false := ⟨_, rfl⟩
  rw [← hre] at hro hrq
  obtain ⟨w, hwe⟩ : ∃ w, w = r.setFld Reg.ENG_EPOCHS F.ENG_EPOCHS_VALUE (min (2 ^ 32 - 1) (r.fld Reg.ENG_EPOCHS F.ENG_EPOCHS_VALUE + 1)) := ⟨_, rfl⟩
  have hwo : r.only [.regs] [Reg.ENG_EPOCHS] w := by rw [hwe]; exact here.setFld ..
  obtain ⟨n, hn⟩ : ∃ n : GroupS, n = { epoch := (AMap.get g.val ({} : GroupS) s.que.groups).epoch + 1 } := ⟨_, rfl⟩
  obtain ⟨v, hv⟩ : ∃ v : State, v = ({ w with que := { w.que with groups := AMap.set g.val {} n w.que.groups } } : State).bump (mgrSlot 60) 1 := ⟨_, rfl⟩
  have hvo : w.only [.que, .counts] [] v := by rw [hv]; exact (here.que _).bump ..
  have hf : s.epochClose g.val = v := by
    have h1 : s.epochClose g.val = c.epochStep g.val := by
      rw [State.epochClose, if_pos (State.epochReady_one hd hm hend hcl), hc]
      rfl
    have hb (ph : PhaseB) (h : ph ≠ .none) : c.epochBatches g.val ph = [] := State.epochBatches_none hcd hph h
    have hfe : (c.members g.val).filterMap c.epochFence = [d] := by
      rw [hcm, List.filterMap_cons, State.epochFence_one hcd hce]
      rfl
    rw [h1, State.epochStep, hcg, hb .runs (by decide), hb .waits (by decide), hb .done (by decide)]
    refine (if_neg Bool.false_ne_true).trans ((if_pos rfl).trans ?_)
    simp only [forEach, List.foldl_nil]
    rw [hfe, hv, hwe, hre, hn]
    rfl
  have hall : s.only [.que, .regs, .counts] [Reg.ENG_EPOCHS] v :=
    (((hco.mono (by decide) (by simp)).trans (hro.mono (by decide) (by simp))).trans (hwo.mono (by decide) (fun _ h => h))).trans (hvo.mono (by decide) (by simp))
  have hnd : n ≠ ({} : GroupS) := by
    rw [hn]
    exact fun h => Nat.succ_ne_zero _ (congrArg GroupS.epoch h)
  have hcs : AMap.set g.val {} n c.que.groups = AMap.set g.val {} n s.que.groups := by
    rw [hc]
    exact AMap.set_set _ (fun h => Bool.noConfusion (congrArg GroupS.closing h)) hnd
  have hwq : w.que = c.endedQue d 0 0 := by rw [hwo.que', hrq]
  have hvq : v.que = { s.endedQue d 0 0 with groups := AMap.set g.val {} n s.que.groups } := by
    have h1 : v.que = { w.que with groups := AMap.set g.val {} n w.que.groups } := by rw [hv]; rfl
    have h2 : w.que.groups = c.que.groups := by rw [hwq]; rfl
    rw [h1, h2, hcs, hwq, hc]
    rfl
  have hcalm : v.calm := by
    refine hall.calm_queues hs.1 (by rw [hvq]; rfl) ?_ ?_
    · have : v.que.descs = [] := by
        rw [hvq, State.endedQue, hd]
        simp
      rw [this]
      rfl
    · have hgs : v.que.groups = AMap.set g.val {} n s.que.groups := by rw [hvq]
      rw [State.groupBusy, hgs, List.any_eq_false]
      intro e he
      rcases AMap.mem_set he with rfl | he
      · rw [hn]
        exact Bool.false_ne_true
      · exact List.any_eq_false.mp hs.1.2.2.2.2.2.1 e he
  have hx : exec (.epochClose g) s = always (fun s => if s.isManager && s.running then s.epochClose g else s) s := rfl
  have hfx : (if s.isManager && s.running then s.epochClose g else s) = v := by rw [hman, hu.running]; exact hf
  refine State.completes_always hx (by rw [hfx]; exact ⟨hcalm, hall.wait'.trans hs.2⟩) (by rw [hfx]; exact hall) ?_
  rw [hfx]
  have hgv : AMap.get g.val ({} : GroupS) v.que.groups = n := by
    rw [hvq]
    exact AMap.get_set_self ..
  refine ⟨?_, ?_, ?_, ?_⟩
  · rw [State.recorded, State.carry_que, hvq]
    exact State.recorded_of (t := { s with que := s.endedQue d 0 0 }) rfl
  · rw [State.carry_que, hgv, hn]
  · rw [State.carry_que, hgv, hn]
  · rw [State.carry_fld, hvo.fld _ _, hwe, State.fld_setFld _ _ (by decide), hro.fld _ _, hco.fld _ _]
    exact Nat.mod_eq_of_lt (by change _ < 2 ^ 32; omega)

/-- Settles O36: parts and reports of shards reach their descriptor, and the close of an epoch completes its fence. -/
theorem shardReports : Obligations.ShardReports := by
  refine ⟨?_, ?_⟩
  · rintro s p h g d x hu hs - rfl - hmine hd hrun hq hw hsh hnd hph
    refine ⟨fun last data ht hlen he => State.completes_part hu hs hmine hd hrun hq hw hsh hnd hph last data ht hlen he,
      fun lines firstFail swaps ht he h9 h45 hres hqu hr => State.completes_lastReport hu hs hmine hd hrun hq hw hsh hnd lines firstFail swaps ht he h9 h45 hres hqu hr,
      fun last data ht hlen hlt => ?_, fun lines firstFail swaps ht hlt => ?_⟩
    · refine State.completes_staleResult (m := { op := .part, h := h, eng := some g, words := [data.length, b2n last], data := data })
        hu hs hmine hd hrun hq hw hsh hnd rfl rfl (.inl rfl) ?_ ht hlt
      change always (State.arrive _ (decide (data.length ≤ 32 * h.ndata)) State.engArrive) s = _
      rw [decide_eq_true hlen]
    · exact State.completes_staleResult (m := { op := .shardDone, h := h, eng := some g, words := [lines.toNat, firstFail.toNat, swaps.toNat] })
        hu hs hmine hd hrun hq hw hsh hnd rfl rfl (.inr rfl) rfl ht hlt
  · exact fun s g d hu hs hman hd hm hend hcl hph hqu hr => State.completes_epochClose g hu hs hman hd hm hend hcl hph hqu hr

end Sys2Proof.Machine
end

section
/-! PROOFS. A descriptor of an engine opcode starts its shards (R226, R240, R241). -/

set_option Elab.async false

namespace Sys2Proof.Machine
open Sys2Proof
open State.only (here)

/-! ### The descriptor that runs -/

/-- The shards of a descriptor as it starts. -/
def startShards (l : List (Nat × Nat)) : AMap ShardM :=
  (List.range l.length).map (fun k => (k, { dev := (l.getD k (0, 0)).1, tier := (l.getD k (0, 0)).2 }))

/-- A descriptor that has started, with one shard for each tier of its driving range. -/
def State.started (s : State) (d : DescS) : DescS := { d with stage := .running, shards := startShards (s.shardsOf d.words) }

section
variable {s : State} {d : DescS} {opc : Nat} (hd : s.que.descs = [d]) (hst : d.stage = .ready) (hrel : d.relay = false)
  (hop : dOpc d.words = opc) (hheld : (operands d.words).any s.rangeHeld = false) (hrelay : (operands d.words).any s.rangeRelay = false)
  (hprot : s.protStops d = false)
include hd hst hrel hop hheld hrelay hprot

/-- R240: a descriptor that may start runs. -/
theorem State.engStart_runs : s.engStart opc d.q d.i =
    if (s.shardsOf d.words).isEmpty then (s.putDesc (s.started d)).descEnd (s.started d) 0 (s.started d).outcome.1 (s.started d).outcome.2
    else (s.putDesc (s.started d)).sendShards := by
  have hf : s.desc d.q d.i = some d := by
    rw [State.desc, hd]
    exact List.find?_cons_of_pos (by simp)
  have hm : s.mayStart d = true := by
    rw [State.mayStart, hst, hd]
    simp
  have hs : ({ d with relay := (operands d.words).any s.rangeRelay } : DescS) = d := by
    rw [hrelay, ← hrel]
  rw [State.engStart, hf]
  dsimp only
  rw [if_pos ⟨hop, by rw [hm, hheld]; exact ⟨rfl, rfl⟩⟩, if_neg (by rw [hprot]; decide)]
  change (if (s.shardsOf ({ d with relay := (operands d.words).any s.rangeRelay } : DescS).words).isEmpty then
      (s.putDesc { ({ d with relay := (operands d.words).any s.rangeRelay } : DescS) with stage := .running, shards := startShards (s.shardsOf d.words) }).descEnd
        { ({ d with relay := (operands d.words).any s.rangeRelay } : DescS) with stage := .running, shards := startShards (s.shardsOf d.words) } 0 _ _
    else (s.putDesc { ({ d with relay := (operands d.words).any s.rangeRelay } : DescS) with stage := .running, shards := startShards (s.shardsOf d.words) }).sendShards) = _
  rw [hs]
  rfl

end

theorem startShards_open {l : List (Nat × Nat)} {x : Nat × ShardM} (h : x ∈ startShards l) : x.2.done = false ∧ x.2.sent = false ∧ x.1 < l.length := by
  obtain ⟨k, hk, rfl⟩ := List.mem_map.mp h
  exact ⟨rfl, rfl, List.mem_range.mp hk⟩

theorem startShards_places (l : List (Nat × Nat)) : (startShards l).map (fun x => (x.2.dev, x.2.tier)) = l := by
  rw [startShards, List.map_map]
  refine List.ext_getElem (by simp) fun k h1 h2 => ?_
  simp [h2]

theorem startShards_rising (l : List (Nat × Nat)) : (startShards l).Pairwise (fun x y => x.1 < y.1) := by
  rw [startShards, List.pairwise_map]
  exact List.pairwise_lt_range

theorem devMask_lt {w : List Nat} {n : Nat} (h : n ∈ devMask w) : n < 64 := by
  unfold devMask at h
  dsimp only at h
  split at h
  · rw [List.mem_singleton.mp h]
    exact adDev_lt _
  · exact List.mem_range.mp (List.mem_of_mem_filter h)

theorem drivingRanges_lt {w : List Nat} {r : Nat × Nat × Nat} (h : r ∈ drivingRanges w) : r.1 < 64 := by
  unfold drivingRanges at h
  split at h
  · obtain ⟨n, hn, rfl⟩ := List.mem_map.mp h
    exact devMask_lt hn
  · rw [List.mem_singleton.mp h]
    exact adDev_lt _
  · rw [List.mem_singleton.mp h]
    exact adDev_lt _

/-- Every shard runs on a device. -/
theorem State.shardsOf_lt {s : State} {w : List Nat} {x : Nat × Nat} (h : x ∈ s.shardsOf w) : x.1 < 64 := by
  obtain ⟨r, hr, hx⟩ := List.mem_flatMap.mp h
  obtain ⟨t, -, rfl⟩ := List.mem_map.mp hx
  exact drivingRanges_lt hr

/-! ### The shards leave -/

theorem AMap.put_map {α β : Type} {f : Nat × α → β} {k : Nat} {v w : α} (hf : f (k, v) = f (k, w)) :
    ∀ m : AMap α, m.Pairwise (fun x y => x.1 < y.1) → (k, w) ∈ m → (AMap.put k v m).map f = m.map f
  | [], _ => fun h => absurd h List.not_mem_nil
  | (j, y) :: r, hr => by
    intro hm
    obtain ⟨h1, h2⟩ := List.pairwise_cons.mp hr
    rcases List.mem_cons.mp hm with he | hm
    · obtain ⟨rfl, rfl⟩ := Prod.mk.inj he
      simp [AMap.put, hf]
    · have hlt : j < k := h1 _ hm
      simp [AMap.put, Nat.not_lt_of_lt hlt, Nat.ne_of_gt hlt, AMap.put_map hf r h2 hm]

/-- What does not change of a shard as it is sent. -/
def shardKey (x : Nat × ShardM) : Nat × Nat × Nat := (x.1, x.2.dev, x.2.tier)

/-- A descriptor some of whose shards have been sent. -/
structure DescS.sends (d e : DescS) : Prop where
  q : e.q = d.q
  i : e.i = d.i
  words : e.words = d.words
  stage : e.stage = d.stage
  relay : e.relay = d.relay
  phaseB : e.phaseB = d.phaseB
  keys : e.shards.map shardKey = d.shards.map shardKey
  open_ : ∀ x ∈ e.shards, x.2.done = false

/-- Between two states shards of a descriptor have been sent to other devices. -/
structure State.sending (s : State) (d : DescS) (t : State) : Prop where
  only : s.only [.ports, .sent, .counts, .que, .regs] [Reg.NDL_PATH_STATUS] t
  inbox : t.net.inbox = s.net.inbox
  que : ∃ e, d.sends e ∧ t.que = { s.que with descs := [e] }

theorem State.engMsg_dst {s : State} {op : MOp} {dev : Nat} (h : dev < 64) (d : DescS) (ix ep part st : Nat) (data : List Byte) (ws : List Nat) :
    (s.engMsg op dev d ix ep part st data ws).h.dst.val = dev := Nat.mod_eq_of_lt h

/-- A shard for another device leaves. -/
theorem State.sending.step {s t : State} {d : DescS} (h : s.sending d t) {x : Nat × ShardM} (hx : x ∈ d.shards) (hdev : x.2.dev < 64) (hn : x.2.dev ≠ s.num)
    (hopen : x.2.done = false) (hrel : d.relay = false) (hr : d.shards.Pairwise (fun x y => x.1 < y.1)) {e : DescS} (he : t.que.descs = [e]) :
    s.sending d (t.sendShard e x.1 x.2) := by
  obtain ⟨ho, hin, e', hse, hq⟩ := h
  obtain rfl : e' = e := by
    rw [hq] at he
    exact List.singleton_inj.mp he
  obtain ⟨f, hf⟩ : ∃ f : DescS, f = { e' with shards := AMap.put x.1 { x.2 with sent := true } e'.shards } := ⟨_, rfl⟩
  have hfst (m : AMap ShardM) : m.map Prod.fst = (m.map shardKey).map Prod.fst := by rw [List.map_map]; rfl
  have hre : e'.shards.Pairwise (fun x y => x.1 < y.1) := by
    have h1 : (d.shards.map Prod.fst).Pairwise (· < ·) := List.pairwise_map.mpr hr
    rw [hfst, ← hse.keys, ← hfst] at h1
    exact List.pairwise_map.mp h1
  obtain ⟨y, hy, hxy⟩ := List.mem_map.mp (hse.keys ▸ List.mem_map_of_mem hx : shardKey x ∈ e'.shards.map shardKey)
  obtain ⟨hk, hd, ht⟩ : y.1 = x.1 ∧ y.2.dev = x.2.dev ∧ y.2.tier = x.2.tier := by
    simpa [shardKey] using hxy
  have hkeys : f.shards.map shardKey = d.shards.map shardKey := by
    rw [← hse.keys, hf]
    refine AMap.put_map (w := y.2) ?_ _ hre (by rw [← hk]; exact hy)
    rw [shardKey, shardKey, hd, ht]
  have hdone : ∀ z ∈ f.shards, z.2.done = false := by
    intro z hz
    rw [hf] at hz
    rcases AMap.mem_put hz with rfl | hz
    · exact hopen
    · exact hse.open_ z hz
  obtain ⟨v, hv⟩ : ∃ v : State, v = ({ t with que := { t.que with descs := [f] } } : State).bump (classSlot (dSc e'.words) 6) 1 := ⟨_, rfl⟩
  obtain ⟨m, hm⟩ : ∃ m, m = v.engMsg .shard (e'.runsOn x.2) e' x.1 0 0 0 (ofWords e'.words) [x.2.tier + 4 * b2n (e'.phaseB == .runs) + 8 * b2n e'.relay] := ⟨_, rfl⟩
  have hs : t.sendShard e' x.1 x.2 = v.route none m := by
    rw [State.sendShard, ← hf, State.putDesc_one (d := e') he (by rw [hf]) (by rw [hf]), ← hv, ← hm]
  have hto : t.only [.que, .counts] [] v := by rw [hv]; exact (here.que _).bump ..
  have hvn : v.num = s.num := (hto.fld _ _).trans (ho.fld Reg.IDENT_DEVNUM _ (by decide))
  have hdst : m.h.dst.val ≠ v.num := by
    have hon : e'.runsOn x.2 = x.2.dev := by rw [DescS.runsOn, hse.relay, hrel, if_neg Bool.false_ne_true]
    rw [hm, hon, State.engMsg_dst hdev, hvn]
    exact hn
  have hro := State.route_only none m v
  rw [hs]
  refine ⟨(ho.trans (hto.mono (by decide) (by simp))).trans (hro.mono (by decide) (fun _ h => h)), ?_, f, ?_, ?_⟩
  · rw [State.route_inbox hdst, hto.inbox', hin]
  · refine ⟨?_, ?_, ?_, ?_, ?_, ?_, hkeys, hdone⟩
    · rw [hf]; exact hse.q
    · rw [hf]; exact hse.i
    · rw [hf]; exact hse.words
    · rw [hf]; exact hse.stage
    · rw [hf]; exact hse.relay
    · rw [hf]; exact hse.phaseB
  · rw [hro.que', hv]
    change { t.que with descs := [f] } = _
    rw [hq]

theorem State.sendShards_sending {s : State} {d : DescS} (hd : s.que.descs = [d]) (hrel : d.relay = false) (hopen : ∀ x ∈ d.shards, x.2.done = false)
    (hdev : ∀ x ∈ d.shards, x.2.dev < 64 ∧ x.2.dev ≠ s.num) (hr : d.shards.Pairwise (fun x y => x.1 < y.1)) : s.sending d s.sendShards := by
  have h0 : s.sending d s := ⟨here, rfl, d, ⟨rfl, rfl, rfl, rfl, rfl, rfl, rfl, hopen⟩, by rw [← hd]⟩
  rw [State.sendShards]
  refine forEach_keeps_mem (s.sending d) _ _ (fun a ha t ht => ?_) s h0
  have had : a = d := by
    have := List.mem_of_mem_filter ha
    rw [hd] at this
    exact List.mem_singleton.mp this
  subst had
  refine forEach_keeps_mem (s.sending a) _ _ (fun x hx u hu => ?_) t ht
  have hxm := List.mem_of_mem_filter hx
  obtain ⟨e, hse, hq⟩ := hu.que
  have hue : u.que.descs = [e] := by rw [hq]
  have hdesc : u.desc a.q a.i = some e := by
    rw [State.desc, hue]
    exact List.find?_cons_of_pos (by simp [hse.q, hse.i])
  rw [hdesc]
  dsimp only
  split
  · exact hu.step hxm (hdev x hxm).1 (hdev x hxm).2 (hopen x hxm) hrel hr hue
  · exact hu

/-! ### A descriptor starts -/

theorem exec_engine {c : Instr} {q i opc : Nat} (h : (c, opc) ∈ [(Instr.copy q i, 1), (.fill q i, 2), (.zero q i, 3), (.compare q i, 4), (.crc q i, 5), (.gather q i, 6),
    (.scatter q i, 7), (.reduce q i, 8), (.atomicBatch q i, 9), (.xorParity q i, 10)]) (s : State) : exec c s = always (State.engStart opc q i) s := by
  simp only [List.mem_cons, Prod.mk.injEq, List.not_mem_nil, or_false] at h
  rcases h with ⟨rfl, rfl⟩ | ⟨rfl, rfl⟩ | ⟨rfl, rfl⟩ | ⟨rfl, rfl⟩ | ⟨rfl, rfl⟩ | ⟨rfl, rfl⟩ | ⟨rfl, rfl⟩ | ⟨rfl, rfl⟩ | ⟨rfl, rfl⟩ | ⟨rfl, rfl⟩ <;> rfl

theorem DescS.sends.not_due {d e : DescS} (h : d.sends e) (hph : d.phaseB = .none) : e.due = false := by
  have h1 : e.reported = false := by
    cases hs : e.shards with
    | nil => simp [DescS.reported, hs]
    | cons x l =>
      have hx := h.open_ x (by rw [hs]; exact List.mem_cons_self)
      simp [DescS.reported, hs, hx]
  rw [DescS.due, h1, h.phaseB, hph]
  rfl

section
variable {s : State} {d : DescS} {opc : Nat} {c : Instr} (hs : s.still) (hd : s.que.descs = [d]) (hst : d.stage = .ready) (hrel : d.relay = false)
  (hph : d.phaseB = .none) (hsh : d.shards = []) (hop : dOpc d.words = opc) (hheld : (operands d.words).any s.rangeHeld = false)
  (hrelay : (operands d.words).any s.rangeRelay = false) (hprot : s.protStops d = false) (hc : exec c s = always (State.engStart opc d.q d.i) s)

include hs hd hph in
/-- The shards of a descriptor that has been put down leave. -/
theorem State.started_sending (hne : ∀ x ∈ s.shardsOf d.words, x.1 ≠ s.num) (hrel : d.relay = false) :
    s.sending (s.started d) (s.putDesc (s.started d)).sendShards ∧ (s.putDesc (s.started d)).sendShards.still := by
  obtain ⟨u, hu⟩ : ∃ u, u = s.putDesc (s.started d) := ⟨_, rfl⟩
  have huo : s.only [.que] [] u := by rw [hu]; exact here.que _
  have huq : u.que = { s.que with descs := [s.started d] } := by rw [hu, State.putDesc_one (e := s.started d) hd rfl rfl]
  have hdev : ∀ x ∈ (s.started d).shards, x.2.dev < 64 ∧ x.2.dev ≠ u.num := by
    intro x hx
    have hm : (x.2.dev, x.2.tier) ∈ s.shardsOf d.words := by
      rw [← startShards_places (s.shardsOf d.words)]
      exact List.mem_map_of_mem hx
    rw [State.num, huo.fld _ _]
    exact ⟨State.shardsOf_lt hm, hne _ hm⟩
  have hss := State.sendShards_sending (d := s.started d) (by rw [huq]) hrel (fun x hx => (startShards_open hx).1) hdev (startShards_rising _)
  rw [← hu]
  obtain ⟨e, hse, hq⟩ := hss.que
  have hq' : u.sendShards.que = { s.que with descs := [e] } := by rw [hq, huq]
  have hall : s.only [.ports, .sent, .counts, .que, .regs] [Reg.NDL_PATH_STATUS] u.sendShards := (huo.mono (by decide) (by simp)).trans hss.only
  have hin : u.sendShards.net.inbox = s.net.inbox := hss.inbox.trans huo.inbox'
  refine ⟨⟨hall, hin, e, hse, hq'⟩, hall.calm_sent hs.1 hin (by rw [hq']) ?_ (by rw [hq']) (by rw [hall.mgr']) (by rw [hall.mgr']) (by rw [hall.mgr']),
    hall.wait'.trans hs.2⟩
  rw [hq', List.any_cons, hse.not_due hph]
  rfl

include hs hd hst hrel hph hop hheld hrelay hprot hc

/-- R240, R241: the shards of a descriptor leave for their tiers. -/
theorem State.completes_engStart (h0 : s.shardsOf d.words ≠ []) (hne : ∀ x ∈ s.shardsOf d.words, x.1 ≠ s.num) :
    s.completes c [.ports, .sent, .counts, .que, .regs] [Reg.NDL_PATH_STATUS]
      (fun t => ∃ e : DescS, t.que.descs = [e] ∧ e.words = d.words ∧ e.stage = .running ∧ e.shards.map (fun x => (x.2.dev, x.2.tier)) = s.shardsOf d.words) := by
  obtain ⟨hss, hstill⟩ := State.started_sending hs hd hph hne hrel
  have hf : s.engStart opc d.q d.i = (s.putDesc (s.started d)).sendShards := by
    rw [State.engStart_runs hd hst hrel hop hheld hrelay hprot, if_neg (by rw [List.isEmpty_iff]; exact h0)]
  refine State.completes_always hc (by rw [hf]; exact hstill) (by rw [hf]; exact hss.only) ?_
  obtain ⟨e, hse, hq⟩ := hss.que
  rw [hf]
  refine ⟨e, ?_, hse.words, hse.stage, ?_⟩
  · rw [State.carry_que, hq]
  · have h2 (m : AMap ShardM) : m.map (fun x => (x.2.dev, x.2.tier)) = (m.map shardKey).map (·.2) := by rw [List.map_map]; rfl
    rw [h2, hse.keys, ← h2]
    exact startShards_places _

include hsh in
omit hph in
/-- R240: a descriptor whose driving range holds no lines ends at once. -/
theorem State.completes_engStart_empty (h0 : s.shardsOf d.words = []) (hres : resultGranule d.words = none) (hqu : dQuiet d.words = false) (hr : s.ringFree d.q) :
    s.completes c [.counts, .que] [] (fun t => s.recorded d 0 d.outcome.1 t) := by
  obtain ⟨u, hu⟩ : ∃ u, u = s.putDesc (s.started d) := ⟨_, rfl⟩
  have huo : s.only [.que] [] u := by rw [hu]; exact here.que _
  have huq : u.que = { s.que with descs := [s.started d] } := by rw [hu, State.putDesc_one (e := s.started d) hd rfl rfl]
  have hss : (s.started d).shards = d.shards := by rw [State.started, h0, hsh]; rfl
  have hout : (s.started d).outcome = d.outcome := by
    rw [DescS.outcome, DescS.outcome, hss]
    rfl
  have hfree : u.ringFree (s.started d).q := by
    rw [State.ringFree, State.ringBad, State.ringOf, State.ctx, huq]
    exact hr
  obtain ⟨hro, hrq⟩ := State.record_free (s := u) (d := s.started d) hqu hfree 0 d.outcome.1
  have hf : s.engStart opc d.q d.i = u.record (s.started d) 0 d.outcome.1 none false := by
    rw [State.engStart_runs hd hst hrel hop hheld hrelay hprot, if_pos (by rw [h0]; rfl), State.descEnd, show resultGranule (s.started d).words = none from hres, ← hu, hout]
    rfl
  have hall := huo.mono.trans hro (ps := [.que, .counts])
  have hq : (u.record (s.started d) 0 d.outcome.1 none false).que = s.endedQue d 0 d.outcome.1 := by
    rw [hrq, State.endedQue, State.endedQue, State.newRec, State.newRec, State.ringOf, State.ctx, State.ctx, huq, hd]
    simp [State.ringOf, State.ctx, State.started]
  have hstill : (u.record (s.started d) 0 d.outcome.1 none false).still := by
    refine ⟨hall.calm_queues hs.1 (by rw [hq]; rfl) ?_ ?_, hall.wait'.trans hs.2⟩
    · rw [hq, State.endedQue, hd]
      simp
    · rw [State.groupBusy, hq]
      exact hs.1.2.2.2.2.2.1
  refine State.completes_always hc (by rw [hf]; exact hstill) (by rw [hf]; exact hall.mono (by decide) (by simp)) ?_
  rw [hf]
  exact State.recorded_of hq

end

/-! ### A descriptor of one shard -/

theorem length_ofWords (ws : List Nat) : (ofWords ws).length = 4 * ws.length := by
  induction ws with
  | nil => rfl
  | cons w ws ih =>
    have : ofWords (w :: ws) = leBytes 4 w ++ ofWords ws := rfl
    rw [this, List.length_append, ih, leBytes_len, List.length_cons]
    omega

/-- The one shard of a descriptor leaves. -/
theorem State.sendShards_one {s : State} {d : DescS} {x : ShardM} (hd : s.que.descs = [d]) (hst : d.stage = .running) (hrel : d.relay = false)
    (hsh : d.shards = [(0, x)]) (hsent : x.sent = false) (hdone : x.done = false) : s.sendShards = s.sendShard d 0 x := by
  have hdesc : s.desc d.q d.i = some d := by
    rw [State.desc, hd]
    exact List.find?_cons_of_pos (by simp)
  have hslots : s.slotsUsed x.dev x.tier false = 0 := by
    rw [State.slotsUsed, hd]
    simp [hsh, hsent]
  have hon : d.runsOn x = x.dev := by rw [DescS.runsOn, hrel, if_neg Bool.false_ne_true]
  have hl : d.shards.filter (fun x => !x.2.sent && !x.2.done) = [(0, x)] := by
    rw [hsh]
    simp [hsent, hdone]
  have hds : s.que.descs.filter (fun d => d.stage == .running) = [d] := by
    rw [hd]
    simp [hst]
  rw [State.sendShards, hds, forEach_cons, forEach_nil, hl, forEach_cons, forEach_nil, hdesc]
  dsimp only
  rw [hon, hslots, if_pos ⟨by decide, .inl (by rw [hrel]; rfl)⟩]

section
variable {s : State} {d : DescS} {opc : Nat} {c : Instr} (hs : s.still) (hman : s.isManager = true) (hd : s.que.descs = [d]) (hst : d.stage = .ready) (hrel : d.relay = false)
  (hph : d.phaseB = .none) (hop : dOpc d.words = opc) (hheld : (operands d.words).any s.rangeHeld = false)
  (hrelay : (operands d.words).any s.rangeRelay = false) (hprot : s.protStops d = false) (hc : exec c s = always (State.engStart opc d.q d.i) s)
include hs hman hd hst hrel hph hop hheld hrelay hprot hc

/-- R241: the one shard of a descriptor leaves at once in a SHARD message with the descriptor's words. -/
theorem State.completes_engStart_one {n k : Nat} (h1 : s.shardsOf d.words = [(n, k)]) (hn : n ≠ s.num) (hn64 : n < 64)
    (hsend : s.sends (s.trunkPort n) .shard ((4 * d.words.length + 31) / 32)) :
    s.completes c [.ports, .sent, .counts, .que] []
      (fun t => t.que = { s.que with descs := [{ d with stage := .running, shards := [(0, { dev := n, tier := k, sent := true })] }] } ∧
        ∃ m : Msg, t.net.tx = s.net.tx ++ [(s.trunkPort n, m)] ∧ m.op = .shard ∧ m.h.dst.val = n ∧ m.data = ofWords d.words ∧
          m.words = [k] ∧ m.eng.map (fun g => (g.queue, g.index, g.epoch)) = some (d.q, 0, 0)) := by
  obtain ⟨u, hu⟩ : ∃ u, u = s.putDesc (s.started d) := ⟨_, rfl⟩
  have huq : u.que = { s.que with descs := [s.started d] } := by rw [hu, State.putDesc_one (e := s.started d) hd rfl rfl]
  have huo : s.only [.que] [] u := by rw [hu]; exact here.que _
  have hsh : (s.started d).shards = [(0, { dev := n, tier := k })] := by rw [State.started, h1]; rfl
  obtain ⟨e, he⟩ : ∃ e : DescS, e = { d with stage := .running, shards := [(0, { dev := n, tier := k, sent := true })] } := ⟨_, rfl⟩
  obtain ⟨v, hv⟩ : ∃ v : State, v = ({ u with que := { s.que with descs := [e] } } : State).bump (classSlot (dSc d.words) 6) 1 := ⟨_, rfl⟩
  have hvo : s.only [.que, .counts] [] v := by
    rw [hv]
    exact (huo.mono.que _).bump ..
  have hvq : v.que = { s.que with descs := [e] } := by rw [hv]; rfl
  obtain ⟨m, hm⟩ : ∃ m, m = v.engMsg .shard n (s.started d) 0 0 0 0 (ofWords d.words) [k] := ⟨_, rfl⟩
  have hdst : m.h.dst.val = n := by rw [hm]; exact State.engMsg_dst hn64 ..
  have hf : s.engStart opc d.q d.i = v.sendOn (s.trunkPort n) m := by
    have h2 : s.engStart opc d.q d.i = u.sendShard (s.started d) 0 { dev := n, tier := k } := by
      rw [State.engStart_runs hd hst hrel hop hheld hrelay hprot, if_neg (by rw [h1]; exact Bool.false_ne_true), ← hu,
        State.sendShards_one (d := s.started d) (by rw [huq]) rfl hrel hsh rfl rfl]
    have h3 : ({ s.started d with shards := AMap.put 0 { dev := n, tier := k, sent := true } (s.started d).shards } : DescS) = e := by
      rw [hsh, AMap.put_single, he]
      rfl
    have h4 : u.sendShard (s.started d) 0 { dev := n, tier := k } = v.route none m := by
      have hon : (s.started d).runsOn { dev := n, tier := k } = n := by rw [DescS.runsOn]; exact if_neg (by rw [show (s.started d).relay = d.relay from rfl, hrel]; decide)
      have hw : [k + 4 * b2n ((s.started d).phaseB == .runs) + 8 * b2n (s.started d).relay] = [k] := by
        rw [show (s.started d).phaseB = d.phaseB from rfl, show (s.started d).relay = d.relay from rfl, hph, hrel]
        rfl
      rw [State.sendShard, h3, hon, hw, State.putDesc_one (d := s.started d) (e := e) (by rw [huq]) (by rw [he]; rfl) (by rw [he]; rfl), huq, hm, hv]
      rfl
    have hvm : v.isManager = true := hvo.isManager.trans hman
    have hvn : v.num = s.num := hvo.fld _ _
    have htr : v.trunkPort n = s.trunkPort n := by rw [State.trunkPort, State.trunkPort, hvo.ent']
    rw [h2, h4, State.route, if_neg (by rw [hm]; exact Bool.false_ne_true), hdst, hvn, if_neg fun h => hn h.1, if_pos hvm, htr]
  have hsv : v.sends (s.trunkPort n) m.op m.h.ndata := by
    have h2 : m.op = .shard ∧ m.h.ndata = (4 * d.words.length + 31) / 32 := by
      rw [hm]
      exact ⟨rfl, congrArg (fun l => (l + 31) / 32) (length_ofWords _)⟩
    rw [h2.1, h2.2]
    exact State.sends_congr (congrArg PortS.sender (hvo.port _)) hsend
  have ho := State.sendOn_sends hsv
  have hvs : v.still := by
    refine ⟨hvo.calm_queues hs.1 (by rw [hvq]) ?_ (by rw [State.groupBusy, hvq]; exact hs.1.2.2.2.2.2.1), hvo.wait'.trans hs.2⟩
    rw [hvq, he, List.any_cons, DescS.due, DescS.reported]
    simp [hph]
  refine State.completes_always hc (by rw [hf]; exact State.sendOn_still hsv hvs) (by rw [hf]; exact (hvo.mono (by decide) (by simp)).trans (ho.only.mono (by decide) (by simp))) ?_
  rw [hf]
  refine ⟨?_, _, ho.tx.trans (by rw [hvo.tx']; rfl), ?_⟩
  · rw [State.carry_que, ho.only.que', hvq, he]
  · rw [hm] at hdst ⊢
    exact ⟨rfl, hdst, rfl, rfl, rfl⟩

end

/-- Settles O34: a descriptor of an engine opcode runs, with a shard for each tier of its driving range, or ends at once. -/
theorem engineStarts : Obligations.EngineStarts := by
  rintro s q i d c opc hu hs hman hd rfl rfl hst hrel hph hsh hop hheld hrelay hprot hmem
  have hc := exec_engine hmem s
  exact ⟨fun n k h1 hn hn64 hsend => State.completes_engStart_one hs hman hd hst hrel hph hop hheld hrelay hprot hc h1 hn hn64 hsend,
    fun h0 hres hqu hr => State.completes_engStart_empty hs hd hst hrel hsh hop hheld hrelay hprot hc h0 hres hqu hr,
    fun h0 hne => State.completes_engStart hs hd hst hrel hph hop hheld hrelay hprot hc h0 hne⟩

end Sys2Proof.Machine
end

section
/-! PROOFS. A thermal migration of a shard whose class has its limit where ENG.STATUS stands: the flags that the migration raises make room for it (R225, R252). -/

set_option Elab.async false

namespace Sys2Proof.Machine
open Sys2Proof

/-- A FILL of one line per unit with more than MIG_MIN left, of class 1008, whose engine waits for an answer. -/
def longFill : ShardS :=
  { g := { queue := 0, dseq := 0, index := 0, epoch := 0, part := 0, status := 0 }, dev := 0, home := 0, phaseB := false, relay := false, desc := [2], sc := 1008,
    firm := true, units := List.replicate (2 ^ 20) (0, 0, 128, 0), tag := some 0 }

/-- A device whose tier 0 runs that shard, with tier 1 the one that is cool, and thermal migration on. -/
def hotTier : State :=
  { power := { phase := .running }, regs := { file := [(Reg.ENG_CTL, 1)] },
    stack := { tiers := [(0, { run := some longFill, stage := 3 }), (2, { stage := 1 }), (3, { stage := 1 })] } }

theorem longFill_bytes : ∀ n a : Nat, (List.replicate n ((0, 0, 128, 0) : Nat × Nat × Nat × Nat)).foldl (fun n p => n + unitBytes [2] p) a = a + 128 * n
  | 0, _ => rfl
  | n + 1, a => by
    have h : unitBytes [2] (0, 0, 128, 0) = 128 := by decide
    rw [List.replicate_succ, List.foldl_cons, longFill_bytes n, h]
    omega

theorem longFill_long : Config.MIG_MIN ≤ longFill.bytes - longFill.at_.bytes := by
  have h : longFill.bytes = 0 + 128 * 2 ^ 20 := longFill_bytes _ _
  rw [h]
  decide

theorem hotTier_still : hotTier.still := ⟨⟨rfl, rfl, rfl, rfl, rfl, rfl, rfl, by decide +kernel, rfl, rfl⟩, rfl⟩

/-- The device after the shard has moved to tier 1. -/
def movedShard : State :=
  let s := { hotTier with eng.reqs := AMap.mapVal (fun a => if a.tier = 0 ∧ longFill.tag.isSome then { a with stale := true } else a) hotTier.eng.reqs }
  let s := s.modTier 0 (fun x => { x with run := none })
  let sh := longFill.replaced 1 s.now
  let s := s.modTier 1 (fun x => if x.run.isNone then { x with run := some sh } else { x with waiting := sh :: x.waiting })
  (((s.bump (tierSlot 0 2) 1).raise Reg.ENG_STATUS F.ENG_STATUS_MIGRATED).exclude sh.sc).engNext 0

theorem engMigrate_hotTier : whenAwake (State.engMigrate 0 0) hotTier = movedShard := by
  have hrun : (hotTier.tier 0).run = some longFill := rfl
  have hcool : hotTier.coolTiers 0 = [1] := by decide +kernel
  rw [whenAwake, if_pos (show hotTier.awake = true from rfl), State.engMigrate, hrun]
  dsimp only
  rw [if_neg (by decide +kernel), if_neg (by decide +kernel), if_pos rfl]
  refine (if_pos ⟨by decide +kernel, by decide +kernel, longFill_long, rfl⟩).trans ?_
  rw [hcool]
  rfl

/-- The engine of tier 1 asks for its first line at once: the owner has numbered a request. -/
theorem movedShard_asks : ((hotTier.trainApply (movedShard.settle 65536)).own.next == hotTier.own.next) = false := by
  decide +kernel

/-- Refutes O35: a shard of class 1008, whose limit is read where ENG.STATUS stands, finds no room before its migration and room after it, when MIGRATED and
BUSY stand there: its engine goes on in the same step, and the owner's tables change, which the clause of a thermal migration does not list. -/
theorem not_shards : ¬ Obligations.Shards := by
  intro h
  obtain ⟨-, hrun⟩ := h hotTier .e 0 ⟨rfl, rfl, rfl⟩ hotTier_still
  obtain ⟨-, hmig, -⟩ := hrun longFill 0 rfl
  obtain ⟨t, ht, -, ho⟩ := hmig 1 (0, 0, 128, 0) (.inl (by decide +kernel)) (by decide +kernel) (by decide +kernel) longFill_long rfl rfl (by decide +kernel) rfl rfl
    (by decide +kernel) (by decide +kernel)
  have hx : exec (.migration 0 0) hotTier = .next (hotTier.carry (hotTier.trainApply (movedShard.settle 65536))) := by
    change always (whenAwake (State.engMigrate 0 0)) hotTier = _
    rw [always, run, State.after, engMigrate_hotTier]
  have hte : t = hotTier.carry (hotTier.trainApply (movedShard.settle 65536)) := by
    have := ht.symm.trans hx
    injection this
  have hown : t.own = hotTier.own := ho.own'
  have hf := movedShard_asks
  rw [← State.carry_own hotTier, ← hte, hown] at hf
  simp at hf

end Sys2Proof.Machine
end

section
/-! PROOFS. How far a start has come: no operation that the end of a self-test item can set going changes it. One lemma per operation, in the order
of the definitions: retired channels, windthrows, training, calibration, held writes, sensors, ports, the dead state. -/

set_option Elab.async false

namespace Sys2Proof.Machine
open Sys2Proof

/-! ### Copies and channels that are retired -/

@[simp] theorem State.poolFlags_core (s : State) : s.poolFlags.core = s.core := (State.poolFlags_only s).core

@[simp] theorem State.unsat_core (n : Nat) (s : State) : (s.unsat n).core = s.core := by simp [State.unsat]

@[simp] theorem State.serveBehind_core (l : List Held) (s : State) : (s.serveBehind l).core = s.core := by simp [State.serveBehind]

@[simp] theorem State.copyStart_core (k : CopyKind) (total target : Nat) (wanted : Bool) (s : State) :
    (s.copyStart k total target wanted).1.core = s.core := by simp [State.copyStart]

@[simp] theorem State.relocate_core (s : State) : s.relocate.core = s.core := by
  unfold State.relocate
  refine forEach_core _ _ s fun b s => ?_
  (repeat' split) <;> simp

@[simp] theorem State.retiredRead_core (a : Acc) (s : State) : (s.retiredRead a).core = s.core := by
  unfold State.retiredRead
  dsimp only
  (repeat' split) <;> simp

/-! ### Windthrows -/

@[simp] theorem State.crossingLog_core (kind t g x : Nat) (ns : List Nat) (at_ : Place × Nat) (s : State) :
    (s.crossingLog kind t g x ns at_).core = s.core := by simp [State.crossingLog]

@[simp] theorem State.chanEmpty_core (n : Nat) (s : State) : (s.chanEmpty n).core = s.core := by
  simp [State.chanEmpty, (State.chanFilter_only n (fun _ => false) s).core]

@[simp] theorem State.throwFault_core (n kind : Nat) (s : State) : (s.throwFault n kind).core = s.core := by simp [State.throwFault]

@[simp] theorem State.throwEvent_core (n kind : Nat) (s : State) : (s.throwEvent n kind).core = s.core := by simp [State.throwEvent]

@[simp] theorem State.throwRecord_core (t g x : Nat) (ns : List Nat) (at_ : Place × Nat) (s : State) :
    (s.throwRecord t g x ns at_).core = s.core := by simp [State.throwRecord]

@[simp] theorem State.throwPending_core (n : Nat) (s : State) : (s.throwPending n).core = s.core := by
  unfold State.throwPending
  split <;> simp

@[simp] theorem State.retireChan_core (n : Nat) (s : State) : (s.retireChan n).core = s.core := by simp [State.retireChan]

@[simp] theorem State.throwOnly_core (t g x n : Nat) (at_ : Place × Nat) (s : State) : (s.throwOnly t g x n at_).core = s.core := by
  simp [State.throwOnly]

@[simp] theorem State.windthrow_core (t g x : Nat) (at_ : Place × Nat) (s : State) : (s.windthrow t g x at_).core = s.core := by
  unfold State.windthrow
  split
  · rfl
  · split <;> simp
  · simp
  · dsimp only
    (repeat' split) <;> simp

@[simp] theorem State.failPosition_core (t g x : Nat) (at_ : Place × Nat) (s : State) : (s.failPosition t g x at_).core = s.core := by
  unfold State.failPosition
  dsimp only
  (repeat' split) <;> simp

@[simp] theorem State.failElement_core (e : Nat) (s : State) : (s.failElement e).core = s.core := by simp [State.failElement]

/-! ### Training, random bits, calibration -/

@[simp] theorem State.trained_core (pcs : List Nat) (o : TrainObs) (s : State) : (s.trained pcs o).core = s.core := by
  simp [State.trained, (State.trainPc_only _ _ _ _).core]

@[simp] theorem State.reseed_core (t : Nat) (s : State) : (s.reseed t).core = s.core := (State.reseed_only t s).core

@[simp] theorem State.entropyFail_core (t : Nat) (apt : Bool) (s : State) : (s.entropyFail t apt).core = s.core := by simp [State.entropyFail]

@[simp] theorem State.calBegin_core (t : Nat) (c : CalCause) (s : State) : (s.calBegin t c).core = s.core := by simp [State.calBegin]

/-! ### The writes that a tier holds -/

@[simp] theorem State.heldWrites_core (t : Nat) (s : State) : (s.heldWrites t).core = s.core := by
  have h (l : List Acc) (s : State) : (forEach l (fun (a : Acc) s => match a.wr with | some (d, md) => s.setLine a.place d md | none => s) s).core = s.core :=
    forEach_core _ l s fun a s => by
      split
      · exact (State.setLine_only ..).core
      · rfl
  exact (h _ _).trans (State.modTier_core ..)

@[simp] theorem State.journalLog_core (t : Nat) : ∀ (n : Nat) (l : List Nat) (s : State), (s.journalLog t n l).core = s.core
  | 0, _, _ => rfl
  | _ + 1, [], _ => rfl
  | n + 1, _ :: _, _ => (State.journalLog_core t n _ _).trans (State.blazeAt_core ..)

@[simp] theorem State.journalTell_core (t : Nat) (s : State) : (s.journalTell t).core = s.core := by simp [State.journalTell]

@[simp] theorem State.rejoinWrites_core (t : Nat) (s : State) : (s.rejoinWrites t).core = s.core := by
  simp [State.rejoinWrites, (State.setLine_only _ _ _ _).core]

@[simp] theorem State.startWrites_core (s : State) : s.startWrites.core = s.core := by simp [State.startWrites]

/-! ### Sensors and stages -/

@[simp] theorem State.setStage_core (t k : Nat) (s : State) : (s.setStage t k).core = s.core := by simp [State.setStage]

@[simp] theorem State.thermFlags_core (s : State) : s.thermFlags.core = s.core := by
  have h (b : Bool) (u : State) : ({ u with power.thermN := b } : State).stage3Flag.core = u.core := (State.stage3Flag_only _).core
  simp [State.thermFlags, h]

@[simp] theorem State.devStageFrom_core (old : Nat) (s : State) : (s.devStageFrom old).core = s.core := by simp [State.devStageFrom]

@[simp] theorem State.inputOf_core (t : Nat) (s : State) : (s.inputOf t).core = s.core := by
  unfold State.inputOf
  dsimp only
  split <;> simp

@[simp] theorem State.stageFollow_core (t : Nat) (s : State) : (s.stageFollow t).core = s.core := by simp [State.stageFollow]

@[simp] theorem State.thermUpdate_core (s : State) : s.thermUpdate.core = s.core := by
  simp [State.thermUpdate, (State.calJudge_only _).core, (State.refreshTemps_only _).core]

@[simp] theorem State.modSensor_core (i : Nat) (f : SensorS → SensorS) (s : State) : (s.modSensor i f).core = s.core := rfl

@[simp] theorem State.sensorBreaks_core (i cause : Nat) (s : State) : (s.sensorBreaks i cause).core = s.core := by simp [State.sensorBreaks]

/-! ### Ports, the dead state, and the item itself -/

@[simp] theorem State.startPorts_core (s : State) : s.startPorts.core = s.core := by
  simp [State.startPorts, State.openRelays, State.relayCount, (State.startPort_only _ _).core]

@[simp] theorem State.die_core (code item : Nat) (s : State) : (s.die code item).core = s.core := by
  have h : (s.die code item).core = (s.blazeAt 255 255 0 0 4 0 [BitVec.ofNat 8 code, BitVec.ofNat 8 item]).1.stopCore.core := rfl
  rw [h, State.stopCore_core, State.blazeAt_core]

@[simp] theorem State.startExclude_core (n : Nat) (s : State) : (s.startExclude n).core = s.core := by simp [State.startExclude]

/-! ### The apply points of ports, at the start of a training (R54) -/

@[simp] theorem State.applyReg_core (a : Nat) (s : State) : (s.applyReg a).core = s.core := (State.applyReg_only a s).core

@[simp] theorem State.ctlMode_core (p : Port) (mode : Nat) (s : State) : (s.ctlMode p mode).core = s.core := by
  simp [State.ctlMode, (State.train_any _ _ _).core, (State.portFlags_only _ _).core, (State.sendState_only _ _).core, (State.leaveActive_any _ _ _).core]

@[simp] theorem State.applyPort_core (p : Port) (s : State) : (s.applyPort p).core = s.core := by
  simp [State.applyPort, (State.prbsCount_only _ _).core, (State.sendState_only _ _).core]

@[simp] theorem State.trainApply_core (old s : State) : (State.trainApply old s).core = s.core := by simp [State.trainApply]

/-! ### The end of an item (R438, R440) -/

/-- The state in which the result of item `k` stands. -/
def State.itemNoted (k : Nat) (r : TestResult) (s : State) : State :=
  (({ s with power.items := k, power.tripHold := if 3 ≤ k then false else s.power.tripHold } : State).bistResult k r.tested r.failing).bump
    (devSlot (125 + k)) r.failing.length

theorem State.itemNoted_core (k : Nat) (r : TestResult) (s : State) : (s.itemNoted k r).core =
    (s.clk, k, s.power.sensed,
      AMap.put k (min 65535 r.tested, min 65535 r.failing.length, match r.failing.head? with | some f => f % 65536 | none => 65535) s.bist) := by
  rw [State.itemNoted, State.bump_core]
  rfl

/-- What follows an item's result does not change how far the start has come. -/
theorem State.itemDone_core {k : Nat} {s : State} (h : s.itemDue k = true) (r : TestResult) : (s.itemDone k r).core = (s.itemNoted k r).core := by
  unfold State.itemDone
  rw [if_neg (by simp [h])]
  extract_lets p u1 n u v w7 w8 w9 x9 y9 w10
  have hu : s.itemNoted k r = u := rfl
  have hv : v.core = u.core := State.startExclude_core n u
  rw [hu, ← hv]
  split
  · rw [hv]
    split
    · rfl
    · exact State.die_core ..
  · clear_value v
    split
    · simp
    · simp [w7]
    · simp [w8]
    · simp [w9, x9, y9]
    · simp [w10]

end Sys2Proof.Machine
end

section
/-! PROOFS. Sensing, self-test items and the memory test (R425, R438 to R440). -/

set_option Elab.async false

namespace Sys2Proof.Machine
open Sys2Proof
open State.only (here)

/-! ### Sensing (R381, R421 to R425) -/

/-- Between `s` and `t` neither the start goes on nor the memory or the topology changes. -/
structure State.sensing (s t : State) : Prop where
  core : t.core = s.core
  mem : t.mem = s.mem
  topo : t.topo = s.topo

namespace State.sensing

theorem refl (s : State) : s.sensing s := ⟨rfl, rfl, rfl⟩

theorem trans {s t u : State} (h : s.sensing t) (k : t.sensing u) : s.sensing u :=
  ⟨k.core.trans h.core, k.mem.trans h.mem, k.topo.trans h.topo⟩

theorem of_only {s t : State} {ps : List Part} {as : List Nat} (h : s.only ps as t) (hw : Part.power ∉ ps := by decide) (hb : Part.bist ∉ ps := by decide)
    (hm : Part.mem ∉ ps := by decide) (ht : Part.topo ∉ ps := by decide) : s.sensing t :=
  ⟨h.core hw hb, h.mem' hm, h.topo' ht⟩

theorem loop {α : Type} {f : α → State → State} (hf : ∀ (a : α) (u : State), u.sensing (f a u)) (l : List α) (s : State) : s.sensing (forEach l f s) :=
  forEach_keeps (s.sensing ·) f (fun a u h => h.trans (hf a u)) l s (refl s)

theorem fault (src unit : Nat) (pl : List Byte) (s : State) : s.sensing (s.fault src unit pl) :=
  ⟨State.fault_core .., State.fault_mem .., State.fault_topo ..⟩

theorem die (code item : Nat) (s : State) : s.sensing (s.die code item) :=
  ⟨State.die_core .., (State.die_only code item s).mem', (State.die_only code item s).topo'⟩

end State.sensing

theorem State.setCell_only (d c : Nat) (v : Cell) (s : State) : s.only [.fuse] [] (s.setCell d c v) := by
  unfold State.setCell
  dsimp only
  (repeat' split) <;> exact here.fuse _

theorem State.shadowRegion_only (r : FuseReg) (s : State) : s.only [.fuse] [] (s.shadowRegion r) := by
  unfold State.shadowRegion
  split <;> exact here.loop _ (fun _ _ => here.fuse _) _

theorem State.regionUpdate_only (r : FuseReg) (s : State) : s.only [.fuse, .regs] [Reg.PROT_STATUS] (s.regionUpdate r) := by
  have h : s.only [.fuse, .regs] [Reg.PROT_STATUS] (s.shadowRegion r) := (State.shadowRegion_only r s).mono
  unfold State.regionUpdate
  exact iteInduction (fun _ => (h.fuse _).cond ..) (fun _ => h.fuse _)

/-- A corrected word or a marginal cell: its flag, its count, its event. -/
theorem State.fuseEvent_sensing (f : Fld) (slot src : Nat) (s : State) :
    s.sensing (((s.raise Reg.FUSE_STATUS f).bump slot 1).fault src 0 []) :=
  (State.sensing.of_only ((here.raise ..).bump .. : s.only [.regs, .counts] [Reg.FUSE_STATUS] _)).trans (.fault ..)

theorem State.raise_sensing (a : Nat) (f : Fld) (s : State) : s.sensing (s.raise a f) :=
  .of_only (here.raise .. : s.only [.regs] [a] _)

theorem State.senseRegion_sensing (r : FuseReg) (s : State) : s.sensing (s.senseRegion r) := by
  have hr : s.sensing (s.regionUpdate r) := .of_only (State.regionUpdate_only r s)
  have hf (x : FuseS) (u : State) : u.sensing { u with fuse := x } := .of_only (here.fuse x : u.only [.fuse] [] _)
  unfold State.senseRegion
  refine iteInduction (fun _ => .trans ?_ (State.raise_sensing ..)) (fun _ => ?_)
  all_goals
    refine ((hr.trans (hf _ _)).trans (.loop (fun _ u => ?_) _ _)).trans (.loop (fun _ u => State.fuseEvent_sensing ..) _ _)
    exact iteInduction (fun _ => (State.fuseEvent_sensing ..).trans (State.raise_sensing ..)) (fun _ => State.fuseEvent_sensing ..)

theorem State.ownerSpares_only (k : Nat) (was : AMap SpareS) : ∀ (named l : List (Nat × Nat)) (s : State),
    s.only [.tiers, .regs] [Reg.FUSE_STATUS] (s.ownerSpares k was named l)
  | _, [], _ => here
  | named, e :: l, s => by
    rw [State.ownerSpares]
    refine State.only.trans ?_ (State.ownerSpares_only k was (e :: named) l _)
    exact iteInduction (fun _ => here.raise ..) (fun _ => here.modTier ..)

theorem State.spareLoad_only (k : Nat) (s : State) : s.only [.tiers, .regs] [Reg.FUSE_STATUS] (s.spareLoad k) := by
  unfold State.spareLoad
  split
  · exact ((here.modTier ..).loop _ (fun _ _ => here.modTier ..) _).trans (State.ownerSpares_only ..)
  · exact here

theorem State.ledgerFlags_only (s : State) : s.only [.regs] [Reg.THERM_STATUS] s.ledgerFlags :=
  (here.cond ..).cond ..

/-- What follows the mark of a sensed die. -/
theorem State.senseDie_sensing {d : Nat} {s : State} (hp : s.power.phase = .starting) (hn : bit s.power.sensed d = false) (hd : s.senseDue d = true)
    (drift : List (Nat × Cell)) : ({ s with power.sensed := setBits s.power.sensed d d 1 } : State).sensing (s.senseDie d drift) := by
  unfold State.senseDie
  rw [if_neg (by simp [hp, hn, hd])]
  extract_lets p u v w
  have hw : u.sensing w := (State.sensing.loop (fun (c : Nat × Cell) x => .of_only (State.setCell_only d c.1 c.2 x)) _ _).trans (.loop State.senseRegion_sensing _ _)
  change u.sensing _
  clear_value w
  refine hw.trans ?_
  split
  · refine .trans ?_ (.die ..)
    exact .of_only (State.only.blazeAt _ _ _ _ _ _ _ here : w.only [.blaze, .counts, .regs] [Reg.BLAZE_STATUS] _)
  · refine iteInduction (fun _ => ⟨rfl, rfl, rfl⟩) (fun _ => iteInduction (fun _ => ?_) (fun _ => .refl w))
    exact .of_only (((State.spareLoad_only _ w).mono.modTier _ _).step (State.ledgerFlags_only _) : w.only [.tiers, .regs] [Reg.FUSE_STATUS, Reg.THERM_STATUS] _)

/-- R421: the sensing of a die ends: it is marked, and neither memory nor topology changes. -/
theorem State.senses {die : Die} {s : State} (hp : s.power.phase = .starting) (hn : bit s.power.sensed die.ix = false) (hd : s.senseDue die.ix = true)
    (drift : List (Nat × Cell)) : ∃ t : State, exec (.fuseSenseDone die drift) s = .next t ∧ bit t.power.sensed die.ix = true ∧ t.mem = s.mem ∧
      t.topo = s.topo ∧ t.pending = s.pending ∧ t.now = s.now ∧ t.tick = s.tick := by
  obtain ⟨hc, hm, ht⟩ := State.senseDie_sensing hp hn hd drift
  have hsensed : (s.senseDie die.ix drift).power.sensed = setBits s.power.sensed die.ix die.ix 1 := (State.core_start hc).2.1
  refine ⟨_, rfl, ?_, hm, ht, rfl, rfl, rfl⟩
  change bit (s.senseDie die.ix drift).power.sensed die.ix = true
  rw [hsensed, bit_setBits]

/-! ### Self-test items (R438, R440) -/

theorem State.itemNoted_only (k : Nat) (r : TestResult) (s : State) : s.only [.power, .bist, .counts] [] (s.itemNoted k r) :=
  ((here.power _).bist _).bump ..

/-- The result of every item is recorded, whatever it sets going. -/
theorem State.itemRecorded {item : Fin 12} {s : State} (h : s.itemDue item.val = true) (r : TestResult) :
    ∃ t : State, exec (.selfTestItemDone item r) s = .next t ∧ t.power.items = item.val ∧
      AMap.find item.val t.bist = some (min 65535 r.tested, min 65535 r.failing.length,
        match r.failing.head? with | some f => f % 65536 | none => 65535) ∧
      t.pending = s.pending ∧ t.now = s.now ∧ t.tick = s.tick := by
  have hc : (State.trainApply s (s.itemDone item.val r)).core = (s.itemNoted item.val r).core :=
    (State.trainApply_core ..).trans (State.itemDone_core h r)
  rw [State.itemNoted_core] at hc
  refine ⟨_, rfl, congrArg (·.2.1) hc, ?_, rfl, rfl, rfl⟩
  refine (congrArg (fun x => AMap.find item.val x.2.2.2) hc).trans ?_
  exact AMap.find_put_self ..

/-- Items up to 5 lead to the dead state where they find a failure. -/
theorem State.itemDone_early {k : Nat} {s : State} (h : s.itemDue k = true) (hk : k ≤ 5) (r : TestResult) :
    s.itemDone k r = if r.failing.length = 0 then s.itemNoted k r else (s.itemNoted k r).die 0x11 k := by
  unfold State.itemDone
  rw [if_neg (by simp [h])]
  exact if_pos hk

theorem State.completes_item_good {item : Fin 12} {r : TestResult} {s : State} (hp : s.power.phase = .starting) (hw : s.regs.wait = [])
    (h : s.itemDue item.val = true) (hk : item.val ≤ 5) (hr : r.failing = []) :
    s.completes (.selfTestItemDone item r) [.power, .bist, .counts] [] (fun t => t.power.phase = .starting) := by
  have he : s.itemDone item.val r = s.itemNoted item.val r := (State.itemDone_early h hk r).trans (if_pos (by rw [hr]; rfl))
  have ho := State.itemNoted_only item.val r s
  refine State.completes_local (f := State.itemDone item.val r) rfl ?_ ?_ ?_ <;> rw [he]
  · exact ho.wait'.trans hw
  · exact ho
  · exact hp

theorem State.completes_item_dies {item : Fin 12} {r : TestResult} {s : State} (hw : s.regs.wait = []) (h : s.itemDue item.val = true)
    (hk : item.val ≤ 5) (hr : r.failing ≠ []) :
    s.completes (.selfTestItemDone item r) (.bist :: fatalParts) [Reg.BLAZE_STATUS]
      (fun t => t.power.phase = .dead ∧ t.power.failCode = 0x11 ∧ t.net.ports = {} ∧ t.power.relays = false) := by
  have he : s.itemDone item.val r = (s.itemNoted item.val r).die 0x11 item.val :=
    (State.itemDone_early h hk r).trans (if_neg (by simpa using hr))
  have ho : s.only (.bist :: fatalParts) [Reg.BLAZE_STATUS] ((s.itemNoted item.val r).die 0x11 item.val) :=
    (State.itemNoted_only item.val r s).mono.step (State.die_only ..)
  refine State.completes_local (f := State.itemDone item.val r) rfl ?_ ?_ ?_ <;> rw [he]
  · exact ho.wait'.trans hw
  · exact ho
  · exact State.die_dead ..

/-! ### Item 7: the ports start (R27, R78) -/

theorem State.openRelays_only (s : State) : s.only [.power, .counts] [] s.openRelays :=
  iteInduction (fun _ => ((here.power _).bump ..).bump ..) (fun _ => here)

theorem State.openRelays_opens {s : State} (hd : s.drives .e = true ∨ s.drives .w = true) (hr : s.power.relays = false) :
    s.openRelays.power = { s.power with relays := true, relayAt := some s.now } := by
  have h : s.openRelays = ({ s with power.relays := true, power.relayAt := some s.now } : State).relayCount :=
    if_pos (by simp [hd, hr])
  rw [h]
  rfl

theorem State.openRelays_alive (s : State) : s.openRelays.power.alive = s.power.alive ∧ s.openRelays.power.healthy = s.power.healthy := by
  unfold State.openRelays
  split <;> exact ⟨rfl, rfl⟩

/-- The registers of item 7: the flags of the crown port's halves. -/
abbrev crownFlags : List Nat := [Reg.LINK_STATUS .ca, Reg.LINK_STATUS .cb, Reg.NDL_STATUS]

theorem State.startCrown_only (s : State) : s.only portParts crownFlags ((s.startPort .ca).startPort .cb) :=
  (State.startPort_only .ca s).trans ((State.startPort_only .cb _).mono (ha := by simp [otherHalf]))

theorem State.itemDone_ports {r : TestResult} {s : State} (h : s.itemDue 7 = true) (hr : r.failing = []) (hf : s.portsFail = false) :
    s.itemDone 7 r = (s.itemNoted 7 r).startPorts := by
  obtain ⟨tested, failing, train, pins⟩ := r
  subst hr
  unfold State.itemDone
  rw [if_neg (by simp [h])]
  exact (if_neg (by decide)).trans (if_neg fun hx => Bool.false_ne_true (hf.symm.trans hx))

theorem State.completes_item_ports {r : TestResult} {s : State} (hw : s.regs.wait = []) (h : s.itemDue 7 = true) (hr : r.failing = [])
    (hf : s.portsFail = false) :
    s.completes (.selfTestItemDone 7 r) [.power, .bist, .counts, .ports, .regs, .notices] crownFlags
      (fun t => t.power.alive = true ∧ t.power.healthy = true ∧ ((s.drives .e = true ∨ s.drives .w = true) → s.power.relays = false →
        t.power.relays = true ∧ t.power.relayAt = some s.now)) := by
  have he := State.itemDone_ports h hr hf
  obtain ⟨u, hu⟩ : ∃ u : State, u = { s.itemNoted 7 r with power.alive := true, power.healthy := true } := ⟨_, rfl⟩
  have ho : s.only [.power, .bist, .counts] [] u := by rw [hu]; exact (State.itemNoted_only 7 r s).power _
  have hpow : u.power.alive = true ∧ u.power.healthy = true ∧ u.power.relays = s.power.relays ∧ u.now = s.now ∧ u.drives = s.drives := by
    rw [hu]; exact ⟨rfl, rfl, rfl, rfl, rfl⟩
  have hv := State.openRelays_only u
  have hx := State.startCrown_only u.openRelays
  have hall : s.only [.power, .bist, .counts, .ports, .regs, .notices] crownFlags ((u.openRelays.startPort .ca).startPort .cb) :=
    (ho.mono.step hv).step hx
  obtain ⟨halive, hhealthy, hrel, hnow, hdrives⟩ := hpow
  have hes : (s.itemNoted 7 r).startPorts = (u.openRelays.startPort .ca).startPort .cb := by rw [hu]; rfl
  refine State.completes_local (f := State.itemDone 7 r) rfl ?_ ?_ ?_ <;> rw [he, hes]
  · exact hall.wait'.trans hw
  · exact hall
  · rw [State.carry_power, hx.power']
    refine ⟨u.openRelays_alive.1.trans halive, u.openRelays_alive.2.trans hhealthy, fun hd hr => ?_⟩
    rw [State.openRelays_opens (hdrives ▸ hd) (hrel.trans hr), hnow]
    exact ⟨rfl, rfl⟩

/-! ### The memory test (R439, step 5 of R434) -/

/-- A channel whose tier has passed its memory test. -/
def ChanS.opened (c : ChanS) : ChanS := if c.retired then c else { c with pstate := .active }

/-- A channel takes up its work after the memory test. -/
def State.openChan (n : Nat) (s : State) : State := (s.modChan n ChanS.opened).chFlags n

theorem ChanS.opened_retired (c : ChanS) : c.opened.retired = c.retired := by
  unfold ChanS.opened
  split <;> rfl

theorem ChanS.opened_pstate (c : ChanS) : c.opened.pstate = if c.retired then c.pstate else .active := by
  unfold ChanS.opened
  split <;> rfl

theorem State.openChan_only (n : Nat) (s : State) : s.only [.chans, .regs] [Reg.CH_STATUS n] (s.openChan n) :=
  (here.modChan ..).step (State.chFlags_only ..)

theorem State.openChan_self (n : Nat) (s : State) : (s.openChan n).chan n = (s.chan n).opened := by
  rw [State.openChan, (State.chFlags_only ..).chan n, State.chan_modChan]

theorem State.openChan_other {n m : Nat} (h : m ≠ n) (s : State) : (s.openChan n).chan m = s.chan m := by
  rw [State.openChan, (State.chFlags_only ..).chan m, State.chan_modChan_ne h]

/-- Between `s` and `t` every channel keeps its retirement, and a retired one its state. -/
def State.keepsRetired (s t : State) : Prop :=
  ∀ m, (t.chan m).retired = (s.chan m).retired ∧ ((s.chan m).retired = true → (t.chan m).pstate = (s.chan m).pstate)

theorem State.openChan_retired (n : Nat) (s : State) : s.keepsRetired (s.openChan n) := by
  intro m
  by_cases e : m = n
  · subst e
    rw [State.openChan_self, ChanS.opened_retired, ChanS.opened_pstate]
    exact ⟨rfl, fun h => if_pos h⟩
  · rw [State.openChan_other e]
    exact ⟨rfl, fun _ => rfl⟩

theorem State.keepsRetired.trans {s t u : State} (h : s.keepsRetired t) (k : t.keepsRetired u) : s.keepsRetired u := fun m =>
  ⟨(k m).1.trans (h m).1, fun hr => ((k m).2 ((h m).1.trans hr)).trans ((h m).2 hr)⟩

/-- The channels of a tier take up their work. -/
def State.openTier (k : Nat) (s : State) : State := forEach ((List.range 8).map (8 * k + ·)) State.openChan s

/-- The flags of a tier's channels. -/
abbrev tierFlags (k : Nat) : List Nat := (List.range 8).map (fun c => Reg.CH_STATUS (8 * k + c))

theorem State.openTier_only (k : Nat) (s : State) : s.only [.chans, .regs] (tierFlags k) (s.openTier k) :=
  forEach_keeps_mem (s.only [.chans, .regs] (tierFlags k) ·) State.openChan _
    (fun n hn u hu => hu.trans ((State.openChan_only n u).mono (ha := fun a ha => by
      obtain ⟨c, hc, rfl⟩ := List.mem_map.1 hn
      rw [List.mem_singleton.1 ha]
      exact List.mem_map.2 ⟨c, hc, rfl⟩))) s here

theorem State.openTier_retired (k : Nat) (s : State) : s.keepsRetired (s.openTier k) :=
  forEach_keeps (s.keepsRetired ·) _ (fun n u h => h.trans (State.openChan_retired n u)) _ s fun _ => ⟨rfl, fun _ => rfl⟩

theorem State.openTier_pstate (k : Nat) (s : State) {c : Nat} (hc : c < 8) :
    ((s.openTier k).chan (8 * k + c)).pstate = if (s.chan (8 * k + c)).retired then (s.chan (8 * k + c)).pstate else .active := by
  obtain ⟨hret, hkeep⟩ := State.openTier_retired k s (8 * k + c)
  have hopen : ((s.openTier k).chan (8 * k + c)).retired = true ∨ ((s.openTier k).chan (8 * k + c)).pstate = .active := by
    refine forEach_reaches (fun n u => (u.chan n).retired = true ∨ (u.chan n).pstate = .active) State.openChan ?_ ?_ _ s
      (List.mem_map.2 ⟨c, List.mem_range.2 hc, rfl⟩)
    · intro n u
      rw [State.openChan_self, ChanS.opened_retired, ChanS.opened_pstate]
      cases (u.chan n).retired <;> simp
    · intro n m u h
      by_cases e : m = n
      · subst e
        rw [State.openChan_self, ChanS.opened_retired, ChanS.opened_pstate]
        cases (u.chan m).retired <;> simp
      · rwa [State.openChan_other e]
  cases hr : (s.chan (8 * k + c)).retired with
  | true => exact hkeep hr
  | false => exact hopen.resolve_left (by rw [hret, hr]; exact Bool.false_ne_true)

/-- A tier that has passed its memory test: its lines initialised where the start asks for it, the result recorded, the tier marked. -/
def State.marched (k : Nat) (s : State) : State :=
  let u := if s.power.cold ∨ s.isTest then s.fill (.tier k []) 0 else s
  let old := AMap.get 11 (0, 0, 65535) u.bist
  let v := ({ u with bist := AMap.put 11 (old.1 + 1, old.2) u.bist }).bump (devSlot 136) 0
  { v with power.startTiers := setBits v.power.startTiers k k 1 }

/-- Where every tier that lives has been tested, the start is no longer cold. -/
def State.allTested (s : State) : State := if s.tiersTested then { s with power.cold := false, power.memTested := true } else s

theorem State.memTested_eq {k : Nat} {s : State} (hp : s.power.phase = .starting) (hi : 10 ≤ s.power.items) (hl : s.tierLives k = true)
    (hb : bit s.power.startTiers k = false) (hu : ∀ u < k, s.tierLives u = true → bit s.power.startTiers u = true)
    (ha : (List.range 4).any ((s.marched k).openTier k).allTested.tierLives = true) :
    s.memTested k [] = ((s.marched k).openTier k).allTested := by
  have hall : (List.range k).all (fun u => !s.tierLives u || bit s.power.startTiers u) = true := by
    simpa only [List.all_eq_true, List.mem_range, Bool.or_eq_true, Bool.not_eq_true', ← Bool.not_eq_true, ← imp_iff_not_or] using hu
  unfold State.memTested
  rw [if_neg (by simp [hp, hl, hb, hall]; omega)]
  exact if_pos ha

theorem State.marched_only (k : Nat) (s : State) : s.only [.power, .bist, .counts, .mem] [] (s.marched k) := by
  have hf : s.only [.power, .bist, .counts, .mem] [] (if s.power.cold ∨ s.isTest then s.fill (.tier k []) 0 else s) :=
    iteInduction (fun _ => (State.fill_only ..).mono) (fun _ => here)
  exact ((hf.bist _).bump ..).power _

theorem State.marched_mem (k : Nat) (s : State) :
    (s.marched k).mem = if s.power.cold ∨ s.isTest = true then (s.fill (.tier k []) 0).mem else s.mem := by
  change (if s.power.cold ∨ s.isTest then s.fill (.tier k []) 0 else s).mem = _
  split <;> rfl

theorem State.marched_tiers (k : Nat) (s : State) : bit (s.marched k).power.startTiers k = true := bit_setBits ..

theorem State.allTested_only (s : State) : s.only [.power] [] s.allTested :=
  iteInduction (fun _ => here.power _) (fun _ => here)

theorem State.allTested_tiers (s : State) : s.allTested.power.startTiers = s.power.startTiers := by
  unfold State.allTested
  split <;> rfl

theorem State.keepsRetired.tierLives {s t : State} (h : s.keepsRetired t) (k : Nat) : t.tierLives k = s.tierLives k := by
  simp only [State.tierLives, (h _).1]

theorem State.keepsRetired_of_only {s t : State} {ps : List Part} {as : List Nat} (h : s.only ps as t) (hc : Part.chans ∉ ps := by decide) : s.keepsRetired t :=
  fun m => by rw [h.chan m hc]; exact ⟨rfl, fun _ => rfl⟩

theorem State.completes_memTest {k : Fin 4} {s : State} (hp : s.power.phase = .starting) (hs : s.still) (hi : 10 ≤ s.power.items)
    (hl : s.tierLives k.val = true) (hb : bit s.power.startTiers k.val = false) (hu : ∀ u < k.val, s.tierLives u = true → bit s.power.startTiers u = true) :
    s.completes (.memorySelfTestDone k []) [.power, .bist, .counts, .chans, .regs, .mem] (tierFlags k.val)
      (fun t => bit t.power.startTiers k.val = true ∧
        (∀ c < 8, (t.chan (8 * k.val + c)).pstate = if (s.chan (8 * k.val + c)).retired then (s.chan (8 * k.val + c)).pstate else .active) ∧
        t.mem = if s.power.cold ∨ s.isTest = true then (s.fill (.tier k.val []) 0).mem else s.mem) := by
  have h1 := State.marched_only k.val s
  have h2 := State.openTier_only k.val (s.marched k.val)
  have h3 := State.allTested_only ((s.marched k.val).openTier k.val)
  have ho : s.only [.power, .bist, .counts, .chans, .regs, .mem] (tierFlags k.val) ((s.marched k.val).openTier k.val).allTested :=
    ((h1.mono.trans h2.mono).step h3)
  have hkeep : s.keepsRetired ((s.marched k.val).openTier k.val).allTested :=
    ((State.keepsRetired_of_only h1).trans (State.openTier_retired _ _)).trans (State.keepsRetired_of_only h3)
  have hlive : (List.range 4).any ((s.marched k.val).openTier k.val).allTested.tierLives = true :=
    List.any_eq_true.2 ⟨k.val, List.mem_range.2 k.isLt, (hkeep.tierLives k.val).trans hl⟩
  have hx := State.memTested_eq hp hi hl hb hu hlive
  have hrun : s.running = false := by rw [State.running, hp]; rfl
  have hf : (if s.running then s.bistMem k [] else s.memTested k []) = ((s.marched k.val).openTier k.val).allTested :=
    (if_neg (by rw [hrun]; exact Bool.false_ne_true)).trans hx
  refine State.completes_always (f := fun s => if s.running then s.bistMem k [] else s.memTested k []) rfl ?_ ?_ ?_ <;> rw [hf]
  · exact ho.still hs
  · exact ho
  · rw [State.carry_power, State.carry_mem, State.allTested_tiers, h2.power', h3.mem', h2.mem']
    refine ⟨State.marched_tiers .., fun c hc => ?_, State.marched_mem ..⟩
    rw [State.carry_chan, h3.chan, State.openTier_pstate _ _ hc, h1.chan]

/-- Settles O4: what a self-test item or a sensed die sets going never touches the record of the start; the quiet cases are followed to their end. -/
theorem selfTest : Obligations.SelfTest := fun _ hp hw =>
  ⟨fun _ drift hn hd => State.senses hp hn hd drift, fun _ r h => State.itemRecorded h r,
    fun _ _ h hk hr => State.completes_item_good hp hw h hk hr, fun _ _ h hk hr => State.completes_item_dies hw h hk hr,
    fun _ h hr hf => State.completes_item_ports hw h hr hf,
    fun _ hs hi hl hb hu => State.completes_memTest hp hs hi hl hb hu⟩

end Sys2Proof.Machine
end
